-- ==== Sys2Proof/Word.lean ====
section
/-! DEFINITION. The word types of the PQ4820 model.

A value that the manual adds, shifts or masks as a word is a bit vector; a count, an index or an address key is a `Nat`.
Rule labels R1 to R777 are those of the spec. -/

set_option Elab.async false

namespace Sys2Proof

/-- One byte of a buffer, memory or message. -/
abbrev Byte := BitVec 8
/-- A 32-bit register of the control aperture (R2, R35). -/
abbrev W32 := BitVec 32
/-- A 64-bit table word (R101, R172, R175) or scribe register (R423). -/
abbrev W64 := BitVec 64
/-- A 64-byte line (R211) or a scribe vector register (R423). -/
abbrev Line := BitVec 512

end Sys2Proof
end

