-- ==== Sys2Proof/Syntax.lean ====
section
/-! DEFINITION. The commands that the PQ4820 block takes: one constructor of `Instr` per row of spec/opcode_table.json, in
the table's order, with the operands that the rule of the row gives it. -/

set_option Elab.async false

namespace Sys2Proof

/-- An error that a request meets in an array on its way (R235, R259, R675, R680, R681). -/
inductive PathErr where
  | none
  /-- A corrected error in the cache way that holds the line, with its array row. -/
  | cacheCe (row : Nat)
  /-- An uncorrectable error in the cache data of the line. -/
  | cacheUe
  /-- Both copies of the line's tag are uncorrectable. -/
  | tagUe
  /-- Both copies of the line's snoop-filter entry are uncorrectable. -/
  | filterUe
  /-- A DRAM read of the line with errors: the device that each of its 8 code words points to, 10 where it carries none, more
  where it cannot be corrected (R259); the snapshot words, should it freeze the channel (R283). -/
  | dramRead (points words : List Nat)
  /-- An uncorrectable error in a request buffer. -/
  | bufferUe
  /-- An uncorrectable error in the line's merge-buffer entry. -/
  | mergeUe
deriving DecidableEq, Repr

/-- Who submits a maintenance job (R730): a mailbox (0 to 127 logical devices, 128 + i GFD identities, 512 the BMC),
firmware through `MAINT_REQ`, or the controller itself. -/
inductive JobFrom where
  | mailbox (mb : Nat)
  /-- A mailbox whose MAINT_SUBMIT carries this payload as it stands (R128): the payload names activity, target and parameters
  in place of the row's operands. -/
  | payload (mb : Nat) (input : List Byte)
  | firmware
  | controller
deriving DecidableEq, Repr

/-- An uncorrectable error that a DMA channel meets (R441, R682): none, in its own buffer, or in an inkwell or reservoir
source. -/
inductive DmaErr where
  | none | buffer | source
deriving DecidableEq, Repr

/-- What a NAND leaf program was for (R305, R327, R715): a position of a quire, a replica of a journal leaf on a slot, or a
leaf of the prompt-book log. -/
inductive Program where
  | quire (quire pos : Nat)
  | journal (index slot : Nat)
  | log
deriving DecidableEq, Repr

/-- How a folio read from flash ends (R314, R689): good, uncorrectable, with a finding of the folio check,
or with the DMA channel that carried it halted (R682). -/
inductive ReadEnd where
  | good | uncorrectable | badCrc | badGen | badDpa | dmaHalt
deriving DecidableEq, Repr

/-- The header of a twin message that matters to its receiver (R536): the sender's epoch, its sequence, its ack. -/
structure TwinHead where
  epoch : Nat
  seq : Nat
  ack : Nat
deriving DecidableEq, Repr

/-- What the sentinel's mains inputs read (R576, R578): PSU_AC_FAIL_N asserted, PSU_PWR_OK asserted, the BULK_SENSE count. -/
structure Mains where
  ac : Bool
  ok : Bool
  bulk : Nat
deriving DecidableEq, Repr

/-- What one identity moved in a metering interval (R609): bytes at the host-link pins, cache lookups, DRAM accesses, bytes
staged, 64-byte pieces newly made dirty, scribe issue cycles. -/
structure MeterCounts where
  pins : Nat
  lookups : Nat
  dram : Nat
  staged : Nat
  dirtied : Nat
  cycles : Nat
deriving DecidableEq, Repr

/-- How the requester of an SPDM session has authenticated itself when it sends FINISH (R653 to R655): not asked, with a
certificate whose leaf key has this hash, or failing. -/
inductive Requester where
  | anonymous
  | authenticated (leaf : Nat)
  | failed
deriving DecidableEq, Repr

/-- What the SRAM patrol finds in a word (R675, R676): nothing, a corrected error in a row of an array class, or an
uncorrectable one. -/
inductive PatrolFind where
  | good
  | corrected (cls row : Nat)
  /-- A corrected word of cache data: slice, way and array row (R235). -/
  | cacheWord (slice way row : Nat)
  /-- Cache data, tag or snoop-filter entry of a line, or a merge-buffer entry. -/
  | line (err : PathErr) (line : Nat)
  /-- A prompt-book record's slot. -/
  | record (slot : Nat)
  /-- Any other word of a class. -/
  | other (cls place : Nat)
deriving DecidableEq, Repr

/-- What the hardware answers a maintenance job that starts: `ok` whether soft repair is had and reads back (DRAM_REPAIR),
training and the pattern test pass (DRAM_RELEASE), the built-in test passes (SCRIBE_SWAP) or signer and signature of the image
are right (FW_UPDATE); the hottest DIMM and the refreshes falling due (DRAM_RETRAIN); the words of a new snapshot
(DRAM_RELEASE); the failing tests of bits 1 to 3 (REHEARSAL). -/
structure JobOut where
  ok : Bool
  temp : Nat
  owed : Nat
  words : List Nat
  fail : Nat
deriving DecidableEq, Repr

/-- The DIMMs that the SPDs of one DRAM channel show (R241): how many, GiB and ranks of each, device density, whether the modules
are DDR5 RDIMMs with ECC, the width of a device in bits, devices per 40-bit subchannel, and the speed rating in MT/s. -/
structure DimmSet where
  count : Nat
  gib : Nat
  ranks : Nat
  density : Nat
  rdimm : Bool
  width : Nat
  devices : Nat
  speed : Nat
deriving DecidableEq, Repr

/-- A cartridge found in a slot at a power-on (R289, R290, R340): its identity record and retirement mask as read, the die
indexes that answer once it is powered, and the channels of the slot that fail to initialize or train. -/
structure FoundCart where
  slot : Nat
  dies : Nat
  cls : Nat
  serial : Nat
  mask : Nat
  recordGood : Bool
  answered : Nat
  fail : Nat
deriving DecidableEq, Repr

/-- What the tests of step 7 of a start find (R66, R235, R241, R246, R247, R269, R413, R677, R678): the DIMMs by channel, the
channels that train, the array class of each soft repair applied, the spares left by class, cache ways (slice, way) that fail,
corrected errors met in cache ways (slice, way, row), inkwells by scribe and reservoirs by cluster beyond repair, other array
classes beyond repair, scribes that pass, DRAM rows (channel, row) converted to hard repair, the cartridges present. -/
structure Rehearsed where
  dimms : List DimmSet
  trained : List Nat
  /-- At a warm start: the channels that fail their first access check (R246). -/
  accessFail : List Nat
  soft : List Nat
  spares : List (Nat × Nat)
  badWays : List (Nat × Nat)
  wayErrors : List (Nat × Nat × Nat)
  badInkwells : List Nat
  badReservoirs : List Nat
  badArrays : List Nat
  scribes : List Nat
  hard : List (Nat × Nat)
  carts : List FoundCart
deriving DecidableEq, Repr

/-- A journal record (R325): type and body numbers in the order of the table. -/
structure JRec where
  type : Nat
  args : List Nat
deriving DecidableEq, Repr

/-- One line of a store: line address, byte mask, data (R152, R454). -/
structure LineWrite where
  line : Nat
  mask : Nat
  data : Line
deriving DecidableEq, Repr

/-- The commands of the block. -/
inductive Instr where
  /-- POWER_ON_RESET (R66): VDD_AON rises through its threshold; every domain resets and the power-on sequence begins on the RC oscillator. -/
  | powerOnReset (m : Mains) (delivered : List Host.Cell)
  /-- ROOT_PLL_LOCK (R66): The root PLL locks to REFCLK and the derived clocks start, ending step 4 of the power-on sequence. -/
  | rootPllLock
  /-- BOOT_VERIFIED (R648): The security core completes its boot chain, loads and measures the images, derives keys and releases the stage cores. -/
  | bootVerified (matched signed : List Nat) (vout : List (Nat × Nat))
  /-- CONFIG_SET_LOAD (R80): The stage cores load the configuration set, choose the newer valid copy, or fall back to reset values with SERVICE. -/
  | configSetLoad
  /-- POWER_ON_REHEARSAL (R66): Rehearsal of step 7 ends: hold-up measurement, DRAM training or self-refresh exit, SRAM self-test and scribe assignment. -/
  | powerOnRehearsal (r : Rehearsed)
  /-- RAIL_START_FAIL (R746): A main rail group is not within tolerance 20 ms after it began; rails go down and the board is power-cycled. -/
  | railStartFail
  /-- REFCLK_LOST (R52): No REFCLK edge for the detection time; the sentinel moves to the RC oscillator and starts a strike. -/
  | refclkLost
  /-- PLL_UNLOCK (R56): The root PLL loses lock with REFCLK present and runs in holdover; treated as loss of REFCLK. -/
  | pllUnlock
  /-- CLK_HOLDOVER_FAIL (R56): A 10 µs count finds the holdover clock more than 2,000 ppm off; the strike stops and the board is power-cycled. -/
  | clkHoldoverFail
  /-- REFCLK_RESTORED (R54): After a REFCLK-loss strike, REFCLK has been present 10 ms and BOARD_PWR_CYCLE_N is asserted. -/
  | refclkRestored
  /-- SYS_RESET_N (R59): A device reset is sampled; links freeze, the cache is walked back, DRAM enters self-refresh and domains reset. -/
  | sysResetN
  /-- SYS_RESET_N_RELEASE (R749): SYS_RESET_N is released and the start sequence continues from its security-core step. -/
  | sysResetNRelease
  /-- PERST_N (R727): PERST_N of a link resets that link's domain and logical devices. -/
  | perstN (link : Nat) (low : Bool)
  /-- CXL_RESET (R58): A CXL Reset resets the link or the device according to RST_CTL.cxl_reset_dev. -/
  | cxlReset (link : Nat)
  /-- SEC_FAULT (R679): An uncorrectable error or lockstep mismatch in security or curtain state requests a device reset. -/
  | secFault
  /-- SCENE_REQ (R85): A stage core writes SCENE_REQ with go; the request is checked and a boundary is made pending or refused. -/
  | sceneReq (value : Nat)
  /-- SCENE_BOUNDARY (R86): The composed configuration passes from shadow to live registers on one CLK_CTL edge. -/
  | sceneBoundary
  /-- CTL_UNMAPPED (R36): A stage-core access to an unassigned aperture offset reads zero or is discarded. -/
  | ctlUnmapped (off : Nat) (write : Bool)
  /-- REGISTER_WRITE (R2): A write to a register that has no row of its own takes effect under its access codes. -/
  | registerWrite (off value : Nat)
  /-- LINK_UP (R139): A host link becomes active with CXL negotiated. -/
  | linkUp (link width speed : Nat) (flitLo cxl : Bool)
  /-- LINK_DOWN (R139): A host link leaves the active state. -/
  | linkDown (link : Nat)
  /-- HOST_LOAD (R25): A CXL.mem M2S Req load is checked, tracked and served from cache, DRAM, staging or poison. -/
  | hostLoad (link key hpa tag : Nat) (own : Bool) (err : PathErr)
  /-- HOST_STORE (R152): A CXL.mem RwD store is checked, tracked, passes the gates and is applied, mirrored and completed. -/
  | hostStore (link key hpa tag mask : Nat) (data : Line) (err : PathErr)
  /-- BIRSP (R115): A host's BIRsp arrives; when all holders have answered the filter entry frees and the waiting request proceeds. -/
  | birsp (link key line : Nat)
  /-- BI_SLOW (R117): A BIRsp has been outstanding another HPORT_BI_WARN interval. -/
  | biSlow
  /-- IDE_INTEGRITY_FAIL (R119): A received flit fails IDE integrity; the stream becomes insecure and responses are withheld. -/
  | ideIntegrityFail (link : Nat)
  /-- KEY_PROG (R118): IDE_KM programs keys for a link's IDE stream. -/
  | keyProg (link : Nat) (busy : Bool)
  /-- DOE_REQUEST (R121): A DOE Discovery or CDAT request is handled one at a time. -/
  | doeRequest (link protocol : Nat) (done : Bool)
  /-- HDM_COMMIT (R109): An HDM decoder commit is accepted or refused. -/
  | hdmCommit (dev index base size skip ways granularity : Nat) (lock : Bool)
  /-- HDM_UNCOMMIT (R110): An unlocked decoder is uncommitted. -/
  | hdmUncommit (dev index : Nat)
  /-- ADD_CAPACITY (R112): The host accepts offered DC extents; the window is set and committed before acceptance is reported. -/
  | addCapacity (dev base limit rights : Nat)
  /-- RELEASE_CAPACITY (R113): A release or forced removal clears and commits the window before confirming. -/
  | releaseCapacity (dev base limit : Nat)
  /-- GPF_PHASE1 (R135): GPF phase 1 needs no action. -/
  | gpfPhase1 (link : Nat)
  /-- GPF_PHASE2 (R135): GPF phase 2 applies a persist barrier over all regions and then answers. -/
  | gpfPhase2 (link : Nat)
  /-- IDENTIFY_MEMORY_DEVICE (R100): Reports capacity as persistent-only. -/
  | identifyMemoryDevice (mb : Nat) (input : List Byte)
  /-- GET_HEALTH_INFO (R124): Standard mailbox command. -/
  | getHealthInfo (mb : Nat) (input : List Byte)
  /-- GET_TIMESTAMP (R124): Standard mailbox command. -/
  | getTimestamp (mb : Nat) (input : List Byte)
  /-- SET_TIMESTAMP (R124): Standard mailbox command. -/
  | setTimestamp (mb : Nat) (input : List Byte)
  /-- GET_SUPPORTED_LOGS (R124): Standard mailbox command. -/
  | getSupportedLogs (mb : Nat) (input : List Byte)
  /-- GET_LOG (R124): Standard mailbox command. -/
  | getLog (mb : Nat) (input : List Byte)
  /-- GET_EVENT_RECORDS (R698): Reads event records of a logical device's log. -/
  | getEventRecords (mb : Nat) (input : List Byte)
  /-- CLEAR_EVENT_RECORDS (R698): Clears event records and re-arms the vector of that event ID. -/
  | clearEventRecords (mb : Nat) (input : List Byte)
  /-- GET_EVENT_INTERRUPT_POLICY (R124): Standard mailbox command. -/
  | getEventInterruptPolicy (mb : Nat) (input : List Byte)
  /-- SET_EVENT_INTERRUPT_POLICY (R124): Standard mailbox command. -/
  | setEventInterruptPolicy (mb : Nat) (input : List Byte)
  /-- GET_ALERT_CONFIGURATION (R124): Standard mailbox command. -/
  | getAlertConfiguration (mb : Nat) (input : List Byte)
  /-- SET_ALERT_CONFIGURATION (R124): Standard mailbox command. -/
  | setAlertConfiguration (mb : Nat) (input : List Byte)
  /-- GET_PARTITION_INFO (R124): Standard mailbox command. -/
  | getPartitionInfo (mb : Nat) (input : List Byte)
  /-- GET_LSA (R124): Reads label storage. -/
  | getLsa (mb : Nat) (input : List Byte)
  /-- SET_LSA (R124): Writes label storage. -/
  | setLsa (mb : Nat) (input : List Byte)
  /-- GET_POISON_LIST (R125): Reports DPA ranges of LOST folios. -/
  | getPoisonList (mb : Nat) (input : List Byte)
  /-- GET_FW_INFO (R124): Reports the two boot slots. -/
  | getFwInfo (mb : Nat) (input : List Byte)
  /-- TRANSFER_FW (R126): Writes an image part into the staging area. -/
  | transferFw (mb : Nat) (input : List Byte)
  /-- ACTIVATE_FW (R638): Verifies the staged image, copies it to the inactive slot, writes the swap entry and starts the roll. -/
  | activateFw (mb : Nat) (input : List Byte) (signed : Bool)
  /-- MAILBOX_UNSUPPORTED (R127): An unassigned standard or vendor opcode returns Unsupported. -/
  | mailboxUnsupported (mb opcode : Nat)
  /-- GET_DEVICE_INFO (R128): Returns stepping, role, epoch, scenes, capacity, ink and ceiling. -/
  | getDeviceInfo (mb : Nat) (input : List Byte)
  /-- GET_EPOCH (R128): Returns role, epoch and lease remaining. -/
  | getEpoch (mb : Nat) (input : List Byte)
  /-- DEVICE_RESET (R131): Vendor device reset, held during load-in, discarded during a strike. -/
  | deviceReset (mb : Nat) (input : List Byte)
  /-- LD_RESET (R726): Resets one logical device: tickets, queues, scripts, routing, decoders and BI holdings. -/
  | ldReset (mb : Nat) (input : List Byte)
  /-- REGION_READ (R128): Returns a region entry. -/
  | regionRead (mb : Nat) (input : List Byte)
  /-- REGION_WRITE (R128): Writes a shadow region entry. -/
  | regionWrite (mb : Nat) (input : List Byte)
  /-- ACCESS_STAGE (R128): Writes a shadow identity entry and its windows. -/
  | accessStage (mb : Nat) (input : List Byte)
  /-- ACCESS_COMMIT (R102): Requests a commit of the shadow tables from the mailbox. -/
  | accessCommit (mb : Nat) (input : List Byte)
  /-- ACC_COMMIT (R766): A write of ACC_COMMIT.go requests a commit, or is discarded while busy. -/
  | accCommit (value : Nat)
  /-- COMMIT_EDGE (R104): After checks, waits and counter-signature, the commit is refused or copied to the live tables at one edge. -/
  | commitEdge
  /-- PERSIST_BARRIER (R135): Returns when the persist barrier holds for a region or all regions. -/
  | persistBarrier (mb : Nat) (input : List Byte)
  /-- INK_READ (R128): Returns ink, limit, curtain limit and blot rate. -/
  | inkRead (mb : Nat) (input : List Byte)
  /-- INK_LIMIT_SET (R198): Sets INK_LIMIT in bytes and returns the ceiling in force. -/
  | inkLimitSet (mb : Nat) (input : List Byte)
  /-- INK_LIMIT_WRITE (R196): A write of INK_LIMIT clamps the limit, resizes the pair pool and changes the ceiling. -/
  | inkLimitWrite (value : Nat)
  /-- SCENE_SET (R128): Requests condition and transient scene bits through SCENE_CHANGE. -/
  | sceneSet (mb : Nat) (input : List Byte)
  /-- MAINT_STATUS (R733): Returns the state of a job. -/
  | maintStatus (mb : Nat) (input : List Byte)
  /-- MAINT_CANCEL (R733): Cancels a queued job or acts on a running job per the cancel column. -/
  | maintCancel (mb : Nat) (input : List Byte)
  /-- PREPARE_REMOVAL (R371): SLOT_CONTROL action 0 requests removal of a slot. -/
  | prepareRemoval (mb : Nat) (input : List Byte)
  /-- SLOT_POWER_ON (R376): SLOT_CONTROL action 1 lets an ADMITTING slot proceed. -/
  | slotPowerOn (mb : Nat) (input : List Byte)
  /-- LED_LOCATE (R378): SLOT_CONTROL action 2 lights the locate pattern for 60 s. -/
  | ledLocate (mb : Nat) (input : List Byte)
  /-- FREEZE_SNAPSHOT (R279): Returns DMC_FREEZE_SNAP and marks it read. -/
  | freezeSnapshot (mb : Nat) (input : List Byte)
  /-- FREEZE_RELEASE (R279): Submits the release of a frozen channel. -/
  | freezeRelease (mb : Nat) (input : List Byte) (pass : Bool) (words : List Nat)
  /-- FREEZE_SNAP_READ (R279): A read of word 63 of DMC_FREEZE_SNAP marks the snapshot read. -/
  | freezeSnapRead (c : Nat)
  /-- PBOOK_READ (R714): Returns prompt-book records from a sequence and sets their read flags. -/
  | pbookRead (mb : Nat) (input : List Byte)
  /-- PBOOK_ACK (R712): Acknowledges a FATAL record. -/
  | pbookAck (mb : Nat) (input : List Byte)
  /-- TALLY_READ (R719): Returns a tally record. -/
  | tallyRead (mb : Nat) (input : List Byte)
  /-- ENERGY_READ (R608): Returns an identity's energy meter. -/
  | energyRead (mb : Nat) (input : List Byte)
  /-- POWER_CAP_SET (R606): Sets the power cap and returns the cap in force. -/
  | powerCapSet (mb : Nat) (input : List Byte)
  /-- SENT_PCAP (R606): A write of SENT_PCAP.cap clamps and sets the cap. -/
  | sentPcap (value : Nat)
  /-- KEY_LOAD (R661): Decides a key blob load into an owner slot. -/
  | keyLoad (mb : Nat) (input : List Byte) (good : Bool)
  /-- KEY_LOADED (R662): The slot's use count reaches zero and the new key is loaded and stored. -/
  | keyLoaded (slot : Nat)
  /-- KEY_STATUS (R673): Returns a slot's state and use count. -/
  | keyStatus (mb : Nat) (input : List Byte)
  /-- REHEARSAL_RUN (R736): Submits a REHEARSAL job and answers with the failing-test mask. -/
  | rehearsalRun (mb : Nat) (input : List Byte) (fail : Nat)
  /-- TWIN_STATUS (R572): Returns role, link state, epoch, lag and resync progress. -/
  | twinStatus (mb : Nat) (input : List Byte)
  /-- QUEUE_CREATE (R504): Creates a queue pair or refuses it. -/
  | queueCreate (mb : Nat) (input : List Byte)
  /-- QUEUE_DELETE (R506): Stops a queue and ends its tickets without completion. -/
  | queueDelete (mb : Nat) (input : List Byte)
  /-- SCRIPT_LOAD (R432): Loads and checks a script image into the reservoirs of its clusters. -/
  | scriptLoad (mb : Nat) (input : List Byte)
  /-- SCRIPT_UNLOAD (R128): Unloads a script unless a ticket of it is admitted. -/
  | scriptUnload (mb : Nat) (input : List Byte)
  /-- EVENT_ROUTE (R698): Writes an event routing byte of the logical device. -/
  | eventRoute (mb : Nat) (input : List Byte)
  /-- CLASS_STARVED (R150): A class has waited longer than 1 ms for a credit at a stage. -/
  | classStarved (cls stage : Nat)
  /-- BOUNDED_GATE_CLOSED (R158): The oldest unacknowledged BOUNDED store reaches 48 µs and the gate closes. -/
  | boundedGateClosed
  /-- HOLD_POISON (R154): A load held behind an applied store reaches its stall bound and completes with poison. -/
  | holdPoison
  /-- STALL_BOUND_POISON (R388): A staging waiter's stall bound expires and it completes with poison. -/
  | stallBoundPoison
  /-- SECOND_COPY_BUILT (R770): A build of missing second ink copies ends, releasing waiting commits or ending solo_copies. -/
  | secondCopyBuilt (f : Nat)
  /-- CLEAN (R221): Cache maintenance: write back dirty lines from an address. -/
  | clean
  /-- INVALIDATE (R222): Cache maintenance: discard lines from an address, persistent dirty lines written back. -/
  | invalidate
  /-- FLUSH (R221): Cache maintenance: clean then invalidate lines from an address. -/
  | flush
  /-- CLEAN_SET (R221): Cache maintenance: clean one set of one slice. -/
  | cleanSet (slice set : Nat)
  /-- INVALIDATE_SET (R222): Cache maintenance: invalidate one set of one slice. -/
  | invalidateSet (slice set : Nat)
  /-- FLUSH_SET (R221): Cache maintenance: flush one set of one slice. -/
  | flushSet (slice set : Nat)
  /-- CLEAN_ALL (R225): Cache maintenance: clean the whole array. -/
  | cleanAll
  /-- INVALIDATE_ALL (R222): Cache maintenance: invalidate the whole array and clear stale. -/
  | invalidateAll
  /-- FLUSH_ALL (R221): Cache maintenance: flush the whole array. -/
  | flushAll
  /-- DISABLE (R227): Holds slice inputs and disables the cache if no persistent line is dirty. -/
  | disable
  /-- ENABLE (R230): Returns the cache to service with its contents as they stand. -/
  | enable
  /-- WAY_DISABLE (R234): Flushes a way and marks it soft-disabled, unless fewer than 8 ways would remain. -/
  | wayDisable (slice way : Nat)
  /-- WAY_ENABLE (R221): Returns a soft-disabled way to service. -/
  | wayEnable (slice way : Nat)
  /-- SCACHE_MAINT_DONE (R240): A cache maintenance operation completes with its status. -/
  | scacheMaintDone
  /-- RETRAIN_PAUSE (R249): A retraining pause falls due by period or temperature and runs unless deferred. -/
  | retrainPause (c temp owed : Nat)
  /-- RETRAIN_LATE (R250): A pause has been deferred longer than four periods. -/
  | retrainLate (c : Nat)
  /-- REFRESH (R252): A refresh interval ends; the refresh is issued or postponed as debt. -/
  | refresh (c : Nat) (busy : Bool)
  /-- MAKE_UP_BURST (R253): The debt reaches max_postpone or the queue empties and owed refreshes issue back to back. -/
  | makeUpBurst (c : Nat) (empty : Bool)
  /-- MERGE_ENTRY_WRITE (R261): A merge-buffer entry held 1 µs is written to DRAM. -/
  | mergeEntryWrite (line : Nat)
  /-- SELF_REFRESH_ENTRY (R255): In INTERMISSION a channel idle for idle_sr enters self-refresh. -/
  | selfRefreshEntry (c : Nat)
  /-- PATROL_SCRUB (R264): Patrol reads a line, rewrites corrected data, or retires or freezes on an uncorrectable line. -/
  | patrolScrub (c frame line : Nat) (points : List Nat) (progress : Nat) (pass : Bool) (words : List Nat)
  /-- DMC_FROZEN (R272): A channel freezes on an uncorrectable read, CA parity or persistent write CRC error, and its contents are replaced. -/
  | dmcFrozen (c cause cls : Nat) (dpa : Option Nat) (words : List Nat)
  /-- LEAF_READ_DONE (R314): A NAND leaf read completes, with decoding, retries, decryption and folio check, feeding staging, relocation or rebuild. -/
  | leafReadDone (folio cls : Nat) (out recon : ReadEnd) (fixed : Nat) (suspended : Bool)
  /-- SLOW_READ_ABANDON (R343): A leaf read exceeds QUIRE_SLOW_TIMEOUT and is treated as a missing member. -/
  | slowReadAbandon (folio cls : Nat) (recon : ReadEnd)
  /-- QUIRE_OPEN (R305): The blotter gathers due folios, opens a group if needed, journals QUIRE_OPEN and issues the leaf programs. -/
  | quireOpen (redo : List Nat) (halt : Bool)
  /-- LEAF_PROGRAM_DONE (R305): A NAND program completes; quires, journal and log leaves advance and ink falls. -/
  | leafProgramDone (what : Program) (ok : Bool)
  /-- ERASE_DONE (R331): A NAND block erase completes; ERASE_DONE is journaled and the permit cleared, or the block is retired. -/
  | eraseDone (block : Nat) (ok : Bool)
  /-- JOURNAL_FLUSH (R327): flush_ms after its first record, a journal leaf is written to three slots. -/
  | journalFlush
  /-- RECLAIM (R319): With free blocks below free_low, reclaim picks a victim group and relocates its current folios. -/
  | reclaim (room : Bool)
  /-- CART_FAILED (R349): A cartridge is declared FAILED, powered off, groups truncated and DEGRADED requested. -/
  | cartFailed (slot cause : Nat)
  /-- RESHAPE_DELAY_EXPIRY (R367): reshape_delay after a fall of the width, the reshape job is submitted. -/
  | reshapeDelayExpiry
  /-- CART_PRESENT (R377): SLOT_PRSNT_N is asserted for the debounce time; the slot is ADMITTING and the identity record is checked. -/
  | cartPresent (slot dies cls serial mask : Nat) (recordGood : Bool)
  /-- CART_ADMITTED (R381): Channels are trained and ring and reserve formed; the slot is IN_SERVICE. -/
  | cartAdmitted (slot : Nat)
  /-- SLOT_PWR_FAIL (R373): SLOT_PGOOD fails to follow SLOT_PWR_EN within its bound. -/
  | slotPwrFail (slot : Nat)
  /-- CART_REMOVABLE (R371): SLOT_PGOOD deasserts after power-off and the slot is REMOVABLE. -/
  | cartRemovable (slot : Nat)
  /-- CART_REMOVED (R376): SLOT_PRSNT_N deasserts on a removable, refused or failed slot; the slot is EMPTY. -/
  | cartRemoved (slot : Nat)
  /-- CONTEXT_START (R416): An admitted ticket is assigned a scribe context, which is zeroed, initialised and started, and its cue run opens. -/
  | contextStart
  /-- SCRIBE_FAILED (R414): A scribe meets an uncorrectable error in its logic; its tickets end and a spare takes its place. -/
  | scribeFailed (e : Nat)
  /-- DPA_OP_RESPONSE (R420): A script DPA load returns or a store is applied, releasing its operation slot. -/
  | dpaOpResponse (e cx : Nat)
  /-- BLOCKING_RETIRE (R419): A blocking instruction retires and its context becomes ready. -/
  | blockingRetire (e cx : Nat)
  /-- ADD (R464): Register add. -/
  | add (e cx : Nat)
  /-- SUB (R464): Register subtract. -/
  | sub (e cx : Nat)
  /-- NEG (R464): Negate. -/
  | neg (e cx : Nat)
  /-- AND (R464): Bitwise and. -/
  | and (e cx : Nat)
  /-- OR (R464): Bitwise or. -/
  | or (e cx : Nat)
  /-- XOR (R464): Bitwise exclusive or. -/
  | xor (e cx : Nat)
  /-- ANDN (R464): And with complement. -/
  | andn (e cx : Nat)
  /-- ORN (R464): Or with complement. -/
  | orn (e cx : Nat)
  /-- SHL (R464): Shift left. -/
  | shl (e cx : Nat)
  /-- SHR (R464): Logical shift right. -/
  | shr (e cx : Nat)
  /-- SAR (R464): Arithmetic shift right. -/
  | sar (e cx : Nat)
  /-- ROR (R464): Rotate right. -/
  | ror (e cx : Nat)
  /-- CMP_EQ (R464): Compare equal. -/
  | cmpEq (e cx : Nat)
  /-- CMP_NE (R464): Compare not equal. -/
  | cmpNe (e cx : Nat)
  /-- CMP_LT (R464): Signed less than. -/
  | cmpLt (e cx : Nat)
  /-- CMP_LE (R464): Signed less or equal. -/
  | cmpLe (e cx : Nat)
  /-- CMP_LTU (R464): Unsigned less than. -/
  | cmpLtu (e cx : Nat)
  /-- CMP_LEU (R464): Unsigned less or equal. -/
  | cmpLeu (e cx : Nat)
  /-- MIN (R464): Signed minimum. -/
  | min (e cx : Nat)
  /-- MAX (R464): Signed maximum. -/
  | max (e cx : Nat)
  /-- MINU (R464): Unsigned minimum. -/
  | minu (e cx : Nat)
  /-- MAXU (R464): Unsigned maximum. -/
  | maxu (e cx : Nat)
  /-- MUL (R464): Low 64 bits of the product. -/
  | mul (e cx : Nat)
  /-- MULHI_S (R464): High half of the signed product. -/
  | mulhiS (e cx : Nat)
  /-- MULHI_U (R464): High half of the unsigned product. -/
  | mulhiU (e cx : Nat)
  /-- DIV (R465): Signed division, never trapping. -/
  | div (e cx : Nat)
  /-- DIVU (R465): Unsigned division. -/
  | divu (e cx : Nat)
  /-- REM (R465): Signed remainder. -/
  | rem (e cx : Nat)
  /-- REMU (R465): Unsigned remainder. -/
  | remu (e cx : Nat)
  /-- LZC (R464): Leading zero count. -/
  | lzc (e cx : Nat)
  /-- TZC (R464): Trailing zero count. -/
  | tzc (e cx : Nat)
  /-- ONES (R464): Population count. -/
  | ones (e cx : Nat)
  /-- REVB (R464): Byte reverse. -/
  | revb (e cx : Nat)
  /-- ADD_I (R466): Add immediate. -/
  | addI (e cx : Nat)
  /-- AND_I (R466): And zero-extended immediate. -/
  | andI (e cx : Nat)
  /-- OR_I (R466): Or zero-extended immediate. -/
  | orI (e cx : Nat)
  /-- XOR_I (R466): Xor zero-extended immediate. -/
  | xorI (e cx : Nat)
  /-- CMP_EQ_I (R466): Compare equal to immediate. -/
  | cmpEqI (e cx : Nat)
  /-- CMP_LT_I (R466): Signed less than immediate. -/
  | cmpLtI (e cx : Nat)
  /-- SHL_I (R467): Shift left by immediate. -/
  | shlI (e cx : Nat)
  /-- SHR_I (R467): Logical shift right by immediate. -/
  | shrI (e cx : Nat)
  /-- SAR_I (R467): Arithmetic shift right by immediate. -/
  | sarI (e cx : Nat)
  /-- HIGH (R466): Places imm16 in bits 63:48. -/
  | high (e cx : Nat)
  /-- BZ (R468): Branch if zero. -/
  | bz (e cx : Nat)
  /-- BNZ (R468): Branch if not zero. -/
  | bnz (e cx : Nat)
  /-- BNEG (R468): Branch if negative. -/
  | bneg (e cx : Nat)
  /-- BNNEG (R468): Branch if not negative. -/
  | bnneg (e cx : Nat)
  /-- DBNZ (R468): Decrement and branch if not zero. -/
  | dbnz (e cx : Nat)
  /-- BPANY (R468): Branch if a predicate is not zero. -/
  | bpany (e cx : Nat)
  /-- CALL (R469): Link and branch. -/
  | call (e cx : Nat)
  /-- JUMP (R469): Link and jump relative to a register. -/
  | jump (e cx : Nat)
  /-- LD (R471): Scalar load of 1 to 8 bytes. -/
  | ld (e cx : Nat) (ue : Bool)
  /-- ST (R471): Scalar store of 1 to 8 bytes. -/
  | st (e cx : Nat)
  /-- CAS (R472): Indivisible compare and swap. -/
  | cas (e cx : Nat) (ue : Bool)
  /-- FADD (R472): Indivisible fetch and add. -/
  | fadd (e cx : Nat) (ue : Bool)
  /-- VLD (R475): Vector line load. -/
  | vld (e cx : Nat) (ue : Bool)
  /-- VLD_BC (R475): Vector broadcast load. -/
  | vldBc (e cx : Nat) (ue : Bool)
  /-- VST (R475): Vector line store of active elements. -/
  | vst (e cx : Nat)
  /-- VCMP (R476): Vector compare into a predicate. -/
  | vcmp (e cx : Nat)
  /-- VSEL (R474): Vector select. -/
  | vsel (e cx : Nat)
  /-- VSUM (R474): Sum of active elements into a register. -/
  | vsum (e cx : Nat)
  /-- VMIN (R478): Elementwise minimum. -/
  | vmin (e cx : Nat)
  /-- VMINR (R478): Minimum reduction into a register. -/
  | vminr (e cx : Nat)
  /-- VMAX (R478): Elementwise maximum. -/
  | vmax (e cx : Nat)
  /-- VMAXR (R478): Maximum reduction into a register. -/
  | vmaxr (e cx : Nat)
  /-- SEAL_OPEN (R451): Opens a SEAL group. -/
  | sealOpen (e cx : Nat)
  /-- SEAL_ADD (R452): Adds a persistent line to the open group. -/
  | sealAdd (e cx : Nat)
  /-- SEAL_COMMIT (R454): Passes the ink gate, applies the group as one step, mirrors it and retires. -/
  | sealCommit (e cx : Nat)
  /-- PBAR_LOCAL (R447): Barrier until earlier stores are in the persistence domain. -/
  | pbarLocal (e cx : Nat)
  /-- PBAR_TWIN (R447): Barrier that also waits for twin acknowledgement in LEAD. -/
  | pbarTwin (e cx : Nat)
  /-- COPY (R486): DMA copy of one register range. -/
  | copy (e cx : Nat) (err : DmaErr)
  /-- COPY_L (R486): DMA copy of a descriptor list. -/
  | copyL (e cx : Nat) (err : DmaErr)
  /-- CRC (R487): CRC-32C or CRC-64/NVME over a range or list. -/
  | crc (e cx : Nat) (err : DmaErr)
  /-- HASH (R488): Kamoust kmix hash. -/
  | hash (e cx : Nat)
  /-- PROBE (R490): Hash-table probe for a key. -/
  | probe (e cx : Nat) (ue : Bool)
  /-- CUE (R492): Moves the cue cursor to an absolute entry. -/
  | cue (e cx : Nat)
  /-- CUE_R (R492): Moves the cue cursor by a relative amount. -/
  | cueR (e cx : Nat)
  /-- WAITC (R493): Waits for the result of a cue entry. -/
  | waitc (e cx : Nat)
  /-- NOTIFY (R494): Posts a note to the queue's note ring. -/
  | notify (e cx : Nat)
  /-- YIELD (R495): The context is not ready for one round. -/
  | yield (e cx : Nat)
  /-- HALT (R496): Waits for stores and writes the completion entry, the ticket's commit point. -/
  | halt (e cx : Nat)
  /-- TRAP (R438): Raises a trap; the context enters handler mode or the ticket ends. -/
  | trap (e cx : Nat) (fetchUe : Bool)
  /-- RDSR (R425): Reads a special register. -/
  | rdsr (e cx : Nat)
  /-- WRSR (R498): Writes a special register; writing 0 to cause ends handler mode. -/
  | wrsr (e cx : Nat)
  /-- SUBMISSION_TAIL (R516): Submission tail doorbell; the queue manager may fetch tickets up to it. -/
  | submissionTail (ld value : Nat)
  /-- COMPLETION_HEAD (R510): Completion head doorbell frees the slots of consumed completions. -/
  | completionHead (ld value : Nat)
  /-- NOTE_HEAD (R514): Note head doorbell frees note entries and releases held abort results. -/
  | noteHead (ld value : Nat)
  /-- ABORT (R521): Abort doorbell for a slot and generation, decided against the slot's state. -/
  | abort (ld value : Nat)
  /-- TICKET_FETCH (R509): The queue manager fetches a ticket, checks it and admits or completes it. -/
  | ticketFetch
  /-- COALESCE_TIMEOUT (R525): QUEUE_COAL time passes since the first unsignalled entry and the vector fires. -/
  | coalesceTimeout
  /-- INTEGRITY_FRAME (R532): A twin tag flit arrives and the frame's AES-GCM tag is verified before payload release. -/
  | integrityFrame (link : Nat) (good : Bool)
  /-- TWIN_LINK_DOWN (R535): The twin link falls from UP; lag frames fold into the divergence bitmap. -/
  | twinLinkDown (link : Nat)
  /-- HELLO (R545): HELLO messages settle roles and epochs and start rejoin or split. -/
  | hello (id epoch role : Nat) (divValid synced : Bool) (divEpoch granules : Nat) (prefer : Bool) (held : Nat)
  /-- HEARTBEAT (R556): A HEARTBEAT from the LEAD is processed and acknowledged, restarting the promotion timer. -/
  | heartbeat (h : TwinHead) (ink : Nat)
  /-- HEARTBEAT_SEND (R553): 2 ms pass and the LEAD sends a HEARTBEAT. -/
  | heartbeatSend
  /-- ACK (R554): An ack arrives; acknowledged stores complete, the lease may renew and lag frames rotate. -/
  | ack (h : TwinHead)
  /-- STORE (R548): The UNDERSTUDY applies mirrored store records in sequence as class 12. -/
  | store (h : TwinHead) (recs : List LineWrite)
  /-- SEAL (R548): The UNDERSTUDY applies a mirrored SEAL group as one whole. -/
  | sealMsg (h : TwinHead) (recs : List LineWrite)
  /-- TABLE_SYNC (R550): The UNDERSTUDY writes and commits a table entry sent by the LEAD. -/
  | tableSync (h : TwinHead) (table index : Nat) (ws : List Nat) (last : Bool)
  /-- TABLE_RESULT (R550): The LEAD receives the UNDERSTUDY's commit status and completes or refuses its commit. -/
  | tableResult (h : TwinHead) (seq status : Nat)
  /-- FETCH_REQ (R570): A twin fetch request is answered from this controller's copy. -/
  | fetchReq (h : TwinHead) (folio id : Nat)
  /-- FETCH_DATA (R570): A fetched folio arrives, is checked and fills the waiting folio or poisoned line. -/
  | fetchData (h : TwinHead) (id : Nat) (good : Bool) (cells : List Host.Cell)
  /-- FETCH_NAK (R570): A twin fetch is refused and counts as failed. -/
  | fetchNak (h : TwinHead) (id status : Nat)
  /-- TWIN_FETCH_FAIL (R570): A twin fetch gets no answer within fetch_ms. -/
  | twinFetchFail (id : Nat)
  /-- JOURNAL_COPY (R571): A journal leaf copy is received and blotted as internal folios. -/
  | journalCopy (h : TwinHead) (index first : Nat) (recs : List JRec) (good : Bool)
  /-- JOURNAL_REQ (R571): A journal leaf is requested at load-in. -/
  | journalReq (h : TwinHead) (index : Nat)
  /-- CHECKPOINT_NOTE (R571): The receiver releases journal copies before the named index. -/
  | checkpointNote (h : TwinHead) (number first : Nat)
  /-- BITMAP (R564): The UNDERSTUDY's divergence bitmap is ORed into the sender's. -/
  | bitmap (h : TwinHead) (first : Nat) (marks : List Bool)
  /-- RESYNC_FOLIO (R564): The UNDERSTUDY replaces a folio whole as DIRTY. -/
  | resyncFolio (h : TwinHead) (folio : Nat) (zero : Bool) (cells : List Host.Cell)
  /-- HANDBACK_FOLIO (R568): A NONE-region folio is handed back and taken as DIRTY. -/
  | handbackFolio (h : TwinHead) (folio : Nat) (zero : Bool) (cells : List Host.Cell)
  /-- RESYNC_DONE (R564): Ends resync part 1 or hand-back part 2; bitmaps clear and a SOLO becomes LEAD. -/
  | resyncDone (h : TwinHead) (part : Nat) (absent : List Nat)
  /-- MIRROR_READY (R771): Ends the copy of a region newly mirrored and clears mirror_pending. -/
  | mirrorReady (h : TwinHead) (region : Nat)
  /-- HANDOVER (R560): The UNDERSTUDY processes to the final sequence, raises its epoch and sends HANDOVER_ACK. -/
  | handover (h : TwinHead) (final : Nat)
  /-- HANDOVER_ACK (R560): The former LEAD records the new epoch and becomes UNDERSTUDY. -/
  | handoverAck (h : TwinHead)
  /-- HANDOVER_ACK_TIMEOUT (R561): A new LEAD gets no qualifying ack within 6 ms and takes SOLO. -/
  | handoverAckTimeout
  /-- LEASE_EXPIRED (R554): The LEAD's lease expires and it is fenced. -/
  | leaseExpired
  /-- PROMOTED (R556): A synced UNDERSTUDY hears nothing for 6 ms and promotes to SOLO. -/
  | promoted
  /-- SOLO_DECLARATION (R555): A write of TWIN_CTL.solo raises the epoch and gives SOLO. -/
  | soloDeclaration
  /-- TWIN_YIELD (R567): A write of TWIN_CTL.yield ends a SPLIT by joining as UNDERSTUDY by full copy. -/
  | twinYield
  /-- DISTURBANCE (R578): A mains trigger first holds and the sentinel enters DISTURBED. -/
  | disturbance (m : Mains)
  /-- BLIP (R578): A disturbance ends without meeting SAG or DROP. -/
  | blip (m : Mains)
  /-- SAG_ENTER (R579): A SAG trigger is met; quarter ceiling, full blotting and scribe gating apply. -/
  | sagEnter (m : Mains)
  /-- SAG_EXIT (R580): Supplies are good for 500 ms and the SAG ends. -/
  | sagExit (m : Mains)
  /-- SAG_HOLD_END (R581): 60 s after a repeated SAG the quarter ceiling lifts. -/
  | sagHoldEnd
  /-- DROP (R582): A DROP trigger is met and a strike starts. -/
  | drop (m : Mains)
  /-- STRIKE_DONE (R585): Ink, journal and prompt book are written; the strike-end word is programmed and the strike is released. -/
  | strikeDone (energy : Nat)
  /-- LOAD_IN_START (R590): Load-in begins: strike words read, journal replayed, tables rebuilt, resident data filled. -/
  | loadInStart
  /-- RESERVE_SHORT (R337): 10 s into load-in the strike reserve is still short. -/
  | reserveShort
  /-- LOAD_IN_DONE (R590): Reserve and bank are ready; Media Status is Ready and a role is taken. -/
  | loadInDone
  /-- HOLDUP_TEST (R595): A hold-up test starts when due or requested and the bank is ready. -/
  | holdupTest (go : Bool)
  /-- HOLDUP_TESTED (R596): The test ends; C, ESR and E_measured are published and the curtain limit recomputed. -/
  | holdupTested (sum0 v1 qsum sum2 : Nat)
  /-- HOLDUP_TEST_LATE (R595): A due test has been deferred for 1 h. -/
  | holdupTestLate
  /-- OPERATION (R601): PMBus OPERATION turns a rail on or off, subject to sequencing and self-supply checks. -/
  | operation (entry : Nat) (on : Bool)
  /-- CLEAR_FAULTS (R600): PMBus CLEAR_FAULTS. -/
  | clearFaults (entry : Nat)
  /-- VOUT_COMMAND (R600): PMBus setpoint within the fused band. -/
  | voutCommand (entry data : Nat)
  /-- STATUS_WORD (R600): PMBus status read. -/
  | statusWord (entry value : Nat)
  /-- READ_VIN (R600): PMBus read. -/
  | readVin (entry value : Nat)
  /-- READ_IIN (R600): PMBus read. -/
  | readIin (entry value : Nat)
  /-- READ_VOUT (R600): PMBus read. -/
  | readVout (entry value : Nat)
  /-- READ_IOUT (R600): PMBus read. -/
  | readIout (entry value : Nat)
  /-- READ_TEMPERATURE_1 (R600): PMBus read. -/
  | readTemperature1 (entry value : Nat)
  /-- READ_POUT (R600): PMBus read. -/
  | readPout (entry value : Nat)
  /-- READ_PIN (R600): PMBus read. -/
  | readPin (entry value : Nat)
  /-- PMBUS_POLL (R602): Every 10 ms the sentinel reads every valid regulator. -/
  | pmbusPoll (answered ms bytes mw : Nat)
  /-- PCAP_ESTIMATE (R607): Every 100 µs the sentinel estimates power and steps throttling. -/
  | pcapEstimate (mw : Nat)
  /-- METER_UPDATE (R609): Every 1 ms the energy meters are charged. -/
  | meterUpdate (counts : List (Nat × MeterCounts)) (static : Nat)
  /-- REARM (R610): A write of SENT_BULK.rearm sets min to 0xFFF. -/
  | rearm (value : Nat)
  /-- DVFS_RAISE (R605): A write of SENT_DVFS.raise requests the root / 2 voltage. -/
  | dvfsRaise (value : Nat)
  /-- DVFS_READY (R605): VDD_CORE reaches the root / 2 voltage and ready is set. -/
  | dvfsReady
  /-- STC_WDOG (R616): A core writes its watchdog, restarting it. -/
  | stcWdog (core : Nat)
  /-- STC_WATCHDOG (R616): A core's watchdog expires; it halts, its duties move and it is reloaded. -/
  | stcWatchdog (core : Nat)
  /-- STC_RELOADED (R616): A halted core is reloaded and released to RUNNING. -/
  | stcReloaded (core : Nat)
  /-- CORE_QUIESCE (R639): A draining core reaches its quiesce point during a roll and is reloaded with the new image. -/
  | coreQuiesce (core : Nat)
  /-- READ_PAGE (R623): Firmware-flash page read into FWF_BUF. -/
  | readPage (port ecc : Nat)
  /-- PROGRAM_PAGE (R624): Starts a firmware-flash page program. -/
  | programPage (port fetch : Nat)
  /-- ERASE_SECTOR (R628): Starts an intent-recorded sector erase. -/
  | eraseSector (port fetch : Nat)
  /-- SUSPEND (R626): Suspends the port's operation on a bank. -/
  | suspend (port : Nat)
  /-- RESUME (R626): Resumes the port's suspended operation. -/
  | resume (port : Nat)
  /-- PROT_SET (R632): Sets a sector's protection bit while unlocked. -/
  | protSet (port : Nat)
  /-- PROT_CLEAR (R632): Clears a sector's protection bit while unlocked. -/
  | protClear (port : Nat)
  /-- LOCK (R632): Sets the protection lock. -/
  | lock (port : Nat)
  /-- PWD_SET (R633): Sets the password while unlocked. -/
  | pwdSet (port : Nat)
  /-- FWF_OPERATION_END (R624): A firmware-flash program or erase ends and the bank is free. -/
  | fwfOperationEnd (bank : Nat)
  /-- FWF_PWD_KEY (R633): A key write advances, completes or abandons the unlock sequence. -/
  | fwfPwdKey (port value : Nat)
  /-- FWF_PWD_DATA (R633): A password word is written in the sequence. -/
  | fwfPwdData (port value : Nat)
  /-- THERM_SAMPLE (R641): Every 100 µs the curtain samples the sensors and throttles or trips. -/
  | thermSample (hot : Int)
  /-- GET_VERSION (R653): SPDM request. -/
  | getVersion (chan : Nat)
  /-- GET_CAPABILITIES (R653): SPDM request. -/
  | getCapabilities (chan : Nat)
  /-- NEGOTIATE_ALGORITHMS (R653): SPDM request. -/
  | negotiateAlgorithms (chan : Nat) (ok : Bool)
  /-- GET_DIGESTS (R653): SPDM request. -/
  | getDigests (chan : Nat)
  /-- GET_CERTIFICATE (R652): SPDM request for the slot 0 chain. -/
  | getCertificate (chan slot offset length : Nat)
  /-- CHALLENGE (R653): SPDM request. -/
  | challenge (chan slot : Nat)
  /-- GET_MEASUREMENTS (R653): Returns M0 to M7 as measurement blocks. -/
  | getMeasurements (chan index : Nat) (sign : Bool)
  /-- KEY_EXCHANGE (R653): Opens an SPDM session. -/
  | keyExchange (chan : Nat) (ok : Bool)
  /-- FINISH (R653): SPDM session finish. -/
  | finish (chan id : Nat) (ok : Bool) (who : Requester)
  /-- SPDM_HEARTBEAT (R653): SPDM HEARTBEAT request. -/
  | spdmHeartbeat (chan id : Nat)
  /-- KEY_UPDATE (R653): SPDM key update. -/
  | keyUpdate (chan id : Nat)
  /-- END_SESSION (R653): Ends an SPDM session. -/
  | endSession (chan id : Nat)
  /-- SPDM_UNSUPPORTED (R654): Any other SPDM request gets ERROR UnsupportedRequest. -/
  | spdmUnsupported (chan : Nat)
  /-- SEED_PROGRAM (R655): Programs the next owner seed generation. -/
  | seedProgram (chan id hash : Nat)
  /-- KEY_WRAP (R655): Wraps a key record and returns its blob. -/
  | keyWrap (chan id : Nat) (record : List Byte)
  /-- REUNWRAP (R671): Clears the alarm latch, derives the KEK and reloads every stored key. -/
  | reunwrap (chan id : Nat)
  /-- DEBUG_UNLOCK (R672): A debug certificate is presented over SPDM and judged. -/
  | debugUnlock (chan id : Nat) (cert : List Byte) (good : Bool)
  /-- DBGCERT (R672): A debug certificate is presented through the TAP data register. -/
  | dbgcert (cert : List Byte) (good : Bool)
  /-- KEY_ALARM (R667): An alarm source fires; all slots and the KEK are zeroized and the latch set. -/
  | keyAlarm (source : Nat)
  /-- LATCH_PROGRAM (R667): The security core programs the alarm latch into the key blob store. -/
  | latchProgram
  /-- SRAM_PATROL (R676): The SRAM patrol reads and rewrites corrected words. -/
  | sramPatrol (f : PatrolFind)
  /-- CHK_RING_TAIL (R693): A write of the ring tail submits descriptors to a check unit. -/
  | chkRingTail (unit tail : Nat) (sram area : List Host.Cell)
  /-- CV_DESCRIPTOR_DONE (R693): A check unit finishes a descriptor, writing results and advancing its head. -/
  | cvDescriptorDone (unit : Nat) (bad : Bool)
  /-- UNIT_RESET (R700): A write of CHK_CTL.reset empties the ring and clears the baseline. -/
  | unitReset (unit : Nat)
  /-- PBOOK_FIRE (R707): A write of PBOOK_FIRE fires a trigger as if its event were raised. -/
  | pbookFire (value : Nat)
  /-- PBOOK_ACK_HI (R712): A write of PBOOK_ACK_HI acknowledges a FATAL record. -/
  | pbookAckHi (value : Nat)
  /-- RING_TAIL_READ (R712): A stage-core read of a record's tail through the window sets its read flag. -/
  | ringTailRead (slot : Nat)
  /-- PBOOK_FLUSH (R715): 1 ms after a FAULT or FATAL record, or at 384 unflushed records, a log leaf program is issued. -/
  | pbookFlush
  /-- TALLY_SNAP (R721): PBOOK_TALLY_SEL snap copies a tally in one step. -/
  | tallySnap (index : Nat)
  /-- TALLY_CLEAR (R721): PBOOK_TALLY_SEL clear clears a tally after any copy. -/
  | tallyClear (index : Nat) (snap : Bool)
  /-- DRAM_REPAIR (R268): Maintenance job: move a row set, apply soft PPR, test and return or retire it. -/
  | dramRepair (fr : JobFrom) (queue : Bool) (channel row device : Nat) (soft : Bool)
  /-- DRAM_RETRAIN (R730): Maintenance job: retrain a channel. -/
  | dramRetrain (fr : JobFrom) (queue : Bool) (channel temp owed : Nat)
  /-- DRAM_RELEASE (R280): Maintenance job: release a frozen channel, retrain and test it, return its frames. -/
  | dramRelease (fr : JobFrom) (queue : Bool) (channel : Nat) (pass : Bool) (words : List Nat)
  /-- REBUILD (R357): Controller job: relocate folios of groups with missing members. -/
  | rebuild
  /-- RESHAPE (R368): Controller job: relocate groups into the width in force. -/
  | reshape
  /-- SLOT_REMOVE (R371): Maintenance job: prepare a slot for removal and power it down. -/
  | slotRemove (fr : JobFrom) (queue : Bool) (slot : Nat)
  /-- SLOT_ADMIT (R730): Maintenance job: admits an inserted cartridge. -/
  | slotAdmit (fr : JobFrom) (queue : Bool) (slot : Nat)
  /-- FW_UPDATE (R638): Maintenance job carrying an online firmware activation. -/
  | fwUpdate (fr : JobFrom) (queue signed : Bool)
  /-- TWIN_RESYNC (R564): Controller job carrying a rejoin resync. -/
  | twinResync
  /-- PLANNED_HANDOVER (R560): Maintenance job: hold stores, drain lag and hand LEAD to the UNDERSTUDY. -/
  | plannedHandover (fr : JobFrom) (queue : Bool)
  /-- SCRIBE_SWAP (R737): Maintenance job: drain a scribe, place the spare, and test the scribe. -/
  | scribeSwap (fr : JobFrom) (queue : Bool) (scribe timeout : Nat) (pass : Bool)
  /-- DRAIN_TIMEOUT (R737): The swap's drain timeout expires and remaining tickets end with ENGINE_FAULT. -/
  | drainTimeout
  /-- SCENE_CHANGE (R738): Maintenance job: request an active set, optionally reloading the configuration set. -/
  | sceneChange (fr : JobFrom) (queue : Bool) (p0 : Nat)
  /-- REHEARSAL (R736): Maintenance job: run the requested self-tests on resources not in service. -/
  | rehearsal (fr : JobFrom) (queue : Bool) (mask fail : Nat)
  /-- POWER_CYCLE (R734): Maintenance job: request a strike and power cycle. -/
  | powerCycle (fr : JobFrom) (queue : Bool) (confirm : Nat)
  /-- MAINT_START (R732): A queued job starts once nothing conflicts with it. -/
  | maintStart (o : JobOut)
  /-- MAINT_QRY (R739): A write of MAINT_QRY fills MAINT_QRY_RES for a job. -/
  | maintQry (id : Nat)
  /-- REFCLK_PRESENT (R66): At power-on the sentinel sees REFCLK present, moves CLK_AON to REFCLK / 4 and lets the rail sequence begin. -/
  | refclkPresent
  /-- RAIL_GROUP_WITHIN_TOLERANCE (R745): The rails of a sequencing group read within tolerance and the group interval has passed, so the next group is raised, or after group 5 the straps are sampled and the glitch detectors rearmed. -/
  | railGroupWithinTolerance (strap : Nat)
  /-- VDD_AON_FALL (R744): VDD_AON falls through 0.66 V and the AON domain, and with it the whole controller, enters reset. -/
  | vddAonFall
  /-- HOLDUP_SENSE_SAMPLE (R593): A HOLDUP_SENSE sample finds the bank crossing V_chg − 0.2 V, V_chg, the E_reserve level or, with bulk below 9.0 V, below V_min, and the sentinel switches HOLDUP_CHG_EN, releases the load-in waits or disarms the glitch detectors. -/
  | holdupSenseSample (count : Nat)
  /-- S2M_CREDIT_RETURN (R140): A host returns S2M NDR or DRS credits on a link, letting completions waiting in the completion stage leave and their tracker entries free. -/
  | s2mCreditReturn (link ndr drs : Nat)
  /-- TWIN_LINK_TRAINED (R530): TW0 or TW1 completes training at x16 or x8, starting the SPDM session of R534 and HELLO, or taking the twin link out of UP_DEGRADED. -/
  | twinLinkTrained (w0 w1 : Nat) (session : Bool)
  /-- SLOT_PGOOD_ASSERTED (R377): SLOT_PGOOD[s] asserts after SLOT_PWR_EN[s], and the controller initializes and trains the cartridge's two channels under insertion step 5. -/
  | slotPgoodAsserted (slot answered fail : Nat)
  /-- LOCATE_EXPIRY (R378): The 60 s of a locate request end and SLOT_LED[s] leaves the 1 Hz locate pattern. -/
  | locateExpiry (slot : Nat)
deriving DecidableEq, Repr

end Sys2Proof
end

