-- ==== Sys2Proof/Decode.lean ====
section
/-! DEFINITION. Table words. The command table of this block gives no bits to any of its rows: its commands reach it as pin
levels, register accesses, messages and completions, so no word spells a command (log entry 5). -/

set_option Elab.async false

namespace Sys2Proof

/-- The command that a word of `nbits` bits spells by the table's bits: the table gives none. -/
def decodeTableWord (_nbits _w : Nat) : Option Instr := none

end Sys2Proof
end

