-- ==== Sys2Proof/Config.lean ====
section
/-! DEFINITION. What one chip or one board fixes, and the free values of the model.

Every constant here is opaque: no proof can see its value, so a claim about the model holds whatever it is. Fuses
(R57, R592, R645, R673), random numbers (R672) and the outcome of cryptography are of this kind. -/

set_option Elab.async false

namespace Sys2Proof.Config

/-- Fused words of `SENT_BANK_FUSE` (R592, R610): V_chg, V_min, R_TEST and η. Log entry 10. -/
opaque fuseBank : BitVec 32
/-- The largest ESR the bank may have, in 0.1 mΩ (R592, R596). Log entry 10. -/
opaque fuseEsrMax : BitVec 16
/-- VDD_CORE in mV for cluster divider code c with the on-die AVS trim (R604), used within 700 to 850. Log entry 10. -/
opaque avsMv : Nat → BitVec 10
/-- Fused setpoint band n: [31:16] greatest, [15:0] least setpoint in mV (R600, R643). Log entry 10. -/
opaque fuseBand : Nat → BitVec 32
/-- Fused least interval of sequence group g in ms (R643, R745). Log entry 10. -/
opaque fuseSeqInterval : Nat → BitVec 16
/-- Fused fields of `SEC_STAT` (R645, R673): bits [29:22] hold life, gen and revoked. Log entry 10. -/
opaque fuseSecStat : BitVec 32
/-- Fused mask of alarm sources (R667, R673). Log entry 10. -/
opaque fuseAlarmMask : BitVec 8
/-- Fused minimum SVN (R650, R673), taken as at most 64. Log entry 10. -/
opaque fuseSvn : BitVec 7
/-- Hash of the owner key of each generation that the fuses hold at the model's beginning (R655). Log entry 10. -/
opaque ownerHash : Nat → BitVec 512
/-- The 64-bit device ID (R533, R672). Log entry 10. -/
opaque deviceId : BitVec 64
/-- Word i of the nonce drawn at boot number b (R672): a free value. Log entry 11. -/
opaque bootNonce : Nat → Nat → BitVec 32

/-- A byte of an answer that the spec does not fix (R124): a free value. Log entry 12. -/
opaque freeByte : Nat → BitVec 8

/-- The stepping code that GET_DEVICE_INFO reports (R128): the spec gives no code for stepping A1. Log entry 12. -/
opaque stepping : BitVec 8
/-- The digest after a measurement register holding `m` is extended by digest `d` (R649): SHA-512 is not spelled out in
the model. Log entry 15. -/
opaque extend : BitVec 512 → BitVec 512 → BitVec 512
/-- The SHA-512 digest that measurement register `k` is extended with, of the things that R649 names, given as bytes; number
8 stands for the digest of a whole image (R635). Log entry 15. -/
opaque digest : Nat → List (BitVec 8) → BitVec 512

/-- ESR in 0.1 mΩ and C in mF that a hold-up test gives where its formula has no value (R596): free values. Log entry 16. -/
opaque freeEsr : Nat → BitVec 16
opaque freeCap : Nat → BitVec 16

/-- The two check symbols of a DRAM code word with these eight data symbols (R258): the spec gives no generator. Log entry 82. -/
opaque rsCheck : BitVec 64 → BitVec 16
/-- Parity byte `i` of an LDPC code word over its data and metadata bytes (R292): the spec gives no matrix. Log entry 82. -/
opaque ldpcParity : List (BitVec 8) → Nat → BitVec 8
/-- AES-256 of a block, and the tag of AES-256-GCM over plaintext and additional data (R532, R657): not spelled out in the model.
Log entry 82. -/
opaque aes256 : BitVec 256 → BitVec 128 → BitVec 128
opaque gcmTag : BitVec 256 → BitVec 96 → List (BitVec 8) → List (BitVec 8) → BitVec 128
/-- The 64-byte key that a key slot holds under a key ID (R656, R657, R660): unwrapped from its blob. Log entry 82. -/
opaque slotKey : Nat → Nat → BitVec 512
/-- CRC and FEC of a PCIe 6.x flit (R531): not spelled out in the spec. Log entry 82. -/
opaque flitCrc : List (BitVec 8) → BitVec 64
opaque flitFec : List (BitVec 8) → BitVec 48

/-- Whether the NAND program in flight at a leaf address fails while the controller prepares the device reset that ends start `n`
(R773). Log entry 90. -/
opaque programFails : Nat → Nat → Bool

end Sys2Proof.Config
end

