-- ==== Sys2Proof/Machine/Maps.lean ====
section
/-! DEFINITION. Sparse maps, byte memories and the bit-field helpers that every unit uses.

A map is a list of (key, value) pairs with strictly rising keys. A byte memory is a list of `Host.Cell` with strictly
rising addresses and no entry equal to the memory's default byte, so that equal memories are equal data. -/

set_option Elab.async false

namespace Sys2Proof.Machine

/-! ### Sparse maps by natural key -/

/-- The value stored under `k`, if any. -/
def mapGet? {α : Type} (m : List (Nat × α)) (k : Nat) : Option α :=
  match m with
  | [] => none
  | (k', v) :: t => if k' = k then some v else mapGet? t k

/-- The value stored under `k`, or `d`. -/
def mapGet {α : Type} (d : α) (m : List (Nat × α)) (k : Nat) : α := (mapGet? m k).getD d

/-- Store `v` under `k`, keeping the keys in rising order. -/
def mapSet {α : Type} (m : List (Nat × α)) (k : Nat) (v : α) : List (Nat × α) :=
  match m with
  | [] => [(k, v)]
  | (k', v') :: t =>
    if k < k' then (k, v) :: (k', v') :: t
    else if k' = k then (k, v) :: t
    else (k', v') :: mapSet t k v

/-- Remove every entry of key `k`. -/
def mapDel {α : Type} (m : List (Nat × α)) (k : Nat) : List (Nat × α) := m.filter (fun p => p.1 != k)

/-- Change the value under `k`, taking `d` where none is stored. -/
def mapUpd {α : Type} (d : α) (m : List (Nat × α)) (k : Nat) (f : α → α) : List (Nat × α) :=
  mapSet m k (f (mapGet d m k))

/-! ### Byte memories -/

/-- One byte; an unlisted address reads as the memory's default byte. -/
def memRead (d : Byte) (m : List Host.Cell) (a : Nat) : Byte := mapGet d m a

/-- Write one byte, keeping the canonical form: writing the default byte removes the entry. -/
def memWrite (d : Byte) (m : List Host.Cell) (a : Nat) (v : Byte) : List Host.Cell :=
  match m with
  | [] => if v = d then [] else [(a, v)]
  | (a', v') :: t =>
    if a < a' then (if v = d then (a', v') :: t else (a, v) :: (a', v') :: t)
    else if a' = a then (if v = d then t else (a, v) :: t)
    else (a', v') :: memWrite d t a v

/-- Strictly rising addresses, all above `lo`, and no entry equal to the default byte. -/
def memWfFrom (d : Byte) (lo : Nat) (m : List Host.Cell) : Bool :=
  match m with
  | [] => true
  | (a, v) :: t => decide (lo ≤ a) && decide (v ≠ d) && memWfFrom d (a + 1) t

/-- The canonical form of a byte memory. -/
def memWf (d : Byte) (m : List Host.Cell) : Bool := memWfFrom d 0 m

/-- `n` bytes from address `a`, lowest address first. -/
def memReadN (d : Byte) (m : List Host.Cell) (a : Nat) : Nat → List Byte
  | 0 => []
  | n + 1 => memRead d m a :: memReadN d m (a + 1) n

/-- Write a list of bytes from address `a` upwards. -/
def memWriteN (d : Byte) (m : List Host.Cell) (a : Nat) : List Byte → List Host.Cell
  | [] => m
  | b :: t => memWriteN d (memWrite d m a b) (a + 1) t

/-- Clear (return to the default) every listed byte of addresses `lo ≤ a < hi`. -/
def memClear (m : List Host.Cell) (lo hi : Nat) : List Host.Cell :=
  m.filter (fun c => decide (c.1 < lo) || decide (hi ≤ c.1))

/-- The cells of `lo ≤ a < hi`, moved so that `lo` becomes 0: the copy of a frame, page or sector. -/
def memSlice (m : List Host.Cell) (lo hi : Nat) : List Host.Cell :=
  (m.filter (fun c => decide (lo ≤ c.1) && decide (c.1 < hi))).map (fun c => (c.1 - lo, c.2))

/-- Lay a copied slice back at `at_`, over whatever lies in `at_ ≤ a < at_ + n`. -/
def memPaste (d : Byte) (m : List Host.Cell) (at_ n : Nat) (cells : List Host.Cell) : List Host.Cell :=
  cells.foldl (fun acc c => memWrite d acc (at_ + c.1) c.2) (memClear m at_ (at_ + n))

/-! ### Little-endian numbers -/

/-- `n` bytes of `v`, least significant first. -/
def leBytes : Nat → Nat → List Byte
  | 0, _ => []
  | n + 1, v => BitVec.ofNat 8 v :: leBytes n (v / 256)

/-- The number a list of bytes spells, least significant first. -/
def leNat : List Byte → Nat
  | [] => 0
  | b :: t => b.toNat + 256 * leNat t

/-- Read an `n`-byte little-endian number. -/
def memReadLE (d : Byte) (m : List Host.Cell) (a n : Nat) : Nat := leNat (memReadN d m a n)

/-- Write the low `n` bytes of `v`, little-endian. -/
def memWriteLE (d : Byte) (m : List Host.Cell) (a n v : Nat) : List Host.Cell := memWriteN d m a (leBytes n v)

/-! ### Bit fields -/

/-- Bits `hi` down to `lo` of `v`. -/
def bits (v hi lo : Nat) : Nat := (v >>> lo) % 2 ^ (hi + 1 - lo)

/-- Bit `i` of `v` as 0 or 1. -/
def bit (v i : Nat) : Nat := (v >>> i) % 2

/-- Bit `i` of `v` as a truth value. -/
def bitB (v i : Nat) : Bool := decide ((v >>> i) % 2 = 1)

/-- `v` with bits `hi` down to `lo` replaced by the low bits of `x`. -/
def setBits (v hi lo x : Nat) : Nat :=
  v - (bits v hi lo) * 2 ^ lo + (x % 2 ^ (hi + 1 - lo)) * 2 ^ lo

/-- The number with `lo` in its low 32 bits and `hi` above them: an event detail, a row of an array class. -/
def wide32 (hi lo : Nat) : Nat := hi * 2 ^ 32 + lo

/-- The number of ones in a number of `n` bits. -/
def popN (n v : Nat) : Nat := (List.range n).foldl (fun a i => a + bit v i) 0

/-- The mask of bits `hi` down to `lo`. -/
def maskOf (hi lo : Nat) : Nat := (2 ^ (hi + 1 - lo) - 1) * 2 ^ lo

/-- `a` limited to what `w` bits hold: a saturating count. -/
def satTo (w a : Nat) : Nat := min a (2 ^ w - 1)

/-- 1 for true, 0 for false. -/
def b2n (b : Bool) : Nat := if b then 1 else 0

/-- The numbers `0 … n − 1`. -/
def upto (n : Nat) : List Nat := List.range n

/-- Insert into a rising list without repeats. -/
def setIns (l : List Nat) (k : Nat) : List Nat :=
  match l with
  | [] => [k]
  | a :: t => if k < a then k :: a :: t else if a = k then a :: t else a :: setIns t k

/-- Fold over a list of positions while the state changes. -/
def foldOver {σ α : Type} (xs : List α) (f : σ → α → σ) (s : σ) : σ := xs.foldl f s

/-- Bytes of a line, lowest address first. -/
def lineBytes (l : Line) : List Byte := leBytes 64 l.toNat

/-- The line that 64 bytes spell. -/
def lineOfBytes (bs : List Byte) : Line := BitVec.ofNat 512 (leNat bs)

/-- `old` with the bytes that `mask` selects (bit i for byte i) taken from `new`. -/
def mergeBytes (mask : Nat) (old new : List Byte) : List Byte :=
  (List.zip (List.range old.length) (List.zip old new)).map
    (fun p => if bitB mask p.1 then p.2.2 else p.2.1)

end Sys2Proof.Machine
end

