-- ==== Sys2Proof/Machine/Crc.lean ====
section
/-! DEFINITION. The two cyclic redundancy codes of the part (R78, R292, R487): CRC-32C and CRC-64/NVME, both reflected,
with all-ones initial value and final inversion. -/

set_option Elab.async false

namespace Sys2Proof.Machine

/-- One bit step of a reflected CRC with the reflected polynomial `poly`. -/
def crcBit (poly c : Nat) : Nat := if c % 2 = 1 then (c / 2) ^^^ poly else c / 2

/-- One byte step of a reflected CRC. -/
def crcByte (poly c : Nat) (b : Byte) : Nat :=
  crcBit poly (crcBit poly (crcBit poly (crcBit poly (crcBit poly (crcBit poly (crcBit poly
    (crcBit poly (c ^^^ b.toNat))))))))

/-- The running value of a reflected CRC over bytes, without the final inversion. -/
def crcRun (poly c : Nat) (bs : List Byte) : Nat := bs.foldl (crcByte poly) c

/-- The reflected polynomials of CRC-32C and CRC-64/NVME. -/
def poly32c : Nat := 0x82F63B78
def poly64n : Nat := 0x9A6C9329AC4BC9B5

/-- CRC-32C of a list of bytes. -/
def crc32c (bs : List Byte) : Nat := (2 ^ 32 - 1) ^^^ crcRun poly32c (2 ^ 32 - 1) bs

/-- CRC-64/NVME of a list of bytes. -/
def crc64n (bs : List Byte) : Nat := (2 ^ 64 - 1) ^^^ crcRun poly64n (2 ^ 64 - 1) bs

end Sys2Proof.Machine
end

