-- ==== Sys2Proof/Machine/State.lean ====
section
/-! DEFINITION. The state of the PQ4820 block, unit by unit, and the state right after reset.

Every register of the control aperture has its home in `Regs`; the structures here hold what the manual gives a unit
beside its registers. Sparse tables are lists of (key, value) pairs with rising keys; byte memories are lists of
`Host.Cell`. The fields `pending`, `clock`, `fresh` and `sent` are the model's own (log entries 1 to 4). -/

set_option Elab.async false

namespace Sys2Proof.Machine

/-! ### Outputs -/

/-- CXL mailbox return codes (R124, R127). -/
inductive CxlRet where
  | success | unsupported | invalidLength | invalidInput | busy
deriving DecidableEq, Repr

/-- One record of a STORE or SEAL message (R540). -/
structure StoreRec where
  line : Nat
  mask : Nat
  data : Line
deriving DecidableEq, Repr

/-- The body of a twin message (R540). Folio contents are given as cells within the folio. -/
inductive TwinBody where
  | hello (deviceId storedEpoch storedRole : Nat) (divValid synced : Bool) (divEpoch granules : Nat)
  | heartbeat (ink : Nat)
  | ack
  | store (recs : List StoreRec)
  | seal (recs : List StoreRec)
  | tableSync (table index : Nat) (entry : List Nat)
  | tableResult (seq status : Nat)
  | fetchReq (folio id : Nat)
  | fetchData (id : Nat) (cells : List Host.Cell)
  | fetchNak (id status : Nat)
  | journalCopy (index first : Nat) (recs : List JRec)
  | journalReq (index : Nat)
  | checkpointNote (number firstLeaf : Nat)
  | bitmap (first : Nat) (marks : List Bool)
  | resyncFolio (folio : Nat) (zero : Bool) (cells : List Host.Cell)
  | handbackFolio (folio : Nat) (zero : Bool) (cells : List Host.Cell)
  | resyncDone (part : Nat)
  | mirrorReady (region : Nat)
  | handover (finalSeq : Nat)
  | handoverAck
deriving DecidableEq, Repr

/-- Everything the block sends to the outside: completions, answers, messages and pin changes, newest last. -/
inductive Out where
  /-- S2M DRS: load completion with its data, whether it is poisoned, and the DevLoad (R106, R151). -/
  | loadDone (link tag : Nat) (poison : Bool) (data : Line) (devLoad : Nat)
  /-- S2M NDR: store completion (R16, R151). -/
  | storeDone (link tag : Nat) (devLoad : Nat)
  /-- S2M BISnpInv to one holder (R115, R116, R182). -/
  | biSnp (link key line : Nat)
  /-- GPF phase response (R135, R138). -/
  | gpfDone (link phase : Nat)
  /-- Mailbox answer: return code and output payload (R127, R128). -/
  | mailbox (mb : Nat) (opcode : Nat) (ret : CxlRet) (payload : List Byte)
  /-- DOE answer (R121). -/
  | doe (link protocol : Nat) (payload : List Byte)
  /-- HDM decoder commit answer (R109). -/
  | hdm (dev : Nat) (index : Nat) (committed : Bool)
  /-- Dynamic capacity answer: extent added or not, release confirmed (R112, R113). -/
  | capacity (dev : Nat) (base limit : Nat) (add ok : Bool)
  /-- MSI-X vector of a logical device (R525, R698). -/
  | msix (ld vector : Nat)
  /-- Interrupt to a stage core (R694, R697). -/
  | coreIrq (core : Nat)
  /-- A twin message: epoch, sequence, ack, body (R536, R540). -/
  | twin (epoch seq ack : Nat) (body : TwinBody)
  /-- An SPDM response: channel, response code, payload (R653). -/
  | spdm (channel code : Nat) (payload : List Byte)
  /-- A read answer on the control path (R36). -/
  | ctlRead (offset value : Nat)
  /-- The cipher engine of a stream refuses a use of its counter with REKEY_REQUIRED (R665): stream as the bits of `SEC_CNT`. -/
  | cipherStop (stream status : Nat)
  /-- BOARD_PWR_CYCLE_N asserted (R54, R56, R588, R746). -/
  | boardPwrCycle
  /-- A pin driven to a level: SLOT_PWR_EN, SLOT_LED, HOLDUP_EN and the like, by name code and index. -/
  | pin (name index level : Nat)
  /-- A PMBus transaction on the bus: address, page, command, write word if any (R600). -/
  | pmbus (addr page code : Nat) (data : Option Nat)
  /-- JTAG answer (R672). -/
  | jtag (value : Nat)
  /-- An EEPROM write of a cartridge's retirement mask (R347, R348). -/
  | eeprom (slot mask : Nat)
deriving DecidableEq, Repr

/-! ### Control aperture -/

/-- The register file: live values, the base in force (R72), and the registers whose RWS fields have taken their one
write since the last boundary (R2). An unlisted register holds its reset word. -/
structure Regs where
  live : List (Nat × W32)
  base : List (Nat × W32)
  rwsTaken : List Nat
deriving DecidableEq, Repr

/-- One overlay entry (R75): register offset, mask and value. -/
structure SceneEntry where
  off : Nat
  mask : Nat
  value : Nat
deriving DecidableEq, Repr

/-- A boundary waiting to occur: a stage core's requested set (R85), or a change of the controller's own bits (R774). -/
inductive Boundary where
  | request (set : Nat)
  | change (setBits clearBits : Nat)
deriving DecidableEq, Repr

/-- Scene engine: the available images by scene ID (R84, R769) and the boundaries waiting, oldest first (R89, R774). -/
structure SceneUnit where
  images : List (Nat × List SceneEntry)
  waiting : List Boundary
deriving DecidableEq, Repr

/-- Clocks, resets and the start sequence (R44 to R68). Flags are true when the domain is out of reset. -/
structure PowerUnit where
  /-- Last step of R66 that has ended, 0 to 8. -/
  step : Nat
  aonUp : Bool
  secUp : Bool
  ctlUp : Bool
  fabUp : Bool
  /-- Links held in reset by PERST_N or by the device. -/
  linksInReset : List Nat
  /-- Warm-start record in AON (R57): valid bit, channels with training results, base addresses in DRAM of the folio map (its
  granule table) and of the journal area; none: no copy of that area is left. -/
  warmValid : Bool
  warmTrained : List Nat
  warmMapBase : Option Nat
  warmJournalBase : Option Nat
  /-- BIF_STRAP[3:0] as sampled (R92). -/
  bifStrap : Nat
  /-- Rail groups within tolerance, and when the current group began (R745, R746). -/
  railGroup : Nat
  railSince : Nat
  /-- Device resets held until load-in ends (R63), as bits of `RST_CAUSE`. -/
  heldReset : Option Nat
  /-- SYS_RESET_N is low (R59, R749). -/
  resetLow : Bool
  /-- The first start after a reset of R679 has still to raise SEC_UE_RESET. -/
  secUePending : Bool
  /-- No CXL.mem is served until the next start (R80, R243, R366, R591, R678). -/
  noMem : Bool
  /-- REFCLK came back at this time (R54), while a strike of R52 ended. -/
  refclkBack : Option Nat
  /-- The power cycle that follows ends a strike, and one of R54 (R64): kept over the loss of power. -/
  afterStrike : Bool
  afterRefclk : Bool
  /-- Starts since the model's beginning, the index of the boot nonce (R672). -/
  boots : Nat
deriving DecidableEq, Repr

/-! ### Events and the prompt book -/

/-- One entry of a stage core's event queue (R697). -/
structure CoreEntry where
  event : Nat
  severity : Nat
  seq : Nat
  detail : Nat
deriving DecidableEq, Repr

/-- One CXL event log of a logical device (R698): records, and the overflow count. -/
structure LdLog where
  recs : List CoreEntry
  lost : Nat
deriving DecidableEq, Repr

/-- Event router (R695 to R699): core queues by core, routing bytes by LD × 4096 + ID, logs by LD × 4 + severity. -/
structure EventUnit where
  coreQs : List (Nat × List CoreEntry)
  routes : List (Nat × Nat)
  logs : List (Nat × LdLog)
  /-- When EVT_OVERFLOW was last raised (R697: at most once per second). -/
  overflowAt : Option Nat
deriving DecidableEq, Repr

/-- One prompt-book record (R703). Flag bits: read, acknowledged, flushed, restored. -/
structure PbRecord where
  seq : Nat
  kind : Nat
  severity : Nat
  event : Nat
  trigger : Nat
  read : Bool
  acked : Bool
  flushed : Bool
  restored : Bool
  detail : Nat
  start : Nat
  captures : List (Nat × Nat)
deriving DecidableEq, Repr

/-- One tally (R719). -/
structure Tally where
  count : Nat
  sum : Nat
  least : Nat
  greatest : Nat
  buckets : List (Nat × Nat)
deriving DecidableEq, Repr

/-- A log leaf being programmed or programmed: slot, word line, the sequences it carries (R715, R716). -/
structure LogLeaf where
  slot : Nat
  wordLine : Nat
  seqs : List PbRecord
deriving DecidableEq, Repr

/-- The prompt book (R703 to R723): ring by slot, start count, log leaves, flush in flight, tallies by index. -/
structure PBook where
  ring : List (Nat × PbRecord)
  start : Nat
  log : List LogLeaf
  flushing : Option LogLeaf
  /-- Last slot and next word line of the log ring. -/
  logSlot : Nat
  logLine : Nat
  tallies : List (Nat × Tally)
  /-- When PBOOK_DROPPED was last raised (R711: at most once per second). -/
  droppedAt : Option Nat
  /-- The writer's queue: what each raise in it still takes of the writer, in ns (R709). -/
  writer : List Nat
  /-- When the oldest unflushed FAULT or FATAL record was written (R715: 1 ms). -/
  urgentAt : Option Nat
deriving DecidableEq, Repr

/-! ### Host links -/

/-- One HDM decoder (R107 to R110). -/
structure Hdm where
  committed : Bool
  lock : Bool
  base : Nat
  size : Nat
  skip : Nat
  ways : Nat
  granularity : Nat
deriving DecidableEq, Repr

/-- One holder of a SHARED_BI line: link, and LD-ID or SPID (R114). -/
structure Holder where
  link : Nat
  key : Nat
deriving DecidableEq, Repr

/-- A BISnpInv waiting for BIRsps (R115 to R117): line, holders still to answer, since when, last BI_SLOW. -/
structure BiWait where
  line : Nat
  left : List Holder
  since : Nat
  warned : Nat
deriving DecidableEq, Repr

/-- One link's own state beside its registers. -/
structure LinkState where
  /-- IDE keys are programmed, stream counters near or at their end are in `SEC_CNT`. -/
  ideKeys : Bool
  /-- Responses are withheld after an integrity failure (R119). -/
  withheld : Bool
  /-- S2M credits of the completion stage in hand (R140). -/
  ndr : Nat
  drs : Nat
  /-- The split in effect (R92); meaningful on even links. -/
  split : Bool
  /-- The protocol of the DOE request that is being handled (R121). -/
  doe : Option Nat
  /-- Acceptance numbers that a pending GPF phase 2 waits for (R135); none: no phase 2 pending. -/
  gpf : Option Nat
deriving DecidableEq, Repr

/-- Alert configuration, event interrupt policy and timestamp of a logical device's mailbox (R124). -/
structure MboxState where
  timestamp : Nat
  timeSetAt : Nat
  eventPolicy : Nat
  alerts : Nat
deriving DecidableEq, Repr

/-- Host side (chapter 3): links, decoders by device × 8 + index, DC extents, snoop filter, mailboxes, label storage. -/
structure HostUnit where
  /-- Personality in force by link: 0 SLD, 1 MLD, 2 GFD (R96); an unlisted link is SLD. -/
  modes : List (Nat × Nat)
  links : List (Nat × LinkState)
  decoders : List (Nat × Hdm)
  /-- Outstanding DC extents: device, first and last granule (R111). -/
  extents : List (Nat × Nat × Nat)
  snoop : List (Nat × List Holder)
  biWaits : List BiWait
  sfEvictions : Nat
  mailboxes : List (Nat × MboxState)
  /-- Label storage areas, LD × 131072 + offset. -/
  lsa : List Host.Cell
  /-- Persist barriers waiting (R135): mailbox, region or 0xFFFF, last acceptance number covered. -/
  barriers : List (Nat × Nat × Nat)
deriving DecidableEq, Repr

/-! ### The request path -/

/-- Who issued a request. -/
inductive Source where
  /-- A host link: link, LD-ID or SPID, identity, tag of the host. -/
  | host (link key identity tag : Nat)
  /-- A script operation: scribe, context, operation slot. -/
  | script (scribe ctx slot : Nat)
  /-- Twin receive: message sequence (R548). -/
  | twin (seq : Nat)
  /-- An internal unit of the given requester class. -/
  | unit (cls : Nat)
deriving DecidableEq, Repr

/-- Where a request waits (R13, R115, R140, R153, R157 to R160, R388, R551). -/
inductive Gate where
  | none | order | ink | bounded | fence | handover | staging | lost | repair | backInval | applied | held | commit
  /-- In the tracker, for an input credit of its cache slice; at the slice, for a miss entry; for the twin send path (R140,
  R143, R551). -/
  | credit | slice | send
deriving DecidableEq, Repr

/-- An indivisible read-modify-write (R446, R472): op 1 CAS, 2 FADD; width in bytes; byte offset in the line; operands. -/
structure Rmw where
  op : Nat
  width : Nat
  off : Nat
  a : Nat
  b : Nat
deriving DecidableEq, Repr

/-- A request in the tracker (R141). A load has no lines to write; a store has one, a SEAL group up to 64. -/
structure Req where
  /-- Acceptance number: requests are numbered in acceptance order (R152). -/
  acc : Nat
  src : Source
  isStore : Bool
  /-- DPA of the request's first byte. -/
  dpa : Nat
  writes : List LineWrite
  cls : Nat
  /-- When it entered port ingress, or was issued (R170). -/
  t0 : Nat
  /-- Stall bound in force at acceptance, as an absolute time, the region's miss policy and the class's allocation mask of
  then (R27, R87, R154, R179). -/
  bound : Nat
  poisonMiss : Bool
  wayMask : Nat
  /-- Its data was damaged in a request buffer: it is applied as a poisoned line (R106, R681). -/
  bad : Bool
  /-- The reader asked for ownership (R115). -/
  own : Bool
  /-- SEAL group (R191, R547). -/
  isSeal : Bool
  rmw : Option Rmw
  gate : Gate
  /-- When it came to its gate (R150, R170), and whether it stands at the ink gate (R157): a store that a fence or a pending
  DISABLE holds as well stands there still. -/
  gateAt : Nat
  inkHeld : Bool
deriving DecidableEq, Repr

/-- An applied store that is not complete: it waits for the twin's acknowledgement or for BIRsps (R116, R153, R159). -/
structure Applied where
  acc : Nat
  src : Source
  lines : List Nat
  /-- Twin sequence to be acknowledged; none: not waiting for the twin. -/
  ack : Option Nat
  /-- Lines whose holders must still answer. -/
  bi : List Nat
  t0 : Nat
  cls : Nat
  /-- When its wait for the twin began, where it waits for it or has waited (R170). -/
  syncAt : Option Nat
deriving DecidableEq, Repr

/-- A completion waiting for an S2M credit (R140): of a store, its acceptance number and lines, for it is not complete before
it leaves (R16); its class, its time of R170, and when it came to the stage. -/
structure Compl where
  link : Nat
  tag : Nat
  isStore : Bool
  poison : Bool
  data : Line
  acc : Nat
  lines : List Nat
  cls : Nat
  t0 : Nat
  since : Nat
deriving DecidableEq, Repr

/-- A host request not yet accepted, for lack of a tracker entry or while CXL.mem is held (R67, R144). -/
structure Ingress where
  link : Nat
  key : Nat
  hpa : Nat
  tag : Nat
  isStore : Bool
  own : Bool
  mask : Nat
  data : Line
  /-- When it arrived (R150, R170); its stream was to be secure and was not (R105); its buffer was damaged (R681). -/
  t0 : Nat
  insecure : Bool
  bad : Bool
deriving DecidableEq, Repr

/-- The answer to a script operation that the scribe has not taken yet (R423, R449): status 0 for data. -/
structure ScriptResult where
  scribe : Nat
  ctx : Nat
  slot : Nat
  status : Nat
  data : Line
deriving DecidableEq, Repr

/-- Tracker and gates (chapter 4). -/
structure PathUnit where
  nextAcc : Nat
  ingress : List Ingress
  /-- Accepted requests that are not applied (stores) or not served (loads), in acceptance order. -/
  held : List Req
  applied : List Applied
  /-- Completions waiting in the completion stage. -/
  compl : List Compl
  /-- Answers to script operations that wait for the scribe to take them. -/
  results : List ScriptResult
  /-- Internal requests that wait for an entry of the internal pool, oldest first (R144, R147). -/
  inner : List Req
  /-- Grants left in the round, by stage × 32 + class (R148), and the last identity served, by link × 4 + host class (R149). -/
  grants : List (Nat × Nat)
  turns : List (Nat × Nat)
  /-- Last raise of CLASS_STARVED per class (R150). -/
  starvedAt : List (Nat × Nat)
  /-- PERSIST_FENCED has been raised in this fencing (R160). -/
  fenceRaised : Bool
deriving DecidableEq, Repr

/-! ### Folios, ink, cache and DRAM -/

/-- Folio states of R184. -/
inductive FState where
  | absent | staging | clean | dirty | blotting
deriving DecidableEq, Repr

/-- A folio-map entry (R184), with what the blotter, the second copy and the stager keep of the folio. -/
structure Folio where
  state : FState
  quire : Nat
  leaf : Nat
  slot : Nat
  gen : Nat
  frame : Nat
  lost : Bool
  /-- Its frame does not hold its contents: it was marked LOST under R277 while it was ink (log entry 29), or it is RESIDENT and
  its contents wait for their key slot (R668, log entry 35). -/
  gone : Bool
  /-- Dirty time (R201). -/
  dirtyAt : Nat
  /-- When the quire of its previous blot was held (R187). -/
  heldAt : Option Nat
  /-- Order in which it was sent to the blotter ahead of all others (R772). -/
  ahead : Option Nat
  /-- Dirty-line mask of the second copy, if one exists (R193). -/
  second : Option Nat
  /-- Frame of the pair pool that holds the second copy, or the held lines of R549. -/
  pairFrame : Option Nat
  /-- Lines of the folio that DRAM holds newer than its flash copy, as a mask: what R193 asks a second copy to hold. -/
  dramLines : Nat
  /-- Lines held in a pair-pool frame while the folio is absent (R549). -/
  heldLines : Nat
  /-- Clock bit and pin count (R393, R404). -/
  ref : Bool
  pins : Nat
deriving DecidableEq, Repr

/-- A cache line (R211 to R220): line address, dirty, LRU stamp and data; `stale` is the mask of its stale bytes, those that
have not been overwritten since the cache was disabled (R229, R231). Presence in the map is validity. -/
structure CLine where
  line : Nat
  dirty : Bool
  stale : Nat
  used : Nat
  data : Line
deriving DecidableEq, Repr

/-- The system cache: lines by slice × 65536 + set × 16 + way, corrected-error counts by slice × 16 + way, the running
maintenance operation as the value written to `SCACHE_MAINT`, LRU stamp counter (R211 to R240). -/
structure CacheUnit where
  lines : List (Nat × CLine)
  ceCount : List (Nat × Nat)
  maint : Option Nat
  /-- An operation by address that has not acted yet: its place in the acceptance order, first line and end (R224). -/
  maintAt : Option (Nat × Nat × Nat)
  maintStatus : Nat
  stamp : Nat
deriving DecidableEq, Repr

/-- A merge-buffer entry (R261). -/
structure MergeEntry where
  chan : Nat
  line : Nat
  mask : Nat
  data : Line
  since : Nat
deriving DecidableEq, Repr

/-- One DRAM channel beside its registers (chapter 7). -/
structure Chan where
  trained : Bool
  lastPause : Nat
  pauseDue : Option Nat
  pauseTemp : Nat
  lateRaised : Bool
  repairing : Bool
  lastReq : Nat
  /-- Times of the corrected errors of the last 24 h by row (R267). -/
  rowCe : List (Nat × List Nat)
  /-- Rows soft-repaired, with the device (R268, R269); RETIRE_FULL has been raised (R270). -/
  repairs : List (Nat × Nat)
  full : Bool
  /-- The freeze's row set, in word 1 form of R283 (R280). -/
  failRow : Nat
deriving DecidableEq, Repr

/-- DRAM contents and channels. Contents are kept by DPA: the frame of a folio says which channel holds them. -/
structure DramUnit where
  cells : List Host.Cell
  /-- Second ink copies (R193) and held lines (R549), by DPA; `Folio.pairFrame` is the frame that holds them. -/
  second : List Host.Cell
  /-- The two frames of each map page, by granule (R183, R188); one that lay in a frozen channel is gone. -/
  mapPages : List (Nat × List Nat)
  /-- The granule table (kind 0) and the journal area (kind 1), each in two channels (R188, R207): kind, channel, first frame of
  the channel and number of frames. -/
  areas : List (Nat × Nat × Nat × Nat)
  /-- Lines whose DRAM copy is erroneous and not yet rewritten, with the device at fault (R260). -/
  erroneous : List (Nat × Nat)
  merge : List MergeEntry
  chans : List (Nat × Chan)
  /-- Frames of folios of VOLATILE regions, by folio number. -/
  volFrames : List (Nat × Nat)
  /-- Frames retired (R270). -/
  retired : List Nat
  /-- Next channel of the round robin (R275, R386). -/
  rr : Nat
  /-- What waits for replacement after a freeze (R273): the folios of steps 1 and 3 and, for step 2, the folios, map pages (as
  2^32 + granule) and areas (as 2^33 + kind) whose second copy is to be made anew, each in order. -/
  replace1 : List Nat
  replace2 : List Nat
  replace3 : List Nat
  /-- DMC_REPLACE_SHORT has been raised in this shortage (R275). -/
  shortRaised : Bool
deriving DecidableEq, Repr

/-- The folio map and the ink machinery beside the registers (chapter 5). -/
structure InkUnit where
  folios : List (Nat × Folio)
  /-- Curtain inputs (R197): energy in mJ, valid, first computation since power-on done. -/
  firstCurtain : Bool
  sag : Bool
  /-- Next number of R772's order. -/
  aheadNext : Nat
  /-- Journal folios counted as ink (R189). -/
  journalInk : Nat
  /-- A build of second copies runs, with the folios still lacking (R557, R770). -/
  building : Bool
  /-- Folios of host data blotted in the last second: when, and how many (R209). -/
  blotted : List (Nat × Nat)
deriving DecidableEq, Repr

/-- Who asked for a commit: a mailbox of an admin identity or the BMC, a stage core, or the controller itself. -/
inductive Committer where
  | core | mailbox (mb : Nat) | dcAdd (dev base limit rights : Nat) | twin (seq : Nat)
  /-- The last two: where the cleared shadow window stands and what it held, to be put back if the commit is refused. -/
  | dcRelease (dev base limit off old : Nat)
deriving DecidableEq, Repr

/-- Region, owner-set and access tables by byte offset / 8 in the aperture, and the commit under way (R101 to R104,
R171 to R182). -/
structure RegionUnit where
  tabs : List (Nat × W64)
  commit : Option Committer
  /-- Commits of the controller that wait for `busy` to fall (R766). -/
  queued : List Committer
  /-- Twin sequences of TABLE_SYNC messages not yet answered (R550). -/
  tableSync : List Nat
deriving DecidableEq, Repr

/-! ### Flash, quires and the journal (chapters 8 and 9) -/

/-- A group of the group table (R301, R302, R776). States: 1 OPEN, 2 FULL, 3 TRUNCATED, 4 RELEASED. -/
structure Group where
  num : Nat
  state : Nat
  width : Nat
  layout : Nat
  /-- Member leaf addresses with word line 0, in ascending slot order (R295, R303). -/
  members : List Nat
  /-- Serial number of the cartridge of each member when the group was opened (R351). -/
  serials : List Nat
  next : Nat
  first : Nat
  /-- A strike-reserve group (R335), and quires marked LOST (R361). -/
  reserve : Bool
  lostQuires : List Nat
deriving DecidableEq, Repr

/-- What a folio slot of a quire carries (R305, R306). -/
inductive SlotKind where
  | blot
  | relocate (oldQuire oldLeaf oldSlot : Nat)
  | pad
deriving DecidableEq, Repr

/-- One folio slot of a quire being written or held: folio number, kind, generation, key slot and contents. -/
structure FolioSlot where
  folio : Nat
  kind : SlotKind
  gen : Nat
  key : Nat
  cells : List Host.Cell
deriving DecidableEq, Repr

/-- A quire being written (R305): positions whose program has succeeded; `strike` when a strike writes it. -/
structure QuireJob where
  quire : Nat
  seq : Nat
  width : Nat
  slots : List FolioSlot
  done : List Nat
  strike : Bool
deriving DecidableEq, Repr

/-- The header of a leaf, repeated on its 12 pages (R296). Magic, own address and CRC follow from the rest and the group. -/
structure LeafHeader where
  kind : Nat
  position : Nat
  width : Nat
  flags : Nat
  quire : Nat
  layout : Nat
  seq : Nat
  address : Nat
deriving DecidableEq, Repr

/-- A folio as it stands in flash (R297, R298). -/
structure FlashFolio where
  folio : Nat
  gen : Nat
  key : Nat
  cells : List Host.Cell
deriving DecidableEq, Repr

/-- A journal leaf (R326, R327): index, index of its first record, records, slots holding a good replica, slots being
programmed, whether it still counts as ink, whether its copy is still in the journal area in DRAM. -/
structure JLeaf where
  index : Nat
  first : Nat
  recs : List JRec
  good : List Nat
  programming : List Nat
  ink : Bool
  inDram : Bool
  /-- Ring position of each replica, by slot (R328). -/
  places : List (Nat × Nat)
deriving DecidableEq, Repr

/-- The journal (R325 to R330). -/
structure Journal where
  /-- Records of the open leaf, and when its first record entered. -/
  openRecs : List JRec
  openSince : Option Nat
  /-- Index of the next leaf and of the next record. -/
  nextIndex : Nat
  nextRec : Nat
  lastSlot : Nat
  /-- The leaf that carries the strike flag of the last strike (R296, R585 step 5). -/
  strikeLeaf : Option Nat
  /-- Leaves written since the last completed checkpoint, or still waiting for their programs. -/
  leaves : List JLeaf
  /-- Journal bytes written since the last completed checkpoint. -/
  bytesSince : Nat
  /-- Last checkpoint started; the internal folios it has still to blot; the index of the first leaf it needs. -/
  ckptNumber : Nat
  ckptRuns : Bool
  ckptQueue : List Nat
  ckptFirstLeaf : Nat
  /-- Leaf index that carries the CHECKPOINT record of the checkpoint under way. -/
  ckptLeaf : Option Nat
  /-- A leaf has fewer than three replicas since a loss (R342, R365). -/
  underThree : Bool
  /-- Granules whose map page changed since the last checkpoint. -/
  mapDirty : List Nat
  /-- The checkpoint under way and the last completed one: folio map, group table, tables. -/
  ckptNext : List (Nat × Folio) × List Group × List (Nat × W64)
  ckptDone : List (Nat × Folio) × List Group × List (Nat × W64)
deriving DecidableEq, Repr

/-- A cartridge as last identified in a slot (R289, R290, R348). -/
structure Cart where
  dies : Nat
  cls : Nat
  serial : Nat
  mask : Nat
  /-- When the locate request ends, if one runs (R378). -/
  locateUntil : Nat
  /-- SLOT_PWR_EN was changed at this time and SLOT_PGOOD has not followed (R373, R377). -/
  pwrSince : Option Nat
  /-- SLOT_CONTROL action 1 has been given or is not needed (step 3 of insertion). -/
  go : Bool
  /-- The identity record passes its CRC and R287 (R290). -/
  good : Bool
deriving DecidableEq, Repr

/-- Blocks of one die: blocks from `fresh` upwards have never been used since admission; `freed` are erased and free;
`retired` are never used again (R332). -/
structure DieBlocks where
  fresh : Nat
  freed : List Nat
  retired : List Nat
  /-- Times of slow events (R345). -/
  slow : List Nat
deriving DecidableEq, Repr

/-- A NAND erase in flight: block address (word line 0). -/
structure EraseJob where
  block : Nat
deriving DecidableEq, Repr

/-- A NAND leaf read in flight: folio location, folio expected, class, start (R314, R343). -/
structure ReadJob where
  folio : Nat
  quire : Nat
  leaf : Nat
  slot : Nat
  cls : Nat
  /-- It holds a credit of the flash channel queue; if not it waits for one (R140, R143). When that wait, or the read, began. -/
  issued : Bool
  since : Nat
  /-- `QUIRE_SLOW_TIMEOUT.ms` as its NAND command was issued (R87). -/
  slowMs : Nat
  /-- Its member went missing while the read was under way (R347, R350). -/
  missing : Bool
deriving DecidableEq, Repr

/-- Quire engine, flash channels, cartridges (chapters 8 and 9). -/
structure FlashUnit where
  /-- Dies per channel of the fixed population (R290); none: not fixed. -/
  population : Option Nat
  carts : List (Nat × Cart)
  blocks : List (Nat × DieBlocks)
  groups : List Group
  quires : List QuireJob
  /-- Folios in flash by (quire × 16 + leaf) × 4 + slot, and the headers of programmed leaves by quire × 16 + position. -/
  store : List (Nat × FlashFolio)
  headers : List (Nat × LeafHeader)
  reads : List ReadJob
  erases : List EraseJob
  journal : Journal
  /-- Last die index that supplied a block, by slot (R775). -/
  lastDie : List (Nat × Nat)
  /-- Reclaim victim group and folios waiting to be relocated: folio and old place (R319 to R321). -/
  victim : Option Nat
  relocating : List FolioSlot
  urgentAt : Option Nat
  /-- Fall of the width that starts the reshape delay (R367). -/
  reshapeAt : Option Nat
  /-- Lost folios waiting for a repair, and folios being repaired by the twin (R362, R363). -/
  repairs : List Nat
  /-- Rebuild and reshape work left: folios still to move, by job (R357, R368). -/
  rebuildLeft : List Nat
  /-- Journal leaf copies held for the twin: index, index of the first record, records (R571). -/
  twinCopies : List (Nat × Nat × List JRec)
  /-- NAND erases permitted: the curtain's bitmap as ranges of block address / 2048, upper end excluded (R331, R643). -/
  permits : List (Nat × Nat)
  /-- Suspends of the operation that runs on a die, and `FLASH_SUSP_CFG.max_susp` as it was issued, by slot × 32 + die index
  (R87, R316, R317). -/
  susp : List (Nat × (Nat × Nat))
  /-- No NAND program or erase is issued: from step 1 of R59 to the end of the warm start (R773). -/
  quiet : Bool
  /-- DEGRADED has been requested under R350 or R353 and not withdrawn (R382). -/
  degraded : Bool
  /-- Journal rings by slot: word lines written and blocks erased since the ring was formed, and the die that holds ring
  block k, by slot × 16 + k, where it has been replaced (R328, R347). -/
  ringNext : List (Nat × Nat)
  ringErased : List (Nat × Nat)
  ringDie : List (Nat × Nat)
deriving DecidableEq, Repr

/-! ### The stager (chapter 10) -/

/-- A single-flight entry (R385): folio, whether a frame is assigned, opening time, cue issues on it, the step of R390
it has reached (0 reading, 1 reconstructing, 2 twin fetch). Waiters are the held requests of gate `staging`. -/
structure SfEntry where
  folio : Nat
  assigned : Bool
  since : Nat
  cues : List (Nat × Nat)
  phase : Nat
  waiterLimit : Bool
deriving DecidableEq, Repr

/-- A cue run (R400 to R406), keyed by scribe × 16 + context. -/
structure CueRun where
  ctx : Nat
  base : Nat
  count : Nat
  lead : Nat
  auto : Bool
  isOpen : Bool
  cursor : Nat
  next : Nat
  /-- Entry results by index (R403), entries that hold a pin, entries read so far. -/
  results : List (Nat × Nat)
  pinned : List Nat
  entries : List (Nat × (Nat × Nat))
  /-- Entries up to here are due for a WAITC (R403); when an entry became CLEAN, and when the cursor reached one that had
  not (R411). -/
  due : Nat
  times : List (Nat × Nat)
  reached : List (Nat × Nat)
  /-- The windows the ticket reads the sheet through, by identity and mask (R399, R403). -/
  ident : Nat
  win : Nat
  bad : Option Nat
  capRaised : Bool
deriving DecidableEq, Repr

/-- The stager beside its registers. -/
structure StageUnit where
  entries : List SfEntry
  /-- Folios whose staging a load with miss policy POISON has asked for while no entry was free (R26). -/
  wanted : List Nat
  runs : List CueRun
  /-- Clock hand: the last folio passed (R393). -/
  hand : Nat
  shortage : Bool
  runWaitRaised : Bool
deriving DecidableEq, Repr

/-! ### The twin unit (chapter 14) -/

/-- A message sent and not acknowledged. -/
structure SentMsg where
  seq : Nat
  type : Nat
  at_ : Nat
  /-- Its length in bytes (R536). -/
  bytes : Nat
  /-- It carries a BOUNDED store that has completed at this time (R158, R572). -/
  boundedAt : Option Nat
  /-- Stores whose completion waits for it: acceptance numbers (R159). -/
  accs : List Nat
deriving DecidableEq, Repr

/-- Why a folio was asked for from the twin (R391, R362, R276, R686). -/
inductive FetchWhy where
  | staging | repair | rebuild | line (line : Nat)
deriving DecidableEq, Repr

/-- A twin fetch request outstanding (R570). -/
structure FetchJob where
  id : Nat
  folio : Nat
  why : FetchWhy
  since : Nat
  /-- A store was applied to the poisoned line since it was poisoned (R686). -/
  dirtied : Bool
deriving DecidableEq, Repr

/-- What a HELLO tells (R540), with two things that the two controllers must know of each other and that the message has no
field for: `prefer_lead` (R545) and the granules that the valid PERSISTENT regions hold (R546). Log entry 40. -/
structure Peer where
  id : Nat
  epoch : Nat
  role : Nat
  divValid : Bool
  synced : Bool
  divEpoch : Nat
  granules : Nat
  prefer : Bool
  held : Nat
deriving DecidableEq, Repr

/-- The epoch record in force (R542, R631). Roles: 0 none, 1 LEAD, 2 UNDERSTUDY, 3 SOLO. -/
structure EpochRecord where
  epoch : Nat
  role : Nat
  divEpoch : Nat
  divValid : Bool
  readable : Bool
deriving DecidableEq, Repr

/-- The twin unit beside its registers. -/
structure TwinUnit where
  record : EpochRecord
  /-- Trained width of TW0 and TW1: 0, 8 or 16 (R530). -/
  width0 : Nat
  width1 : Nat
  /-- Sequences of R537 and R539. -/
  sendSeq : Nat
  recvSeq : Nat
  ackedSeq : Nat
  unacked : List SentMsg
  /-- Bytes of message stream sent since the last HELLO: where the next message begins in the flits (R531, R536). -/
  stream : Nat
  lastSent : Nat
  /-- Promotion timer: last message of the current epoch from the LEAD (R556). -/
  lastHeard : Nat
  lostRaised : Bool
  /-- Lease expiry (R554). -/
  leaseEnd : Option Nat
  /-- When the last HEARTBEAT was sent (R553). -/
  lastBeat : Nat
  /-- CV2 has stopped the heartbeats (R694). -/
  heartbeatStopped : Bool
  /-- Bitmaps of 2 MiB chunks (R562). -/
  lagCur : List Nat
  lagPrev : List Nat
  lagSwapSeq : Nat
  divMap : List Nat
  pairedEver : Bool
  /-- What the last HELLO of the twin said (R545, R546, R564), and whether its roles are still to be settled (R544). -/
  peer : Option Peer
  toSettle : Bool
  /-- Resync: chunks received by BITMAP, whether this side sends, the sequence of RESYNC_DONE, folios still to send. -/
  resyncSends : Bool
  resyncDoneSeq : Option Nat
  resyncLeft : List Nat
  resyncTotal : Nat
  /-- A full copy, or a bitmap still awaited (R564 step 3). -/
  bitmapDue : Bool
  /-- TABLE_SYNC messages of the other side not yet answered (R550), and FETCH_REQ messages not yet answered (R570). -/
  tablesIn : List Nat
  asked : List (Nat × Nat)
  /-- NONE regions whose data this controller does not hold, and those whose event was raised (R568). -/
  absentNone : List Nat
  noneRaised : List Nat
  /-- Regions whose copy of R771 runs here, with the sequence of MIRROR_READY once sent. -/
  mirrorJobs : List (Nat × Option Nat)
  fetches : List FetchJob
  nextFetch : Nat
  /-- Folios that have come and wait at the ink ceiling (R363, R391). -/
  fetched : List (Nat × FetchWhy × List Host.Cell)
  /-- Folios refused with RETRY_LATER, and why they were asked for (R570). -/
  retryLater : List (Nat × FetchWhy)
  /-- Handover under way: sequence of HANDOVER once sent (R560); time of HANDOVER_ACK sent or awaited (R561). -/
  handover : Option Nat
  newLeadSince : Option Nat
  gateClosed : Bool
deriving DecidableEq, Repr

/-! ### Integrity (chapter 18) -/

/-- One check unit beside its registers (R690 to R694): alive baseline is in `CHK_STAT`; CRC of the last descriptor. -/
structure CheckUnit where
  lastCrc : Nat
deriving DecidableEq, Repr

/-- Integrity units: line poison table and overflow by line, cause (R683, R687), corrected rows, control SRAM bytes. -/
structure IntegUnit where
  poison : List (Nat × Nat)
  overflow : List (Nat × Nat)
  /-- Corrected errors per array class × 2^32 + row, with window start (R677). -/
  rowCe : List (Nat × List Nat)
  marked : List Nat
  units : List (Nat × CheckUnit)
  ctlSram : List Host.Cell
  /-- DRAM control area by offset (R207, R691). -/
  ctlArea : List Host.Cell
deriving DecidableEq, Repr

/-! ### Maintenance jobs (chapter 20) -/

/-- A maintenance job (R730 to R733). state: 0 queued, 1 running, 2 ended. -/
structure Job where
  id : Nat
  act : Nat
  target : Nat
  p0 : Nat
  p1 : Nat
  p2 : Nat
  sender : JobFrom
  state : Nat
  status : Nat
  progress : Nat
  phase : Nat
  since : Nat
  /-- Mailbox and opcode that wait for the end of the job, if any. -/
  waiter : Option (Nat × Nat)
deriving DecidableEq, Repr

/-- The maintenance scheduler: jobs in acceptance order. -/
structure MaintUnit where
  jobs : List Job
  nextId : Nat
deriving DecidableEq, Repr
/-! ### The sentinel (chapter 15) -/

/-- The power sentinel beside its registers (R575 to R613, R744 to R750). -/
structure SentUnit where
  /-- Since when PSU_AC_FAIL_N is asserted, bulk stands below 11.4 V and below 10.8 V (R578). -/
  acSince : Option Nat
  lowSince : Option Nat
  dropSince : Option Nat
  /-- Since when bulk stands above 11.6 V with PSU_AC_FAIL_N deasserted and PSU_PWR_OK asserted (R580, R588). -/
  goodSince : Option Nat
  /-- Start of the disturbance under way and the lowest BULK_SENSE count in it (R578, R613). -/
  distSince : Option Nat
  distMin : Nat
  /-- Start of the SAG under way, end of the last one, whether the running one is a repeat, and when R581's hold ends. -/
  sagSince : Option Nat
  sagEnded : Option Nat
  sagRepeat : Bool
  holdUntil : Option Nat
  /-- Last moment at which a disturbance, SAG hold, strike or load-in was in progress (R595). -/
  busyUntil : Nat
  /-- The strike under way: its start; it follows R52 or R56; firmware's part of the bus is held off (R587). -/
  strikeSince : Nat
  clockStrike : Bool
  /-- Step 7 of the strike has ended: it waits for the power to go, after R52 for REFCLK first (R54). -/
  strikeOver : Bool
  /-- Load-in waits for this journal leaf from the twin (R366). -/
  loadNeed : Option Nat
  /-- Power-on: when the wait for V_chg began (R595, R596). -/
  bankSince : Nat
  /-- A hold-up test is due since, HOLDUP_TEST_LATE has been raised for it, the last valid test (R595). -/
  testDue : Option Nat
  testLate : Bool
  testedAt : Option Nat
  testSince : Nat
  /-- C in mF and V_eff in mV of the last valid test (R594, R596). -/
  testC : Nat
  testVeff : Nat
  /-- The bank holds E_reserve, stands at V_chg, has fallen below V_min, at the last HOLDUP_SENSE sample (R593, R594, R750). -/
  holdsReserve : Bool
  atCharge : Bool
  belowMin : Bool
  /-- Voltage glitch detectors armed (R750). -/
  glitchArmed : Bool
  /-- Last on or off of each sequence group (R601) and failed answers in a row per regulator (R602). -/
  railOps : List (Nat × Nat)
  fails : List (Nat × Nat)
  /-- Largest e_save window since the previous test, in pJ/B, and whether one was taken since power-on (R597). -/
  esaveMax : Nat
  esaveSeen : Bool
  /-- E_measured has been published since power-on (R66 step 7, R595, R596). -/
  measured : Bool
  /-- VOUT_MODE exponents read at boot, by regulator entry (R600). -/
  voutMode : List (Nat × Nat)
  /-- What each meter holds beyond whole millijoules, by identity (256: the idle meter), in units of pJ / 900,000. -/
  meterFrac : List (Nat × Nat)
  /-- Power samples of the last 1 ms in mW, newest first; throttle steps in force; since when the mean has been low (R607). -/
  power : List Nat
  powerCount : Nat
  steps : Nat
  coolSince : Option Nat
  /-- Samples in a row at or above 115 °C, and since when all sensors read below 100 °C (R641). -/
  hotSamples : Nat
  coldSince : Option Nat
  /-- Load-in: the step of R590 it has reached, its start, and whether RESERVE_SHORT has been raised (R337, R590). -/
  loadStep : Nat
  loadSince : Nat
  reserveRaised : Bool
  /-- Time of the last change of a slot's power (R603). -/
  slotPower : Option Nat
deriving DecidableEq, Repr

/-! ### Stage cores and firmware flash (chapter 16) -/

/-- A program or erase on a bank of the firmware flash (R624). `word` is the number of its intent word. -/
structure FwOp where
  port : Nat
  erase : Bool
  off : Nat
  data : List Byte
  suspended : Bool
deriving DecidableEq, Repr

/-- A rolling activation (R638, R639): cores still to roll, the core in LOADING, the digest of the new image. -/
structure Roll where
  left : List Nat
  current : Option Nat
  image : Nat
deriving DecidableEq, Repr

/-- Stage cores, their control SRAM apart, and the firmware-flash array. -/
structure CoreUnit where
  /-- Last write of `STC_WDOG` by core (R616). -/
  kicks : List (Nat × Nat)
  /-- SVN to be committed after the first write of `STC_WDOG` (R650), and cores that have written it. -/
  svnPending : Option Nat
  kicked : List Nat
  roll : Option Roll
  /-- Roll level of the running image, and of the image staged by Transfer FW (R639, R646). -/
  rollLevel : Nat
  /-- Mailbox commands held while no core is RUNNING (R617): mailbox, opcode, payload, and the outcome operands of the row. -/
  mail : List (Nat × Nat × List Byte × List Nat)
  /-- The array of R618; an unlisted byte is erased, 0xFF. -/
  array : List Host.Cell
  /-- Pages programmed since the erase of their sector (R620). -/
  pages : List Nat
  /-- Operations by bank; a second entry of a bank is the program that runs while an operation is suspended (R624). -/
  ops : List (Nat × List FwOp)
  /-- FWF_SUSPEND_MANY raised for the running operation of the bank (R626). -/
  manyRaised : List Nat
  /-- Page reads that wait for their bank (R624): port, offset, how BCH will find the page. -/
  reads : List (Nat × Nat × Nat)
  /-- Password, words written, place in the sequence of R633, last failure (R634). -/
  password : Nat
  words : List Nat
  seqPlace : Nat
  failedAt : Option Nat
deriving DecidableEq, Repr

/-! ### Security (chapter 17) -/

/-- A load that waits for its slot (R662): slot, kind (1 XTS, 2 GCM), key ID, the blob to be stored if it is new, and whom to
answer. -/
structure KeyLoad where
  slot : Nat
  kind : Nat
  keyId : Nat
  blob : List Byte
  mb : Option Nat
deriving DecidableEq, Repr

/-- An SPDM session (R653): channel (0 to 7 DOE of a link, 8 MCTP, 9 twin), id, finished, mutually authenticated (`mutualAuth`), hash of
the requester's leaf key. -/
structure SpdmSession where
  chan : Nat
  id : Nat
  finished : Bool
  mutualAuth : Bool
  leaf : Nat
deriving DecidableEq, Repr

/-- The security core beside its registers. -/
structure SecUnit where
  /-- Alarm latch in AON (R667, R671); its flash copy is a record of the key blob store. -/
  latchAon : Bool
  /-- The latch is still to be programmed (R667). -/
  latchDue : Bool
  loads : List KeyLoad
  /-- Hashes of the owner keys that SEED_PROGRAM has programmed since the fused ones, oldest first (R655). -/
  seeds : List Nat
  /-- The sentinel holds the strike key; slot 255 has been loaded since power-on (R669). -/
  strikeKey : Bool
  strikeLoaded : Bool
  /-- SPDM: stage of the connection by channel (0 none, 1 version, 2 capabilities, 3 algorithms), sessions, next id. -/
  conn : List (Nat × Nat)
  sessions : List SpdmSession
  nextSession : Nat
  /-- Nonce counters (R665): 0 to 7 what the IDE of a link receives, 32 to 39 what it sends, 8 and 9 frames of TW0 and TW1, 1024 + id
  an SPDM session. -/
  counters : List (Nat × Nat)
deriving DecidableEq, Repr

/-! ### Scribes and scripts (chapters 11 and 12) -/

/-- A section of a loaded script (R430, R431): kind, place, size; `copy` is the reservoir offset of INK_DATA's pristine copy. -/
structure Section where
  kind : Nat
  place : Nat
  size : Nat
  copy : Nat
deriving DecidableEq, Repr

/-- A loaded script: logical device, id, where its share begins in each cluster of its mask, footprints, entry, handler. -/
structure Script where
  ld : Nat
  id : Nat
  bases : List (Nat × Nat)
  size : Nat
  resFoot : Nat
  inkFoot : Nat
  entry : Nat
  handler : Nat
  sections : List Section
  /-- Clusters in which it is DAMAGED (R442). -/
  damaged : List Nat
deriving DecidableEq, Repr

/-- What a PROBE still has to do (R490). -/
structure Probe where
  rd : Nat
  key : Nat
  base : Nat
  mask : Nat
  bucket : Nat
  left : Nat
  kind : Nat
  empty : Nat
deriving DecidableEq, Repr

/-- Where the answer of a DPA operation goes. -/
inductive OpDest where
  /-- A store: nothing to write. -/
  | store
  /-- A scalar load: register, width in bytes, sign extension, byte offset in the line. -/
  | reg (rt width : Nat) (signed : Bool) (off : Nat)
  /-- A vector load: register, byte mask to write. -/
  | vec (vd mask : Nat)
  /-- A broadcast load: register, byte mask, element width, byte offset in the line. -/
  | bcast (vd mask width off : Nat)
  /-- An atomic: register and width (R472). -/
  | atomic (rd width : Nat)
  | probe (p : Probe)
  /-- A line of a DMA job: byte offset of the line in the range. -/
  | dma (off : Nat)
deriving DecidableEq, Repr

/-- A DPA operation slot held (R420): its number, destination, line, and the bytes of the context's own earlier stores to
the line that a load must return (R444), or the bytes a store writes. -/
structure DpaOp where
  slot : Nat
  dest : OpDest
  line : Nat
  mask : Nat
  data : Line
deriving DecidableEq, Repr

/-- One range of a DMA job: destination, source, length (R484). -/
structure DmaRange where
  dst : Nat
  src : Nat
  len : Nat
deriving DecidableEq, Repr

/-- A COPY or CRC in progress (R486, R487): ranges left, bytes issued of the current range, whether it is being written,
the buffer, and for CRC the register, the polynomial and the bytes read so far. -/
structure DmaJob where
  crc : Option (Nat × Nat)
  start : Nat
  ranges : List DmaRange
  writing : Bool
  issued : Nat
  buf : List Host.Cell
  done : List Byte
deriving DecidableEq, Repr

/-- What holds a context (R419). -/
inductive Block where
  | none
  /-- CAS or FADD in DPA. -/
  | atomic
  | dma (j : DmaJob)
  /-- SEAL.COMMIT: acceptance number of the group's request; none: no byte was held. -/
  | commit (acc : Option Nat)
  /-- PBAR: twin form; stores accepted before this number. -/
  | pbar (twin : Bool) (acc : Nat)
  | waitc (rd entry : Nat)
  | notify (rd value : Nat)
  | yield
  /-- HALT waits for the ticket's stores: status and result. -/
  | halt (status result : Nat)
  /-- The ticket ends with this status once its stores have been applied, and once the SEAL.COMMIT of this acceptance
  number, applied before an abort, has retired (R449, R456, R523). -/
  | ending (status : Nat) (commit : Option Nat)
deriving DecidableEq, Repr

/-- One hardware context with its ticket (R416, R423). -/
structure Ctx where
  x : List (Nat × W64)
  v : List (Nat × Line)
  p : List (Nat × W64)
  pc : Nat
  win : Nat
  cause : Nat
  epc : Nat
  handler : Bool
  /-- SEAL group (R451 to R454): lines in order of their ADD, and the held bytes by line. -/
  sealOpen : Bool
  sealLines : List Nat
  sealBuf : List (Nat × (Nat × Line))
  ops : List DpaOp
  /-- Acceptance numbers of the ticket's DPA stores (R447, R449). -/
  stores : List Nat
  block : Block
  inkBase : Nat
  script : Nat
  ld : Nat
  queue : Nat
  slot : Nat
  gen : Nat
  ticket : Line
  ident : Nat
  /-- Descriptor area of the ticket space (R429). -/
  desc : List Host.Cell
  /-- The abort result that its end posts (R521), and whether its end writes a completion (R506, R526). -/
  abortNote : Bool
  silent : Bool
deriving DecidableEq, Repr

/-- The scribes: contexts by scribe × 16 + context, scripts, inkwells by scribe × 512 KiB, reservoirs by cluster × 8 MiB. -/
structure ScribeUnit where
  ctxs : List (Nat × Ctx)
  scripts : List Script
  inkwell : List Host.Cell
  reservoir : List Host.Cell
  /-- Last TICKET_FAULT of each scribe (R440), physical scribes that passed the last power-on rehearsal's test. -/
  faultAt : List (Nat × Nat)
  /-- The scribe being drained by SCRIBE_SWAP, with the end of its timeout and how the test of step 5 will end (R737). -/
  swap : Option (Nat × Nat × Bool)
deriving DecidableEq, Repr

/-! ### Queues (chapter 13) -/

/-- States of a slot (R509, R521). -/
inductive SlotState where
  | free | admitted | running | written
deriving DecidableEq, Repr

/-- One slot of a queue: its state, last generation, ticket, an abort has been accepted, an abort result is held. -/
structure QSlot where
  state : SlotState
  gen : Nat
  ticket : Line
  aborted : Bool
  held : Option Nat
  /-- Order of admission (R519), and the completion-ring index of its completion (R510). -/
  order : Nat
  cpl : Nat
deriving DecidableEq, Repr

/-- A queue pair (R500, R504, R505). -/
structure Queue where
  depth : Nat
  vector : Nat
  prio : Nat
  sub : Nat
  cpl : Nat
  subHead : Nat
  subTail : Nat
  cplHead : Nat
  cplTail : Nat
  cplPhase : Nat
  noteHead : Nat
  noteTail : Nat
  notePhase : Nat
  noteCount : Nat
  slots : List (Nat × QSlot)
  /-- QUEUE_DELETE waits for its tickets: the mailbox to answer (R506). -/
  deleting : Option Nat
deriving DecidableEq, Repr

/-- A doorbell store accepted and not acted on (R516): logical device, offset, bytes written, value. -/
structure Bell where
  ld : Nat
  off : Nat
  wide : Bool
  value : Nat
deriving DecidableEq, Repr

/-- The queue manager: pairs by logical device × 4096 + id, queue windows by logical device × 2^28 + offset. -/
structure QueueUnit where
  pairs : List (Nat × Queue)
  window : List Host.Cell
  bells : List Bell
  /-- Order of the next admission; grants left of the round by priority; the last logical device and queue served. -/
  nextOrder : Nat
  grants : List (Nat × Nat)
  lastLd : List (Nat × Nat)
  lastQueue : List (Nat × Nat)
  /-- Coalescing by logical device × 64 + vector: entries since it fired, time of the first (R525). -/
  coal : List (Nat × (Nat × Nat))
deriving DecidableEq, Repr


/-! ### The whole state -/

/-- Faults. The block never faults: the manual answers every refusal with a status, poison or a discard. -/
inductive Fault where
  /-- Raised by nobody: kept so that the type of outcomes is inhabited as the host's interface asks. Safe. -/
  | none_
deriving DecidableEq, Repr

/-- Refusals. -/
inductive Refusal where
  /-- Raised by `exec` alone, for a command whose meaning is not written. Safe: the run stops. -/
  | notModelled (mnemonic : String)
deriving DecidableEq, Repr

/-- The machine. -/
structure State where
  /-- Commands waiting, first in, first out. -/
  pending : List Instr
  /-- Microseconds since the model's beginning: the model's own clock (log entry 2). -/
  clock : Nat
  /-- Counter that the free values are drawn with (log entry 3). -/
  fresh : Nat
  /-- What the block has sent to the outside, oldest first (log entry 4). -/
  sent : List Out
  regs : Regs
  scene : SceneUnit
  pwr : PowerUnit
  evt : EventUnit
  pb : PBook
  host : HostUnit
  region : RegionUnit
  path : PathUnit
  cache : CacheUnit
  dram : DramUnit
  ink : InkUnit
  flash : FlashUnit
  stage : StageUnit
  twin : TwinUnit
  integ : IntegUnit
  maint : MaintUnit
  sen : SentUnit
  core : CoreUnit
  sec : SecUnit
  scr : ScribeUnit
  que : QueueUnit
deriving DecidableEq, Repr

/-- An empty journal. -/
def Journal.init : Journal :=
  { openRecs := [], openSince := none, nextIndex := 0, nextRec := 0, lastSlot := 15, strikeLeaf := none, leaves := [], bytesSince := 0,
    ckptNumber := 0, ckptRuns := false, ckptQueue := [], ckptFirstLeaf := 0, ckptLeaf := none, underThree := false, mapDirty := [],
    ckptNext := ([], [], []), ckptDone := ([], [], []) }

/-- The block right after power-on reset of its AON domain (R57, R58, R66): every register at its reset word, every
other domain held in reset, nothing in any queue, table or memory. -/
def State.reset : State where
  pending := []
  clock := 0
  fresh := 0
  sent := []
  regs := { live := [], base := [], rwsTaken := [] }
  scene := { images := [], waiting := [] }
  pwr := { step := 0, aonUp := false, secUp := false, ctlUp := false, fabUp := false, linksInReset := [],
           warmValid := false, warmTrained := [], warmMapBase := none, warmJournalBase := none, bifStrap := 0,
           railGroup := 0, railSince := 0, heldReset := none, resetLow := false, secUePending := false,
           noMem := false, refclkBack := none, afterStrike := false, afterRefclk := false,
           boots := 0 }
  evt := { coreQs := [], routes := [], logs := [], overflowAt := none }
  pb := { ring := [], start := 0, log := [], flushing := none, logSlot := 14, logLine := 0, tallies := [],
          droppedAt := none, writer := [], urgentAt := none }
  host := { modes := [], links := [], decoders := [], extents := [], snoop := [], biWaits := [], sfEvictions := 0, mailboxes := [],
            lsa := [], barriers := [] }
  region := { tabs := [], commit := none, queued := [], tableSync := [] }
  path := { nextAcc := 0, ingress := [], held := [], applied := [], compl := [], results := [], inner := [],
            grants := [], turns := [], starvedAt := [],
            fenceRaised := false }
  cache := { lines := [], ceCount := [], maint := none, maintAt := none, maintStatus := 0, stamp := 0 }
  dram := { cells := [], second := [], mapPages := [], areas := [], erroneous := [], merge := [], chans := [], volFrames := [], retired := [], rr := 0,
            replace1 := [], replace2 := [], replace3 := [], shortRaised := false }
  ink := { folios := [], firstCurtain := true, sag := false, aheadNext := 0, journalInk := 0, building := false,
           blotted := [] }
  flash := { population := none, carts := [], blocks := [], groups := [], quires := [], store := [], headers := [], reads := [],
             erases := [], journal := Journal.init, lastDie := [], victim := none, relocating := [], urgentAt := none,
             reshapeAt := none, repairs := [], rebuildLeft := [], twinCopies := [], permits := [],
             susp := [], quiet := false, degraded := false, ringNext := [], ringErased := [], ringDie := [] }
  stage := { entries := [], wanted := [], runs := [], hand := 0, shortage := false, runWaitRaised := false }
  twin := { record := { epoch := 0, role := 0, divEpoch := 0, divValid := false, readable := false }, width0 := 0,
            width1 := 0, sendSeq := 0, recvSeq := 0, ackedSeq := 0, unacked := [], stream := 0, lastSent := 0, lastHeard := 0,
            lostRaised := false, leaseEnd := none, lastBeat := 0, heartbeatStopped := false, lagCur := [],
            lagPrev := [], lagSwapSeq := 0, divMap := [], pairedEver := false, peer := none,
            toSettle := false, resyncSends := false, resyncDoneSeq := none, resyncLeft := [], resyncTotal := 0,
            bitmapDue := false, tablesIn := [], asked := [], fetched := [],
            absentNone := [], noneRaised := [], mirrorJobs := [], fetches := [], nextFetch := 0, retryLater := [],
            handover := none, newLeadSince := none, gateClosed := false }
  integ := { poison := [], overflow := [], rowCe := [], marked := [], units := [], ctlSram := [], ctlArea := [] }
  maint := { jobs := [], nextId := 1 }
  sen := { acSince := none, lowSince := none, dropSince := none, goodSince := none, distSince := none,
             distMin := 0xFFF, sagSince := none, sagEnded := none, sagRepeat := false, holdUntil := none, busyUntil := 0,
             strikeSince := 0, clockStrike := false, strikeOver := false, loadNeed := none, bankSince := 0, testDue := none, testLate := false,
             testedAt := none, testSince := 0, testC := 0, testVeff := 0, holdsReserve := false, atCharge := false,
             belowMin := false, glitchArmed := false, railOps := [], fails := [], esaveMax := 0, esaveSeen := false, measured := false, voutMode := [],
             meterFrac := [], powerCount := 0,
             power := [], steps := 0, coolSince := none, hotSamples := 0, coldSince := none, loadStep := 0,
             loadSince := 0, reserveRaised := false, slotPower := none }
  core := { kicks := [], svnPending := none, kicked := [], roll := none, rollLevel := 0, mail := [], array := [],
            pages := [], ops := [], manyRaised := [], reads := [], password := 0, words := [], seqPlace := 0, failedAt := none }
  sec := { latchAon := false, latchDue := false, loads := [], seeds := [], strikeKey := false, strikeLoaded := false, conn := [], sessions := [],
           nextSession := 1, counters := [] }
  scr := { ctxs := [], scripts := [], inkwell := [], reservoir := [], faultAt := [], swap := none }
  que := { pairs := [], window := [], bells := [], nextOrder := 0, grants := [], lastLd := [], lastQueue := [],
           coal := [] }

end Sys2Proof.Machine
end

