-- ==== Sys2Proof/Machine/Codec.lean ====
section
/-! DEFINITION. How data is laid out and coded where it leaves the block: DRAM code words (R258, R259), NAND pages, leaf
headers, folio tags and parity (R292 to R297, R310, R311), the cipher of folios at rest (R657), twin messages and flits (R531
to R536, R540), journal records and leaves (R325, R326). -/

set_option Elab.async false

namespace Sys2Proof.Machine

/-! ### DRAM lines (R258, R259) -/

/-- The bits of device `d` (0 to 7) in beat `b` of a line: a beat carries 32 data bits, four of each data device in turn (the
order of the bits on the devices is open, log entry 82). -/
def beatNibble (line : Line) (b d : Nat) : Nat := bits line.toNat (32 * b + 4 * d + 3) (32 * b + 4 * d)

/-- The symbol of data device `d` in code word `k`: its bits in beats 2k and 2k + 1. -/
def lineSymbol (line : Line) (k d : Nat) : Nat := beatNibble line (2 * k) d + beatNibble line (2 * k + 1) d * 16

/-- The ten symbols of code word `k`: eight of data devices and two check symbols. -/
def codeWord (line : Line) (k : Nat) : List Nat :=
  let ds := (upto 8).map (lineSymbol line k)
  let c := (Config.rsCheck (BitVec.ofNat 64 (ds.foldr (fun x a => x + a * 256) 0))).toNat
  ds ++ [c % 256, c / 256]

/-- What the eight code words of a read say (R259). -/
inductive Ecc where
  | good
  | corrected (device : Nat)
  | uncorrectable
deriving DecidableEq, Repr

/-- The verdict on a read, from the device that each code word points to: 10 stands for no error, more for a word that cannot
be corrected. All that point anywhere must point to one device. -/
def eccVerdict (points : List Nat) : Ecc :=
  match points.filter (fun d => d != 10) with
  | [] => .good
  | d :: rest => if d < 10 ∧ rest.all (fun e => e == d) then .corrected d else .uncorrectable

/-! ### Journal records (R325, R326) -/

/-- The body of a journal record after its header (R325), before padding to 8 bytes. -/
def jrecBody (r : JRec) : List Byte :=
  let a (k : Nat) := r.args.getD k 0
  match r.type with
  | 0x01 => leBytes 4 (a 0) ++ leBytes 1 (a 1) ++ leBytes 3 0 ++ leBytes 4 (a 2) ++ leBytes 4 0 ++
      (r.args.drop 3).flatMap (leBytes 4)
  | 0x02 => leBytes 4 (a 0) ++ leBytes 4 0 ++ leBytes 8 (a 1)
  | 0x03 => leBytes 4 (a 0) ++ leBytes 4 0
  | 0x04 => leBytes 4 (a 0) ++ leBytes 1 (a 1) ++ leBytes 3 0
  | 0x05 => leBytes 8 (a 0) ++ leBytes 4 (a 1) ++ leBytes 1 (a 2) ++ leBytes 1 (a 3) ++ leBytes 2 0 ++
      leBytes 4 (a 4) ++ leBytes 4 0
  | 0x06 => leBytes 8 (a 0) ++ leBytes 4 (a 1) ++ leBytes 1 (a 2) ++ leBytes 1 (a 3) ++ leBytes 2 0 ++
      leBytes 4 (a 4) ++ leBytes 4 0 ++ leBytes 4 (a 5) ++ leBytes 1 (a 6) ++ leBytes 1 (a 7) ++ leBytes 2 0
  | 0x0A => leBytes 4 (a 0) ++ leBytes 1 (a 1) ++ leBytes 3 0
  | 0x0B => leBytes 8 (a 0) ++ (r.args.drop 1).flatMap (leBytes 8)
  | 0x0C => leBytes 1 (a 0) ++ leBytes 1 (a 1) ++ leBytes 2 0 ++ leBytes 4 (a 2)
  | 0x0D => leBytes 2 (a 0) ++ leBytes 2 (a 1) ++ leBytes 4 0 ++ (r.args.drop 2).flatMap (leBytes 8)
  | 0x0E => leBytes 8 (a 0) ++ leBytes 1 (a 1) ++ leBytes 7 0
  | 0x0F => []
  | 0x10 => leBytes 8 (a 0) ++ leBytes 2 (a 1) ++ leBytes 2 (r.args.length - 2) ++ leBytes 4 0 ++
      (r.args.drop 2).flatMap (leBytes 8)
  | _ => leBytes 4 (a 0) ++ leBytes 4 0

/-- The length of a record in bytes, header and padding included (R325). -/
def jrecSize (r : JRec) : Nat := 8 + ((jrecBody r).length + 7) / 8 * 8

/-- The bytes of a record (R325). -/
def jrecBytes (r : JRec) : List Byte :=
  leBytes 1 r.type ++ leBytes 1 (jrecSize r / 8) ++ leBytes 6 0 ++ (jrecBody r) ++ leBytes (jrecSize r - 8 - (jrecBody r).length) 0

/-- Bytes of a list of records. -/
def recsSize (rs : List JRec) : Nat := rs.foldl (fun a r => a + jrecSize r) 0

/-- The 196,608 data bytes of a journal leaf (R326). -/
def leafBytes (index first : Nat) (recs : List JRec) : List Byte :=
  let used := recsSize recs
  let pads := (upto ((196592 - 16 - used) / 8)).flatMap (fun _ => leBytes 1 0x0F ++ leBytes 1 1 ++ leBytes 6 0)
  let front := leBytes 8 first ++ leBytes 2 index ++ leBytes 2 0 ++ leBytes 4 used ++ recs.flatMap jrecBytes ++ pads
  front ++ leBytes 2 index ++ leBytes 6 0 ++ leBytes 8 (crc64n front)

/-! ### NAND pages (R292 to R297) -/

/-- The 64 bytes of a leaf header. -/
def LeafHeader.bytes (h : LeafHeader) : List Byte :=
  let front := leBytes 4 0x4641454C ++ leBytes 1 h.kind ++ leBytes 1 h.position ++ leBytes 1 h.width ++ leBytes 1 h.flags ++
    leBytes 4 h.quire ++ leBytes 4 h.layout ++ leBytes 8 h.seq ++ leBytes 4 h.address ++ leBytes 28 0
  front ++ leBytes 8 (crc64n front)

/-- The DPA of a folio's tag: the folio's own, its internal one, or all ones for a pad folio. -/
def tagDpa (folio : Nat) (pad : Bool) : Nat := if pad then 2 ^ 64 - 1 else folio * 65536 % 2 ^ 64

/-- The 32 bytes of a folio tag, for the folio's plaintext (R297). -/
def folioTag (dpa gen key : Nat) (plain : List Byte) : List Byte :=
  leBytes 8 (crc64n plain) ++ leBytes 4 gen ++ leBytes 4 0 ++ leBytes 8 dpa ++ leBytes 1 key ++ leBytes 7 0

/-- The 160 metadata bytes of a page: header, tag (or its parity), reserved (R294). -/
def pageMeta (header tag : List Byte) : List Byte := header ++ tag ++ leBytes 64 0

/-- One LDPC code word: 4,096 data bytes, 40 metadata bytes, 512 parity bytes (R292). -/
structure LdpcWord where
  data : List Byte
  info : List Byte
  parity : List Byte
deriving DecidableEq, Repr

/-- The four code words of a page, from its data and metadata bytes. -/
def pageWords (data info : List Byte) : List LdpcWord :=
  (upto 4).map (fun k =>
    let d := (data.drop (4096 * k)).take 4096
    let m := (info.drop (40 * k)).take 40
    { data := d, info := m, parity := (upto 512).map (Config.ldpcParity (d ++ m)) })

/-- What the page takes on the medium: 18,592 bytes. -/
def pageRaw (data info : List Byte) : List Byte := (pageWords data info).flatMap (fun w => w.data ++ w.info ++ w.parity)

/-! ### Internal folios (R183, R184, R329, R571, R684, R776) -/

/-- The code of a folio state (R184). -/
def FState.code : FState → Nat
  | .absent => 0
  | .staging => 1
  | .clean => 2
  | .dirty => 3
  | .blotting => 4

/-- The two words of a folio-map entry (R184); an ABSENT folio has no frame. -/
def Folio.word0 (x : Folio) : Nat := x.quire % 2 ^ 32 * 2 ^ 32 + x.leaf % 16 * 2 ^ 28 + x.slot % 4 * 2 ^ 26
def Folio.word1 (x : Folio) : Nat :=
  x.gen % 2 ^ 32 * 2 ^ 32 + (if x.state == .absent then 0 else x.frame % 2 ^ 28) * 16 + b2n x.lost * 8 + x.state.code

/-- The 16 bytes of an entry. -/
def Folio.bytes (x : Folio) : List Byte := leBytes 8 x.word0 ++ leBytes 8 x.word1

/-- The 128 bytes of a group-table entry (R776). -/
def Group.bytes (g : Group) : List Byte :=
  leBytes 4 g.num ++ leBytes 1 g.state ++ leBytes 1 g.width ++ leBytes 1 g.members.length ++ leBytes 1 0 ++ leBytes 4 g.layout ++
    leBytes 2 g.next ++ leBytes 2 0 ++ (upto 16).flatMap (fun k => leBytes 4 (g.members.getD k 0)) ++ leBytes 8 g.first ++
    leBytes 40 0

/-- The 16 bytes of a poison-table entry (R683). -/
def poisonBytes (line cause : Nat) : List Byte := leBytes 8 (line * 64 + 1) ++ leBytes 1 cause ++ leBytes 7 0

/-- Bytes of a folio as cells. -/
def cellsOf (bs : List Byte) : List Host.Cell := memWriteN 0 [] 0 bs

/-! ### P and Q (R310, R311) -/

/-- Multiplication by 2 in GF(2^8), polynomial 0x11D. -/
def gdbl (a : Nat) : Nat := if a < 128 then a * 2 else (a * 2) ^^^ 0x11D

/-- Multiplication in GF(2^8): `n` bits of `a`, least significant first. -/
def gmulN : Nat → Nat → Nat → Nat
  | 0, _, _ => 0
  | n + 1, a, b => (if a % 2 = 1 then b else 0) ^^^ gmulN n (a / 2) (gdbl b)
def gmul (a b : Nat) : Nat := gmulN 8 a b

/-- Powers of the generator 2. -/
def gpow : Nat → Nat
  | 0 => 1
  | n + 1 => gdbl (gpow n)

/-- Division: times the 254th power, which is the inverse. -/
def ginv (a : Nat) : Nat := (upto 253).foldl (fun r _ => gmul r a) a
def gdiv (a b : Nat) : Nat := gmul a (ginv b)

/-- P and Q of one byte offset, over the bytes of the data leaves in position order. -/
def pByte (ds : List Nat) : Nat := ds.foldl (fun a d => a ^^^ d) 0
def qFrom (i : Nat) : List Nat → Nat
  | [] => 0
  | d :: t => gmul (gpow i) d ^^^ qFrom (i + 1) t
def qByte (ds : List Nat) : Nat := qFrom 0 ds

/-- Q over the present positions of a row in which a missing byte stands as `none`. -/
def qPresent (ds : List (Option Nat)) : Nat := qByte (ds.map (fun d => d.getD 0))
def pPresent (ds : List (Option Nat)) : Nat := pByte (ds.map (fun d => d.getD 0))

/-- The byte of data leaf `x` by R311, from the present bytes, P and Q; `y` is the other missing data leaf, `useQ` that P is
missing with `x`. -/
def rebuildByte (ds : List (Option Nat)) (p q x : Nat) (y : Option Nat) (useQ : Bool) : Nat :=
  let pxy := p ^^^ pPresent ds
  let qxy := q ^^^ qPresent ds
  match y with
  | some y' => gdiv (qxy ^^^ gmul (gpow y') pxy) (gpow x ^^^ gpow y')
  | none => if useQ then gdiv qxy (gpow x) else pxy

/-- The protected content of a page: its data and metadata bytes 64 to 159 (R310). -/
def protectedBytes (data info : List Byte) : List Byte := data ++ (info.drop 64).take 96

/-- P or Q over rows of bytes of equal length. -/
def parityBytes (q : Bool) (ds : List (List Byte)) (n : Nat) : List Byte :=
  (upto n).map (fun b => BitVec.ofNat 8 ((if q then qByte else pByte) (ds.map (fun d => (d.getD b 0).toNat))))

/-! ### Folios at rest (R657) -/

/-- The 128-bit tweak of a folio: tag DPA and generation. -/
def xtsTweak (dpa gen : Nat) : BitVec 128 := BitVec.ofNat 128 (dpa % 2 ^ 64 + gen % 2 ^ 32 * 2 ^ 64)

/-- Multiplication by the primitive element in the field of XTS. -/
def xtsNext (t : BitVec 128) : BitVec 128 := if t.toNat < 2 ^ 127 then t <<< 1 else (t <<< 1) ^^^ 0x87#128

/-- The two halves of a 64-byte XTS key, least significant byte first: data key, tweak key. -/
def xtsDataKey (key : BitVec 512) : BitVec 256 := key.extractLsb' 0 256
def xtsTweakKey (key : BitVec 512) : BitVec 256 := key.extractLsb' 256 256

/-- The blocks of a data unit from the running tweak on. -/
def xtsBlocks (key : BitVec 256) (t : BitVec 128) : List (BitVec 128) → List (BitVec 128)
  | [] => []
  | b :: rest => (Config.aes256 key (b ^^^ t) ^^^ t) :: xtsBlocks key (xtsNext t) rest

/-- The 128-bit blocks of bytes, little-endian. -/
def blocksOf (bs : List Byte) : List (BitVec 128) :=
  (upto (bs.length / 16)).map (fun k => BitVec.ofNat 128 (leNat ((bs.drop (16 * k)).take 16)))

/-- A folio's 65,536 bytes, one data unit, as flash holds them. -/
def xtsFolio (key : BitVec 512) (dpa gen : Nat) (plain : List Byte) : List Byte :=
  (xtsBlocks (xtsDataKey key) (Config.aes256 (xtsTweakKey key) (xtsTweak dpa gen)) (blocksOf plain)).flatMap
    (fun b => leBytes 16 b.toNat)

/-! ### Twin messages and flits (R531 to R536, R540) -/

/-- The bytes of a folio given as cells. -/
def folioBytes (cells : List Host.Cell) : List Byte := memReadN 0 cells 0 65536

/-- The 80 bytes of a record of STORE or SEAL. -/
def StoreRec.bytes (r : StoreRec) : List Byte := leBytes 8 (r.line * 64) ++ leBytes 8 r.mask ++ lineBytes r.data

/-- The body of a message. -/
def TwinBody.bytes : TwinBody → List Byte
  | .hello d e r dv sy de g => leBytes 8 d ++ leBytes 4 e ++ leBytes 1 r ++ leBytes 1 (b2n dv + 2 * b2n sy) ++ leBytes 2 0 ++
      leBytes 4 de ++ leBytes 4 g
  | .heartbeat ink => leBytes 4 ink ++ leBytes 12 0
  | .ack => []
  | .store rs => leBytes 1 rs.length ++ leBytes 15 0 ++ rs.flatMap StoreRec.bytes
  | .seal rs => leBytes 1 rs.length ++ leBytes 15 0 ++ rs.flatMap StoreRec.bytes
  | .tableSync t i ws => leBytes 2 t ++ leBytes 2 i ++ leBytes 4 0 ++ ws.flatMap (leBytes 8)
  | .tableResult q st => leBytes 4 q ++ leBytes 1 st
  | .fetchReq f id => leBytes 8 f ++ leBytes 4 id ++ leBytes 4 0
  | .fetchData id c => leBytes 4 id ++ leBytes 4 0 ++ leBytes 8 (crc64n (folioBytes c)) ++ folioBytes c
  | .fetchNak id st => leBytes 4 id ++ leBytes 1 st ++ leBytes 11 0
  | .journalCopy i first rs => leBytes 8 i ++ leBytes 8 0 ++ leafBytes i first rs
  | .journalReq i => leBytes 8 i ++ leBytes 8 0
  | .checkpointNote n l => leBytes 8 n ++ leBytes 8 l
  | .bitmap first marks => leBytes 8 first ++ leBytes 4 marks.length ++ leBytes 4 0 ++
      leBytes ((marks.length + 127) / 128 * 16) (marks.foldr (fun b a => b2n b + 2 * a) 0)
  | .resyncFolio f z c => leBytes 8 f ++ leBytes 1 (b2n z) ++ leBytes 7 0 ++ leBytes 8 (crc64n (folioBytes c)) ++
      (if z then [] else folioBytes c)
  | .handbackFolio f z c => leBytes 8 f ++ leBytes 1 (b2n z) ++ leBytes 7 0 ++ leBytes 8 (crc64n (folioBytes c)) ++
      (if z then [] else folioBytes c)
  | .resyncDone p => leBytes 1 p ++ leBytes 15 0
  | .mirrorReady r => leBytes 2 r ++ leBytes 14 0
  | .handover q => leBytes 4 q ++ leBytes 12 0
  | .handoverAck => []

/-- The length of a body in bytes. -/
def TwinBody.size : TwinBody → Nat
  | .hello .. => 24
  | .heartbeat _ => 16
  | .ack => 0
  | .store rs => 16 + 80 * rs.length
  | .seal rs => 16 + 80 * rs.length
  | .tableSync _ _ ws => 8 + 8 * ws.length
  | .tableResult .. => 5
  | .fetchReq .. => 16
  | .fetchData .. => 16 + 65536
  | .fetchNak .. => 16
  | .journalCopy .. => 16 + 196608
  | .journalReq _ => 16
  | .checkpointNote .. => 16
  | .bitmap _ marks => 16 + (marks.length + 127) / 128 * 16
  | .resyncFolio _ z _ => 24 + if z then 0 else 65536
  | .handbackFolio _ z _ => 24 + if z then 0 else 65536
  | .resyncDone _ => 16
  | .mirrorReady _ => 16
  | .handover _ => 16
  | .handoverAck => 0

/-- The length of a message in bytes: header and body, in whole units of 16 (R536). -/
def TwinBody.length (b : TwinBody) : Nat := 16 + (b.size + 15) / 16 * 16

/-- A message: its 16-byte header and its body, padded with zeros (R536). -/
def twinMessage (type epoch seq ack : Nat) (b : TwinBody) : List Byte :=
  leBytes 1 type ++ leBytes 1 0 ++ leBytes 2 (b.length / 16) ++ leBytes 4 epoch ++ leBytes 4 seq ++ leBytes 4 ack ++ b.bytes ++
    leBytes (b.length - 16 - b.size) 0

/-- A twin flit (R531): kind 0 idle, 1 message, 2 tag, 3 link control. -/
structure TwinFlit where
  kind : Nat
  seq : Nat
  payload : List Byte
deriving DecidableEq, Repr

/-- Bytes 0 to 241 of a flit: header and payload. -/
def TwinFlit.front (f : TwinFlit) : List Byte :=
  leBytes 2 (f.seq % 2 ^ 14 + f.kind % 4 * 2 ^ 14) ++ (upto 240).map (fun k => f.payload.getD k 0)

/-- The 256 bytes of a flit; CRC and FEC are those of a PCIe 6.x flit. -/
def TwinFlit.bytes (f : TwinFlit) : List Byte :=
  let a := f.front ++ leBytes 8 (Config.flitCrc f.front).toNat
  a ++ leBytes 6 (Config.flitFec a).toNat

/-- Bytes 240c to 240c + 239 of the message stream travel in this flit: every 64th flit of a link is a tag flit (R532, R536). -/
def messageFlit (c : Nat) (payload : List Byte) : TwinFlit :=
  { kind := 1, seq := (c / 63 * 64 + c % 63) % 2 ^ 14, payload := payload }

/-- The tag flit of integrity frame `n` of a link: frame counter, then the tag (R532). -/
def tagFlit (n counter : Nat) (tag : BitVec 128) : TwinFlit :=
  { kind := 2, seq := (n * 64 + 63) % 2 ^ 14, payload := leBytes 8 counter ++ leBytes 16 tag.toNat }

/-- The 96-bit IV of a frame (R533): link, direction, session, frame counter. -/
def frameIv (link : Nat) (high : Bool) (session counter : Nat) : BitVec 96 :=
  BitVec.ofNat 96 ((link % 2 ^ 8 * 2 ^ 24 + b2n high * 2 ^ 23 + session % 2 ^ 23) * 2 ^ 64 + counter % 2 ^ 64)

/-- The tag of a frame: the payloads of its 63 flits are the plaintext, their headers the additional data (R532). -/
def frameTag (key : BitVec 256) (iv : BitVec 96) (fs : List TwinFlit) : BitVec 128 :=
  Config.gcmTag key iv (fs.flatMap (fun f => (f.front.drop 2))) (fs.flatMap (fun f => f.front.take 2))

/-- What the replay buffers of `n` links hold (R535): 512 flits of 240 bytes each. -/
def replayBytes (n : Nat) : Nat := n * 512 * 240

end Sys2Proof.Machine
end

