-- ==== Sys2Proof/Machine/Events.lean ====
section
/-! DEFINITION. The event IDs that the chapters assign (R7, R8), with the severity fixed for each (R695: the severity
stated where the event is raised, NOTICE elsewhere). Every definition here is one row of a chapter's event table. -/

set_option Elab.async false

namespace Sys2Proof.Machine

/-- One assigned event ID (R8: no other ID is ever raised). -/
abbrev EvId := Nat

namespace Ev

/-- Event 0x001. -/
def REFCLK_LOST : EvId := 0x001
/-- Event 0x002. -/
def PLL_UNLOCK : EvId := 0x002
/-- Event 0x003. -/
def REFCLK_RESTORED : EvId := 0x003
/-- Event 0x004. -/
def CLK_DIV_ILLEGAL : EvId := 0x004
/-- Event 0x005. -/
def CLK_HOLDOVER_FAIL : EvId := 0x005
/-- Event 0x010. -/
def CTL_UNMAPPED : EvId := 0x010
/-- Event 0x020. -/
def SCENE_APPLIED : EvId := 0x020
/-- Event 0x021. -/
def SCENE_REJECTED : EvId := 0x021
/-- Event 0x022. -/
def SCENE_SET_BAD : EvId := 0x022
/-- Event 0x023. -/
def SCENE_EMPTY : EvId := 0x023
/-- Event 0x040. -/
def STC_WATCHDOG : EvId := 0x040
/-- Event 0x041. -/
def STC_RELOADED : EvId := 0x041
/-- Event 0x042. -/
def STC_ROLL_DONE : EvId := 0x042
/-- Event 0x100 + n, LINK_DOWN, n below 8. -/
def LINK_DOWN (n : Nat) : EvId := 0x100 + n
/-- Event 0x108 + n, LINK_UP, n below 8. -/
def LINK_UP (n : Nat) : EvId := 0x108 + n
/-- Event 0x110. -/
def ACCESS_VIOLATION : EvId := 0x110
/-- Event 0x111. -/
def ACCESS_COMMIT_DENIED : EvId := 0x111
/-- Event 0x112. -/
def BI_SLOW : EvId := 0x112
/-- Event 0x113. -/
def SF_EVICT : EvId := 0x113
/-- Event 0x114. -/
def REGION_COMMIT_DENIED : EvId := 0x114
/-- Event 0x118. -/
def IDE_INTEGRITY_FAIL : EvId := 0x118
/-- Event 0x120. -/
def GPF_DONE : EvId := 0x120
/-- Event 0x300. -/
def INK_GATE_CLOSED : EvId := 0x300
/-- Event 0x301. -/
def INK_GATE_OPEN : EvId := 0x301
/-- Event 0x302. -/
def BOUNDED_GATE_CLOSED : EvId := 0x302
/-- Event 0x303. -/
def HOLD_POISON : EvId := 0x303
/-- Event 0x304. -/
def CLASS_STARVED : EvId := 0x304
/-- Event 0x305. -/
def PERSIST_FENCED : EvId := 0x305
/-- Event 0x306. -/
def DEVLOAD_CFG_ILLEGAL : EvId := 0x306
/-- Event 0x400. -/
def SCACHE_DISABLED : EvId := 0x400
/-- Event 0x401. -/
def SCACHE_ENABLED : EvId := 0x401
/-- Event 0x402. -/
def STALE_ENABLE : EvId := 0x402
/-- Event 0x403. -/
def DISABLE_DENIED : EvId := 0x403
/-- Event 0x404. -/
def WAY_DISABLED : EvId := 0x404
/-- Event 0x405. -/
def SCACHE_MAINT_DONE : EvId := 0x405
/-- Event 0x406. -/
def WAY_CE_HIGH : EvId := 0x406
/-- Event 0x500 + n, DMC_FROZEN, n below 12. -/
def DMC_FROZEN (n : Nat) : EvId := 0x500 + n
/-- Event 0x510 + n, DMC_RELEASED, n below 12. -/
def DMC_RELEASED (n : Nat) : EvId := 0x510 + n
/-- Event 0x520. -/
def TRAIN_FAIL : EvId := 0x520
/-- Event 0x521. -/
def DIMM_POP_MISMATCH : EvId := 0x521
/-- Event 0x522. -/
def RETRAIN_LATE : EvId := 0x522
/-- Event 0x523. -/
def DMC_CFG_ILLEGAL : EvId := 0x523
/-- Event 0x530. -/
def CE_ROW_LIMIT : EvId := 0x530
/-- Event 0x533. -/
def PAGE_RETIRED : EvId := 0x533
/-- Event 0x534. -/
def RETIRE_FULL : EvId := 0x534
/-- Event 0x550. -/
def DMC_REPLACE_SHORT : EvId := 0x550
/-- Event 0x551. -/
def DMC_INK_LOST : EvId := 0x551
/-- Event 0x700 + n, FLASH_CH_FAIL, n below 32. -/
def FLASH_CH_FAIL (n : Nat) : EvId := 0x700 + n
/-- Event 0x720. -/
def LEAF_UNCORRECTABLE : EvId := 0x720
/-- Event 0x721. -/
def PROGRAM_FAIL : EvId := 0x721
/-- Event 0x722. -/
def ERASE_FAIL : EvId := 0x722
/-- Event 0x723. -/
def ERASE_DENIED : EvId := 0x723
/-- Event 0x724. -/
def SUSPEND_EXHAUSTED : EvId := 0x724
/-- Event 0x725. -/
def CART_MISMATCH : EvId := 0x725
/-- Event 0x730. -/
def DIE_RETIRED : EvId := 0x730
/-- Event 0x731. -/
def CART_FAILED : EvId := 0x731
/-- Event 0x732. -/
def CART_PRESENT : EvId := 0x732
/-- Event 0x733. -/
def CART_ADMITTED : EvId := 0x733
/-- Event 0x734. -/
def CART_REMOVABLE : EvId := 0x734
/-- Event 0x735. -/
def CART_REMOVED : EvId := 0x735
/-- Event 0x736. -/
def SLOT_PWR_FAIL : EvId := 0x736
/-- Event 0x800. -/
def QUIRE_ABANDONED : EvId := 0x800
/-- Event 0x801. -/
def GROUP_TRUNCATED : EvId := 0x801
/-- Event 0x802. -/
def ERASE_REDO : EvId := 0x802
/-- Event 0x803. -/
def RESERVE_SHORT : EvId := 0x803
/-- Event 0x804. -/
def JOURNAL_UNDER_3 : EvId := 0x804
/-- Event 0x805. -/
def CHECKPOINT_DONE : EvId := 0x805
/-- Event 0x806. -/
def RECLAIM_URGENT : EvId := 0x806
/-- Event 0x807. -/
def QUIRE_CFG_ILLEGAL : EvId := 0x807
/-- Event 0x810. -/
def REBUILD_START : EvId := 0x810
/-- Event 0x811. -/
def REBUILD_DONE : EvId := 0x811
/-- Event 0x812. -/
def QUIRE_LOST : EvId := 0x812
/-- Event 0x813. -/
def FOLIO_REPAIRED : EvId := 0x813
/-- Event 0x814. -/
def RESHAPE_START : EvId := 0x814
/-- Event 0x815. -/
def RESHAPE_DONE : EvId := 0x815
/-- Event 0x816. -/
def JOURNAL_REPLACED : EvId := 0x816
/-- Event 0x817. -/
def WRITES_HALTED : EvId := 0x817
/-- Event 0x818. -/
def JOURNAL_UNREADABLE : EvId := 0x818
/-- Event 0x9F0. -/
def INK_CEILING_CHANGED : EvId := 0x9F0
/-- Event 0x9F1. -/
def INK_CURTAIN_ZERO : EvId := 0x9F1
/-- Event 0x9F2. -/
def GENERATION_EXHAUSTED : EvId := 0x9F2
/-- Event 0x9F3. -/
def BLOT_CFG_ILLEGAL : EvId := 0x9F3
/-- Event 0x9F4. -/
def PAIR_POOL_SHORT : EvId := 0x9F4
/-- Event 0x9F5. -/
def MIRROR_READY : EvId := 0x9F5
/-- Event 0xA00. -/
def STAGE_RECONSTRUCTED : EvId := 0xA00
/-- Event 0xA01. -/
def STAGE_TWIN_FETCH : EvId := 0xA01
/-- Event 0xA02. -/
def STAGE_LOST : EvId := 0xA02
/-- Event 0xA03. -/
def WAITER_LIMIT : EvId := 0xA03
/-- Event 0xA04. -/
def STAGE_NO_VICTIM : EvId := 0xA04
/-- Event 0xA05. -/
def CUE_SHEET_BAD : EvId := 0xA05
/-- Event 0xA06. -/
def CUE_PIN_CAP : EvId := 0xA06
/-- Event 0xA07. -/
def CUE_RUN_WAIT : EvId := 0xA07
/-- Event 0xA08. -/
def STAGE_CFG_ILLEGAL : EvId := 0xA08
/-- Event 0xA09. -/
def STALL_BOUND_POISON : EvId := 0xA09
/-- Event 0xB00. -/
def SCRIBE_FAILED : EvId := 0xB00
/-- Event 0xB01. -/
def SPARE_IN_SERVICE : EvId := 0xB01
/-- Event 0xB02. -/
def SPARE_EXHAUSTED : EvId := 0xB02
/-- Event 0xB03. -/
def SCRIPT_DAMAGED : EvId := 0xB03
/-- Event 0xB04. -/
def DOUBLE_TRAP : EvId := 0xB04
/-- Event 0xB05. -/
def DMA_HALT : EvId := 0xB05
/-- Event 0xB06. -/
def SCRIPT_LOADED : EvId := 0xB06
/-- Event 0xB07. -/
def SCRIPT_UNLOADED : EvId := 0xB07
/-- Event 0xB08. -/
def TICKET_FAULT : EvId := 0xB08
/-- Event 0xC00. -/
def STALE_TICKET : EvId := 0xC00
/-- Event 0xC01. -/
def QUEUE_CFG_ILLEGAL : EvId := 0xC01
/-- Event 0xC02. -/
def DOORBELL_BAD : EvId := 0xC02
/-- Event 0xC04. -/
def NOTE_RING_FULL : EvId := 0xC04
/-- Event 0xD00. -/
def TWIN_LINK_UP : EvId := 0xD00
/-- Event 0xD01. -/
def TWIN_LINK_DOWN : EvId := 0xD01
/-- Event 0xD02. -/
def TWIN_DEGRADED : EvId := 0xD02
/-- Event 0xD03. -/
def HEARTBEAT_LOST : EvId := 0xD03
/-- Event 0xD04. -/
def PROMOTED : EvId := 0xD04
/-- Event 0xD05. -/
def LEASE_EXPIRED : EvId := 0xD05
/-- Event 0xD06. -/
def ROLE_CHANGED : EvId := 0xD06
/-- Event 0xD07. -/
def REJOIN_START : EvId := 0xD07
/-- Event 0xD08. -/
def RESYNC_DONE : EvId := 0xD08
/-- Event 0xD09. -/
def OVERLAP_DISCARD : EvId := 0xD09
/-- Event 0xD0A. -/
def TWIN_SPLIT : EvId := 0xD0A
/-- Event 0xD0B. -/
def HANDOVER_DONE : EvId := 0xD0B
/-- Event 0xD0C. -/
def TWIN_FETCH_FAIL : EvId := 0xD0C
/-- Event 0xD0D. -/
def TWIN_NONE_ABSENT : EvId := 0xD0D
/-- Event 0xD0E. -/
def TWIN_INTEGRITY_FAIL : EvId := 0xD0E
/-- Event 0xD0F. -/
def TWIN_STALE : EvId := 0xD0F
/-- Event 0xD10. -/
def JOIN_REFUSED : EvId := 0xD10
/-- Event 0xD11. -/
def TABLE_SYNC_DENIED : EvId := 0xD11
/-- Event 0xD12. -/
def FULL_COPY : EvId := 0xD12
/-- Event 0xD13. -/
def TWIN_CFG_ILLEGAL : EvId := 0xD13
/-- Event 0xD81. -/
def SAG_ENTER : EvId := 0xD81
/-- Event 0xD82. -/
def SAG_EXIT : EvId := 0xD82
/-- Event 0xD83. -/
def DROP : EvId := 0xD83
/-- Event 0xD84. -/
def STRIKE_START : EvId := 0xD84
/-- Event 0xD85. -/
def STRIKE_DONE : EvId := 0xD85
/-- Event 0xD86. -/
def LOAD_IN_START : EvId := 0xD86
/-- Event 0xD87. -/
def LOAD_IN_DONE : EvId := 0xD87
/-- Event 0xD88. -/
def HOLDUP_TESTED : EvId := 0xD88
/-- Event 0xD89. -/
def HOLDUP_UNFIT : EvId := 0xD89
/-- Event 0xD8A. -/
def PMBUS_DENIED : EvId := 0xD8A
/-- Event 0xD8B. -/
def PMBUS_FAULT : EvId := 0xD8B
/-- Event 0xD8C. -/
def PCAP_THROTTLE : EvId := 0xD8C
/-- Event 0xD8D. -/
def STRIKE_INCOMPLETE : EvId := 0xD8D
/-- Event 0xD8E. -/
def HOLDUP_TEST_LATE : EvId := 0xD8E
/-- Event 0xD8F. -/
def DVFS_NOT_READY : EvId := 0xD8F
/-- Event 0xD90. -/
def SENT_CFG_ILLEGAL : EvId := 0xD90
/-- Event 0xD91. -/
def RAIL_START_FAIL : EvId := 0xD91
/-- Event 0xE00. -/
def FWF_BANK_SELF : EvId := 0xE00
/-- Event 0xE01. -/
def FWF_SUSPEND_MANY : EvId := 0xE01
/-- Event 0xE02. -/
def FWF_ERASE_REDO : EvId := 0xE02
/-- Event 0xE03. -/
def FWF_INTENT_FULL : EvId := 0xE03
/-- Event 0xE04. -/
def FWF_UNCORRECTABLE : EvId := 0xE04
/-- Event 0xE05. -/
def FWF_PROT_DENIED : EvId := 0xE05
/-- Event 0xE06. -/
def FWF_PWD_FAIL : EvId := 0xE06
/-- Event 0xE09. -/
def FWF_UPDATE_REFUSED : EvId := 0xE09
/-- Event 0xE0A. -/
def FWF_SWAP : EvId := 0xE0A
/-- Event 0xE0B. -/
def FWF_BOOT_FALLBACK : EvId := 0xE0B
/-- Event 0xE80. -/
def BOOT_VERIFIED : EvId := 0xE80
/-- Event 0xE81. -/
def IMAGE_REJECTED : EvId := 0xE81
/-- Event 0xE82. -/
def KEY_LOADED : EvId := 0xE82
/-- Event 0xE83. -/
def KEY_LOAD_WAIT : EvId := 0xE83
/-- Event 0xE84. -/
def KEY_ALARM : EvId := 0xE84
/-- Event 0xE85. -/
def REUNWRAP_DONE : EvId := 0xE85
/-- Event 0xE86. -/
def BLOB_REFUSED : EvId := 0xE86
/-- Event 0xE87. -/
def SPDM_AUTH_FAIL : EvId := 0xE87
/-- Event 0xE88. -/
def COUNTER_NEAR : EvId := 0xE88
/-- Event 0xE89. -/
def COUNTER_EXHAUSTED : EvId := 0xE89
/-- Event 0xE8A. -/
def DEBUG_UNLOCKED : EvId := 0xE8A
/-- Event 0xE8B. -/
def DEBUG_REFUSED : EvId := 0xE8B
/-- Event 0xE8C. -/
def SVN_COMMITTED : EvId := 0xE8C
/-- Event 0xE8D. -/
def SEED_PROGRAMMED : EvId := 0xE8D
/-- Event 0xE8E. -/
def DEBUG_ZEROIZE : EvId := 0xE8E
/-- Event 0xF00. -/
def FOLIO_CHECK_CRC : EvId := 0xF00
/-- Event 0xF01. -/
def FOLIO_CHECK_GEN : EvId := 0xF01
/-- Event 0xF02. -/
def FOLIO_CHECK_DPA : EvId := 0xF02
/-- Event 0xF08 + n, CV_MISMATCH, n below 8. -/
def CV_MISMATCH (n : Nat) : EvId := 0xF08 + n
/-- Event 0xF10. -/
def CV_DESC_BAD : EvId := 0xF10
/-- Event 0xF20. -/
def SRAM_CE_HIGH : EvId := 0xF20
/-- Event 0xF21. -/
def SRAM_UE : EvId := 0xF21
/-- Event 0xF22. -/
def SRAM_SOFT_REPAIR : EvId := 0xF22
/-- Event 0xF23. -/
def SRAM_UNREPAIRABLE : EvId := 0xF23
/-- Event 0xF24. -/
def DMA_CHANNEL_HALT : EvId := 0xF24
/-- Event 0xF30. -/
def LINE_POISONED : EvId := 0xF30
/-- Event 0xF31. -/
def LINE_RECOVERED : EvId := 0xF31
/-- Event 0xF32. -/
def POISON_TABLE_FULL : EvId := 0xF32
/-- Event 0xF33. -/
def TAG_LOST : EvId := 0xF33
/-- Event 0xF38. -/
def SEC_UE_RESET : EvId := 0xF38
/-- Event 0xF40. -/
def EVT_OVERFLOW : EvId := 0xF40
/-- Event 0xF41. -/
def INT_CFG_ILLEGAL : EvId := 0xF41
/-- Event 0xF80. -/
def PBOOK_DROPPED : EvId := 0xF80
/-- Event 0xF81. -/
def PBOOK_ACKED : EvId := 0xF81
/-- Event 0xF82. -/
def PBOOK_FIRED : EvId := 0xF82
/-- Event 0xFA0. -/
def MAINT_STARTED : EvId := 0xFA0
/-- Event 0xFA1. -/
def MAINT_ENDED : EvId := 0xFA1
/-- Event 0xFA2. -/
def MAINT_REFUSED : EvId := 0xFA2
/-- Event 0xFA3. -/
def SCRIBE_SWAPPED : EvId := 0xFA3
/-- Event 0xFA4. -/
def LD_RESET_DONE : EvId := 0xFA4
/-- Event 0xFE1. -/
def THERM_THROTTLE : EvId := 0xFE1
/-- Event 0xFE2. -/
def THERM_TRIP : EvId := 0xFE2
/-- Event 0xFE3. -/
def THERM_NORMAL : EvId := 0xFE3

end Ev

/-- The assigned IDs as (first ID, how many) (R8, R698). -/
def evAssigned : List (Nat × Nat) :=

  [(0x001, 1), (0x002, 1), (0x003, 1), (0x004, 1), (0x005, 1), (0x010, 1), (0x020, 1), (0x021, 1), (0x022, 1), (0x023, 1), (0x040, 1), (0x041, 1), (0x042, 1), (0x100, 8), (0x108, 8), (0x110, 1), (0x111, 1), (0x112, 1), (0x113, 1), (0x114, 1)] ++
  [(0x118, 1), (0x120, 1), (0x300, 1), (0x301, 1), (0x302, 1), (0x303, 1), (0x304, 1), (0x305, 1), (0x306, 1), (0x400, 1), (0x401, 1), (0x402, 1), (0x403, 1), (0x404, 1), (0x405, 1), (0x406, 1), (0x500, 12), (0x510, 12), (0x520, 1), (0x521, 1)] ++
  [(0x522, 1), (0x523, 1), (0x530, 1), (0x533, 1), (0x534, 1), (0x550, 1), (0x551, 1), (0x700, 32), (0x720, 1), (0x721, 1), (0x722, 1), (0x723, 1), (0x724, 1), (0x725, 1), (0x730, 1), (0x731, 1), (0x732, 1), (0x733, 1), (0x734, 1), (0x735, 1)] ++
  [(0x736, 1), (0x800, 1), (0x801, 1), (0x802, 1), (0x803, 1), (0x804, 1), (0x805, 1), (0x806, 1), (0x807, 1), (0x810, 1), (0x811, 1), (0x812, 1), (0x813, 1), (0x814, 1), (0x815, 1), (0x816, 1), (0x817, 1), (0x818, 1), (0x9F0, 1), (0x9F1, 1)] ++
  [(0x9F2, 1), (0x9F3, 1), (0x9F4, 1), (0x9F5, 1), (0xA00, 1), (0xA01, 1), (0xA02, 1), (0xA03, 1), (0xA04, 1), (0xA05, 1), (0xA06, 1), (0xA07, 1), (0xA08, 1), (0xA09, 1), (0xB00, 1), (0xB01, 1), (0xB02, 1), (0xB03, 1), (0xB04, 1), (0xB05, 1)] ++
  [(0xB06, 1), (0xB07, 1), (0xB08, 1), (0xC00, 1), (0xC01, 1), (0xC02, 1), (0xC04, 1), (0xD00, 1), (0xD01, 1), (0xD02, 1), (0xD03, 1), (0xD04, 1), (0xD05, 1), (0xD06, 1), (0xD07, 1), (0xD08, 1), (0xD09, 1), (0xD0A, 1), (0xD0B, 1), (0xD0C, 1)] ++
  [(0xD0D, 1), (0xD0E, 1), (0xD0F, 1), (0xD10, 1), (0xD11, 1), (0xD12, 1), (0xD13, 1), (0xD81, 1), (0xD82, 1), (0xD83, 1), (0xD84, 1), (0xD85, 1), (0xD86, 1), (0xD87, 1), (0xD88, 1), (0xD89, 1), (0xD8A, 1), (0xD8B, 1), (0xD8C, 1), (0xD8D, 1)] ++
  [(0xD8E, 1), (0xD8F, 1), (0xD90, 1), (0xD91, 1), (0xE00, 1), (0xE01, 1), (0xE02, 1), (0xE03, 1), (0xE04, 1), (0xE05, 1), (0xE06, 1), (0xE09, 1), (0xE0A, 1), (0xE0B, 1), (0xE80, 1), (0xE81, 1), (0xE82, 1), (0xE83, 1), (0xE84, 1), (0xE85, 1)] ++
  [(0xE86, 1), (0xE87, 1), (0xE88, 1), (0xE89, 1), (0xE8A, 1), (0xE8B, 1), (0xE8C, 1), (0xE8D, 1), (0xE8E, 1), (0xF00, 1), (0xF01, 1), (0xF02, 1), (0xF08, 8), (0xF10, 1), (0xF20, 1), (0xF21, 1), (0xF22, 1), (0xF23, 1), (0xF24, 1), (0xF30, 1)] ++
  [(0xF31, 1), (0xF32, 1), (0xF33, 1), (0xF38, 1), (0xF40, 1), (0xF41, 1), (0xF80, 1), (0xF81, 1), (0xF82, 1), (0xFA0, 1), (0xFA1, 1), (0xFA2, 1), (0xFA3, 1), (0xFA4, 1), (0xFE1, 1), (0xFE2, 1), (0xFE3, 1)]

/-- Whether some chapter assigns the ID (R8). -/
def evIsAssigned (id : Nat) : Bool := evAssigned.any (fun p => decide (p.1 ≤ id) && decide (id < p.1 + p.2))

/-- Severity codes of R695 and R700: 0 INFO, 1 NOTICE, 2 FAULT, 3 FATAL. -/
def evSeverity (id : Nat) : Nat :=
  if id = 0x005 then 3
  else if id = 0x023 then 2
  else if id = 0x040 then 2
  else if (decide (0x500 ≤ id) && decide (id < 0x500 + 12)) = true then 2
  else if id = 0x731 then 2
  else if id = 0x818 then 3
  else if id = 0xA02 then 2
  else if id = 0xB00 then 2
  else if id = 0xD05 then 2
  else if id = 0xD0A then 3
  else if id = 0xD89 then 2
  else if id = 0xD8D then 3
  else if id = 0xE84 then 3
  else if id = 0xF23 then 2
  else if id = 0xF30 then 2
  else if id = 0xF32 then 3
  else if id = 0xF33 then 3
  else if id = 0xF38 then 3
  else if id = 0xF81 then 0
  else if id = 0xFE2 then 3
  else 1

/-- Reset value of `EVT_SRC.duty` by the range that holds the ID (R768): 0 SCENE, 1 RECLAIM, 2 MAINT, 3 MAILBOX. -/
def evResetDuty (id : Nat) : Nat :=
  if id < 0x100 then 0
  else if id < 0x300 then 3
  else if id < 0x400 then 1
  else if id < 0x700 then 2
  else if id < 0xB00 then 1
  else if id < 0xD00 then 3
  else if id < 0xE00 then 0
  else if id < 0xE80 then 2
  else if id < 0xF00 then 3
  else 2

end Sys2Proof.Machine
end

