-- ==== Sys2Proof/Machine/RegTable.lean ====
section
/-! DEFINITION. The registers of the control aperture, from the field tables of the spec (R35, R49 to R739): where each
register lies, and the place, access code (R2) and reset value of each of its fields. Bits that no field covers are
reserved and read as zero (R3). -/

set_option Elab.async false

namespace Sys2Proof.Machine

/-- Access codes of R2. -/
inductive Access where
  | ro | rw | w1c | wo | rws | roc
deriving DecidableEq, Repr

/-- Every register of the manual, one constructor each; arrays of registers carry an index beside it. -/
inductive RegId where
  | CLK_STAT | CLK_CLUSTER_DIV | RST_CAUSE | RST_CTL | SCENE_ACTIVE | SCENE_REQ
  | SCENE_STAT | HPORT_CFG | HPORT_STAT | HPORT_VIOL_CNT | TRK_STAT | TRK_WEIGHT_LO
  | TRK_WEIGHT_HI | TRK_DEVLOAD_CFG | TRK_LINK_OCC | TRK_WCLASS | INK_LIMIT | INK_CURT
  | INK_CEIL | INK_CNT | BLOT_CFG | BLOT_STAT | PAIR_STAT | REGION_CAP
  | REGION_CMT_STAT | SCACHE_CTL | SCACHE_STAT | SCACHE_MAINT | SCACHE_MAINT_STAT | SCACHE_MAINT_ADDR_LO
  | SCACHE_MAINT_ADDR_HI | SCACHE_WAYMASK | SCACHE_WAYSTAT | DMC_CTL | DMC_STAT | DMC_GEOM
  | DMC_TRAIN_CFG | DMC_REF_CFG | DMC_SCRUB_CFG | DMC_SCRUB_STAT | DMC_CE_CNT | DMC_CE_CFG
  | DMC_REPAIR_STAT | DMC_FREEZE_SNAP | FLASH_CTL | FLASH_STAT | FLASH_SUSP_CFG | FLASH_LDPC_CNT
  | FLASH_FAIL_CNT | QUIRE_CFG | QUIRE_STAT | QUIRE_FREE | QUIRE_RECLAIM_CFG | QUIRE_JCFG
  | QUIRE_SEQ_LO | QUIRE_SEQ_HI | QUIRE_CKPT_CNT | QUIRE_SLOW_TIMEOUT | QUIRE_RETIRE_CFG | QUIRE_REBUILD_CFG
  | QUIRE_REBUILD_STAT | QUIRE_DEG1 | QUIRE_DEG2 | QUIRE_LOST_CNT | QUIRE_LAYOUT | QUIRE_SLOT_STAT
  | QUIRE_DIE_STAT | STAGE_CFG | STAGE_STAT | STAGE_POOL | STAGE_PIN | STAGE_FAIL_CNT
  | SCR_CTL | SCR_STAT | SCR_INK | SCR_FAULT | SCR_FAULT_PC | SCR_CTX
  | SCR_CTX_TKT | SCL_MAP | SCL_STAT | SCL_SCRIPTS | QUEUE_STAT | QUEUE_PAIRS
  | QUEUE_ADMIT_CFG | QUEUE_STALE_CNT | QUEUE_DB_BAD_CNT | QUEUE_GFD_MAP | QUEUE_LD_STAT | QUEUE_COAL
  | TWIN_CFG | TWIN_CTL | TWIN_STAT | TWIN_EPOCH | TWIN_DIV_EPOCH | TWIN_LEASE
  | TWIN_LAG | TWIN_STALE_CNT | TWIN_NONE_CNT | TWIN_PEER_LO | TWIN_PEER_HI | SENT_CTL
  | SENT_STAT | SENT_BULK | SENT_HOLDUP | SENT_SAG_CFG | SENT_PCAP | SENT_PWR
  | SENT_DVFS | SENT_HOLDUP_C | SENT_HOLDUP_E | SENT_ESAVE | SENT_STRIKE_STAT | SENT_BANK_FUSE
  | SENT_PMB_CFG | SENT_PMB_CMD | SENT_PMB_DATA | SENT_PMB_TAB | SENT_METER_IDLE | SENT_METER
  | STC_DUTY | STC_CTL | STC_STAT | STC_WDOG | FWF_CMD | FWF_ADDR
  | FWF_RES | FWF_BUF | FWF_BANK_STAT | FWF_SUSPEND_CNT | FWF_ECC_CNT | FWF_FETCH
  | FWF_PWD_KEY | FWF_PWD_DATA | FWF_PWD_STAT | FWF_PROT | CURT_INK | CURT_INK_SRC
  | CURT_STRIKE | CURT_STRIKE_SEQ | CURT_ACC | CURT_SLOT | CURT_LEASE | CURT_EPOCH
  | CURT_EPERM_CNT | CURT_KEY | CURT_THERM | CURT_BOOT | CURT_SWAP_SEQ | CURT_PCAP
  | CURT_BAND | CURT_SEQ | SEC_STAT | SEC_ALARM | SEC_SVN | SEC_CNT
  | SEC_DEBUG | SEC_DEBUG_NONCE | SEC_MEAS | SEC_SLOT | SEC_SLOT_ID | CHK_CTL
  | CHK_STAT | CHK_RING_BASE | CHK_RING_HEAD | CHK_RING_TAIL | INT_CE_CFG | CHK_FOLIO_CNT
  | INT_POISON | INT_ARRAY | EVT_SRC | EVT_CORE_OVF | PBOOK_STAT | PBOOK_SEQ_LO
  | PBOOK_SEQ_HI | PBOOK_FLUSHED_LO | PBOOK_FLUSHED_HI | PBOOK_DROP | PBOOK_ACK_LO | PBOOK_ACK_HI
  | PBOOK_ACK_STAT | PBOOK_FIRE | PBOOK_WIN | PBOOK_TALLY_SEL | PBOOK_TALLY_SNAP | PBOOK_TRIG
  | PBOOK_CAP | MAINT_REQ | MAINT_PARAM0 | MAINT_PARAM1 | MAINT_PARAM2 | MAINT_RES
  | MAINT_JOBID | MAINT_STAT | MAINT_ACTIVE | MAINT_QRY | MAINT_QRY_RES | HPORT_VIOL_LAST0
  | HPORT_VIOL_LAST1 | HPORT_VIOL_LAST2 | ACC_COMMIT
deriving DecidableEq, Repr

/-- Registers in the order of the chapters, part 0. -/
def allRegs0 : List RegId :=
  [.CLK_STAT, .CLK_CLUSTER_DIV, .RST_CAUSE, .RST_CTL, .SCENE_ACTIVE, .SCENE_REQ, .SCENE_STAT, .HPORT_CFG, .HPORT_STAT, .HPORT_VIOL_CNT, .TRK_STAT, .TRK_WEIGHT_LO, .TRK_WEIGHT_HI, .TRK_DEVLOAD_CFG, .TRK_LINK_OCC, .TRK_WCLASS, .INK_LIMIT, .INK_CURT, .INK_CEIL, .INK_CNT]

/-- Registers in the order of the chapters, part 1. -/
def allRegs1 : List RegId :=
  [.BLOT_CFG, .BLOT_STAT, .PAIR_STAT, .REGION_CAP, .REGION_CMT_STAT, .SCACHE_CTL, .SCACHE_STAT, .SCACHE_MAINT, .SCACHE_MAINT_STAT, .SCACHE_MAINT_ADDR_LO, .SCACHE_MAINT_ADDR_HI, .SCACHE_WAYMASK, .SCACHE_WAYSTAT, .DMC_CTL, .DMC_STAT, .DMC_GEOM, .DMC_TRAIN_CFG, .DMC_REF_CFG, .DMC_SCRUB_CFG, .DMC_SCRUB_STAT]

/-- Registers in the order of the chapters, part 2. -/
def allRegs2 : List RegId :=
  [.DMC_CE_CNT, .DMC_CE_CFG, .DMC_REPAIR_STAT, .DMC_FREEZE_SNAP, .FLASH_CTL, .FLASH_STAT, .FLASH_SUSP_CFG, .FLASH_LDPC_CNT, .FLASH_FAIL_CNT, .QUIRE_CFG, .QUIRE_STAT, .QUIRE_FREE, .QUIRE_RECLAIM_CFG, .QUIRE_JCFG, .QUIRE_SEQ_LO, .QUIRE_SEQ_HI, .QUIRE_CKPT_CNT, .QUIRE_SLOW_TIMEOUT, .QUIRE_RETIRE_CFG, .QUIRE_REBUILD_CFG]

/-- Registers in the order of the chapters, part 3. -/
def allRegs3 : List RegId :=
  [.QUIRE_REBUILD_STAT, .QUIRE_DEG1, .QUIRE_DEG2, .QUIRE_LOST_CNT, .QUIRE_LAYOUT, .QUIRE_SLOT_STAT, .QUIRE_DIE_STAT, .STAGE_CFG, .STAGE_STAT, .STAGE_POOL, .STAGE_PIN, .STAGE_FAIL_CNT, .SCR_CTL, .SCR_STAT, .SCR_INK, .SCR_FAULT, .SCR_FAULT_PC, .SCR_CTX, .SCR_CTX_TKT, .SCL_MAP]

/-- Registers in the order of the chapters, part 4. -/
def allRegs4 : List RegId :=
  [.SCL_STAT, .SCL_SCRIPTS, .QUEUE_STAT, .QUEUE_PAIRS, .QUEUE_ADMIT_CFG, .QUEUE_STALE_CNT, .QUEUE_DB_BAD_CNT, .QUEUE_GFD_MAP, .QUEUE_LD_STAT, .QUEUE_COAL, .TWIN_CFG, .TWIN_CTL, .TWIN_STAT, .TWIN_EPOCH, .TWIN_DIV_EPOCH, .TWIN_LEASE, .TWIN_LAG, .TWIN_STALE_CNT, .TWIN_NONE_CNT, .TWIN_PEER_LO]

/-- Registers in the order of the chapters, part 5. -/
def allRegs5 : List RegId :=
  [.TWIN_PEER_HI, .SENT_CTL, .SENT_STAT, .SENT_BULK, .SENT_HOLDUP, .SENT_SAG_CFG, .SENT_PCAP, .SENT_PWR, .SENT_DVFS, .SENT_HOLDUP_C, .SENT_HOLDUP_E, .SENT_ESAVE, .SENT_STRIKE_STAT, .SENT_BANK_FUSE, .SENT_PMB_CFG, .SENT_PMB_CMD, .SENT_PMB_DATA, .SENT_PMB_TAB, .SENT_METER_IDLE, .SENT_METER]

/-- Registers in the order of the chapters, part 6. -/
def allRegs6 : List RegId :=
  [.STC_DUTY, .STC_CTL, .STC_STAT, .STC_WDOG, .FWF_CMD, .FWF_ADDR, .FWF_RES, .FWF_BUF, .FWF_BANK_STAT, .FWF_SUSPEND_CNT, .FWF_ECC_CNT, .FWF_FETCH, .FWF_PWD_KEY, .FWF_PWD_DATA, .FWF_PWD_STAT, .FWF_PROT, .CURT_INK, .CURT_INK_SRC, .CURT_STRIKE, .CURT_STRIKE_SEQ]

/-- Registers in the order of the chapters, part 7. -/
def allRegs7 : List RegId :=
  [.CURT_ACC, .CURT_SLOT, .CURT_LEASE, .CURT_EPOCH, .CURT_EPERM_CNT, .CURT_KEY, .CURT_THERM, .CURT_BOOT, .CURT_SWAP_SEQ, .CURT_PCAP, .CURT_BAND, .CURT_SEQ, .SEC_STAT, .SEC_ALARM, .SEC_SVN, .SEC_CNT, .SEC_DEBUG, .SEC_DEBUG_NONCE, .SEC_MEAS, .SEC_SLOT]

/-- Registers in the order of the chapters, part 8. -/
def allRegs8 : List RegId :=
  [.SEC_SLOT_ID, .CHK_CTL, .CHK_STAT, .CHK_RING_BASE, .CHK_RING_HEAD, .CHK_RING_TAIL, .INT_CE_CFG, .CHK_FOLIO_CNT, .INT_POISON, .INT_ARRAY, .EVT_SRC, .EVT_CORE_OVF, .PBOOK_STAT, .PBOOK_SEQ_LO, .PBOOK_SEQ_HI, .PBOOK_FLUSHED_LO, .PBOOK_FLUSHED_HI, .PBOOK_DROP, .PBOOK_ACK_LO, .PBOOK_ACK_HI]

/-- Registers in the order of the chapters, part 9. -/
def allRegs9 : List RegId :=
  [.PBOOK_ACK_STAT, .PBOOK_FIRE, .PBOOK_WIN, .PBOOK_TALLY_SEL, .PBOOK_TALLY_SNAP, .PBOOK_TRIG, .PBOOK_CAP, .MAINT_REQ, .MAINT_PARAM0, .MAINT_PARAM1, .MAINT_PARAM2, .MAINT_RES, .MAINT_JOBID, .MAINT_STAT, .MAINT_ACTIVE, .MAINT_QRY, .MAINT_QRY_RES, .HPORT_VIOL_LAST0, .HPORT_VIOL_LAST1, .HPORT_VIOL_LAST2]

/-- Registers in the order of the chapters, part 10. -/
def allRegs10 : List RegId :=
  [.ACC_COMMIT]

/-- Every register, in the order of the chapters. -/
def allRegs : List RegId :=
  allRegs0 ++ allRegs1 ++ allRegs2 ++ allRegs3 ++ allRegs4 ++ allRegs5 ++ allRegs6 ++ allRegs7 ++ allRegs8 ++ allRegs9 ++ allRegs10

/-- Offset of the first instance, and (stride, count) of each array level, outermost first. -/
def RegId.place (r : RegId) : Nat × List (Nat × Nat) :=
  match r with
  | .CLK_STAT => (0x100000, [])
  | .CLK_CLUSTER_DIV => (0x100010, [])
  | .RST_CAUSE => (0x100100, [])
  | .RST_CTL => (0x100104, [])
  | .SCENE_ACTIVE => (0x200000, [])
  | .SCENE_REQ => (0x200004, [])
  | .SCENE_STAT => (0x200008, [])
  | .HPORT_CFG => (0x400000, [(0x10000, 8)])
  | .HPORT_STAT => (0x400004, [(0x10000, 8)])
  | .HPORT_VIOL_CNT => (0x400010, [(0x10000, 8)])
  | .TRK_STAT => (0x600000, [])
  | .TRK_WEIGHT_LO => (0x600010, [])
  | .TRK_WEIGHT_HI => (0x600014, [])
  | .TRK_DEVLOAD_CFG => (0x600020, [])
  | .TRK_LINK_OCC => (0x600100, [(0x4, 8)])
  | .TRK_WCLASS => (0x601000, [(0x4, 256)])
  | .INK_LIMIT => (0x880000, [])
  | .INK_CURT => (0x880004, [])
  | .INK_CEIL => (0x880008, [])
  | .INK_CNT => (0x88000C, [])
  | .BLOT_CFG => (0x880010, [])
  | .BLOT_STAT => (0x880014, [])
  | .PAIR_STAT => (0x880018, [])
  | .REGION_CAP => (0x880100, [])
  | .REGION_CMT_STAT => (0x880104, [])
  | .SCACHE_CTL => (0xA00000, [])
  | .SCACHE_STAT => (0xA00004, [])
  | .SCACHE_MAINT => (0xA00010, [])
  | .SCACHE_MAINT_STAT => (0xA00014, [])
  | .SCACHE_MAINT_ADDR_LO => (0xA00018, [])
  | .SCACHE_MAINT_ADDR_HI => (0xA0001C, [])
  | .SCACHE_WAYMASK => (0xA00100, [(0x4, 32)])
  | .SCACHE_WAYSTAT => (0xA00200, [(0x4, 32)])
  | .DMC_CTL => (0xC00000, [(0x10000, 12)])
  | .DMC_STAT => (0xC00004, [(0x10000, 12)])
  | .DMC_GEOM => (0xC00008, [(0x10000, 12)])
  | .DMC_TRAIN_CFG => (0xC00010, [(0x10000, 12)])
  | .DMC_REF_CFG => (0xC00014, [(0x10000, 12)])
  | .DMC_SCRUB_CFG => (0xC00018, [(0x10000, 12)])
  | .DMC_SCRUB_STAT => (0xC0001C, [(0x10000, 12)])
  | .DMC_CE_CNT => (0xC00020, [(0x10000, 12)])
  | .DMC_CE_CFG => (0xC00024, [(0x10000, 12)])
  | .DMC_REPAIR_STAT => (0xC00030, [(0x10000, 12)])
  | .DMC_FREEZE_SNAP => (0xC00100, [(0x10000, 12), (0x4, 64)])
  | .FLASH_CTL => (0x1000000, [(0x8000, 32)])
  | .FLASH_STAT => (0x1000004, [(0x8000, 32)])
  | .FLASH_SUSP_CFG => (0x1000008, [(0x8000, 32)])
  | .FLASH_LDPC_CNT => (0x1000010, [(0x8000, 32)])
  | .FLASH_FAIL_CNT => (0x1000014, [(0x8000, 32)])
  | .QUIRE_CFG => (0x1400000, [])
  | .QUIRE_STAT => (0x1400004, [])
  | .QUIRE_FREE => (0x1400008, [])
  | .QUIRE_RECLAIM_CFG => (0x140000C, [])
  | .QUIRE_JCFG => (0x1400010, [])
  | .QUIRE_SEQ_LO => (0x1400018, [])
  | .QUIRE_SEQ_HI => (0x140001C, [])
  | .QUIRE_CKPT_CNT => (0x1400020, [])
  | .QUIRE_SLOW_TIMEOUT => (0x1400100, [])
  | .QUIRE_RETIRE_CFG => (0x1400104, [])
  | .QUIRE_REBUILD_CFG => (0x1400108, [])
  | .QUIRE_REBUILD_STAT => (0x140010C, [])
  | .QUIRE_DEG1 => (0x1400110, [])
  | .QUIRE_DEG2 => (0x1400114, [])
  | .QUIRE_LOST_CNT => (0x1400118, [])
  | .QUIRE_LAYOUT => (0x140011C, [])
  | .QUIRE_SLOT_STAT => (0x1400200, [(0x4, 16)])
  | .QUIRE_DIE_STAT => (0x1401000, [(0x4, 512)])
  | .STAGE_CFG => (0x1600000, [])
  | .STAGE_STAT => (0x1600004, [])
  | .STAGE_POOL => (0x1600008, [])
  | .STAGE_PIN => (0x160000C, [])
  | .STAGE_FAIL_CNT => (0x1600010, [])
  | .SCR_CTL => (0x1800000, [(0x10000, 36)])
  | .SCR_STAT => (0x1800004, [(0x10000, 36)])
  | .SCR_INK => (0x1800008, [(0x10000, 36)])
  | .SCR_FAULT => (0x1800010, [(0x10000, 36)])
  | .SCR_FAULT_PC => (0x1800014, [(0x10000, 36)])
  | .SCR_CTX => (0x1800100, [(0x10000, 36), (0x4, 16)])
  | .SCR_CTX_TKT => (0x1800140, [(0x10000, 36), (0x4, 16)])
  | .SCL_MAP => (0x1B00000, [(0x1000, 4)])
  | .SCL_STAT => (0x1B00004, [(0x1000, 4)])
  | .SCL_SCRIPTS => (0x1B00008, [(0x1000, 4)])
  | .QUEUE_STAT => (0x1C00000, [])
  | .QUEUE_PAIRS => (0x1C00004, [])
  | .QUEUE_ADMIT_CFG => (0x1C00008, [])
  | .QUEUE_STALE_CNT => (0x1C0000C, [])
  | .QUEUE_DB_BAD_CNT => (0x1C00010, [])
  | .QUEUE_GFD_MAP => (0x1C00100, [(0x4, 128)])
  | .QUEUE_LD_STAT => (0x1C01000, [(0x4, 128)])
  | .QUEUE_COAL => (0x1C10000, [(0x4, 8192)])
  | .TWIN_CFG => (0x1E00000, [])
  | .TWIN_CTL => (0x1E00004, [])
  | .TWIN_STAT => (0x1E00008, [])
  | .TWIN_EPOCH => (0x1E0000C, [])
  | .TWIN_DIV_EPOCH => (0x1E00010, [])
  | .TWIN_LEASE => (0x1E00014, [])
  | .TWIN_LAG => (0x1E00018, [])
  | .TWIN_STALE_CNT => (0x1E0001C, [])
  | .TWIN_NONE_CNT => (0x1E00020, [])
  | .TWIN_PEER_LO => (0x1E00028, [])
  | .TWIN_PEER_HI => (0x1E0002C, [])
  | .SENT_CTL => (0x2000000, [])
  | .SENT_STAT => (0x2000004, [])
  | .SENT_BULK => (0x2000008, [])
  | .SENT_HOLDUP => (0x200000C, [])
  | .SENT_SAG_CFG => (0x2000010, [])
  | .SENT_PCAP => (0x2000014, [])
  | .SENT_PWR => (0x2000018, [])
  | .SENT_DVFS => (0x200001C, [])
  | .SENT_HOLDUP_C => (0x2000020, [])
  | .SENT_HOLDUP_E => (0x2000024, [])
  | .SENT_ESAVE => (0x2000028, [])
  | .SENT_STRIKE_STAT => (0x200002C, [])
  | .SENT_BANK_FUSE => (0x2000030, [])
  | .SENT_PMB_CFG => (0x2000040, [])
  | .SENT_PMB_CMD => (0x2000044, [])
  | .SENT_PMB_DATA => (0x2000048, [])
  | .SENT_PMB_TAB => (0x2000100, [(0x4, 32)])
  | .SENT_METER_IDLE => (0x2000800, [(0x4, 2)])
  | .SENT_METER => (0x2001000, [(0x8, 256), (0x4, 2)])
  | .STC_DUTY => (0x1000, [])
  | .STC_CTL => (0x1004, [])
  | .STC_STAT => (0x1010, [(0x4, 4)])
  | .STC_WDOG => (0x1020, [(0x4, 4)])
  | .FWF_CMD => (0x2200000, [(0x400, 5)])
  | .FWF_ADDR => (0x2200004, [(0x400, 5)])
  | .FWF_RES => (0x2200008, [(0x400, 5)])
  | .FWF_BUF => (0x2200100, [(0x400, 5), (0x4, 64)])
  | .FWF_BANK_STAT => (0x2202000, [])
  | .FWF_SUSPEND_CNT => (0x2202010, [(0x4, 4)])
  | .FWF_ECC_CNT => (0x2202020, [])
  | .FWF_FETCH => (0x2202024, [])
  | .FWF_PWD_KEY => (0x2202030, [])
  | .FWF_PWD_DATA => (0x2202034, [])
  | .FWF_PWD_STAT => (0x2202038, [])
  | .FWF_PROT => (0x2202100, [(0x4, 17)])
  | .CURT_INK => (0x2C00000, [])
  | .CURT_INK_SRC => (0x2C00004, [])
  | .CURT_STRIKE => (0x2C00008, [])
  | .CURT_STRIKE_SEQ => (0x2C0000C, [])
  | .CURT_ACC => (0x2C00010, [])
  | .CURT_SLOT => (0x2C00014, [])
  | .CURT_LEASE => (0x2C00018, [])
  | .CURT_EPOCH => (0x2C0001C, [])
  | .CURT_EPERM_CNT => (0x2C00020, [])
  | .CURT_KEY => (0x2C00024, [])
  | .CURT_THERM => (0x2C00028, [])
  | .CURT_BOOT => (0x2C0002C, [])
  | .CURT_SWAP_SEQ => (0x2C00030, [])
  | .CURT_PCAP => (0x2C00034, [])
  | .CURT_BAND => (0x2C00100, [(0x4, 16)])
  | .CURT_SEQ => (0x2C00200, [(0x4, 16)])
  | .SEC_STAT => (0x2400000, [])
  | .SEC_ALARM => (0x2400004, [])
  | .SEC_SVN => (0x2400008, [])
  | .SEC_CNT => (0x240000C, [])
  | .SEC_DEBUG => (0x2400010, [])
  | .SEC_DEBUG_NONCE => (0x2400020, [(0x4, 8)])
  | .SEC_MEAS => (0x2400100, [(0x40, 8), (0x4, 16)])
  | .SEC_SLOT => (0x2401000, [(0x4, 256)])
  | .SEC_SLOT_ID => (0x2402000, [(0x8, 256), (0x4, 2)])
  | .CHK_CTL => (0x2600000, [(0x100, 8)])
  | .CHK_STAT => (0x2600004, [(0x100, 8)])
  | .CHK_RING_BASE => (0x2600008, [(0x100, 8)])
  | .CHK_RING_HEAD => (0x260000C, [(0x100, 8)])
  | .CHK_RING_TAIL => (0x2600010, [(0x100, 8)])
  | .INT_CE_CFG => (0x2610000, [])
  | .CHK_FOLIO_CNT => (0x2610010, [])
  | .INT_POISON => (0x2610014, [])
  | .INT_ARRAY => (0x2610100, [(0x4, 8)])
  | .EVT_SRC => (0x2700000, [(0x4, 4096)])
  | .EVT_CORE_OVF => (0x2704000, [(0x4, 4)])
  | .PBOOK_STAT => (0x2800000, [])
  | .PBOOK_SEQ_LO => (0x2800008, [])
  | .PBOOK_SEQ_HI => (0x280000C, [])
  | .PBOOK_FLUSHED_LO => (0x2800010, [])
  | .PBOOK_FLUSHED_HI => (0x2800014, [])
  | .PBOOK_DROP => (0x2800018, [])
  | .PBOOK_ACK_LO => (0x2800020, [])
  | .PBOOK_ACK_HI => (0x2800024, [])
  | .PBOOK_ACK_STAT => (0x2800028, [])
  | .PBOOK_FIRE => (0x2800030, [])
  | .PBOOK_WIN => (0x2800034, [])
  | .PBOOK_TALLY_SEL => (0x2800040, [])
  | .PBOOK_TALLY_SNAP => (0x2800100, [(0x4, 40)])
  | .PBOOK_TRIG => (0x2801000, [(0x4, 256)])
  | .PBOOK_CAP => (0x2802000, [(0x80, 256), (0x4, 32)])
  | .MAINT_REQ => (0x2A00000, [])
  | .MAINT_PARAM0 => (0x2A00004, [])
  | .MAINT_PARAM1 => (0x2A00008, [])
  | .MAINT_PARAM2 => (0x2A0000C, [])
  | .MAINT_RES => (0x2A00010, [])
  | .MAINT_JOBID => (0x2A00014, [])
  | .MAINT_STAT => (0x2A00018, [])
  | .MAINT_ACTIVE => (0x2A0001C, [])
  | .MAINT_QRY => (0x2A00020, [])
  | .MAINT_QRY_RES => (0x2A00024, [])
  | .HPORT_VIOL_LAST0 => (0x400018, [(0x10000, 8)])
  | .HPORT_VIOL_LAST1 => (0x40001C, [(0x10000, 8)])
  | .HPORT_VIOL_LAST2 => (0x400020, [(0x10000, 8)])
  | .ACC_COMMIT => (0x920000, [])

/-- One field: high bit, low bit, access, reset value (0 where a named constant or a later step gives the value). -/
structure FieldDef where
  hi : Nat
  lo : Nat
  acc : Access
  reset : Nat
deriving DecidableEq, Repr

/-- The fields of a register (R49 to R739). -/
def RegId.fields (r : RegId) : List FieldDef :=
  match r with
  | .CLK_STAT => [⟨7, 7, .ro, 0⟩, ⟨6, 6, .ro, 0⟩, ⟨5, 5, .w1c, 0⟩, ⟨4, 4, .ro, 0⟩, ⟨3, 3, .ro, 0⟩, ⟨2, 2, .ro, 0⟩, ⟨1, 1, .ro, 0⟩, ⟨0, 0, .ro, 0⟩]
  | .CLK_CLUSTER_DIV => [⟨7, 6, .rws, 0⟩, ⟨5, 4, .rws, 0⟩, ⟨3, 2, .rws, 0⟩, ⟨1, 0, .rws, 0⟩]
  | .RST_CAUSE => [⟨7, 7, .w1c, 0⟩, ⟨6, 6, .w1c, 0⟩, ⟨5, 5, .w1c, 0⟩, ⟨4, 4, .w1c, 0⟩, ⟨3, 3, .w1c, 0⟩, ⟨2, 2, .w1c, 0⟩, ⟨1, 1, .w1c, 0⟩, ⟨0, 0, .w1c, 1⟩]
  | .RST_CTL => [⟨0, 0, .rws, 0⟩]
  | .SCENE_ACTIVE => [⟨8, 0, .ro, 1⟩]
  | .SCENE_REQ => [⟨31, 31, .wo, 0⟩, ⟨8, 0, .wo, 0⟩]
  | .SCENE_STAT => [⟨31, 16, .ro, 0⟩, ⟨15, 8, .ro, 0⟩, ⟨0, 0, .ro, 0⟩]
  | .HPORT_CFG => [⟨11, 8, .rws, 0⟩, ⟨7, 7, .rws, 1⟩, ⟨6, 6, .rws, 1⟩, ⟨5, 5, .rws, 1⟩, ⟨4, 4, .rws, 0⟩, ⟨3, 2, .rws, 0⟩, ⟨1, 1, .rws, 0⟩, ⟨0, 0, .rws, 1⟩]
  | .HPORT_STAT => [⟨15, 15, .ro, 0⟩, ⟨14, 14, .ro, 0⟩, ⟨13, 13, .ro, 0⟩, ⟨12, 12, .ro, 0⟩, ⟨11, 8, .ro, 0⟩, ⟨7, 3, .ro, 0⟩, ⟨1, 1, .ro, 0⟩, ⟨0, 0, .ro, 0⟩]
  | .HPORT_VIOL_CNT => [⟨31, 0, .w1c, 0⟩]
  | .TRK_STAT => [⟨19, 4, .ro, 0⟩, ⟨3, 3, .ro, 0⟩, ⟨2, 2, .ro, 0⟩, ⟨1, 1, .ro, 0⟩]
  | .TRK_WEIGHT_LO => [⟨31, 28, .rws, 8⟩, ⟨27, 24, .rws, 2⟩, ⟨23, 20, .rws, 8⟩, ⟨19, 16, .rws, 4⟩, ⟨15, 12, .rws, 1⟩, ⟨11, 8, .rws, 4⟩, ⟨7, 4, .rws, 8⟩, ⟨3, 0, .rws, 12⟩]
  | .TRK_WEIGHT_HI => [⟨31, 28, .rws, 1⟩, ⟨23, 20, .rws, 2⟩, ⟨19, 16, .rws, 8⟩, ⟨15, 12, .rws, 1⟩, ⟨11, 8, .rws, 1⟩, ⟨7, 4, .rws, 2⟩, ⟨3, 0, .rws, 2⟩]
  | .TRK_DEVLOAD_CFG => [⟨23, 16, .rws, 90⟩, ⟨15, 8, .rws, 75⟩, ⟨7, 0, .rws, 50⟩]
  | .TRK_LINK_OCC => [⟨31, 30, .ro, 0⟩, ⟨29, 15, .w1c, 0⟩, ⟨14, 0, .ro, 0⟩]
  | .TRK_WCLASS => [⟨1, 0, .rws, 1⟩, ⟨3, 2, .rws, 1⟩, ⟨5, 4, .rws, 1⟩, ⟨7, 6, .rws, 1⟩, ⟨9, 8, .rws, 1⟩, ⟨11, 10, .rws, 1⟩, ⟨13, 12, .rws, 1⟩, ⟨15, 14, .rws, 1⟩, ⟨17, 16, .rws, 1⟩, ⟨19, 18, .rws, 1⟩, ⟨21, 20, .rws, 1⟩, ⟨23, 22, .rws, 1⟩, ⟨25, 24, .rws, 1⟩, ⟨27, 26, .rws, 1⟩, ⟨29, 28, .rws, 1⟩, ⟨31, 30, .rws, 1⟩]
  | .INK_LIMIT => [⟨20, 0, .rw, 732421⟩]
  | .INK_CURT => [⟨20, 0, .roc, 0⟩]
  | .INK_CEIL => [⟨31, 31, .ro, 0⟩, ⟨20, 0, .ro, 0⟩]
  | .INK_CNT => [⟨20, 0, .ro, 0⟩]
  | .BLOT_CFG => [⟨31, 24, .rws, 75⟩, ⟨23, 16, .rws, 25⟩, ⟨15, 0, .rws, 5000⟩]
  | .BLOT_STAT => [⟨31, 16, .ro, 0⟩, ⟨15, 0, .ro, 0⟩]
  | .PAIR_STAT => [⟨20, 0, .ro, 0⟩]
  | .REGION_CAP => [⟨19, 0, .ro, 0⟩]
  | .REGION_CMT_STAT => [⟨29, 28, .ro, 0⟩, ⟨27, 16, .ro, 0⟩, ⟨15, 8, .ro, 0⟩, ⟨0, 0, .ro, 0⟩]
  | .SCACHE_CTL => [⟨15, 8, .rw, 64⟩, ⟨0, 0, .rw, 0⟩]
  | .SCACHE_STAT => [⟨31, 31, .ro, 1⟩, ⟨30, 30, .ro, 0⟩, ⟨21, 0, .ro, 0⟩]
  | .SCACHE_MAINT => [⟨31, 31, .wo, 0⟩, ⟨27, 16, .wo, 0⟩, ⟨15, 12, .wo, 0⟩, ⟨11, 7, .wo, 0⟩, ⟨3, 0, .wo, 0⟩]
  | .SCACHE_MAINT_STAT => [⟨15, 8, .ro, 0⟩, ⟨0, 0, .ro, 0⟩]
  | .SCACHE_MAINT_ADDR_LO => [⟨31, 6, .rw, 0⟩]
  | .SCACHE_MAINT_ADDR_HI => [⟨31, 16, .rw, 0⟩, ⟨15, 0, .rw, 0⟩]
  | .SCACHE_WAYMASK => [⟨15, 0, .rws, 0⟩]
  | .SCACHE_WAYSTAT => [⟨15, 0, .ro, 0⟩]
  | .DMC_CTL => [⟨31, 31, .wo, 0⟩, ⟨7, 0, .rws, 0⟩]
  | .DMC_STAT => [⟨31, 31, .ro, 0⟩, ⟨30, 30, .ro, 0⟩, ⟨29, 29, .ro, 0⟩, ⟨28, 28, .ro, 0⟩, ⟨27, 24, .ro, 0⟩, ⟨23, 16, .ro, 0⟩, ⟨15, 8, .ro, 0⟩]
  | .DMC_GEOM => [⟨31, 30, .ro, 0⟩, ⟨29, 28, .ro, 0⟩, ⟨27, 26, .ro, 0⟩, ⟨25, 21, .ro, 0⟩, ⟨9, 0, .ro, 0⟩]
  | .DMC_TRAIN_CFG => [⟨31, 16, .rws, 100⟩, ⟨7, 0, .rws, 5⟩]
  | .DMC_REF_CFG => [⟨3, 0, .rws, 8⟩]
  | .DMC_SCRUB_CFG => [⟨16, 16, .rws, 1⟩, ⟨15, 0, .rws, 24⟩]
  | .DMC_SCRUB_STAT => [⟨31, 16, .ro, 0⟩, ⟨9, 0, .ro, 0⟩]
  | .DMC_CE_CNT => [⟨31, 0, .w1c, 0⟩]
  | .DMC_CE_CFG => [⟨7, 0, .rws, 16⟩]
  | .DMC_REPAIR_STAT => [⟨31, 24, .ro, 0⟩, ⟨12, 0, .ro, 0⟩]
  | .DMC_FREEZE_SNAP => [⟨31, 0, .ro, 0⟩]
  | .FLASH_CTL => [⟨7, 4, .rws, 7⟩, ⟨0, 0, .rws, 1⟩]
  | .FLASH_STAT => [⟨31, 16, .ro, 0⟩, ⟨15, 14, .ro, 0⟩, ⟨13, 13, .ro, 0⟩]
  | .FLASH_SUSP_CFG => [⟨23, 16, .rws, 8⟩, ⟨15, 8, .rws, 4⟩, ⟨7, 0, .rws, 100⟩]
  | .FLASH_LDPC_CNT => [⟨31, 0, .w1c, 0⟩]
  | .FLASH_FAIL_CNT => [⟨31, 16, .w1c, 0⟩, ⟨15, 0, .w1c, 0⟩]
  | .QUIRE_CFG => [⟨5, 0, .rws, 32⟩]
  | .QUIRE_STAT => [⟨31, 31, .ro, 0⟩, ⟨30, 30, .ro, 0⟩, ⟨23, 16, .ro, 14⟩, ⟨15, 7, .ro, 0⟩, ⟨5, 0, .ro, 0⟩]
  | .QUIRE_FREE => [⟨16, 0, .ro, 0⟩]
  | .QUIRE_RECLAIM_CFG => [⟨31, 16, .rws, 256⟩, ⟨15, 0, .rws, 64⟩]
  | .QUIRE_JCFG => [⟨15, 8, .rws, 10⟩, ⟨7, 0, .rws, 4⟩]
  | .QUIRE_SEQ_LO => [⟨31, 0, .ro, 0⟩]
  | .QUIRE_SEQ_HI => [⟨31, 0, .ro, 0⟩]
  | .QUIRE_CKPT_CNT => [⟨31, 0, .ro, 0⟩]
  | .QUIRE_SLOW_TIMEOUT => [⟨5, 0, .rws, 8⟩]
  | .QUIRE_RETIRE_CFG => [⟨31, 24, .rws, 16⟩, ⟨23, 16, .rws, 10⟩, ⟨15, 8, .rws, 64⟩]
  | .QUIRE_REBUILD_CFG => [⟨31, 31, .rws, 0⟩, ⟨7, 0, .rws, 60⟩]
  | .QUIRE_REBUILD_STAT => [⟨31, 31, .ro, 0⟩, ⟨30, 30, .ro, 0⟩, ⟨29, 29, .ro, 0⟩, ⟨28, 28, .ro, 0⟩, ⟨9, 0, .ro, 0⟩]
  | .QUIRE_DEG1 => [⟨16, 0, .ro, 0⟩]
  | .QUIRE_DEG2 => [⟨16, 0, .ro, 0⟩]
  | .QUIRE_LOST_CNT => [⟨31, 0, .ro, 0⟩]
  | .QUIRE_LAYOUT => [⟨31, 0, .ro, 0⟩]
  | .QUIRE_SLOT_STAT => [⟨31, 28, .ro, 0⟩, ⟨27, 27, .ro, 0⟩, ⟨26, 26, .ro, 0⟩, ⟨25, 25, .ro, 0⟩, ⟨24, 22, .ro, 0⟩, ⟨21, 16, .ro, 0⟩]
  | .QUIRE_DIE_STAT => [⟨31, 30, .ro, 2⟩, ⟨29, 28, .ro, 0⟩, ⟨23, 16, .ro, 0⟩, ⟨15, 0, .ro, 0⟩]
  | .STAGE_CFG => [⟨23, 16, .rws, 25⟩, ⟨11, 0, .rws, 2048⟩]
  | .STAGE_STAT => [⟨23, 13, .ro, 0⟩, ⟨12, 0, .ro, 0⟩]
  | .STAGE_POOL => [⟨26, 0, .ro, 0⟩]
  | .STAGE_PIN => [⟨26, 0, .ro, 0⟩]
  | .STAGE_FAIL_CNT => [⟨31, 20, .w1c, 0⟩, ⟨19, 8, .w1c, 0⟩, ⟨7, 0, .w1c, 0⟩]
  | .SCR_CTL => [⟨0, 0, .rw, 0⟩]
  | .SCR_STAT => [⟨31, 28, .ro, 0⟩, ⟨20, 16, .ro, 0⟩, ⟨15, 8, .ro, 0⟩]
  | .SCR_INK => [⟨15, 8, .ro, 128⟩, ⟨7, 0, .ro, 0⟩]
  | .SCR_FAULT => [⟨31, 24, .ro, 0⟩, ⟨23, 16, .ro, 0⟩, ⟨15, 12, .ro, 0⟩, ⟨0, 0, .w1c, 0⟩]
  | .SCR_FAULT_PC => [⟨31, 0, .ro, 0⟩]
  | .SCR_CTX => [⟨31, 31, .ro, 0⟩, ⟨30, 30, .ro, 0⟩, ⟨29, 29, .ro, 0⟩, ⟨28, 22, .ro, 0⟩, ⟨15, 0, .ro, 0⟩]
  | .SCR_CTX_TKT => [⟨31, 16, .ro, 0⟩, ⟨15, 0, .ro, 0⟩]
  | .SCL_MAP => [⟨3, 0, .ro, 0⟩, ⟨7, 4, .ro, 0⟩, ⟨11, 8, .ro, 0⟩, ⟨15, 12, .ro, 0⟩, ⟨19, 16, .ro, 0⟩, ⟨23, 20, .ro, 0⟩, ⟨27, 24, .ro, 0⟩, ⟨31, 28, .ro, 0⟩]
  | .SCL_STAT => [⟨31, 28, .ro, 0⟩, ⟨27, 24, .ro, 0⟩, ⟨23, 12, .ro, 2048⟩, ⟨11, 0, .ro, 2048⟩]
  | .SCL_SCRIPTS => [⟨6, 0, .ro, 0⟩]
  | .QUEUE_STAT => [⟨27, 16, .ro, 0⟩, ⟨9, 0, .ro, 0⟩]
  | .QUEUE_PAIRS => [⟨16, 0, .ro, 0⟩]
  | .QUEUE_ADMIT_CFG => [⟨31, 28, .rws, 8⟩, ⟨27, 24, .rws, 4⟩, ⟨23, 20, .rws, 2⟩, ⟨19, 16, .rws, 1⟩, ⟨11, 0, .rws, 128⟩]
  | .QUEUE_STALE_CNT => [⟨31, 0, .w1c, 0⟩]
  | .QUEUE_DB_BAD_CNT => [⟨31, 0, .w1c, 0⟩]
  | .QUEUE_GFD_MAP => [⟨31, 31, .rws, 0⟩, ⟨7, 0, .rws, 0⟩]
  | .QUEUE_LD_STAT => [⟨28, 16, .ro, 0⟩, ⟨11, 0, .ro, 0⟩]
  | .QUEUE_COAL => [⟨15, 8, .rw, 1⟩, ⟨7, 0, .rw, 0⟩]
  | .TWIN_CFG => [⟨31, 31, .rws, 0⟩, ⟨30, 30, .rws, 0⟩, ⟨15, 8, .rws, 20⟩]
  | .TWIN_CTL => [⟨2, 2, .wo, 0⟩, ⟨1, 1, .wo, 0⟩, ⟨0, 0, .wo, 0⟩]
  | .TWIN_STAT => [⟨31, 28, .ro, 0⟩, ⟨27, 26, .ro, 0⟩, ⟨25, 25, .ro, 0⟩, ⟨24, 24, .ro, 0⟩, ⟨23, 23, .ro, 0⟩, ⟨22, 22, .ro, 0⟩, ⟨21, 20, .ro, 0⟩, ⟨9, 0, .ro, 0⟩]
  | .TWIN_EPOCH => [⟨31, 0, .roc, 0⟩]
  | .TWIN_DIV_EPOCH => [⟨31, 0, .ro, 0⟩]
  | .TWIN_LEASE => [⟨13, 0, .roc, 0⟩]
  | .TWIN_LAG => [⟨31, 16, .ro, 0⟩, ⟨15, 0, .ro, 0⟩]
  | .TWIN_STALE_CNT => [⟨31, 0, .w1c, 0⟩]
  | .TWIN_NONE_CNT => [⟨31, 0, .w1c, 0⟩]
  | .TWIN_PEER_LO => [⟨31, 0, .ro, 0⟩]
  | .TWIN_PEER_HI => [⟨31, 0, .ro, 0⟩]
  | .SENT_CTL => [⟨31, 31, .roc, 1⟩, ⟨0, 0, .wo, 0⟩]
  | .SENT_STAT => [⟨31, 28, .ro, 0⟩, ⟨27, 27, .ro, 0⟩, ⟨26, 26, .ro, 0⟩, ⟨25, 25, .ro, 0⟩, ⟨24, 24, .ro, 0⟩, ⟨23, 23, .ro, 0⟩, ⟨22, 22, .ro, 0⟩, ⟨21, 21, .ro, 0⟩]
  | .SENT_BULK => [⟨31, 31, .wo, 0⟩, ⟨27, 16, .ro, 4095⟩, ⟨11, 0, .ro, 0⟩]
  | .SENT_HOLDUP => [⟨11, 0, .ro, 0⟩]
  | .SENT_SAG_CFG => [⟨3, 0, .rws, 8⟩]
  | .SENT_PCAP => [⟨6, 0, .rw, 110⟩]
  | .SENT_PWR => [⟨15, 0, .ro, 0⟩]
  | .SENT_DVFS => [⟨25, 16, .ro, 750⟩, ⟨1, 1, .rw, 0⟩, ⟨0, 0, .ro, 1⟩]
  | .SENT_HOLDUP_C => [⟨31, 16, .ro, 0⟩, ⟨15, 0, .ro, 0⟩]
  | .SENT_HOLDUP_E => [⟨31, 31, .ro, 0⟩, ⟨30, 18, .ro, 0⟩, ⟨17, 0, .ro, 0⟩]
  | .SENT_ESAVE => [⟨15, 0, .ro, 1000⟩]
  | .SENT_STRIKE_STAT => [⟨31, 16, .ro, 0⟩, ⟨15, 0, .ro, 0⟩]
  | .SENT_BANK_FUSE => [⟨31, 24, .ro, 0⟩, ⟨23, 16, .ro, 0⟩, ⟨15, 8, .ro, 0⟩, ⟨7, 0, .ro, 0⟩]
  | .SENT_PMB_CFG => [⟨1, 0, .rws, 2⟩]
  | .SENT_PMB_CMD => [⟨31, 31, .wo, 0⟩, ⟨30, 30, .wo, 0⟩, ⟨23, 16, .ro, 0⟩, ⟨12, 8, .wo, 0⟩, ⟨7, 0, .wo, 0⟩]
  | .SENT_PMB_DATA => [⟨15, 0, .rw, 0⟩]
  | .SENT_PMB_TAB => [⟨31, 31, .ro, 0⟩, ⟨30, 24, .ro, 0⟩, ⟨23, 20, .ro, 0⟩, ⟨19, 16, .ro, 0⟩, ⟨15, 15, .ro, 0⟩, ⟨14, 14, .ro, 0⟩, ⟨13, 10, .ro, 0⟩]
  | .SENT_METER_IDLE => [⟨31, 0, .ro, 0⟩]
  | .SENT_METER => [⟨31, 0, .ro, 0⟩]
  | .STC_DUTY => [⟨7, 6, .rw, 3⟩, ⟨5, 4, .rw, 2⟩, ⟨3, 2, .rw, 1⟩, ⟨1, 0, .rw, 0⟩]
  | .STC_CTL => [⟨3, 0, .rw, 0⟩]
  | .STC_STAT => [⟨31, 30, .ro, 0⟩, ⟨3, 0, .ro, 0⟩]
  | .STC_WDOG => [⟨31, 0, .wo, 0⟩]
  | .FWF_CMD => [⟨31, 31, .wo, 0⟩, ⟨7, 0, .wo, 0⟩]
  | .FWF_ADDR => [⟨25, 0, .rw, 0⟩]
  | .FWF_RES => [⟨31, 31, .ro, 0⟩, ⟨30, 30, .ro, 0⟩, ⟨23, 16, .ro, 0⟩]
  | .FWF_BUF => [⟨31, 0, .rw, 0⟩]
  | .FWF_BANK_STAT => [⟨7, 0, .ro, 0⟩, ⟨15, 8, .ro, 0⟩, ⟨23, 16, .ro, 0⟩, ⟨31, 24, .ro, 0⟩]
  | .FWF_SUSPEND_CNT => [⟨31, 0, .ro, 0⟩]
  | .FWF_ECC_CNT => [⟨31, 0, .w1c, 0⟩]
  | .FWF_FETCH => [⟨2, 0, .ro, 4⟩, ⟨5, 3, .ro, 4⟩, ⟨8, 6, .ro, 4⟩, ⟨11, 9, .ro, 4⟩]
  | .FWF_PWD_KEY => [⟨31, 0, .wo, 0⟩]
  | .FWF_PWD_DATA => [⟨31, 0, .wo, 0⟩]
  | .FWF_PWD_STAT => [⟨31, 31, .ro, 1⟩, ⟨23, 16, .ro, 0⟩, ⟨15, 0, .ro, 0⟩]
  | .FWF_PROT => [⟨31, 0, .ro, 0⟩]
  | .CURT_INK => [⟨20, 0, .roc, 0⟩]
  | .CURT_INK_SRC => [⟨31, 16, .roc, 0⟩, ⟨15, 0, .roc, 1000⟩]
  | .CURT_STRIKE => [⟨31, 31, .roc, 1⟩, ⟨30, 28, .roc, 0⟩]
  | .CURT_STRIKE_SEQ => [⟨31, 0, .roc, 0⟩]
  | .CURT_ACC => [⟨31, 16, .roc, 0⟩, ⟨15, 0, .roc, 0⟩]
  | .CURT_SLOT => [⟨15, 0, .roc, 0⟩]
  | .CURT_LEASE => [⟨31, 31, .roc, 0⟩, ⟨13, 0, .roc, 0⟩]
  | .CURT_EPOCH => [⟨31, 0, .roc, 0⟩]
  | .CURT_EPERM_CNT => [⟨21, 0, .roc, 0⟩]
  | .CURT_KEY => [⟨31, 31, .roc, 0⟩, ⟨8, 0, .roc, 0⟩]
  | .CURT_THERM => [⟨31, 31, .roc, 0⟩, ⟨30, 30, .roc, 0⟩, ⟨23, 16, .roc, 0⟩, ⟨15, 8, .roc, 128⟩]
  | .CURT_BOOT => [⟨31, 31, .roc, 0⟩, ⟨30, 30, .roc, 0⟩, ⟨29, 29, .roc, 0⟩]
  | .CURT_SWAP_SEQ => [⟨31, 0, .roc, 0⟩]
  | .CURT_PCAP => [⟨22, 16, .roc, 110⟩, ⟨6, 0, .roc, 110⟩]
  | .CURT_BAND => [⟨31, 16, .roc, 0⟩, ⟨15, 0, .roc, 0⟩]
  | .CURT_SEQ => [⟨15, 0, .roc, 0⟩]
  | .SEC_STAT => [⟨31, 31, .ro, 0⟩, ⟨30, 30, .ro, 0⟩, ⟨29, 28, .ro, 0⟩, ⟨27, 26, .ro, 0⟩, ⟨25, 22, .ro, 0⟩]
  | .SEC_ALARM => [⟨23, 16, .ro, 0⟩, ⟨15, 8, .ro, 0⟩, ⟨7, 7, .ro, 0⟩, ⟨6, 0, .ro, 0⟩]
  | .SEC_SVN => [⟨6, 0, .ro, 0⟩]
  | .SEC_CNT => [⟨25, 24, .ro, 0⟩, ⟨23, 16, .ro, 0⟩, ⟨9, 8, .ro, 0⟩, ⟨7, 0, .ro, 0⟩]
  | .SEC_DEBUG => [⟨3, 2, .ro, 0⟩, ⟨1, 0, .ro, 0⟩]
  | .SEC_DEBUG_NONCE => [⟨31, 0, .ro, 0⟩]
  | .SEC_MEAS => [⟨31, 0, .ro, 0⟩]
  | .SEC_SLOT => [⟨31, 30, .ro, 0⟩, ⟨29, 24, .ro, 0⟩, ⟨15, 0, .ro, 0⟩]
  | .SEC_SLOT_ID => [⟨31, 0, .ro, 0⟩]
  | .CHK_CTL => [⟨31, 31, .wo, 0⟩]
  | .CHK_STAT => [⟨31, 31, .ro, 0⟩, ⟨30, 30, .ro, 0⟩, ⟨15, 0, .ro, 0⟩]
  | .CHK_RING_BASE => [⟨31, 13, .rw, 0⟩]
  | .CHK_RING_HEAD => [⟨7, 0, .ro, 0⟩]
  | .CHK_RING_TAIL => [⟨7, 0, .rw, 0⟩]
  | .INT_CE_CFG => [⟨31, 16, .rws, 600⟩, ⟨7, 0, .rws, 8⟩]
  | .CHK_FOLIO_CNT => [⟨31, 20, .w1c, 0⟩, ⟨19, 8, .w1c, 0⟩, ⟨7, 0, .w1c, 0⟩]
  | .INT_POISON => [⟨31, 31, .ro, 0⟩, ⟨12, 0, .ro, 0⟩]
  | .INT_ARRAY => [⟨31, 24, .ro, 0⟩, ⟨23, 16, .ro, 0⟩, ⟨15, 0, .w1c, 0⟩]
  | .EVT_SRC => [⟨31, 30, .ro, 0⟩, ⟨29, 29, .rw, 1⟩, ⟨28, 27, .rw, 0⟩, ⟨26, 26, .rw, 1⟩, ⟨15, 0, .w1c, 0⟩]
  | .EVT_CORE_OVF => [⟨31, 0, .w1c, 0⟩]
  | .PBOOK_STAT => [⟨31, 31, .ro, 0⟩, ⟨27, 14, .ro, 0⟩, ⟨13, 0, .ro, 0⟩]
  | .PBOOK_SEQ_LO => [⟨31, 0, .ro, 0⟩]
  | .PBOOK_SEQ_HI => [⟨31, 0, .ro, 0⟩]
  | .PBOOK_FLUSHED_LO => [⟨31, 0, .ro, 0⟩]
  | .PBOOK_FLUSHED_HI => [⟨31, 0, .ro, 0⟩]
  | .PBOOK_DROP => [⟨31, 24, .w1c, 0⟩, ⟨23, 16, .w1c, 0⟩, ⟨15, 8, .w1c, 0⟩, ⟨7, 0, .w1c, 0⟩]
  | .PBOOK_ACK_LO => [⟨31, 0, .wo, 0⟩]
  | .PBOOK_ACK_HI => [⟨31, 0, .wo, 0⟩]
  | .PBOOK_ACK_STAT => [⟨7, 0, .ro, 0⟩]
  | .PBOOK_FIRE => [⟨31, 31, .wo, 0⟩, ⟨7, 0, .wo, 0⟩]
  | .PBOOK_WIN => [⟨1, 0, .rw, 0⟩]
  | .PBOOK_TALLY_SEL => [⟨31, 31, .wo, 0⟩, ⟨30, 30, .wo, 0⟩, ⟨8, 0, .wo, 0⟩]
  | .PBOOK_TALLY_SNAP => [⟨31, 0, .ro, 0⟩]
  | .PBOOK_TRIG => [⟨31, 31, .rw, 0⟩, ⟨30, 29, .rw, 0⟩, ⟨17, 12, .rw, 0⟩, ⟨11, 0, .rw, 0⟩]
  | .PBOOK_CAP => [⟨25, 0, .rw, 0⟩]
  | .MAINT_REQ => [⟨31, 31, .wo, 0⟩, ⟨30, 30, .wo, 0⟩, ⟨23, 16, .wo, 0⟩, ⟨15, 0, .wo, 0⟩]
  | .MAINT_PARAM0 => [⟨31, 0, .rw, 0⟩]
  | .MAINT_PARAM1 => [⟨31, 0, .rw, 0⟩]
  | .MAINT_PARAM2 => [⟨31, 0, .rw, 0⟩]
  | .MAINT_RES => [⟨7, 0, .ro, 0⟩]
  | .MAINT_JOBID => [⟨31, 0, .ro, 0⟩]
  | .MAINT_STAT => [⟨14, 8, .ro, 0⟩, ⟨6, 0, .ro, 0⟩]
  | .MAINT_ACTIVE => [⟨14, 1, .ro, 0⟩]
  | .MAINT_QRY => [⟨31, 0, .wo, 0⟩]
  | .MAINT_QRY_RES => [⟨31, 30, .ro, 0⟩, ⟨23, 16, .ro, 0⟩, ⟨15, 8, .ro, 0⟩, ⟨7, 0, .ro, 0⟩]
  | .HPORT_VIOL_LAST0 => [⟨31, 31, .w1c, 0⟩, ⟨30, 30, .ro, 0⟩, ⟨29, 28, .ro, 0⟩, ⟨27, 16, .ro, 0⟩, ⟨15, 15, .ro, 0⟩, ⟨8, 8, .ro, 0⟩, ⟨7, 0, .ro, 0⟩]
  | .HPORT_VIOL_LAST1 => [⟨31, 0, .ro, 0⟩]
  | .HPORT_VIOL_LAST2 => [⟨31, 0, .ro, 0⟩]
  | .ACC_COMMIT => [⟨31, 31, .wo, 0⟩]

/-- A named field of a named register. -/
structure Fld where
  reg : RegId
  hi : Nat
  lo : Nat
deriving DecidableEq, Repr

namespace F

def CLK_STAT_holdover : Fld := ⟨.CLK_STAT, 7, 7⟩
def CLK_STAT_aon_on_rc : Fld := ⟨.CLK_STAT, 6, 6⟩
def CLK_STAT_refclk_lost : Fld := ⟨.CLK_STAT, 5, 5⟩
def CLK_STAT_twin_pll_lock : Fld := ⟨.CLK_STAT, 4, 4⟩
def CLK_STAT_host_pll_lock : Fld := ⟨.CLK_STAT, 3, 3⟩
def CLK_STAT_ddr_pll_lock : Fld := ⟨.CLK_STAT, 2, 2⟩
def CLK_STAT_root_lock : Fld := ⟨.CLK_STAT, 1, 1⟩
def CLK_STAT_refclk_ok : Fld := ⟨.CLK_STAT, 0, 0⟩
def CLK_CLUSTER_DIV_div3 : Fld := ⟨.CLK_CLUSTER_DIV, 7, 6⟩
def CLK_CLUSTER_DIV_div2 : Fld := ⟨.CLK_CLUSTER_DIV, 5, 4⟩
def CLK_CLUSTER_DIV_div1 : Fld := ⟨.CLK_CLUSTER_DIV, 3, 2⟩
def CLK_CLUSTER_DIV_div0 : Fld := ⟨.CLK_CLUSTER_DIV, 1, 0⟩
def RST_CAUSE_refclk : Fld := ⟨.RST_CAUSE, 7, 7⟩
def RST_CAUSE_cxl_reset : Fld := ⟨.RST_CAUSE, 6, 6⟩
def RST_CAUSE_sec_fault : Fld := ⟨.RST_CAUSE, 5, 5⟩
def RST_CAUSE_mailbox : Fld := ⟨.RST_CAUSE, 4, 4⟩
def RST_CAUSE_pin : Fld := ⟨.RST_CAUSE, 3, 3⟩
def RST_CAUSE_strike : Fld := ⟨.RST_CAUSE, 2, 2⟩
def RST_CAUSE_warm : Fld := ⟨.RST_CAUSE, 1, 1⟩
def RST_CAUSE_por : Fld := ⟨.RST_CAUSE, 0, 0⟩
def RST_CTL_cxl_reset_dev : Fld := ⟨.RST_CTL, 0, 0⟩
def SCENE_ACTIVE_set : Fld := ⟨.SCENE_ACTIVE, 8, 0⟩
def SCENE_REQ_go : Fld := ⟨.SCENE_REQ, 31, 31⟩
def SCENE_REQ_set : Fld := ⟨.SCENE_REQ, 8, 0⟩
def SCENE_STAT_boundaries : Fld := ⟨.SCENE_STAT, 31, 16⟩
def SCENE_STAT_status : Fld := ⟨.SCENE_STAT, 15, 8⟩
def SCENE_STAT_busy : Fld := ⟨.SCENE_STAT, 0, 0⟩
def HPORT_CFG_ld_count : Fld := ⟨.HPORT_CFG, 11, 8⟩
def HPORT_CFG_ide_req : Fld := ⟨.HPORT_CFG, 7, 7⟩
def HPORT_CFG_gpf_en : Fld := ⟨.HPORT_CFG, 6, 6⟩
def HPORT_CFG_bi_en : Fld := ⟨.HPORT_CFG, 5, 5⟩
def HPORT_CFG_sris : Fld := ⟨.HPORT_CFG, 4, 4⟩
def HPORT_CFG_mode : Fld := ⟨.HPORT_CFG, 3, 2⟩
def HPORT_CFG_bifurcate : Fld := ⟨.HPORT_CFG, 1, 1⟩
def HPORT_CFG_enable : Fld := ⟨.HPORT_CFG, 0, 0⟩
def HPORT_STAT_frozen : Fld := ⟨.HPORT_STAT, 15, 15⟩
def HPORT_STAT_ide_secure : Fld := ⟨.HPORT_STAT, 14, 14⟩
def HPORT_STAT_cxl : Fld := ⟨.HPORT_STAT, 13, 13⟩
def HPORT_STAT_flit_lo : Fld := ⟨.HPORT_STAT, 12, 12⟩
def HPORT_STAT_speed : Fld := ⟨.HPORT_STAT, 11, 8⟩
def HPORT_STAT_width : Fld := ⟨.HPORT_STAT, 7, 3⟩
def HPORT_STAT_split : Fld := ⟨.HPORT_STAT, 1, 1⟩
def HPORT_STAT_up : Fld := ⟨.HPORT_STAT, 0, 0⟩
def HPORT_VIOL_CNT_count : Fld := ⟨.HPORT_VIOL_CNT, 31, 0⟩
def TRK_STAT_internal_occ : Fld := ⟨.TRK_STAT, 19, 4⟩
def TRK_STAT_fence_hold : Fld := ⟨.TRK_STAT, 3, 3⟩
def TRK_STAT_bounded_gate : Fld := ⟨.TRK_STAT, 2, 2⟩
def TRK_STAT_ink_gate : Fld := ⟨.TRK_STAT, 1, 1⟩
def TRK_WEIGHT_LO_w7 : Fld := ⟨.TRK_WEIGHT_LO, 31, 28⟩
def TRK_WEIGHT_LO_w6 : Fld := ⟨.TRK_WEIGHT_LO, 27, 24⟩
def TRK_WEIGHT_LO_w5 : Fld := ⟨.TRK_WEIGHT_LO, 23, 20⟩
def TRK_WEIGHT_LO_w4 : Fld := ⟨.TRK_WEIGHT_LO, 19, 16⟩
def TRK_WEIGHT_LO_w3 : Fld := ⟨.TRK_WEIGHT_LO, 15, 12⟩
def TRK_WEIGHT_LO_w2 : Fld := ⟨.TRK_WEIGHT_LO, 11, 8⟩
def TRK_WEIGHT_LO_w1 : Fld := ⟨.TRK_WEIGHT_LO, 7, 4⟩
def TRK_WEIGHT_LO_w0 : Fld := ⟨.TRK_WEIGHT_LO, 3, 0⟩
def TRK_WEIGHT_HI_w15 : Fld := ⟨.TRK_WEIGHT_HI, 31, 28⟩
def TRK_WEIGHT_HI_w13 : Fld := ⟨.TRK_WEIGHT_HI, 23, 20⟩
def TRK_WEIGHT_HI_w12 : Fld := ⟨.TRK_WEIGHT_HI, 19, 16⟩
def TRK_WEIGHT_HI_w11 : Fld := ⟨.TRK_WEIGHT_HI, 15, 12⟩
def TRK_WEIGHT_HI_w10 : Fld := ⟨.TRK_WEIGHT_HI, 11, 8⟩
def TRK_WEIGHT_HI_w9 : Fld := ⟨.TRK_WEIGHT_HI, 7, 4⟩
def TRK_WEIGHT_HI_w8 : Fld := ⟨.TRK_WEIGHT_HI, 3, 0⟩
def TRK_DEVLOAD_CFG_high : Fld := ⟨.TRK_DEVLOAD_CFG, 23, 16⟩
def TRK_DEVLOAD_CFG_mid : Fld := ⟨.TRK_DEVLOAD_CFG, 15, 8⟩
def TRK_DEVLOAD_CFG_low : Fld := ⟨.TRK_DEVLOAD_CFG, 7, 0⟩
def TRK_LINK_OCC_devload : Fld := ⟨.TRK_LINK_OCC, 31, 30⟩
def TRK_LINK_OCC_peak : Fld := ⟨.TRK_LINK_OCC, 29, 15⟩
def TRK_LINK_OCC_occ : Fld := ⟨.TRK_LINK_OCC, 14, 0⟩
def TRK_WCLASS_class_0 : Fld := ⟨.TRK_WCLASS, 1, 0⟩
def TRK_WCLASS_class_1 : Fld := ⟨.TRK_WCLASS, 3, 2⟩
def TRK_WCLASS_class_2 : Fld := ⟨.TRK_WCLASS, 5, 4⟩
def TRK_WCLASS_class_3 : Fld := ⟨.TRK_WCLASS, 7, 6⟩
def TRK_WCLASS_class_4 : Fld := ⟨.TRK_WCLASS, 9, 8⟩
def TRK_WCLASS_class_5 : Fld := ⟨.TRK_WCLASS, 11, 10⟩
def TRK_WCLASS_class_6 : Fld := ⟨.TRK_WCLASS, 13, 12⟩
def TRK_WCLASS_class_7 : Fld := ⟨.TRK_WCLASS, 15, 14⟩
def TRK_WCLASS_class_8 : Fld := ⟨.TRK_WCLASS, 17, 16⟩
def TRK_WCLASS_class_9 : Fld := ⟨.TRK_WCLASS, 19, 18⟩
def TRK_WCLASS_class_10 : Fld := ⟨.TRK_WCLASS, 21, 20⟩
def TRK_WCLASS_class_11 : Fld := ⟨.TRK_WCLASS, 23, 22⟩
def TRK_WCLASS_class_12 : Fld := ⟨.TRK_WCLASS, 25, 24⟩
def TRK_WCLASS_class_13 : Fld := ⟨.TRK_WCLASS, 27, 26⟩
def TRK_WCLASS_class_14 : Fld := ⟨.TRK_WCLASS, 29, 28⟩
def TRK_WCLASS_class_15 : Fld := ⟨.TRK_WCLASS, 31, 30⟩
def INK_LIMIT_limit : Fld := ⟨.INK_LIMIT, 20, 0⟩
def INK_CURT_curtain : Fld := ⟨.INK_CURT, 20, 0⟩
def INK_CEIL_sag : Fld := ⟨.INK_CEIL, 31, 31⟩
def INK_CEIL_ceiling : Fld := ⟨.INK_CEIL, 20, 0⟩
def INK_CNT_ink : Fld := ⟨.INK_CNT, 20, 0⟩
def BLOT_CFG_high_water : Fld := ⟨.BLOT_CFG, 31, 24⟩
def BLOT_CFG_low_water : Fld := ⟨.BLOT_CFG, 23, 16⟩
def BLOT_CFG_max_age : Fld := ⟨.BLOT_CFG, 15, 0⟩
def BLOT_STAT_due : Fld := ⟨.BLOT_STAT, 31, 16⟩
def BLOT_STAT_rate : Fld := ⟨.BLOT_STAT, 15, 0⟩
def PAIR_STAT_frames : Fld := ⟨.PAIR_STAT, 20, 0⟩
def REGION_CAP_granules : Fld := ⟨.REGION_CAP, 19, 0⟩
def REGION_CMT_STAT_kind : Fld := ⟨.REGION_CMT_STAT, 29, 28⟩
def REGION_CMT_STAT_entry : Fld := ⟨.REGION_CMT_STAT, 27, 16⟩
def REGION_CMT_STAT_status : Fld := ⟨.REGION_CMT_STAT, 15, 8⟩
def REGION_CMT_STAT_busy : Fld := ⟨.REGION_CMT_STAT, 0, 0⟩
def SCACHE_CTL_ce_limit : Fld := ⟨.SCACHE_CTL, 15, 8⟩
def SCACHE_CTL_quiesce_p : Fld := ⟨.SCACHE_CTL, 0, 0⟩
def SCACHE_STAT_enabled : Fld := ⟨.SCACHE_STAT, 31, 31⟩
def SCACHE_STAT_stale : Fld := ⟨.SCACHE_STAT, 30, 30⟩
def SCACHE_STAT_dirty_p : Fld := ⟨.SCACHE_STAT, 21, 0⟩
def SCACHE_MAINT_go : Fld := ⟨.SCACHE_MAINT, 31, 31⟩
def SCACHE_MAINT_set : Fld := ⟨.SCACHE_MAINT, 27, 16⟩
def SCACHE_MAINT_way : Fld := ⟨.SCACHE_MAINT, 15, 12⟩
def SCACHE_MAINT_slice : Fld := ⟨.SCACHE_MAINT, 11, 7⟩
def SCACHE_MAINT_op : Fld := ⟨.SCACHE_MAINT, 3, 0⟩
def SCACHE_MAINT_STAT_status : Fld := ⟨.SCACHE_MAINT_STAT, 15, 8⟩
def SCACHE_MAINT_STAT_busy : Fld := ⟨.SCACHE_MAINT_STAT, 0, 0⟩
def SCACHE_MAINT_ADDR_LO_dpa_lo : Fld := ⟨.SCACHE_MAINT_ADDR_LO, 31, 6⟩
def SCACHE_MAINT_ADDR_HI_count : Fld := ⟨.SCACHE_MAINT_ADDR_HI, 31, 16⟩
def SCACHE_MAINT_ADDR_HI_dpa_hi : Fld := ⟨.SCACHE_MAINT_ADDR_HI, 15, 0⟩
def SCACHE_WAYMASK_mask : Fld := ⟨.SCACHE_WAYMASK, 15, 0⟩
def SCACHE_WAYSTAT_soft : Fld := ⟨.SCACHE_WAYSTAT, 15, 0⟩
def DMC_CTL_release : Fld := ⟨.DMC_CTL, 31, 31⟩
def DMC_CTL_idle_sr : Fld := ⟨.DMC_CTL, 7, 0⟩
def DMC_STAT_frozen : Fld := ⟨.DMC_STAT, 31, 31⟩
def DMC_STAT_snap_read : Fld := ⟨.DMC_STAT, 30, 30⟩
def DMC_STAT_in_sr : Fld := ⟨.DMC_STAT, 29, 29⟩
def DMC_STAT_training : Fld := ⟨.DMC_STAT, 28, 28⟩
def DMC_STAT_debt : Fld := ⟨.DMC_STAT, 27, 24⟩
def DMC_STAT_rel_status : Fld := ⟨.DMC_STAT, 23, 16⟩
def DMC_STAT_temp : Fld := ⟨.DMC_STAT, 15, 8⟩
def DMC_GEOM_speed : Fld := ⟨.DMC_GEOM, 31, 30⟩
def DMC_GEOM_dimms : Fld := ⟨.DMC_GEOM, 29, 28⟩
def DMC_GEOM_ranks : Fld := ⟨.DMC_GEOM, 27, 26⟩
def DMC_GEOM_row_bits : Fld := ⟨.DMC_GEOM, 25, 21⟩
def DMC_GEOM_cap_gib : Fld := ⟨.DMC_GEOM, 9, 0⟩
def DMC_TRAIN_CFG_period : Fld := ⟨.DMC_TRAIN_CFG, 31, 16⟩
def DMC_TRAIN_CFG_temp_delta : Fld := ⟨.DMC_TRAIN_CFG, 7, 0⟩
def DMC_REF_CFG_max_postpone : Fld := ⟨.DMC_REF_CFG, 3, 0⟩
def DMC_SCRUB_CFG_enable : Fld := ⟨.DMC_SCRUB_CFG, 16, 16⟩
def DMC_SCRUB_CFG_period : Fld := ⟨.DMC_SCRUB_CFG, 15, 0⟩
def DMC_SCRUB_STAT_passes : Fld := ⟨.DMC_SCRUB_STAT, 31, 16⟩
def DMC_SCRUB_STAT_progress : Fld := ⟨.DMC_SCRUB_STAT, 9, 0⟩
def DMC_CE_CNT_count : Fld := ⟨.DMC_CE_CNT, 31, 0⟩
def DMC_CE_CFG_row_limit : Fld := ⟨.DMC_CE_CFG, 7, 0⟩
def DMC_REPAIR_STAT_soft : Fld := ⟨.DMC_REPAIR_STAT, 31, 24⟩
def DMC_REPAIR_STAT_retired : Fld := ⟨.DMC_REPAIR_STAT, 12, 0⟩
def DMC_FREEZE_SNAP_word : Fld := ⟨.DMC_FREEZE_SNAP, 31, 0⟩
def FLASH_CTL_retry_max : Fld := ⟨.FLASH_CTL, 7, 4⟩
def FLASH_CTL_enable : Fld := ⟨.FLASH_CTL, 0, 0⟩
def FLASH_STAT_present : Fld := ⟨.FLASH_STAT, 31, 16⟩
def FLASH_STAT_class : Fld := ⟨.FLASH_STAT, 15, 14⟩
def FLASH_STAT_trained : Fld := ⟨.FLASH_STAT, 13, 13⟩
def FLASH_SUSP_CFG_max_susp : Fld := ⟨.FLASH_SUSP_CFG, 23, 16⟩
def FLASH_SUSP_CFG_reads : Fld := ⟨.FLASH_SUSP_CFG, 15, 8⟩
def FLASH_SUSP_CFG_min_run : Fld := ⟨.FLASH_SUSP_CFG, 7, 0⟩
def FLASH_LDPC_CNT_corrected : Fld := ⟨.FLASH_LDPC_CNT, 31, 0⟩
def FLASH_FAIL_CNT_uncorrectable : Fld := ⟨.FLASH_FAIL_CNT, 31, 16⟩
def FLASH_FAIL_CNT_pe_fail : Fld := ⟨.FLASH_FAIL_CNT, 15, 0⟩
def QUIRE_CFG_open_groups : Fld := ⟨.QUIRE_CFG, 5, 0⟩
def QUIRE_STAT_reserve_ready : Fld := ⟨.QUIRE_STAT, 31, 31⟩
def QUIRE_STAT_journal_3 : Fld := ⟨.QUIRE_STAT, 30, 30⟩
def QUIRE_STAT_width : Fld := ⟨.QUIRE_STAT, 23, 16⟩
def QUIRE_STAT_reserve : Fld := ⟨.QUIRE_STAT, 15, 7⟩
def QUIRE_STAT_open : Fld := ⟨.QUIRE_STAT, 5, 0⟩
def QUIRE_FREE_free : Fld := ⟨.QUIRE_FREE, 16, 0⟩
def QUIRE_RECLAIM_CFG_free_high : Fld := ⟨.QUIRE_RECLAIM_CFG, 31, 16⟩
def QUIRE_RECLAIM_CFG_free_low : Fld := ⟨.QUIRE_RECLAIM_CFG, 15, 0⟩
def QUIRE_JCFG_flush_ms : Fld := ⟨.QUIRE_JCFG, 15, 8⟩
def QUIRE_JCFG_ckpt_gib : Fld := ⟨.QUIRE_JCFG, 7, 0⟩
def QUIRE_SEQ_LO_seq_lo : Fld := ⟨.QUIRE_SEQ_LO, 31, 0⟩
def QUIRE_SEQ_HI_seq_hi : Fld := ⟨.QUIRE_SEQ_HI, 31, 0⟩
def QUIRE_CKPT_CNT_count : Fld := ⟨.QUIRE_CKPT_CNT, 31, 0⟩
def QUIRE_SLOW_TIMEOUT_ms : Fld := ⟨.QUIRE_SLOW_TIMEOUT, 5, 0⟩
def QUIRE_RETIRE_CFG_slow_count : Fld := ⟨.QUIRE_RETIRE_CFG, 31, 24⟩
def QUIRE_RETIRE_CFG_slow_window : Fld := ⟨.QUIRE_RETIRE_CFG, 23, 16⟩
def QUIRE_RETIRE_CFG_block_limit : Fld := ⟨.QUIRE_RETIRE_CFG, 15, 8⟩
def QUIRE_REBUILD_CFG_auto_admit : Fld := ⟨.QUIRE_REBUILD_CFG, 31, 31⟩
def QUIRE_REBUILD_CFG_reshape_delay : Fld := ⟨.QUIRE_REBUILD_CFG, 7, 0⟩
def QUIRE_REBUILD_STAT_rebuild : Fld := ⟨.QUIRE_REBUILD_STAT, 31, 31⟩
def QUIRE_REBUILD_STAT_reshape : Fld := ⟨.QUIRE_REBUILD_STAT, 30, 30⟩
def QUIRE_REBUILD_STAT_reshape_wait : Fld := ⟨.QUIRE_REBUILD_STAT, 29, 29⟩
def QUIRE_REBUILD_STAT_halted : Fld := ⟨.QUIRE_REBUILD_STAT, 28, 28⟩
def QUIRE_REBUILD_STAT_progress : Fld := ⟨.QUIRE_REBUILD_STAT, 9, 0⟩
def QUIRE_DEG1_groups : Fld := ⟨.QUIRE_DEG1, 16, 0⟩
def QUIRE_DEG2_groups : Fld := ⟨.QUIRE_DEG2, 16, 0⟩
def QUIRE_LOST_CNT_folios : Fld := ⟨.QUIRE_LOST_CNT, 31, 0⟩
def QUIRE_LAYOUT_layout : Fld := ⟨.QUIRE_LAYOUT, 31, 0⟩
def QUIRE_SLOT_STAT_state : Fld := ⟨.QUIRE_SLOT_STAT, 31, 28⟩
def QUIRE_SLOT_STAT_prsnt : Fld := ⟨.QUIRE_SLOT_STAT, 27, 27⟩
def QUIRE_SLOT_STAT_pwr_en : Fld := ⟨.QUIRE_SLOT_STAT, 26, 26⟩
def QUIRE_SLOT_STAT_pgood : Fld := ⟨.QUIRE_SLOT_STAT, 25, 25⟩
def QUIRE_SLOT_STAT_led : Fld := ⟨.QUIRE_SLOT_STAT, 24, 22⟩
def QUIRE_SLOT_STAT_retired : Fld := ⟨.QUIRE_SLOT_STAT, 21, 16⟩
def QUIRE_DIE_STAT_state : Fld := ⟨.QUIRE_DIE_STAT, 31, 30⟩
def QUIRE_DIE_STAT_cause : Fld := ⟨.QUIRE_DIE_STAT, 29, 28⟩
def QUIRE_DIE_STAT_slow : Fld := ⟨.QUIRE_DIE_STAT, 23, 16⟩
def QUIRE_DIE_STAT_blocks : Fld := ⟨.QUIRE_DIE_STAT, 15, 0⟩
def STAGE_CFG_pin_pct : Fld := ⟨.STAGE_CFG, 23, 16⟩
def STAGE_CFG_cue_sf_max : Fld := ⟨.STAGE_CFG, 11, 0⟩
def STAGE_STAT_runs : Fld := ⟨.STAGE_STAT, 23, 13⟩
def STAGE_STAT_sf_used : Fld := ⟨.STAGE_STAT, 12, 0⟩
def STAGE_POOL_frames : Fld := ⟨.STAGE_POOL, 26, 0⟩
def STAGE_PIN_frames : Fld := ⟨.STAGE_PIN, 26, 0⟩
def STAGE_FAIL_CNT_reconstructed : Fld := ⟨.STAGE_FAIL_CNT, 31, 20⟩
def STAGE_FAIL_CNT_twin : Fld := ⟨.STAGE_FAIL_CNT, 19, 8⟩
def STAGE_FAIL_CNT_lost : Fld := ⟨.STAGE_FAIL_CNT, 7, 0⟩
def SCR_CTL_drain : Fld := ⟨.SCR_CTL, 0, 0⟩
def SCR_STAT_state : Fld := ⟨.SCR_STAT, 31, 28⟩
def SCR_STAT_contexts : Fld := ⟨.SCR_STAT, 20, 16⟩
def SCR_STAT_dpa_ops : Fld := ⟨.SCR_STAT, 15, 8⟩
def SCR_INK_free_run : Fld := ⟨.SCR_INK, 15, 8⟩
def SCR_INK_used : Fld := ⟨.SCR_INK, 7, 0⟩
def SCR_FAULT_cause : Fld := ⟨.SCR_FAULT, 31, 24⟩
def SCR_FAULT_status : Fld := ⟨.SCR_FAULT, 23, 16⟩
def SCR_FAULT_context : Fld := ⟨.SCR_FAULT, 15, 12⟩
def SCR_FAULT_valid : Fld := ⟨.SCR_FAULT, 0, 0⟩
def SCR_FAULT_PC_offset : Fld := ⟨.SCR_FAULT_PC, 31, 0⟩
def SCR_CTX_busy : Fld := ⟨.SCR_CTX, 31, 31⟩
def SCR_CTX_handler : Fld := ⟨.SCR_CTX, 30, 30⟩
def SCR_CTX_seal_open : Fld := ⟨.SCR_CTX, 29, 29⟩
def SCR_CTX_seal_lines : Fld := ⟨.SCR_CTX, 28, 22⟩
def SCR_CTX_script : Fld := ⟨.SCR_CTX, 15, 0⟩
def SCR_CTX_TKT_queue : Fld := ⟨.SCR_CTX_TKT, 31, 16⟩
def SCR_CTX_TKT_slot : Fld := ⟨.SCR_CTX_TKT, 15, 0⟩
def SCL_MAP_pos_0 : Fld := ⟨.SCL_MAP, 3, 0⟩
def SCL_MAP_pos_1 : Fld := ⟨.SCL_MAP, 7, 4⟩
def SCL_MAP_pos_2 : Fld := ⟨.SCL_MAP, 11, 8⟩
def SCL_MAP_pos_3 : Fld := ⟨.SCL_MAP, 15, 12⟩
def SCL_MAP_pos_4 : Fld := ⟨.SCL_MAP, 19, 16⟩
def SCL_MAP_pos_5 : Fld := ⟨.SCL_MAP, 23, 20⟩
def SCL_MAP_pos_6 : Fld := ⟨.SCL_MAP, 27, 24⟩
def SCL_MAP_pos_7 : Fld := ⟨.SCL_MAP, 31, 28⟩
def SCL_STAT_spare : Fld := ⟨.SCL_STAT, 31, 28⟩
def SCL_STAT_failed : Fld := ⟨.SCL_STAT, 27, 24⟩
def SCL_STAT_free_run : Fld := ⟨.SCL_STAT, 23, 12⟩
def SCL_STAT_free : Fld := ⟨.SCL_STAT, 11, 0⟩
def SCL_SCRIPTS_loaded : Fld := ⟨.SCL_SCRIPTS, 6, 0⟩
def QUEUE_STAT_admitted : Fld := ⟨.QUEUE_STAT, 27, 16⟩
def QUEUE_STAT_running : Fld := ⟨.QUEUE_STAT, 9, 0⟩
def QUEUE_PAIRS_pairs : Fld := ⟨.QUEUE_PAIRS, 16, 0⟩
def QUEUE_ADMIT_CFG_w0 : Fld := ⟨.QUEUE_ADMIT_CFG, 31, 28⟩
def QUEUE_ADMIT_CFG_w1 : Fld := ⟨.QUEUE_ADMIT_CFG, 27, 24⟩
def QUEUE_ADMIT_CFG_w2 : Fld := ⟨.QUEUE_ADMIT_CFG, 23, 20⟩
def QUEUE_ADMIT_CFG_w3 : Fld := ⟨.QUEUE_ADMIT_CFG, 19, 16⟩
def QUEUE_ADMIT_CFG_ld_max : Fld := ⟨.QUEUE_ADMIT_CFG, 11, 0⟩
def QUEUE_STALE_CNT_count : Fld := ⟨.QUEUE_STALE_CNT, 31, 0⟩
def QUEUE_DB_BAD_CNT_count : Fld := ⟨.QUEUE_DB_BAD_CNT, 31, 0⟩
def QUEUE_GFD_MAP_valid : Fld := ⟨.QUEUE_GFD_MAP, 31, 31⟩
def QUEUE_GFD_MAP_identity : Fld := ⟨.QUEUE_GFD_MAP, 7, 0⟩
def QUEUE_LD_STAT_queues : Fld := ⟨.QUEUE_LD_STAT, 28, 16⟩
def QUEUE_LD_STAT_admitted : Fld := ⟨.QUEUE_LD_STAT, 11, 0⟩
def QUEUE_COAL_count : Fld := ⟨.QUEUE_COAL, 15, 8⟩
def QUEUE_COAL_time : Fld := ⟨.QUEUE_COAL, 7, 0⟩
def TWIN_CFG_enable : Fld := ⟨.TWIN_CFG, 31, 31⟩
def TWIN_CFG_prefer_lead : Fld := ⟨.TWIN_CFG, 30, 30⟩
def TWIN_CFG_fetch_ms : Fld := ⟨.TWIN_CFG, 15, 8⟩
def TWIN_CTL_yield : Fld := ⟨.TWIN_CTL, 2, 2⟩
def TWIN_CTL_handover : Fld := ⟨.TWIN_CTL, 1, 1⟩
def TWIN_CTL_solo : Fld := ⟨.TWIN_CTL, 0, 0⟩
def TWIN_STAT_link : Fld := ⟨.TWIN_STAT, 31, 28⟩
def TWIN_STAT_role : Fld := ⟨.TWIN_STAT, 27, 26⟩
def TWIN_STAT_fenced : Fld := ⟨.TWIN_STAT, 25, 25⟩
def TWIN_STAT_synced : Fld := ⟨.TWIN_STAT, 24, 24⟩
def TWIN_STAT_div_valid : Fld := ⟨.TWIN_STAT, 23, 23⟩
def TWIN_STAT_solo_copies : Fld := ⟨.TWIN_STAT, 22, 22⟩
def TWIN_STAT_resync : Fld := ⟨.TWIN_STAT, 21, 20⟩
def TWIN_STAT_progress : Fld := ⟨.TWIN_STAT, 9, 0⟩
def TWIN_EPOCH_epoch : Fld := ⟨.TWIN_EPOCH, 31, 0⟩
def TWIN_DIV_EPOCH_div_epoch : Fld := ⟨.TWIN_DIV_EPOCH, 31, 0⟩
def TWIN_LEASE_remaining : Fld := ⟨.TWIN_LEASE, 13, 0⟩
def TWIN_LAG_unacked : Fld := ⟨.TWIN_LAG, 31, 16⟩
def TWIN_LAG_lag : Fld := ⟨.TWIN_LAG, 15, 0⟩
def TWIN_STALE_CNT_count : Fld := ⟨.TWIN_STALE_CNT, 31, 0⟩
def TWIN_NONE_CNT_count : Fld := ⟨.TWIN_NONE_CNT, 31, 0⟩
def TWIN_PEER_LO_id_lo : Fld := ⟨.TWIN_PEER_LO, 31, 0⟩
def TWIN_PEER_HI_id_hi : Fld := ⟨.TWIN_PEER_HI, 31, 0⟩
def SENT_CTL_strike_arm : Fld := ⟨.SENT_CTL, 31, 31⟩
def SENT_CTL_test_go : Fld := ⟨.SENT_CTL, 0, 0⟩
def SENT_STAT_state : Fld := ⟨.SENT_STAT, 31, 28⟩
def SENT_STAT_sag_hold : Fld := ⟨.SENT_STAT, 27, 27⟩
def SENT_STAT_ac_fail : Fld := ⟨.SENT_STAT, 26, 26⟩
def SENT_STAT_pwr_ok : Fld := ⟨.SENT_STAT, 25, 25⟩
def SENT_STAT_holdup_en : Fld := ⟨.SENT_STAT, 24, 24⟩
def SENT_STAT_chg_en : Fld := ⟨.SENT_STAT, 23, 23⟩
def SENT_STAT_testing : Fld := ⟨.SENT_STAT, 22, 22⟩
def SENT_STAT_throttle : Fld := ⟨.SENT_STAT, 21, 21⟩
def SENT_BULK_rearm : Fld := ⟨.SENT_BULK, 31, 31⟩
def SENT_BULK_min : Fld := ⟨.SENT_BULK, 27, 16⟩
def SENT_BULK_count : Fld := ⟨.SENT_BULK, 11, 0⟩
def SENT_HOLDUP_count : Fld := ⟨.SENT_HOLDUP, 11, 0⟩
def SENT_SAG_CFG_duty : Fld := ⟨.SENT_SAG_CFG, 3, 0⟩
def SENT_PCAP_cap : Fld := ⟨.SENT_PCAP, 6, 0⟩
def SENT_PWR_power : Fld := ⟨.SENT_PWR, 15, 0⟩
def SENT_DVFS_vdd_mv : Fld := ⟨.SENT_DVFS, 25, 16⟩
def SENT_DVFS_raise : Fld := ⟨.SENT_DVFS, 1, 1⟩
def SENT_DVFS_ready : Fld := ⟨.SENT_DVFS, 0, 0⟩
def SENT_HOLDUP_C_esr : Fld := ⟨.SENT_HOLDUP_C, 31, 16⟩
def SENT_HOLDUP_C_cap_mf : Fld := ⟨.SENT_HOLDUP_C, 15, 0⟩
def SENT_HOLDUP_E_valid : Fld := ⟨.SENT_HOLDUP_E, 31, 31⟩
def SENT_HOLDUP_E_hours : Fld := ⟨.SENT_HOLDUP_E, 30, 18⟩
def SENT_HOLDUP_E_e_mj : Fld := ⟨.SENT_HOLDUP_E, 17, 0⟩
def SENT_ESAVE_pj_per_b : Fld := ⟨.SENT_ESAVE, 15, 0⟩
def SENT_STRIKE_STAT_ms : Fld := ⟨.SENT_STRIKE_STAT, 31, 16⟩
def SENT_STRIKE_STAT_energy : Fld := ⟨.SENT_STRIKE_STAT, 15, 0⟩
def SENT_BANK_FUSE_v_chg : Fld := ⟨.SENT_BANK_FUSE, 31, 24⟩
def SENT_BANK_FUSE_v_min : Fld := ⟨.SENT_BANK_FUSE, 23, 16⟩
def SENT_BANK_FUSE_r_test : Fld := ⟨.SENT_BANK_FUSE, 15, 8⟩
def SENT_BANK_FUSE_eta : Fld := ⟨.SENT_BANK_FUSE, 7, 0⟩
def SENT_PMB_CFG_speed : Fld := ⟨.SENT_PMB_CFG, 1, 0⟩
def SENT_PMB_CMD_go : Fld := ⟨.SENT_PMB_CMD, 31, 31⟩
def SENT_PMB_CMD_read : Fld := ⟨.SENT_PMB_CMD, 30, 30⟩
def SENT_PMB_CMD_status : Fld := ⟨.SENT_PMB_CMD, 23, 16⟩
def SENT_PMB_CMD_entry : Fld := ⟨.SENT_PMB_CMD, 12, 8⟩
def SENT_PMB_CMD_code : Fld := ⟨.SENT_PMB_CMD, 7, 0⟩
def SENT_PMB_DATA_data : Fld := ⟨.SENT_PMB_DATA, 15, 0⟩
def SENT_PMB_TAB_valid : Fld := ⟨.SENT_PMB_TAB, 31, 31⟩
def SENT_PMB_TAB_addr : Fld := ⟨.SENT_PMB_TAB, 30, 24⟩
def SENT_PMB_TAB_page : Fld := ⟨.SENT_PMB_TAB, 23, 20⟩
def SENT_PMB_TAB_band : Fld := ⟨.SENT_PMB_TAB, 19, 16⟩
def SENT_PMB_TAB_holdup_fed : Fld := ⟨.SENT_PMB_TAB, 15, 15⟩
def SENT_PMB_TAB_self : Fld := ⟨.SENT_PMB_TAB, 14, 14⟩
def SENT_PMB_TAB_group : Fld := ⟨.SENT_PMB_TAB, 13, 10⟩
def SENT_METER_IDLE_mj : Fld := ⟨.SENT_METER_IDLE, 31, 0⟩
def SENT_METER_mj : Fld := ⟨.SENT_METER, 31, 0⟩
def STC_DUTY_mailbox : Fld := ⟨.STC_DUTY, 7, 6⟩
def STC_DUTY_maint : Fld := ⟨.STC_DUTY, 5, 4⟩
def STC_DUTY_reclaim : Fld := ⟨.STC_DUTY, 3, 2⟩
def STC_DUTY_scene : Fld := ⟨.STC_DUTY, 1, 0⟩
def STC_CTL_drain : Fld := ⟨.STC_CTL, 3, 0⟩
def STC_STAT_state : Fld := ⟨.STC_STAT, 31, 30⟩
def STC_STAT_duties : Fld := ⟨.STC_STAT, 3, 0⟩
def STC_WDOG_kick : Fld := ⟨.STC_WDOG, 31, 0⟩
def FWF_CMD_go : Fld := ⟨.FWF_CMD, 31, 31⟩
def FWF_CMD_op : Fld := ⟨.FWF_CMD, 7, 0⟩
def FWF_ADDR_offset : Fld := ⟨.FWF_ADDR, 25, 0⟩
def FWF_RES_busy : Fld := ⟨.FWF_RES, 31, 31⟩
def FWF_RES_suspended : Fld := ⟨.FWF_RES, 30, 30⟩
def FWF_RES_status : Fld := ⟨.FWF_RES, 23, 16⟩
def FWF_BUF_word : Fld := ⟨.FWF_BUF, 31, 0⟩
def FWF_BANK_STAT_bank_0 : Fld := ⟨.FWF_BANK_STAT, 7, 0⟩
def FWF_BANK_STAT_bank_1 : Fld := ⟨.FWF_BANK_STAT, 15, 8⟩
def FWF_BANK_STAT_bank_2 : Fld := ⟨.FWF_BANK_STAT, 23, 16⟩
def FWF_BANK_STAT_bank_3 : Fld := ⟨.FWF_BANK_STAT, 31, 24⟩
def FWF_SUSPEND_CNT_count : Fld := ⟨.FWF_SUSPEND_CNT, 31, 0⟩
def FWF_ECC_CNT_count : Fld := ⟨.FWF_ECC_CNT, 31, 0⟩
def FWF_FETCH_core_0 : Fld := ⟨.FWF_FETCH, 2, 0⟩
def FWF_FETCH_core_1 : Fld := ⟨.FWF_FETCH, 5, 3⟩
def FWF_FETCH_core_2 : Fld := ⟨.FWF_FETCH, 8, 6⟩
def FWF_FETCH_core_3 : Fld := ⟨.FWF_FETCH, 11, 9⟩
def FWF_PWD_KEY_key : Fld := ⟨.FWF_PWD_KEY, 31, 0⟩
def FWF_PWD_DATA_data : Fld := ⟨.FWF_PWD_DATA, 31, 0⟩
def FWF_PWD_STAT_locked : Fld := ⟨.FWF_PWD_STAT, 31, 31⟩
def FWF_PWD_STAT_fails : Fld := ⟨.FWF_PWD_STAT, 23, 16⟩
def FWF_PWD_STAT_wait_s : Fld := ⟨.FWF_PWD_STAT, 15, 0⟩
def FWF_PROT_prot : Fld := ⟨.FWF_PROT, 31, 0⟩
def CURT_INK_curtain : Fld := ⟨.CURT_INK, 20, 0⟩
def CURT_INK_SRC_e_j : Fld := ⟨.CURT_INK_SRC, 31, 16⟩
def CURT_INK_SRC_esave : Fld := ⟨.CURT_INK_SRC, 15, 0⟩
def CURT_STRIKE_armed : Fld := ⟨.CURT_STRIKE, 31, 31⟩
def CURT_STRIKE_cause : Fld := ⟨.CURT_STRIKE, 30, 28⟩
def CURT_STRIKE_SEQ_seq : Fld := ⟨.CURT_STRIKE_SEQ, 31, 0⟩
def CURT_ACC_refused : Fld := ⟨.CURT_ACC, 31, 16⟩
def CURT_ACC_signed : Fld := ⟨.CURT_ACC, 15, 0⟩
def CURT_SLOT_hold : Fld := ⟨.CURT_SLOT, 15, 0⟩
def CURT_LEASE_valid : Fld := ⟨.CURT_LEASE, 31, 31⟩
def CURT_LEASE_remaining : Fld := ⟨.CURT_LEASE, 13, 0⟩
def CURT_EPOCH_epoch : Fld := ⟨.CURT_EPOCH, 31, 0⟩
def CURT_EPERM_CNT_permits : Fld := ⟨.CURT_EPERM_CNT, 21, 0⟩
def CURT_KEY_alarm : Fld := ⟨.CURT_KEY, 31, 31⟩
def CURT_KEY_loaded : Fld := ⟨.CURT_KEY, 8, 0⟩
def CURT_THERM_throttle : Fld := ⟨.CURT_THERM, 31, 31⟩
def CURT_THERM_trip : Fld := ⟨.CURT_THERM, 30, 30⟩
def CURT_THERM_hot : Fld := ⟨.CURT_THERM, 23, 16⟩
def CURT_THERM_peak : Fld := ⟨.CURT_THERM, 15, 8⟩
def CURT_BOOT_slot : Fld := ⟨.CURT_BOOT, 31, 31⟩
def CURT_BOOT_update : Fld := ⟨.CURT_BOOT, 30, 30⟩
def CURT_BOOT_fell_back : Fld := ⟨.CURT_BOOT, 29, 29⟩
def CURT_SWAP_SEQ_seq : Fld := ⟨.CURT_SWAP_SEQ, 31, 0⟩
def CURT_PCAP_cap : Fld := ⟨.CURT_PCAP, 22, 16⟩
def CURT_PCAP_max : Fld := ⟨.CURT_PCAP, 6, 0⟩
def CURT_BAND_max_mv : Fld := ⟨.CURT_BAND, 31, 16⟩
def CURT_BAND_min_mv : Fld := ⟨.CURT_BAND, 15, 0⟩
def CURT_SEQ_interval : Fld := ⟨.CURT_SEQ, 15, 0⟩
def SEC_STAT_latch : Fld := ⟨.SEC_STAT, 31, 31⟩
def SEC_STAT_kek : Fld := ⟨.SEC_STAT, 30, 30⟩
def SEC_STAT_life : Fld := ⟨.SEC_STAT, 29, 28⟩
def SEC_STAT_gen : Fld := ⟨.SEC_STAT, 27, 26⟩
def SEC_STAT_revoked : Fld := ⟨.SEC_STAT, 25, 22⟩
def SEC_ALARM_mask : Fld := ⟨.SEC_ALARM, 23, 16⟩
def SEC_ALARM_count : Fld := ⟨.SEC_ALARM, 15, 8⟩
def SEC_ALARM_debug : Fld := ⟨.SEC_ALARM, 7, 7⟩
def SEC_ALARM_sources : Fld := ⟨.SEC_ALARM, 6, 0⟩
def SEC_SVN_svn : Fld := ⟨.SEC_SVN, 6, 0⟩
def SEC_CNT_twin_done : Fld := ⟨.SEC_CNT, 25, 24⟩
def SEC_CNT_ide_done : Fld := ⟨.SEC_CNT, 23, 16⟩
def SEC_CNT_twin_near : Fld := ⟨.SEC_CNT, 9, 8⟩
def SEC_CNT_ide_near : Fld := ⟨.SEC_CNT, 7, 0⟩
def SEC_DEBUG_issuer : Fld := ⟨.SEC_DEBUG, 3, 2⟩
def SEC_DEBUG_level : Fld := ⟨.SEC_DEBUG, 1, 0⟩
def SEC_DEBUG_NONCE_nonce : Fld := ⟨.SEC_DEBUG_NONCE, 31, 0⟩
def SEC_MEAS_m : Fld := ⟨.SEC_MEAS, 31, 0⟩
def SEC_SLOT_state : Fld := ⟨.SEC_SLOT, 31, 30⟩
def SEC_SLOT_kind : Fld := ⟨.SEC_SLOT, 29, 24⟩
def SEC_SLOT_uses : Fld := ⟨.SEC_SLOT, 15, 0⟩
def SEC_SLOT_ID_key_id : Fld := ⟨.SEC_SLOT_ID, 31, 0⟩
def CHK_CTL_reset : Fld := ⟨.CHK_CTL, 31, 31⟩
def CHK_STAT_busy : Fld := ⟨.CHK_STAT, 31, 31⟩
def CHK_STAT_baseline : Fld := ⟨.CHK_STAT, 30, 30⟩
def CHK_STAT_prev : Fld := ⟨.CHK_STAT, 15, 0⟩
def CHK_RING_BASE_base : Fld := ⟨.CHK_RING_BASE, 31, 13⟩
def CHK_RING_HEAD_head : Fld := ⟨.CHK_RING_HEAD, 7, 0⟩
def CHK_RING_TAIL_tail : Fld := ⟨.CHK_RING_TAIL, 7, 0⟩
def INT_CE_CFG_patrol : Fld := ⟨.INT_CE_CFG, 31, 16⟩
def INT_CE_CFG_row_limit : Fld := ⟨.INT_CE_CFG, 7, 0⟩
def CHK_FOLIO_CNT_crc : Fld := ⟨.CHK_FOLIO_CNT, 31, 20⟩
def CHK_FOLIO_CNT_gen : Fld := ⟨.CHK_FOLIO_CNT, 19, 8⟩
def CHK_FOLIO_CNT_dpa : Fld := ⟨.CHK_FOLIO_CNT, 7, 0⟩
def INT_POISON_overflow : Fld := ⟨.INT_POISON, 31, 31⟩
def INT_POISON_entries : Fld := ⟨.INT_POISON, 12, 0⟩
def INT_ARRAY_spares : Fld := ⟨.INT_ARRAY, 31, 24⟩
def INT_ARRAY_soft : Fld := ⟨.INT_ARRAY, 23, 16⟩
def INT_ARRAY_ce : Fld := ⟨.INT_ARRAY, 15, 0⟩
def EVT_SRC_severity : Fld := ⟨.EVT_SRC, 31, 30⟩
def EVT_SRC_core : Fld := ⟨.EVT_SRC, 29, 29⟩
def EVT_SRC_duty : Fld := ⟨.EVT_SRC, 28, 27⟩
def EVT_SRC_pbook : Fld := ⟨.EVT_SRC, 26, 26⟩
def EVT_SRC_count : Fld := ⟨.EVT_SRC, 15, 0⟩
def EVT_CORE_OVF_count : Fld := ⟨.EVT_CORE_OVF, 31, 0⟩
def PBOOK_STAT_flushing : Fld := ⟨.PBOOK_STAT, 31, 31⟩
def PBOOK_STAT_fatal : Fld := ⟨.PBOOK_STAT, 27, 14⟩
def PBOOK_STAT_held : Fld := ⟨.PBOOK_STAT, 13, 0⟩
def PBOOK_SEQ_LO_seq : Fld := ⟨.PBOOK_SEQ_LO, 31, 0⟩
def PBOOK_SEQ_HI_seq : Fld := ⟨.PBOOK_SEQ_HI, 31, 0⟩
def PBOOK_FLUSHED_LO_seq : Fld := ⟨.PBOOK_FLUSHED_LO, 31, 0⟩
def PBOOK_FLUSHED_HI_seq : Fld := ⟨.PBOOK_FLUSHED_HI, 31, 0⟩
def PBOOK_DROP_fatal : Fld := ⟨.PBOOK_DROP, 31, 24⟩
def PBOOK_DROP_fault : Fld := ⟨.PBOOK_DROP, 23, 16⟩
def PBOOK_DROP_notice : Fld := ⟨.PBOOK_DROP, 15, 8⟩
def PBOOK_DROP_info : Fld := ⟨.PBOOK_DROP, 7, 0⟩
def PBOOK_ACK_LO_seq_lo : Fld := ⟨.PBOOK_ACK_LO, 31, 0⟩
def PBOOK_ACK_HI_seq_hi : Fld := ⟨.PBOOK_ACK_HI, 31, 0⟩
def PBOOK_ACK_STAT_status : Fld := ⟨.PBOOK_ACK_STAT, 7, 0⟩
def PBOOK_FIRE_go : Fld := ⟨.PBOOK_FIRE, 31, 31⟩
def PBOOK_FIRE_trigger : Fld := ⟨.PBOOK_FIRE, 7, 0⟩
def PBOOK_WIN_page : Fld := ⟨.PBOOK_WIN, 1, 0⟩
def PBOOK_TALLY_SEL_snap : Fld := ⟨.PBOOK_TALLY_SEL, 31, 31⟩
def PBOOK_TALLY_SEL_clear : Fld := ⟨.PBOOK_TALLY_SEL, 30, 30⟩
def PBOOK_TALLY_SEL_index : Fld := ⟨.PBOOK_TALLY_SEL, 8, 0⟩
def PBOOK_TALLY_SNAP_word : Fld := ⟨.PBOOK_TALLY_SNAP, 31, 0⟩
def PBOOK_TRIG_enable : Fld := ⟨.PBOOK_TRIG, 31, 31⟩
def PBOOK_TRIG_severity : Fld := ⟨.PBOOK_TRIG, 30, 29⟩
def PBOOK_TRIG_words : Fld := ⟨.PBOOK_TRIG, 17, 12⟩
def PBOOK_TRIG_event : Fld := ⟨.PBOOK_TRIG, 11, 0⟩
def PBOOK_CAP_offset : Fld := ⟨.PBOOK_CAP, 25, 0⟩
def MAINT_REQ_go : Fld := ⟨.MAINT_REQ, 31, 31⟩
def MAINT_REQ_queue : Fld := ⟨.MAINT_REQ, 30, 30⟩
def MAINT_REQ_activity : Fld := ⟨.MAINT_REQ, 23, 16⟩
def MAINT_REQ_target : Fld := ⟨.MAINT_REQ, 15, 0⟩
def MAINT_PARAM0_param : Fld := ⟨.MAINT_PARAM0, 31, 0⟩
def MAINT_PARAM1_param : Fld := ⟨.MAINT_PARAM1, 31, 0⟩
def MAINT_PARAM2_param : Fld := ⟨.MAINT_PARAM2, 31, 0⟩
def MAINT_RES_status : Fld := ⟨.MAINT_RES, 7, 0⟩
def MAINT_JOBID_job : Fld := ⟨.MAINT_JOBID, 31, 0⟩
def MAINT_STAT_queued : Fld := ⟨.MAINT_STAT, 14, 8⟩
def MAINT_STAT_running : Fld := ⟨.MAINT_STAT, 6, 0⟩
def MAINT_ACTIVE_active : Fld := ⟨.MAINT_ACTIVE, 14, 1⟩
def MAINT_QRY_job : Fld := ⟨.MAINT_QRY, 31, 0⟩
def MAINT_QRY_RES_state : Fld := ⟨.MAINT_QRY_RES, 31, 30⟩
def MAINT_QRY_RES_activity : Fld := ⟨.MAINT_QRY_RES, 23, 16⟩
def MAINT_QRY_RES_status : Fld := ⟨.MAINT_QRY_RES, 15, 8⟩
def MAINT_QRY_RES_progress : Fld := ⟨.MAINT_QRY_RES, 7, 0⟩
def HPORT_VIOL_LAST0_valid : Fld := ⟨.HPORT_VIOL_LAST0, 31, 31⟩
def HPORT_VIOL_LAST0_store : Fld := ⟨.HPORT_VIOL_LAST0, 30, 30⟩
def HPORT_VIOL_LAST0_cause : Fld := ⟨.HPORT_VIOL_LAST0, 29, 28⟩
def HPORT_VIOL_LAST0_key : Fld := ⟨.HPORT_VIOL_LAST0, 27, 16⟩
def HPORT_VIOL_LAST0_hpa : Fld := ⟨.HPORT_VIOL_LAST0, 15, 15⟩
def HPORT_VIOL_LAST0_matched : Fld := ⟨.HPORT_VIOL_LAST0, 8, 8⟩
def HPORT_VIOL_LAST0_identity : Fld := ⟨.HPORT_VIOL_LAST0, 7, 0⟩
def HPORT_VIOL_LAST1_addr_lo : Fld := ⟨.HPORT_VIOL_LAST1, 31, 0⟩
def HPORT_VIOL_LAST2_addr_hi : Fld := ⟨.HPORT_VIOL_LAST2, 31, 0⟩
def ACC_COMMIT_go : Fld := ⟨.ACC_COMMIT, 31, 31⟩

end F

/-- The offset of instance `i` of a register, arrays of two levels being numbered row by row. -/
def RegId.off (r : RegId) (i : Nat) : Nat :=
  match r.place with
  | (b, []) => b
  | (b, [(s, _)]) => b + s * i
  | (b, (s1, _) :: (s2, c2) :: _) => b + s1 * (i / c2) + s2 * (i % c2)

/-- The instance of `r` that lies at `off`, if one does. -/
def RegId.instAt (r : RegId) (off : Nat) : Option Nat :=
  match r.place with
  | (b, []) => if off = b then some 0 else none
  | (b, [(s, c)]) =>
    if b ≤ off ∧ (off - b) % s = 0 ∧ (off - b) / s < c then some ((off - b) / s) else none
  | (b, (s1, c1) :: (s2, c2) :: _) =>
    if b ≤ off ∧ (off - b) / s1 < c1 ∧ (off - b) % s1 / s2 < c2 ∧ (off - b) % s1 % s2 = 0 then
      some ((off - b) / s1 * c2 + (off - b) % s1 / s2) else none

/-- The first register of a list that has an instance at `off`. -/
def findReg (off : Nat) : List RegId → Option (RegId × Nat)
  | [] => none
  | r :: t =>
    match r.instAt off with
    | some i => some (r, i)
    | none => findReg off t

/-- The register at an aperture offset. -/
def regAt (off : Nat) : Option (RegId × Nat) := findReg off allRegs

/-- Default allocation masks of R220. -/
def resetWaymask (n : Nat) : Nat :=
  if n ≤ 4 ∨ n = 12 then 0xFFFF else if n = 5 then 0x00FF else 0

/-- Reset values that the field tables name by a word instead of a number: fuses and the boot nonce are constants of
`Config`, the way masks are R220's, the event entries R695's and R768's. Log entries 10 to 13. -/
def RegId.special (r : RegId) (i : Nat) : Nat :=
  match r with
  | .SCACHE_WAYMASK => resetWaymask i
  | .SCL_MAP => 0xFFFFFFFF
  | .SCL_STAT => 0xF0000000
  | .SENT_BANK_FUSE => Config.fuseBank.toNat
  | .CURT_BAND => (Config.fuseBand i).toNat
  | .CURT_SEQ => (Config.fuseSeqInterval i).toNat
  | .SEC_STAT => (Config.fuseSecStat.toNat % 2 ^ 30) / 2 ^ 22 * 2 ^ 22
  | .SEC_ALARM => Config.fuseAlarmMask.toNat * 2 ^ 16
  | .SEC_SVN => min Config.fuseSvn.toNat 64
  | .SEC_DEBUG_NONCE => (Config.bootNonce 0 i).toNat
  | .PBOOK_SEQ_LO => 1
  | .EVT_SRC => evSeverity i * 2 ^ 30 + evResetDuty i * 2 ^ 27
  | _ => 0

/-- The reset word of instance `i` of a register. -/
def RegId.resetWord (r : RegId) (i : Nat) : W32 :=
  BitVec.ofNat 32 (r.fields.foldl (fun a f => a + f.reset * 2 ^ f.lo) (r.special i))

/-- Instances whose fields are RO though the array's are not: way masks of the reserved classes (R239), the ring registers of
the hardware-fed check units (R700). -/
def RegId.roInstance (r : RegId) (i : Nat) : Bool :=
  match r with
  | .SCACHE_WAYMASK => decide (16 ≤ i)
  | .CHK_RING_BASE => decide (1 ≤ i) && decide (i ≤ 3)
  | .CHK_RING_TAIL => decide (1 ≤ i) && decide (i ≤ 3)
  | _ => false

/-- Some register names show another register's value: `INK_CURT`, `TWIN_EPOCH` and `TWIN_LEASE` mirror the curtain's
registers (R209, R572, R643), so each value has one home. -/
def RegId.home (r : RegId) : RegId :=
  match r with
  | .INK_CURT => .CURT_INK
  | .TWIN_EPOCH => .CURT_EPOCH
  | r => r

end Sys2Proof.Machine
end

