-- ==== Sys2Proof/Machine/Ops.lean ====
section
/-! DEFINITION. The named operations over registers, events and the prompt book that every unit uses. -/

set_option Elab.async false

namespace Sys2Proof.Machine

/-! ### Registers -/

/-- The live word of a register (R72). -/
def State.liveWord (s : State) (r : RegId) (i : Nat) : W32 := mapGet (r.resetWord i) s.regs.live (r.off i)

/-- The word of a register in the base in force (R72). -/
def State.baseWord (s : State) (r : RegId) (i : Nat) : W32 := mapGet (r.resetWord i) s.regs.base (r.off i)

/-- Set a whole live word. -/
def State.setLive (s : State) (r : RegId) (i : Nat) (v : Nat) : State :=
  { s with regs := { s.regs with live := mapSet s.regs.live (r.off i) (BitVec.ofNat 32 v) } }

/-- Set a whole word of the base in force. -/
def State.setBase (s : State) (r : RegId) (i : Nat) (v : Nat) : State :=
  { s with regs := { s.regs with base := mapSet s.regs.base (r.off i) (BitVec.ofNat 32 v) } }

/-- A field of a register as a number. -/
def State.fld (s : State) (f : Fld) (i : Nat) : Nat := bits (s.liveWord f.reg i).toNat f.hi f.lo

/-- A one-bit field as a truth value. -/
def State.flag (s : State) (f : Fld) (i : Nat) : Bool := decide (s.fld f i ≠ 0)

/-- The hardware sets a field. -/
def State.setFld (s : State) (f : Fld) (i : Nat) (v : Nat) : State :=
  s.setLive f.reg i (setBits (s.liveWord f.reg i).toNat f.hi f.lo v)

/-- The hardware sets a one-bit field. -/
def State.setFlag (s : State) (f : Fld) (i : Nat) (b : Bool) : State := s.setFld f i (b2n b)

/-- The hardware adds to a saturating count field. -/
def State.addSat (s : State) (f : Fld) (i : Nat) (n : Nat) : State :=
  s.setFld f i (satTo (f.hi + 1 - f.lo) (s.fld f i + n))

/-- The hardware lowers a count field, not below 0. -/
def State.subFld (s : State) (f : Fld) (i : Nat) (n : Nat) : State := s.setFld f i (s.fld f i - n)

/-- The controller sets an RW field for itself: live and base, as an RW write does (R72). -/
def State.setRw (s : State) (f : Fld) (i : Nat) (v : Nat) : State :=
  (s.setFld f i v).setBase f.reg i (setBits (s.baseWord f.reg i).toNat f.hi f.lo v)

/-- The mask of the fields of `r` that have one of the given accesses. -/
def RegId.accMask (r : RegId) (as : List Access) : Nat :=
  r.fields.foldl (fun m f => if as.contains f.acc then m ||| maskOf f.hi f.lo else m) 0

/-- Registers whose field tables say that writing any 1 clears a W1C field whole; in the others, which give no such words, a
1 clears the bit it is written to (R2, R340, R700). A field of one bit is cleared alike by both. -/
def RegId.w1cWhole (r : RegId) : Bool :=
  r != .FLASH_FAIL_CNT && r != .INT_ARRAY && r != .EVT_SRC && r != .EVT_CORE_OVF

/-- The bits of the W1C fields of `r` that the written value clears (R2). -/
def RegId.w1cMask (r : RegId) (v : Nat) : Nat :=
  r.fields.foldl (fun m f =>
    if f.acc = .w1c ∧ bits v f.hi f.lo ≠ 0 then
      m ||| (if r.w1cWhole then maskOf f.hi f.lo else maskOf f.hi f.lo &&& v)
    else m) 0

/-- `old` with the bits of `m` taken from `new`. -/
def mixBits (m old new : Nat) : Nat := (old &&& (0xFFFFFFFF ^^^ (m &&& 0xFFFFFFFF))) ||| (new &&& m)

/-- The effect of a register write by access codes alone (R2, R72): RW fields take the value live and in the base, the
first write after a boundary puts the RWS fields into the base, W1C fields clear, everything else is ignored. -/
def State.regWrite (s : State) (r : RegId) (i v : Nat) : State :=
  let off := r.off i
  let rw := r.accMask [.rw]
  let rws := if s.regs.rwsTaken.contains off then 0 else r.accMask [.rws]
  let live := mixBits (r.w1cMask v) (mixBits rw (s.liveWord r i).toNat v) 0
  let base := mixBits (rw ||| rws) (s.baseWord r i).toNat v
  let s1 := (s.setLive r i live).setBase r i base
  if r.accMask [.rws] = 0 then s1
  else { s1 with regs := { s1.regs with rwsTaken := setIns s1.regs.rwsTaken off } }

/-! ### 64-bit tables and shared fields -/

/-- A 64-bit word of the tables of the REGION block, by byte offset in the aperture (R101, R171, R175). -/
def State.tab (s : State) (off : Nat) : Nat := (mapGet 0 s.region.tabs (off / 8)).toNat

/-- Set a 64-bit table word. -/
def State.setTab (s : State) (off v : Nat) : State :=
  { s with region := { s.region with tabs := mapSet s.region.tabs (off / 8) (BitVec.ofNat 64 v) } }

/-- Queue something for the outside. -/
def State.send (s : State) (o : Out) : State := { s with sent := s.sent ++ [o] }

/-- Take the next number for a free value. -/
def State.nextFresh (s : State) : State := { s with fresh := s.fresh + 1 }

/-- Whether `dur` microseconds have passed since `start` (the model's clock, log entry 2). -/
def State.due (s : State) (start dur : Nat) : Bool := decide (start + dur ≤ s.clock)

/-! ### The state of the machine as other units ask for it -/

/-- Roles of R541: 0 none, 1 LEAD, 2 UNDERSTUDY, 3 SOLO. -/
def State.role (s : State) : Nat := s.fld F.TWIN_STAT_role 0
/-- Fenced under R130. -/
def State.fenced (s : State) : Bool := s.flag F.TWIN_STAT_fenced 0
/-- The epoch in force (R543). -/
def State.epoch (s : State) : Nat := s.fld F.CURT_EPOCH_epoch 0
/-- Sentinel state: 0 NORMAL, 1 DISTURBED, 2 SAG, 3 STRIKE, 4 LOAD_IN (R575, R610). -/
def State.sentState (s : State) : Nat := s.fld F.SENT_STAT_state 0
/-- A strike runs. -/
def State.inStrike (s : State) : Bool := s.sentState == 3
/-- Load-in runs. -/
def State.inLoadIn (s : State) : Bool := s.sentState == 4
/-- Bit `n` of the active set (R90). -/
def State.sceneOn (s : State) (n : Nat) : Bool := bitB (s.fld F.SCENE_ACTIVE_set 0) n
/-- The twin link is UP or UP_DEGRADED (R530, R572). -/
def State.twinUp (s : State) : Bool := s.fld F.TWIN_STAT_link 0 == 4 || s.fld F.TWIN_STAT_link 0 == 5

/-! ### Reading registers for captures and answers -/

/-- The power cap in force in W (R606, R640): between 60 and 110. -/
def State.powerCap (s : State) : Nat := max 60 (min 110 (bits (s.liveWord .SENT_PCAP 0).toNat 6 0))

/-- The use count of a key slot (R662): folio reads in flight under it. -/
def State.slotUses (s : State) (k : Nat) : Nat :=
  (s.flash.reads.filter (fun r => match mapGet? s.flash.store ((r.quire * 16 + r.leaf) * 4 + r.slot) with
    | some c => c.key == k
    | none => false)).length

/-- Registers of a host link that does not exist: the odd link of an unsplit port (R92). -/
def State.linkAbsent (s : State) (r : RegId) (i : Nat) : Bool :=
  (r == .HPORT_CFG || r == .HPORT_STAT || r == .HPORT_VIOL_CNT || r == .HPORT_VIOL_LAST0 || r == .HPORT_VIOL_LAST1 ||
    r == .HPORT_VIOL_LAST2) && i % 2 == 1 && bits (s.liveWord .HPORT_STAT (i - 1)).toNat 1 1 == 0

/-- Registers whose value is computed: `TWIN_LEASE`, `CURT_LEASE`, the age in `TWIN_LAG`, `TWIN_DIV_EPOCH`,
`SENT_HOLDUP_E.hours` and `FWF_PWD_STAT.wait_s` follow the clock, `CURT_PCAP.cap` the cap, `SEC_SLOT.uses` the reads in
flight, `INT_POISON` the line poison table; a link that does not exist reads as zero;
the rest is the live word of the home register (R209, R572, R610, R634, R643, R662). Write-only fields read 0. -/
def State.readWord (s : State) (r : RegId) (i : Nat) : Nat :=
  let remaining := match s.twin.leaseEnd with
    | some t => min (t - s.clock) 0x3FFF
    | none => 0
  let oldest := s.twin.unacked.foldl (fun a m => match m.boundedAt with
    | some t => (match a with | some x => some (min x t) | none => some t)
    | none => a) none
  let w := (s.liveWord r.home i).toNat
  let wo := r.accMask [.wo]
  if s.linkAbsent r i then 0
  else match r with
  | .TWIN_LEASE => remaining
  | .CURT_LEASE => remaining + (if s.twin.leaseEnd.isSome && decide (remaining ≠ 0) then 0x80000000 else 0)
  | .TWIN_DIV_EPOCH => if s.twin.divMap.isEmpty then 0 else s.twin.record.divEpoch
  | .TWIN_LAG => (satTo 16 s.twin.unacked.length) * 0x10000 + (match oldest with
      | some t => satTo 16 (s.clock - t)
      | none => 0)
  | .SENT_HOLDUP_E => (match s.sen.testedAt with
      | some t => setBits w 30 18 (satTo 13 ((s.clock - t) / 3600000000))
      | none => w)
  | .CURT_PCAP => setBits w 22 16 s.powerCap
  | .FWF_PWD_STAT => (match s.core.failedAt with
      | some t =>
        let n := bits w 23 16
        let left := t + (if n = 0 then 0 else min (2 ^ (n - 1)) 64000 * 1000) - s.clock
        setBits w 15 0 ((left + 999999) / 1000000)
      | none => w)
  | .SEC_SLOT => setBits w 15 0 (satTo 16 (s.slotUses i))
  | .HPORT_CFG => if i % 2 = 1 then setBits w 1 1 0 else w
  | .INT_POISON => min s.integ.poison.length 4096 + (if s.integ.overflow.isEmpty then 0 else 0x80000000)
  | _ => mixBits wo w 0

/-- Whether an offset lies in a block that R35 assigns. -/
def offAssigned (off : Nat) : Bool := decide (off < 0x02E00000)

/-- The bits of a table word that are not reserved: a region entry's words (R172), an owner set (R175), an identity and its
windows (R101). The word's byte offset is `off`. -/
def tabMask (off : Nat) : Nat :=
  if off < 0x860000 then
    (match off % 32 / 8 with
     | 0 => maskOf 63 63 + maskOf 51 32 + maskOf 19 0
     | 1 => maskOf 55 36 + maskOf 15 7
     | 2 => maskOf 7 0
     | _ => if off < 0x840000 then 0 else maskOf 63 63 + maskOf 31 0)
  else if off < 0x880000 then maskOf 63 0
  else if off % 256 = 0 then maskOf 63 61 + maskOf 47 28 + maskOf 7 0
  else if off % 256 < 136 then maskOf 63 60 + maskOf 51 32 + maskOf 19 0
  else 0

/-- The 32-bit word at an aperture offset, without any side effect (R36, R708): a register, a table half-word, a
permit-bitmap word or a routing byte group; zero elsewhere. -/
def State.readOff (s : State) (off : Nat) : Nat :=
  if (0x800000 ≤ off ∧ off < 0x880000) ∨ (0x900000 ≤ off ∧ off < 0x920000) then
    bits (s.tab (off / 8 * 8) &&& tabMask (off / 8 * 8)) (if off % 8 < 4 then 31 else 63) (if off % 8 < 4 then 0 else 32)
  else if 0x2C40000 ≤ off ∧ off < 0x2C80000 then
    (upto 32).foldl (fun a b => if s.flash.permits.any (fun p => decide (p.1 ≤ (off - 0x2C40000) * 8 + b) &&
      decide ((off - 0x2C40000) * 8 + b < p.2)) then a + 2 ^ b else a) 0
  else if 0x2710000 ≤ off ∧ off < 0x2790000 then
    (upto 4).foldl (fun a b => a + (mapGet 0 s.evt.routes (off - 0x2710000 + b)) * 256 ^ b) 0
  else match regAt (off / 4 * 4) with
    | some (r, i) => s.readWord r i
    | none => 0

/-! ### The prompt book: records (R703 to R711) -/

/-- The next sequence (R704). -/
def State.pbSeq (s : State) : Nat := s.fld F.PBOOK_SEQ_LO_seq 0 + s.fld F.PBOOK_SEQ_HI_seq 0 * 2 ^ 32

/-- Set the next sequence. -/
def State.setPbSeq (s : State) (q : Nat) : State :=
  (s.setFld F.PBOOK_SEQ_LO_seq 0 (q % 2 ^ 32)).setFld F.PBOOK_SEQ_HI_seq 0 (q / 2 ^ 32)

/-- The lowest slot below 8,192 that holds no record (the choice among empty slots is open, log entry 20). -/
def freeSlotFrom : Nat → List (Nat × PbRecord) → Nat
  | n, [] => n
  | n, (k, _) :: t => if n < k then n else freeSlotFrom (k + 1) t

/-- Whether a record may be overwritten by one of severity `sev` (R710). -/
def pbMayOverwrite (sev : Nat) (r : PbRecord) : Bool :=
  decide (r.severity ≤ sev) && (r.severity != 3 || r.acked)

/-- The slot a new record takes (R710). -/
def pbSlotFor (ring : List (Nat × PbRecord)) (sev : Nat) : Option Nat :=
  if ring.length < 8192 then some (freeSlotFrom 0 ring)
  else
    let best := ring.foldl (fun a p =>
      if pbMayOverwrite sev p.2 then
        (match a with
         | some (_, q) => if p.2.seq < q then some (p.1, p.2.seq) else a
         | none => some (p.1, p.2.seq))
      else a) (none : Option (Nat × Nat))
    best.map (fun p => p.1)

/-- Refresh the counts of `PBOOK_STAT` from the ring (R722). -/
def State.pbCounts (s : State) : State :=
  let fatal := (s.pb.ring.filter (fun p => p.2.severity == 3 && !p.2.acked)).length
  (s.setFld F.PBOOK_STAT_held 0 s.pb.ring.length).setFld F.PBOOK_STAT_fatal 0 fatal

/-- The drop counter of a severity (R711, R722). -/
def pbDropFld (sev : Nat) : Fld :=
  match sev with
  | 0 => F.PBOOK_DROP_info
  | 1 => F.PBOOK_DROP_notice
  | 2 => F.PBOOK_DROP_fault
  | _ => F.PBOOK_DROP_fatal

/-- The writer's queue has a place for a raise of a severity: 64 places, and 16 more for FAULT and FATAL (R709). -/
def State.pbRoom (s : State) (sev : Nat) : Bool :=
  decide (s.pb.writer.length < 64) || (decide (2 ≤ sev) && decide (s.pb.writer.length < 80))

/-- What the writer still has to do after `n` ns of work (R709). -/
def writerAfter : Nat → List Nat → List Nat
  | _, [] => []
  | n, w :: t => if w ≤ n then writerAfter (n - w) t else (w - n) :: t

/-- Write one record, or count it as dropped; the flag says whether one was dropped (R704, R709, R710, R711). A record's words
are those of its raise, so it is entered in the ring at once, and its place in the queue lasts until the writer has done it
(log entry 79). -/
def State.pbWrite (s : State) (kind sev event trigger detail : Nat) (caps : List (Nat × Nat)) : State × Bool :=
  match (if s.pbRoom sev then pbSlotFor s.pb.ring sev else none) with
  | none => (s.addSat (pbDropFld sev) 0 1, true)
  | some slot =>
    let q := s.pbSeq
    let r : PbRecord := { seq := q, kind := kind, severity := sev, event := event, trigger := trigger, read := false,
                          acked := false, flushed := false, restored := false, detail := detail,
                          start := s.pb.start, captures := caps }
    let urgent := if 2 ≤ sev ∧ s.pb.urgentAt.isNone then some s.clock else s.pb.urgentAt
    let s1 := { s with pb := { s.pb with ring := mapSet s.pb.ring slot r, urgentAt := urgent,
                                         writer := s.pb.writer ++ [160] } }
    ((s1.setPbSeq (q + 1)).pbCounts, false)

/-- Enabled triggers that name an event, in ascending index (R706): only a register that has been written can be
enabled, since triggers reset to disabled. -/
def State.pbTriggers (s : State) (event : Nat) : List Nat :=
  let base := RegId.PBOOK_TRIG.off 0
  (s.regs.live.filter (fun p => decide (base ≤ p.1) && decide (p.1 < base + 1024) &&
      decide (bits p.2.toNat 31 31 = 1) && decide (bits p.2.toNat 11 0 = event))).map (fun p => (p.1 - base) / 4)

/-- The captured words of trigger `t`, in list order (R707, R708). -/
def State.pbCapture (s : State) (t : Nat) : List (Nat × Nat) :=
  (upto (min 32 (s.fld F.PBOOK_TRIG_words t))).map (fun w =>
    let off := s.fld F.PBOOK_CAP_offset (t * 32 + w) * 4
    (off, if offAssigned off then s.readOff off else 0))

/-- Create the records of one raise (R706); the flag says whether one was dropped. -/
def State.pbRecord (s : State) (event sev detail : Nat) (always : Bool) : State × Bool :=
  match s.pbTriggers event with
  | [] => if always then s.pbWrite 1 sev event 0 detail [] else (s, false)
  | ts => ts.foldl (fun (p : State × Bool) t =>
      let (s1, d) := p.1.pbWrite 2 (max sev (p.1.fld F.PBOOK_TRIG_severity t)) event t detail (p.1.pbCapture t)
      (s1, p.2 || d)) (s, false)

/-! ### Event routing (R695 to R699) -/

/-- The core that a duty falls to: its home core while that one is RUNNING, else the next RUNNING core in ascending order
modulo 4 (R615). -/
def State.dutyHolder (s : State) (duty : Nat) : Option Nat :=
  let home := bits (s.liveWord .STC_DUTY 0).toNat (2 * duty + 1) (2 * duty)
  ((upto 4).map (fun i => (home + i) % 4)).find? (fun k => s.fld F.STC_STAT_state k == 0)

/-- The duties are given out afresh (R615). -/
def State.dutiesNow (s : State) : State :=
  (upto 4).foldl (fun st k => st.setFld F.STC_STAT_duties k
    ((upto 4).foldl (fun a d => if s.dutyHolder d = some k then a + 2 ^ d else a) 0)) s

/-- The cores follow `STC_CTL.drain` and `STC_DUTY` (R615, R616, R642): a RUNNING core whose bit is 1 drains, a DRAINING one
whose bit is 0 runs again. -/
def State.coresFollow (s : State) : State :=
  ((upto 4).foldl (fun (st : State) k =>
    let d := bitB (st.fld F.STC_CTL_drain 0) k
    let x := st.fld F.STC_STAT_state k
    if x = 0 ∧ d = true then st.setFld F.STC_STAT_state k 1
    else if x = 1 ∧ d = false then st.setFld F.STC_STAT_state k 0 else st) s).dutiesNow

/-- A roll ends where it is (R639): its core drains no more. -/
def State.rollEnd (s : State) : State :=
  match s.core.roll with
  | none => s
  | some r =>
    let s1 := { s with core := { s.core with roll := none } }
    match r.current with
    | none => s1
    | some k => (s1.setRw F.STC_CTL_drain 0 (setBits (s1.fld F.STC_CTL_drain 0) k k 0)).coresFollow

/-- The stage core that holds a duty: the lowest core whose `STC_STAT.duties` has the bit, else the home core (R615). -/
def State.dutyCore (s : State) (duty : Nat) : Nat :=
  match (upto 4).find? (fun k => bitB (s.fld F.STC_STAT_duties k) duty) with
  | some k => k
  | none => bits (s.liveWord .STC_DUTY 0).toNat (2 * duty + 1) (2 * duty)

/-- Events go to the prompt book only from the freeze of the links in a strike until load-in ends (R699). -/
def State.bookOnly (s : State) : Bool := s.inStrike || s.inLoadIn

/-- Deliver to a core queue (R697); the flag says whether the entry was dropped. -/
def State.toCore (s : State) (event sev seq detail : Nat) : State × Bool :=
  if s.bookOnly || !s.flag F.EVT_SRC_core event then (s, false)
  else
    let k := s.dutyCore (s.fld F.EVT_SRC_duty event)
    let q := mapGet [] s.evt.coreQs k
    if q.length < 1024 then
      let e : CoreEntry := { event := event, severity := sev, seq := seq, detail := detail }
      (({ s with evt := { s.evt with coreQs := mapSet s.evt.coreQs k (q ++ [e]) } }).send (.coreIrq k), false)
    else (s.addSat F.EVT_CORE_OVF_count k 1, true)

/-- Append to the log of one logical device and signal its vector (R698). -/
def State.toHost (s : State) (event sev seq detail n byte : Nat) : State :=
  let key := n * 4 + sev
  let log := mapGet { recs := [], lost := 0 } s.evt.logs key
  let again := log.recs.any (fun e => e.event == event)
  let log' : LdLog :=
    if log.recs.length < 256 then { log with recs := log.recs ++ [{ event := event, severity := sev, seq := seq,
                                                                    detail := detail }] }
    else { log with lost := log.lost + 1 }
  let s1 := { s with evt := { s.evt with logs := mapSet s.evt.logs key log' } }
  if again then s1 else s1.send (.msix n (byte % 64))

/-- Deliver to every logical device whose routing byte enables the event (R698, R699). -/
def State.toHosts (s : State) (event sev seq detail : Nat) : State :=
  if s.bookOnly then s
  else s.evt.routes.foldl (fun st p =>
    if p.1 % 4096 = event ∧ 128 ≤ p.2 then st.toHost event sev seq detail (p.1 / 4096) p.2 else st) s

/-- Whether a once-per-second marker allows another raise. -/
def State.secondOver (s : State) (at_ : Option Nat) : Bool :=
  match at_ with
  | none => true
  | some t => decide (t + 1000000 ≤ s.clock)

/-- EVT_OVERFLOW, never delivered to a core queue, at most once per second (R697). -/
def State.raiseOverflow (s : State) : State :=
  if s.secondOver s.evt.overflowAt then
    let e := Ev.EVT_OVERFLOW
    let s1 := ({ s with evt := { s.evt with overflowAt := some s.clock } }).addSat F.EVT_SRC_count e 1
    let seq := s1.pbSeq
    let s2 := (s1.pbRecord e 1 0 (s1.flag F.EVT_SRC_pbook e)).1
    s2.toHosts e 1 seq 0
  else s

/-- PBOOK_DROPPED, never recorded, at most once per second (R711). -/
def State.raiseDropped (s : State) : State :=
  if s.secondOver s.pb.droppedAt then
    let e := Ev.PBOOK_DROPPED
    let s1 := ({ s with pb := { s.pb with droppedAt := some s.clock } }).addSat F.EVT_SRC_count e 1
    let (s2, ovf) := s1.toCore e 1 0 0
    let s3 := s2.toHosts e 1 0 0
    if ovf then s3.raiseOverflow else s3
  else s

/-- Raise an event of a given severity with its detail: count it, record it, and deliver it to every destination in
the same step (R695 to R698, R706). -/
def State.raiseSev (s : State) (event sev detail : Nat) (record : Bool) : State :=
  let s1 := s.addSat F.EVT_SRC_count event 1
  let seq := s1.pbSeq
  let (s2, dropped) := s1.pbRecord event sev detail (record || decide (2 ≤ sev) || s1.flag F.EVT_SRC_pbook event)
  let at_ := if s2.pbSeq = seq then 0 else seq
  let (s3, ovf) := s2.toCore event sev at_ detail
  let s4 := s3.toHosts event sev at_ detail
  let s5 := if dropped then s4.raiseDropped else s4
  if ovf then s5.raiseOverflow else s5

/-- Raise an event with a detail (R695). -/
def State.raiseD (s : State) (event detail : Nat) : State := s.raiseSev event (evSeverity event) detail false

/-- Raise an event without a detail. -/
def State.raise (s : State) (event : EvId) : State := s.raiseD event 0

/-- The controller asks for a change of its own scene bits (R774): it waits behind what is pending. -/
def State.sceneChange (s : State) (setBits clearBits : Nat) : State :=
  let active := s.fld F.SCENE_ACTIVE_set 0
  if s.scene.waiting.isEmpty && (active ||| setBits) == active && active &&& clearBits == 0 then s
  else ({ s with scene := { s.scene with waiting := s.scene.waiting ++ [Boundary.change setBits clearBits] } }).setFlag
    F.SCENE_STAT_busy 0 true

/-! ### Tallies (R719 to R721) -/

/-- An empty tally. -/
def Tally.empty : Tally := { count := 0, sum := 0, least := 2 ^ 64 - 1, greatest := 0, buckets := [] }

/-- The bit length of a number below 2^64. -/
def bitLen (v : Nat) : Nat := if v = 0 then 0 else Nat.log2 v + 1

/-- One sample updates every field of the tally (R720). -/
def Tally.sample (t : Tally) (v : Nat) : Tally :=
  let b := min 31 (bitLen v)
  { count := satTo 64 (t.count + 1), sum := satTo 64 (t.sum + v), least := min t.least v,
    greatest := max t.greatest v,
    buckets := mapSet t.buckets b (satTo 32 (mapGet 0 t.buckets b + 1)) }

/-- Sample a tally by index. -/
def State.sample (s : State) (idx v : Nat) : State :=
  { s with pb := { s.pb with tallies := mapSet s.pb.tallies idx ((mapGet Tally.empty s.pb.tallies idx).sample v) } }

/-- The 160 bytes of a tally record (R719). -/
def Tally.bytes (t : Tally) : List Byte :=
  leBytes 8 t.count ++ leBytes 8 t.sum ++ leBytes 8 t.least ++ leBytes 8 t.greatest ++
    (upto 32).flatMap (fun k => leBytes 4 (mapGet 0 t.buckets k))

/-- The 512 bytes of a prompt-book record (R703). -/
def PbRecord.bytes (r : PbRecord) : List Byte :=
  leBytes 8 r.seq ++ leBytes 1 r.kind ++ leBytes 1 r.severity ++ leBytes 2 r.event ++ leBytes 1 r.trigger ++
    leBytes 1 (if r.kind = 2 then min 32 r.captures.length else 0) ++
    leBytes 1 (b2n r.read + 2 * b2n r.acked + 4 * b2n r.flushed + 8 * b2n r.restored) ++ leBytes 1 0 ++
    leBytes 8 r.detail ++ leBytes 4 r.start ++ leBytes 4 0 ++
    (upto 32).flatMap (fun k => match r.captures[k]? with
      | some (o, v) => leBytes 4 o ++ leBytes 4 v
      | none => leBytes 8 0) ++ leBytes 216 0 ++ leBytes 8 r.seq

/-! ### Status codes of R4 -/

namespace St
def DONE : Nat := 0x00
def RETRY_LATER : Nat := 0x01
def ABORTED : Nat := 0x02
def ALREADY_DONE : Nat := 0x03
def STALE_TICKET : Nat := 0x04
def NOT_RESIDENT : Nat := 0x05
def POISONED : Nat := 0x06
def LOST : Nat := 0x07
def KEY_LOST : Nat := 0x08
def ACCESS_DENIED : Nat := 0x09
def BOUNDS : Nat := 0x0A
def BANK_SELF : Nat := 0x0B
def REKEY_REQUIRED : Nat := 0x0C
def CONFLICT : Nat := 0x0D
def TIMEOUT : Nat := 0x0E
def FENCED : Nat := 0x0F
def QUEUE_FULL : Nat := 0x10
def ENGINE_FAULT : Nat := 0x11
def ILLEGAL : Nat := 0x12
def CURTAIN_DENIED : Nat := 0x13
def UNSUPPORTED : Nat := 0x14
end St

/-- Answer a vendor mailbox command: return code Success, byte 0 the status, then the output (R127, R128). -/
def State.answer (s : State) (mb opcode status : Nat) (output : List Byte) : State :=
  s.send (.mailbox mb opcode .success (BitVec.ofNat 8 status :: output))

/-! ### Links that leave the active state (R98, R139) -/

/-- A link leaves the active state. -/
def State.linkLeave (s : State) (link : Nat) : State :=
  if s.flag F.HPORT_STAT_up link && decide (link < 8) then
    (((((s.setFlag F.HPORT_STAT_up link false).setFld F.HPORT_STAT_width link 0).setFld F.HPORT_STAT_speed link 0).setFlag
      F.HPORT_STAT_flit_lo link false).setFlag F.HPORT_STAT_cxl link false).raise (Ev.LINK_DOWN link)
  else s

/-- A link that `HPORT_CFG.enable` holds in electrical idle is not active (R98). -/
def State.linksIdle (s : State) : State :=
  (upto 8).foldl (fun st n => if st.flag F.HPORT_CFG_enable n then st else st.linkLeave n) s

end Sys2Proof.Machine
end

