-- ==== Sys2Proof/Machine/Regions.lean ====
section
/-! DEFINITION. The region, owner-set and access tables (R101 to R106, R171 to R182): reading them, checking a shadow
set, and the access check. -/

set_option Elab.async false

namespace Sys2Proof.Machine

/-! ### Table words -/

/-- Word `w` of region entry `r`, live or shadow (R171). -/
def State.regionWord (s : State) (live : Bool) (r w : Nat) : Nat :=
  s.tab ((if live then 0x840000 else 0x800000) + r * 0x20 + w * 8)

/-- A region entry as its three written words (R172). -/
structure Rgn where
  idx : Nat
  w0 : Nat
  w1 : Nat
  w2 : Nat
deriving DecidableEq, Repr

/-- The region entry `r`. -/
def State.rgn (s : State) (live : Bool) (r : Nat) : Rgn :=
  { idx := r, w0 := s.regionWord live r 0, w1 := s.regionWord live r 1, w2 := s.regionWord live r 2 }

def Rgn.valid (e : Rgn) : Bool := bitB e.w0 63
def Rgn.limit (e : Rgn) : Nat := bits e.w0 51 32
def Rgn.base (e : Rgn) : Nat := bits e.w0 19 0
def Rgn.owner (e : Rgn) : Nat := bits e.w1 55 46
def Rgn.stall (e : Rgn) : Nat := bits e.w1 45 40
def Rgn.blotDelay (e : Rgn) : Nat := bits e.w1 39 36
def Rgn.staged (e : Rgn) : Bool := bitB e.w1 15
def Rgn.persistent (e : Rgn) : Bool := bitB e.w1 14
/-- 0 NONE, 1 BOUNDED, 2 SYNC, 3 reserved. -/
def Rgn.mirror (e : Rgn) : Nat := bits e.w1 13 12
/-- 0 WB, 1 WT, 2 WNA, 3 UC. -/
def Rgn.policy (e : Rgn) : Nat := bits e.w1 11 10
/-- 0 PRIVATE, 1 SHARED_BI, 2 SHARED_SW, 3 reserved. -/
def Rgn.coherence (e : Rgn) : Nat := bits e.w1 9 8
def Rgn.poisonMiss (e : Rgn) : Bool := bitB e.w1 7
def Rgn.key (e : Rgn) : Nat := bits e.w2 7 0
/-- The stall bound in microseconds (R172: 0 selects 200 µs). -/
def Rgn.stallUs (e : Rgn) : Nat := if e.stall = 0 then 200 else e.stall * 10
def Rgn.granules (e : Rgn) : Nat := e.limit + 1 - e.base

/-- The valid regions of a copy, in ascending index. -/
def State.validRegions (s : State) (live : Bool) : List Rgn :=
  let b := if live then 0x840000 else 0x800000
  (s.region.tabs.filter (fun p => decide (b ≤ p.1 * 8) && decide (p.1 * 8 < b + 0x20000) &&
    decide (p.1 * 8 % 32 = 0) && bitB p.2.toNat 63)).map (fun p => s.rgn live ((p.1 * 8 - b) / 32))

/-- The valid region of a granule. -/
def State.regionOf (s : State) (live : Bool) (g : Nat) : Option Rgn :=
  (s.validRegions live).find? (fun e => decide (e.base ≤ g) && decide (g ≤ e.limit))

/-- The live region of a data DPA. -/
def State.regionAt (s : State) (dpa : Nat) : Option Rgn := s.regionOf true (dpa / 2 ^ 28)

/-- An owner set as a 256-bit number (R175). -/
def State.ownerSet (s : State) (live : Bool) (i : Nat) : Nat :=
  let b := (if live then 0x870000 else 0x860000) + i * 0x20
  s.tab b + s.tab (b + 8) * 2 ^ 64 + s.tab (b + 16) * 2 ^ 128 + s.tab (b + 24) * 2 ^ 192

/-- The identity entry `i` (R101). -/
def State.identity (s : State) (live : Bool) (i : Nat) : Nat :=
  s.tab ((if live then 0x910000 else 0x900000) + i * 0x100)

/-- Window `w` of identity `i` (R101). -/
def State.window (s : State) (live : Bool) (i w : Nat) : Nat :=
  s.tab ((if live then 0x910000 else 0x900000) + i * 0x100 + 8 + w * 8)

/-- Identities with anything in their 256 bytes, in ascending index. -/
def State.identities (s : State) (live : Bool) : List Nat :=
  let b := if live then 0x910000 else 0x900000
  (s.region.tabs.filter (fun p => decide (b ≤ p.1 * 8) && decide (p.1 * 8 < b + 0x10000))).foldl
    (fun a p => setIns a ((p.1 * 8 - b) / 256)) []

/-- Whether an identity is valid and an admin (R101). -/
def State.isAdmin (s : State) (i : Nat) : Bool := bitB (s.identity true i) 63 && bitB (s.identity true i) 62

/-- `mirror_pending` of a live region (R172). -/
def State.mirrorPending (s : State) (r : Nat) : Bool := bitB (s.regionWord true r 3) 63

/-- Set `mirror_pending`. -/
def State.setMirrorPending (s : State) (r : Nat) (b : Bool) : State :=
  s.setTab (0x840000 + r * 32 + 24) (setBits (s.regionWord true r 3) 63 63 (b2n b))

/-- The mirror mode a region behaves with: NONE while `mirror_pending` is 1 (R179). -/
def State.mirrorOf (s : State) (e : Rgn) : Nat := if s.mirrorPending e.idx then 0 else e.mirror

/-! ### The access check (R105, R106, R767) -/

/-- Personality in force of a link: 0 SLD, 1 MLD, 2 GFD (R96). -/
def State.linkMode (s : State) (link : Nat) : Nat := mapGet 0 s.host.modes link

/-- A link reset puts the configured personality in force; the reserved value is taken as SLD (R96, R98). -/
def State.setMode (s : State) (link : Nat) : State :=
  let m := s.fld F.HPORT_CFG_mode link
  { s with host := { s.host with modes := mapSet s.host.modes link (if m = 3 then 0 else m) } }

/-- Whether identity entry `v` matches a request of `key` on `link` (R101). -/
def State.idMatches (s : State) (v link key : Nat) : Bool :=
  let gfd := s.linkMode link == 2
  bitB v 63 && (bitB v 61 == gfd) && bitB v (40 + link) &&
    (if gfd then bits v 39 28 == key else bits v 31 28 == key)

/-- The identity that a request matches (R101). -/
def State.matchIdentity (s : State) (link key : Nat) : Option Nat :=
  (s.identities true).find? (fun i => s.idMatches (s.identity true i) link key)

/-- Whether a window word grants a right over a granule: `rightBit` is 62 read, 61 write, 60 script. -/
def winGrants (w g rightBit : Nat) : Bool :=
  bitB w 63 && bitB w rightBit && decide (bits w 19 0 ≤ g) && decide (g ≤ bits w 51 32)

/-- The first window of the identity that grants the right over the DPA (R105). -/
def State.windowFor (s : State) (i dpa rightBit : Nat) : Option Nat :=
  if dpa < 2 ^ 48 then (upto 16).find? (fun w => winGrants (s.window true i w) (dpa / 2 ^ 28) rightBit) else none

/-- Whether the link serves CXL.mem as far as IDE goes (R105). -/
def State.ideOk (s : State) (link : Nat) : Bool :=
  !s.flag F.HPORT_CFG_ide_req link || s.flag F.HPORT_STAT_ide_secure link

/-- Record a violation and raise ACCESS_VIOLATION (R106, R767). -/
def State.violation (s : State) (link key : Nat) (store hpa : Bool) (ident : Option Nat) (cause addr : Nat) : State :=
  let w0 := 2 ^ 31 + b2n store * 2 ^ 30 + cause * 2 ^ 28 + (key % 4096) * 2 ^ 16 + b2n hpa * 2 ^ 15 +
    (match ident with
     | some i => 2 ^ 8 + i
     | none => 0)
  let s1 := s.addSat F.HPORT_VIOL_CNT_count link 1
  let s2 := ((s1.setLive .HPORT_VIOL_LAST0 link w0).setLive .HPORT_VIOL_LAST1 link (addr % 2 ^ 32)).setLive
    .HPORT_VIOL_LAST2 link (addr / 2 ^ 32)
  s2.raiseD Ev.ACCESS_VIOLATION addr

/-! ### HDM decoders (R107 to R110) -/

/-- The device a decoder belongs to: the logical device in SLD and MLD, 128 + identity in GFD (R107). -/
def State.hdmDevice (s : State) (link key : Nat) : Nat :=
  if s.linkMode link = 2 then
    (match s.matchIdentity link key with
     | some i => 128 + i
     | none => 128 + 256)
  else link * 16 + key

/-- DPA offset within a decoder of an HPA offset, for `ways` and `granularity` (R108; the CXL 3.1 arithmetic, log
entry 30): granularity chunks are dealt round the ways, this device keeps one chunk in `ways`. -/
def hdmOffset (off ways granularity : Nat) : Nat :=
  off / (granularity * ways) * granularity + off % granularity

/-- DPA base of decoder `k` of a device: the skips and DPA lengths of the decoders before it, and its own skip. -/
def State.hdmDpaBase (s : State) (dev k : Nat) : Nat :=
  (upto k).foldl (fun a j => match mapGet? s.host.decoders (dev * 8 + j) with
    | some d => if d.committed then a + d.skip + d.size / d.ways else a
    | none => a) 0 + (match mapGet? s.host.decoders (dev * 8 + k) with
    | some d => d.skip
    | none => 0)

/-- Translate an HPA (R107, R110). -/
def State.hdmTranslate (s : State) (dev hpa : Nat) : Option Nat :=
  (upto 8).findSome? (fun k => match mapGet? s.host.decoders (dev * 8 + k) with
    | some d =>
      if d.committed && decide (d.base ≤ hpa) && decide (hpa < d.base + d.size) then
        some (s.hdmDpaBase dev k + hdmOffset (hpa - d.base) d.ways d.granularity)
      else none
    | none => none)

/-! ### Checking a shadow set (R103, R173, R177 to R179, R208) -/

/-- Reserved fields of a region entry are zero (R172). -/
def Rgn.reservedZero (e : Rgn) : Bool :=
  bits e.w0 62 52 == 0 && bits e.w0 31 20 == 0 && bits e.w1 63 56 == 0 && bits e.w1 35 16 == 0 &&
    bits e.w1 6 0 == 0 && bits e.w2 63 8 == 0

/-- R173, without the shared-granule condition. -/
def State.wellFormedRgn (s : State) (e : Rgn) : Bool :=
  decide (e.base ≤ e.limit) && (e.stall == 0 || (decide (2 ≤ e.stall) && decide (e.stall ≤ 50))) &&
    e.mirror != 3 && e.coherence != 3 && (e.persistent || (!e.staged && e.mirror == 0)) &&
    (e.coherence != 0 || popN 256 (s.ownerSet false e.owner) == 1) && e.reservedZero

/-- Two entries share a granule. -/
def Rgn.overlaps (a b : Rgn) : Bool := decide (a.base ≤ b.limit) && decide (b.base ≤ a.limit)

/-- R179: what a commit may change of a region valid in both copies. -/
def Rgn.mayBecome (old new : Rgn) : Bool :=
  old.base == new.base && old.limit == new.limit && old.staged == new.staged && old.persistent == new.persistent &&
    old.coherence == new.coherence && old.key == new.key

/-- R664: a commit that makes a PERSISTENT region valid needs its key slot in 0 to 223 and loaded. -/
def State.keySlotOk (s : State) (e : Rgn) : Bool :=
  !e.persistent || (s.rgn true e.idx).valid || (decide (e.key < 224) && s.fld F.SEC_SLOT_state e.key == 1)

/-- Total DRAM frames of the twelve channels (R207, R244). -/
def State.dramFrames (s : State) : Nat := (upto 12).foldl (fun a c => a + s.fld F.DMC_GEOM_cap_gib c * 16384) 0

/-- Logical devices in use (R207; reading of log entry 31): one per SLD link, `ld_count` + 1 per MLD link, 16 per GFD
link, over the enabled links. -/
def State.ldsInUse (s : State) : Nat :=
  (upto 8).foldl (fun a n =>
    if s.flag F.HPORT_CFG_enable n then
      a + (match s.linkMode n with
           | 1 => s.fld F.HPORT_CFG_ld_count n + 1
           | 2 => 16
           | _ => 1)
    else a) 0

/-- Frames that R207 reserves before the staged pool, for a given list of regions and pair-pool size. -/
def State.reservedFrames (s : State) (rs : List Rgn) (pair : Nat) : Nat :=
  let pers := rs.foldl (fun a e => if e.persistent then a + e.granules else a) 0
  let resid := rs.foldl (fun a e => if e.staged then a else a + e.granules) 0
  2 * (128 + pers) + 2 * 65536 + s.ldsInUse * 4096 + 65536 + s.dram.retired.length + pair + resid * 4096

/-- R208: the capacity rules over the shadow regions. DESIGN CHOICE (log entry 49): the pair pool counts with the frames that it
holds (PAIR_STAT), not with INK_LIMIT, where the two differ. -/
def State.capacityOk (s : State) (rs : List Rgn) : Bool :=
  let pers := rs.foldl (fun a e => if e.persistent then a + e.granules else a) 0
  let floor := if rs.any (fun e => e.staged) then 262144 else 0
  decide (pers ≤ s.fld F.REGION_CAP_granules 0) &&
    decide (s.reservedFrames rs (s.fld F.PAIR_STAT_frames 0) + floor ≤ s.dramFrames)

/-- What a check of a commit found: status, kind and entry of `REGION_CMT_STAT` (R178). -/
structure CommitFinding where
  status : Nat
  kind : Nat
  entry : Nat
deriving DecidableEq, Repr

/-- Stage 1 of R178: the first shadow region that breaks R173, R179 or R664, then the capacity rules. -/
def State.commitStage1 (s : State) : Option CommitFinding :=
  let rs := s.validRegions false
  let bad := rs.find? (fun e =>
    !s.wellFormedRgn e || rs.any (fun o => decide (o.idx < e.idx) && o.overlaps e) ||
      ((s.rgn true e.idx).valid && !(s.rgn true e.idx).mayBecome e) || !s.keySlotOk e)
  match bad with
  | some e => some { status := St.ILLEGAL, kind := 0, entry := e.idx }
  | none => if s.capacityOk rs then none else some { status := St.ILLEGAL, kind := 3, entry := 0 }

/-- Granules `g … last` lie in shadow regions whose owner set includes identity `i` (R103). -/
def State.covered (s : State) (i : Nat) : Nat → Nat → Nat → Bool
  | 0, _, _ => false
  | fuel + 1, g, last =>
    if last < g then true
    else match s.regionOf false g with
      | some e => bitB (s.ownerSet false e.owner) i && s.covered i fuel (e.limit + 1) last
      | none => false

/-- R103 for one identity: its windows, its reserved fields, and no clash with a lower identity. -/
def State.identityOk (s : State) (i : Nat) : Bool :=
  let v := s.identity false i
  let n := (s.validRegions false).length + 1
  let wins := (upto 16).all (fun w =>
    let e := s.window false i w
    bits e 59 52 == 0 && bits e 31 20 == 0 &&
      (!bitB e 63 || (decide (bits e 19 0 ≤ bits e 51 32) && s.covered i n (bits e 19 0) (bits e 51 32))))
  let rest := (upto 15).all (fun k => s.tab (0x900000 + i * 0x100 + 136 + k * 8) == 0)
  let clash := (s.identities false).any (fun j =>
    let u := s.identity false j
    decide (j < i) && bitB u 63 && bitB v 63 && (bitB u 61 == bitB v 61) && (bits u 47 40 &&& bits v 47 40) != 0 &&
      (if bitB v 61 then bits u 39 28 == bits v 39 28 else bits u 31 28 == bits v 31 28))
  bits v 60 48 == 0 && bits v 27 8 == 0 && wins && rest && !clash

/-- R177: owner-set indexes to which a region that was live gains an identity, when the request is no ACCESS_COMMIT. -/
def State.ownersGained (s : State) : List Nat :=
  (s.validRegions false).foldl (fun a e =>
    let old := s.rgn true e.idx
    if old.valid then
      let before := s.ownerSet true old.owner
      let after := s.ownerSet false e.owner
      if after &&& (2 ^ 256 - 1 - before) != 0 then setIns a e.owner else a
    else a) []

/-- Stage 2 of R178: R103 over the identities, then R177 over the owner sets. -/
def State.commitStage2 (s : State) (by_ : Committer) : Option CommitFinding :=
  match (s.identities false).find? (fun i => !s.identityOk i) with
  | some i => some { status := St.CURTAIN_DENIED, kind := 2, entry := i }
  | none =>
    let judged := match by_ with
      | .mailbox _ => false
      | .twin _ => false
      | _ => true
    match (if judged then s.ownersGained else []) with
    | o :: _ => some { status := St.CURTAIN_DENIED, kind := 1, entry := o }
    | [] => none

/-- Both stages of R178. -/
def State.commitCheck (s : State) (by_ : Committer) : Option CommitFinding :=
  match s.commitStage1 with
  | some f => some f
  | none => s.commitStage2 by_

end Sys2Proof.Machine
end

