-- ==== Sys2Proof/Machine/Memory.lean ====
section
/-! DEFINITION. Where data is: folios and their frames, the DRAM channels with their merge buffers and second copies, and
the system cache (R183 to R196, R211 to R220, R228 to R231, R244, R261 to R263). -/

set_option Elab.async false

namespace Sys2Proof.Machine

/-! ### Folios and frames -/

/-- The folio that no map page has an entry for yet: a STAGED folio is ABSENT, a RESIDENT one is present and clean, of
generation 0 (R185). -/
def Folio.init (staged : Bool) : Folio :=
  { state := if staged then .absent else .clean, quire := 0, leaf := 0, slot := 0, gen := 0, frame := 0, lost := false, gone := false,
    dirtyAt := 0, heldAt := none, ahead := none, second := none, pairFrame := none, dramLines := 0, heldLines := 0, ref := false, pins := 0 }

/-- The folio-map entry of folio `f` (DPA / 65,536). -/
def State.folio (s : State) (f : Nat) : Folio :=
  match mapGet? s.ink.folios f with
  | some x => x
  | none => Folio.init (match s.regionAt (f * 65536) with
    | some e => e.staged
    | none => true)

/-- Set a folio-map entry. -/
def State.setFolio (s : State) (f : Nat) (x : Folio) : State :=
  { s with ink := { s.ink with folios := mapSet s.ink.folios f x } }

/-- Frames in use beside the fixed areas: present folios, second copies and held lines, VOLATILE data, map pages, retired
frames. -/
def State.usedFrames (s : State) : List Nat :=
  (s.ink.folios.filter (fun p => p.2.state != .absent)).map (fun p => p.2.frame) ++
    s.ink.folios.filterMap (fun p => p.2.pairFrame) ++ s.dram.volFrames.map (fun p => p.2) ++
    s.dram.mapPages.flatMap (fun p => p.2) ++ s.dram.retired

/-- A frame lies in the granule table or in the journal area (R207). -/
def State.inArea (s : State) (fr : Nat) : Bool :=
  s.dram.areas.any (fun a => a.2.1 == fr % 12 && decide (a.2.2.1 ≤ fr / 12) && decide (fr / 12 < a.2.2.1 + a.2.2.2))

/-- The channel of a frame (R244). -/
def chanOf (frame : Nat) : Nat := frame % 12

/-- The partner channel (R193). -/
def partner (c : Nat) : Nat := (c + 6) % 12

/-- A channel is frozen (R272). -/
def State.chanFrozen (s : State) (c : Nat) : Bool := s.flag F.DMC_STAT_frozen c

/-- The lowest place from `k` on of channel `c` that no frame of `mine` and no area of `areas` (first place, size) takes; the
fuel is one more than there are of both. -/
def nextFree (c : Nat) (mine : List Nat) (areas : List (Nat × Nat)) : Nat → Nat → Option Nat
  | 0, _ => none
  | n + 1, k =>
    match areas.find? (fun a => decide (a.1 ≤ k) && decide (k < a.1 + a.2)) with
    | some a => nextFree c mine areas n (a.1 + a.2)
    | none => if mine.contains (c + 12 * k) then nextFree c mine areas n (k + 1) else some k

/-- The lowest free frame of a channel (the choice within a channel is open, log entry 21). -/
def State.freeInChan (s : State) (used : List Nat) (c : Nat) : Option Nat :=
  let mine := used.filter (fun f => f % 12 == c)
  let areas := (s.dram.areas.filter (fun a => a.2.1 == c)).map (fun a => a.2.2)
  match nextFree c mine areas (mine.length + areas.length + 1) 0 with
  | some k => if k < s.fld F.DMC_GEOM_cap_gib c * 16384 then some (c + 12 * k) else none
  | none => none

/-- Take a free frame of a channel that `ok` lets through, channels in round robin, skipping frozen and spent ones. -/
def State.takeFrameOf (s : State) (ok : Nat → Bool) : Option (Nat × State) :=
  let used := s.usedFrames
  match (upto 12).findSome? (fun k =>
      let c := (s.dram.rr + k) % 12
      if s.chanFrozen c || !ok c then none else (s.freeInChan used c).map (fun f => (c, f))) with
  | some (c, f) => some (f, { s with dram := { s.dram with rr := (c + 1) % 12 } })
  | none => none

/-- Take a free frame of any channel (R275, R386). -/
def State.takeFrame (s : State) : Option (Nat × State) := s.takeFrameOf (fun _ => true)

/-- The frame that holds a data DPA, if it is present. -/
def State.frameAt (s : State) (dpa : Nat) : Option Nat :=
  match mapGet? s.dram.volFrames (dpa / 65536) with
  | some f => some f
  | none => match mapGet? s.ink.folios (dpa / 65536) with
    | some x => if x.state == .absent then none else some x.frame
    | none => none

/-- Give a RESIDENT or VOLATILE folio its frame at its first use (log entry 21: frames are pinned at the commit, the
model names them when first touched). -/
def State.touch (s : State) (e : Rgn) (f : Nat) : State :=
  if e.staged || (s.frameAt (f * 65536)).isSome then s
  else match s.takeFrame with
    | some (fr, s1) =>
      if e.persistent then s1.setFolio f { s1.folio f with frame := fr }
      else { s1 with dram := { s1.dram with volFrames := mapSet s1.dram.volFrames f fr } }
    | none => s

/-- The channel that serves a data DPA; channel 0 before the folio has a frame. -/
def State.chanAt (s : State) (dpa : Nat) : Nat :=
  match s.frameAt dpa with
  | some f => chanOf f
  | none => 0

/-- The line index of a frame's line within its channel (R245). -/
def lineIndex (frame line : Nat) : Nat := frame / 12 * 1024 + line % 1024

/-- Where a line of a frame lies in its channel, by the table of R245. -/
structure DramPlace where
  sub : Nat
  bg : Nat
  bank : Nat
  column : Nat
  rank : Nat
  dimm : Nat
  row : Nat
deriving DecidableEq, Repr

/-- The table of R245 for line index `m` of channel `c`. -/
def State.dramPlace (s : State) (c m : Nat) : DramPlace :=
  let nr := if s.fld F.DMC_GEOM_ranks c = 2 then 1 else 0
  let nd := if s.fld F.DMC_GEOM_dimms c = 2 then 1 else 0
  { sub := m % 2, bg := m / 2 % 8, bank := m / 16 % 4, column := m / 64 % 128, rank := m / 2 ^ 13 % 2 ^ nr,
    dimm := m / 2 ^ (13 + nr) % 2 ^ nd, row := m / 2 ^ (13 + nr + nd) }

/-- Word 1 of R283 for a place. -/
def DramPlace.word1 (p : DramPlace) : Nat :=
  (p.row % 2 ^ 18) * 2 ^ 14 + p.column * 2 ^ 7 + p.bg * 2 ^ 4 + p.bank * 2 ^ 2 + p.rank * 2 + p.dimm

/-- A row by its place: word 1 of R283 with the column left out, and the subchannel above it (R245, R267). -/
def DramPlace.rowKey (p : DramPlace) : Nat := { p with column := 0 : DramPlace }.word1 + p.sub * 2 ^ 32

/-- A channel as the start leaves it. -/
def Chan.init : Chan :=
  { trained := false, lastPause := 0, pauseDue := none, pauseTemp := 0, lateRaised := false, repairing := false,
    lastReq := 0, rowCe := [], repairs := [], full := false, failRow := 0 }
def State.chan (s : State) (c : Nat) : Chan := mapGet Chan.init s.dram.chans c
def State.setChan (s : State) (c : Nat) (x : Chan) : State :=
  { s with dram := { s.dram with chans := mapSet s.dram.chans c x } }

/-- A request reaches the channel of a DPA: the channel leaves intermission self-refresh (R257). -/
def State.wakeChan (s : State) (dpa : Nat) : State :=
  let c := s.chanAt dpa
  (s.setChan c { s.chan c with lastReq := s.clock }).setFlag F.DMC_STAT_in_sr c false

/-! ### Ink (R189 to R192) -/

/-- Add to the ink count and to the region's dirty folios. -/
def State.addInk (s : State) (r : Option Nat) (n : Nat) : State :=
  let s1 := s.addSat F.INK_CNT_ink 0 n
  match r with
  | some i => s1.setTab (0x840000 + i * 32 + 24)
      (setBits (s1.regionWord true i 3) 31 0 (bits (s1.regionWord true i 3) 31 0 + n))
  | none => s1

/-- Lower the ink count and the region's dirty folios. -/
def State.subInk (s : State) (r : Option Nat) (n : Nat) : State :=
  let s1 := s.subFld F.INK_CNT_ink 0 n
  match r with
  | some i => s1.setTab (0x840000 + i * 32 + 24)
      (setBits (s1.regionWord true i 3) 31 0 (bits (s1.regionWord true i 3) 31 0 - n))
  | none => s1

/-- The region index of a folio. -/
def State.folioRgn (s : State) (f : Nat) : Option Nat := (s.regionAt (f * 65536)).map (fun e => e.idx)

/-- A folio marked LOST that nothing can read or write until the twin repairs it (R364, R277). -/
def Folio.isLost (x : Folio) : Bool := x.lost && (x.state == .absent || x.gone)

/-- Whether a folio counts as ink (R189). -/
def Folio.isInk (x : Folio) : Bool :=
  x.state == .dirty || x.state == .blotting || (x.heldLines != 0)

/-- A store was applied to a present folio: CLEAN becomes DIRTY ink, BLOTTING becomes DIRTY (R190, R201, R383, R384). -/
def State.dirtyFolio (s : State) (f : Nat) : State :=
  let x := s.folio f
  match x.state with
  | .dirty => s.setFolio f { x with ref := true }
  | .blotting => s.setFolio f { x with state := .dirty, dirtyAt := s.clock, ref := true }
  | _ =>
    let s1 := s.setFolio f { x with state := .dirty, dirtyAt := s.clock, ref := true }
    if x.isInk then s1 else s1.addInk (s1.folioRgn f) 1

/-- Whether the ink of a region is held in two channels (R20): all of it in SOLO, that of NONE regions in LEAD and
UNDERSTUDY, and a region whose commit waits for second copies (R180). -/
def State.twoCopies (s : State) (e : Rgn) : Bool :=
  e.persistent && (s.role == 3 || ((s.role == 1 || s.role == 2) && s.mirrorOf e == 0) ||
    (s.region.commit.isSome && (s.rgn false e.idx).valid && (s.rgn false e.idx).mirror == 0))

/-! ### DRAM lines and the merge buffer (R261 to R263) -/

/-- The 64 bytes of a line as DRAM holds them. -/
def State.dramBytes (s : State) (line : Nat) : List Byte := memReadN 0 s.dram.cells (line * 64) 64

/-- The merge entry of a line. -/
def State.mergeFor (s : State) (line : Nat) : Option MergeEntry := s.dram.merge.find? (fun m => m.line == line)

/-- A read of a line: DRAM with the merge entry's masked bytes laid over (R262). -/
def State.dramLine (s : State) (line : Nat) : Line :=
  let bs := s.dramBytes line
  lineOfBytes (match s.mergeFor line with
    | some m => mergeBytes m.mask bs (lineBytes m.data)
    | none => bs)

/-- The full byte mask. -/
def fullMask : Nat := 2 ^ 64 - 1

/-- Put bytes of a line into DRAM: the whole code word is written, so an erroneous copy of the line is gone (R260, R261). -/
def State.dramPut (s0 : State) (line mask : Nat) (data : Line) : State :=
  let s := s0.wakeChan (line * 64)
  let bs := mergeBytes mask (s.dramBytes line) (lineBytes data)
  { s with dram := { s.dram with cells := memWriteN 0 s.dram.cells (line * 64) bs,
                                 erroneous := mapDel s.dram.erroneous line } }

/-- Write a merge entry out as a read-modify-write and free it (R261). -/
def State.mergeOut (s : State) (m : MergeEntry) : State :=
  let s1 := s.dramPut m.line m.mask m.data
  { s1 with dram := { s1.dram with merge := s1.dram.merge.filter (fun x => x.line != m.line) } }

/-- Write out every merge entry (R59, R585). -/
def State.mergeDrain (s : State) : State := s.dram.merge.foldl (fun st m => st.mergeOut m) s

/-- A write of some bytes of a line to DRAM (R257, R261, R263). -/
def State.dramWrite (s0 : State) (line mask : Nat) (data : Line) : State :=
  let s := s0.wakeChan (line * 64)
  if mask = fullMask then
    let s1 := { s with dram := { s.dram with merge := s.dram.merge.filter (fun x => x.line != line) } }
    s1.dramPut line mask data
  else if mask = 0 then s
  else match s.mergeFor line with
    | some m =>
      let d := lineOfBytes (mergeBytes mask (lineBytes m.data) (lineBytes data))
      let m' : MergeEntry := { m with mask := m.mask ||| mask, data := d }
      let s1 := { s with dram := { s.dram with merge := s.dram.merge.map (fun x => if x.line == line then m' else x) } }
      if m'.mask = fullMask then s1.mergeOut m' else s1
    | none =>
      let c := s.chanAt (line * 64)
      let mine := s.dram.merge.filter (fun x => x.chan == c)
      let s1 := match mine with
        | m :: _ => if mine.length < 64 then s else s.mergeOut m
        | [] => s
      { s1 with dram := { s1.dram with merge := s1.dram.merge ++
        [{ chan := c, line := line, mask := mask, data := data, since := s.clock }] } }

/-- Every line of a folio, as a mask. -/
def allLines : Nat := 2 ^ 1024 - 1

/-- A second copy holds every line that R193 asks for: those that DRAM holds newer than flash. -/
def Folio.covered (x : Folio) : Bool := x.dramLines &&& (allLines ^^^ x.second.getD 0) == 0

/-- A frame in the partner channel of channel `own` (R193), or, where that one is frozen or spent, in another channel than `own`
(log entry 83). -/
def State.frameBeside (s : State) (own : Nat) : Option (Nat × State) :=
  match s.takeFrameOf (fun c => c == partner own) with
  | some r => some r
  | none => s.takeFrameOf (fun c => c != own)

/-- A frame of the pair pool for a folio: beside its own; for a held folio without a frame, in any channel (R549). -/
def State.pairFrameFor (s : State) (x : Folio) : Option (Nat × State) :=
  if x.state == .absent then s.takeFrame else s.frameBeside (chanOf x.frame)

/-- Give a folio its frame of the pair pool, unless it has one. -/
def State.takePair (s : State) (f : Nat) : State :=
  let x := s.folio f
  if x.pairFrame.isSome then s
  else
    match s.pairFrameFor x with
    | some (fr, s1) => s1.setFolio f { x with pairFrame := some fr }
    | none => s

/-- The channel of a folio's pair-pool frame leaves intermission self-refresh (R257). -/
def State.wakePair (s : State) (f : Nat) : State :=
  match (s.folio f).pairFrame with
  | some fr => (s.setChan (chanOf fr) { s.chan (chanOf fr) with lastReq := s.clock }).setFlag F.DMC_STAT_in_sr (chanOf fr) false
  | none => s

/-- Write the second copy of a line and mark it in the folio's mask (R193). -/
def State.secondWrite (s0 : State) (line mask : Nat) (data : Line) : State :=
  let f := line / 1024
  let s := (s0.takePair f).wakePair f
  let x := s.folio f
  let bs := mergeBytes mask (lineBytes (s.dramLine line)) (lineBytes data)
  let s1 := { s with dram := { s.dram with second := memWriteN 0 s.dram.second (line * 64) bs } }
  s1.setFolio f { x with second := some ((x.second.getD 0) ||| 2 ^ (line % 1024)) }

/-- DRAM holds a line of an ink folio newer than its flash copy. -/
def State.markLine (s : State) (line : Nat) : State :=
  let x := s.folio (line / 1024)
  if x.isInk then s.setFolio (line / 1024) { x with dramLines := x.dramLines ||| 2 ^ (line % 1024) } else s

/-- A store or write-back of an ink line reaches DRAM: both copies are written where R20 asks for two (R193, R217). -/
def State.dramStore (s : State) (e : Rgn) (line mask : Nat) (data : Line) : State :=
  let s1 := if s.twoCopies e && (s.folio (line / 1024)).isInk then s.secondWrite line mask data else s
  ((if e.persistent then s1.markLine line else s1).dramWrite line mask data)

/-! ### The system cache (R211 to R220) -/

/-- Slice, set and tag of a line address (R212). -/
def lineSlice (l : Nat) : Nat := (l &&& 0x1f) ^^^ ((l >>> 17) &&& 0x1f) ^^^ ((l >>> 22) &&& 0x1f)
def lineSet (l : Nat) : Nat := (l >>> 5) &&& 0xfff
def lineTag (l : Nat) : Nat := l >>> 17

/-- Key of a way in the cache map. -/
def wayKey (slice set way : Nat) : Nat := slice * 65536 + set * 16 + way

def State.cacheOn (s : State) : Bool := s.flag F.SCACHE_STAT_enabled 0

/-- The way that holds a line, among the ways in service (R219). -/
def State.cacheFind (s : State) (line : Nat) : Option (Nat × CLine) :=
  if s.cacheOn then
    s.cache.lines.find? (fun p => p.2.line == line && !bitB (s.fld F.SCACHE_WAYSTAT_soft (p.1 / 65536)) (p.1 % 16))
  else none

/-- Whether a line belongs to a PERSISTENT region. -/
def State.linePersistent (s : State) (line : Nat) : Bool :=
  match s.regionAt (line * 64) with
  | some e => e.persistent
  | none => false

/-- Refresh `SCACHE_STAT.dirty_p` (R239). -/
def State.cacheCount (s : State) : State :=
  s.setFld F.SCACHE_STAT_dirty_p 0 (s.cache.lines.filter (fun p => p.2.dirty && s.linePersistent p.2.line)).length

/-- Set or remove a way's line, and count. -/
def State.setWay (s : State) (k : Nat) (c : CLine) : State :=
  ({ s with cache := { s.cache with lines := mapSet s.cache.lines k { c with used := s.cache.stamp + 1 },
                                    stamp := s.cache.stamp + 1 } }).cacheCount
def State.dropWay (s : State) (k : Nat) : State :=
  ({ s with cache := { s.cache with lines := mapDel s.cache.lines k } }).cacheCount

/-- Write a dirty line back to DRAM; the line stays, clean (R217). -/
def State.writeBack (s : State) (k : Nat) (c : CLine) : State :=
  if c.dirty then
    let s1 := match s.regionAt (c.line * 64) with
      | some e => s.dramStore e c.line fullMask c.data
      | none => s
    ({ s1 with cache := { s1.cache with lines := mapSet s1.cache.lines k { c with dirty := false } } }).cacheCount
  else s

/-- The way of a slice that an accepted WAY_DISABLE takes out of service, as a mask: no new fill goes into it (R234). -/
def State.closingWay (s : State) (slice : Nat) : Nat :=
  match s.cache.maint with
  | some v => if bits v 3 0 = 0xC ∧ bits v 11 7 = slice ∧ s.cache.maintStatus = 0 then 2 ^ bits v 15 12 else 0
  | none => 0

/-- The allocation mask of a class (R218); a request keeps the one of its acceptance (R87). -/
def State.clsMask (s : State) (cls : Nat) : Nat := s.fld F.SCACHE_WAYMASK_mask cls

/-- The effective allocation mask in a slice (R218, R234). -/
def State.effMask (s : State) (mask slice : Nat) : Nat :=
  mask &&& (0xFFFF ^^^ (s.fld F.SCACHE_WAYSTAT_soft slice ||| s.closingWay slice))

/-- The way that a miss under a mask allocates into: an empty way of it, else the least recently used (R218, R220). -/
def State.victimWay (s : State) (mask line : Nat) : Option Nat :=
  let sl := lineSlice line
  let m := s.effMask mask sl
  let ws := (upto 16).filter (fun w => bitB m w)
  match ws.find? (fun w => (mapGet? s.cache.lines (wayKey sl (lineSet line) w)).isNone) with
  | some w => some w
  | none => (ws.foldl (fun (a : Option (Nat × Nat)) w =>
      let u := match mapGet? s.cache.lines (wayKey sl (lineSet line) w) with
        | some c => c.used
        | none => 0
      match a with
      | some (_, u') => if u < u' then some (w, u) else a
      | none => some (w, u)) none).map (fun p => p.1)

/-- Allocate a line with its contents; false when the mask leaves no way. -/
def State.allocLine (s : State) (wmask line : Nat) (dirty : Bool) (data : Line) : State × Bool :=
  match s.victimWay wmask line with
  | none => (s, false)
  | some w =>
    let k := wayKey (lineSlice line) (lineSet line) w
    let s1 := match mapGet? s.cache.lines k with
      | some c => s.writeBack k c
      | none => s
    (s1.setWay k { line := line, dirty := dirty, stale := 0, used := 0, data := data }, true)

/-- A load of a line: its data and the state after it (R215, R216, R218). -/
def State.loadLine (s : State) (e : Rgn) (wmask line : Nat) : Line × State :=
  match s.cacheFind line with
  | some (k, c) =>
    if e.policy = 3 then (c.data, (s.writeBack k c).dropWay k)
    else (c.data, s.setWay k c)
  | none =>
    let d := s.dramLine line
    let s1 := s.wakeChan (line * 64)
    if s1.cacheOn && e.policy != 3 then (d, (s1.allocLine wmask line false d).1) else (d, s1)

/-- Whether stores to the region leave no line dirty: `quiesce_p`, or a commit that waits for cleaning (R180, R228). -/
def State.noDirty (s : State) (e : Rgn) : Bool :=
  (e.persistent && s.flag F.SCACHE_CTL_quiesce_p 0) ||
    (s.region.commit.isSome && (s.rgn false e.idx).valid && e.policy == 0 && (s.rgn false e.idx).policy != 0)

/-- A commit waits for second copies of the region: every store to it makes the second copy of its line, wherever the store
is applied (R180). -/
def State.awaitsCopies (s : State) (e : Rgn) : Bool :=
  s.region.commit.isSome && e.persistent && (s.rgn false e.idx).valid && e.mirror != 0 && (s.rgn false e.idx).mirror == 0

/-- A store of one line reaches the place that its policy gives it (R215, R228, R229). -/
def State.storeLine (s : State) (e : Rgn) (wmask : Nat) (w : LineWrite) : State :=
  let merged (old : Line) : Line := lineOfBytes (mergeBytes w.mask (lineBytes old) (lineBytes w.data))
  match s.cacheFind w.line with
  | some (k, c) =>
    let c' : CLine := { c with data := merged c.data, stale := c.stale &&& (fullMask ^^^ w.mask % 2 ^ 64) }
    if e.policy = 3 then ((s.writeBack k c).dropWay k).dramStore e w.line w.mask w.data
    else if s.noDirty e then
      ((s.writeBack k c).setWay k { c' with dirty := false }).dramStore e w.line w.mask w.data
    else if e.policy = 1 then
      ((s.writeBack k c).setWay k { c' with dirty := false }).dramStore e w.line w.mask w.data
    else
      let s1 := s.setWay k { c' with dirty := true }
      if s.awaitsCopies e then s1.secondWrite w.line fullMask c'.data else s1
  | none =>
    if s.cacheOn && e.policy == 0 && !s.noDirty e then
      let d := merged (s.dramLine w.line)
      let (s1, ok) := s.allocLine wmask w.line true d
      if ok then (if s.awaitsCopies e then s1.secondWrite w.line fullMask d else s1)
      else s.dramStore e w.line w.mask w.data
    else s.dramStore e w.line w.mask w.data

/-- The newest contents of a line, wherever it is held, without any effect (R25): for blots, answers and checks. -/
def State.peekLine (s : State) (line : Nat) : Line :=
  match s.cacheFind line with
  | some (_, c) => c.data
  | none => s.dramLine line

/-- Drop a folio's cached lines, all of them clean or no longer wanted (R394). -/
def State.dropFolioLines (s : State) (f : Nat) : State :=
  ({ s with cache := { s.cache with lines := s.cache.lines.filter (fun p => p.2.line / 1024 != f) } }).cacheCount

/-- Write a folio's dirty lines back, so that DRAM and merge buffer hold its newest contents. -/
def State.cleanFolioLines (s : State) (f : Nat) : State :=
  (s.cache.lines.filter (fun p => p.2.line / 1024 == f && p.2.dirty)).foldl (fun st p => st.writeBack p.1 p.2) s

/-- Write out the merge entries of a folio. -/
def State.mergeFolio (s : State) (f : Nat) : State :=
  (s.dram.merge.filter (fun m => m.line / 1024 == f)).foldl (fun st m => st.mergeOut m) s

/-- Write back the dirty lines among the chosen ones; they stay valid (R221). -/
def State.cleanWays (s : State) (sel : Nat → CLine → Bool) : State :=
  (s.cache.lines.filter (fun p => sel p.1 p.2 && p.2.dirty)).foldl (fun st p => st.writeBack p.1 p.2) s

/-- Discard the chosen lines; a dirty line of a PERSISTENT region that is not stale is written back first (R222). -/
def State.invalidateWays (s : State) (sel : Nat → CLine → Bool) : State :=
  let s1 := s.cleanWays (fun k c => sel k c && c.stale == 0 && s.linePersistent c.line)
  ({ s1 with cache := { s1.cache with lines := s1.cache.lines.filter (fun p => !sel p.1 p.2) } }).cacheCount

/-- Clean, then discard, the chosen lines (R221). -/
def State.flushWays (s : State) (sel : Nat → CLine → Bool) : State := (s.cleanWays sel).invalidateWays sel

/-- A requester of class `cls` has read or written a folio whole: its lines are allocated, CLEAN, where the class has a
mask (R218). The bulk movers have none by default (R220). -/
def State.allocFolio (s : State) (cls f : Nat) : State :=
  if s.clsMask cls = 0 ∨ s.cacheOn = false then s
  else (upto 1024).foldl (fun st i =>
    if (st.cacheFind (f * 1024 + i)).isSome then st
    else (st.allocLine (st.clsMask cls) (f * 1024 + i) false (st.dramLine (f * 1024 + i))).1) s

/-- The contents of a folio as the blotter reads them, and the state after its lines have reached DRAM. -/
def State.folioCells (s : State) (f : Nat) : List Host.Cell × State :=
  let s1 := (s.cleanFolioLines f).mergeFolio f
  (memSlice s1.dram.cells (f * 65536) ((f + 1) * 65536), s1)

/-- Replace a folio's contents in DRAM whole. -/
def State.folioPut (s : State) (f : Nat) (cells : List Host.Cell) : State :=
  let s1 := s.dropFolioLines f
  let s2 := { s1 with dram := { s1.dram with merge := s1.dram.merge.filter (fun m => m.line / 1024 != f) } }
  { s2 with dram := { s2.dram with cells := memPaste 0 s2.dram.cells (f * 65536) 65536 cells } }

/-- A folio's contents leave DRAM. -/
def State.folioErase (s : State) (f : Nat) : State := s.folioPut f []

/-- The contents of the lines that a mask names, from the second-copy area, laid over DRAM (R195, R549). -/
def State.overlaySecond (s : State) (f mask : Nat) : State :=
  (upto 1024).foldl (fun st i =>
    if bitB mask i then
      let line := f * 1024 + i
      st.dramPut line fullMask (lineOfBytes (memReadN 0 st.dram.second (line * 64) 64))
    else st) s

/-- Send a folio to the blotter ahead of all others. -/
def State.sendAhead (s : State) (f : Nat) : State :=
  let x := s.folio f
  if x.ahead.isSome then s
  else
    let s1 := s.setFolio f { x with ahead := some s.ink.aheadNext }
    { s1 with ink := { s1.ink with aheadNext := s1.ink.aheadNext + 1 } }

/-! ### Key slots of folios (R172, R656 to R658, R668) -/

/-- The key slot that encrypts a folio (R172, R660): its region's, 254 for an internal one. -/
def State.keyOf (s : State) (f : Nat) : Nat :=
  match s.regionAt (f * 65536) with
  | some e => e.key
  | none => 254

/-- A key slot is loaded (R673). -/
def State.keyLoaded (s : State) (k : Nat) : Bool := s.fld F.SEC_SLOT_state k == 1

/-- The key ID of a slot (R673). -/
def State.keyId (s : State) (k : Nat) : Nat :=
  (s.liveWord .SEC_SLOT_ID (2 * k)).toNat + (s.liveWord .SEC_SLOT_ID (2 * k + 1)).toNat * 2 ^ 32

/-- Refresh `CURT_KEY.loaded` (R643). -/
def State.keyCount (s : State) : State := s.setFld F.CURT_KEY_loaded 0 ((upto 256).filter s.keyLoaded).length

/-- Put a key slot's state and kind (R673). -/
def State.setKeySlot (s : State) (k state kind : Nat) : State :=
  ((s.setFld F.SEC_SLOT_state k state).setFld F.SEC_SLOT_kind k kind).keyCount

/-- The key slot under which a folio's flash copy is encrypted (R297). -/
def State.flashKey (s : State) (f : Nat) : Nat :=
  let x := s.folio f
  match mapGet? s.flash.store ((x.quire * 16 + x.leaf) * 4 + x.slot) with
  | some c => c.key
  | none => s.keyOf f

/-- A folio's flash copy can be decrypted: there is none, or its key slot is loaded (R668). -/
def State.keyReady (s : State) (f : Nat) : Bool := (s.folio f).gen == 0 || s.keyLoaded (s.flashKey f)

/-- The slot of a folio's flash copy is empty or erased, and no load waits for it (R662, R668). -/
def State.keyGone (s : State) (f : Nat) : Bool :=
  !s.keyReady f && s.fld F.SEC_SLOT_state (s.flashKey f) != 3

/-- A folio's contents as flash holds them (R185, R297). -/
def State.flashCells (s : State) (f : Nat) : List Host.Cell :=
  let x := s.folio f
  if x.gen = 0 then [] else match mapGet? s.flash.store ((x.quire * 16 + x.leaf) * 4 + x.slot) with
    | some ff => ff.cells
    | none => []

/-- Lay contents under whatever the cache holds of the folio. -/
def State.framePut (s : State) (f : Nat) (cells : List Host.Cell) : State :=
  { s with dram := { s.dram with
      merge := s.dram.merge.filter (fun m => m.line / 1024 != f),
      cells := memPaste 0 s.dram.cells (f * 65536) 65536 cells } }

/-- A RESIDENT folio takes its frame and its contents from flash (R590 step 5); while the key slot of its contents is empty its
frame waits for them, for it is never ABSENT nor STAGING (R185, R383, R668). -/
def State.residentIn (s : State) (e : Rgn) (f : Nat) : State :=
  let s1 := s.touch e f
  let y := s1.folio f
  if !s1.keyReady f then s1.setFolio f { y with state := .clean, gone := true }
  else (s1.setFolio f { y with state := .clean, gone := false }).framePut f (s1.flashCells f)

end Sys2Proof.Machine
end

