-- ==== Sys2Proof/Machine/Journal.lean ====
section
/-! DEFINITION. The ink count, the ink ceiling and the pools (R189 to R200, R207), the journal (R325 to R330) and the
sending side of the twin (R536 to R540, R547, R562, R571). -/

set_option Elab.async false

namespace Sys2Proof.Machine

/-! ### Ink, ceiling and pools -/

/-- Journal bytes in DRAM that are not yet on three cartridges (R189). -/
def State.journalBytes (s : State) : Nat :=
  recsSize s.flash.journal.openRecs +
    s.flash.journal.leaves.foldl (fun a l => if l.ink then a + recsSize l.recs else a) 0

/-- Recompute the journal term of the ink count (R189, R192). -/
def State.jRecount (s : State) : State :=
  let n := (s.journalBytes + 65535) / 65536
  let s1 := s.setFld F.INK_CNT_ink 0 (satTo 21 (s.fld F.INK_CNT_ink 0 - s.ink.journalInk + n))
  { s1 with ink := { s1.ink with journalInk := n } }

/-- The ceiling that R196 and R197 give: the limit, the curtain limit and the pair pool, a quarter in a SAG. Before the first
scene the pool has not been formed and does not bound it (R200). -/
def State.ceilingNow (s : State) : Nat :=
  let limit := s.fld F.INK_LIMIT_limit 0
  let pool := if s.pwr.step < 8 then limit else s.fld F.PAIR_STAT_frames 0
  let c := min (min limit (s.liveWord .CURT_INK 0).toNat) pool
  if s.ink.sag then c / 4 else c

/-- Put the computed ceiling in force; INK_CEILING_CHANGED when it differs (R200). -/
def State.setCeiling (s : State) : State :=
  let c := s.ceilingNow
  let s1 := (s.setFld F.INK_CEIL_ceiling 0 c).setFlag F.INK_CEIL_sag 0 s.ink.sag
  if c = s.fld F.INK_CEIL_ceiling 0 then s1 else s1.raiseD Ev.INK_CEILING_CHANGED c

/-- The curtain limit from E in mJ and e_save in pJ/B (R197): floor(((E − 30 J) / e_save) / 65,536), clamped; 0 below 4 GB. -/
def curtainLimit (eMj ePj : Nat) : Nat :=
  let c := min (((eMj - 30000) * 10 ^ 9) / (ePj * 65536)) 1464843
  if c < 61035 then 0 else c

/-- The curtain publishes a computed limit (R197, R199, R209). -/
def State.setCurtain (s : State) (c : Nat) : State :=
  let old := (s.liveWord .CURT_INK 0).toNat
  let first := s.ink.firstCurtain
  let s1 := (s.setLive .CURT_INK 0 c)
  let s2 := { s1 with ink := { s1.ink with firstCurtain := false } }
  let s3 := if c = 0 && (first || old != 0) then s2.raise Ev.INK_CURTAIN_ZERO else s2
  s3.setCeiling

/-- Frames of the pair pool that hold a second copy or held lines (R196). -/
def State.pairUsed (s : State) : Nat :=
  (s.ink.folios.filter (fun p => p.2.pairFrame.isSome || p.2.second.isSome || p.2.heldLines != 0)).length

/-- Folios of STAGED regions that hold a frame, as (frame, folio) in ascending frame. -/
def State.stagedFrames (s : State) : List (Nat × Nat) :=
  s.ink.folios.foldl (fun m p =>
    if p.2.state != .absent && (match s.regionAt (p.1 * 65536) with
      | some e => e.staged
      | none => false) then mapSet m p.2.frame p.1 else m) []

/-- `STAGE_POOL` is what R207 leaves. -/
def State.setStagePool (s : State) : State :=
  s.setFld F.STAGE_POOL_frames 0 (s.dramFrames - s.reservedFrames (s.validRegions true) (s.fld F.PAIR_STAT_frames 0))

/-- Shrink the pair pool towards the limit as its frames are free (R196). -/
def State.pairShrink (s : State) : State :=
  let have_ := s.fld F.PAIR_STAT_frames 0
  let want := max (s.fld F.INK_LIMIT_limit 0) s.pairUsed
  if want < have_ then (s.setFld F.PAIR_STAT_frames 0 want).setStagePool else s

/-- A CLEAN staged folio leaves DRAM (R394). -/
def State.evictFolio (s : State) (f : Nat) : State :=
  let s1 := s.folioErase f
  s1.setFolio f { s1.folio f with state := .absent, frame := 0, ref := false }

/-- The clock over the frames of the staged pool (R393, R395): clears referenced bits until it finds a CLEAN folio with
a clear bit and no pin. -/
def State.clockSearch (s : State) : List (Nat × Nat) → Nat → Option Nat × State
  | [], _ => (none, s)
  | (fr, f) :: t, n =>
    let x := s.folio f
    let s1 := { s with stage := { s.stage with hand := fr } }
    if x.state == .clean && !x.ref && x.pins == 0 then (some f, s1.sample 0x087 (n + 1))
    else (s1.setFolio f { x with ref := false }).clockSearch t (n + 1)

/-- Choose a victim among the frames that `ok` lets through: at most two passes of the hand (R275, R395). -/
def State.chooseVictimOf (s : State) (ok : Nat → Bool) : Option Nat × State :=
  let fs := s.stagedFrames.filter (fun p => ok p.1)
  let order := fs.filter (fun p => decide (s.stage.hand < p.1)) ++ fs.filter (fun p => decide (p.1 ≤ s.stage.hand))
  s.clockSearch (order ++ order) 0

/-- Choose a victim of the staged pool (R395). -/
def State.chooseVictim (s : State) : Option Nat × State := s.chooseVictimOf (fun _ => true)

/-- Evict up to `n` CLEAN staged folios (R196). -/
def State.evictMany (s : State) : Nat → State
  | 0 => s
  | n + 1 =>
    match s.chooseVictim with
    | (some f, s1) => (s1.evictFolio f).evictMany n
    | (none, s1) => s1

/-- Grow the pair pool towards the limit with frames of the staged pool (R196). -/
def State.pairGrow (s : State) : State :=
  let have_ := s.fld F.PAIR_STAT_frames 0
  let want := s.fld F.INK_LIMIT_limit 0
  if have_ < want then
    let pool := s.fld F.STAGE_POOL_frames 0
    let floor := if (s.validRegions true).any (fun e => e.staged) then 262144 else 0
    let used := s.stagedFrames
    let s1 := s.evictMany (min used.length ((want - have_) + used.length - pool))
    let got := min (want - have_) (min (pool - floor) (pool - s1.stagedFrames.length))
    let s2 := (s1.setFld F.PAIR_STAT_frames 0 (have_ + got)).setStagePool
    if have_ + got < want then s2.raise Ev.PAIR_POOL_SHORT else s2
  else s

/-- The limit that a written number of folios sets (R198). -/
def clampLimit (n : Nat) : Nat := if n < 61035 then 61035 else if 1464843 < n then 1464843 else n

/-- Set the ink limit (R196, R198, R200). -/
def State.setInkLimit (s : State) (folios : Nat) : State :=
  ((s.setRw F.INK_LIMIT_limit 0 (clampLimit folios)).pairGrow.pairShrink).setCeiling

/-- Whether `n` more folios fit under the ceiling in force (R157, R191); none while the alarm latch is set and the sentinel
holds no strike key (R669). -/
def State.inkRoom (s : State) (n : Nat) : Bool :=
  !(s.flag F.SEC_STAT_latch 0 && !s.sec.strikeLoaded) &&
  decide (s.fld F.INK_CNT_ink 0 + n ≤ s.fld F.INK_CEIL_ceiling 0)

/-- A folio stops being ink: the counts fall, its second copy goes, the pair pool may shrink (R192, R384, R196). -/
def State.folioClean (s : State) (f : Nat) : State :=
  let x := s.folio f
  let s1 := s.setFolio f { x with state := .clean, second := none, pairFrame := none, dramLines := 0 }
  let s2 := { s1 with dram := { s1.dram with second := memClear s1.dram.second (f * 65536) ((f + 1) * 65536) } }
  (if x.isInk then s2.subInk (s2.folioRgn f) 1 else s2).pairShrink

/-! ### Sending to the twin -/

/-- The sequence of a message that no link carries: it waits for the next RESYNC_DONE. -/
def noLink : Nat := 2 ^ 40

/-- The 2 MiB chunk of a DPA (R562). -/
def chunkOf (dpa : Nat) : Nat := dpa / 2 ^ 21

/-- Queue a message: it takes the next sequence, carries the ack of R539, and waits for its acknowledgement. -/
def State.twinSend (s : State) (type : Nat) (body : TwinBody) (bounded : Option Nat) (accs : List Nat) : State :=
  let q := (s.twin.sendSeq + 1) % 2 ^ 32
  let m : SentMsg := { seq := q, type := type, at_ := s.clock, bytes := body.length, boundedAt := bounded, accs := accs }
  let s1 := { s with twin := { s.twin with sendSeq := q, unacked := s.twin.unacked ++ [m], lastSent := s.clock,
                                           stream := s.twin.stream + body.length } }
  s1.send (.twin s.epoch q s.twin.ackedSeq body)

/-- The replay buffers of the twin links that are up have room for a message of `n` bytes beside the stores that are not
acknowledged (R535, R551; the size of the send path is open, log entry 84). -/
def State.sendRoom (s : State) (n : Nat) : Bool :=
  let used := s.twin.unacked.foldl (fun a m => if m.type == 0x10 || m.type == 0x11 then a + m.bytes else a) 0
  decide (used + n ≤ replayBytes (b2n (s.twin.width0 != 0) + b2n (s.twin.width1 != 0)))

/-- Send only while the link is up. -/
def State.twinSendUp (s : State) (type : Nat) (body : TwinBody) : State :=
  if s.twinUp then s.twinSend type body none [] else s

/-- Mark the chunk of a store in the lag frame, or in the divergence bitmap while not paired (R562). -/
def State.markChunk (s : State) (dpa : Nat) : State :=
  if s.twinUp then { s with twin := { s.twin with lagCur := setIns s.twin.lagCur (chunkOf dpa) } }
  else { s with twin := { s.twin with divMap := setIns s.twin.divMap (chunkOf dpa) } }

/-- This controller mirrors its stores (R547): LEAD, or SOLO while a rejoined twin resyncs. -/
def State.mirrors (s : State) : Bool := s.twinUp && (s.role == 1 || (s.role == 3 && s.twin.resyncSends))

/-- `TWIN_STAT.synced` (R572). -/
def State.synced (s : State) : Bool := s.flag F.TWIN_STAT_synced 0

/-- Ask the twin for a folio (R570). -/
def State.fetchFolio (s : State) (f : Nat) (why : FetchWhy) : State :=
  let id := s.twin.nextFetch
  let j : FetchJob := { id := id, folio := f, why := why, since := s.clock, dirtied := false }
  let s1 := { s with twin := { s.twin with nextFetch := (id + 1) % 2 ^ 32, fetches := s.twin.fetches ++ [j] } }
  s1.twinSend 0x20 (.fetchReq f id) none []

/-- Whether a twin fetch of a folio is open to this controller (R362, R390, R686). -/
def State.mayFetch (s : State) (f : Nat) : Bool :=
  s.twinUp && s.synced && (s.role == 1 || s.role == 2) && (match s.regionAt (f * 65536) with
    | some e => s.mirrorOf e != 0
    | none => false)

/-! ### Leaf addresses (R295, R300, R303) -/

def adSlot (a : Nat) : Nat := bits a 31 28
def adBlock (a : Nat) : Nat := bits a 22 11
def leafAddr (slot chan die block : Nat) : Nat := slot * 2 ^ 28 + chan * 2 ^ 27 + die * 2 ^ 23 + block * 2 ^ 11

/-- Dies per channel of the population (R290). -/
def State.dies (s : State) : Nat := max 1 (s.flash.population.getD 16)

/-- Die index of an address (R335). -/
def State.dieIndex (s : State) (a : Nat) : Nat := bits a 27 27 * s.dies + bits a 26 23

/-- A die by the address of a leaf or block on it. -/
def State.dieKey (s : State) (a : Nat) : Nat := adSlot a * 32 + s.dieIndex a

/-- The address of block `b` of die index `i` on a slot. -/
def State.addrOf (s : State) (slot i b : Nat) : Nat := leafAddr slot (i / s.dies) (i % s.dies) b

def State.groupOf (s : State) (n : Nat) : Option Group := s.flash.groups.find? (fun g => g.num == n && !g.reserve)

/-- Position of member `j` on word line `l` of a group with `n` members (R303). -/
def memberPos (n j l : Nat) : Nat := (j + l) % n
/-- The member that holds a position. -/
def posMember (n p l : Nat) : Nat := (p + n - l % n) % n

/-- The leaf address of position `p` of a quire of a group. -/
def Group.leafOf (g : Group) (quire p : Nat) : Nat :=
  g.members.getD (posMember g.members.length p (quire % 1024)) 0 + quire % 1024

/-- The leaf address that a read goes to. -/
def State.readLeaf (s : State) (r : ReadJob) : Nat :=
  match s.groupOf (r.quire / 1024) with
  | some g => g.leafOf r.quire r.leaf
  | none => 0

/-- The die index that holds ring block `k` of a slot (R328). -/
def State.ringDieOf (s : State) (slot k : Nat) : Nat := mapGet (k % (2 * s.dies)) s.flash.ringDie (slot * 16 + k)

/-- An operation begins on a die: the bound on its suspends that is in force holds for it (R87, R316). -/
def State.opBegin (s : State) (die : Nat) : State :=
  let c := 2 * (die / 32) + die % 32 / s.dies
  match mapGet? s.flash.susp die with
  | some _ => s
  | none => { s with flash := { s.flash with susp := mapSet s.flash.susp die (0, s.fld F.FLASH_SUSP_CFG_max_susp c) } }

/-! ### The journal -/

/-- IN_SERVICE slots (R379). -/
def State.inService (s : State) (slot : Nat) : Bool := s.fld F.QUIRE_SLOT_STAT_state slot == 3
def State.serviceSlots (s : State) : List Nat := (upto 16).filter s.inService

/-- IN_SERVICE slots in ascending order modulo 16 after a slot (R327, R365). -/
def State.slotsAfter (s : State) (last : Nat) : List Nat :=
  ((upto 16).map (fun k => (last + 1 + k) % 16)).filter s.inService

/-- Refresh `QUIRE_STAT.journal_3` (R340, R365). -/
def State.journal3 (s : State) : State :=
  let ok := s.flash.journal.leaves.all (fun l => decide (3 ≤ (l.good.filter s.inService).length))
  s.setFlag F.QUIRE_STAT_journal_3 0 ok

/-- Issue the programs of a leaf to some slots, each at the next word line of the slot's ring (R327, R328). -/
def State.jProgram (s : State) (index : Nat) (slots : List Nat) : State :=
  let pos := slots.map (fun k => (k, mapGet 0 s.flash.ringNext k))
  let leaves := s.flash.journal.leaves.map (fun x =>
    if x.index == index then
      { x with programming := x.programming ++ slots,
               places := x.places.filter (fun p => !slots.contains p.1) ++ pos }
    else x)
  let s1 := { s with flash := { s.flash with
      ringNext := pos.foldl (fun m p => mapSet m p.1 (p.2 + 1)) s.flash.ringNext,
      journal := { s.flash.journal with leaves := leaves } } }
  pos.foldl (fun st p => st.opBegin (p.1 * 32 + st.ringDieOf p.1 (p.2 / 1024 % 16))) s1

/-- Issue the programs of a new leaf to the next three slots, when three are IN_SERVICE (R327) and programs are issued at all
(R773). -/
def State.jIssue (s : State) (l : JLeaf) : State :=
  let slots := (s.slotsAfter s.flash.journal.lastSlot).take 3
  if s.flash.quiet || decide (slots.length < 3) then s
  else
    let s1 := s.jProgram l.index slots
    { s1 with flash := { s1.flash with journal := { s1.flash.journal with
        lastSlot := slots.getLast?.getD s.flash.journal.lastSlot } } }

/-- Close the open journal leaf and issue it (R327); copy it to the twin (R571). -/
def State.jClose (s : State) : State :=
  let j := s.flash.journal
  match j.openRecs with
  | [] => s
  | _ =>
    let l : JLeaf := { index := j.nextIndex, first := j.nextRec - j.openRecs.length, recs := j.openRecs, good := [],
                       programming := [], ink := true, inDram := true, places := [] }
    let ck := if j.openRecs.any (fun r => r.type == 0x0B) then some j.nextIndex else j.ckptLeaf
    let s1 := { s with flash := { s.flash with journal := { j with
      openRecs := [], openSince := none, nextIndex := j.nextIndex + 1, leaves := j.leaves ++ [l],
      bytesSince := j.bytesSince + 196608, ckptLeaf := ck } } }
    (((s1.jIssue l).twinSendUp 0x23 (.journalCopy l.index l.first l.recs)).journal3).jRecount

/-- Append a record: it starts a new leaf when it does not fit (R325, R327). -/
def State.jAppend (s : State) (r : JRec) : State :=
  let s1 := if 196576 < recsSize s.flash.journal.openRecs + jrecSize r then s.jClose else s
  let j := s1.flash.journal
  let since := match j.openSince with
    | some t => some t
    | none => some s1.clock
  let s2 := { s1 with flash := { s1.flash with journal := { j with openRecs := j.openRecs ++ [r], openSince := since,
                                                                   nextRec := j.nextRec + 1 } } }
  s2.jRecount

/-- The internal folio number of a tag DPA base and an index (R329, R571, R684). -/
def internalFolio (base k : Nat) : Nat := base / 65536 + k

/-- Start a checkpoint when the journal written since the last one has reached its size (R329). -/
def State.maybeCheckpoint (s : State) : State :=
  let j := s.flash.journal
  if !j.ckptRuns && decide (s.fld F.QUIRE_JCFG_ckpt_gib 0 * 2 ^ 30 ≤ j.bytesSince) then
    let top := s.flash.groups.foldl (fun a g => max a g.num) 0
    let pages := j.mapDirty.map (internalFolio 0x8000000000000000) ++
      (upto 128).map (internalFolio 0xC000000000000000) ++
      (upto (top / 512 + 1)).map (internalFolio 0x9000000000000000)
    { s with flash := { s.flash with journal := { j with
        ckptNumber := j.ckptNumber + 1, ckptRuns := true, ckptQueue := pages, mapDirty := [],
        ckptFirstLeaf := j.nextIndex, ckptNext := (s.ink.folios, s.flash.groups, s.region.tabs) } } }
  else s

/-- Set or clear a folio's lost bit, with its record and count (R361, R363, R392). -/
def State.markLost (s : State) (f : Nat) (set : Bool) : State :=
  let x := s.folio f
  if x.lost = set then s
  else
    let s1 := (s.setFolio f { x with lost := set }).jAppend { type := 0x0E, args := [f, b2n set] }
    if set then s1.setFld F.QUIRE_LOST_CNT_folios 0 (s1.fld F.QUIRE_LOST_CNT_folios 0 + 1)
    else s1.subFld F.QUIRE_LOST_CNT_folios 0 1

/-! ### Poisoned lines (R683 to R687) -/

/-- A line stands in the poison table or its overflow. -/
def State.linePoisoned (s : State) (line : Nat) : Bool :=
  (mapGet? s.integ.poison line).isSome || (mapGet? s.integ.overflow line).isSome

/-- The poison table's own folio (R684). -/
def poisonFolio : Nat := internalFolio 0xE000000000000000 0

/-- The poison table of PERSISTENT lines changed: its folio is DIRTY and ink (R684). -/
def State.poisonInk (s : State) (line : Nat) : State :=
  if s.linePersistent line then
    let x := match mapGet? s.ink.folios poisonFolio with
      | some x => x
      | none => Folio.init false
    let s1 := s.setFolio poisonFolio { x with state := .dirty, dirtyAt := s.clock }
    if x.isInk then s1 else s1.addInk none 1
  else s

/-- Clear an entry (R685, R686). -/
def State.unpoison (s : State) (line : Nat) : State :=
  if s.linePoisoned line then
    ({ s with integ := { s.integ with poison := mapDel s.integ.poison line,
                                      overflow := mapDel s.integ.overflow line } }).poisonInk line
  else s

/-- Poison a line (R683, R686, R687). Causes: 1 cache data, 2 request buffer, 3 merge buffer. -/
def State.poisonLine (s : State) (line cause : Nat) : State :=
  let zero : Line := 0
  let s1 := match s.regionAt (line * 64) with
    | some e => s.dramStore e line fullMask zero
    | none => s.dramWrite line fullMask zero
  let full := decide (4096 ≤ s1.integ.poison.length) && (mapGet? s1.integ.poison line).isNone
  let s2 := if full then
      (if s1.integ.overflow.length < 256 then
        { s1 with integ := { s1.integ with overflow := mapSet s1.integ.overflow line cause } } else s1)
    else ({ s1 with integ := { s1.integ with poison := mapSet s1.integ.poison line cause } }).poisonInk line
  let s3 := s2.raiseD Ev.LINE_POISONED (line * 64)
  let s4 := if full then (s3.raise Ev.POISON_TABLE_FULL).sceneChange 0x100 0 else s3
  if s4.mayFetch (line / 1024) then s4.fetchFolio (line / 1024) (.line line) else s4

end Sys2Proof.Machine
end

