-- ==== Sys2Proof/Machine/Credits.lean ====
section
/-! DEFINITION. The credits of the request path: what each stage holds (R140), what is reserved (R143, R147), in what order
waiting classes are served (R148), and who holds the credits of the internal pool, the cache slices and the flash channel
queues. -/

set_option Elab.async false

namespace Sys2Proof.Machine

/-! ### Pools (R140, R143, R147) -/

/-- The credits of one stage instance: how many there are, and how many of them are reserved for a class. -/
structure Pool where
  total : Nat
  reserved : List (Nat × Nat)

/-- The internal pool of the tracker (R147). -/
def internalPool : Pool :=
  { total := 16384, reserved := [(4, 2304), (5, 2048), (6, 1024), (7, 4096), (8, 1024), (9, 1024), (10, 512), (11, 256),
                                 (12, 2048), (13, 1024), (14, 512), (15, 128)] }
/-- The input credits of a cache slice, and its miss entries. -/
def sliceInput : Pool := { total := 128, reserved := [(5, 8), (7, 8), (12, 8), (14, 8)] }
def sliceMiss : Pool := { total := 256, reserved := [] }
/-- The read and the write credits of a DRAM channel queue. -/
def dramReadQueue : Pool := { total := 256, reserved := [] }
def dramWriteQueue : Pool := { total := 128, reserved := [(5, 8), (7, 8), (12, 8), (14, 8)] }
/-- The credits of a flash channel queue: per die, and in all. -/
def flashDieQueue : Pool := { total := 64, reserved := [(7, 8), (14, 4)] }
def flashChannelQueue : Pool := { total := 1024, reserved := [] }
/-- The single-flight entries of the stager. -/
def stagerPool : Pool := { total := 4096, reserved := [] }

/-- Credits that any class may spend. -/
def Pool.shared (p : Pool) : Nat := p.total - p.reserved.foldl (fun a r => a + r.2) 0

/-- `n` credits are to be had for a class, when `used c` of them are spent by each class `c`: its own, and those that are reserved
for none. -/
def Pool.room (p : Pool) (used : Nat → Nat) (cls n : Nat) : Bool :=
  decide (used cls + n ≤ mapGet 0 p.reserved cls) ||
    decide ((upto 16).foldl (fun a c => a + ((used c + if c = cls then n else 0) - mapGet 0 p.reserved c)) 0 ≤ p.shared)

/-- One credit is to be had. -/
def Pool.free (p : Pool) (used : Nat → Nat) (cls : Nat) : Bool := p.room used cls 1

/-! ### Members of groups (R351) -/

/-- Missing members of a group (R351). -/
def State.memberMissing (s : State) (g : Group) (k : Nat) : Bool :=
  let a := g.members.getD k 0
  let slot := bits a 31 28
  let die := bits a 27 27 * s.flash.population.getD 16 + bits a 26 23
  let st := s.fld F.QUIRE_SLOT_STAT_state slot
  s.fld F.QUIRE_DIE_STAT_state (slot * 32 + die) == 1 || st == 0 || st == 2 || st == 6 ||
    (match mapGet? s.flash.carts slot with
     | some c => c.serial != g.serials.getD k 0
     | none => true)

/-- The count of a group's missing members. -/
def State.missing (s : State) (g : Group) : Nat := ((upto g.members.length).filter (s.memberMissing g)).length

/-- Groups whose blocks still hold quires: OPEN, FULL or TRUNCATED, and not of the strike reserve. -/
def State.liveGroups (s : State) : List Group :=
  s.flash.groups.filter (fun g => decide (1 ≤ g.state) && decide (g.state ≤ 3) && !g.reserve)

/-! ### Weighted round robin (R148) -/

/-- The weight of a class; 0 counts as 1 (R148, R165). While any group has two missing members, class 9 has that of class 7
(R360). -/
def State.clsWeight (s : State) (c : Nat) : Nat :=
  let cls := if c = 9 && s.liveGroups.any (fun g => s.missing g == 2) then 7 else c
  max 1 (bits (s.liveWord (if cls < 8 then .TRK_WEIGHT_LO else .TRK_WEIGHT_HI) 0).toNat (4 * (cls % 8) + 3) (4 * (cls % 8)))

/-- The class of those waiting at a stage that is served next: 14 ahead of all, else one with grants left in the round, the
lowest first (the order within a round is open, log entry 85); when none has any left a round begins. -/
def State.grant (s : State) (stage : Nat) (waiting : List Nat) : Nat × State :=
  let c0 := waiting.headD 0
  if waiting.all (fun c => c == c0) then (c0, s)
  else if waiting.contains 14 then (14, s)
  else
    let has (g : List (Nat × Nat)) (c : Nat) : Bool := waiting.contains c && mapGet 0 g (stage * 32 + c) != 0
    let round := (upto 16).foldl (fun g c => mapSet g (stage * 32 + c) (s.clsWeight c)) s.path.grants
    let gs := if (upto 16).any (has s.path.grants) then s.path.grants else round
    let c := ((upto 16).find? (has gs)).getD c0
    (c, { s with path := { s.path with grants := mapSet gs (stage * 32 + c) (mapGet 0 gs (stage * 32 + c) - 1) } })

/-- Numbers of the stages in `grants`: the tracker share of a link, the internal pool, a cache slice, a die's queue. -/
def stageLink (link : Nat) : Nat := link
def stageInner : Nat := 8
def stageSlice (sl : Nat) : Nat := 16 + sl
def stageDie (die : Nat) : Nat := 64 + die

/-! ### Who holds entries of the internal pool (R11, R141, R146, R147) -/

/-- Whether a source is a host. -/
def Source.isHost (x : Source) : Bool :=
  match x with
  | .host _ _ _ _ => true
  | _ => false

/-- Entries of the internal pool that a class holds: requests accepted and not complete; folio reads in flight or queued at the
flash; fetches from the twin; the folio slots of quires being written. A job that ends in the step that begins it holds its
entry within the step (log entry 86). -/
def State.innerUsed (s : State) (cls : Nat) : Nat :=
  (s.path.held.filter (fun r => !r.src.isHost && r.cls == cls)).length +
  (s.path.applied.filter (fun a => !a.src.isHost && a.cls == cls)).length +
  (s.flash.reads.filter (fun r => r.cls == cls)).length +
  (if cls = 5 then s.twin.fetches.length else 0) +
  s.flash.quires.foldl (fun a q => a + (q.slots.filter (fun fs =>
    cls == (if q.strike then 14 else match fs.kind with
      | .relocate _ _ _ => 8
      | _ => 7))).length) 0

/-- The internal pool has an entry for a class. -/
def State.innerRoom (s : State) (cls : Nat) : Bool := internalPool.free s.innerUsed cls

/-- Entries of the internal pool held by all classes (R164). -/
def State.innerOcc (s : State) : Nat := (upto 12).foldl (fun a c => a + s.innerUsed (c + 4)) 0

/-! ### Flash channel queues (R140, R143) -/

/-- Credits of a die's queue that a class holds: reads issued, leaf programs of quires, journal programs and erases. -/
def State.dieUsed (s : State) (die cls : Nat) : Nat :=
  (s.flash.reads.filter (fun r => r.issued && r.cls == cls && s.dieKey (s.readLeaf r) == die)).length +
  s.flash.quires.foldl (fun a q => a + (if cls == (if q.strike then 14 else 7) then
    (match s.groupOf (q.quire / 1024) with
     | some g => ((upto (q.width + 2)).filter (fun p => !q.done.contains p && s.dieKey (g.leafOf q.quire p) == die)).length
     | none => 0) else 0)) 0 +
  (if cls = 7 then (s.flash.journal.leaves.filter (fun l => l.programming.any (fun k =>
      k * 32 + s.ringDieOf k (mapGet 0 l.places k / 1024 % 16) == die))).length else 0) +
  (if cls = 8 then (s.flash.erases.filter (fun e => s.dieKey e.block == die)).length else 0)

/-- Credits of a channel's queue that are spent, by class: two channels to a slot. -/
def State.channelUsed (s : State) (die cls : Nat) : Nat :=
  (upto s.dies).foldl (fun a i => a + s.dieUsed (die / 32 * 32 + die % 32 / s.dies * s.dies + i) cls) 0

/-- A NAND operation of a class can be issued to a die. -/
def State.dieRoom (s : State) (die cls : Nat) : Bool :=
  flashDieQueue.free (s.dieUsed die) cls && flashChannelQueue.free (s.channelUsed die) cls

/-- The NAND command of a queued read is issued; the timeout of R343 that is in force then holds for it (R87). -/
def State.issueRead (s : State) (r : ReadJob) : State :=
  { s with flash := { s.flash with reads := s.flash.reads.map (fun x => if x == r then
      { r with issued := true, since := s.clock, slowMs := s.fld F.QUIRE_SLOW_TIMEOUT_ms 0 } else x) } }

/-- Reads of a die that wait for a credit are issued as far as there are any (R144, R148). -/
def State.issueDie (s : State) (die : Nat) : Nat → State
  | 0 => s
  | n + 1 =>
    let mine := s.flash.reads.filter (fun r => !r.issued && s.dieKey (s.readLeaf r) == die && s.dieRoom die r.cls)
    if mine.isEmpty then s
    else
      let (c, s1) := s.grant (stageDie die) (mine.map (fun r => r.cls))
      match mine.find? (fun r => r.cls == c) with
      | some r => (s1.issueRead r).issueDie die n
      | none => s1

/-- Every waiting read that finds a credit is issued. -/
def State.issueReads (s : State) : State :=
  let wait := s.flash.reads.filter (fun r => !r.issued)
  (wait.foldl (fun a r => setIns a (s.dieKey (s.readLeaf r))) []).foldl (fun st d => st.issueDie d wait.length) s

/-- Ask flash for a folio under a requester class (R11): the read joins its die's queue. -/
def State.flashRead (s : State) (f cls : Nat) : State :=
  let x := s.folio f
  let rd : ReadJob := { folio := f, quire := x.quire, leaf := x.leaf, slot := x.slot, cls := cls, issued := false,
                        since := s.clock, slowMs := 0, missing := false }
  ({ s with flash := { s.flash with reads := s.flash.reads ++ [rd] } }).issueReads

/-- A folio belongs to a STAGED region. -/
def State.isStaged (s : State) (f : Nat) : Bool :=
  match s.regionAt (f * 65536) with
  | some e => e.staged
  | none => false

end Sys2Proof.Machine
end

