-- ==== Sys2Proof/Machine/Path.lean ====
section
/-! DEFINITION. The credited request path (chapters 1 and 4): staging entries (R385 to R396), the gates, applying stores
and serving loads, completion, and the pass that lets waiting requests go on. -/

set_option Elab.async false

namespace Sys2Proof.Machine

/-! ### The stager's entries (R385 to R395) -/

/-- The single-flight entry of a folio. -/
def State.entryOf (s : State) (f : Nat) : Option SfEntry := s.stage.entries.find? (fun e => e.folio == f)

/-- Refresh `STAGE_STAT.sf_used` (R408). -/
def State.entryCount (s : State) : State := s.setFld F.STAGE_STAT_sf_used 0 s.stage.entries.length

/-- Change one entry. -/
def State.setEntry (s : State) (e : SfEntry) : State :=
  { s with stage := { s.stage with entries := s.stage.entries.map (fun x => if x.folio == e.folio then e else x) } }

/-- Close an entry (R388, R140). -/
def State.closeEntry (s : State) (f : Nat) : State :=
  ({ s with stage := { s.stage with entries := s.stage.entries.filter (fun x => x.folio != f) } }).entryCount

/-- A frame for a staging: a free frame of the pool, else a victim's (R386, R393, R395). -/
def State.stageFrame (s : State) : Option (Nat × State) :=
  if s.stagedFrames.length < s.fld F.STAGE_POOL_frames 0 then
    (match s.takeFrame with
     | some (fr, s1) => some (fr, s1)
     | none => none)
  else
    match s.chooseVictim with
    | (some v, s1) => some ((s1.folio v).frame, s1.evictFolio v)
    | (none, _) => none

/-- Set the result of cue entries whose folio has come, or is lost (R403, R404, R405). -/
def State.cueResult (s : State) (cues : List (Nat × Nat)) (result : Nat) : State :=
  cues.foldl (fun st c =>
    match st.stage.runs.find? (fun r => r.ctx == c.1 && r.isOpen) with
    | none => st
    | some r =>
      let flags := mapGet (0, 0) r.entries c.2
      let f := bits flags.1 47 16
      let x := st.folio f
      let pinned := bitB flags.1 0 && result == 0 && !(decide (r.cursor > c.2))
      let cap := decide (st.fld F.STAGE_POOL_frames 0 * st.fld F.STAGE_CFG_pin_pct 0 ≤
        st.fld F.STAGE_PIN_frames 0 * 100)
      let takes := pinned && !(cap && x.pins == 0)
      let r1 : CueRun := { r with results := mapSet r.results c.2 result,
                                  times := if result = 0 then mapSet r.times c.2 st.clock else r.times,
                                  reached := mapDel r.reached c.2,
                                  pinned := if takes then setIns r.pinned c.2 else r.pinned,
                                  capRaised := r.capRaised || (pinned && !takes) }
      let rs := st.stage.runs.map (fun y => if y.ctx == r.ctx && y.isOpen then r1 else y)
      let st0 := { st with stage := { st.stage with runs := rs } }
      let st1 := match mapGet? r.reached c.2 with
        | some t => if result = 0 then st0.sample 0x086 ((st.clock - t) * 1000) else st0
        | none => st0
      let st2 := if takes then
          (let st3 := st1.setFolio f { x with pins := x.pins + 1 }
           if x.pins = 0 then st3.setFld F.STAGE_PIN_frames 0 (st3.fld F.STAGE_PIN_frames 0 + 1) else st3)
        else st1
      if pinned && !takes && !r.capRaised then st2.raise Ev.CUE_PIN_CAP else st2) s

/-- A folio came: its entry closes, its tallies are taken, its cue entries get DONE (R388, R403, R411). -/
def State.stageDone (s : State) (f : Nat) : State :=
  match s.entryOf f with
  | none => s
  | some e =>
    let waiters := (s.path.held.filter (fun r => r.gate == .staging && r.dpa / 65536 == f)).length
    let s1 := (s.sample (0x080 + e.phase) ((s.clock - e.since) * 1000)).sample 0x083 waiters
    (s1.closeEntry f).cueResult e.cues 0

/-- The class under which a folio is staged: 6 for a cue issue alone, else 5 (R146, R385). -/
def State.entryCls (s : State) (f : Nat) : Nat :=
  match s.entryOf f with
  | some e => if e.cues.isEmpty then 5 else 6
  | none => 5

/-- A staged folio's contents are in its frame (R383, R388): held lines of the twin are laid over it and it is DIRTY (R549),
else it is CLEAN. -/
def State.fillFolio (s : State) (f : Nat) (cells : List Host.Cell) : State :=
  let x := s.folio f
  let cls := s.entryCls f
  let s1 := s.folioPut f cells
  let s2 := if x.heldLines = 0 then s1.setFolio f { x with state := .clean, ref := true }
    else
      let s3 := (s1.overlaySecond f x.heldLines).setFolio f { x with state := .dirty, heldLines := 0, pairFrame := none,
                                                                     dramLines := x.heldLines, ref := true }
      { s3 with dram := { s3.dram with second := memClear s3.dram.second (f * 65536) ((f + 1) * 65536) } }
  (if cls = 6 then s2.allocFolio 6 f else s2).stageDone f

/-- Give an entry its frame: a folio of generation 0 has its contents, zeros, at once, any other is STAGING and its flash read
is issued (R185, R383, R386, R549). -/
def State.assignFrame (s : State) (f fr : Nat) : State :=
  let x := s.folio f
  let s1 := { s with stage := { s.stage with shortage := false } }
  if x.gen = 0 then (s1.setFolio f { x with frame := fr }).fillFolio f []
  else
    let s2 := s1.setFolio f { x with state := .staging, frame := fr }
    let s3 := match s2.entryOf f with
      | some e => s2.setEntry { e with assigned := true }
      | none => s2
    s3.flashRead f (s3.entryCls f)

/-- Try to assign a frame to an entry that has none. A folio whose key is not loaded waits without one (R662, R668), and so does
one whose fill finds no entry of the internal pool (R11, R147); the first failure of a shortage raises STAGE_NO_VICTIM (R395). -/
def State.tryAssign (s : State) (f : Nat) : State :=
  if !s.keyReady f || !s.innerRoom (s.entryCls f) then s else
  match s.stageFrame with
  | some (fr, s1) => s1.assignFrame f fr
  | none =>
    if s.stage.shortage then s
    else ({ s with stage := { s.stage with shortage := true } }).raise Ev.STAGE_NO_VICTIM

/-- Open or join the entry of an ABSENT folio (R385, R389). A cue issue names its run and entry. -/
def State.openEntry (s : State) (f : Nat) (cue : Option (Nat × Nat)) : State :=
  let cues := match cue with
    | some c => [c]
    | none => []
  match s.entryOf f with
  | some e => s.setEntry { e with cues := e.cues ++ cues }
  | none =>
    if 4096 ≤ s.stage.entries.length then s
    else
      let e : SfEntry := { folio := f, assigned := false, since := s.clock, cues := cues, phase := 0,
                           waiterLimit := false }
      (({ s with stage := { s.stage with entries := s.stage.entries ++ [e] } }).entryCount).tryAssign f

/-- Assign freed frames to the entries that wait, oldest first (R395). -/
def State.assignWaiting (s : State) : State :=
  (s.stage.entries.filter (fun e => !e.assigned && s.keyReady e.folio)).foldl (fun st e =>
    if !st.innerRoom (st.entryCls e.folio) then st
    else match st.stageFrame with
      | some (fr, st1) => st1.assignFrame e.folio fr
      | none => st) s

/-- Folios that loads with miss policy POISON have asked for are staged as entries come free (R26). -/
def State.openWanted (s : State) : State :=
  s.stage.wanted.foldl (fun st f =>
    let drop (t : State) : State := { t with stage := { t.stage with wanted := t.stage.wanted.filter (fun g => g != f) } }
    if (st.folio f).state != .absent || (st.entryOf f).isSome then drop st
    else if 4096 ≤ st.stage.entries.length then st
    else (drop st).openEntry f none) s

/-- Start the staging of a folio that nobody waits for: at once, or when an entry comes free (R26). -/
def State.wantFolio (s : State) (f : Nat) : State :=
  if 4096 ≤ s.stage.entries.length then { s with stage := { s.stage with wanted := setIns s.stage.wanted f } }
  else s.openEntry f none

/-- Raise WAITER_LIMIT the first time an entry reaches 4,096 waiters (R387). -/
def State.waiterLimit (s : State) (f : Nat) : State :=
  match s.entryOf f with
  | some e =>
    let n := (s.path.held.filter (fun r => r.gate == .staging && r.dpa / 65536 == f)).length
    if 4096 ≤ n && !e.waiterLimit then (s.setEntry { e with waiterLimit := true }).raise Ev.WAITER_LIMIT else s
  | none => s

/-! ### Answers and completions -/

/-- Tracker entries of a link's share (R97, R140). -/
def State.share (s : State) (link : Nat) : Nat :=
  if (mapGet? s.host.links (link / 2 * 2)).any (fun l => l.split) then 8192
  else if link % 2 = 0 then 16384 else 0

/-- Requests of a link that hold tracker entries. -/
def State.linkOcc (s : State) (link : Nat) : Nat :=
  let mine (x : Source) : Bool := match x with
    | .host l _ _ _ => l == link
    | _ => false
  (s.path.held.filter (fun r => mine r.src)).length + (s.path.applied.filter (fun r => mine r.src)).length +
    (s.path.compl.filter (fun c => c.link == link)).length

/-- The DevLoad value for an occupancy (R151): 0 Light to 3 Severe; a link that does not exist has no share and no load. -/
def State.devLoad (s : State) (link occ : Nat) : Nat :=
  let sh := s.share link
  if sh = 0 then 0
  else if s.flag F.TRK_STAT_ink_gate 0 || decide (s.fld F.TRK_DEVLOAD_CFG_high 0 * sh ≤ occ * 100) then 3
  else if s.fld F.TRK_DEVLOAD_CFG_mid 0 * sh ≤ occ * 100 then 2
  else if s.fld F.TRK_DEVLOAD_CFG_low 0 * sh ≤ occ * 100 then 1
  else 0

/-- Link state, with fresh credits where nothing is recorded (R140). -/
def LinkState.init (split : Bool) : LinkState :=
  { ideKeys := false, withheld := false, ndr := if split then 512 else 1024, drs := if split then 512 else 1024,
    split := split, doe := none, gpf := none }
/-- The state of a link. The odd link of a port exists only where the port is split: it starts with the credits of an x8 link. -/
def State.link (s : State) (n : Nat) : LinkState := mapGet (LinkState.init (n % 2 == 1)) s.host.links n
def State.setLink (s : State) (n : Nat) (l : LinkState) : State :=
  { s with host := { s.host with links := mapSet s.host.links n l } }

/-- Bit of `SEC_CNT` for a stream (R673): near, or done. -/
def cntBit (stream : Nat) (done : Bool) : Nat := stream + (if done then 16 else 0)

/-- Count one use of a nonce counter (R665): the flag says whether the use is allowed. Counters 0 to 7 are those of what the IDE
streams receive, 8 and 9 those of the twin links, 32 to 39 those of what the IDE streams send. -/
def State.countNonce (s : State) (counter : Nat) : State × Bool :=
  let n := mapGet 0 s.sec.counters counter
  let stream := counter % 32
  let mark (st : State) (done : Bool) : State :=
    st.setLive .SEC_CNT 0 ((st.liveWord .SEC_CNT 0).toNat ||| 2 ^ cntBit stream done)
  if 2 ^ 64 - 1 ≤ n then (((mark s true).raiseD Ev.COUNTER_EXHAUSTED stream).send (.cipherStop stream St.REKEY_REQUIRED), false)
  else
    let s1 := { s with sec := { s.sec with counters := mapSet s.sec.counters counter (n + 1) } }
    (if n + 1 = 2 ^ 64 - 2 ^ 20 then (mark s1 false).raiseD Ev.COUNTER_NEAR stream else s1, true)

/-- A request comes or a completion goes over a link: on a secure IDE stream it is an invocation; one that the counter does not
allow is refused, and the stream stops as R119 has it (R118, R665; log entry 94). -/
def State.ideUse (s : State) (link : Nat) (out : Bool) : State × Bool :=
  if s.flag F.HPORT_STAT_ide_secure link then
    let (s1, ok) := s.countNonce (if out then 32 + link else link)
    if ok then (s1, true)
    else ((s1.setFlag F.HPORT_STAT_ide_secure link false).setLink link { s1.link link with withheld := true }, false)
  else (s, true)

/-- A load of the key of a link's direction waits: what would use it stalls (R118, R662). -/
def State.ideStalls (s : State) (link : Nat) (out : Bool) : Bool :=
  s.fld F.SEC_SLOT_state (224 + 2 * link + b2n (!out)) == 3

/-- A completion can leave now: the link is up and not frozen, withheld or stalled for its key, and a credit is in hand (R119,
R140, R662). -/
def State.mayLeave (s : State) (link : Nat) (isStore : Bool) : Bool :=
  let l := s.link link
  s.flag F.HPORT_STAT_up link && !s.flag F.HPORT_STAT_frozen link && !l.withheld && !s.ideStalls link true &&
    (if isStore then decide (0 < l.ndr) else decide (0 < l.drs))

/-- Send one completion, taking its credit; its latency is measured from port ingress to here (R140, R170). -/
def State.emit (s0 : State) (c : Compl) : State :=
  let s := s0.sample ((if c.isStore then 0x020 else 0x000) + c.link * 4 + c.cls % 4) ((s0.clock - c.t0) * 1000)
  let l := s.link c.link
  let dl := s.devLoad c.link (s.linkOcc c.link)
  let s1 := s.setLink c.link (if c.isStore then { l with ndr := l.ndr - 1 } else { l with drs := l.drs - 1 })
  if c.isStore then s1.send (.storeDone c.link c.tag dl) else s1.send (.loadDone c.link c.tag c.poison c.data dl)

/-- A completion reaches the completion stage: it leaves, or waits there for its credit in order (R140). -/
def State.complete (s : State) (c : Compl) : State :=
  let wait (st : State) : State := { st with path := { st.path with compl := st.path.compl ++ [c] } }
  if s.mayLeave c.link c.isStore && !(s.path.compl.any (fun d => d.link == c.link && d.isStore == c.isStore)) then
    match s.ideUse c.link true with
    | (s1, true) => s1.emit c
    | (s1, false) => wait s1
  else wait s

/-- Let the completion stage send what has credits, in order per link (R140). -/
def State.drainCompl (s : State) : State :=
  s.path.compl.foldl (fun st c => st.complete c) { s with path := { s.path with compl := [] } }

/-- Complete a host's load. -/
def State.loadComplete (s : State) (link tag cls t0 : Nat) (poison : Bool) (data : Line) : State :=
  s.complete { link := link, tag := tag, isStore := false, poison := poison, data := data, acc := 0, lines := [], cls := cls,
               t0 := t0, since := s.clock }

/-- Complete a host's store: its lines and acceptance number stay with it until the completion leaves (R16). -/
def State.storeComplete (s : State) (link tag cls t0 acc : Nat) (lines : List Nat) : State :=
  s.complete { link := link, tag := tag, isStore := true, poison := false, data := 0, acc := acc, lines := lines, cls := cls,
               t0 := t0, since := s.clock }

/-- Put the answer of a script operation where the scribe takes it (R420). -/
def State.scriptAnswer (s : State) (scribe ctx slot status : Nat) (data : Line) : State :=
  { s with path := { s.path with results := s.path.results ++
    [{ scribe := scribe, ctx := ctx, slot := slot, status := status, data := data }] } }

/-- Answer a load. -/
def State.answerLoad (s : State) (r : Req) (poison : Bool) (status : Nat) (data : Line) : State :=
  match r.src with
  | .host link _ _ tag => s.loadComplete link tag r.cls r.t0 poison data
  | .script sc cx sl => s.scriptAnswer sc cx sl (if poison && status == 0 then St.POISONED else status) data
  | .twin _ => s
  | .unit _ => s


/-- The gates in front of the ink gate: a store that they hold keeps its place at it (R157). -/
def Gate.before (g : Gate) : Bool :=
  match g with
  | .held | .fence | .handover | .bounded | .order | .send | .backInval => true
  | _ => false

/-- A request comes to a gate, or stays there. -/
def Req.at_ (r : Req) (g : Gate) (now : Nat) : Req :=
  { r with gate := g, gateAt := if r.gate == g then r.gateAt else now,
           inkHeld := g == .ink || (r.inkHeld && g.before) }

/-- The tallies of a store that leaves the ink gate or the BOUNDED gate, and of a load that leaves the wait of R153 (R170). -/
def State.gateTally (s : State) (r : Req) : State :=
  let v := (s.clock - r.gateAt) * 1000
  match r.gate with
  | .ink => s.sample 0x040 v
  | .bounded => s.sample 0x042 v
  | .applied => s.sample 0x043 v
  | _ => s

/-- Note the gate at which a request waits. -/
def State.setGate (s : State) (acc : Nat) (g : Gate) : State :=
  match s.path.held.find? (fun r => r.acc == acc) with
  | none => s
  | some r =>
    let s1 := if r.gate == g then s else s.gateTally r
    { s1 with path := { s1.path with held := s1.path.held.map (fun x => if x.acc == acc then x.at_ g s1.clock else x) } }

/-- Take a request out of the held list. -/
def State.unhold (s : State) (acc : Nat) : State :=
  let s1 := match s.path.held.find? (fun r => r.acc == acc) with
    | some r => s.gateTally r
    | none => s
  { s1 with path := { s1.path with held := s1.path.held.filter (fun r => r.acc != acc) } }

/-! ### Back-Invalidate (R114 to R117) -/

/-- Holders of a line other than a given one. -/
def State.otherHolders (s : State) (line : Nat) (me : Option Holder) : List Holder :=
  (mapGet [] s.host.snoop line).filter (fun h => some h != me)

/-- The holder that a source is. -/
def Source.holder (x : Source) : Option Holder :=
  match x with
  | .host link key _ _ => some { link := link, key := key }
  | _ => none

/-- A BISnpInv for the line is out: every request to it waits (R117). -/
def State.biOut (s : State) (line : Nat) : Bool := s.host.biWaits.any (fun w => w.line == line)

/-- The BI channels of a link are negotiated (R98). -/
def State.biOn (s : State) (link : Nat) : Bool := s.flag F.HPORT_CFG_bi_en link

/-- Issue BISnpInv to those holders of a line whose link has its BI channels, unless one is already out (R98, R115, R116). -/
def State.biSnoop (s : State) (line : Nat) (all : List Holder) : State :=
  let hs := all.filter (fun h => s.biOn h.link)
  if hs.isEmpty || s.biOut line then s
  else
    let w : BiWait := { line := line, left := hs, since := s.clock, warned := s.clock }
    hs.foldl (fun st h => st.send (.biSnp h.link h.key line))
      { s with host := { s.host with biWaits := s.host.biWaits ++ [w] } }

/-- A line of a store has other holders: they are snooped; the lines still waited for (R116). -/
def State.biStore (s : State) (e : Rgn) (line : Nat) (src : Source) : State × List Nat :=
  if e.coherence = 1 then
    let s1 := s.biSnoop line (s.otherHolders line src.holder)
    (s1, if s1.biOut line then [line] else [])
  else (s, [])

/-! ### Completing stores -/

/-- A store is done: its answer goes to the completion stage, or the unit goes on (R16, R151, R170). -/
def State.finishStore (s0 : State) (a : Applied) : State :=
  let s := match a.syncAt with
    | some t => s0.sample 0x041 ((s0.clock - t) * 1000)
    | none => s0
  match a.src with
  | .host link _ _ tag => s.storeComplete link tag a.cls a.t0 a.acc a.lines
  | _ => s

/-- Complete every applied store whose acknowledgement and snoops are in, in acceptance order (R22, R116). -/
def State.completeApplied (s : State) : State :=
  let ready := s.path.applied.filter (fun a => a.ack.isNone && a.bi.isEmpty)
  ready.foldl (fun st a => st.finishStore a)
    { s with path := { s.path with applied := s.path.applied.filter (fun a => !(a.ack.isNone && a.bi.isEmpty)) } }

/-! ### Applying stores -/

/-- The write that a read-modify-write makes of a line, and the value it returns (R446, R472). -/
def rmwWrite (m : Rmw) (line : Nat) (old : Line) : LineWrite × Nat :=
  let cur := bits (old.toNat >>> (8 * m.off)) (8 * m.width - 1) 0
  let new := if m.op = 1 then (if cur = m.a then m.b else cur) else (cur + m.a) % 2 ^ (8 * m.width)
  ({ line := line, mask := (2 ^ m.width - 1) * 2 ^ m.off,
     data := BitVec.ofNat 512 (new % 2 ^ (8 * m.width) * 2 ^ (8 * m.off)) }, cur)

/-- Apply one line of a store: it makes ink, it reaches its place, its chunk is marked (R190, R215, R562, R685). -/
def State.applyLine (s : State) (e : Rgn) (wmask : Nat) (w : LineWrite) : State :=
  let f := w.line / 1024
  let s0 := s.touch e f
  let s1 := if e.persistent then s0.dirtyFolio f else s0
  let s2 := s1.storeLine e wmask w
  let s3 := if w.mask = fullMask then s2.unpoison w.line else s2
  let fs := s3.twin.fetches.map (fun j => if j.why == .line w.line then { j with dirtied := true } else j)
  let s4 := { s3 with twin := { s3.twin with fetches := fs } }
  if e.persistent && e.mirror != 0 then s4.markChunk (w.line * 64) else s4

/-- A mirrored line that reaches an ABSENT folio is held in a pair-pool frame, with its mask, and staging opens (R549). -/
def State.holdLine (s : State) (w : LineWrite) : State :=
  let f := w.line / 1024
  let x := s.folio f
  let bs := mergeBytes w.mask (memReadN 0 s.dram.second (w.line * 64) 64) (lineBytes w.data)
  let s0 := (s.takePair f).wakePair f
  let s1 := { s0 with dram := { s0.dram with second := memWriteN 0 s0.dram.second (w.line * 64) bs } }
  let y := s1.folio f
  let s2 := s1.setFolio f { y with heldLines := x.heldLines ||| 2 ^ (w.line % 1024),
                                   dirtyAt := if x.isInk then x.dirtyAt else s.clock }
  let s3 := if x.isInk then s2 else s2.addInk (s2.folioRgn f) 1
  if (s3.entryOf f).isNone && x.state == .absent then s3.openEntry f none else s3

/-- The lines of a store as it will be applied: a read-modify-write is worked out from the line as it stands. -/
def State.storeLines (s : State) (r : Req) : List LineWrite × Nat :=
  match r.rmw with
  | some m =>
    let (w, old) := rmwWrite m (r.dpa / 64) (s.peekLine (r.dpa / 64))
    ([w], old)
  | none => (r.writes, 0)

/-- A twin message's store (R548, R549). -/
def Source.isTwin (x : Source) : Bool :=
  match x with
  | .twin _ => true
  | _ => false

/-- The allocation mask of a request: that of its acceptance (R87, R218); the fill of a folio that it waited for is the
stager's, class 5. -/
def State.maskOf (s : State) (r : Req) : Nat := if r.gate == .staging then s.clsMask 5 else r.wayMask

/-- The lines of a store go where their folios are (R549, R552); with them the lines whose holders must still answer. -/
def State.storeAll (s : State) (r : Req) (ws : List LineWrite) : State × List Nat :=
  ws.foldl (fun (p : State × List Nat) w =>
    match p.1.regionAt (w.line * 64) with
    | none => p
    | some e =>
      let st := if r.src.isTwin && (p.1.folio (w.line / 1024)).state == .absent && e.staged then p.1.holdLine w
        else p.1.applyLine e (p.1.maskOf r) w
      let (st1, b) := st.biStore e w.line r.src
      (st1, p.2 ++ b)) (s, [])

/-- The mirroring of the regions that a store's lines lie in (R171); a VOLATILE region counts as NONE. -/
def State.storeModes (s : State) (ws : List LineWrite) : List Nat :=
  ws.filterMap (fun w => (s.regionAt (w.line * 64)).map (fun e => if e.persistent then s.mirrorOf e else 0))

/-- The records of a store that go to the twin: the mirrored lines, or the whole SEAL group (R547). -/
def State.sentRecs (s : State) (r : Req) (ws : List LineWrite) : List StoreRec :=
  (ws.filter (fun w => r.isSeal || (match s.regionAt (w.line * 64) with
    | some e => e.persistent && s.mirrorOf e != 0
    | none => false))).map (fun w => ({ line := w.line, mask := w.mask, data := w.data } : StoreRec))

/-- What the LEAD sends of a store that was applied in state `s` and has led to `s1`; without a link, what it will owe
(R547, R572). -/
def State.mirrorStore (s s1 : State) (r : Req) (bAt : Option Nat) (recs : List StoreRec) : State :=
  if s.mirrors then s1.twinSend (if r.isSeal then 0x11 else 0x10) (if r.isSeal then .seal recs else .store recs) bAt [r.acc]
  else if s.role == 1 then
    { s1 with twin := { s1.twin with unacked := s1.twin.unacked ++
        [{ seq := noLink, type := 0x10, at_ := s.clock, bytes := 0, boundedAt := bAt, accs := [r.acc] }] } }
  else s1

/-- The result of a script's store goes back to its operation slot; any other source is answered by the completion. -/
def State.storeAnswer (s : State) (r : Req) (old : Nat) : State :=
  match r.src with
  | .script sc cx sl => s.scriptAnswer sc cx sl 0 (BitVec.ofNat 512 old)
  | _ => s

/-- Apply a store whole (R18, R152): every line, the mirror message, the snoops; then it completes or waits (R21 to R24). A
store whose data was damaged in a buffer leaves its line poisoned (R681). -/
def State.applyStore (s : State) (r : Req) : State :=
  let (ws, old) := s.storeLines r
  let (s0, bi) := s.storeAll r ws
  let s1 := if r.bad then s0.poisonLine (r.dpa / 64) 2 else s0
  let modes := s.storeModes ws
  let mirrored := modes.any (fun m => m == 1 || m == 2)
  let sync := modes.any (fun m => m == 2) || (r.isSeal && mirrored)
  let bounded := modes.any (fun m => m == 1)
  let bAt := if bounded && !sync && s.role == 1 then some s.clock else none
  let s2 := if mirrored && !r.src.isTwin then s.mirrorStore s1 r bAt (s.sentRecs r ws) else s1
  let ack := if sync && s.role == 1 && !r.src.isTwin then some (if s.mirrors then s2.twin.sendSeq else noLink) else none
  let a : Applied := { acc := r.acc, src := r.src, lines := ws.map (fun w => w.line), ack := ack, bi := bi, t0 := r.t0,
                       cls := r.cls, syncAt := ack.map (fun _ => s.clock) }
  let s3 := s2.storeAnswer r old
  ({ s3 with path := { s3.path with applied := s3.path.applied ++ [a] } }.unhold r.acc).completeApplied

/-! ### Serving loads -/

/-- Serve a load from where its line is: referenced bit, holder entry, poison (R25, R106, R114, R393, R685). -/
def State.serveLoad (s : State) (e : Rgn) (r : Req) : State :=
  let line := r.dpa / 64
  let s0 := (s.touch e (line / 1024)).unhold r.acc
  let s1 := if e.persistent then s0.setFolio (line / 1024) { s0.folio (line / 1024) with ref := true } else s0
  let (d, s2) := s1.loadLine e (s1.maskOf r) line
  let s3 := match r.src.holder with
    | some h => if e.coherence = 1 && r.own && s.biOn h.link then
        (let m := mapUpd [] s2.host.snoop line (fun hs => if hs.contains h then hs else hs ++ [h])
         { s2 with host := { s2.host with snoop := m } }) else s2
    | none => s2
  if s3.linePoisoned line then s3.answerLoad r true St.POISONED 0 else s3.answerLoad r false 0 d

/-- A load is refused its data: poison, or the script's status. -/
def State.poisonLoad (s : State) (r : Req) (status : Nat) : State := (s.unhold r.acc).answerLoad r true status 0

/-- A store is discarded and completes (R106, R274, R396, R568). -/
def State.discardStore (s : State) (r : Req) : State :=
  let s1 := s.unhold r.acc
  match r.src with
  | .host link _ _ tag => s1.storeComplete link tag r.cls r.t0 r.acc []
  | .script sc cx sl => s1.scriptAnswer sc cx sl 0 0
  | _ => s1

/-- Count a request to a NONE region whose data this controller does not hold (R568). -/
def State.noneAbsent (s : State) (i : Nat) : State :=
  let s1 := s.addSat F.TWIN_NONE_CNT_count 0 1
  if s1.twin.noneRaised.contains i then s1
  else ({ s1 with twin := { s1.twin with noneRaised := setIns s1.twin.noneRaised i } }).raiseD Ev.TWIN_NONE_ABSENT i

/-! ### The gates -/

/-- The LEAD's lease is valid (R554). -/
def State.leaseValid (s : State) : Bool :=
  match s.twin.leaseEnd with
  | some t => decide (s.clock < t)
  | none => false

/-- Persistent writes are shut out (R130, R160, R552, R554, R560): fenced, UNDERSTUDY, no role, no lease, handover. -/
def State.fenceHold (s : State) : Bool :=
  s.fenced || s.role == 2 || s.role == 0 || (s.role == 1 && !s.leaseValid)

/-- The oldest completed BOUNDED store that the twin has not acknowledged is 48 µs old or older (R158). -/
def State.boundedOld (s : State) : Bool :=
  s.twin.unacked.any (fun m => match m.boundedAt with
    | some t => decide (t + 48 ≤ s.clock)
    | none => false)

/-- Set or clear `bounded_gate`; each closing raises its event (R158, R164). -/
def State.boundedGate (s : State) : State :=
  let old := s.flag F.TRK_STAT_bounded_gate 0
  let s1 := s.setFlag F.TRK_STAT_bounded_gate 0 s.boundedOld
  if s.boundedOld && !old then s1.raise Ev.BOUNDED_GATE_CLOSED else s1

/-- A DISABLE of the cache is pending: new requests are held at the slices (R227). -/
def State.disabling (s : State) : Bool :=
  match s.cache.maint with
  | some v => bits v 3 0 == 0xA
  | none => false

/-- A request is in its cache slice: it waits there for a miss entry or for its folio. -/
def Req.inSlice (r : Req) : Bool := r.gate == .slice || r.gate == .staging

/-- What the pass over the held requests carries from one to the next. -/
structure Pass where
  st : State
  /-- A store waits at the ink gate: every later store that adds ink waits behind it (R157). -/
  inkShut : Bool
  /-- Folios for which an earlier store has passed the ink gate and waits for staging. -/
  promised : List Nat
  /-- Lines that an earlier held store is to write (R152). -/
  lines : List Nat

/-- Folios that a store would newly make ink (R190). -/
def State.newInk (s : State) (ws : List LineWrite) : List Nat :=
  ws.foldl (fun a w =>
    if s.linePersistent w.line && !(s.folio (w.line / 1024)).isInk then setIns a (w.line / 1024) else a) []

/-- A folio waits for its replacement after a freeze (R273, R274). -/
def State.inRepair (s : State) (f : Nat) : Bool := s.dram.replace1.contains f || s.dram.replace3.contains f

/-- A request moves the folio it needs to the head of its step (R274). -/
def State.hasten (s : State) (f : Nat) : State :=
  let front (l : List Nat) : List Nat := if l.contains f then f :: l.filter (fun x => x != f) else l
  { s with dram := { s.dram with replace1 := front s.dram.replace1, replace3 := front s.dram.replace3 } }

/-- The DRAM under a VOLATILE folio is gone: its channel is frozen (R274). -/
def State.volatileGone (s : State) (e : Rgn) (f : Nat) : Bool :=
  !e.persistent && (match mapGet? s.dram.volFrames f with
    | some fr => s.chanFrozen (chanOf fr)
    | none => false)

/-- Whether a source is a twin message or an internal unit, which the host's gates do not hold (R160, R552). -/
def Source.isInner (x : Source) : Bool :=
  match x with
  | .twin _ => true
  | .unit _ => true
  | _ => false

/-- A script operation meets a key slot that is gone (R441, R668). -/
def State.keyLost (s : State) (r : Req) : State :=
  match r.src with
  | .script sc cx sl => (s.unhold r.acc).scriptAnswer sc cx sl St.KEY_LOST 0
  | _ => s
def Source.isScript (x : Source) : Bool :=
  match x with
  | .script _ _ _ => true
  | _ => false

/-- A RESIDENT folio whose contents load-in could not decrypt: its frame waits for them (R185, R668). -/
def State.residentWaits (s : State) (f : Nat) : Bool := (s.folio f).gone && !(s.folio f).lost

/-- Its key slot is still empty. -/
def State.residentGone (s : State) (f : Nat) : Bool := s.residentWaits f && !s.keyReady f

/-- RESIDENT folios whose key slot has been loaded since take their contents. -/
def State.residentFill (s : State) (fs : List Nat) : State :=
  fs.foldl (fun st f => match st.regionAt (f * 65536) with
    | some e => if st.residentWaits f && st.keyReady f then st.residentIn e f else st
    | none => st) s

/-! ### Cache slices (R140, R143, R144, R387) -/

/-- The cache slice of a request. -/
def Req.slice (r : Req) : Nat := lineSlice (r.dpa / 64)

/-- Input credits of a slice that a class holds: its requests that wait there for a miss entry. -/
def State.sliceUsed (s : State) (sl cls : Nat) : Nat :=
  (s.path.held.filter (fun r => r.gate == .slice && r.cls == cls && r.slice == sl)).length

/-- Miss entries of a slice in use: requests that wait there for the stager. -/
def State.missUsed (s : State) (sl : Nat) : Nat :=
  (s.path.held.filter (fun r => r.gate == .staging && r.slice == sl)).length

/-- Waiters on the single-flight entry of a folio. -/
def State.waiters (s : State) (f : Nat) : Nat :=
  (s.path.held.filter (fun r => r.gate == .staging && r.dpa / 65536 == f)).length

/-- A request that waits at its slice may take a miss entry and chain on the folio's single-flight entry (R140, R387). -/
def State.mayMiss (s : State) (r : Req) : Bool :=
  sliceMiss.free (fun c => if c = 0 then s.missUsed r.slice else 0) 0 && decide (s.waiters (r.dpa / 65536) < 4096)

/-- Where a request that needs the stager stands: with a miss entry, at the slice with an input credit, or in the tracker
behind those of its class that wait for one (R144). -/
def State.sliceGate (s : State) (r : Req) : Gate :=
  match r.gate with
  | .staging => .staging
  | .slice => if s.mayMiss r then .staging else .slice
  | .credit => .credit
  | _ =>
    if s.path.held.any (fun q => q.gate == .credit && q.cls == r.cls && q.slice == r.slice) ||
        !sliceInput.free (s.sliceUsed r.slice) r.cls then .credit
    else if s.mayMiss r && !s.path.held.any (fun q => q.gate == .slice && q.slice == r.slice) then .staging
    else .slice

/-- Input credits of a slice that have come back go to the classes that wait for them in the tracker (R144, R148). -/
def State.sliceGrant (s : State) (sl : Nat) : Nat → State
  | 0 => s
  | n + 1 =>
    let mine := s.path.held.filter (fun r => r.gate == .credit && r.slice == sl && sliceInput.free (s.sliceUsed sl) r.cls)
    if mine.isEmpty then s
    else
      let (c, s1) := s.grant (stageSlice sl) (mine.map (fun r => r.cls))
      match mine.find? (fun r => r.cls == c) with
      | some r => (s1.setGate r.acc .slice).sliceGrant sl n
      | none => s1

/-- Every slice that requests wait for in the tracker. -/
def State.sliceGrants (s : State) : State :=
  let wait := s.path.held.filter (fun r => r.gate == .credit)
  (wait.foldl (fun a r => setIns a r.slice) []).foldl (fun st sl => st.sliceGrant sl wait.length) s

/-! ### Maintenance by address (R224) -/

/-- The lines of an operation by address that has not acted, for requests accepted after it. -/
def State.maintHolds (s : State) (acc line : Nat) : Bool :=
  match s.cache.maintAt with
  | some (a, lo, hi) => decide (a ≤ acc) && decide (lo ≤ line) && decide (line < hi)
  | none => false

/-- What an operation by address does to the lines it selects (R221, R222). -/
def State.maintAct (s : State) (op : Nat) (sel : Nat → CLine → Bool) : State :=
  if op = 1 then s.cleanWays sel else if op = 2 then s.invalidateWays sel else s.flushWays sel

/-- An operation by address acts once no store accepted before it waits to be applied to one of its lines (R152, R224). -/
def State.maintGo (s : State) : State :=
  match s.cache.maintAt, s.cache.maint with
  | some (a, lo, hi), some v =>
    if s.path.held.any (fun r => r.isStore && decide (r.acc < a) &&
        ((r.dpa / 64) :: r.writes.map (fun w => w.line)).any (fun l => decide (lo ≤ l) && decide (l < hi))) then s
    else
      let s1 := s.maintAct (bits v 3 0) (fun _ c => decide (lo ≤ c.line) && decide (c.line < hi))
      { s1 with cache := { s1.cache with maintAt := none } }
  | _, _ => s

/-- One held store: the first gate that holds it, or its application (R117, R140, R152, R157 to R160, R191, R224, R274, R364,
R388, R551, R568, R668). -/
def Pass.store (p : Pass) (r : Req) : Pass :=
  let s := p.st
  let ws := (s.storeLines r).1
  let fs := ws.foldl (fun a w => setIns a (w.line / 1024)) []
  let rs := ws.filterMap (fun w => s.regionAt (w.line * 64))
  let wait (g : Gate) : Pass := { p with st := s.setGate r.acc g, lines := p.lines ++ ws.map (fun w => w.line) }
  let pers := rs.any (fun e => e.persistent)
  let new := s.newInk ws
  let fresh := new.filter (fun f => !p.promised.contains f)
  let absent := fs.filter (fun f => (s.folio f).state == .absent && (s.regionAt (f * 65536)).any (fun e => e.staged))
  let staging := fs.filter (fun f => (s.folio f).state == .staging)
  let isTwin := r.src.isTwin
  if s.inStrike || s.inLoadIn || (s.disabling && !r.inSlice) then wait .held
  else if rs.isEmpty then { p with st := s.discardStore r }
  else if rs.any (fun e => s.twin.absentNone.contains e.idx) && !r.src.isInner then
    { p with st := (s.noneAbsent ((rs.map (fun e => e.idx)).headD 0)).discardStore r }
  else if pers && !r.src.isInner && (s.fenceHold || s.twin.gateClosed) then
    wait (if s.twin.gateClosed && !s.fenceHold then .handover else .fence)
  else if !r.src.isInner && s.boundedOld && s.role == 1 && rs.any (fun e => e.persistent && s.mirrorOf e == 1) then
    wait .bounded
  else if !r.src.isInner && s.mirrors && rs.any (fun e => e.persistent && s.mirrorOf e != 0) &&
      !s.sendRoom (32 + 80 * ws.length) then wait .send
  else if ws.any (fun w => s.biOut w.line) then wait .backInval
  else if ws.any (fun w => p.lines.contains w.line || s.maintHolds r.acc w.line) then wait .order
  else if !fresh.isEmpty && (p.inkShut || !s.inkRoom (p.promised.length + fresh.length)) then
    { wait .ink with inkShut := true }
  else if rs.any (fun e => fs.any (fun f => s.volatileGone e f)) then { p with st := s.discardStore r }
  else if fs.any s.inRepair then
    { p with st := (fs.foldl (fun st f => st.hasten f) s).setGate r.acc .repair, lines := p.lines ++ ws.map (fun w => w.line),
             promised := p.promised ++ fresh }
  else if fs.any (fun f => (s.folio f).isLost) then
    (match r.src with
     | .script sc cx sl => { p with st := (s.unhold r.acc).scriptAnswer sc cx sl St.LOST 0 }
     | _ => wait .lost)
  else if r.src.isScript && absent.any s.keyGone then { p with st := s.keyLost r }
  else if fs.any s.residentGone then
    (if r.src.isScript && fs.any s.keyGone then { p with st := s.keyLost r }
     else { wait .staging with promised := p.promised ++ fresh })
  else if (!absent.isEmpty || !staging.isEmpty) && !isTwin then
    let g := s.sliceGate r
    let s1 := if g == .staging then
        absent.foldl (fun st f => if (st.entryOf f).isNone then st.openEntry f none else st) s else s
    if fs.all (fun f => (s1.folio f).state != .absent && (s1.folio f).state != .staging) then
      { p with st := s1.applyStore r }
    else
      { p with st := (s1.setGate r.acc g).waiterLimit (fs.headD 0), lines := p.lines ++ ws.map (fun w => w.line),
               promised := p.promised ++ fresh }
  else { p with st := (s.residentFill fs).applyStore r }

/-- The snoop filter has room for a line, or already tracks it (R114, R115). -/
def State.filterRoom (s : State) (line : Nat) : Bool :=
  (mapGet? s.host.snoop line).isSome || decide (s.host.snoop.length < 2097152)

/-- Choose a victim of the full snoop filter and snoop its holders; SF_EVICT once per 4,096 (R115, R139). -/
def State.filterEvict (s : State) : State :=
  match s.host.snoop.find? (fun p => !s.biOut p.1) with
  | none => s
  | some (line, hs) =>
    let n := s.host.sfEvictions + 1
    let s1 := ({ s with host := { s.host with sfEvictions := n } }).biSnoop line hs
    if n % 4096 = 0 then s1.raise Ev.SF_EVICT else s1

/-- A store to a line has been applied and is not complete: it waits for the twin or for BIRsps, or its completion has not left
the completion stage (R16, R153). -/
def State.storePending (s : State) (line : Nat) : Bool :=
  s.path.applied.any (fun a => a.lines.contains line) || s.path.compl.any (fun c => c.isStore && c.lines.contains line)

/-- The link of a host request. -/
def Source.link (x : Source) : Nat :=
  match x with
  | .host l _ _ _ => l
  | _ => 0

/-- One held load (R26 to R28, R98, R115, R117, R140, R153, R179, R274, R364, R422, R552, R568). -/
def State.passLoad (s : State) (r : Req) : State :=
  let line := r.dpa / 64
  let f := r.dpa / 65536
  let isHost := match r.src with
    | .host _ _ _ _ => true
    | _ => false
  if s.inStrike || s.inLoadIn || (s.disabling && !r.inSlice) then s.setGate r.acc .held
  else match s.regionAt r.dpa with
  | none => s.poisonLoad r 0
  | some e =>
    let x := s.folio f
    if e.persistent && s.role == 2 && isHost then s.poisonLoad r 0
    else if s.twin.absentNone.contains e.idx && !r.src.isInner then (s.noneAbsent e.idx).poisonLoad r 0
    else if s.volatileGone e f then s.poisonLoad r 0
    else if s.storePending line then s.setGate r.acc .applied
    else if s.biOut line then s.setGate r.acc .backInval
    else if e.persistent && s.inRepair f then (s.hasten f).setGate r.acc .repair
    else if e.persistent && x.isLost then s.poisonLoad r (if isHost then 0 else St.LOST)
    else if e.persistent && (x.state == .absent || s.residentWaits f) && s.keyGone f then
      s.poisonLoad r (if isHost then 0 else St.KEY_LOST)
    else if s.residentWaits f then
      if s.keyReady f then (s.residentFill [f]).serveLoad e r else s.setGate r.acc .staging
    else if e.staged && (x.state == .absent || x.state == .staging) then
      if isHost && r.poisonMiss then
        let s1 := if x.state == .absent && (s.entryOf f).isNone then s.wantFolio f else s
        let y := s1.folio f
        if y.state != .absent && y.state != .staging then s1.serveLoad e r else s1.poisonLoad r 0
      else
        let g := s.sliceGate r
        let s1 := if g == .staging && x.state == .absent && (s.entryOf f).isNone then s.openEntry f none else s
        let y := s1.folio f
        if y.state != .absent && y.state != .staging then s1.serveLoad e r
        else (s1.setGate r.acc g).waiterLimit f
    else if e.coherence = 1 && r.own && isHost && s.biOn (r.src.link) && !s.filterRoom line then
      (if r.gate == .backInval then s else s.filterEvict).setGate r.acc .backInval
    else s.serveLoad e r

/-- One held request. -/
def Pass.step (p : Pass) (r : Req) : Pass :=
  if r.isStore then p.store r
  else
    let st := p.st.passLoad r
    let waits := (match r.src with
      | .script _ _ _ => true
      | _ => false) && st.path.held.any (fun q => q.acc == r.acc)
    { p with st := st, lines := if waits then p.lines ++ [r.dpa / 64] else p.lines }

/-- The pass over the held requests, in acceptance order. -/
def State.releaseHeld (s : State) : State :=
  (s.path.held.foldl Pass.step { st := s, inkShut := false, promised := [], lines := [] }).st

/-! ### Acceptance -/

/-- A request as it reaches the tracker. -/
def State.request (s : State) (src : Source) (isStore : Bool) (dpa : Nat) (ws : List LineWrite) (cls bound : Nat)
    (own isSeal : Bool) (rmw : Option Rmw) : Req :=
  { acc := s.path.nextAcc, src := src, isStore := isStore, dpa := dpa, writes := ws, cls := cls, t0 := s.clock, bound := bound,
    poisonMiss := (s.regionAt dpa).any (fun e => e.poisonMiss), wayMask := s.clsMask cls, bad := false, own := own,
    isSeal := isSeal, rmw := rmw, gate := .none, gateAt := s.clock, inkHeld := false }

/-- A request takes a tracker entry and the next acceptance number; what its acceptance fixes is fixed then (R27, R87, R141). -/
def State.take (s : State) (r : Req) : State :=
  let r1 := { r with acc := s.path.nextAcc, wayMask := s.clsMask r.cls,
                     poisonMiss := (s.regionAt r.dpa).any (fun e => e.poisonMiss) }
  { s with path := { s.path with nextAcc := s.path.nextAcc + 1, held := s.path.held ++ [r1] } }

/-- A request of a class whose entries of the internal pool are all its own is accepted at once (R147: every scribe has its 64). -/
def State.accept (s : State) (src : Source) (isStore : Bool) (dpa : Nat) (ws : List LineWrite) (cls bound : Nat)
    (own isSeal : Bool) (rmw : Option Rmw) : State := s.take (s.request src isStore dpa ws cls bound own isSeal rmw)

/-- An internal request is accepted, or waits for an entry of the internal pool behind those of its class (R11, R144, R147). -/
def State.acceptInner (s : State) (r : Req) : State :=
  if s.innerRoom r.cls && !s.path.inner.any (fun q => q.cls == r.cls) then s.take r
  else { s with path := { s.path with inner := s.path.inner ++ [r] } }

/-- Entries of the internal pool that have come free go to the classes that wait for them (R144, R147, R148). -/
def State.admitInner (s : State) : Nat → State
  | 0 => s
  | n + 1 =>
    let mine := s.path.inner.filter (fun r => s.innerRoom r.cls)
    if mine.isEmpty then s
    else
      let (c, s1) := s.grant stageInner (mine.map (fun r => r.cls))
      match mine.find? (fun r => r.cls == c) with
      | some r => (({ s1 with path := { s1.path with inner := s1.path.inner.erase r } }).take r).admitInner n
      | none => s1

/-- CXL.mem is served (R67, R68, R80, R243): the start has ended, a role scene is active, load-in is over. -/
def State.serving (s : State) : Bool :=
  decide (8 ≤ s.pwr.step) && !s.pwr.noMem && (s.fld F.SCENE_ACTIVE_set 0) &&& 0xE != 0 && !s.sceneOn 7 &&
    !s.inStrike && !s.inLoadIn

/-- A link carries CXL.mem now (R92, R93). -/
def State.linkServes (s : State) (n : Nat) : Bool :=
  s.flag F.HPORT_STAT_up n && s.flag F.HPORT_STAT_cxl n && !s.flag F.HPORT_STAT_frozen n && decide (n < 8) &&
    (n % 2 == 0 || (s.link (n - 1)).split)

/-- The place in the queue windows (logical device × 2^28 + offset) of a DPA that lies in the requester's own queue
window (R30, R501, R502). -/
def State.queueWindow (s : State) (link key ident dpa : Nat) : Option Nat :=
  let off := dpa - 2 ^ 48
  let n := off / 2 ^ 28
  if dpa < 2 ^ 48 ∨ 128 ≤ n ∨ n / 16 ≠ link then none
  else if s.linkMode link = 2 then
    (if s.flag F.QUEUE_GFD_MAP_valid n && s.fld F.QUEUE_GFD_MAP_identity n == ident then some off else none)
  else if n % 16 = key then some off
  else none

/-- A line of a queue window; the doorbell page reads as zero (R515). -/
def State.queueLine (s : State) (w : Nat) : Line :=
  if 0x0FFFF000 ≤ w % 2 ^ 28 then 0 else lineOfBytes (memReadN 0 s.que.window (w / 64 * 64) 64)

/-- A store into a queue window: the doorbell page collects doorbells in their order of acceptance (R515, R516); a
doorbell is good only as one aligned 8-byte store (R517). -/
def State.queueStore (s : State) (w mask : Nat) (data : Line) : State :=
  let base := w / 64 * 64
  if 0x0FFFF000 ≤ w % 2 ^ 28 then
    let k := ((upto 8).find? (fun k => mask == 0xFF <<< (8 * k))).getD 8
    let b : Bell := { ld := w / 2 ^ 28, off := w / 64 * 64 % 2 ^ 28 - 0x0FFFF000 + 8 * k, wide := decide (k < 8),
                      value := if k < 8 then bits data.toNat (64 * k + 63) (64 * k) else 0 }
    { s with que := { s.que with bells := s.que.bells ++ [b] } }
  else
    let bs := mergeBytes mask (memReadN 0 s.que.window base 64) (lineBytes data)
    { s with que := { s.que with window := memWriteN 0 s.que.window base bs } }

/-- What translation and the access check say of a host request (R101, R105, R107, R145): its identity, DPA, window, its own
queue window, its service class. A request that matches no window is of class 1. -/
structure Checked where
  ident : Option Nat
  dpa : Option Nat
  win : Option Nat
  qwin : Option Nat
  cls : Nat

/-- Check a request at port ingress. -/
def State.checkHost (s : State) (q : Ingress) : Checked :=
  let ident := s.matchIdentity q.link q.key
  let dpa := s.hdmTranslate (s.hdmDevice q.link q.key) q.hpa
  let win := match ident, dpa with
    | some i, some d => s.windowFor i d (if q.isStore then 61 else 62)
    | _, _ => none
  { ident := ident, dpa := dpa, win := win,
    qwin := (match ident, dpa with
      | some i, some d => s.queueWindow q.link q.key i d
      | _, _ => none),
    cls := (match ident, win with
      | some i, some w => bits (s.liveWord .TRK_WCLASS i).toNat (2 * w + 1) (2 * w)
      | _, _ => 1) }

/-- The first cause of R105 for which a request fails: 1 no identity, 2 no window, 3 the stream was not secure as it arrived. -/
def Checked.bad (k : Checked) (q : Ingress) : Nat :=
  if k.ident.isNone then 1 else if k.win.isNone && k.qwin.isNone then 2 else if q.insecure then 3 else 0

/-- The link's occupancy has risen: `TRK_LINK_OCC.peak` follows it at once (R168). -/
def State.peakUp (s : State) (link : Nat) : State :=
  let occ := s.linkOcc link
  if s.fld F.TRK_LINK_OCC_peak link < occ then s.setFld F.TRK_LINK_OCC_peak link occ else s

/-- Take a host request from port ingress: translation, access check, then the path (R105, R106, R107, R145). A load whose
ingress buffer was damaged completes with poison, a store so damaged poisons its line (R681); both pass the check first. -/
def State.letIn (s : State) (q : Ingress) : State :=
  let k := s.checkHost q
  let addr := k.dpa.getD q.hpa
  let bad := k.bad q
  let src : Source := .host q.link q.key (k.ident.getD 0) q.tag
  if bad ≠ 0 then
    let s1 := s.violation q.link q.key q.isStore k.dpa.isNone k.ident bad addr
    if q.isStore then s1.storeComplete q.link q.tag k.cls q.t0 0 [] else s1.loadComplete q.link q.tag k.cls q.t0 true 0
  else if !q.isStore && q.bad then s.loadComplete q.link q.tag k.cls q.t0 true 0
  else if k.qwin.isSome then
    let w := k.qwin.getD 0
    if q.isStore then (s.queueStore w q.mask q.data).storeComplete q.link q.tag k.cls q.t0 0 []
    else s.loadComplete q.link q.tag k.cls q.t0 false (s.queueLine w)
  else
    let bound := s.clock + (match s.regionAt addr with
      | some e => e.stallUs
      | none => 200)
    let w : LineWrite := { line := addr / 64, mask := q.mask, data := q.data }
    let r := s.request src q.isStore addr (if q.isStore then [w] else []) k.cls bound q.own false none
    (s.take { r with t0 := q.t0, bad := q.bad }).peakUp q.link

/-- The request of a link that is served next: its class by R148, among its class the identities in turn (R149). -/
def State.nextIngress (s : State) (link : Nat) (mine : List Ingress) : Option Ingress × State :=
  let ks := mine.map (fun q => (q, s.checkHost q))
  let (c, s1) := s.grant (stageLink link) (ks.map (fun p => p.2.cls))
  let ids := (ks.filter (fun p => p.2.cls == c)).map (fun p => (p.2.ident.getD 256, p.1))
  let order := ids.foldl (fun a p => setIns a p.1) []
  let last := mapGet? s1.path.turns (link * 4 + c)
  let i := match order.find? (fun i => last.any (fun l => decide (l < i))) with
    | some i => i
    | none => order.headD 0
  ((ids.find? (fun p => p.1 == i)).map (fun p => p.2),
    { s1 with path := { s1.path with turns := mapSet s1.path.turns (link * 4 + c) i } })

/-- Admit waiting requests of a link while it has tracker entries and no load of its key waits (R97, R140, R144, R662). -/
def State.admitLink (s : State) (link : Nat) : Nat → State
  | 0 => s
  | n + 1 =>
    let mine := s.path.ingress.filter (fun q => q.link == link)
    if mine.isEmpty || !s.linkServes link || s.ideStalls link false || decide (s.share link ≤ s.linkOcc link) then s
    else match s.nextIngress link mine with
      | (some q, s1) => (({ s1 with path := { s1.path with ingress := s1.path.ingress.erase q } }).letIn q).admitLink link n
      | (none, s1) => s1

/-- Admit what waits at port ingress and for the internal pool. -/
def State.admitAll (s : State) : State :=
  let s1 := s.admitInner s.path.inner.length
  if s1.serving then (upto 8).foldl (fun st n => st.admitLink n s1.path.ingress.length) s1 else s1

/-- Credits of port ingress that a link has for a request: M2S Req for a load, RwD for a store (R140). -/
def State.ingressRoom (s : State) (link : Nat) (isStore : Bool) : Bool :=
  let n := (s.path.ingress.filter (fun q => q.link == link && q.isStore == isStore)).length
  decide (n < (if isStore then 512 else 1024) / (if s.share link = 16384 then 1 else 2))

/-! ### What follows every change -/

/-- The region's stores, or every region's, are done up to an acceptance number (R135). -/
def State.barrierHolds (s : State) (region last : Nat) : Bool :=
  let covers (d : Nat) : Bool := region == 0xFFFF || (match s.regionAt d with
    | some e => e.idx == region
    | none => false)
  !(s.path.held.any (fun r => r.isStore && decide (r.acc < last) &&
    (covers r.dpa || r.writes.any (fun w => covers (w.line * 64))))) &&
  !(s.path.applied.any (fun a => decide (a.acc < last) && a.lines.any (fun l => covers (l * 64)))) &&
  !(s.path.compl.any (fun c => c.isStore && decide (c.acc < last) && c.lines.any (fun l => covers (l * 64)))) &&
  !(s.twin.unacked.any (fun m => m.boundedAt.isSome))

/-- Answer the persist barriers and GPF phases that now hold (R128, R135, R138). -/
def State.barriers (s : State) : State :=
  let s1 := s.host.barriers.foldl (fun st b =>
    if st.barrierHolds b.2.1 b.2.2 then st.answer b.1 0xC008 St.DONE []
    else { st with host := { st.host with barriers := st.host.barriers ++ [b] } })
    { s with host := { s.host with barriers := [] } }
  (upto 8).foldl (fun st n => match (st.link n).gpf with
    | some last =>
      if st.barrierHolds 0xFFFF last then
        ((st.setLink n { st.link n with gpf := none }).send (.gpfDone n 2)).raise Ev.GPF_DONE
      else st
    | none => st) s1

/-- Refresh the tracker's registers and the ink gate's events (R157, R160, R164, R168). -/
def State.trackerRegs (s : State) : State :=
  let ink := s.path.held.any (fun r => r.inkHeld)
  let fence := s.path.held.any (fun r => r.gate == .fence)
  let inner := s.innerOcc
  let was := s.flag F.TRK_STAT_ink_gate 0
  let s1 := ((s.setFlag F.TRK_STAT_ink_gate 0 ink).setFlag F.TRK_STAT_fence_hold 0 fence).setFld
    F.TRK_STAT_internal_occ 0 inner
  let s2 := if ink && !was then s1.raise Ev.INK_GATE_CLOSED else if was && !ink then s1.raise Ev.INK_GATE_OPEN else s1
  let s3 := if fence && s2.fenced && !s2.path.fenceRaised then
      ({ s2 with path := { s2.path with fenceRaised := true } }).raise Ev.PERSIST_FENCED
    else { s2 with path := { s2.path with fenceRaised := s2.path.fenceRaised && s2.fenced } }
  (upto 8).foldl (fun st n =>
    let occ := st.linkOcc n
    ((st.setFld F.TRK_LINK_OCC_occ n occ).setFld F.TRK_LINK_OCC_devload n (st.devLoad n occ)).peakUp n) s3

/-- What a microsecond of the model's clock brings: the occupancies are sampled while the tracker runs (R170), and the prompt
book's writer works (R709). -/
def State.tickWork (s : State) : State :=
  let s1 := { s with pb := { s.pb with writer := writerAfter 1000 s.pb.writer } }
  if s.pwr.fabUp then
    ((upto 8).foldl (fun st n => st.sample (0x044 + n) (st.linkOcc n)) s1).sample 0x04C s1.innerOcc
  else s1

end Sys2Proof.Machine
end

