-- ==== Sys2Proof/Machine/Freeze.lean ====
section
/-! DEFINITION. A frozen DRAM channel and the replacement of its contents (R195, R271 to R283), and the retirement of row
sets (R266, R268 to R270). -/

set_option Elab.async false

namespace Sys2Proof.Machine

/-! ### Row sets (R245, R268, R270) -/

/-- The row set that a row names in word 1 of R283's form: its number within the channel. -/
def State.rowSet (s : State) (c word1 : Nat) : Nat :=
  let nr := if s.fld F.DMC_GEOM_ranks c = 2 then 1 else 0
  let nd := if s.fld F.DMC_GEOM_dimms c = 2 then 1 else 0
  bits word1 1 1 * nr + bits word1 0 0 * nd * 2 ^ nr + bits word1 31 14 * 2 ^ (nr + nd)

/-- The eight frames of a row set. -/
def rowFrames (c rs : Nat) : List Nat := (upto 8).map (fun i => c + 12 * (rs * 8 + i))

/-- A frame that holds data the controller uses: a present folio, VOLATILE data, a second copy, a map page, the granule table or
the journal area (R266). -/
def State.frameUsed (s : State) (fr : Nat) : Bool :=
  (s.usedFrames.contains fr && !s.dram.retired.contains fr) || s.inArea fr

/-- Retire a row set (R268, R269, R270): false when that would exceed the channel's budget; then RETIRE_FULL. -/
def State.retireRow (s : State) (c word1 : Nat) : State × Bool :=
  let fs := rowFrames c (s.rowSet c word1)
  if 4096 < s.fld F.DMC_REPAIR_STAT_retired c + 8 then
    ((s.setChan c { s.chan c with full := true }).raiseD Ev.RETIRE_FULL c, false)
  else
    let s1 := { s with dram := { s.dram with retired := fs.foldl setIns s.dram.retired } }
    let s2 := (s1.setFld F.DMC_REPAIR_STAT_retired c (s.fld F.DMC_REPAIR_STAT_retired c + 8)).jAppend
      { type := 0x0C, args := [c, 2, word1] }
    (s2.setStagePool.raiseD Ev.PAGE_RETIRED (wide32 c word1), true)

/-! ### Frames for what must move (R268, R275) -/

/-- A frame by eviction on a channel that `ok` lets through, channels in round robin, skipping frozen ones and those with no
frame to give (R275). -/
def State.evictFrameOf (s : State) (ok : Nat → Bool) : Option (Nat × State) :=
  (upto 12).findSome? (fun k =>
    let c := (s.dram.rr + k) % 12
    if s.chanFrozen c || !ok c then none
    else match s.chooseVictimOf (fun fr => chanOf fr == c) with
      | (some v, s1) =>
        let s2 := s1.evictFolio v
        some ((s.folio v).frame, { s2 with dram := { s2.dram with rr := (c + 1) % 12 } })
      | (none, _) => none)

/-- A frame on a channel in service that `ok` lets through, free or evicted (R275). -/
def State.replaceFrameOf (s : State) (ok : Nat → Bool) : Option (Nat × State) :=
  match s.takeFrameOf ok with
  | some r => some r
  | none => s.evictFrameOf ok

/-- The place of an area of `n` frames on channel `c`: above every frame in use there, if the channel has the room. -/
def State.areaPlace (s : State) (c n : Nat) : Option Nat :=
  let used := (s.usedFrames.filter (fun f => f % 12 == c)).map (fun f => f / 12 + 1)
  let ends := (s.dram.areas.filter (fun a => a.2.1 == c)).map (fun a => a.2.2.1 + a.2.2.2)
  let k := (used ++ ends).foldl max 0
  if k + n ≤ s.fld F.DMC_GEOM_cap_gib c * 16384 then some k else none

/-- Put the copy of an area that lay on channel `c` on another channel in service that holds none of the area (R188, R273; which
one is open, log entry 83). -/
def State.areaMove (s : State) (kind c : Nat) : State :=
  let mine := s.dram.areas.filter (fun a => a.1 == kind)
  let n := (mine.map (fun a => a.2.2.2)).headD 0
  match (upto 12).findSome? (fun k =>
      if s.chanFrozen k || mine.any (fun a => a.2.1 == k) then none else (s.areaPlace k n).map (fun p => (k, p))) with
  | some (k, p) =>
    let as_ := s.dram.areas.map (fun a => if a.1 == kind && a.2.1 == c then (kind, k, p, n) else a)
    { s with dram := { s.dram with areas := as_ } }
  | none => s

/-! ### Second copies (R193, R557, R770) -/

/-- Build the second copy of an ink folio whole, with a full dirty-line mask, in its pair-pool frame (R770). -/
def State.buildSecond (s : State) (f : Nat) : State :=
  let x := s.folio f
  if x.isInk && !x.covered && x.state != .absent && !s.chanFrozen (chanOf x.frame) then
    let (c, s1) := s.folioCells f
    let s2 := s1.takePair f
    if (s2.folio f).pairFrame.isNone then s2
    else
      let s3 := (s2.wakePair f).setFolio f { s2.folio f with second := some allLines }
      { s3 with dram := { s3.dram with second := memPaste 0 s3.dram.second (f * 65536) 65536 c } }
  else s

/-- The second copy of a folio is made anew where its region asks for one: in the partner channel of its frame (R193, R195). -/
def State.renewSecond (s : State) (f : Nat) : State :=
  let s1 := s.setFolio f { s.folio f with second := none, pairFrame := none }
  match s1.regionAt (f * 65536) with
  | some e => if s1.twoCopies e then s1.buildSecond f else s1
  | none => s1

/-! ### Replacing the contents of a frozen channel (R195, R273 to R277) -/

/-- The folio no longer waits for its replacement. -/
def State.replaced (s : State) (f : Nat) : State :=
  { s with dram := { s.dram with replace1 := s.dram.replace1.filter (fun x => x != f),
                                 replace3 := s.dram.replace3.filter (fun x => x != f) } }

/-- The base contents of a folio have come: the second copy's dirty lines are laid over them, and an ink folio's new frame
receives a second copy of its own (R195). -/
def State.finishReplace (s : State) (f : Nat) (cells : List Host.Cell) : State :=
  let s1 := s.framePut f cells
  let s2 := (match (s1.folio f).second with
    | some m => s1.overlaySecond f m
    | none => s1).replaced f
  if (s2.folio f).isInk then s2.renewSecond f else s2

/-- The base contents came whole from the twin (R276): DRAM holds every line newer than flash. -/
def State.finishWhole (s : State) (f : Nat) (cells : List Host.Cell) : State :=
  let s1 := (s.framePut f cells).replaced f
  let s2 := if (s1.folio f).isInk then s1.setFolio f { s1.folio f with dramLines := allLines } else s1
  if (s2.folio f).isInk then s2.renewSecond f else s2

/-- An ink folio whose copies are all gone (R277): LOST. It stays ink in name (R192), its contents are nowhere (log entry 29). -/
def State.loseInk (s : State) (f : Nat) : State :=
  let s1 := ((s.folioErase f).markLost f true)
  let s2 := s1.setFolio f { s1.folio f with gone := true, second := none, pairFrame := none, dramLines := 0, ahead := none }
  (s2.replaced f).raiseD Ev.DMC_INK_LOST (f * 65536)

/-- The folio's contents come from the twin (R276, R277): no second copy here covers it, and it is mirrored. -/
def State.fromTwin (s : State) (f : Nat) : Bool :=
  let x := s.folio f
  x.isInk && !x.covered && (s.role == 1 || s.role == 2) && (match s.regionAt (f * 65536) with
    | some e => s.mirrorOf e != 0
    | none => false)

/-- The read or fetch of a waiting folio is under way. -/
def State.replaceIssued (s : State) (f : Nat) : Bool :=
  s.flash.reads.any (fun r => r.folio == f) || s.twin.fetches.any (fun j => j.folio == f)

/-- The state in which a waiting folio has a frame outside frozen channels, if one can be had (R275). -/
def State.replacePlace (s : State) (f : Nat) : Option State :=
  if s.chanFrozen (chanOf (s.folio f).frame) then
    match s.replaceFrameOf (fun _ => true) with
    | some (fr, s1) => some (s1.setFolio f { s1.folio f with frame := fr })
    | none => none
  else some s

/-- No frame can be had: DMC_REPLACE_SHORT once in a shortage (R275). -/
def State.replaceShort (s : State) : State :=
  if s.dram.shortRaised then s
  else ({ s with dram := { s.dram with shortRaised := true } }).raise Ev.DMC_REPLACE_SHORT

/-- Give a waiting folio its new frame and ask for its contents (R195, R273, R275, R276). A BLOTTING folio that no copy covers
waits for its quire: when that is held, flash has its contents. -/
def State.replaceOne (s : State) (f : Nat) : State :=
  let x := s.folio f
  if s.replaceIssued f || (s.fromTwin f && !s.twinUp) then s
  else if x.isInk && !x.covered && !s.fromTwin f then (if x.state == .blotting then s else s.loseInk f)
  else
    match s.replacePlace f with
    | none => s.replaceShort
    | some s1 =>
      let s2 := { s1 with dram := { s1.dram with shortRaised := false } }
      if s2.fromTwin f then s2.fetchFolio f .rebuild
      else if x.gen = 0 || x.second == some allLines then s2.finishReplace f []
      else if !s2.keyReady f then s2
      else s2.flashRead f 5

/-- One item of step 2 of R273: the second copy of a folio, the copy of a map page, or that of an area. -/
def State.replaceCopy (s : State) (k : Nat) : State :=
  let done (t : State) : State := { t with dram := { t.dram with replace2 := t.dram.replace2.filter (fun x => x != k) } }
  if k < 2 ^ 32 then
    (let x := s.folio k
     if !x.isInk || x.gone then done s
     else if s.chanFrozen (chanOf x.frame) then s
     else
       let s1 := s.renewSecond k
       if (s1.folio k).covered then done s1 else s1.replaceShort)
  else if k < 2 ^ 33 then
    (let g := k - 2 ^ 32
     let fs := mapGet [] s.dram.mapPages g
     if 2 ≤ fs.length || !(s.dram.mapPages.any (fun p => p.1 == g)) then done s
     else match s.replaceFrameOf (fun c => !fs.any (fun fr => chanOf fr == c)) with
       | some (fr, s1) => done { s1 with dram := { s1.dram with mapPages := mapSet s1.dram.mapPages g (fs ++ [fr]) } }
       | none => s.replaceShort)
  else
    (let kind := k - 2 ^ 33
     match s.dram.areas.find? (fun a => a.1 == kind && s.chanFrozen a.2.1) with
     | some a =>
       let s1 := s.areaMove kind a.2.1
       if s1.dram.areas == s.dram.areas then s.replaceShort else s1
     | none => done s)

/-- Everything that waits for its replacement, in the order of R273 and R274. -/
def State.replaceAll (s : State) : State :=
  let s1 := s.dram.replace1.foldl (fun st f => st.replaceOne f) s
  let s2 := s1.dram.replace2.foldl (fun st k => st.replaceCopy k) s1
  s2.dram.replace3.foldl (fun st f => st.replaceOne f) s2

/-! ### The freeze (R272, R276, R277, R283) -/

/-- The snapshot words of a freeze: those that R283 lists, as the channel captured them. -/
def State.snapshot (s : State) (c cause cls : Nat) (words : List Nat) : State :=
  let keep (w v : Nat) : Nat :=
    if w = 0 then cause * 2 ^ 24 + (cls % 32) * 2 ^ 16
    else if w = 2 then mixBits 0x0FFFFFFE v 0
    else if w = 1 ∨ (3 ≤ w ∧ w ≤ 6) ∨ (16 ≤ w ∧ w ≤ 47) then v % 2 ^ 32
    else if w = 8 then v % 2 ^ 16
    else if 48 ≤ w ∧ w ≤ 59 then v % 256
    else 0
  (upto 64).foldl (fun st w => st.setLive .DMC_FREEZE_SNAP (c * 64 + w) (keep w (words.getD w 0))) s

/-- Folios whose second copy or held lines lie in a channel. -/
def State.pairIn (s : State) (c : Nat) : List Nat :=
  (s.ink.folios.filter (fun p => p.2.pairFrame.any (fun fr => chanOf fr == c))).map (fun p => p.1)

/-- A folio's frame of the pair pool is gone with its contents (R273, R277). -/
def State.pairGone (s : State) (f : Nat) : State :=
  let x := s.folio f
  let s1 := s.setFolio f { x with second := none, pairFrame := none, heldLines := 0 }
  let s2 := { s1 with dram := { s1.dram with second := memClear s1.dram.second (f * 65536) ((f + 1) * 65536) } }
  if x.isInk && !(s2.folio f).isInk then s2.subInk (s2.folioRgn f) 1 else s2

/-- The contents of a channel are no longer used (R273, R276, R277). In an UNDERSTUDY the mirrored folios that lost contents
there are marked for the resync. -/
def State.dropChan (s : State) (c : Nat) : State :=
  let here (x : Folio) : Bool := x.state != .absent && chanOf x.frame == c && !x.gone
  let ink := (s.ink.folios.filter (fun p => here p.2 && p.2.isInk)).map (fun p => p.1)
  let clean := (s.ink.folios.filter (fun p => here p.2 && p.2.state == .clean)).map (fun p => p.1)
  let moving := (s.ink.folios.filter (fun p => here p.2 && p.2.state == .staging)).map (fun p => p.1)
  let pairs := s.pairIn c
  let mirrored (st : State) (f : Nat) : Bool := (st.regionAt (f * 65536)).any (fun e => st.mirrorOf e != 0)
  let pages := (s.dram.mapPages.filter (fun p => p.2.any (fun fr => chanOf fr == c))).map (fun p => 2 ^ 32 + p.1)
  let areas := (s.dram.areas.filter (fun a => a.2.1 == c)).map (fun a => 2 ^ 33 + a.1)
  let s1 := { s with dram := { s.dram with merge := s.dram.merge.filter (fun m => m.chan != c) } }
  let s2 := (clean.filter s.isStaged).foldl (fun st f => st.evictFolio f) s1
  let s3 : State := moving.foldl (fun st f =>
    let st1 := st.setFolio f { st.folio f with state := .absent, frame := 0 }
    let st2 := { st1 with flash := { st1.flash with reads := st1.flash.reads.filter (fun r => r.folio != f) } }
    match st2.entryOf f with
    | some e => st2.setEntry { e with assigned := false }
    | none => st2) s2
  let s4 : State := if s3.role = 2 then
    (ink ++ pairs).foldl (fun st f => if mirrored st f && !((st.folio f).covered && (st.folio f).heldLines == 0) then
      { st with twin := { st.twin with divMap := setIns st.twin.divMap (chunkOf (f * 65536)) } } else st) s3 else s3
  let s5 := pairs.foldl (fun st f => st.pairGone f) s4
  let maps := s5.dram.mapPages.map (fun p => (p.1, p.2.filter (fun fr => chanOf fr != c)))
  let more (old new : List Nat) : List Nat := old ++ new.filter (fun f => !old.contains f)
  { s5 with dram := { s5.dram with
    mapPages := maps,
    erroneous := s5.dram.erroneous.filter (fun p => s5.chanAt (p.1 * 64) != c),
    replace1 := more s5.dram.replace1 ink,
    replace2 := more s5.dram.replace2 (pairs.filter (fun f => (s5.folio f).isInk) ++ pages ++ areas),
    replace3 := more s5.dram.replace3 (clean.filter (fun f => !s.isStaged f)) } }

/-- Freeze a channel (R271 to R276): snapshot, event, DEGRADED, and the replacement of its contents; `dpa` is the line
whose request met the error, if one did, and its folio comes first (R274). -/
def State.freezeChan (s : State) (c cause cls : Nat) (dpa : Option Nat) (words : List Nat) : State :=
  let s1 := ((s.snapshot c cause cls words).setFlag F.DMC_STAT_frozen c true).setFlag F.DMC_STAT_snap_read c false
  let s2 := s1.setChan c { s1.chan c with failRow := words.getD 1 0 % 2 ^ 32 }
  let s3 := (s2.setLive .DMC_FREEZE_SNAP (c * 64 + 63) (s2.pbSeq % 2 ^ 32)).raiseD (Ev.DMC_FROZEN c) c
  let s4 := (s3.dropChan c).sceneChange 0x10 0
  let s5 := match dpa with
    | some a => s4.hasten (a / 65536)
    | none => s4
  s5.replaceAll

end Sys2Proof.Machine
end

