-- ==== Sys2Proof/Machine/FwFlash.lean ====
section
/-! DEFINITION. The firmware-flash array and what hardware alone writes in it: the word-mode sectors 2 and 3 with the
intent words, the epoch log and the strike log (R618 to R621, R627 to R631). -/

set_option Elab.async false

namespace Sys2Proof.Machine

/-- Global sector index of an array offset (R618). -/
def fwSector (a : Nat) : Nat :=
  if a < 0x40000 then a / 0x2000
  else if a < 0x1000000 then 32 + (a - 0x40000) / 0x20000
  else 158 + (a / 0x1000000 - 1) * 128 + a % 0x1000000 / 0x20000

/-- First array offset of a sector (R618). -/
def fwBase (i : Nat) : Nat :=
  if i < 32 then i * 0x2000
  else if i < 158 then 0x40000 + (i - 32) * 0x20000
  else (1 + (i - 158) / 128) * 0x1000000 + (i - 158) % 128 * 0x20000

/-- Bytes of a sector (R618). -/
def fwSize (i : Nat) : Nat := if i < 32 then 0x2000 else 0x20000

/-- An erased byte. -/
def fwErased : Byte := 0xFF

/-- Bytes of the array. -/
def State.fwRead (s : State) (a n : Nat) : List Byte := memReadN fwErased s.core.array a n
/-- A little-endian number in the array. -/
def State.fwLE (s : State) (a n : Nat) : Nat := leNat (s.fwRead a n)

/-- Program bytes: cells only go from one to zero. -/
def State.fwProg (s : State) (a : Nat) (bs : List Byte) : State :=
  let old := s.fwRead a bs.length
  let new := (List.zip old bs).map (fun p => p.1 &&& p.2)
  { s with core := { s.core with array := memWriteN fwErased s.core.array a new } }

/-- A sector becomes blank, and its pages may be programmed again (R620). -/
def State.fwBlank (s : State) (i : Nat) : State :=
  let lo := fwBase i
  let hi := lo + fwSize i
  { s with core := { s.core with
      array := memClear s.core.array lo hi,
      pages := s.core.pages.filter (fun p => decide (p * 256 < lo) || decide (hi ≤ p * 256)) } }

/-- The operation that runs on a bank: the last one started that is not suspended. -/
def State.fwRunning (s : State) (b : Nat) : Option FwOp := (mapGet [] s.core.ops b).find? (fun o => !o.suspended)

/-- Count a suspend of a bank's operation; FWF_SUSPEND_MANY once for that operation (R626). -/
def State.fwCountSuspend (s : State) (b : Nat) : State :=
  let n := s.fld F.FWF_SUSPEND_CNT_count b + 1
  let s1 := s.setFld F.FWF_SUSPEND_CNT_count b n
  if 1024 ≤ n ∧ !s1.core.manyRaised.contains b then
    ({ s1 with core := { s1.core with manyRaised := setIns s1.core.manyRaised b } }).raiseD Ev.FWF_SUSPEND_MANY b
  else s1

/-- A hardware writer programs bytes of sector 2 or 3; an operation that runs on bank 0 is suspended and resumed (R627). -/
def State.fwHardware (s : State) (a : Nat) (bs : List Byte) : State :=
  ((if (s.fwRunning 0).isSome then s.fwCountSuspend 0 else s)).fwProg a bs

/-! ### Intent words (R619, R628) -/

/-- Array offset of a sector's intent word. -/
def fwIntentAt (i : Nat) : Nat := if i = 3 then 0x4000 else 0x6000 + i * 8
def State.fwIntent (s : State) (i : Nat) : Nat := s.fwLE (fwIntentAt i) 8
/-- Set bits left in an intent word. -/
def State.fwIntentLeft (s : State) (i : Nat) : Nat := popN 64 (s.fwIntent i)
/-- The word records an interrupted erase: an odd number of bits is cleared (R628). -/
def State.fwInterrupted (s : State) (i : Nat) : Bool := decide ((64 - s.fwIntentLeft i) % 2 = 1)
/-- Clear the lowest set bit of an intent word: the intent, or the completion (R628). -/
def State.fwClearBit (s : State) (i : Nat) : State :=
  let v := s.fwIntent i
  s.fwHardware (fwIntentAt i) (leBytes 8 (v &&& (v - 1)))

/-- A whole erase by hardware: intent, erase, completion (R628). -/
def State.fwEraseWhole (s : State) (i : Nat) : State := ((s.fwClearBit i).fwBlank i).fwClearBit i

/-! ### Epoch records (R542, R619, R630, R631) -/

/-- The 12 bytes that the record's CRC covers. -/
def EpochRecord.body (r : EpochRecord) : List Byte :=
  leBytes 4 r.epoch ++ leBytes 1 r.role ++ leBytes 1 (b2n r.divValid) ++ leBytes 2 0 ++ leBytes 4 r.divEpoch
/-- The 16 bytes of a record (R631). -/
def EpochRecord.bytes (r : EpochRecord) : List Byte := r.body ++ leBytes 4 (crc32c r.body)

/-- All bytes of a place are blank. -/
def State.fwIsBlank (s : State) (a n : Nat) : Bool := (s.fwRead a n).all (fun b => b == fwErased)

/-- The valid epoch record at an offset. -/
def State.epochAt (s : State) (a : Nat) : Option EpochRecord :=
  if s.fwIsBlank a 16 then none
  else
    let b := s.fwRead a 12
    if crc32c b = s.fwLE (a + 12) 4 then
      some { epoch := leNat (b.take 4), role := leNat ((b.drop 4).take 1), divEpoch := leNat ((b.drop 8).take 4),
             divValid := bitB (leNat ((b.drop 5).take 1)) 0, readable := true }
    else none

/-- Offset of record `k` of the epoch log, and of the epoch carry (R619). -/
def epochLogAt (k : Nat) : Nat := 0x4020 + k * 16
def epochCarryAt : Nat := 0x70F0

/-- Records of the epoch log that are still blank (R630, R631). -/
def State.epochFree (s : State) : List Nat := (upto 510).filter (fun k => s.fwIsBlank (epochLogAt k) 16)

/-- The epoch record in force: the last valid one of the log, or the carry (R630). -/
def State.epochInForce (s : State) : Option EpochRecord :=
  match ((upto 510).filterMap (fun k => s.epochAt (epochLogAt k))).getLast? with
  | some r => some r
  | none => s.epochAt epochCarryAt

/-- Take a record into force in the registers (R543, R572). -/
def State.epochTake (s : State) (r : EpochRecord) : State :=
  let s1 := { s with twin := { s.twin with record := r } }
  (s1.setFld F.CURT_EPOCH_epoch 0 r.epoch).setFlag F.TWIN_STAT_div_valid 0 r.divValid

/-- Whether a record can be written (R631). -/
def State.epochRoom (s : State) : Bool := !s.epochFree.isEmpty

/-- Write the epoch record through the curtain (R542); the record in force stays when the log is full (R631). -/
def State.epochWrite (s : State) (r : EpochRecord) : State :=
  match s.epochFree with
  | [] => s
  | k :: _ => (s.fwHardware (epochLogAt k) r.bytes).epochTake { r with readable := true }

/-! ### Strike words (R584, R619, R631) -/

/-- A strike word of a sequence number. -/
def strikeWord (q : Nat) : List Byte := leBytes 4 (0xFFFFFFFF - q % 2 ^ 32) ++ leBytes 4 (q % 2 ^ 32)

/-- The sequence that a strike word holds, if its halves match. -/
def State.strikeAt (s : State) (a : Nat) : Option Nat :=
  let hi := s.fwLE (a + 4) 4
  if s.fwLE a 4 + hi = 0xFFFFFFFF then some hi else none

def strikeLogAt (k : Nat) : Nat := 0x7100 + k * 16
def strikeCarryAt : Nat := 0x4010

/-- Strike pairs still blank. -/
def State.strikeFree (s : State) : List Nat := (upto 240).filter (fun k => s.fwIsBlank (strikeLogAt k) 16)

/-- The place of the newest strike pair: the last of the log, or the carry (R630). -/
def State.strikeNewest (s : State) : Option Nat :=
  match ((upto 240).filter (fun k => (s.strikeAt (strikeLogAt k)).isSome)).getLast? with
  | some k => some (strikeLogAt k)
  | none => if (s.strikeAt strikeCarryAt).isSome then some strikeCarryAt else none

/-- The newest strike has a begin word and no matching end word (R591). -/
def State.strikeIncomplete (s : State) : Bool :=
  match s.strikeNewest with
  | some a => s.strikeAt (a + 8) != s.strikeAt a
  | none => false

/-- Program the strike-begin word with the next sequence (R584, R643). -/
def State.strikeBegin (s : State) : State :=
  let q := (s.fld F.CURT_STRIKE_SEQ_seq 0 + 1) % 2 ^ 32
  let s1 := match s.strikeFree with
    | k :: _ => s.fwHardware (strikeLogAt k) (strikeWord q)
    | [] => s
  s1.setFld F.CURT_STRIKE_SEQ_seq 0 q

/-- Program the strike-end word beside the begin word (R585 step 7). -/
def State.strikeEnd (s : State) : State :=
  match s.strikeNewest with
  | some a => s.fwHardware (a + 8) (strikeWord (s.fld F.CURT_STRIKE_SEQ_seq 0))
  | none => s

/-! ### Renewal of sectors 2 and 3 (R630) -/

/-- Renew sector 2: the newest epoch record is carried in sector 3, and stands at the head of the log again. The strike
carry, which lies in sector 2, goes. -/
def State.renew2 (s : State) : State :=
  match s.epochInForce with
  | some r =>
    ((s.fwHardware epochCarryAt r.bytes).fwEraseWhole 2).fwHardware (epochLogAt 0) r.bytes
  | none => s.fwEraseWhole 2

/-- Renew sector 3: the newest strike pair is carried in sector 2, and stands at the head of the log again; the intent
words of the other sectors restart with 64 set bits, the epoch carry goes. -/
def State.renew3 (s : State) : State :=
  match s.strikeNewest with
  | some a =>
    let pair := s.fwRead a 16
    ((s.fwHardware strikeCarryAt pair).fwEraseWhole 3).fwHardware (strikeLogAt 0) pair
  | none => s.fwEraseWhole 3

/-- A renewal of sector 3, after one of sector 2 when the strike carry is already programmed. -/
def State.renewThree (s : State) : State := (if s.fwIsBlank strikeCarryAt 16 then s else s.renew2).renew3
/-- A renewal of sector 2, after one of sector 3 when the epoch carry is already programmed. -/
def State.renewTwo (s : State) : State := (if s.fwIsBlank epochCarryAt 16 then s else s.renew3).renew2

/-- What rehearsal renews at power-on (R630). -/
def State.renewals (s : State) : State :=
  let low := (upto 542).any (fun i => decide (s.fwIntentLeft i ≤ 8))
  let s1 := if s.strikeFree.length < 32 || low then s.renewThree else s
  if s1.epochFree.length < 64 then s1.renewTwo else s1

end Sys2Proof.Machine
end

