-- ==== Sys2Proof/Machine/Scene.lean ====
section
/-! DEFINITION. The scene engine: configuration sets and their checks (R75 to R84, R769), boundaries and what each register
block keeps at one (R51, R71, R72, R85 to R91, R605, R774 and the rules of the blocks), and what a new role brings with it
(R541, R557, R568). -/

set_option Elab.async false

namespace Sys2Proof.Machine

/-! ### Configuration sets in the firmware flash (R75 to R80) -/

/-- First array offset and length of copies A and B (R79). -/
def setCopyAt (copy : Nat) : Nat := fwBase (if copy = 0 then 4 else 18)
def setCopySize : Nat := 114688

/-- The entries of an image as stored: words 0 to 2 of each (R75). -/
def State.imageEntries (s : State) (a count : Nat) : List (Nat × Nat × Nat) :=
  (upto count).map (fun k => (s.fwLE (a + 12 * k) 4, s.fwLE (a + 12 * k + 4) 4, s.fwLE (a + 12 * k + 8) 4))

/-- One image: scene ID of its place, whether its header is well formed, its entries. -/
structure Image where
  scene : Nat
  headerOk : Bool
  crcOk : Bool
  entries : List (Nat × Nat × Nat)

/-- The images from offset `a` on, in ID order (R76 to R78); `left` bytes of the copy remain. DESIGN CHOICE (log entry 81): bits
[15:8] and [31:27] of a header's word 0, which R76 does not name, must be zero; a 1 there is a malformed header. -/
def State.readImages (s : State) (a left : Nat) : List Nat → List Image
  | [] => []
  | id :: rest =>
    let w0 := s.fwLE a 4
    let count := bits w0 26 16
    let fits := decide (16 + 12 * count ≤ left)
    let good := fits && crc32c (s.fwRead (a + 16) (12 * count)) == s.fwLE (a + 4) 4
    let head := bits w0 7 0 == id && decide (count ≤ 1024) && bits w0 15 8 == 0 && bits w0 31 27 == 0 &&
      s.fwLE (a + 8) 8 == 0
    if fits then
      { scene := id, headerOk := head, crcOk := good, entries := s.imageEntries (a + 16) count } ::
        s.readImages (a + 16 + 12 * count) (left - 16 - 12 * count) rest
    else [{ scene := id, headerOk := head, crcOk := false, entries := [] }]

/-- A copy that checks: its sequence number and its images (R78, R80). -/
def State.readSet (s : State) (copy : Nat) : Option (Nat × List Image) :=
  let a := setCopyAt copy
  if s.fwLE a 4 = 0x51534353 ∧ s.fwLE (a + 8) 4 = 9 ∧ crc32c (s.fwRead a 60) = s.fwLE (a + 60) 4 then
    let is := s.readImages (a + 64) (setCopySize - 64) (upto 9)
    if is.all (fun i => i.crcOk) then some (s.fwLE (a + 4) 4, is) else none
  else none

/-- The copy that serves: of those that check, the one with the higher sequence (R80). DESIGN CHOICE (log entry 81): of two
that carry the same sequence, copy A. -/
def State.newestSet (s : State) : Option (List Image) :=
  match s.readSet 0, s.readSet 1 with
  | some (qa, a), some (qb, b) => some (if qa < qb then b else a)
  | some (_, a), none => some a
  | none, some (_, b) => some b
  | none, none => none

/-! ### Checks of an image (R82 to R84) -/

/-- The block of an offset, by its base divided by 2^16 (R35). -/
def blockOf (off : Nat) : Nat :=
  let b := off / 2 ^ 20
  if b = 0 then 0x00 else if b < 2 then 0x10 else if b < 4 then 0x20 else if b < 6 then 0x40 else if b < 8 then 0x60
  else if b < 10 then 0x80 else if b < 12 then 0xA0 else if b < 16 then 0xC0 else if b < 20 then 0x100
  else if b < 22 then 0x140 else if b < 24 then 0x160 else if b < 28 then 0x180 else if b < 30 then 0x1C0
  else if b < 32 then 0x1E0 else if b < 34 then 0x200 else if b < 36 then 0x220 else if b < 38 then 0x240
  else if b = 38 then 0x260 else if b = 39 then 0x270 else if b < 42 then 0x280 else if b < 44 then 0x2A0
  else if b < 46 then 0x2C0 else 0xFFF

/-- Blocks that R82 permits to a scene. -/
def sceneBlocks (id : Nat) : List Nat :=
  match id with
  | 1 => [0x1E0, 0x60, 0xC0, 0x140, 0x160, 0x270]
  | 2 => [0x1E0, 0x60, 0xC0, 0x140, 0x160, 0x270]
  | 3 => [0x1E0, 0x60, 0xC0, 0x140, 0x160, 0x270]
  | 4 => [0x60, 0xA0, 0xC0, 0x140, 0x160, 0x2A0, 0x270]
  | 5 => [0x10, 0x40, 0x60, 0xC0, 0x100, 0x180, 0x200]
  | 6 => [0x40, 0x60, 0xA0, 0xC0, 0x100, 0x140, 0x180, 0x280]
  | 7 => [0x40, 0x60, 0xC0, 0x100, 0x140, 0x160, 0x180, 0x280]
  | 8 => [0x40, 0x100, 0x140, 0x180, 0x2A0, 0x270, 0x280]
  | _ => [0x10, 0x40, 0x60, 0x80, 0xA0, 0xC0, 0x100, 0x140, 0x160, 0x180, 0x1C0, 0x1E0, 0x200, 0x220, 0x260, 0x270,
          0x280, 0x2A0]

/-- Byte offset that an entry names, its mask bits by access, and the reserved bits of its register. -/
def entryOff (w0 : Nat) : Nat := bits w0 27 2 * 4

/-- An entry barred by R83. -/
def entryBarred (e : Nat × Nat × Nat) : Bool :=
  let off := entryOff e.1
  let b := blockOf off
  b == 0x2C0 || b == 0x240 || b == 0x20 || b == 0x00 ||
    (decide (0x800000 ≤ off) && decide (off < 0x880000)) || (decide (0x900000 ≤ off) && decide (off < 0x930000)) ||
    (match regAt off with
     | some (r, i) => r == .ACC_COMMIT || e.2.1 &&& r.accMask [.ro, .roc, .w1c, .wo] != 0 ||
         (r.roInstance i && e.2.1 &&& r.accMask [.rw, .rws] != 0)
     | none => false)

/-- An entry that is malformed under R84. DESIGN CHOICE (log entry 81): an offset of a permitted block where no register lies
has no field, so all its bits are taken as reserved. -/
def entryMalformed (e : Nat × Nat × Nat) : Bool :=
  let named := match regAt (entryOff e.1) with
    | some (r, _) => r.accMask [.ro, .rw, .w1c, .wo, .rws, .roc]
    | none => 0
  bits e.1 31 28 != 0 || bits e.1 1 0 != 0 || mixBits named (e.2.1 &&& e.2.2) 0 != 0

/-- The status with which an image is taken or rejected (R84). -/
def imageStatus (i : Image) : Nat :=
  if i.entries.any entryBarred then St.CURTAIN_DENIED
  else if !i.headerOk || i.entries.any entryMalformed ||
      i.entries.any (fun e => !(sceneBlocks i.scene).contains (blockOf (entryOff e.1))) then St.ILLEGAL
  else St.DONE

/-- Take the images of a set: those that pass are available, each other raises SCENE_REJECTED (R84). -/
def State.takeImages (s : State) (is : List Image) : State :=
  is.foldl (fun st i =>
    let v := imageStatus i
    if v = St.DONE then
      (let es := i.entries.map (fun e => ({ off := entryOff e.1, mask := e.2.1, value := e.2.2 } : SceneEntry))
       { st with scene := { st.scene with images := mapSet st.scene.images i.scene es } })
    else st.raiseD Ev.SCENE_REJECTED (i.scene * 256 + v))
    { s with scene := { s.scene with images := [] } }

/-- The word under the base image: the reset word, with the port's strap in `HPORT_CFG` of an even link (R72, R92). -/
def State.underBase (s : State) (r : RegId) (i : Nat) : Nat :=
  if r = .HPORT_CFG ∧ i % 2 = 0 then setBits (r.resetWord i).toNat 1 1 (bit s.pwr.bifStrap (i / 2))
  else (r.resetWord i).toNat

/-- The word that the base image gives a register: its entries over the reset word (R72). -/
def State.baseImageWord (s : State) (r : RegId) (i : Nat) : Nat :=
  ((mapGet [] s.scene.images 0).filter (fun e => e.off == r.off i)).foldl (fun w e => mixBits e.mask w e.value)
    (s.underBase r i)

/-! ### The first base and a reload (R72, R80, R738) -/

/-- The base in force becomes the base image alone. -/
def State.freshBase (s : State) : State :=
  let s1 : State := { s with regs := { s.regs with base := [] } }
  let s2 := (upto 4).foldl (fun st p => st.setBase .HPORT_CFG (2 * p) (st.underBase .HPORT_CFG (2 * p))) s1
  (mapGet [] s.scene.images 0).foldl (fun st e => match regAt e.off with
    | some (r, i) => st.setBase r i (mixBits e.mask (st.baseWord r i).toNat e.value)
    | none => st) s2

/-- The base in force after a reload (R738): RWS fields from the new image, RW fields kept except where it names them. -/
def State.reloadBase (s : State) : State :=
  let named := mapGet [] s.scene.images 0
  let offs := named.foldl (fun a e => setIns a e.off) (s.regs.base.map (fun p => p.1))
  offs.foldl (fun st off => match regAt off with
    | some (r, i) =>
      let cover := (named.filter (fun e => e.off == off)).foldl (fun m e => m ||| e.mask) 0
      let keep := mixBits cover (r.accMask [.rw]) 0
      st.setBase r i (mixBits keep (s.baseImageWord r i) (s.baseWord r i).toNat)
    | none => st) { s with regs := { s.regs with rwsTaken := [] } }

/-! ### What a boundary may bring in -/

/-- The value lies within the range of its field table (R167, R205, R282, R341, R380, R409, R528, R573, R611, R701). -/
def boundaryLegal (r : RegId) (v : Nat) : Bool :=
  let f (hi lo : Nat) : Nat := bits v hi lo
  let within (x lo hi : Nat) : Bool := decide (lo ≤ x) && decide (x ≤ hi)
  match r with
  | .TRK_DEVLOAD_CFG => decide (f 7 0 < f 15 8) && decide (f 15 8 < f 23 16) && decide (f 23 16 ≤ 100)
  | .BLOT_CFG => decide (f 23 16 < f 31 24) && decide (f 31 24 ≤ 100) && within (f 15 0) 100 60000
  | .DMC_CTL => f 7 0 == 0 || decide (10 ≤ f 7 0)
  | .DMC_TRAIN_CFG => within (f 31 16) 20 1000 && within (f 7 0) 2 20
  | .DMC_REF_CFG => decide (f 3 0 ≤ 8)
  | .DMC_SCRUB_CFG => within (f 15 0) 1 168
  | .DMC_CE_CFG => decide (2 ≤ f 7 0)
  | .FLASH_SUSP_CFG => decide (f 23 16 ≤ 32) && within (f 15 8) 1 16 && decide (10 ≤ f 7 0)
  | .QUIRE_CFG => within (f 5 0) 1 32
  | .QUIRE_RECLAIM_CFG => decide (4 ≤ f 15 0) && decide (f 15 0 < f 31 16)
  | .QUIRE_JCFG => within (f 15 8) 1 100 && within (f 7 0) 1 8
  | .QUIRE_SLOW_TIMEOUT => within (f 5 0) 2 50
  | .QUIRE_RETIRE_CFG => decide (2 ≤ f 31 24) && decide (1 ≤ f 23 16) && decide (8 ≤ f 15 8)
  | .STAGE_CFG => within (f 23 16) 1 50 && within (f 11 0) 256 3840
  | .QUEUE_ADMIT_CFG => within (f 11 0) 16 2048
  | .TWIN_CFG => within (f 15 8) 5 100
  | .SENT_SAG_CFG => f 3 0 == 0 || decide (4 ≤ f 3 0)
  | .SENT_PMB_CFG => f 1 0 != 3
  | .INT_CE_CFG => within (f 31 16) 60 3600 && decide (2 ≤ f 7 0)
  | _ => true

/-- The event of an illegal value, by register. -/
def boundaryEvent (r : RegId) : EvId :=
  match r with
  | .TRK_DEVLOAD_CFG => Ev.DEVLOAD_CFG_ILLEGAL
  | .BLOT_CFG => Ev.BLOT_CFG_ILLEGAL
  | .DMC_CTL => Ev.DMC_CFG_ILLEGAL
  | .DMC_TRAIN_CFG => Ev.DMC_CFG_ILLEGAL
  | .DMC_REF_CFG => Ev.DMC_CFG_ILLEGAL
  | .DMC_SCRUB_CFG => Ev.DMC_CFG_ILLEGAL
  | .DMC_CE_CFG => Ev.DMC_CFG_ILLEGAL
  | .STAGE_CFG => Ev.STAGE_CFG_ILLEGAL
  | .QUEUE_ADMIT_CFG => Ev.QUEUE_CFG_ILLEGAL
  | .QUEUE_GFD_MAP => Ev.QUEUE_CFG_ILLEGAL
  | .TWIN_CFG => Ev.TWIN_CFG_ILLEGAL
  | .SENT_SAG_CFG => Ev.SENT_CFG_ILLEGAL
  | .SENT_PMB_CFG => Ev.SENT_CFG_ILLEGAL
  | .INT_CE_CFG => Ev.INT_CFG_ILLEGAL
  | _ => Ev.QUIRE_CFG_ILLEGAL

/-- Order of composition of R71 for the scenes of a set, the base first. -/
def sceneOrder (set : Nat) : List Nat := (upto 9).filter (fun k => k != 0 && bitB set k)

/-- The entries of the scenes of a set, in the order of R71. -/
def State.overlay (s : State) (set : Nat) : List SceneEntry :=
  (sceneOrder set).flatMap (fun k => mapGet [] s.scene.images k)

/-- The composed word of a register: live bits, the base in force in RW and RWS fields, then the overlay (R71, R72). -/
def State.composed (s : State) (ov : List SceneEntry) (r : RegId) (i : Nat) : Nat :=
  let m := r.accMask [.rw, .rws]
  let v := (ov.filter (fun e => e.off == r.off i)).foldl (fun w e => mixBits e.mask w e.value) (s.baseWord r i).toNat
  mixBits m (s.liveWord r i).toNat v

/-- Registers that a boundary may change, with their composed words. -/
def State.candidates (s : State) (ov : List SceneEntry) : List (RegId × Nat × Nat) :=
  let offs := ov.foldl (fun a e => setIns a e.off)
    (s.regs.live.foldl (fun a p => setIns a p.1) (s.regs.base.map (fun p => p.1)))
  offs.filterMap (fun off => match regAt off with
    | some (r, i) => if r.accMask [.rw, .rws] = 0 then none else some (r, i, s.composed ov r i)
    | none => none)

/-- `CLK_CLUSTER_DIV` at a boundary (R51, R605): the word, whether a reserved value and whether a divider without its
voltage was met. -/
def State.dividers (s : State) (new : Nat) : Nat × Bool × Bool :=
  let old := (s.liveWord .CLK_CLUSTER_DIV 0).toNat
  let fastest := (upto 4).foldl (fun a k => min a (bits old (2 * k + 1) (2 * k))) 3
  let ready := s.flag F.SENT_DVFS_ready 0
  (upto 4).foldl (fun (p : Nat × Bool × Bool) k =>
    let f := bits new (2 * k + 1) (2 * k)
    let o := bits old (2 * k + 1) (2 * k)
    if f = 3 then (p.1 + o * 4 ^ k, true, p.2.2)
    else if f < fastest ∧ !ready then (p.1 + o * 4 ^ k, p.2.1, true)
    else (p.1 + f * 4 ^ k, p.2.1, p.2.2)) (0, false, false)

/-- `QUEUE_GFD_MAP` entries that name an identity which another entry names too (R528). -/
def gfdClash (cs : List (RegId × Nat × Nat)) (i v : Nat) : Bool :=
  bitB v 31 && cs.any (fun c => c.1 == .QUEUE_GFD_MAP && c.2.1 != i && bitB c.2.2 31 && bits c.2.2 7 0 == bits v 7 0)

/-- One register takes its composed word, or keeps its value and raises its event; an ink limit is clamped as a write of it is
(R198). -/
def State.bringIn (s : State) (cs : List (RegId × Nat × Nat)) (c : RegId × Nat × Nat) : State :=
  let (r, i, v) := c
  if r = .CLK_CLUSTER_DIV then
    let (w, bad, late) := s.dividers v
    let s1 := s.setLive r i w
    let s2 := if bad then s1.raise Ev.CLK_DIV_ILLEGAL else s1
    if late then s2.raise Ev.DVFS_NOT_READY else s2
  else if r = .INK_LIMIT then
    s.setLive r i (setBits v F.INK_LIMIT_limit.hi F.INK_LIMIT_limit.lo (clampLimit (bits v F.INK_LIMIT_limit.hi F.INK_LIMIT_limit.lo)))
  else if boundaryLegal r v && !(r == .QUEUE_GFD_MAP && gfdClash cs i v) then s.setLive r i v
  else s.raiseD (boundaryEvent r) i

/-- VDD_CORE in mV for a divider code (R604). -/
def vddMv (code : Nat) : Nat := max 700 (min 850 (Config.avsMv code).toNat)

/-- The voltage follows a boundary that slows the last fast cluster (R604). -/
def State.vddAfter (s : State) : State :=
  let w := (s.liveWord .CLK_CLUSTER_DIV 0).toNat
  let fastest := (upto 4).foldl (fun a k => min a (bits w (2 * k + 1) (2 * k))) 3
  if s.flag F.SENT_DVFS_raise 0 || fastest == 0 then s
  else (s.setFld F.SENT_DVFS_vdd_mv 0 (vddMv fastest)).setFlag F.SENT_DVFS_ready 0 false

/-! ### Roles (R541 to R544, R557, R568) -/

/-- A role scene has become active: what the new role brings with it. -/
def State.enterRole (s : State) (r : Nat) : State :=
  let old := s.role
  let s1 := (s.setFld F.TWIN_STAT_role 0 r).raiseD Ev.ROLE_CHANGED r
  if r = 3 then
    let lacks := s1.ink.folios.any (fun p => p.2.isInk && !p.2.covered)
    let s2 := ({ s1 with ink := { s1.ink with building := lacks } }).setFlag F.TWIN_STAT_solo_copies 0 lacks
    let done := s2.path.applied.map (fun a => { a with ack := none })
    let left := s2.twin.unacked.filter (fun m => m.boundedAt.isNone)
    let s3 := { s2 with path := { s2.path with applied := done },
                        twin := { s2.twin with unacked := left, leaseEnd := none } }
    if old = 3 then s1 else (s3.setFlag F.TWIN_STAT_fenced 0 false).setFlag F.TWIN_STAT_synced 0 false
  else if r = 2 then
    let left := s1.twin.unacked.filter (fun m => m.boundedAt.isNone)
    ({ s1 with twin := { s1.twin with lastHeard := s1.clock, lostRaised := false, leaseEnd := none,
                                      unacked := left } }).setFlag F.TWIN_STAT_fenced 0 false
  else { s1 with twin := { s1.twin with leaseEnd := none, lastBeat := s1.clock } }

/-! ### The boundary (R71, R72, R86, R91, R769, R774) -/

/-- Transient scenes of a set. -/
def transients (set : Nat) : Nat := set &&& 0x1C0

/-- The active set after a controller's change: only its own bits, but one transient scene at most; STRIKE gives way to
its own end alone (R70, R73, R74, R774). -/
def changeSet (active set clear : Nat) : Nat :=
  let kept := mixBits clear active 0
  let strike := bitB kept 6
  let add := if strike && transients set != 0 && !bitB set 6 then mixBits 0x1C0 set 0 else set
  let base := if transients add != 0 then mixBits 0x1C0 kept 0 else kept
  let base2 := if bits add 3 1 != 0 then mixBits 0xE base 0 else base
  base2 ||| add

/-- A boundary has brought in another ink limit: the pair pool and the ceiling follow it (R196, R200). Before the first scene
there is no pool yet. -/
def State.limitFollows (s : State) (old : Nat) : State :=
  if s.fld F.INK_LIMIT_limit 0 = old ∨ s.pwr.step < 8 then s else s.pairGrow.pairShrink.setCeiling

/-- The composed configuration of a set passes into the live registers. -/
def State.applySet (s : State) (set : Nat) : State :=
  let old := s.fld F.SCENE_ACTIVE_set 0
  let cs := s.candidates (s.overlay set)
  let s1 := (cs.foldl (fun st c => st.bringIn cs c) s).limitFollows (s.fld F.INK_LIMIT_limit 0) |>.linksIdle
  let s2 := (s1.setFld F.SCENE_ACTIVE_set 0 set).setFld F.SCENE_STAT_boundaries 0 (s1.fld F.SCENE_STAT_boundaries 0 + 1)
  let s3 := { s2 with regs := { s2.regs with rwsTaken := [] } }
  let s4 := if s3.pwr.ctlUp then s3.vddAfter.coresFollow else s3.vddAfter
  let empty := (sceneOrder set).filter (fun k => (mapGet? s.scene.images k).isNone)
  let s5 := empty.foldl (fun st k => st.raiseD Ev.SCENE_EMPTY k) s4
  let s6 := s5.raiseSev Ev.SCENE_APPLIED (evSeverity Ev.SCENE_APPLIED) set true
  let roles (x : Nat) : Nat := bits x 3 1
  if roles set = roles old ∨ roles set = 0 then s6
  else s6.enterRole (if bitB set 1 then 1 else if bitB set 2 then 2 else 3)

/-- The oldest pending boundary occurs. -/
def State.nextBoundary (s : State) : State :=
  match s.scene.waiting with
  | [] => s
  | b :: rest =>
    let s1 := ({ s with scene := { s.scene with waiting := rest } }).setFlag F.SCENE_STAT_busy 0 (!rest.isEmpty)
    match b with
    | .request set => (s1.applySet set).setFld F.SCENE_STAT_status 0 St.DONE
    | .change a c => s1.applySet (changeSet (s1.fld F.SCENE_ACTIVE_set 0) a c)

/-- A change of the controller's own that occurs in this step, unless a boundary is pending: then it waits (R774). -/
def State.sceneNow (s : State) (set clear : Nat) : State :=
  let s1 := s.sceneChange set clear
  if s.scene.waiting.isEmpty then s1.nextBoundary else s1

/-- STRIKE is applied at once (R73, R88): a stage core's pending request is discarded with ABORTED, the controller's
waiting changes are applied in the same boundary. -/
def State.sceneStrike (s : State) : State :=
  let asked := s.scene.waiting.any (fun b => match b with
    | .request _ => true
    | .change _ _ => false)
  let set := s.scene.waiting.foldl (fun a b => match b with
    | .request _ => a
    | .change x c => changeSet a x c) (s.fld F.SCENE_ACTIVE_set 0)
  let s1 := ({ s with scene := { s.scene with waiting := [] } }).setFlag F.SCENE_STAT_busy 0 false
  let s2 := if asked then s1.setFld F.SCENE_STAT_status 0 St.ABORTED else s1
  s2.applySet (changeSet set 0x40 0)

/-- The status that a requested set gets at once (R85). -/
def State.requestStatus (s : State) (set : Nat) : Nat :=
  let one (m : Nat) : Bool := decide (popN 9 (set &&& m) ≤ 1)
  if s.sceneOn 6 || bitB set 6 || !bitB set 0 || !one 0xE || !one 0x1C0 ||
      (upto 9).any (fun k => bitB set k && (mapGet? s.scene.images k).isNone) then St.ILLEGAL
  else St.DONE

/-- A stage core's request of a set (R85, R89). -/
def State.requestSet (s : State) (set : Nat) : State :=
  if s.flag F.SCENE_STAT_busy 0 then s
  else
    let st := s.requestStatus set
    if st = St.DONE then
      ({ s with scene := { s.scene with waiting := s.scene.waiting ++ [Boundary.request set] } }).setFlag
        F.SCENE_STAT_busy 0 true
    else s.setFld F.SCENE_STAT_status 0 st

/-- Take a role (R541 to R544): its record is written first, then the boundary that applies the role scene; LOAD_IN ends
with it. Without room for a record nothing changes (R631). -/
def State.takeRole (s : State) (role epoch : Nat) : State :=
  let r : EpochRecord := { s.twin.record with epoch := epoch, role := role }
  let same := s.twin.record.epoch == epoch && s.twin.record.role == role && s.twin.record.readable
  let clear := mixBits (2 ^ role) 0xE 0 ||| 0x80
  if same then s.sceneNow (2 ^ role) clear
  else if s.epochRoom then (s.epochWrite r).sceneNow (2 ^ role) clear
  else s

/-- Regions of NONE mirroring, or whose copy is not complete: a controller that took over does not hold their data
(R568, R771). -/
def State.noneRegions (s : State) : List Nat :=
  ((s.validRegions true).filter (fun e => e.persistent && (e.mirror == 0 || s.mirrorPending e.idx))).map (fun e => e.idx)

/-- Regions not held are noted (R568). -/
def State.tookOver (s : State) : State :=
  { s with twin := { s.twin with absentNone := s.noneRegions, noneRaised := [] } }

end Sys2Proof.Machine
end

