-- ==== Sys2Proof/Machine/TwinSend.lean ====
section
/-! DEFINITION. What the twin unit does of itself as soon as it can: acknowledgements (R539), folios of a region whose mirror
mode changed (R771), answers to fetch requests (R570), folios that wait at the ink ceiling (R363, R391), the steps of a
planned handover (R560). -/

set_option Elab.async false

namespace Sys2Proof.Machine

/-! ### Whole folios -/

/-- The folios of a region. -/
def Rgn.folios (e : Rgn) : List Nat := (upto (e.granules * 4096)).map (fun k => e.base * 4096 + k)

/-- A folio as it is sent whole (R564 step 4, R565): zero, or its contents; nothing when it is lost here. -/
def State.folioWhole (s : State) (f : Nat) : Option (Bool × List Host.Cell) × State :=
  let x := s.folio f
  if x.isLost || s.residentWaits f then
    (if x.isLost then none else if x.gen = 0 then some (true, []) else some (false, s.flashCells f), s)
  else if x.state == .absent || x.state == .staging then
    (if x.lost then none else if x.gen = 0 then some (true, []) else some (false, s.flashCells f), s)
  else if x.gen = 0 && !x.isInk then (some (true, []), s)
  else
    let (c, s1) := s.folioCells f
    (some (false, c), s1)

/-- Send a folio as RESYNC_FOLIO or HANDBACK_FOLIO. -/
def State.sendWhole (s : State) (hand : Bool) (f : Nat) : State :=
  match (s.allocFolio 13 f).folioWhole f with
  | (some (z, c), s1) => if hand then s1.twinSend 0x32 (.handbackFolio f z c) none [] else
      s1.twinSend 0x31 (.resyncFolio f z c) none []
  | (none, s1) => s1

/-- The second copy and held lines of a folio go. -/
def State.dropSecond (s : State) (f : Nat) : State :=
  { s with dram := { s.dram with second := memClear s.dram.second (f * 65536) ((f + 1) * 65536) } }

/-- Flash reads that would fill a folio are no longer wanted. -/
def State.dropStageReads (s : State) (f : Nat) : State :=
  { s with flash := { s.flash with reads := s.flash.reads.filter (fun r => !(r.folio == f && decide (r.cls < 8))) } }

/-- A folio in frame `fr` takes new contents whole and is DIRTY ink, with a second copy where its region asks for one (R20, R201,
R391, R564 step 5). -/
def State.intoFrame (s : State) (f fr : Nat) (cells : List Host.Cell) : State :=
  let x := s.folio f
  let s1 := ((s.dropStageReads f).folioPut f cells).dropSecond f
  let s2 := s1.setFolio f { x with state := .dirty, frame := fr, gone := false, second := none, pairFrame := none,
                                   dramLines := allLines, heldLines := 0, ref := true,
                                   dirtyAt := if x.state == .blotting || !x.isInk then s.clock else x.dirtyAt }
  let s3 := (if x.isInk then s2 else s2.addInk (s2.folioRgn f) 1)
  (if (s3.regionAt (f * 65536)).any s3.twoCopies then s3.buildSecond f else s3).stageDone f

/-- Every line of a folio is held in a pair-pool frame until it has a frame of its own (R549). -/
def State.holdWhole (s : State) (f : Nat) (cells : List Host.Cell) : State :=
  let x := s.folio f
  let s0 := (s.takePair f).wakePair f
  let s1 := { s0 with dram := { s0.dram with second := memPaste 0 s0.dram.second (f * 65536) 65536 cells } }
  let s2 := s1.setFolio f { s1.folio f with heldLines := 2 ^ 1024 - 1, dirtyAt := if x.isInk then x.dirtyAt else s.clock }
  let s3 := if x.isInk then s2 else s2.addInk (s2.folioRgn f) 1
  if (s3.entryOf f).isNone && x.state == .absent then s3.openEntry f none else s3

/-- Replace a folio whole with contents of the other controller (R564 step 5, R568). -/
def State.takeWhole (s : State) (f : Nat) (cells : List Host.Cell) : State :=
  match s.regionAt (f * 65536) with
  | none => s
  | some e =>
    let s1 := (s.markLost f false).touch e f
    let x := s1.folio f
    if x.state == .absent then
      (match s1.stageFrame with
       | some (fr, s2) => s2.intoFrame f fr cells
       | none => s1.holdWhole f cells)
    else if x.state == .staging && x.frame == 0 && x.heldLines != 0 then s1.holdWhole f cells
    else s1.intoFrame f x.frame cells

/-! ### Regions whose copy to the twin is due (R771) -/

/-- Copy one region: every folio, then MIRROR_READY. -/
def State.mirrorCopy (s : State) (r : Nat) : State :=
  let e := s.rgn true r
  let s1 := e.folios.foldl (fun st f => st.sendWhole false f) s
  let s2 := s1.twinSend 0x34 (.mirrorReady r) none []
  { s2 with twin := { s2.twin with mirrorJobs := s2.twin.mirrorJobs.map (fun j =>
      if j.1 = r then (r, some s2.twin.sendSeq) else j) } }

/-- Start every copy that is due and not under way. -/
def State.mirrorCopies (s : State) : State :=
  if s.role == 1 && s.twinUp && s.synced then
    (s.twin.mirrorJobs.filter (fun j => j.2.isNone)).foldl (fun st j => st.mirrorCopy j.1) s
  else s

/-! ### Fetches -/

/-- Answer the fetch requests whose folio is here, or is lost (R570). -/
def State.answerAsked (s : State) : State :=
  s.twin.asked.foldl (fun st a =>
    let x := st.folio a.2
    let drop (t : State) : State := { t with twin := { t.twin with asked := t.twin.asked.filter (fun b => b != a) } }
    if x.isLost then (drop st).twinSendUp 0x22 (.fetchNak a.1 St.LOST)
    else if st.residentWaits a.2 then st
    else if x.state == .clean || x.state == .dirty || x.state == .blotting then
      (let (c, st1) := st.folioCells a.2
       (drop st1).twinSendUp 0x21 (.fetchData a.1 c))
    else st) s

/-- One fetched folio enters its frame where ink and a frame allow it. -/
def State.takeOneFetched (s : State) (j : Nat × FetchWhy × List Host.Cell) : State :=
  let f := j.1
  let x := s.folio f
  let drop (t : State) : State := { t with twin := { t.twin with fetched := t.twin.fetched.filter (fun b => b != j) } }
  if !x.isInk && !s.inkRoom 1 then s
  else if j.2.1 == .staging then
    if x.state == .staging then
      (let held := x.heldLines
       let s1 := (drop s).folioPut f j.2.2
       let s2 := if held = 0 then s1 else s1.overlaySecond f held
       let s3 := (s2.dropSecond f).setFolio f { x with state := .dirty, heldLines := 0, ref := true,
                                                       dirtyAt := if x.isInk then x.dirtyAt else s.clock }
       let s4 := if x.isInk then s3 else s3.addInk (s3.folioRgn f) 1
       (((s4.sendAhead f).stageDone f).addSat F.STAGE_FAIL_CNT_twin 0 1).raiseD Ev.STAGE_TWIN_FETCH (f * 65536))
    else drop s
  else if x.isLost then
    (if x.state != .absent && !s.chanFrozen (chanOf x.frame) then
      ((drop (s.markLost f false)).intoFrame f x.frame j.2.2).sendAhead f
    else match s.stageFrame with
      | some (fr, s1) => ((drop s1).intoFrame f fr j.2.2).sendAhead f
      | none => s)
  else drop s

/-- Every fetched folio that waits. -/
def State.takeFetched (s : State) : State := s.twin.fetched.foldl (fun st j => st.takeOneFetched j) s

/-! ### Handover (R560) -/

/-- A store of the twin that waits to be applied: its sequence. -/
def State.twinWaiting (s : State) : Option Nat :=
  ((s.path.held ++ s.path.inner).filterMap (fun r => match r.src with
    | .twin q => some q
    | _ => none)).head?

/-- Steps 2 and 3: every applied store is complete and the lag is zero, then HANDOVER goes out. -/
def State.handoverGo (s : State) : State :=
  if s.role == 1 && s.twin.gateClosed && s.twin.handover.isNone && s.twinUp && s.path.applied.isEmpty &&
      !s.twin.unacked.any (fun m => m.boundedAt.isSome) then
    let s1 := s.twinSend 0x40 (.handover s.twin.sendSeq) none []
    { s1 with twin := { s1.twin with handover := some s1.twin.sendSeq } }
  else s

/-- Step 4: the UNDERSTUDY has processed everything up to the final sequence and becomes LEAD. -/
def State.handoverTake (s : State) : State :=
  if s.role == 2 && s.twin.handover.isSome && s.twinWaiting.isNone then
    let s1 := { s with twin := { s.twin with handover := none } }
    if s.epoch < 0xFFFFFFFF && s.epochRoom then
      let s2 := (s1.takeRole 1 (s.epoch + 1)).tookOver
      let s3 := s2.twinSend 0x41 .handoverAck none []
      { s3 with twin := { s3.twin with newLeadSince := some s.clock } }
    else s1
  else s

/-! ### Acknowledgement (R539) -/

/-- The newest message such that all up to it have been processed. -/
def State.processedSeq (s : State) : Nat :=
  match s.twinWaiting with
  | some q => (q + 2 ^ 32 - 1) % 2 ^ 32
  | none => s.twin.recvSeq

/-- Send the ack when more has been processed than was last acknowledged. -/
def State.sendAck (s : State) : State :=
  if s.twinUp && s.processedSeq != s.twin.ackedSeq then
    ({ s with twin := { s.twin with ackedSeq := s.processedSeq } }).twinSend 0x03 .ack none []
  else s

/-- What the twin unit can do before the waiting requests are looked at again, and after. -/
def State.twinFirst (s : State) : State := s.takeFetched
def State.twinLast (s : State) : State := s.mirrorCopies.answerAsked.handoverGo.handoverTake.sendAck

end Sys2Proof.Machine
end

