-- ==== Sys2Proof/Machine/Cues.lean ====
section
/-! DEFINITION. Cue sheets (R397 to R406), and the pass that lets everything that can go on do so. -/

set_option Elab.async false

namespace Sys2Proof.Machine

/-! ### Reading DPA contents for the controller's own use -/

/-- One byte at a data DPA: from the cache or DRAM when the folio is present, else from its flash copy (R25, R297). -/
def State.dpaByte (s : State) (a : Nat) : Byte :=
  let x := s.folio (a / 65536)
  let staged := match s.regionAt a with
    | some e => e.staged
    | none => false
  if staged && x.state == .absent then
    (match mapGet? s.flash.store ((x.quire * 16 + x.leaf) * 4 + x.slot) with
     | some ff => if x.gen = 0 then 0 else memRead 0 ff.cells (a % 65536)
     | none => 0)
  else (lineBytes (s.peekLine (a / 64))).getD (a % 64) 0

/-- `n` bytes from a data DPA. -/
def State.dpaBytes (s : State) (a n : Nat) : List Byte := (upto n).map (fun k => s.dpaByte (a + k))

/-- A window of the ticket grants a right over a DPA (R428): the window bit of `win`, script, and the right at `bit_`. -/
def State.ticketWindow (s : State) (ident win dpa bit_ : Nat) : Bool :=
  decide (dpa < 2 ^ 48) && (upto 16).any (fun w => bitB win w && winGrants (s.window true ident w) (dpa / 2 ^ 28) bit_ &&
    bitB (s.window true ident w) 60)

/-! ### Runs (R399 to R406) -/

/-- The open or waiting run of a context. -/
def State.cueRun (s : State) (k : Nat) : Option CueRun := s.stage.runs.find? (fun r => r.ctx == k)

/-- Change one run. -/
def State.setCueRun (s : State) (r : CueRun) : State :=
  { s with stage := { s.stage with runs := s.stage.runs.map (fun x => if x.ctx == r.ctx then r else x) } }

/-- Refresh `STAGE_STAT.runs` (R408). -/
def State.runCount (s : State) : State :=
  s.setFld F.STAGE_STAT_runs 0 (s.stage.runs.filter (fun r => r.isOpen)).length

/-- The header checks of R397 and R399: 0 good, else the status that WAITC receives. -/
def State.cueHeader (s : State) (r : CueRun) : Nat :=
  let h := s.dpaBytes r.base 32
  let count := leNat ((h.drop 8).take 4)
  let lead := leNat ((h.drop 6).take 2)
  let size := 32 + count * 16
  let inside := s.ticketWindow r.ident r.win r.base 62 && s.ticketWindow r.ident r.win (r.base + size - 1) 62
  let resident := match s.regionAt r.base with
    | some e => !e.staged && decide (r.base + size ≤ (e.limit + 1) * 2 ^ 28)
    | none => false
  if !inside then St.ACCESS_DENIED
  else if r.base % 32 ≠ 0 ∨ !resident then St.ILLEGAL
  else if leNat (h.take 4) ≠ 0x45554351 ∨ leNat ((h.drop 4).take 1) ≠ 1 ∨ 1 < leNat ((h.drop 5).take 1) ∨ lead = 0 ∨
      4095 < lead ∨ count = 0 ∨ 65536 < count ∨ leNat ((h.drop 12).take 16) ≠ 0 ∨
      leNat ((h.drop 28).take 4) ≠ crc32c (h.take 28) then St.ILLEGAL
  else 0

/-- Open a run, or refuse its sheet with CUE_SHEET_BAD (R399, R400). -/
def State.openRun (s : State) (r : CueRun) : State :=
  let st := s.cueHeader r
  if st = 0 then
    let h := s.dpaBytes r.base 32
    let count := leNat ((h.drop 8).take 4)
    (s.setCueRun { r with isOpen := true, count := count, lead := leNat ((h.drop 6).take 2),
                          auto := bitB (leNat ((h.drop 5).take 1)) 0, cursor := min r.cursor count }).runCount
  else (s.setCueRun { r with bad := some st }).raiseD Ev.CUE_SHEET_BAD r.base

/-- Runs that may open do so, at most 1,024 at once (R400). -/
def State.openRuns (s : State) : State :=
  (s.stage.runs.filter (fun r => !r.isOpen && r.bad.isNone)).foldl (fun st r =>
    if (st.stage.runs.filter (fun x => x.isOpen)).length < 1024 then st.openRun r
    else if st.stage.runWaitRaised then st
    else ({ st with stage := { st.stage with runWaitRaised := true } }).raise Ev.CUE_RUN_WAIT) s

/-- Start the run of a ticket (R400). -/
def State.startRun (s : State) (k base ident win : Nat) : State :=
  let r : CueRun := { ctx := k, base := base, count := 0, lead := 1, auto := false, isOpen := false, cursor := 0, next := 0,
                      results := [], pinned := [], entries := [], due := 0, times := [], reached := [], ident := ident,
                      win := win, bad := none, capRaised := false }
  ({ s with stage := { s.stage with runs := s.stage.runs ++ [r] } }).openRuns

/-- Release the pin that an entry holds (R404). -/
def State.unpinFolio (s : State) (f : Nat) : State :=
  let x := s.folio f
  let s1 := s.setFolio f { x with pins := x.pins - 1 }
  if x.pins = 1 then s1.subFld F.STAGE_PIN_frames 0 1 else s1

/-- The folio of an entry already read. -/
def CueRun.folioOf (r : CueRun) (i : Nat) : Nat := bits (mapGet (0, 0) r.entries i).1 47 16

/-- Close a run: nothing more is issued, its pins go, its issues leave their entries (R396, R406). -/
def State.closeRun (s : State) (k : Nat) : State :=
  match s.cueRun k with
  | none => s
  | some r =>
    let s1 := r.pinned.foldl (fun st i => st.unpinFolio (r.folioOf i)) s
    let es := s1.stage.entries.map (fun e => { e with cues := e.cues.filter (fun c => c.1 != k) })
    (({ s1 with stage := { s1.stage with runs := s1.stage.runs.filter (fun x => x.ctx != k), entries := es } }).runCount).openRuns

/-- The cursor moves to `v` (R402, R404, R411): pins of the entries passed go, cold folios lose their referenced bit. -/
def State.moveCursor (s : State) (r : CueRun) (v : Nat) : State :=
  let c := min (max r.cursor v) r.count
  if !r.isOpen then s.setCueRun { r with cursor := max r.cursor v }
  else
    let passed := (upto (c - r.cursor)).map (fun i => r.cursor + i)
    let reach := (upto (c - r.cursor)).map (fun i => r.cursor + i + 1)
    let late := reach.filter (fun i => decide (i < r.next) && (mapGet? r.results i).isNone)
    let r1 : CueRun := { r with cursor := c, pinned := r.pinned.filter (fun i => decide (c ≤ i)),
                                reached := late.foldl (fun m i => mapSet m i s.clock) r.reached }
    let s1 := s.setCueRun r1
    let s2 := reach.foldl (fun st i => match mapGet? r.times i with
      | some t => st.sample 0x085 ((st.clock - t) * 1000)
      | none => st) s1
    passed.foldl (fun st i =>
      let st1 := if r.pinned.contains i then st.unpinFolio (r.folioOf i) else st
      let f := r.folioOf i
      let x := st1.folio f
      if bitB (mapGet (0, 0) r.entries i).1 1 && x.pins == 0 then st1.setFolio f { x with ref := false } else st1) s2

/-- Read the block of 256 entries that holds entry `i`, once (R399). -/
def State.readBlock (s : State) (r : CueRun) (i : Nat) : CueRun :=
  if (mapGet? r.entries i).isSome then r
  else
    let b := i / 256 * 256
    let n := min 256 (r.count - b)
    { r with entries := (upto n).foldl (fun m k =>
        let a := r.base + 32 + (b + k) * 16
        mapSet m (b + k) (leNat (s.dpaBytes a 8), leNat (s.dpaBytes (a + 8) 8))) r.entries }

/-- Single-flight entries that cue issues hold (R389). -/
def State.cueHeld (s : State) : Nat := (s.stage.entries.filter (fun e => !e.cues.isEmpty)).length

/-- Give an entry a result without staging (R403); a pinned folio that is present takes its pin (R404, R405). -/
def State.cueNow (s : State) (r : CueRun) (i status : Nat) : State :=
  (s.setCueRun { r with next := i + 1 }).cueResult [(r.ctx, i)] status

/-- Issue entry `r.next` of a run if it is due; the flag says whether it was issued (R401, R403). -/
def State.cueIssue (s : State) (r0 : CueRun) : State × Bool :=
  if r0.isOpen && decide (r0.next < r0.count) then
    let i := r0.next
    let r := s.readBlock r0 i
    let w := mapGet (0, 0) r.entries i
    let lead := if bits w.2 11 0 = 0 then r.lead else bits w.2 11 0
    let s0 := s.setCueRun r
    if r.cursor + lead < i ∧ r.due < i then (s0, false)
    else
      let f := bits w.1 47 16
      let dpa := f * 65536
      let x := s0.folio f
      let bad := bits w.1 63 48 != 0 || bits w.1 15 2 != 0 || bits w.2 63 12 != 0
      match s0.regionAt dpa with
      | none => (s0.cueNow r i (if bad then St.ILLEGAL else St.ACCESS_DENIED), true)
      | some e =>
        if bad then (s0.cueNow r i St.ILLEGAL, true)
        else if !s0.ticketWindow r.ident r.win dpa 62 then (s0.cueNow r i St.ACCESS_DENIED, true)
        else if !e.staged || (x.state != .absent && x.state != .staging) then (s0.cueNow r i St.DONE, true)
        else if x.isLost then (s0.cueNow r i St.LOST, true)
        else if (s0.entryOf f).isNone && decide (s0.fld F.STAGE_CFG_cue_sf_max 0 ≤ s0.cueHeld) then (s0, false)
        else ((s0.setCueRun { r with next := i + 1 }).openEntry f (some (r.ctx, i)), true)
  else (s, false)

/-- Issue what is due of one run, at most `n` entries. -/
def State.cueIssueRun (s : State) (k : Nat) : Nat → State
  | 0 => s
  | n + 1 =>
    match s.cueRun k with
    | none => s
    | some r =>
      match s.cueIssue r with
      | (s1, true) => s1.cueIssueRun k n
      | (s1, false) => s1

/-- Issue what is due of every run. -/
def State.cueIssueAll (s : State) : State :=
  s.stage.runs.foldl (fun st r => st.cueIssueRun r.ctx (r.count - r.next)) s

/-- A memory operation of the ticket moves the cursor of an auto run (R402). -/
def State.cueAuto (s : State) (k f : Nat) : State :=
  match s.cueRun k with
  | none => s
  | some r =>
    if r.isOpen && r.auto then
      match (upto 4096).find? (fun d =>
          let i := r.cursor + 1 + d
          let w := mapGet (0, 0) r.entries i
          let lead := if bits w.2 11 0 = 0 then r.lead else bits w.2 11 0
          (mapGet? r.entries i).isSome && decide (i ≤ r.cursor + lead) && bits w.1 47 16 == f) with
      | some d => s.moveCursor r (r.cursor + 1 + d)
      | none => s
    else s

/-! ### What is due (R187, R201, R202, R772) -/

/-- R187: a second has passed since the quire of the previous blot was held. -/
def State.blotSpaced (s : State) (x : Folio) : Bool :=
  match x.heldAt with
  | some t => s.due t 1000000
  | none => true

/-- The region's blot_delay has passed (R172, R201). -/
def State.blotAged (s : State) (f : Nat) (x : Folio) : Bool :=
  match s.regionAt (f * 65536) with
  | some e => s.due x.dirtyAt (e.blotDelay * 100000)
  | none => true

/-- Insert by dirty time, oldest first. -/
def insDirty (p : Nat × Folio) : List (Nat × Folio) → List (Nat × Folio)
  | [] => [p]
  | q :: t => if p.2.dirtyAt < q.2.dirtyAt then p :: q :: t else q :: insDirty p t

/-- Insert by R772's order. -/
def insAhead (p : Nat × Folio) : List (Nat × Folio) → List (Nat × Folio)
  | [] => [p]
  | q :: t => if p.2.ahead.getD 0 < q.2.ahead.getD 0 then p :: q :: t else q :: insAhead p t

/-- Blots of a folio whose quires are being written. -/
def State.blotsInFlight (s : State) (f : Nat) : Nat :=
  s.flash.quires.foldl (fun a q => a + (q.slots.filter (fun fs => fs.folio == f && fs.kind == .blot)).length) 0

/-- A folio can be blotted: its generation is not at its end (R186), the quire of its previous blot has been held long enough
(R187), its key is loaded, and its frame holds its contents (R272, R277). -/
def State.mayBlot (s : State) (f : Nat) (x : Folio) : Bool :=
  x.state == .dirty && decide (x.gen < 2 ^ 32 - 1) && s.blotSpaced x && decide (s.blotsInFlight f = 0) &&
    s.keyLoaded (s.keyOf f) && !x.gone && !s.inRepair f && !s.chanFrozen (chanOf x.frame)

/-- The folios that are due, in the order in which the blotter takes them (R186, R201, R202, R772). -/
def State.dueFolios (s : State) : List Nat :=
  let dirty := s.ink.folios.filter (fun p => s.mayBlot p.1 p.2)
  let ink := s.fld F.INK_CNT_ink 0
  let ceil := s.fld F.INK_CEIL_ceiling 0
  let full := decide (s.fld F.BLOT_CFG_high_water 0 * ceil ≤ ink * 100) || s.flag F.TRK_STAT_ink_gate 0 || s.ink.sag
  let some_ := decide (s.fld F.BLOT_CFG_low_water 0 * ceil ≤ ink * 100)
  let age := s.fld F.BLOT_CFG_max_age 0 * 1000
  let first := (dirty.filter (fun p => p.2.ahead.isSome)).foldl (fun a p => insAhead p a) []
  let rest := (dirty.filter (fun p => p.2.ahead.isNone && (full || (s.blotAged p.1 p.2 &&
    (some_ || decide (p.2.dirtyAt + age < s.clock)))))).foldl (fun a p => insDirty p a) []
  (first ++ rest).map (fun p => p.1)

/-- Refresh `BLOT_STAT`: the folios due, and the host data blotted in the last second in MB/s (R209). -/
def State.blotRegs (s : State) : State :=
  let last := s.ink.blotted.filter (fun p => !s.due p.1 1000000)
  let rate := last.foldl (fun a p => a + p.2) 0 * 65536 / 1000000
  let s1 := { s with ink := { s.ink with blotted := last } }
  (s1.setFld F.BLOT_STAT_due 0 (satTo 16 s.dueFolios.length)).setFld F.BLOT_STAT_rate 0 (satTo 16 rate)

/-! ### The pass -/

/-- Everything that can go on does so: stores complete, a maintenance operation acts, frames and credits are handed out, requests
are released and admitted, reads are issued, completions leave, barriers answer. -/
def State.settle (s : State) : State :=
  let s0 := s.boundedGate.completeApplied.releaseHeld.maintGo.openWanted.assignWaiting.sliceGrants.releaseHeld.admitAll.releaseHeld
  let s1 := s0.cueIssueAll.assignWaiting.replaceAll.issueReads.twinFirst
  (s1.completeApplied.releaseHeld.maintGo.drainCompl.barriers).trackerRegs.twinLast.blotRegs

/-- A microsecond passes with no command waiting: the tracker and the prompt book work (R170, R709), and what is due and the
blot rate follow the time (R202, R209). -/
def State.idle (s : State) : State := ({ s with clock := s.clock + 1 }).tickWork.blotRegs

end Sys2Proof.Machine
end

