-- ==== Sys2Proof/Machine/Operands.lean ====
section
/-! DEFINITION. The operands of the commands: mailbox payloads and the identity behind a mailbox (R123, R127 to R130). -/

set_option Elab.async false

namespace Sys2Proof.Machine

/-- What `exec` and `step` answer. -/
abbrev Res := Host.Outcome State Fault Refusal

/-- An `n`-byte little-endian field of a payload at byte `off` (R128). -/
def leAt (input : List Byte) (off n : Nat) : Nat := leNat ((input.drop off).take n)

/-- Mailbox number of the BMC; 0 to 127 are logical devices, 128 + i GFD identities (R31, R123). -/
def mbBmc : Nat := 512

/-- The identity that a mailbox acts with (R129): the one that its logical device matches, or the GFD identity. -/
def State.mbIdentity (s : State) (mb : Nat) : Option Nat :=
  if mb < 128 then s.matchIdentity (mb / 16) (mb % 16)
  else if mb < 384 then some (mb - 128)
  else none

/-- The logical device index that a mailbox's queue, script and event commands act on (R129, R502): its own, or the one
whose window serves the GFD identity. -/
def State.mbLd (s : State) (mb : Nat) : Option Nat :=
  if mb < 128 then some mb
  else if mb < 384 then
    (upto 128).find? (fun n => s.flag F.QUEUE_GFD_MAP_valid n && s.fld F.QUEUE_GFD_MAP_identity n == mb - 128 &&
      s.linkMode (n / 16) == 2)
  else none

/-- Whether a mailbox has the rights of an admin identity (R101, R123). -/
def State.mbAdmin (s : State) (mb : Nat) : Bool :=
  mb == mbBmc || (match s.mbIdentity mb with
    | some i => s.isAdmin i
    | none => false)

/-- The commands of R130 are refused: the controller was LEAD and its lease has expired, its epoch is older than its twin's, or
it is an UNDERSTUDY (R552). -/
def State.cmdFenced (s : State) : Bool :=
  (s.fenceHold && s.role != 0) || s.fenced || s.twin.peer.any (fun p => decide (s.epoch < p.epoch))

/-- A stage core is RUNNING, so that one holds MAILBOX (R615, R617). -/
def State.mailUp (s : State) : Bool := s.pwr.ctlUp && (upto 4).any (fun k => s.fld F.STC_STAT_state k == 0)

/-- A mailbox command waits until a core holds MAILBOX (R617); `out` are the outcome operands of rows that have any. -/
def State.holdMailOut (s : State) (mb op : Nat) (input : List Byte) (out : List Nat) : State :=
  { s with core := { s.core with mail := s.core.mail ++ [(mb, op, input, out)] } }
def State.holdMail (s : State) (mb op : Nat) (input : List Byte) : State := s.holdMailOut mb op input []

/-- A vendor command (R127, R128, R130): its length, its admin right and its fencing are checked, then it runs. -/
def State.vendor (s : State) (mb op len : Nat) (admin fenceable : Bool) (input : List Byte) (body : State → State) : State :=
  if !s.mailUp then s.holdMail mb op input
  else if input.length ≠ len then s.send (.mailbox mb op .invalidLength [])
  else if admin && !s.mbAdmin mb then s.answer mb op St.ACCESS_DENIED []
  else if fenceable && s.cmdFenced then s.answer mb op St.FENCED []
  else body s

/-- A standard command: its length is checked, then it runs (R124). -/
def State.standard (s : State) (mb op len : Nat) (input : List Byte) (body : State → State) : State :=
  if !s.mailUp then s.holdMail mb op input
  else if input.length ≠ len then s.send (.mailbox mb op .invalidLength []) else body s

/-- Answer a standard command. -/
def State.answerStd (s : State) (mb op : Nat) (payload : List Byte) : State := s.send (.mailbox mb op .success payload)

/-- A 64-bit energy meter in mJ (R608, R610). -/
def State.meter (s : State) (i : Nat) : Nat :=
  (s.liveWord .SENT_METER (2 * i)).toNat + (s.liveWord .SENT_METER (2 * i + 1)).toNat * 2 ^ 32

/-- `n` bytes that the spec does not fix: free values (log entry 12). -/
def State.freeBytes (s : State) : Nat → List Byte × State
  | 0 => ([], s)
  | n + 1 =>
    let (bs, s1) := s.nextFresh.freeBytes n
    (Config.freeByte s.fresh :: bs, s1)

end Sys2Proof.Machine
end

