-- ==== Sys2Proof/Machine/Commit.lean ====
section
/-! DEFINITION. A commit of the region, owner-set and access tables from request to edge (R102 to R104, R112, R113,
R176 to R182, R550, R766, R771). -/

set_option Elab.async false

namespace Sys2Proof.Machine

/-! ### Changed entries -/

/-- Aperture offset of entry `i` of a table (0 region, 1 owner set, 2 access), and the words compared (R101, R171, R175). -/
def tabBase (live : Bool) (table : Nat) : Nat :=
  match table with
  | 0 => if live then 0x840000 else 0x800000
  | 1 => if live then 0x870000 else 0x860000
  | _ => if live then 0x910000 else 0x900000
def tabStride (table : Nat) : Nat := if table = 2 then 256 else 32
def tabWords (table : Nat) : Nat := if table = 2 then 17 else if table = 1 then 4 else 3
def tabCount (table : Nat) : Nat := if table = 0 then 4096 else if table = 1 then 1024 else 256

/-- The words of an entry. -/
def State.tabEntry (s : State) (live : Bool) (table i : Nat) : List Nat :=
  (upto (tabWords table)).map (fun w => s.tab (tabBase live table + i * tabStride table + w * 8))

/-- Set the words of an entry. -/
def State.setTabEntry (s : State) (live : Bool) (table i : Nat) (ws : List Nat) : State :=
  (List.zip (upto (tabWords table)) ws).foldl (fun st p =>
    st.setTab (tabBase live table + i * tabStride table + p.1 * 8) p.2) s

/-- Indexes of the entries of a table that anything is listed for, live or shadow, in ascending order. -/
def State.tabIndexes (s : State) (table : Nat) : List Nat :=
  let span := tabCount table * tabStride table
  s.region.tabs.foldl (fun a p =>
    let o := p.1 * 8
    let b0 := tabBase false table
    let b1 := tabBase true table
    if b0 ≤ o ∧ o < b0 + span then setIns a ((o - b0) / tabStride table)
    else if b1 ≤ o ∧ o < b1 + span then setIns a ((o - b1) / tabStride table)
    else a) []

/-- Entries whose shadow differs from the live copy, as (table, index) (R550). -/
def State.changedEntries (s : State) : List (Nat × Nat) :=
  (upto 3).flatMap (fun t => ((s.tabIndexes t).filter (fun i => s.tabEntry false t i != s.tabEntry true t i)).map
    (fun i => (t, i)))

/-- Every valid entry of the live tables (R564 step 2). -/
def State.validEntries (s : State) : List (Nat × Nat) :=
  (upto 3).flatMap (fun t => ((s.tabIndexes t).filter (fun i => (s.tabEntry true t i).any (fun w => w != 0))).map
    (fun i => (t, i)))

/-- Send the given entries as TABLE_SYNC messages and note their sequences (R550). -/
def State.sendTables (s : State) (live : Bool) (es : List (Nat × Nat)) : State :=
  es.foldl (fun st e =>
    let ws := st.tabEntry live e.1 e.2
    let body := if e.1 = 0 then ws ++ [0] else ws
    let st1 := st.twinSend 0x12 (.tableSync e.1 e.2 body) none []
    { st1 with region := { st1.region with tableSync := st1.region.tableSync ++ [st1.twin.sendSeq] } }) s

/-! ### The outcome -/

/-- Write `REGION_CMT_STAT` (R178, R209). -/
def State.commitStat (s : State) (busy : Bool) (f : CommitFinding) : State :=
  s.setLive .REGION_CMT_STAT 0 (f.kind * 2 ^ 28 + f.entry * 2 ^ 16 + f.status * 2 ^ 8 + b2n busy)

/-- A dynamic-capacity window entry: base, limit and rights (R101). -/
def dcWindow (base limit rights : Nat) : Nat := 2 ^ 63 + rights * 2 ^ 60 + (limit % 2 ^ 20) * 2 ^ 32 + base % 2 ^ 20

/-- The identity that a DC device stands for (R107, R111). -/
def State.devIdentity (s : State) (dev : Nat) : Option Nat :=
  if dev < 128 then s.matchIdentity (dev / 16) (dev % 16) else some (dev - 128)

/-- The shadow window of an identity that is valid and covers exactly the extent. -/
def State.dcFind (s : State) (i base limit : Nat) : Option Nat :=
  (upto 16).find? (fun w =>
    let e := s.window false i w
    bitB e 63 && bits e 19 0 == base && bits e 51 32 == limit)

/-- Aperture offset of the shadow window of a device that covers exactly an extent. -/
def State.dcPlace (s : State) (dev base limit : Nat) : Option Nat :=
  match s.devIdentity dev with
  | some i => (s.dcFind i base limit).map (fun w => 0x900000 + i * 0x100 + 8 + w * 8)
  | none => none

/-- Aperture offset of the first shadow window of a device that is not valid. -/
def State.dcFreePlace (s : State) (dev : Nat) : Option Nat :=
  match s.devIdentity dev with
  | some i => ((upto 16).find? (fun w => !bitB (s.window false i w) 63)).map (fun w => 0x900000 + i * 0x100 + 8 + w * 8)
  | none => none

/-- Tell the requester of a commit how it ended (R112, R113, R128, R550). -/
def State.commitTell (s : State) (by_ : Committer) (status : Nat) : State :=
  match by_ with
  | .core => s
  | .mailbox mb => s.answer mb 0xC007 status []
  | .dcAdd dev base limit _ =>
    if status = St.DONE then
      ({ s with host := { s.host with extents := s.host.extents ++ [(dev, base, limit)] } }).send
        (.capacity dev base limit true true)
    else (match s.dcPlace dev base limit with
      | some o => s.setTab o 0
      | none => s).send (.capacity dev base limit true false)
  | .dcRelease dev base limit off old =>
    if status = St.DONE then
      (let xs := s.host.extents.filter (fun x => x != (dev, base, limit))
       ({ s with host := { s.host with extents := xs } }).send (.capacity dev base limit false true))
    else (if old = 0 then s else s.setTab off old).send (.capacity dev base limit false false)
  | .twin _ => s.twin.tablesIn.foldl (fun st q => st.twinSendUp 0x13 (.tableResult q status))
      { s with twin := { s.twin with tablesIn := [] } }

/-- The event of a refusal (R178, R550). -/
def State.commitRefused (s : State) (by_ : Committer) (f : CommitFinding) : State :=
  let s1 := ({ s with region := { s.region with commit := none } }).commitStat false f
  let s2 := s1.raiseD (if f.status = St.ILLEGAL then Ev.REGION_COMMIT_DENIED else Ev.ACCESS_COMMIT_DENIED) f.entry
  s2.commitTell by_ f.status

/-! ### Waits of a commit (R180, R182, R550) -/

/-- Regions valid live and invalid in the shadow. -/
def State.invalidated (s : State) : List Rgn := (s.validRegions true).filter (fun e => !(s.rgn false e.idx).valid)

/-- Regions whose cache policy leaves WB (R179). -/
def State.leavingWb (s : State) : List Rgn :=
  (s.validRegions true).filter (fun e => (s.rgn false e.idx).valid && e.policy == 0 && (s.rgn false e.idx).policy != 0)

/-- Regions whose mirror mode becomes NONE (R179). -/
def State.toNone (s : State) : List Rgn :=
  (s.validRegions true).filter (fun e => (s.rgn false e.idx).valid && e.mirror != 0 && (s.rgn false e.idx).mirror == 0)

/-- Granule range test. -/
def Rgn.hasLine (e : Rgn) (line : Nat) : Bool := decide (e.base ≤ line / 2 ^ 22) && decide (line / 2 ^ 22 ≤ e.limit)
def Rgn.hasFolio (e : Rgn) (f : Nat) : Bool := decide (e.base ≤ f / 4096) && decide (f / 4096 ≤ e.limit)

/-- Ink folios that lack a second copy, among the given regions or all (R557, R770). -/
def State.lackSecond (s : State) (es : List Rgn) : List Nat :=
  (s.ink.folios.filter (fun p => p.2.isInk && !p.2.covered && !p.2.gone &&
    es.any (fun e => e.hasFolio p.1))).map (fun p => p.1)

/-- Clean the dirty lines of a region to DRAM (R180). -/
def State.cleanRegion (s : State) (e : Rgn) : State :=
  (s.cache.lines.filter (fun p => e.hasLine p.2.line && p.2.dirty)).foldl (fun st p => st.writeBack p.1 p.2) s

/-- Whether the commit under way has nothing left to wait for. -/
def State.commitReady (s : State) : Bool :=
  s.region.tableSync.isEmpty && !(s.invalidated.any (fun e => s.host.biWaits.any (fun w => e.hasLine w.line))) &&
    (s.role != 1 || (s.lackSecond s.toNone).isEmpty) &&
    !(s.leavingWb.any (fun e => s.cache.lines.any (fun p => p.2.dirty && e.hasLine p.2.line)))

/-- The shadow change that a commit of R112 or R113 makes first, with the commit as it then stands; none: there is no window to
set, since no identity answers for the device or all its windows are valid, the extent is out already, or the one to be released is
not (log entry 87). -/
def State.dcPrepare (s : State) (by_ : Committer) : Option (State × Committer) :=
  match by_ with
  | .dcAdd dev base limit rights =>
    if s.host.extents.contains (dev, base, limit) then none
    else (match s.dcFreePlace dev with
     | some o => some (s.setTab o (dcWindow base limit rights), by_)
     | none => none)
  | .dcRelease dev base limit _ _ =>
    if s.host.extents.contains (dev, base, limit) then
      (match s.dcPlace dev base limit with
       | some o => some (s.setTab o 0, .dcRelease dev base limit o (s.tab o))
       | none => some (s, .dcRelease dev base limit 0 0))
    else none
  | _ => some (s, by_)

/-- The answer where there is nothing that `dcPrepare` could set. -/
def State.dcRefused (s : State) (by_ : Committer) : State :=
  match by_ with
  | .dcAdd dev base limit _ => s.send (.capacity dev base limit true false)
  | .dcRelease dev base limit _ _ => s.send (.capacity dev base limit false false)
  | _ => s

/-- Ask for a commit: decided under R178; refused at once, or it waits for its edge (R102 to R104, R178, R180, R182). -/
def State.startCommit (s0 : State) (by0 : Committer) : State :=
  match s0.dcPrepare by0 with
  | none => s0.dcRefused by0
  | some (s, by_) =>
  match s.commitCheck by_ with
  | some f => s.commitRefused by_ f
  | none =>
    let s1 := ({ s with region := { s.region with commit := some by_ } }).commitStat true
      { status := bits (s.liveWord .REGION_CMT_STAT 0).toNat 15 8, kind := 3, entry := 0 }
    let s2 := s1.leavingWb.foldl (fun st e => st.cleanRegion e) s1
    let bi := s2.invalidated.filter (fun e => e.coherence == 1)
    let s3 := (s2.host.snoop.filter (fun p => bi.any (fun e => e.hasLine p.1))).foldl (fun st p => st.biSnoop p.1 p.2) s2
    let s4 := if s3.role == 1 && s3.mirrors && s3.synced then s3.sendTables false s3.changedEntries else s3
    if s4.role == 1 && !(s4.lackSecond s4.toNone).isEmpty then { s4 with ink := { s4.ink with building := true } } else s4

/-- A commit of the controller's own waits while another is under way (R766). -/
def State.ownCommit (s : State) (by_ : Committer) : State :=
  if s.region.commit.isSome then { s with region := { s.region with queued := s.region.queued ++ [by_] } }
  else s.startCommit by_

/-! ### The edge (R104, R182) -/

/-- A region that the edge makes invalid gives up its frames, its folio-map entries, its ink and its cached lines; a
`mirror_pending` that is 1 returns to 0 with it (R182, R210). -/
def State.dropRegion (s : State) (e : Rgn) : State :=
  let gone := s.ink.folios.filter (fun p => e.hasFolio p.1)
  let inks := (gone.filter (fun p => p.2.isInk)).length
  let lost := (gone.filter (fun p => p.2.lost)).length
  let pins := (gone.filter (fun p => p.2.pins != 0)).length
  let lo := e.base * 2 ^ 28
  let hi := (e.limit + 1) * 2 ^ 28
  let grans := gone.foldl (fun a p => setIns a (p.1 / 4096)) s.flash.journal.mapDirty
  let s1 := { s with
    ink := { s.ink with folios := s.ink.folios.filter (fun p => !e.hasFolio p.1) },
    cache := { s.cache with lines := s.cache.lines.filter (fun p => !e.hasLine p.2.line) },
    dram := { s.dram with
      cells := memClear s.dram.cells lo hi, second := memClear s.dram.second lo hi,
      merge := s.dram.merge.filter (fun m => !e.hasLine m.line),
      volFrames := s.dram.volFrames.filter (fun p => !e.hasFolio p.1),
      mapPages := s.dram.mapPages.filter (fun p => !(decide (e.base ≤ p.1) && decide (p.1 ≤ e.limit))),
      erroneous := s.dram.erroneous.filter (fun p => !e.hasLine p.1),
      replace2 := s.dram.replace2.filter (fun k => !(decide (k < 2 ^ 32) && e.hasFolio k)),
      replace1 := s.dram.replace1.filter (fun f => !e.hasFolio f),
      replace3 := s.dram.replace3.filter (fun f => !e.hasFolio f) },
    stage := { s.stage with entries := s.stage.entries.filter (fun x => !e.hasFolio x.folio),
                            wanted := s.stage.wanted.filter (fun f => !e.hasFolio f) },
    host := { s.host with snoop := s.host.snoop.filter (fun p => !e.hasLine p.1) },
    integ := { s.integ with poison := s.integ.poison.filter (fun p => !e.hasLine p.1),
                            overflow := s.integ.overflow.filter (fun p => !e.hasLine p.1) },
    twin := { s.twin with absentNone := s.twin.absentNone.filter (fun r => r != e.idx),
                          mirrorJobs := s.twin.mirrorJobs.filter (fun j => j.1 != e.idx) },
    flash := { s.flash with repairs := s.flash.repairs.filter (fun f => !e.hasFolio f),
                            journal := { s.flash.journal with mapDirty := grans } } }
  let s2 := ((((s1.subFld F.INK_CNT_ink 0 inks).subFld F.QUIRE_LOST_CNT_folios 0 lost).subFld F.STAGE_PIN_frames 0 pins).entryCount).setTab
    (0x840000 + e.idx * 32 + 24) 0
  (if s.mirrorPending e.idx then s2.raiseD Ev.MIRROR_READY e.idx else s2).cacheCount

/-- The map page of a granule takes its two frames, the second in the partner channel of the first, or where that one has none in
another (R183, R188; log entry 83). -/
def State.pageFrames (s : State) (g : Nat) : State :=
  match s.takeFrame with
  | none => s
  | some (f1, s1) =>
    let t := { s1 with dram := { s1.dram with mapPages := mapSet s1.dram.mapPages g [f1] } }
    match t.frameBeside (chanOf f1) with
    | some (f2, s2) => { s2 with dram := { s2.dram with mapPages := mapSet s2.dram.mapPages g [f1, f2] } }
    | none => t

/-- The granules of a PERSISTENT region have their map pages (R183). -/
def State.mapRegion (s : State) (e : Rgn) : State :=
  if e.persistent then
    (upto e.granules).foldl (fun st k =>
      if (mapGet? st.dram.mapPages (e.base + k)).isSome then st else st.pageFrames (e.base + k)) s
  else s

/-- Copy the shadow to the live copy at one edge, with its journal records and its consequences (R104, R176, R181, R182). -/
def State.commitCopy (s : State) (by_ : Committer) : State :=
  let gone := s.invalidated
  let newMirror := (s.validRegions true).filter (fun e => (s.rgn false e.idx).valid && e.mirror == 0 &&
    (s.rgn false e.idx).mirror != 0)
  let changed := s.changedEntries
  let s1 := gone.foldl (fun st e => st.dropRegion e) s
  let s2 := changed.foldl (fun st c =>
    let ws := s.tabEntry false c.1 c.2
    (st.setTabEntry true c.1 c.2 ws).jAppend { type := 0x0D, args := c.1 :: c.2 :: (if c.1 = 0 then ws ++ [0] else ws) }) s1
  let twin := match by_ with
    | .twin _ => true
    | _ => false
  let s3 := newMirror.foldl (fun st e =>
    if s.role == 1 || twin then
      (let st1 := st.setMirrorPending e.idx true
       if s.role == 1 then { st1 with twin := { st1.twin with mirrorJobs := st1.twin.mirrorJobs ++ [(e.idx, none)] } }
       else st1)
    else st) s2
  let s4 := (s3.validRegions true).foldl (fun st e => st.mapRegion e) s3
  s4.setStagePool.pairShrink.setCeiling

/-- The commit edge, once nothing is left to wait for (R104, R178, R180). -/
def State.commitEdge (s : State) : State :=
  match s.region.commit with
  | none => s
  | some by_ =>
    if s.commitReady then
      match s.commitCheck by_ with
      | some f => s.commitRefused by_ f
      | none =>
        let s1 := ({ s with region := { s.region with commit := none } }).commitCopy by_
        (s1.commitStat false { status := St.DONE, kind := 3, entry := 0 }).commitTell by_ St.DONE
    else s

/-- Start the oldest waiting commit of the controller once no other is under way (R766). -/
def State.nextCommit (s : State) : State :=
  if s.region.commit.isSome then s
  else match s.region.queued with
    | [] => s
    | c :: rest => ({ s with region := { s.region with queued := rest } }).startCommit c

end Sys2Proof.Machine
end

