-- ==== Sys2Proof/Machine/Jobs.lean ====
section
/-! DEFINITION. The maintenance scheduler (R730 to R740): submitting, the conflict matrix, starting and ending a job. -/

set_option Elab.async false

namespace Sys2Proof.Machine

/-- What the matrix says of a pair (R735). -/
inductive Pairing where
  | together | serial | refuse | waits | strike
deriving DecidableEq, Repr

/-- The width in force (R352). -/
def State.width (s : State) : Nat := s.fld F.QUIRE_STAT_width 0

/-- A group belongs to the rebuild (R356), or to the reshape (R356, R368). -/
def State.ofRebuild (s : State) (g : Group) : Bool :=
  decide (2 ≤ s.missing g) || (s.missing g == 1 && g.width == s.width)
def State.ofReshape (s : State) (g : Group) : Bool := g.width != s.width && decide (s.missing g ≤ 1)

/-- A group being reshaped has a member on the slot (R371, R735). -/
def State.reshapeOn (s : State) (slot : Nat) : Bool :=
  s.liveGroups.any (fun g => s.ofReshape g && g.members.any (fun a => bits a 31 28 == slot))

/-- The entry of R735 for activities `a ≥ b` with targets `ta`, `tb`. -/
def State.pairing (s : State) (a ta b tb : Nat) : Pairing :=
  let same := ta == tb
  if a = 0x0E then (if b = 0x0E then .refuse else .strike)
  else match a, b with
  | 0x01, 0x01 => if same then .serial else .together
  | 0x02, 0x01 => if same then .serial else .together
  | 0x02, 0x02 => if same then .serial else .together
  | 0x03, _ => if same then .refuse else .together
  | 0x04, 0x04 => .refuse
  | 0x05, 0x04 => .waits
  | 0x05, 0x05 => .refuse
  | 0x06, 0x04 => .refuse
  | 0x06, 0x05 => if s.reshapeOn ta then .refuse else .together
  | 0x06, 0x06 => if same then .refuse else .together
  | 0x07, 0x06 => if same then .refuse else .together
  | 0x07, 0x07 => if same then .refuse else .together
  | 0x08, 0x08 => .refuse
  | 0x09, 0x09 => .refuse
  | 0x0A, 0x08 => .serial
  | 0x0A, 0x09 => .refuse
  | 0x0A, 0x0A => .refuse
  | 0x0B, 0x0B => .serial
  | 0x0C, 0x09 => .serial
  | 0x0C, 0x0A => .serial
  | 0x0C, 0x0C => .serial
  | 0x0D, 0x0B => .serial
  | 0x0D, 0x0D => .refuse
  | _, _ => .together

/-- The entry for two jobs, whichever arrived first. -/
def State.pairJobs (s : State) (a ta b tb : Nat) : Pairing :=
  if b ≤ a then s.pairing a ta b tb else s.pairing b tb a ta

/-- Refresh `MAINT_STAT` and `MAINT_ACTIVE` (R739). -/
def State.maintRegs (s : State) : State :=
  let run := s.maint.jobs.filter (fun j => j.state == 1)
  let que := s.maint.jobs.filter (fun j => j.state == 0)
  let act := run.foldl (fun m j => m ||| 2 ^ j.act) 0
  ((s.setFld F.MAINT_STAT_running 0 run.length).setFld F.MAINT_STAT_queued 0 que.length).setLive .MAINT_ACTIVE 0 act

/-- A job by its id. -/
def State.job (s : State) (id : Nat) : Option Job := s.maint.jobs.find? (fun j => j.id == id)

/-- Change a job. -/
def State.setJob (s : State) (j : Job) : State :=
  { s with maint := { s.maint with jobs := s.maint.jobs.map (fun x => if x.id == j.id then j else x) } }

/-- The running job of an activity, with any target or one. -/
def State.running (s : State) (act : Nat) : Option Job := s.maint.jobs.find? (fun j => j.state == 1 && j.act == act)
def State.runningOn (s : State) (act target : Nat) : Option Job :=
  s.maint.jobs.find? (fun j => j.state == 1 && j.act == act && j.target == target)

/-- The greatest target of an activity plus one; 0: the target must be 0xFFFF (R730). -/
def targetLimit (act : Nat) : Nat :=
  match act with
  | 0x01 => 12
  | 0x02 => 12
  | 0x03 => 12
  | 0x06 => 16
  | 0x07 => 16
  | 0x0B => 36
  | _ => 0

/-- Parameter bytes that R730 does not name are zero, and a confirm is right (R731). -/
def paramsOk (act p0 p1 p2 : Nat) : Bool :=
  match act with
  | 0x01 => decide (p1 < 10) && p2 == 0
  | 0x0B => decide (p0 ≤ 10000) && p1 == 0 && p2 == 0
  | 0x0C => decide (p0 < 0x20000) && p0 &&& 0xFEDF == 0 && p1 == 0 && p2 == 0
  | 0x0D => decide (p0 < 16) && p1 == 0 && p2 == 0
  | 0x0E => p0 == 0x5043 && p1 == 0 && p2 == 0
  | _ => p0 == 0 && p1 == 0 && p2 == 0

/-- Activities that only the controller submits (R730). -/
def ctlOnly (act : Nat) : Bool := [0x04, 0x05, 0x07, 0x09].contains act

/-- R731 step 1: the submission is ill-formed. -/
def submitIll (fr : JobFrom) (act target p0 p1 p2 : Nat) : Bool :=
  decide (act < 1) || decide (0x0E < act) ||
    (if targetLimit act = 0 then target != 0xFFFF else decide (targetLimit act ≤ target)) ||
    !paramsOk act p0 p1 p2 || (fr != .controller && ctlOnly act)

/-- The job came by MAINT_SUBMIT. -/
def isMaintSubmit (fr : JobFrom) : Bool :=
  match fr with
  | .mailbox _ => true
  | .payload _ _ => true
  | _ => false

/-- R731 step 2: a well-formed MAINT_SUBMIT is refused while the controller is fenced. R130 names no other mailbox command that
carries a job. -/
def State.submitFenced (s : State) (fr : JobFrom) (act target p0 p1 p2 : Nat) : Bool :=
  isMaintSubmit fr && s.cmdFenced && !submitIll fr act target p0 p1 p2

/-- Decide a submission by the other steps of R731, and by R734. -/
def State.submitStatus (s : State) (fr : JobFrom) (queue : Bool) (act target p0 p1 p2 : Nat) : Nat :=
  let others := s.maint.jobs.filter (fun j => j.state != 2)
  let ps := others.map (fun j => s.pairJobs act target j.act j.target)
  if submitIll fr act target p0 p1 p2 then St.ILLEGAL
  else if act = 0x0E && fr == .controller then St.DONE
  else if act = 0x0E && s.inLoadIn then St.RETRY_LATER
  else if ps.contains .refuse then St.CONFLICT
  else if ps.contains .serial && !queue then St.CONFLICT
  else if 64 ≤ (s.maint.jobs.filter (fun j => j.state == 0)).length then St.QUEUE_FULL
  else St.DONE

/-- Submit a job: when accepted it stands queued under the next id (R731, R732). Answers the status and the id. -/
def State.submit (s : State) (fr : JobFrom) (queue : Bool) (act target p0 p1 p2 : Nat) : State × Nat × Nat :=
  let st := s.submitStatus fr queue act target p0 p1 p2
  if st = St.DONE then
    let id := s.maint.nextId
    let next := if id + 1 = 2 ^ 32 then 1 else id + 1
    let j : Job := { id := id, act := act, target := target, p0 := p0, p1 := p1, p2 := p2, sender := fr, state := 0,
                     status := 0, progress := 0, phase := 0, since := s.clock, waiter := none }
    (({ s with maint := { jobs := s.maint.jobs ++ [j], nextId := next } }).maintRegs, st, id)
  else if st = St.CONFLICT then (s.raiseD Ev.MAINT_REFUSED act, st, 0)
  else (s, st, 0)

/-- The controller's own submission, with `queue=1` (R249, R267, R357, R367). -/
def State.ownJob (s : State) (act target p0 p1 : Nat) : State := (s.submit .controller true act target p0 p1 0).1

/-- Whether a queued job may start (R732): no running job and no earlier queued job conflicts with it. -/
def State.mayStart (s : State) (j : Job) : Bool :=
  j.state == 0 && !(s.maint.jobs.any (fun o =>
    (o.state == 1 || (o.state == 0 && decide (o.id < j.id))) &&
      (match s.pairJobs j.act j.target o.act o.target with
       | .serial => true
       | .waits => j.act == 5
       | _ => false)))

/-- Mark a job started (R732). -/
def State.markStarted (s : State) (j : Job) : State :=
  ((s.setJob { j with state := 1, since := s.clock }).maintRegs).raiseD Ev.MAINT_STARTED j.id

/-- End a job with its status (R732); only the last 256 ended jobs stay (R733). -/
def State.endJob (s : State) (id status : Nat) : State :=
  match s.job id with
  | none => s
  | some j =>
    if j.state = 2 then s
    else
      let s1 := s.setJob { j with state := 2, status := status, progress := 100 }
      let ended := s1.maint.jobs.filter (fun x => x.state == 2)
      let drop := (ended.take (ended.length - 256)).map (fun x => x.id)
      let keep := s1.maint.jobs.filter (fun x => !drop.contains x.id)
      let s2 := ({ s1 with maint := { s1.maint with jobs := keep } }).maintRegs
      let s3 := match j.waiter with
        | some (mb, op) => if op < 0xC000 then s2.send (.mailbox mb op .busy [])
          else s2.answer mb op status (leBytes 3 0 ++ leBytes 4 j.phase)
        | none => s2
      s3.raiseD Ev.MAINT_ENDED (id * 256 + status)

/-- Tell the submitter how its submission went: MAINT_SUBMIT's answer, or `MAINT_RES` and `MAINT_JOBID` (R128, R739). -/
def State.submitTell (s : State) (fr : JobFrom) (status id : Nat) : State :=
  match fr with
  | .mailbox mb => s.answer mb 0xC00C status (leBytes 3 0 ++ leBytes 4 id)
  | .payload mb _ => s.answer mb 0xC00C status (leBytes 3 0 ++ leBytes 4 id)
  | .firmware => (s.setLive .MAINT_RES 0 status).setLive .MAINT_JOBID 0 id
  | .controller => s

/-- Percent of a job done. -/
def State.jobProgress (s : State) (act pct : Nat) : State :=
  match s.running act with
  | some j => s.setJob { j with progress := pct }
  | none => s

/-! ### The scene change (R738) -/

/-- The set that a SCENE_CHANGE requests: the active set with INTERMISSION and SERVICE as wanted; with reload the active set. -/
def State.sceneWanted (s : State) (p0 : Nat) : Nat :=
  let active := s.fld F.SCENE_ACTIVE_set 0
  if bitB p0 16 then active else mixBits 0x120 active p0

/-- The boundary of a set would bring a faster divider than any in force while the voltage is not ready (R605). -/
def State.needsVolts (s : State) (set : Nat) : Bool :=
  (s.dividers (s.composed (s.overlay set) .CLK_CLUSTER_DIV 0)).2.2

/-- A running SCENE_CHANGE writes its request once no boundary is pending (R89) and the voltage it needs is ready (R738). -/
def State.sceneJobGo (s : State) : State :=
  match s.running 0x0C with
  | none => s
  | some j =>
    if j.phase ≠ 0 ∨ s.flag F.SCENE_STAT_busy 0 then s
    else
      let set := s.sceneWanted j.p0
      let st := s.requestStatus set
      if st ≠ St.DONE then (s.requestSet set).endJob j.id st
      else if s.needsVolts set then s.setRw F.SENT_DVFS_raise 0 1
      else (s.setJob { j with phase := 1 }).requestSet set

/-- The boundary of a SCENE_CHANGE has occurred: the job ends. -/
def State.sceneJobEnd (s : State) : State :=
  match s.running 0x0C with
  | none => s
  | some j => if j.phase = 1 then s.endJob j.id St.DONE else s

/-- A REHEARSAL whose hold-up test has ended, or has not been let start, ends (R736). -/
def State.rehearsalEnd (s : State) (fail : Bool) (status : Nat) : State :=
  match s.running 0x0D with
  | none => s
  | some j => if j.progress = 50 then (s.setJob { j with phase := j.phase + b2n fail }).endJob j.id status else s

end Sys2Proof.Machine
end

