-- ==== Sys2Proof/Machine/HostPort.lean ====
section
/-! DEFINITION. Commands at the host links (chapter 3): links, loads and stores, Back-Invalidate, IDE, DOE, HDM decoders,
dynamic capacity, Global Persistent Flush, and the gates' timed events (chapter 4). -/

set_option Elab.async false

namespace Sys2Proof.Machine

/-- The link exists: even, or the odd half of a split port (R92). -/
def State.linkExists (s : State) (n : Nat) : Bool := decide (n < 8) && (n % 2 == 0 || (s.link (n - 1)).split)

/-- LINK_UP (R93, R94, R99, R139): width 1 to 16, speed code 1 to 6; CXL only where it was negotiated. A latency-optimized flit
offer below 64 GT/s is refused (DESIGN CHOICE, log entry 57). The event is raised as the link becomes active, not again when
an active link changes width or speed. -/
def execLinkUp (link width speed : Nat) (flitLo cxl : Bool) (s : State) : Res :=
  .next (
    if s.linkExists link && s.flag F.HPORT_CFG_enable link && !s.pwr.linksInReset.contains link &&
        !s.flag F.HPORT_STAT_frozen link && [1, 2, 4, 8, 16].contains width && decide (1 ≤ speed) && decide (speed ≤ 6) &&
        decide (width ≤ (if s.share link = 16384 then 16 else 8)) && (!flitLo || speed == 6) then
      let s1 := (((((s.setFlag F.HPORT_STAT_up link true).setFld F.HPORT_STAT_width link width).setFld
        F.HPORT_STAT_speed link speed).setFlag F.HPORT_STAT_flit_lo link flitLo).setFlag F.HPORT_STAT_cxl link cxl)
      (if cxl && !(s.flag F.HPORT_STAT_up link && s.flag F.HPORT_STAT_cxl link) then s1.raise (Ev.LINK_UP link) else s1).settle
    else s)

/-- LINK_DOWN (R139): the link leaves the active state. -/
def execLinkDown (link : Nat) (s : State) : Res := .next (s.linkLeave link)

/-! ### Errors that a request meets on its way (R235, R259, R260, R267, R675 to R681) -/

/-- The times of a row's corrected errors of the last 24 h, with one now (R267, R677). -/
def State.ceTimes (s : State) (rows : List (Nat × List Nat)) (row : Nat) : List Nat :=
  s.clock :: (mapGet [] rows row).filter (fun t => !s.due t 86400000000)

/-- Count a corrected error of an array row; SRAM_CE_HIGH when the row reaches its limit within 24 h (R677). -/
def State.sramCe (s : State) (cls row : Nat) : State :=
  let key := wide32 cls row
  let w := s.ceTimes s.integ.rowCe key
  let s1 := ({ s with integ := { s.integ with rowCe := mapSet s.integ.rowCe key w } }).addSat F.INT_ARRAY_ce cls 1
  if w.length = s.fld F.INT_CE_CFG_row_limit 0 then
    ({ s1 with integ := { s1.integ with marked := setIns s1.integ.marked key } }).raiseD Ev.SRAM_CE_HIGH key
  else s1

/-- Count a corrected error of a cache way; WAY_CE_HIGH at the limit (R235). -/
def State.wayCe (s : State) (slice way : Nat) : State :=
  let k := slice * 16 + way
  let n := mapGet 0 s.cache.ceCount k + 1
  let s1 := { s with cache := { s.cache with ceCount := mapSet s.cache.ceCount k n } }
  if n = s.fld F.SCACHE_CTL_ce_limit 0 then s1.raiseD Ev.WAY_CE_HIGH k else s1

/-- Count a corrected error of a DRAM row, met on a device; at the limit CE_ROW_LIMIT and a repair job (R260, R267). -/
def State.dramCe (s : State) (c row dev : Nat) : State :=
  let ch := s.chan c
  let w := s.ceTimes ch.rowCe row
  let s1 := (s.setChan c { ch with rowCe := mapSet ch.rowCe row w }).addSat F.DMC_CE_CNT_count c 1
  if w.length = s.fld F.DMC_CE_CFG_row_limit c then
    (s1.raiseD (Ev.CE_ROW_LIMIT) (wide32 c (row % 2 ^ 32))).ownJob 0x01 c (row % 2 ^ 32) dev
  else s1

/-- A channel freezes; a LEAD then hands over (R271, R276). -/
def State.freezeNow (s : State) (c cause cls : Nat) (dpa : Option Nat) (words : List Nat) : State :=
  let s1 := s.freezeChan c cause cls dpa words
  if s1.role = 1 then s1.ownJob 0x0A 0xFFFF 0 0 else s1

/-- Snapshot words with the place of the failing line and no single device named (R283). -/
def snapAt (p : DramPlace) (words : List Nat) : List Nat :=
  (upto 64).map (fun w => if w = 1 then p.word1 else if w = 2 then 0xF * 2 ^ 28 + p.sub else words.getD w 0)

/-- A read of line `m` of frame `fr` (R245) found what its code words say (R259): a corrected error is counted (R260), an
uncorrectable one freezes the channel (R271). The flag says that the read was corrected. -/
def State.eccFound (s : State) (fr m cause cls : Nat) (dpa : Option Nat) (points words : List Nat) : State × Bool :=
  let c := chanOf fr
  let p := s.dramPlace c (lineIndex fr m)
  match eccVerdict points with
  | .good => (s, false)
  | .corrected d => (s.dramCe c p.rowKey d, true)
  | .uncorrectable => (s.freezeNow c cause cls dpa (snapAt p words), false)

/-- A request's read of a line that the cache does not hold finds errors in DRAM: a copy that was corrected stays erroneous until
it is rewritten (R260). -/
def State.dramFound (s : State) (line cls : Nat) (points words : List Nat) : State :=
  match s.cacheFind line, s.frameAt (line * 64) with
  | none, some fr =>
    (match s.eccFound fr line 1 cls (some (line * 64)) points words with
     | (s1, true) => { s1 with dram := { s1.dram with erroneous := mapSet s1.dram.erroneous line ((points.find? (fun d => d != 10)).getD 10) } }
     | (s1, false) => s1)
  | _, _ => s

/-- A read of a line whose DRAM copy is still erroneous is corrected and counted once more (R260). -/
def State.dramAgain (s : State) (line cls : Nat) : State :=
  match mapGet? s.dram.erroneous line with
  | some d => s.dramFound line cls [d, d, d, d, d, d, d, d] []
  | none => s

/-- The error a request of a class meets in an array, applied before the request is served. What a damaged request buffer
does to the request is the path's (R681). -/
def State.meetError (s : State) (err : PathErr) (line cls : Nat) : State :=
  match err with
  | .none => s.dramAgain line cls
  | .cacheCe row =>
    (match s.cacheFind line with
     | some (k, _) => (s.wayCe (k / 65536) (k % 16)).sramCe 0 row
     | none => s.sramCe 0 row)
  | .cacheUe =>
    (match s.cacheFind line with
     | some (k, c) =>
       let s1 := (s.raiseD Ev.SRAM_UE (line * 64)).dropWay k
       if c.dirty then s1.poisonLine line 1 else s1
     | none => s)
  | .tagUe =>
    (match s.cacheFind line with
     | some (k, _) => ((s.raiseD Ev.SRAM_UE k).dropWay k).raiseD Ev.TAG_LOST k
     | none => s)
  | .filterUe =>
    ((s.host.snoop.filter (fun p => lineSet p.1 == lineSet line)).foldl (fun st p => st.biSnoop p.1 p.2)
      (s.raiseD Ev.SRAM_UE (lineSet line))).raiseD Ev.TAG_LOST (lineSet line)
  | .dramRead points words => s.dramFound line cls points words
  | .bufferUe => s.raiseD Ev.SRAM_UE (line * 64)
  | .mergeUe =>
    (match s.mergeFor line with
     | some m =>
       let rest := s.dram.merge.filter (fun x => x.line != m.line)
       (({ s with dram := { s.dram with merge := rest } }).raiseD Ev.SRAM_UE (line * 64)).poisonLine line 3
     | none => s)

/-- S2M_CREDIT_RETURN (R140): completions that waited for a credit leave. -/
def execS2mCreditReturn (link ndr drs : Nat) (s : State) : Res :=
  let l := s.link link
  let cap := if s.share link = 16384 then 1024 else 512
  .next ((s.setLink link { l with ndr := min cap (l.ndr + ndr), drs := min cap (l.drs + drs) }).settle)

/-- A class waits, since before a time, for a credit of a stage (R140, R150). Stages: 0 a link's tracker share, 1 the internal
pool, 2 a cache slice, 3 a DRAM channel queue (where nothing waits from one command to the next, log entry 86), 4 the stager,
5 a flash channel queue, 6 the completion stage, 7 the twin send path (DESIGN CHOICE, log entry 89). -/
def State.waitsSince (s : State) (cls stage t : Nat) : Bool :=
  let gate (g : Gate) (r : Req) : Bool := r.cls == cls && r.gate == g && decide (r.gateAt < t)
  match stage with
  | 0 => s.path.ingress.any (fun q => decide (q.t0 < t) && (s.checkHost q).cls == cls)
  | 1 => s.path.inner.any (fun r => r.cls == cls && decide (r.t0 < t))
  | 2 => s.path.held.any (fun r => gate .credit r || gate .slice r)
  | 4 => s.path.held.any (fun r => gate .staging r && (s.entryOf (r.dpa / 65536)).isNone)
  | 5 => s.flash.reads.any (fun r => r.cls == cls && !r.issued && decide (r.since < t))
  | 6 => s.path.compl.any (fun c => c.cls == cls && decide (c.since < t))
  | 7 => s.path.held.any (gate .send)
  | _ => false

/-- CLASS_STARVED (R150): a class has waited longer than 1 ms for a credit at a stage; at most once per second per class. The
detail names class and stage. -/
def execClassStarved (cls stage : Nat) (s : State) : Res :=
  .next (
    if s.waitsSince cls stage (s.clock - 1000) && s.secondOver (mapGet? s.path.starvedAt cls) then
      ({ s with path := { s.path with starvedAt := mapSet s.path.starvedAt cls s.clock } }).raiseD Ev.CLASS_STARVED
        (cls * 256 + stage)
    else s)

/-- BOUNDED_GATE_CLOSED (R158): the gate follows the age of the oldest unacknowledged completed BOUNDED store. -/
def execBoundedGateClosed (s : State) : Res := .next s.settle

/-- HOLD_POISON (R154): loads held behind an applied store whose stall bound has expired complete with poison. -/
def execHoldPoison (s : State) : Res :=
  .next ((s.path.held.filter (fun r => r.gate == .applied && decide (r.bound ≤ s.clock) && (match r.src with
      | .host _ _ _ _ => true
      | _ => false))).foldl (fun st r =>
    (st.poisonLoad r 0).raiseD Ev.HOLD_POISON r.dpa) s).settle

/-- STALL_BOUND_POISON (R28, R388): host loads waiting for staging whose bound has expired complete with poison. -/
def execStallBoundPoison (s : State) : Res :=
  .next ((s.path.held.filter (fun r => r.gate == .staging && !r.isStore && decide (r.bound ≤ s.clock) && (match r.src with
      | .host _ _ _ _ => true
      | _ => false))).foldl (fun st r => (st.poisonLoad r 0).raiseD Ev.STALL_BOUND_POISON r.dpa) s).settle

/-! ### Back-Invalidate -/

/-- BIRSP (R115, R116): a holder answers; with the last answer the line's holders leave the filter and what waits goes on. -/
def execBirsp (link key line : Nat) (s : State) : Res :=
  let h : Holder := { link := link, key := key }
  let ws := s.host.biWaits.map (fun w => if w.line == line then { w with left := w.left.filter (fun x => x != h) } else w)
  let done := ws.filter (fun w => w.left.isEmpty)
  let drop1 := (mapGet [] s.host.snoop line).filter (fun x => x != h)
  let snoop := if drop1.isEmpty then mapDel s.host.snoop line else mapSet s.host.snoop line drop1
  let s1 := { s with host := { s.host with biWaits := ws.filter (fun w => !w.left.isEmpty), snoop := snoop } }
  let s2 := done.foldl (fun st w =>
    let ap := st.path.applied.map (fun a => { a with bi := a.bi.filter (fun l => l != w.line) })
    { st with path := { st.path with applied := ap } }) s1
  .next s2.settle

/-- `HPORT_BI_WARN` in microseconds: the spec names it, with its default, and gives it no offset (R117, log entry 13). -/
def biWarn : Nat := 1000

/-- BI_SLOW (R117): raised once for each further interval of `HPORT_BI_WARN` that a BIRsp is outstanding. -/
def execBiSlow (s : State) : Res :=
  let step := biWarn
  .next (s.host.biWaits.foldl (fun st w =>
    if decide (w.warned + step ≤ s.clock) && decide (0 < step) then
      let ws := st.host.biWaits.map (fun x => if x.line == w.line then { x with warned := x.warned + step } else x)
      ({ st with host := { st.host with biWaits := ws } }).raiseD Ev.BI_SLOW (w.line * 64)
    else st) s)

/-! ### IDE and DOE -/

/-- IDE_INTEGRITY_FAIL (R119): the flit is discarded, the stream is insecure and every response is withheld. A link that does not
exist receives no flit. -/
def execIdeIntegrityFail (link : Nat) (s : State) : Res :=
  .next (
    if s.linkExists link then
      ((s.setFlag F.HPORT_STAT_ide_secure link false).setLink link { s.link link with withheld := true }).raiseD
        Ev.IDE_INTEGRITY_FAIL link
    else s)

/-- CDAT (R122): read latency in ns and bandwidth in GB/s of class 0, resident data, and class 1, staged data, as little-endian
numbers of 4 and 2 bytes (the layout is the model's, DESIGN CHOICE, log entry 59). -/
def State.cdat (s : State) (link : Nat) : List Byte :=
  let bw := if s.share link = 16384 then 121 else 60
  leBytes 4 210 ++ leBytes 2 bw ++ leBytes 4 80000 ++ leBytes 2 bw

/-- What the DOE mailbox answers (R100, R121, R122): the list of the protocols, or CDAT. CMA/SPDM, Secured CMA/SPDM and IDE_KM
are answered by the SPDM and key commands. -/
def State.doeAnswer (s : State) (link protocol : Nat) : Option (List Byte) :=
  match protocol with
  | 0 => some [0, 1, 2, 3, 4]
  | 3 => some (s.cdat link)
  | _ => none

/-- DOE_REQUEST (R121, R122): one request at a time; `done` tells whether this is a request or the end of the handling of the one
that is under way. A second request before the response is aborted, and the first goes on; a request for a protocol that is
not offered finds no taker. The abort shows as an answer of protocol 0xFF without bytes (DESIGN CHOICE, log entry 59). -/
def execDoeRequest (link protocol : Nat) (done : Bool) (s : State) : Res :=
  let l := s.link link
  .next (match l.doe with
    | some p =>
      if done then
        let s1 := s.setLink link { l with doe := none }
        (match s.doeAnswer link p with
         | some bs => s1.send (.doe link p bs)
         | none => s1)
      else s.send (.doe link 0xFF [])
    | none => if done || decide (4 < protocol) then s else s.setLink link { l with doe := some protocol })

/-! ### HDM decoders and dynamic capacity -/

/-- The forms of R108. -/
def hdmFormOk (ways granularity : Nat) : Bool :=
  [1, 2, 4, 8, 16, 3, 6, 12].contains ways && [256, 512, 1024, 2048, 4096, 8192, 16384].contains granularity

/-- HDM_COMMIT (R108, R109, R110): refused for a bad form, size or skip, and for a decoder that is committed and locked. A
decoder of size 0, a multiple of 256 MiB that maps nothing, is refused too (DESIGN CHOICE, log entry 58). -/
def execHdmCommit (dev index base size skip ways granularity : Nat) (lock : Bool) (s : State) : Res :=
  let k := dev * 8 + index
  let locked := match mapGet? s.host.decoders k with
    | some d => d.committed && d.lock
    | none => false
  .next (
    if decide (index < 8) && hdmFormOk ways granularity && size % 2 ^ 28 == 0 && skip % 2 ^ 28 == 0 &&
        decide (0 < size) && !locked then
      let d : Hdm := { committed := true, lock := lock, base := base, size := size, skip := skip, ways := ways,
                       granularity := granularity }
      ({ s with host := { s.host with decoders := mapSet s.host.decoders k d } }).send (.hdm dev index true)
    else s.send (.hdm dev index false))

/-- HDM_UNCOMMIT (R110). -/
def execHdmUncommit (dev index : Nat) (s : State) : Res :=
  let k := dev * 8 + index
  .next (match mapGet? s.host.decoders k with
    | some d => if d.lock then s else { s with host := { s.host with decoders := mapDel s.host.decoders k } }
    | none => s)

/-- Extents of a device that are out, or whose commit is under way or waits (R111). -/
def State.dcOut (s : State) (dev : Nat) : List (Nat × Nat × Nat) :=
  s.host.extents.filter (fun x => x.1 == dev) ++
    (s.region.commit.toList ++ s.region.queued).filterMap (fun c => match c with
      | .dcAdd d b l _ => if d = dev then some (d, b, l) else none
      | _ => none)

/-- The DC regions of a device that its extents lie in: a DC region is read as a region of the region table (R111; DESIGN
CHOICE, log entry 87). -/
def State.dcRegions (s : State) (xs : List (Nat × Nat × Nat)) : List Nat :=
  xs.foldl (fun a x => match s.regionOf false x.2.1 with
    | some e => setIns a e.idx
    | none => a) []

/-- The limits of R111 hold with one more extent: 4,096 extents in at most 8 DC regions. -/
def State.dcRoom (s : State) (dev base limit : Nat) : Bool :=
  let xs := s.dcOut dev
  decide (xs.length < 4096) && decide ((s.dcRegions ((dev, base, limit) :: xs)).length ≤ 8)

/-- ADD_CAPACITY (R111, R112): the host accepts extents that it was offered; the window is set and committed before it is
reported. Offer and acceptance are one command (log entry 87). -/
def execAddCapacity (dev base limit rights : Nat) (s : State) : Res :=
  .next (
    if s.dcRoom dev base limit && decide (base ≤ limit) && decide (rights < 8) then
      (s.ownCommit (.dcAdd dev base limit rights)).settle
    else s.send (.capacity dev base limit true false))

/-- RELEASE_CAPACITY (R113): the window is cleared and committed before the release is confirmed. What is not out as an extent
cannot be released (log entry 87). -/
def execReleaseCapacity (dev base limit : Nat) (s : State) : Res :=
  .next (s.ownCommit (.dcRelease dev base limit 0 0)).settle

/-! ### What the device presents (R100, R132, R136) -/

/-- The features of R100. -/
inductive CxlFeature where
  | io | mem | cache | type2 | mld | gfam | hdmDecoders | dynamicCapacity | backInvalidate | ide | doe | gpf | mailbox
  | labelStorage | security | partitionChange
deriving DecidableEq, Repr

/-- Whether the controller offers it (R100). -/
def CxlFeature.offered (f : CxlFeature) : Bool :=
  match f with
  | .cache | .type2 | .security | .partitionChange => false
  | _ => true

/-- The IDE modes of the one stream of a link (R100). -/
inductive IdeMode where
  | containment | skid
deriving DecidableEq, Repr

/-- The GPF DVSEC (R136): phase 2 duration in µs and power in W. -/
structure GpfDvsec where
  phase2Us : Nat
  phase2W : Nat
deriving DecidableEq, Repr
def gpfDvsec : GpfDvsec := { phase2Us := 1000, phase2W := 110 }

/-- A host reads a control register through BAR0 of a link (R37, R132): `HPORT_STAT` of that link, `TWIN_EPOCH`, `SCENE_ACTIVE`
and `SENT_PCAP` are published; any other reads as zero. -/
def State.bar0Read (s : State) (link : Nat) (r : RegId) (i : Nat) : Nat :=
  let published := match r with
    | .HPORT_STAT => i == link
    | .TWIN_EPOCH | .SCENE_ACTIVE | .SENT_PCAP => true
    | _ => false
  if published then s.readWord r i else 0

/-- A host's write through BAR0 to a control register is discarded: what is published there is read-only (R37, R132). -/
def State.bar0Write (s : State) (_link : Nat) (_r : RegId) (_i _value : Nat) : State := s

/-! ### Global Persistent Flush -/

/-- GPF_PHASE1 (R135): no action is needed; the phase is answered. -/
def execGpfPhase1 (link : Nat) (s : State) : Res := .next (s.send (.gpfDone link 1))

/-- GPF_PHASE2 (R135, R137, R138): a persist barrier over all regions, then the answer; at once when `gpf_en` is 0. -/
def execGpfPhase2 (link : Nat) (s : State) : Res :=
  .next (
    if s.inStrike then s
    else if s.flag F.HPORT_CFG_gpf_en link then
      (s.setLink link { s.link link with gpf := some s.path.nextAcc }).settle
    else (s.send (.gpfDone link 2)).raise Ev.GPF_DONE)

end Sys2Proof.Machine
end

