-- ==== Sys2Proof/Machine/CacheOps.lean ====
section
/-! DEFINITION. Maintenance operations of the system cache (R221 to R240). An operation by address acts in its place among the
requests to its lines (R224), one by set or array on the lines as they stand at its acceptance (R225); a disable, an enable and the two way operations act when they
complete; `SCACHE_MAINT_DONE` completes an operation with its status. -/

set_option Elab.async false

namespace Sys2Proof.Machine

/-- Accept an operation: discarded while one runs (R221). `st` is the status it will end with. -/
def State.startMaint (s : State) (value st : Nat) (act : State → State) : State :=
  if s.flag F.SCACHE_MAINT_STAT_busy 0 then s
  else
    let s1 := (act s).setFlag F.SCACHE_MAINT_STAT_busy 0 true
    { s1 with cache := { s1.cache with maint := some value, maintStatus := st } }

/-- First line and number of lines of an operation by address (R223, R239). -/
def State.maintFirst (s : State) : Nat :=
  s.fld F.SCACHE_MAINT_ADDR_LO_dpa_lo 0 + s.fld F.SCACHE_MAINT_ADDR_HI_dpa_hi 0 * 2 ^ 26
def State.maintCount (s : State) : Nat := s.fld F.SCACHE_MAINT_ADDR_HI_count 0 + 1

/-- Every address of the operation lies in the data DPA space (R30, R223). -/
def State.maintInside (s : State) : Bool := decide (s.maintFirst + s.maintCount ≤ 2 ^ 42)

/-- An operation by address: BOUNDS before any line is handled (R223), or its place in the order of the lines' requests, in which
it acts (R224). -/
def State.maintAddr (s : State) (op : Nat) : State :=
  let lo := s.maintFirst
  let hi := s.maintFirst + s.maintCount
  if s.maintInside then
    s.startMaint op St.DONE (fun st => { st with cache := { st.cache with maintAt := some (st.path.nextAcc, lo, hi) } })
  else s.startMaint op St.BOUNDS id

/-- The lines of one set of one slice. -/
def inSet (slice set : Nat) : Nat → CLine → Bool := fun k _ => k / 16 == slice * 4096 + set

/-- The lines of one way of one slice. -/
def inWay (slice way : Nat) : Nat → CLine → Bool := fun k _ => k / 65536 == slice && k % 16 == way

/-- The word that starts an operation (R239). -/
def maintWord (op slice way set : Nat) : Nat := op + (slice % 32) * 2 ^ 7 + (way % 16) * 2 ^ 12 + (set % 4096) * 2 ^ 16

/-- CLEAN (R221, R223). -/
def execClean (s : State) : Res := .next (s.maintAddr 0x1).settle

/-- INVALIDATE (R221, R222, R223). -/
def execInvalidate (s : State) : Res := .next (s.maintAddr 0x2).settle

/-- FLUSH (R221, R223). -/
def execFlush (s : State) : Res := .next (s.maintAddr 0x3).settle

/-- CLEAN_SET (R221, R225). -/
def execCleanSet (slice set : Nat) (s : State) : Res :=
  .next (s.startMaint (maintWord 0x4 slice 0 set) St.DONE (fun st => st.cleanWays (inSet (slice % 32) (set % 4096)))).settle

/-- INVALIDATE_SET (R221, R222, R225). -/
def execInvalidateSet (slice set : Nat) (s : State) : Res :=
  .next (s.startMaint (maintWord 0x5 slice 0 set) St.DONE (fun st =>
    st.invalidateWays (inSet (slice % 32) (set % 4096)))).settle

/-- FLUSH_SET (R221, R225). -/
def execFlushSet (slice set : Nat) (s : State) : Res :=
  .next (s.startMaint (maintWord 0x6 slice 0 set) St.DONE (fun st => st.flushWays (inSet (slice % 32) (set % 4096)))).settle

/-- CLEAN_ALL (R221, R225). -/
def execCleanAll (s : State) : Res := .next (s.startMaint 0x7 St.DONE (fun st => st.cleanWays (fun _ _ => true))).settle

/-- INVALIDATE_ALL (R221, R222): it also clears `SCACHE_STAT.stale`. -/
def execInvalidateAll (s : State) : Res :=
  .next (s.startMaint 0x8 St.DONE (fun st =>
    (st.invalidateWays (fun _ _ => true)).setFlag F.SCACHE_STAT_stale 0 false)).settle

/-- FLUSH_ALL (R221). -/
def execFlushAll (s : State) : Res := .next (s.startMaint 0x9 St.DONE (fun st => st.flushWays (fun _ _ => true))).settle

/-- DISABLE (R221, R227): new requests are held at the slices until it completes. -/
def execDisable (s : State) : Res := .next (s.startMaint 0xA St.DONE id)

/-- ENABLE (R221, R230). -/
def execEnable (s : State) : Res := .next (s.startMaint 0xB St.DONE id)

/-- The ways of a slice in service. -/
def State.waysOn (s : State) (slice : Nat) : Nat := 16 - popN 16 (s.fld F.SCACHE_WAYSTAT_soft slice)

/-- WAY_DISABLE (R221, R234): ILLEGAL when fewer than 8 ways of the slice would remain. -/
def execWayDisable (slice way : Nat) (s : State) : Res :=
  let sl := slice % 32
  let rest := if bitB (s.fld F.SCACHE_WAYSTAT_soft sl) (way % 16) then s.waysOn sl else s.waysOn sl - 1
  .next (s.startMaint (maintWord 0xC slice way 0) (if rest < 8 then St.ILLEGAL else St.DONE) id)

/-- WAY_ENABLE (R221). -/
def execWayEnable (slice way : Nat) (s : State) : Res := .next (s.startMaint (maintWord 0xD slice way 0) St.DONE id)

/-- The cache becomes disabled: its lines stay, stale (R229). -/
def State.cacheDisable (s : State) : State :=
  let lines := s.cache.lines.map (fun p => (p.1, { p.2 with stale := fullMask }))
  let s1 := (({ s with cache := { s.cache with lines := lines } }).setFlag F.SCACHE_STAT_enabled 0 false)
  (if lines.isEmpty then s1 else s1.setFlag F.SCACHE_STAT_stale 0 true).raise Ev.SCACHE_DISABLED

/-- The cache returns to service with its contents as they stand (R230). -/
def State.cacheEnable (s : State) : State :=
  let s1 := s.setFlag F.SCACHE_STAT_enabled 0 true
  (if s.flag F.SCACHE_STAT_stale 0 then s1.raise Ev.STALE_ENABLE else s1).raise Ev.SCACHE_ENABLED

/-- What an operation does at its completion, and its status (R227, R230, R234). WAY_DISABLE flushes the lines of its way, but
discards the stale ones as R222 has it. -/
def State.maintEffect (s : State) (v st : Nat) : State × Nat :=
  let op := bits v 3 0
  let sl := bits v 11 7
  let way := bits v 15 12
  if op = 0xA then
    if s.fld F.SCACHE_STAT_dirty_p 0 = 0 then (s.cacheDisable, St.DONE)
    else (s.raise Ev.DISABLE_DENIED, St.CURTAIN_DENIED)
  else if op = 0xB then (s.cacheEnable, St.DONE)
  else if op = 0xC ∧ st = St.DONE then
    let s1 := (s.cleanWays (fun k c => inWay sl way k c && c.stale == 0)).invalidateWays (inWay sl way)
    ((s1.setFld F.SCACHE_WAYSTAT_soft sl (s1.fld F.SCACHE_WAYSTAT_soft sl ||| 2 ^ way)).raiseD Ev.WAY_DISABLED (sl * 16 + way),
      St.DONE)
  else if op = 0xD then
    (s.setFld F.SCACHE_WAYSTAT_soft sl (s.fld F.SCACHE_WAYSTAT_soft sl &&& (0xFFFF ^^^ 2 ^ way)), St.DONE)
  else (s, st)

/-- The running operation ends with a status (R239, R240). -/
def State.maintEnd (s : State) (st : Nat) : State :=
  let s1 := (s.setFlag F.SCACHE_MAINT_STAT_busy 0 false).setFld F.SCACHE_MAINT_STAT_status 0 st
  ({ s1 with cache := { s1.cache with maint := none, maintAt := none } }).raiseD Ev.SCACHE_MAINT_DONE st

/-- The running operation can complete: one by address has acted (R224), and a DISABLE waits until every request already in a
slice has been applied (R227). -/
def State.maintReady (s : State) (v : Nat) : Bool :=
  s.cache.maintAt.isNone && !(bits v 3 0 == 0xA && s.path.held.any (fun r => r.inSlice))

/-- SCACHE_MAINT_DONE (R240): the running operation completes. -/
def execScacheMaintDone (s : State) : Res :=
  .next (match s.cache.maint with
    | some v =>
      if s.maintReady v then
        let (s1, st) := s.maintEffect v s.cache.maintStatus
        (s1.maintEnd st).settle
      else s
    | none => s)

/-- The cache in a strike (R237, R238): an operation in progress is aborted; persistent dirty lines are written to DRAM,
volatile ones are discarded; a disabled cache contributes nothing. -/
def State.cacheStrike (s : State) : State :=
  let s1 := if s.cache.maint.isSome then s.maintEnd St.ABORTED else s
  if s1.cacheOn then
    let s2 := s1.cleanWays (fun _ c => s1.linePersistent c.line)
    ({ s2 with cache := { s2.cache with lines := s2.cache.lines.filter (fun p => !p.2.dirty) } }).cacheCount
  else s1

end Sys2Proof.Machine
end

