-- ==== Sys2Proof/Machine/FwPort.lean ====
section
/-! DEFINITION. The command ports of the firmware flash (R622 to R628, R632 to R634, R637): reads, programs, erases and their
suspension, the protection bits and the password. -/

set_option Elab.async false

namespace Sys2Proof.Machine

/-! ### Ports and banks (R623, R624, R642) -/

/-- The bank of an array offset (R618). -/
def fwBankOf (a : Nat) : Nat := a / 0x1000000 % 4

/-- The operations on a bank. -/
def State.fwOps (s : State) (b : Nat) : List FwOp := mapGet [] s.core.ops b

/-- Every operation of a port. -/
def State.portOps (s : State) (p : Nat) : List FwOp :=
  ((upto 4).flatMap (fun b => s.fwOps b)).filter (fun o => o.port == p)

/-- The port's command runs: an operation that is not suspended, or a read that waits. -/
def State.portBusy (s : State) (p : Nat) : Bool :=
  (s.portOps p).any (fun o => !o.suspended) || s.core.reads.any (fun r => r.1 == p)

/-- The field of `FWF_BANK_STAT` for a bank: the operation that runs, else the one suspended. -/
def bankStat (os : List FwOp) : Nat :=
  match (os.find? (fun o => !o.suspended)).or os.head? with
  | some o => (if o.erase then 2 else 1) + (if o.suspended then 4 else 0) + o.port * 8
  | none => 0

/-- Refresh `FWF_BANK_STAT` and the busy and suspended bits of `FWF_RES`. -/
def State.fwRegs (s : State) : State :=
  let w := (upto 4).foldl (fun a b => a + bankStat (s.fwOps b) * 256 ^ b) 0
  (upto 5).foldl (fun st p => (st.setFlag F.FWF_RES_busy p (s.portBusy p)).setFlag F.FWF_RES_suspended p
    ((s.portOps p).any (fun o => o.suspended))) (s.setLive .FWF_BANK_STAT 0 w)

/-- Set the operations of a bank. -/
def State.setFwOps (s : State) (b : Nat) (os : List FwOp) : State :=
  { s with core := { s.core with ops := if os.isEmpty then mapDel s.core.ops b else mapSet s.core.ops b os } }

/-- A command of a port ends with a status. -/
def State.fwStatus (s : State) (p st : Nat) : State := s.setFld F.FWF_RES_status p st

/-- A command written to a port: one at a time, a port that is busy takes none (R623). -/
def State.fwCmd (s : State) (p : Nat) (body : State → State) : State :=
  if 5 ≤ p ∨ s.portBusy p = true then s else (body s).fwRegs

/-- The operand of a port. -/
def State.fwAddr (s : State) (p : Nat) : Nat := s.fld F.FWF_ADDR_offset p

/-! ### Reads (R622 to R624) -/

/-- The 256 bytes of the page come into `FWF_BUF`: `ecc` is 0 for a clean page, 1 for a corrected one, 2 for one that BCH
cannot correct. Sectors 2 and 3 have no ECC (R620). -/
def State.fwReadEnd (s : State) (p off ecc : Nat) : State :=
  let e := if fwSector off = 2 ∨ fwSector off = 3 then 0 else ecc
  if e = 2 then (s.fwStatus p St.POISONED).raiseD Ev.FWF_UNCORRECTABLE off
  else
    let bs := s.fwRead off 256
    let s1 := (upto 64).foldl (fun st w => st.setRw F.FWF_BUF_word (p * 64 + w) (leNat ((bs.drop (4 * w)).take 4))) s
    (if e = 1 then s1.addSat F.FWF_ECC_CNT_count 0 1 else s1).fwStatus p St.DONE

/-- Reads of a bank go on once nothing runs on it, or what runs is suspended. -/
def State.fwReadsGo (s : State) (b : Nat) : State :=
  if (s.fwRunning b).isSome then s
  else
    let (go, wait) := s.core.reads.partition (fun r => fwBankOf r.2.1 == b)
    go.foldl (fun st r => st.fwReadEnd r.1 r.2.1 r.2.2) { s with core := { s.core with reads := wait } }

/-- READ_PAGE (R622, R623, R624). -/
def execReadPage (port ecc : Nat) (s : State) : Res :=
  .next (s.fwCmd port (fun s =>
    let off := s.fwAddr port
    if off % 256 ≠ 0 then s.fwStatus port St.ILLEGAL
    else ({ s with core := { s.core with reads := s.core.reads ++ [(port, off, ecc)] } }).fwReadsGo (fwBankOf off)))

/-! ### Programs and erases (R624 to R628, R632, R637) -/

/-- A port may not write a sector: sectors 2 and 3 (R627), the swap sectors and the key store (R619), the boot slots outside
the update window (R637). -/
def State.fwBarred (s : State) (p i : Nat) : Bool :=
  let slotA := decide (158 ≤ i) && decide (i < 190)
  let slotB := decide (286 ≤ i) && decide (i < 318)
  let inactive := if s.flag F.CURT_BOOT_slot 0 then slotA else slotB
  i == 2 || i == 3 || ((decide (i < 2) || i == 32 || i == 33) && p != 4) ||
    ((slotA || slotB) && !(p == 4 && inactive && s.flag F.CURT_BOOT_update 0))

/-- A sector is protected (R632). -/
def State.fwProtected (s : State) (i : Nat) : Bool := bitB (s.fld F.FWF_PROT_prot (i / 32)) (i % 32)

/-- The bank of a core's last fetch from the array is recorded (R625): 0 to 3, or 4 for none. -/
def State.fwFetch (s : State) (core bank : Nat) : State :=
  if core < 4 then
    s.setLive .FWF_FETCH 0 (setBits (s.liveWord .FWF_FETCH 0).toNat (3 * core + 2) (3 * core) (min bank 4))
  else s

/-- The core of a port fetches from the bank (R625). -/
def State.fwSelf (s : State) (p b : Nat) : Bool :=
  decide (p < 4) && bits (s.liveWord .FWF_FETCH 0).toNat (3 * p + 2) (3 * p) == b

/-- The bank can take a program (or an erase): nothing runs, and beside a suspended operation only one program to another
sector (R624). -/
def State.fwRoom (s : State) (erase : Bool) (off : Nat) : Bool :=
  match s.fwOps (fwBankOf off) with
  | [] => true
  | [o] => o.suspended && !erase && fwSector o.off != fwSector off
  | _ => false

/-- Check a program or erase and start it with `body`. -/
def State.fwStart (s : State) (p off : Nat) (erase : Bool) (bad : Bool) (body : State → State) : State :=
  let i := fwSector off
  if bad then s.fwStatus p St.ILLEGAL
  else if s.fwBarred p i then s.fwStatus p St.CURTAIN_DENIED
  else if s.fwProtected i then (s.fwStatus p St.ACCESS_DENIED).raiseD Ev.FWF_PROT_DENIED i
  else if s.fwSelf p (fwBankOf off) then (s.fwStatus p St.BANK_SELF).raiseD Ev.FWF_BANK_SELF p
  else if !erase && s.core.pages.contains (off / 256) then s.fwStatus p St.ILLEGAL
  else if !s.fwRoom erase off then s.fwStatus p St.RETRY_LATER
  else if erase && s.fwIntentLeft i == 0 then (s.fwStatus p St.QUEUE_FULL).raiseD Ev.FWF_INTENT_FULL i
  else body s

/-- An operation begins on its bank: its suspend count starts at 0 (R626). -/
def State.fwBegin (s : State) (o : FwOp) : State :=
  let b := fwBankOf o.off
  let s1 := (s.setFwOps b (s.fwOps b ++ [o])).setFld F.FWF_SUSPEND_CNT_count b 0
  { s1 with core := { s1.core with manyRaised := s1.core.manyRaised.filter (fun x => x != b) } }

/-- The bytes of a port's buffer. -/
def State.fwBuf (s : State) (p : Nat) : List Byte := (upto 64).flatMap (fun w => leBytes 4 (s.fld F.FWF_BUF_word (p * 64 + w)))

/-- PROGRAM_PAGE (R620, R623, R624); `fetch` is the bank that the core has last fetched from, 4 for none (R625). -/
def execProgramPage (port fetch : Nat) (s : State) : Res :=
  .next (s.fwCmd port (fun s =>
    let off := s.fwAddr port
    (s.fwFetch port fetch).fwStart port off false (off % 256 != 0) (fun s =>
      s.fwBegin { port := port, erase := false, off := off, data := s.fwBuf port, suspended := false })))

/-- ERASE_SECTOR (R624, R628): the intent is recorded first. -/
def execEraseSector (port fetch : Nat) (s : State) : Res :=
  .next (s.fwCmd port (fun s =>
    let off := s.fwAddr port
    (s.fwFetch port fetch).fwStart port off true (fwBase (fwSector off) != off) (fun s =>
      (s.fwClearBit (fwSector off)).fwBegin { port := port, erase := true, off := off, data := [], suspended := false })))

/-- FWF_OPERATION_END (R624, R628): the operation that runs on a bank ends; an erase completes its intent word. -/
def State.fwEnd (s : State) (b : Nat) : State :=
  match s.fwRunning b with
  | none => s
  | some o =>
    let s1 := s.setFwOps b ((s.fwOps b).filter (fun x => x.suspended))
    let s2 := if o.erase then (s1.fwBlank (fwSector o.off)).fwClearBit (fwSector o.off)
      else
        let st := s1.fwProg o.off o.data
        { st with core := { st.core with pages := setIns st.core.pages (o.off / 256) } }
    ((s2.fwStatus o.port St.DONE).fwReadsGo b).fwRegs
def execFwfOperationEnd (bank : Nat) (s : State) : Res := .next (s.fwEnd (bank % 4))

/-- The operand of SUSPEND and RESUME: bits [25:24] give the bank (R642). -/
def State.fwBankArg (s : State) (p : Nat) : Nat := bits (s.fwAddr p) 25 24

/-- SUSPEND (R623, R626): the port's running operation on the bank; a port that has none gets ILLEGAL. -/
def execSuspend (port : Nat) (s : State) : Res :=
  let b := s.fwBankArg port
  .next (
    if 5 ≤ port then s
    else match s.fwRunning b with
    | some o =>
      if o.port = port then
        let os := (s.fwOps b).map (fun x => { x with suspended := true })
        ((((s.setFwOps b os).fwCountSuspend b).fwStatus port St.DONE).fwReadsGo b).fwRegs
      else s.fwStatus port St.ILLEGAL
    | none => s.fwStatus port St.ILLEGAL)

/-- RESUME (R623, R626): the port's suspended operation goes on, unless the bank runs another (R624). -/
def execResume (port : Nat) (s : State) : Res :=
  let b := s.fwBankArg port
  .next (
    if 5 ≤ port then s
    else match (s.fwOps b).find? (fun x => x.port == port && x.suspended) with
    | none => s.fwStatus port St.ILLEGAL
    | some o =>
      if (s.fwRunning b).isSome then s.fwStatus port St.RETRY_LATER
      else
        let os := (s.fwOps b).map (fun x => if x == o then { x with suspended := false } else x)
        ((s.setFwOps b os).fwStatus port St.DONE).fwRegs)

/-! ### Protection (R632) -/

/-- Change a protection bit: ILLEGAL for a misaligned operand and for sectors 2 and 3, ACCESS_DENIED while locked. -/
def State.fwProtSet (s : State) (p : Nat) (on : Bool) : State :=
  let off := s.fwAddr p
  let i := fwSector off
  if fwBase i ≠ off ∨ i = 2 ∨ i = 3 then s.fwStatus p St.ILLEGAL
  else if s.flag F.FWF_PWD_STAT_locked 0 then s.fwStatus p St.ACCESS_DENIED
  else
    let w := s.fld F.FWF_PROT_prot (i / 32)
    (s.setFld F.FWF_PROT_prot (i / 32) (setBits w (i % 32) (i % 32) (b2n on))).fwStatus p St.DONE

/-- PROT_SET. -/
def execProtSet (port : Nat) (s : State) : Res := .next (s.fwCmd port (fun s => s.fwProtSet port true))
/-- PROT_CLEAR. -/
def execProtClear (port : Nat) (s : State) : Res := .next (s.fwCmd port (fun s => s.fwProtSet port false))
/-- LOCK: the lock is set at once. -/
def execLock (port : Nat) (s : State) : Res :=
  .next (s.fwCmd port (fun s => (s.setFlag F.FWF_PWD_STAT_locked 0 true).fwStatus port St.DONE))
/-- PWD_SET (R633): the four words last written become the password. -/
def execPwdSet (port : Nat) (s : State) : Res :=
  .next (s.fwCmd port (fun s =>
    if s.flag F.FWF_PWD_STAT_locked 0 then s.fwStatus port St.ACCESS_DENIED
    else
      let p := (s.core.words.reverse).foldl (fun a w => a * 2 ^ 32 + w) 0
      ({ s with core := { s.core with password := p } }).fwStatus port St.DONE))

/-! ### The password (R633, R634) -/

/-- The delay after the nth failure in microseconds. -/
def pwdDelay (n : Nat) : Nat := if n = 0 then 0 else min (2 ^ (n - 1)) 64000 * 1000

/-- Attempts are refused now. -/
def State.pwdRefused (s : State) : Bool :=
  match s.core.failedAt with
  | some t => !s.due t (pwdDelay (s.fld F.FWF_PWD_STAT_fails 0))
  | none => false

/-- A complete sequence is one attempt. -/
def State.pwdAttempt (s : State) (port : Nat) : State :=
  let given := (s.core.words.reverse).foldl (fun a w => a * 2 ^ 32 + w) 0
  if s.pwdRefused then s.fwStatus port St.RETRY_LATER
  else if given = s.core.password then
    let s1 := (s.setFlag F.FWF_PWD_STAT_locked 0 false).setFld F.FWF_PWD_STAT_fails 0 0
    ({ s1 with core := { s1.core with failedAt := none } }).fwStatus port St.DONE
  else
    let n := satTo 8 (s.fld F.FWF_PWD_STAT_fails 0 + 1)
    let s1 := (s.setFld F.FWF_PWD_STAT_fails 0 n).raiseD Ev.FWF_PWD_FAIL n
    ({ s1 with core := { s1.core with failedAt := some s1.clock } }).fwStatus port St.ACCESS_DENIED

/-- Put the place in the sequence: 0 none, 1 and 2 after the keys, 3 to 6 after the words. -/
def State.pwdPlace (s : State) (k : Nat) : State := { s with core := { s.core with seqPlace := k } }

/-- A write that does not belong abandons the sequence with ILLEGAL; outside a sequence it does nothing. -/
def State.pwdAbandon (s : State) (port : Nat) : State :=
  if s.core.seqPlace = 0 then s else (s.pwdPlace 0).fwStatus port St.ILLEGAL

/-- FWF_PWD_KEY (R633, R634): a write by the core of `port`. -/
def execFwfPwdKey (port value : Nat) (s : State) : Res :=
  .next (
    if 5 ≤ port then s
    else if s.core.seqPlace = 0 ∧ value = 0xA5C3 then s.pwdPlace 1
    else if s.core.seqPlace = 1 ∧ value = 0x3C5A then s.pwdPlace 2
    else if s.core.seqPlace = 6 ∧ value = 0x0F0F then (s.pwdPlace 0).pwdAttempt port
    else s.pwdAbandon port)

/-- FWF_PWD_DATA (R633): the last four words written are kept. -/
def execFwfPwdData (port value : Nat) (s : State) : Res :=
  let ws := s.core.words ++ [value % 2 ^ 32]
  let s1 := { s with core := { s.core with words := ws.drop (ws.length - 4) } }
  .next (
    if 5 ≤ port then s
    else if 2 ≤ s1.core.seqPlace ∧ s1.core.seqPlace < 6 then s1.pwdPlace (s1.core.seqPlace + 1)
    else s1.pwdAbandon port)

end Sys2Proof.Machine
end

