-- ==== Sys2Proof/Machine/Flash.lean ====
section
/-! DEFINITION. Dies, blocks, groups and cartridges (chapters 8 and 9): free blocks, erase permits, opening and truncating
groups, retirement and failure, journal replicas, the width in force, and what belongs to rebuild and reshape. -/

set_option Elab.async false

namespace Sys2Proof.Machine

/-! ### Leaf addresses and dies (R295, R335) -/

/-- State of a die: 0 GOOD, 1 RETIRED, 2 ABSENT (R379). -/
def State.dieState (s : State) (slot i : Nat) : Nat := s.fld F.QUIRE_DIE_STAT_state (slot * 32 + i)
def State.slotState (s : State) (slot : Nat) : Nat := s.fld F.QUIRE_SLOT_STAT_state slot

/-- The blocks of a die. -/
def DieBlocks.init : DieBlocks := { fresh := 0, freed := [], retired := [], slow := [] }
def State.die (s : State) (slot i : Nat) : DieBlocks := mapGet DieBlocks.init s.flash.blocks (slot * 32 + i)
def State.setDie (s : State) (slot i : Nat) (d : DieBlocks) : State :=
  { s with flash := { s.flash with blocks := mapSet s.flash.blocks (slot * 32 + i) d } }

/-- Good multi-plane blocks of a die that the model counts with (R287). -/
def dieBlocks : Nat := 2544

/-- Free blocks of a die. -/
def State.dieFree (s : State) (slot i : Nat) : Nat :=
  if s.dieState slot i = 0 then (dieBlocks - (s.die slot i).fresh) + (s.die slot i).freed.length else 0

/-- Die indexes of a cartridge. -/
def State.dieIdxs (s : State) : List Nat := upto (2 * s.dies)

/-- Free blocks of a cartridge. -/
def State.slotFree (s : State) (slot : Nat) : Nat := s.dieIdxs.foldl (fun a i => a + s.dieFree slot i) 0

/-- Take a free block of a die, one that has been erased before one that has not been used. -/
def State.takeBlock (s : State) (slot i : Nat) : Option (Nat × State) :=
  let d := s.die slot i
  if s.dieState slot i != 0 then none
  else match d.freed with
    | b :: rest => some (s.addrOf slot i b, s.setDie slot i { d with freed := rest })
    | [] => if d.fresh < dieBlocks then some (s.addrOf slot i d.fresh, s.setDie slot i { d with fresh := d.fresh + 1 })
            else none

/-! ### Erase permits and erases (R331, R643) -/

def State.permitted (s : State) (a : Nat) : Bool :=
  s.flash.permits.any (fun p => decide (p.1 ≤ a / 2048) && decide (a / 2048 < p.2))
def State.setPermits (s : State) (lo n : Nat) : State :=
  { s with flash := { s.flash with permits := s.flash.permits ++ [(lo / 2048, lo / 2048 + n)] } }
def State.clearPermit (s : State) (a : Nat) : State :=
  let k := a / 2048
  { s with flash := { s.flash with permits := s.flash.permits.flatMap (fun p =>
      if p.1 ≤ k ∧ k < p.2 then
        (if p.1 < k then [(p.1, k)] else []) ++ (if k + 1 < p.2 then [(k + 1, p.2)] else [])
      else [p]) } }

/-- A die's operation has ended: its suspends are counted afresh (R316). -/
def State.suspEnd (s : State) (a : Nat) : State :=
  { s with flash := { s.flash with susp := mapDel s.flash.susp (adSlot a * 32 + s.dieIndex a) } }

/-- Start an erase (R331): refused without its permit, else its intent is journaled and it is in flight. -/
def State.eraseBlock (s : State) (a : Nat) : State :=
  if s.permitted a then
    let s1 := s.jAppend { type := 0x08, args := [a] }
    let s2 : State := { s1 with flash := { s1.flash with erases := s1.flash.erases ++ [{ block := a }] } }
    s2.opBegin (s2.dieKey a)
  else s.raiseD Ev.ERASE_DENIED a

/-- An erase that the same step carries to its end: a ring, reserve or redone block (R333, R334, R347). -/
def State.eraseNow (s : State) (a : Nat) : State :=
  (((s.setPermits a 1).jAppend { type := 0x08, args := [a] }).jAppend { type := 0x09, args := [a] }).clearPermit a

/-! ### Groups (R299 to R304) -/

def State.openGroups (s : State) : List Group := s.flash.groups.filter (fun g => g.state == 1 && !g.reserve)
def State.setGroup (s : State) (g : Group) : State :=
  { s with flash := { s.flash with groups := s.flash.groups.map (fun x => if x.num == g.num then g else x) } }

/-- The lowest group number that no entry holds (R775). -/
def State.freeGroup (s : State) : Nat :=
  ((upto (s.flash.groups.length + 1)).find? (fun n => !s.flash.groups.any (fun g => g.num == n))).getD 0

/-- Truncate an OPEN group (R307, R342, R347, R350, R352). -/
def State.truncate (s : State) (g : Group) : State := (s.setGroup { g with state := 3 }).raiseD Ev.GROUP_TRUNCATED g.num

/-- Truncate the OPEN groups that `sel` chooses. -/
def State.truncateIf (s : State) (sel : Group → Bool) : State :=
  (s.openGroups.filter sel).foldl (fun st g => st.truncate g) s

/-- Folios whose map entry points into a group (R319). -/
def State.current (s : State) (n : Nat) : List (Nat × Folio) :=
  s.ink.folios.filter (fun p => p.2.gen != 0 && p.2.quire / 1024 == n)

/-- The data capacity of the erased reserve in folios (R337). -/
def State.reserveData (s : State) : Nat :=
  (s.flash.groups.filter (fun g => g.reserve)).foldl (fun a g =>
    let n := (g.members.filter (fun m => s.inService (adSlot m) && s.dieState (adSlot m) (s.dieIndex m) == 0)).length
    a + 1024 * (if n = 16 then 14 else if 14 ≤ n then 13 else 0) * 3) 0

/-- The reserve meets the figure of R337. -/
def State.reserveOk (s : State) : Bool := decide (s.fld F.INK_CEIL_ceiling 0 + 16384 ≤ s.reserveData)

/-! ### Journal replicas (R327, R328, R365) -/

/-- Reserve and ring blocks of a die lie below its quire space: reserve group k and ring block k on die k mod D (R328,
R335), and the log block of an even slot on die 0 (R339). -/
def shareOf (n d i : Nat) : Nat := (n + d - 1 - i) / d
def State.ringAddr (s : State) (slot k : Nat) : Nat :=
  let d := 2 * s.dies
  let i := s.ringDieOf slot k
  s.addrOf slot i (shareOf 64 d (k % d) + k / d)

/-- The log block of an even slot (R339). -/
def State.logAddr (s : State) (slot : Nat) : Nat :=
  let d := 2 * s.dies
  s.addrOf slot 0 (shareOf 64 d 0 + shareOf 16 d 0)

/-- A leaf needs more replicas: fewer than three on IN_SERVICE slots, those being programmed included. -/
def State.lackReplicas (s : State) (l : JLeaf) : Nat :=
  3 - ((l.good ++ l.programming).filter s.inService).length

/-- Re-place every leaf that lacks replicas, on the next IN_SERVICE slots that hold none of it (R327, R365). -/
def State.jReplace (s : State) : State :=
  if s.flash.quiet then s
  else s.flash.journal.leaves.foldl (fun st l =>
    if l.good.isEmpty && l.programming.isEmpty then st.jIssue l
    else
      let free := (st.slotsAfter st.flash.journal.lastSlot).filter (fun k =>
        !l.good.contains k && !l.programming.contains k)
      st.jProgram l.index (free.take (st.lackReplicas l))) s

/-- Replicas are lost (R342, R365): those that `gone` names leave their leaves; the leaves are re-placed. -/
def State.jLose (s : State) (gone : Nat → Nat → Bool) : State :=
  let j := s.flash.journal
  let leaves := j.leaves.map (fun l =>
    let g (k : Nat) : Bool := !gone k (mapGet 0 l.places k)
    { l with good := l.good.filter g, programming := l.programming.filter g })
  let short := (List.zip j.leaves leaves).any (fun p => decide (p.2.good.length < p.1.good.length))
  let s1 := { s with flash := { s.flash with journal := { j with leaves := leaves,
                                                                 underThree := j.underThree || short } } }
  ((if short then s1.raise Ev.JOURNAL_UNDER_3 else s1).jReplace).journal3

/-- After a replica came: `journal_3`, and JOURNAL_REPLACED once every leaf has three again (R365). -/
def State.jSettled (s : State) : State :=
  let s1 := s.journal3
  let j := s1.flash.journal
  if j.underThree && s1.flag F.QUIRE_STAT_journal_3 0 then
    ({ s1 with flash := { s1.flash with journal := { j with underThree := false } } }).raise Ev.JOURNAL_REPLACED
  else s1

/-! ### Ahead of all others (R772) -/

/-- Abandon a quire: its folios return to DIRTY, ahead of all others, its relocations stay to be done (R305, R307). -/
def State.dropQuire (s : State) (q : QuireJob) : State :=
  let s0 := match s.groupOf (q.quire / 1024) with
    | some g => (upto (q.width + 2)).foldl (fun (st : State) p => if q.done.contains p then st else st.suspEnd (g.leafOf q.quire p)) s
    | none => s
  let s1 := { s0 with flash := { s0.flash with quires := s0.flash.quires.filter (fun x => x.quire != q.quire) } }
  q.slots.foldl (fun st fs =>
    match fs.kind with
    | .blot =>
      if st.flash.journal.ckptRuns && fs.key == 254 && decide (2 ^ 47 ≤ fs.folio) && (st.folio fs.folio).state != .blotting then
        (let j := st.flash.journal
         { st with flash := { st.flash with journal := { j with ckptQueue := j.ckptQueue ++ [fs.folio] } } })
      else
        let x := st.folio fs.folio
        let st1 := if x.state == .blotting then st.setFolio fs.folio { x with state := .dirty, dirtyAt := st.clock } else st
        st1.sendAhead fs.folio
    | .relocate _ _ _ => { st with flash := { st.flash with relocating := st.flash.relocating ++ [fs] } }
    | .pad => st) s1

/-- A leaf program of a quire fails or can no longer run (R307, R347): its group is truncated. -/
def State.abandonQuire (s : State) (q : QuireJob) (pos : Nat) : State :=
  let s1 := ((s.dropQuire q).jAppend { type := 0x04, args := [q.quire, pos] }).raiseD Ev.QUIRE_ABANDONED q.quire
  match s1.groupOf (q.quire / 1024) with
  | some g => if g.state = 1 then s1.truncate g else s1
  | none => s1

/-- Abandon the quires with a program in flight on a die that `sel` chooses. -/
def State.abandonOn (s : State) (sel : Nat → Bool) : State :=
  s.flash.quires.foldl (fun st q =>
    match st.groupOf (q.quire / 1024) with
    | some g =>
      (match (upto (q.width + 2)).find? (fun p => !q.done.contains p && sel (g.leafOf q.quire p)) with
       | some p => st.abandonQuire q p
       | none => st)
    | none => st) s

/-- Reads in flight on dies that `sel` chooses end as missing members (R347). -/
def State.readsMissing (s : State) (sel : Nat → Bool) : State :=
  { s with flash := { s.flash with reads := s.flash.reads.map (fun r =>
      match s.groupOf (r.quire / 1024) with
      | some g => if sel (g.leafOf r.quire r.leaf) then { r with missing := true } else r
      | none => r) } }

/-- Erases in flight on dies that `sel` chooses end. -/
def State.erasesEnd (s : State) (sel : Nat → Bool) : State :=
  let s1 := (s.flash.erases.filter (fun e => sel e.block)).foldl (fun (st : State) e => st.suspEnd e.block) s
  { s1 with flash := { s1.flash with erases := s1.flash.erases.filter (fun e => !sel e.block) } }

/-! ### The width in force, rebuild and reshape (R351 to R357, R367, R382) -/

/-- A rebuild or a reshape job stands in the scheduler. -/
def State.hasJob (s : State) (act : Nat) : Bool := s.maint.jobs.any (fun j => j.state != 2 && j.act == act)

/-- Start a controller job at once if nothing conflicts; its start event follows (R357, R369). -/
def State.startOwn (s : State) (act : Nat) (started : EvId) : State :=
  let s1 := s.ownJob act 0xFFFF 0 0
  match s1.maint.jobs.find? (fun j => j.act == act && j.state == 0) with
  | some j => if s1.mayStart j then (s1.markStarted j).raise started else s1
  | none => s1

/-- Submit the rebuild when a group first belongs to it (R357). -/
def State.rebuildCheck (s : State) : State :=
  if s.liveGroups.any s.ofRebuild && !s.hasJob 4 && decide (15 ≤ s.serviceSlots.length) && decide (8 ≤ s.pwr.step) &&
      !s.inStrike && !s.inLoadIn then
    s.startOwn 0x04 Ev.REBUILD_START
  else s

/-- Submit the reshape (R367). -/
def State.submitReshape (s : State) : State :=
  let s1 := { s with flash := { s.flash with reshapeAt := none } }
  if s1.liveGroups.any s1.ofReshape && !s1.hasJob 5 then s1.startOwn 0x05 Ev.RESHAPE_START else s1

/-- Withdraw DEGRADED when no condition needs it (R280, R382). -/
def State.withdrawDegraded (s : State) : State :=
  let clear := s.serviceSlots.length == 16 && (s.liveGroups.all (fun g => s.missing g == 0))
  let s1 := if clear then { s with flash := { s.flash with degraded := false } } else s
  if s1.flash.degraded || (upto 12).any s1.chanFrozen || !(s1.sceneOn 4) then s1 else s1.sceneChange 0 0x10

/-- Ask for DEGRADED (R350, R353). -/
def State.askDegraded (s : State) : State :=
  ({ s with flash := { s.flash with degraded := true } }).sceneChange 0x10 0

/-- Refresh the registers that show groups, members, blocks and jobs (R340, R379, R643). -/
def State.flashRegs (s : State) : State :=
  let live := s.liveGroups
  let slots := s.serviceSlots
  let free := slots.foldl (fun (a : Option Nat) k => match a with
    | some x => some (min x (s.slotFree k))
    | none => some (s.slotFree k)) none
  let s1 := ((s.setFld F.QUIRE_STAT_open 0 s.openGroups.length).setFld F.QUIRE_STAT_reserve 0
    (s.flash.groups.filter (fun g => g.reserve)).length).setFlag F.QUIRE_STAT_reserve_ready 0 s.reserveOk
  let s2 := ((s1.setFld F.QUIRE_FREE_free 0 (satTo 17 (free.getD 0))).setFld F.QUIRE_DEG1_groups 0
    (live.filter (fun g => s.missing g == 1)).length).setFld F.QUIRE_DEG2_groups 0
    (live.filter (fun g => decide (2 ≤ s.missing g))).length
  let s3 := (((s2.setFlag F.QUIRE_REBUILD_STAT_rebuild 0 (s.running 4).isSome).setFlag F.QUIRE_REBUILD_STAT_reshape 0
    (s.running 5).isSome).setFlag F.QUIRE_REBUILD_STAT_reshape_wait 0
    (s.flash.reshapeAt.isSome || s.maint.jobs.any (fun j => j.act == 5 && j.state == 0) ||
      ((s.running 5).isSome && (s.running 4).isSome)))
  let hold := (upto 16).foldl (fun m k =>
    if s.openGroups.any (fun g => g.members.any (fun a => adSlot a == k)) ||
        s.flash.journal.leaves.any (fun l => l.good.contains k && decide (s.lackReplicas l ≠ 0)) then m + 2 ^ k else m) 0
  s3.setLive .CURT_SLOT 0 hold

/-- The count of IN_SERVICE slots changed: width, halt, reshape, rebuild (R352, R353, R367). -/
def State.widthUpdate (s : State) : State :=
  let n := s.serviceSlots.length
  let old := s.width
  let was := s.flag F.QUIRE_REBUILD_STAT_halted 0
  let s1 := s.setFlag F.QUIRE_REBUILD_STAT_halted 0 (decide (n < 15))
  let s2 := if n < 15 && !was then (s1.raise Ev.WRITES_HALTED).askDegraded else s1
  let new := if n = 16 then 14 else if n = 15 then 13 else old
  let s3 := if new = old then s2
    else
      let s4 := (s2.truncateIf (fun _ => true)).setFld F.QUIRE_STAT_width 0 new
      if new < old then { s4 with flash := { s4.flash with reshapeAt := some s.clock } } else s4.submitReshape
  (s3.rebuildCheck.withdrawDegraded).flashRegs

/-! ### Slots and cartridges (R349, R350, R378) -/

/-- The LED pattern of a state (R378): 0 off, 2 fault, 3 steady, 4 preparing. -/
def ledOf (state : Nat) : Nat :=
  if state = 4 then 4 else if state = 6 ∨ state = 2 then 2 else if state = 5 then 3 else 0

/-- Drive a slot's LED: its state's pattern, or the locate pattern while that is off. -/
def State.slotLed (s : State) (slot : Nat) : State :=
  let loc := match mapGet? s.flash.carts slot with
    | some c => decide (s.clock < c.locateUntil)
    | none => false
  let p := ledOf (s.slotState slot)
  let led := if p = 0 ∧ loc = true then 1 else p
  if led = s.fld F.QUIRE_SLOT_STAT_led slot then s
  else (s.setFld F.QUIRE_SLOT_STAT_led slot led).send (.pin 2 slot led)

/-- A slot enters a state. -/
def State.setSlot (s : State) (slot st : Nat) : State := (s.setFld F.QUIRE_SLOT_STAT_state slot st).slotLed slot

/-- A cartridge as it is before it is identified. -/
def Cart.init : Cart :=
  { dies := 0, cls := 0, serial := 0, mask := 0, locateUntil := 0, pwrSince := none, go := false, good := false }
def State.cart (s : State) (slot : Nat) : Cart := mapGet Cart.init s.flash.carts slot
def State.setCart (s : State) (slot : Nat) (c : Cart) : State :=
  { s with flash := { s.flash with carts := mapSet s.flash.carts slot c } }

/-- Drive SLOT_PWR_EN (R39, R603): an edge of it is remembered with its time. -/
def State.slotPwr (s : State) (slot : Nat) (on : Bool) : State :=
  let s1 := (s.setFlag F.QUIRE_SLOT_STAT_pwr_en slot on).setCart slot { s.cart slot with pwrSince := some s.clock }
  ({ s1 with sen := { s1.sen with slotPower := some s.clock } }).send (.pin 1 slot (b2n on))

/-- Every die of a slot is ABSENT (R379). -/
def State.diesAbsent (s : State) (slot : Nat) : State :=
  (upto 32).foldl (fun st i => st.setLive .QUIRE_DIE_STAT (slot * 32 + i) (2 * 2 ^ 30)) s

/-- End the removal or admission job of a slot (R730). -/
def State.endSlotJobs (s : State) (slot status : Nat) : State :=
  (s.maint.jobs.filter (fun j => j.state != 2 && (j.act == 6 || j.act == 7) && j.target == slot)).foldl
    (fun st j => st.endJob j.id status) s

/-- Declare a cartridge FAILED (R350). -/
def State.cartFail (s : State) (slot : Nat) : State :=
  let on (a : Nat) : Bool := adSlot a == slot
  let s1 := ((s.slotPwr slot false).setSlot slot 6).setFlag F.QUIRE_SLOT_STAT_pgood slot false
  let s2 := ((s1.readsMissing on).abandonOn on).erasesEnd on
  let s3 := (s2.diesAbsent slot).truncateIf (fun _ => true)
  let s4 := ((s3.raiseD Ev.CART_FAILED slot).askDegraded).jLose (fun k _ => k == slot)
  (s4.endSlotJobs slot St.ABORTED).widthUpdate

/-- A block of a slot from the lowest die that has one, die `i` apart. -/
def State.takeBlockBut (s : State) (slot i : Nat) : Option (Nat × State) :=
  s.dieIdxs.findSome? (fun j => if j == i then none else s.takeBlock slot j)

/-- Replace the members of reserve groups that lie on a die, by blocks of other GOOD dies of the cartridge (R347). -/
def State.reserveReplace (s : State) (slot i : Nat) : State :=
  (s.flash.groups.filter (fun g => g.reserve)).foldl (fun st g =>
    match g.members.find? (fun a => adSlot a == slot && st.dieIndex a == i) with
    | none => st
    | some a =>
      (match st.takeBlockBut slot i with
       | some (b, st1) =>
         (st1.eraseNow b).setGroup { g with members := g.members.map (fun x => if x == a then b else x) }
       | none => st)) s

/-- Retire a die (R347); causes as in `QUIRE_DIE_STAT`. Four retired dies fail the cartridge (R349). -/
def State.retireDie (s : State) (slot i cause : Nat) : State :=
  if s.dieState slot i != 0 then s
  else
    let on (a : Nat) : Bool := adSlot a == slot && s.dieIndex a == i
    let s1 := ((s.readsMissing on).abandonOn on).erasesEnd on
    let s2 := s1.truncateIf (fun g => g.members.any on)
    let s3 := ((s2.setFld F.QUIRE_DIE_STAT_state (slot * 32 + i) 1).setFld F.QUIRE_DIE_STAT_cause (slot * 32 + i) cause)
    let ring := (upto 16).filter (fun k => s.ringDieOf slot k == i)
    let s4 := s3.jLose (fun k pos => k == slot && ring.contains (pos / 1024 % 16))
    let s5 := ring.foldl (fun (st : State) k =>
      match s.dieIdxs.find? (fun j => j != i && st.dieState slot j == 0) with
      | some j => { st with flash := { st.flash with ringDie := mapSet st.flash.ringDie (slot * 16 + k) j } }
      | none => st) (s4.reserveReplace slot i)
    let c := s5.cart slot
    let mask := c.mask ||| 2 ^ i
    let n := s5.fld F.QUIRE_SLOT_STAT_retired slot + 1
    let s6 := ((s5.setCart slot { c with mask := mask }).send (.eeprom slot mask)).setFld F.QUIRE_SLOT_STAT_retired slot n
    let s7 := s6.raiseD Ev.DIE_RETIRED (slot * 32 + i)
    if 4 ≤ n then s7.cartFail slot else s7.rebuildCheck.flashRegs

/-- Retire a block (R332, R346): 1 a program failed, 2 an erase failed. -/
def State.retireBlock (s : State) (a cause : Nat) : State :=
  let slot := adSlot a
  let i := s.dieIndex a
  let k := slot * 32 + i
  let d := s.die slot i
  let s1 := (s.setDie slot i { d with retired := setIns d.retired (adBlock a) }).clearPermit a
  let s2 := (s1.jAppend { type := 0x0A, args := [a / 2048 * 2048, cause] }).raiseD
    (if cause = 1 then Ev.PROGRAM_FAIL else Ev.ERASE_FAIL) a
  let s3 := (s2.addSat F.FLASH_FAIL_CNT_pe_fail (2 * slot + bits a 27 27) 1).addSat F.QUIRE_DIE_STAT_blocks k 1
  if s3.fld F.QUIRE_RETIRE_CFG_block_limit 0 ≤ s3.fld F.QUIRE_DIE_STAT_blocks k then s3.retireDie slot i 2 else s3

/-- Count a slow event of a die (R345). -/
def State.slowEvent (s : State) (a : Nat) : State :=
  let slot := adSlot a
  let i := s.dieIndex a
  let d := s.die slot i
  let w := s.fld F.QUIRE_RETIRE_CFG_slow_window 0 * 1000000
  let times := (d.slow.filter (fun t => decide (s.clock < t + w))) ++ [s.clock]
  let s1 := (s.setDie slot i { d with slow := times }).setFld F.QUIRE_DIE_STAT_slow (slot * 32 + i)
    (satTo 8 times.length)
  if s.fld F.QUIRE_RETIRE_CFG_slow_count 0 ≤ times.length then s1.retireDie slot i 1 else s1

/-! ### Opening a group (R304, R334, R775) -/

/-- The block that a new group takes on a slot: the next GOOD die with a free block after the last one used, keeping OPEN
groups on separate dies where the population allows it. -/
def State.memberFor (s : State) (slot : Nat) : Option (Nat × State) :=
  let d := 2 * s.dies
  let last := mapGet (d - 1) s.flash.lastDie slot
  let order := (upto d).map (fun k => (last + 1 + k) % d)
  let usable := order.filter (fun i => decide (0 < s.dieFree slot i))
  let apart := usable.filter (fun i =>
    !(s.openGroups.any (fun g => g.members.any (fun a => adSlot a == slot && s.dieIndex a == i))))
  match apart ++ usable with
  | i :: _ =>
    (match s.takeBlock slot i with
     | some (a, s1) => some (a, { s1 with flash := { s1.flash with lastDie := mapSet s1.flash.lastDie slot i } })
     | none => none)
  | [] => none

/-- Take one block on each of some slots. -/
def State.membersFor (s : State) : List Nat → Option (List Nat × State)
  | [] => some ([], s)
  | k :: rest =>
    match s.memberFor k with
    | some (a, s1) => (match s1.membersFor rest with
      | some (as_, s2) => some (a :: as_, s2)
      | none => none)
    | none => none

/-- Open a group (R352, R368, R775); `redo` names slots whose block is found unerased on reading it (R334). -/
def State.openGroup (s : State) (redo : List Nat) : Option (Group × State) :=
  let slots := s.serviceSlots
  if slots.length < 15 then none
  else match s.membersFor slots with
    | none => none
    | some (as_, s1) =>
      let layout := s.fld F.QUIRE_LAYOUT_layout 0 + (if (s.running 5).isSome then 1 else 0)
      let seq := s.fld F.QUIRE_SEQ_LO_seq_lo 0 + s.fld F.QUIRE_SEQ_HI_seq_hi 0 * 2 ^ 32
      let g : Group := { num := s.freeGroup, state := 1, width := s.width, layout := layout, members := as_,
                         serials := as_.map (fun a => (s.cart (adSlot a)).serial), next := 0, first := seq + 1,
                         reserve := false, lostQuires := [] }
      let s2 := (as_.filter (fun a => redo.contains (adSlot a))).foldl (fun st a =>
        (st.eraseNow a).raiseD Ev.ERASE_REDO a) s1
      let s3 := { s2 with flash := { s2.flash with groups := s2.flash.groups ++ [g] } }
      some (g, s3.jAppend { type := 0x01, args := g.num :: g.width :: g.layout :: as_ })

/-- Release a group that holds no current folio (R324, R359): its blocks, those of missing members apart, are erased. -/
def State.releaseGroup (s : State) (g : Group) : State :=
  let s2 := (s.setGroup { g with state := 4 }).jAppend { type := 0x07, args := [g.num] }
  let here := ((List.zip (upto g.members.length) g.members).filter (fun p => !s.memberMissing g p.1)).map (fun p => p.2)
  here.foldl (fun st a => (st.setPermits a 1).eraseBlock a) s2

/-- A quire is being written into the group. -/
def State.writing (s : State) (g : Group) : Bool := s.flash.quires.any (fun q => q.quire / 1024 == g.num)

/-- Release every closed group that holds no current folio (R324), unless no erase is issued now (R773). -/
def State.releaseEmpty (s : State) : State :=
  if s.flash.quiet then s
  else (s.flash.groups.filter (fun g => !g.reserve && (g.state == 2 || g.state == 3) && (s.current g.num).isEmpty &&
    !s.writing g)).foldl (fun st g => st.releaseGroup g) s

/-- End the rebuild when no group belongs to it, and the reshape when none of the old layout is left (R359, R369). -/
def State.moveEnds (s : State) : State :=
  let s1 := match s.running 4 with
    | some j => if s.liveGroups.any s.ofRebuild then s else (s.endJob j.id St.DONE).raise Ev.REBUILD_DONE
    | none => s
  let s2 := match s1.running 5 with
    | some j =>
      if s1.liveGroups.any s1.ofReshape then s1
      else ((s1.endJob j.id St.DONE).setFld F.QUIRE_LAYOUT_layout 0 (s1.fld F.QUIRE_LAYOUT_layout 0 + 1)).raise Ev.RESHAPE_DONE
    | none => s1
  s2.withdrawDegraded.flashRegs

end Sys2Proof.Machine
end

