-- ==== Sys2Proof/Machine/Quires.lean ====
section
/-! DEFINITION. Blotting, quires, journal leaves, checkpoints, reclaim, rebuild and reshape (R186 to R206, R305 to R308,
R319 to R333, R357 to R369). -/

set_option Elab.async false

namespace Sys2Proof.Machine

/-! ### Internal folios (R183, R184, R329, R571, R684, R776) -/

/-- A map page: the entries of the granule's 4,096 folios; one that is not listed is ABSENT of generation 0, all zeros, unless
the granule is RESIDENT. -/
def State.mapPageCells (s : State) (g : Nat) : List Host.Cell :=
  if s.isStaged (g * 4096) then
    (s.ink.folios.filter (fun p => p.1 / 4096 == g)).foldl (fun m p => memWriteN 0 m (p.1 % 4096 * 16) p.2.bytes) []
  else (upto 4096).foldl (fun m k => memWriteN 0 m (k * 16) (s.folio (g * 4096 + k)).bytes) []

/-- A folio of the granule table: an entry is the frame of the granule's map page plus one, zero without one (the form of the
pointer is open: DESIGN CHOICE, log entry 91). -/
def State.granuleCells (s : State) (k : Nat) : List Host.Cell :=
  (s.dram.mapPages.filter (fun p => p.1 / 8192 == k)).foldl (fun m p =>
    memWriteN 0 m (p.1 % 8192 * 8) (leBytes 8 (match p.2 with
      | fr :: _ => fr + 1
      | [] => 0))) []

/-- A folio of the group table (R776). -/
def State.groupCells (s : State) (k : Nat) : List Host.Cell :=
  (s.flash.groups.filter (fun g => g.num / 512 == k && !g.reserve)).foldl (fun m g => memWriteN 0 m (g.num % 512 * 128) g.bytes) []

/-- The contents of an internal folio, by its tag DPA: a map page, a folio of the granule table or of the group table, the poison
table, a third of a journal leaf of the twin. -/
def State.internalCells (s : State) (f : Nat) : List Host.Cell :=
  let k := f % 2 ^ 44
  match f / 2 ^ 44 with
  | 0x8 => s.mapPageCells k
  | 0x9 => s.groupCells k
  | 0xC => s.granuleCells k
  | 0xE => cellsOf ((s.integ.poison.filter (fun p => s.linePersistent p.1)).flatMap (fun p => poisonBytes p.1 p.2))
  | 0xA => (match s.flash.twinCopies.find? (fun c => c.1 == k / 3) with
    | some (i, first, recs) => cellsOf (((leafBytes i first recs).drop (k % 3 * 65536)).take 65536)
    | none => [])
  | _ => []

/-- The blotter reads a folio: it is BLOTTING, and its slot carries the next generation that no blot in flight carries, or the
last one once that is reached (R186, R305). -/
def State.blotSlot (s : State) (f : Nat) : FolioSlot × State :=
  let (cells, s1) := if f < 2 ^ 47 then (s.allocFolio 7 f).folioCells f else (s.internalCells f, s)
  let x := s1.folio f
  ({ folio := f, kind := .blot, gen := min (2 ^ 32 - 1) (x.gen + 1 + s.blotsInFlight f), key := s.keyOf f, cells := cells },
    s1.setFolio f { x with state := .blotting, ahead := none })

/-- Blot several folios. -/
def State.blotSlots (s : State) : List Nat → List FolioSlot × State
  | [] => ([], s)
  | f :: t =>
    let (a, s1) := s.blotSlot f
    let (as_, s2) := s1.blotSlots t
    (a :: as_, s2)

/-- A page of the checkpoint under way: an internal folio whose generation is the checkpoint's number (R329). -/
def State.ckptSlot (s : State) (f : Nat) : FolioSlot :=
  { folio := f, kind := .blot, gen := s.flash.journal.ckptNumber, key := 254, cells := s.internalCells f }

/-- The group that takes the next quire: the first OPEN one with a word line left and no quire being written, else a new
one while `open_groups` allows, else any OPEN one (R304, R305). -/
def State.quireGroup (s : State) (redo : List Nat) : Option (Group × State) :=
  let room := s.openGroups.filter (fun g => decide (g.next < 1024))
  match room.find? (fun g => !s.writing g) with
  | some g => some (g, s)
  | none =>
    if s.openGroups.length < min 32 (s.fld F.QUIRE_CFG_open_groups 0) then
      (match s.openGroup redo with
       | some r => some r
       | none => room.head?.map (fun g => (g, s)))
    else room.head?.map (fun g => (g, s))

/-- Blotting and moving are open: 15 slots serve, no strike runs, and no load-in but one whose reserve is short (R337, R353). -/
def State.mayWrite (s : State) : Bool :=
  decide (15 ≤ s.serviceSlots.length) && !s.inStrike && (!s.inLoadIn || s.sen.reserveRaised)

/-- The entries of the internal pool and the credits of the dies that a quire takes are to be had (R11, R140, R143, R305). -/
def State.quireRoom (s : State) (g : Group) (blots moves : Nat) : Bool :=
  internalPool.room s.innerUsed 7 blots && internalPool.room s.innerUsed 8 moves &&
    (upto (g.width + 2)).all (fun p => s.dieRoom (s.dieKey (g.leafOf (g.num * 1024 + g.next) p)) 7)

/-- QUIRE_OPEN (R203, R305, R308): when the due folios, with those that reclaim, rebuild and reshape relocate, fill a quire
it is opened and its leaf programs are issued together. -/
def State.quireOpen (s : State) (redo : List Nat) : State :=
  if !s.mayWrite then s
  else match s.quireGroup redo with
    | none => s
    | some (g, s1) =>
      let n := g.width * 3
      let pages := s1.flash.journal.ckptQueue.take n
      let due := s1.dueFolios.take (n - pages.length)
      let moves := (s1.flash.relocating.filter (fun fs => s1.keyLoaded fs.key)).take (n - pages.length - due.length)
      if pages.length + due.length + moves.length < n || !s1.quireRoom g (pages.length + due.length) moves.length then s
      else
        let ck := pages.map s1.ckptSlot
        let j := s1.flash.journal
        let s2 := { s1 with flash := { s1.flash with journal := { j with ckptQueue := j.ckptQueue.drop pages.length },
                                                     relocating := s1.flash.relocating.filter (fun fs => !moves.contains fs) } }
        let (bs, s3) := s2.blotSlots due
        let seq := s3.fld F.QUIRE_SEQ_LO_seq_lo 0 + s3.fld F.QUIRE_SEQ_HI_seq_hi 0 * 2 ^ 32 + 1
        let quire := g.num * 1024 + g.next
        let s4 := ((s3.setFld F.QUIRE_SEQ_LO_seq_lo 0 (seq % 2 ^ 32)).setFld F.QUIRE_SEQ_HI_seq_hi 0 (seq / 2 ^ 32)).jAppend
          { type := 0x02, args := [quire, seq] }
        let s5 := s4.setGroup { g with next := g.next + 1 }
        let q : QuireJob := { quire := quire, seq := seq, width := g.width, slots := ck ++ bs ++ moves, done := [],
                              strike := false }
        let s6 := { s5 with flash := { s5.flash with quires := s5.flash.quires ++ [q] } }
        ((upto (q.width + 2)).foldl (fun st p => st.opBegin (st.dieKey (g.leafOf quire p))) s6).flashRegs

/-- QUIRE_OPEN; `redo` names slots whose block is found unerased when a group is opened (R334); `halt`: the blotter's DMA
channel meets an uncorrectable error, and the quire is abandoned with no block retired (R682). -/
def execQuireOpen (redo : List Nat) (halt : Bool) (s : State) : Res :=
  let s1 := s.quireOpen redo
  let s2 := match s1.flash.quires.getLast? with
    | some q =>
      if halt && decide (s.flash.quires.length < s1.flash.quires.length) then
        ((s1.raiseD Ev.DMA_CHANNEL_HALT 1).abandonQuire q 0).flashRegs
      else s1
    | none => s1
  .next s2.settle

/-! ### The leaves of a quire (R293, R294, R296, R298, R306, R310) -/

/-- The slot moves a folio out of a group of another width, as the reshape does. -/
def State.reshapes (s : State) (g : Group) (fs : FolioSlot) : Bool :=
  match fs.kind with
  | .relocate oq _ _ => (s.running 5).isSome && (s.groupOf (oq / 1024)).any (fun o => o.width != g.width)
  | _ => false

/-- The header of position `pos` of a quire (R296). -/
def State.quireHeader (s : State) (q : QuireJob) (g : Group) (pos : Nat) : LeafHeader :=
  { kind := if pos < q.width then 0 else if pos = q.width then 1 else 2, position := pos, width := q.width,
    flags := b2n (q.slots.any (fun fs => fs.kind == .pad)) + 2 * b2n q.strike + 4 * b2n (q.slots.any (s.reshapes g)),
    quire := q.quire, layout := g.layout, seq := q.seq, address := g.leafOf q.quire pos }

/-- Positions of a quire have been programmed: their headers stand in flash. -/
def State.putHeaders (s : State) (q : QuireJob) (ps : List Nat) : State :=
  match s.groupOf (q.quire / 1024) with
  | some g =>
    let hs := ps.foldl (fun m p => mapSet m (q.quire * 16 + p) (s.quireHeader q g p)) s.flash.headers
    { s with flash := { s.flash with headers := hs } }
  | none => s

/-- The headers of a journal leaf and of a prompt-book log leaf at an address (R296). -/
def journalHeader (index address : Nat) (strike : Bool) : LeafHeader :=
  { kind := 3, position := 0, width := 0, flags := 2 * b2n strike, quire := 0, layout := 0, seq := index, address := address }
def logHeader (address : Nat) : LeafHeader :=
  { kind := 4, position := 0, width := 0, flags := 0, quire := 0, layout := 0, seq := 0, address := address }

/-- The ciphertext of folio slot `k` of data position `p` (R298, R657), and its tag (R297); a slot without a folio is zeros. -/
def State.slotCipher (s : State) (quire p k : Nat) : List Byte :=
  match mapGet? s.flash.store ((quire * 16 + p) * 4 + k) with
  | some ff => xtsFolio (Config.slotKey ff.key (s.keyId ff.key)) (tagDpa ff.folio false) ff.gen (folioBytes ff.cells)
  | none => leBytes 65536 0
def State.slotTag (s : State) (quire p k : Nat) : List Byte :=
  match mapGet? s.flash.store ((quire * 16 + p) * 4 + k) with
  | some ff => folioTag (tagDpa ff.folio false) ff.gen ff.key (folioBytes ff.cells)
  | none => folioTag (tagDpa 0 true) 0 0 (leBytes 65536 0)

/-- The data bytes and the metadata bytes 64 to 159 of page `j` of data position `p`: pages 4k to 4k + 3 carry slot k (R293,
R294). -/
def State.dataPage (s : State) (quire p j : Nat) : List Byte × List Byte :=
  (((s.slotCipher quire p (j / 4)).drop (j % 4 * 16384)).take 16384, s.slotTag quire p (j / 4) ++ leBytes 64 0)

/-- The protected content of page `j` of a position: of a data leaf, or P or Q over those of the data leaves (R310). -/
def State.pageContent (s : State) (quire width p j : Nat) : List Byte :=
  let data (i : Nat) : List Byte := (s.dataPage quire i j).1 ++ (s.dataPage quire i j).2
  if p < width then data p else parityBytes (p != width) ((upto width).map data) 16480

/-- Page `j` of a programmed position as it stands on the medium: its four code words (R292, R294). -/
def State.nandPage (s : State) (quire p j : Nat) : List LdpcWord :=
  match mapGet? s.flash.headers (quire * 16 + p) with
  | some h =>
    let c := s.pageContent quire h.width p j
    pageWords (c.take 16384) (h.bytes ++ c.drop 16384)
  | none => []

/-! ### A quire is held (R305, R323, R363, R384) -/

/-- One slot of a held quire: its record, its map entry, its state. -/
def State.holdSlot (s : State) (quire i : Nat) (fs : FolioSlot) : State :=
  let leaf := i / 3
  let slot := i % 3
  let key := (quire * 16 + leaf) * 4 + slot
  let ff : FlashFolio := { folio := fs.folio, gen := fs.gen, key := fs.key, cells := fs.cells }
  let s0 := { s with flash := { s.flash with store := mapSet s.flash.store key ff } }
  let dirtyPage (st : State) : State :=
    if fs.folio < 2 ^ 47 then
      { st with flash := { st.flash with journal := { st.flash.journal with
          mapDirty := setIns st.flash.journal.mapDirty (fs.folio / 4096) } } }
    else st
  match fs.kind with
  | .pad => s0
  | .blot =>
    let s1 := dirtyPage (s0.jAppend { type := 0x05, args := [fs.folio, quire, leaf, slot, fs.gen] })
    let x := s1.folio fs.folio
    let s2 := s1.setFolio fs.folio { x with quire := quire, leaf := leaf, slot := slot, gen := max x.gen fs.gen,
                                            heldAt := some s.clock }
    let s3 := if x.state == .blotting then s2.folioClean fs.folio else s2
    let s4 := if x.lost then (s3.markLost fs.folio false).raiseD Ev.FOLIO_REPAIRED (fs.folio * 65536) else s3
    if fs.gen = 2 ^ 32 - 1 ∧ x.gen < 2 ^ 32 - 1 then s4.raiseD Ev.GENERATION_EXHAUSTED (fs.folio * 65536) else s4
  | .relocate oq ol os =>
    let s1 := dirtyPage (s0.jAppend { type := 0x06, args := [fs.folio, quire, leaf, slot, fs.gen, oq, ol, os] })
    let x := s1.folio fs.folio
    if x.quire = oq ∧ x.leaf = ol ∧ x.slot = os ∧ x.gen ≠ 0 then
      s1.setFolio fs.folio { x with quire := quire, leaf := leaf, slot := slot }
    else s1

/-- The slots of a held quire, in slot order. -/
def State.holdSlots (s : State) (quire : Nat) : Nat → List FolioSlot → State
  | _, [] => s
  | i, fs :: t => (s.holdSlot quire i fs).holdSlots quire (i + 1) t

/-- A checkpoint whose pages are all held appends its locations and its CHECKPOINT record (R325, R329). -/
def State.ckptAppend (s : State) : State :=
  let j := s.flash.journal
  let inFlight := s.flash.quires.any (fun q => q.slots.any (fun fs =>
    fs.gen == j.ckptNumber && fs.key == 254 && decide (2 ^ 47 ≤ fs.folio) && (s.folio fs.folio).state != .blotting))
  if j.ckptRuns && j.ckptQueue.isEmpty && !inFlight && j.ckptLeaf.isNone && !(j.openRecs.any (fun r => r.type == 0x0B)) then
    let loc (f : Nat) : Nat :=
      let x := s.folio f
      x.quire * 2 ^ 32 + x.leaf * 2 ^ 28 + x.slot * 2 ^ 26
    let top := s.flash.groups.foldl (fun a g => max a g.num) 0
    let pages := (upto (top / 512 + 1)).map (fun k => loc (internalFolio 0x9000000000000000 k))
    let s1 := s.jAppend { type := 0x10, args := j.ckptNumber :: 0 :: pages.take 240 }
    let s2 := if 240 < pages.length then
        s1.jAppend { type := 0x10, args := j.ckptNumber :: 240 :: pages.drop 240 } else s1
    s2.jAppend { type := 0x0B, args := j.ckptNumber :: (upto 128).map (fun k => loc (internalFolio 0xC000000000000000 k)) }
  else s

/-- Every program of a quire has succeeded (R305). -/
def State.quireHeld (s : State) (q : QuireJob) : State :=
  let s0 := s.putHeaders q (upto (q.width + 2))
  let n := (q.slots.filter (fun fs => fs.kind == .blot && decide (fs.folio < 2 ^ 47))).length
  let s1 := { s0 with flash := { s0.flash with quires := s0.flash.quires.filter (fun x => x.quire != q.quire) },
                      ink := { s0.ink with blotted := s0.ink.blotted ++ [(s0.clock, n)] } }
  let s2 := (s1.jAppend { type := 0x03, args := [q.quire] }).holdSlots q.quire 0 q.slots
  let s3 := match s2.groupOf (q.quire / 1024) with
    | some g => if g.state = 1 ∧ 1024 ≤ g.next ∧ s2.writing g = false then s2.setGroup { g with state := 2 } else s2
    | none => s2
  (s3.ckptAppend.releaseEmpty).moveEnds

/-! ### A checkpoint is complete (R328, R329, R571) -/

/-- Erase the ring blocks of a slot that lie wholly before the replicas still needed (R328). -/
def State.ringErase (s : State) (slot : Nat) : State :=
  if s.flash.quiet then s else
  let next := mapGet 0 s.flash.ringNext slot
  let low := s.flash.journal.leaves.foldl (fun a l => match mapGet? l.places slot with
    | some p => min a p
    | none => a) next
  let from_ := mapGet 0 s.flash.ringErased slot
  let s1 := (upto (low / 1024 - from_)).foldl (fun st k =>
    let a := st.ringAddr slot ((from_ + k) % 16)
    (st.setPermits a 1).eraseBlock a) s
  { s1 with flash := { s1.flash with ringErased := mapSet s1.flash.ringErased slot (max from_ (low / 1024)) } }

/-- The CHECKPOINT record is on three cartridges (R329). -/
def State.ckptComplete (s : State) : State :=
  let j := s.flash.journal
  let leaves := j.leaves.filter (fun l => decide (j.ckptFirstLeaf ≤ l.index))
  let s1 := { s with flash := { s.flash with journal := { j with
    ckptRuns := false, ckptLeaf := none, ckptDone := j.ckptNext, leaves := leaves,
    bytesSince := leaves.length * 196608 } } }
  let s2 := (s1.setLive .QUIRE_CKPT_CNT 0 j.ckptNumber).raiseD Ev.CHECKPOINT_DONE j.ckptNumber
  ((s2.serviceSlots.foldl (fun st k => st.ringErase k) s2).twinSendUp 0x25 (.checkpointNote j.ckptNumber
    j.ckptFirstLeaf)).jRecount

/-- A program of a journal leaf has succeeded on a slot (R189, R327, R329, R365). -/
def State.journalGood (s : State) (index slot : Nat) : State :=
  let j := s.flash.journal
  let leaves := j.leaves.map (fun l =>
    if l.index == index && l.programming.contains slot then
      let good := setIns l.good slot
      let prog := l.programming.filter (fun k => k != slot)
      let safe := decide (3 ≤ good.length)
      { l with good := good, programming := prog, ink := l.ink && !safe, inDram := l.inDram && !safe }
    else l)
  let s1 := ({ s with flash := { s.flash with journal := { j with leaves := leaves } } }).jRecount
  let s2 := s1.jSettled
  let done := match s2.flash.journal.ckptLeaf with
    | some i => s2.flash.journal.leaves.any (fun l => l.index == i && decide (3 ≤ l.good.length))
    | none => false
  if done then s2.ckptComplete else s2

/-! ### Programs and erases end -/

/-- What a NAND program was for. -/
def State.logProgramDone (s : State) (ok : Bool) : State :=
  match s.pb.flushing with
  | none => s
  | some l =>
    if ok then
      let seqs := l.seqs.map (fun r => r.seq)
      let ring := s.pb.ring.map (fun p => if seqs.contains p.2.seq then (p.1, { p.2 with flushed := true }) else p)
      let top := seqs.foldl max 0
      let log := s.pb.log ++ [{ l with seqs := l.seqs.map (fun r => { r with flushed := true }) }]
      let s1 := ({ s with pb := { s.pb with ring := ring, log := log, flushing := none } }).setFlag F.PBOOK_STAT_flushing 0 false
          |>.suspEnd (s.logAddr l.slot)
      (s1.setFld F.PBOOK_FLUSHED_LO_seq 0 (top % 2 ^ 32)).setFld F.PBOOK_FLUSHED_HI_seq 0 (top / 2 ^ 32)
    else (((({ s with pb := { s.pb with flushing := none } }).setFlag F.PBOOK_STAT_flushing 0 false).suspEnd (s.logAddr l.slot)).retireBlock
      (s.logAddr l.slot) 1)

/-- A program of a position of a quire ends (R305, R307, R332). -/
def State.quireProgram (s : State) (quire pos : Nat) (ok : Bool) : State :=
  match s.flash.quires.find? (fun q => q.quire == quire), s.groupOf (quire / 1024) with
  | some q, some g =>
    let a := g.leafOf quire pos
    if q.done.contains pos || decide (q.width + 2 ≤ pos) then s
    else if ok then
      let q1 : QuireJob := { q with done := setIns q.done pos }
      let s1 := { s with flash := { s.flash with quires := s.flash.quires.map (fun (x : QuireJob) =>
        if x.quire == quire then q1 else x) } }
      let s2 := (s1.suspEnd a).putHeaders q [pos]
      if q.width + 2 ≤ q1.done.length then s2.quireHeld q1 else s2
    else ((s.suspEnd a).abandonQuire q pos).retireBlock a 1
  | _, _ => s

/-- A program of a journal replica ends (R327, R332). -/
def State.journalProgram (s : State) (index slot : Nat) (ok : Bool) : State :=
  match s.flash.journal.leaves.find? (fun l => l.index == index) with
  | some l =>
    let pos := mapGet 0 l.places slot
    if !l.programming.contains slot then s
    else
      let s0 := s.suspEnd (s.ringAddr slot (pos / 1024 % 16))
      if ok then s0.journalGood index slot
      else
        let leaves := s0.flash.journal.leaves.map (fun (x : JLeaf) =>
          if x.index == index then { x with programming := x.programming.filter (fun k => k != slot) } else x)
        let s1 := { s0 with flash := { s0.flash with journal := { s0.flash.journal with leaves := leaves } } }
        (s1.retireBlock (s1.ringAddr slot (pos / 1024 % 16)) 1).jReplace
  | none => s

/-- LEAF_PROGRAM_DONE (R305, R307, R327, R332, R715): a program of a quire position, a journal replica or a log leaf ends. -/
def State.programDone (s : State) (what : Program) (ok : Bool) : State :=
  match what with
  | .quire quire pos => (s.quireProgram quire pos ok).flashRegs.settle
  | .journal index slot => (s.journalProgram index slot ok).flashRegs.settle
  | .log => s.logProgramDone ok
def execLeafProgramDone (what : Program) (ok : Bool) (s : State) : Res := .next (s.programDone what ok)

/-- The programs that are in flight all end, without a new one being issued (R773); whether each succeeds is open. -/
def State.programsEnd (s : State) : State :=
  let good (a : Nat) : Bool := !Config.programFails s.pwr.boots a
  let s1 := s.flash.quires.foldl (fun st q => match st.groupOf (q.quire / 1024) with
    | some g => (upto (q.width + 2)).foldl (fun t p => t.quireProgram q.quire p (good (g.leafOf q.quire p))) st
    | none => st) s
  let todo := s1.flash.journal.leaves.flatMap (fun l => l.programming.map (fun k => (l, k)))
  let s2 := todo.foldl (fun st p =>
    let pos := mapGet 0 p.1.places p.2
    st.journalProgram p.1.index p.2 (good (st.ringAddr p.2 (pos / 1024 % 16) + pos % 1024))) s1
  match s2.pb.flushing with
  | some l => s2.logProgramDone (good (s2.logAddr l.slot + l.wordLine))
  | none => s2

/-- The last block of a RELEASED group is erased or retired: its number is free, its leaves are gone (R775). -/
def State.groupGone (s : State) : State :=
  let gs := s.flash.groups.filter (fun g => !(g.state == 4 && !g.reserve &&
    !(s.flash.erases.any (fun e => g.members.contains e.block))))
  let heads := s.flash.headers.filter (fun p => gs.any (fun g => !g.reserve && g.num == p.1 / 16384))
  { s with flash := { s.flash with groups := gs, headers := heads } }

/-- ERASE_DONE (R331, R332): the block is free, or retired. -/
def execEraseDone (block : Nat) (ok : Bool) (s : State) : Res :=
  .next (
    if s.flash.erases.any (fun e => e.block == block) then
      let slot := adSlot block
      let i := s.dieIndex block
      let s1 := ({ s with flash := { s.flash with erases := s.flash.erases.filter (fun e => e.block != block) } }).suspEnd block
      let s2 := if ok then
          (let s3 := (s1.jAppend { type := 0x09, args := [block] }).clearPermit block
           let d := s3.die slot i
           let ring := (upto 16).any (fun k => s3.ringAddr slot k == block)
           if ring then s3 else s3.setDie slot i { d with freed := setIns d.freed (adBlock block) })
        else s1.retireBlock block 2
      s2.groupGone.flashRegs.settle
    else s)

/-- JOURNAL_FLUSH (R327, R329): the open leaf is written `flush_ms` after its first record. -/
def execJournalFlush (s : State) : Res :=
  .next (match s.flash.journal.openSince with
    | some t => if s.due t (s.fld F.QUIRE_JCFG_flush_ms 0 * 1000) then s.jClose.maybeCheckpoint.settle else s
    | none => s)

/-! ### Relocation: reclaim, rebuild, reshape (R319 to R323, R357 to R361, R368) -/

/-- A folio's relocation is under way. -/
def State.moving (s : State) (f : Nat) : Bool :=
  s.flash.reads.any (fun r => r.folio == f && decide (8 ≤ r.cls)) ||
    s.flash.relocating.any (fun fs => fs.folio == f) ||
    s.flash.quires.any (fun q => q.slots.any (fun fs => fs.folio == f))

/-- The slot of a folio being relocated, with given contents, under the key slot that encrypts it: that of its flash copy where it
moves as it stands there (R321), its region's where it comes from DRAM (R358). -/
def State.moveSlot (s : State) (f key : Nat) (cells : List Host.Cell) : FolioSlot :=
  let x := s.folio f
  { folio := f, kind := .relocate x.quire x.leaf x.slot, gen := x.gen, key := key, cells := cells }

/-- Read a folio for relocation (R321); one whose key is not loaded is passed over (R668), and so is one for which the internal
pool has no entry. -/
def State.readMove (s : State) (f cls : Nat) : State :=
  if s.keyLoaded (s.flashKey f) && s.innerRoom cls then s.flashRead f cls else s

/-- The FULL or TRUNCATED group with the fewest current folios, the oldest first (R319). -/
def State.victimGroup (s : State) : Option Group :=
  (s.liveGroups.filter (fun g => g.state != 1)).foldl (fun (a : Option Group) g => match a with
    | none => some g
    | some b =>
      let n := (s.current g.num).length
      let m := (s.current b.num).length
      if n < m ∨ (n = m ∧ g.first < b.first) then some g else a) none

/-- RECLAIM (R319 to R324): below free_low, or below free_high where the write rate leaves `room`, the victim's current
folios are read for relocation; RECLAIM_URGENT below free_low / 4, once a minute. -/
def execReclaim (room : Bool) (s : State) : Res :=
  let free := s.fld F.QUIRE_FREE_free 0
  let low := s.fld F.QUIRE_RECLAIM_CFG_free_low 0
  let urgent := decide (free < low / 4) && (match s.flash.urgentAt with
    | some t => s.due t 60000000
    | none => true)
  let s1 := if urgent && s.mayWrite then
      ({ s with flash := { s.flash with urgentAt := some s.clock } }).raiseD Ev.RECLAIM_URGENT free else s
  .next (
    if s.mayWrite && (decide (free < low) || (room && decide (free < s.fld F.QUIRE_RECLAIM_CFG_free_high 0))) then
      let v := match s1.flash.victim with
        | some n => (match s1.groupOf n with
          | some g => if (s1.current n).isEmpty || g.state == 4 then s1.victimGroup else some g
          | none => s1.victimGroup)
        | none => s1.victimGroup
      match v with
      | none => s1
      | some g =>
        let s2 := { s1 with flash := { s1.flash with victim := some g.num } }
        ((s2.current g.num).foldl (fun st p => if st.moving p.1 then st else st.readMove p.1 8) s2).releaseEmpty.flashRegs
    else s1)

/-- Missing members of one quire of a group. -/
def State.leafMissing (s : State) (quire p : Nat) : Bool :=
  match s.groupOf (quire / 1024) with
  | some g => s.memberMissing g (posMember g.members.length p (quire % 1024))
  | none => false

/-- Relocate one group for the rebuild (class 9) or the reshape (class 10): R358, R361. -/
def State.moveGroup (s : State) (g : Group) (cls : Nat) : State :=
  let lost := decide (3 ≤ s.missing g)
  let folios := s.current g.num
  let quires := folios.foldl (fun a p => setIns a p.2.quire) ([] : List Nat)
  let s1 := if lost then
      (quires.filter (fun q => !g.lostQuires.contains q)).foldl (fun st q => st.raiseD Ev.QUIRE_LOST q)
        (s.setGroup { g with lostQuires := quires.foldl setIns g.lostQuires })
    else s
  folios.foldl (fun st p =>
    let f := p.1
    let x := st.folio f
    if st.moving f then st
    else match x.state with
    | .dirty => st.sendAhead f
    | .blotting => st
    | .clean =>
      let (cells, st1) := (st.allocFolio cls f).folioCells f
      { st1 with flash := { st1.flash with relocating := st1.flash.relocating ++ [st1.moveSlot f (st1.keyOf f) cells] } }
    | _ =>
      if lost && st.leafMissing x.quire x.leaf then
        (let st1 := st.markLost f true
         if st1.mayFetch f then st1.fetchFolio f .repair
         else { st1 with flash := { st1.flash with repairs := setIns st1.flash.repairs f } })
      else st.readMove f cls) s1

/-- The next group of the rebuild: most missing members, then fewest current folios, then the oldest (R357). -/
def State.rebuildNext (s : State) : Option Group :=
  (s.liveGroups.filter s.ofRebuild).foldl (fun (a : Option Group) g => match a with
    | none => some g
    | some b =>
      let mg := s.missing g
      let mb := s.missing b
      let n := (s.current g.num).length
      let m := (s.current b.num).length
      if mb < mg ∨ (mb = mg ∧ (n < m ∨ (n = m ∧ g.first < b.first))) then some g else a) none

/-- The next group of the reshape: the oldest (R368). -/
def State.reshapeNext (s : State) : Option Group :=
  (s.liveGroups.filter s.ofReshape).foldl (fun (a : Option Group) g => match a with
    | none => some g
    | some b => if g.first < b.first then some g else a) none

/-- An OPEN group that is to be relocated is closed first. -/
def State.closeFor (s : State) (g : Group) : State := if g.state = 1 then s.truncate g else s

/-- REBUILD (R357 to R361): the job is submitted and started where it is due, and takes its next group. -/
def execRebuild (s : State) : Res :=
  let s1 := s.rebuildCheck
  .next (match s1.running 4, s1.rebuildNext with
    | some _, some g =>
      if s1.mayWrite then
        let s2 := s1.closeFor g
        ((s2.moveGroup (match s2.groupOf g.num with
          | some h => h
          | none => g) 9).releaseEmpty.moveEnds).settle
      else s1
    | some _, none => s1.moveEnds
    | none, _ => s1.flashRegs)

/-- RESHAPE (R368 to R370): the job takes its next group, while no rebuild runs. -/
def execReshape (s : State) : Res :=
  .next (match s.running 5, s.reshapeNext with
    | some _, some g =>
      if s.mayWrite && (s.running 4).isNone then
        let s2 := s.closeFor g
        ((s2.moveGroup (match s2.groupOf g.num with
          | some h => h
          | none => g) 10).releaseEmpty.moveEnds).settle
      else s
    | some _, none => s.moveEnds
    | none, _ => if s.liveGroups.any s.ofReshape && s.flash.reshapeAt.isNone then s.submitReshape.flashRegs else s)

/-- RESHAPE_DELAY_EXPIRY (R367): `reshape_delay` minutes after the width fell the reshape is submitted. -/
def execReshapeDelayExpiry (s : State) : Res :=
  .next (match s.flash.reshapeAt with
    | some t => if s.due t (s.fld F.QUIRE_REBUILD_CFG_reshape_delay 0 * 60000000) then s.submitReshape.flashRegs else s
    | none => s)

end Sys2Proof.Machine
end

