-- ==== Sys2Proof/Machine/PbLog.lean ====
section
/-! DEFINITION. The prompt book's log in flash (R339, R704, R715 to R718): where its leaves go, when a flush is due, what a
strike writes, and what a power-on finds there. -/

set_option Elab.async false

namespace Sys2Proof.Machine

/-- Ring records above the highest sequence flushed, in sequence order (R715). -/
def State.pbUnflushed (s : State) : List PbRecord :=
  let top := s.fld F.PBOOK_FLUSHED_LO_seq 0 + s.fld F.PBOOK_FLUSHED_HI_seq 0 * 2 ^ 32
  let m := (s.pb.ring.filter (fun p => decide (top < p.2.seq) && !p.2.flushed)).foldl (fun m p => mapSet m p.2.seq p.2)
    ([] : List (Nat × PbRecord))
  m.map (fun p => p.2)

/-- The even slots of the log in the order in which the ring enters them after slot `k` (R716). -/
def logOrder (k : Nat) : List Nat := (upto 8).map (fun n => (k + 2 + 2 * n) % 16)

/-- The place of the next log leaf: the next word line of the block in use, else word line 0 of the next even slot in
service, whose block is erased and whose records leave the log; none while no even slot serves (R716). -/
def State.logPlace (s : State) : Option (Nat × Nat × State) :=
  if s.pb.logLine ≠ 0 ∧ s.inService s.pb.logSlot = true then some (s.pb.logSlot, s.pb.logLine, s)
  else match (logOrder s.pb.logSlot).find? s.inService with
    | none => none
    | some k =>
      let s1 := s.eraseNow (s.logAddr k)
      some (k, 0, { s1 with pb := { s1.pb with log := s1.pb.log.filter (fun l => l.slot != k) } })

/-- Issue the program of one log leaf with the records `rs`; `rest` stays unflushed. -/
def State.logIssue (s : State) (rs rest : List PbRecord) : State :=
  match s.logPlace with
  | none => s
  | some (k, l, s1) =>
    let leaf : LogLeaf := { slot := k, wordLine := l, seqs := rs }
    let urgent := if rest.any (fun r => decide (2 ≤ r.severity)) then some s1.clock else none
    ({ s1 with pb := { s1.pb with flushing := some leaf, logSlot := k, logLine := (l + 1) % 1024, urgentAt := urgent } }).setFlag
      F.PBOOK_STAT_flushing 0 true |>.opBegin (s1.dieKey (s1.logAddr k))

/-- A flush is due (R715): 1 ms after a FAULT or FATAL record, or 384 unflushed records. -/
def State.flushDue (s : State) : Bool :=
  decide (384 ≤ s.pbUnflushed.length) || (match s.pb.urgentAt with
    | some t => s.due t 1000
    | none => false)

/-- PBOOK_FLUSH (R715, R716): the program of the next log leaf is issued. In a strike step 6 writes the log, and load-in
writes nothing before the bank holds E_reserve (R594). -/
def State.pbFlush (s : State) : State :=
  let rs := s.pbUnflushed
  if s.pb.flushing.isSome || s.inStrike || (s.inLoadIn && !s.sen.holdsReserve) || !s.flushDue || rs.isEmpty then s
  else s.logIssue (rs.take 384) (rs.drop 384)
def execPbookFlush (s : State) : Res := .next s.pbFlush

/-- Step 6 of a strike (R585, R717): the 768 unflushed records of highest sequence in at most two leaves. -/
def State.strikeLog (s : State) : State :=
  let s0 := s.logProgramDone true
  let rs := s0.pbUnflushed
  let top := rs.drop (rs.length - 768)
  let put (st : State) (l : List PbRecord) : State := if l.isEmpty then st else (st.logIssue l []).logProgramDone true
  put (put s0 (top.take 384)) (top.drop 384)

/-! ### Power-on (R704, R718) -/

/-- Every record of the log, in sequence order. -/
def State.logRecords (s : State) : List PbRecord :=
  (s.pb.log.foldl (fun m l => l.seqs.foldl (fun m r => mapSet m r.seq r) m) ([] : List (Nat × PbRecord))).map (fun p => p.2)

/-- What the log gives the prompt book at a power-on: the next sequence, the start count, and the FATAL records that no
PBOOK_ACKED record names. -/
def State.pbRestore (s : State) : State :=
  let rs := s.logRecords
  let top := rs.foldl (fun a r => max a r.seq) 0
  let start := rs.foldl (fun a r => max a r.start) 0
  let open_ := rs.filter (fun r => r.severity == 3 && !rs.any (fun a => a.event == Ev.PBOOK_ACKED && a.detail == r.seq))
  let ring := (List.zip (upto 8192) open_).map (fun p =>
    (p.1, { p.2 with read := false, acked := false, flushed := true, restored := true }))
  let s1 := { s with pb := { s.pb with ring := ring, start := start } }
  let s2 := (s1.setPbSeq (top + 1)).pbCounts
  (s2.setFld F.PBOOK_FLUSHED_LO_seq 0 (top % 2 ^ 32)).setFld F.PBOOK_FLUSHED_HI_seq 0 (top / 2 ^ 32)

end Sys2Proof.Machine
end

