-- ==== Sys2Proof/Machine/Mailbox.lean ====
section
/-! DEFINITION. Mailbox commands of the memory device and of the vendor set that act on tables, ink, events and records
(R100, R123 to R131, R698, R714, R719, R766). -/

set_option Elab.async false

namespace Sys2Proof.Machine

/-! ### Standard memory-device commands (R124). Layouts of the CXL 3.1 payloads are PRESUMED (log entry 14). -/

/-- Media Status Not Ready stands from the start until load-in has ended (R590). -/
def State.mediaReady (s : State) : Bool := decide (8 ≤ s.pwr.step) && !s.inLoadIn && !s.inStrike && !s.pwr.noMem

/-- IDENTIFY_MEMORY_DEVICE (R100): capacity in 256 MiB units, all of it persistent-only; alignment 256 MiB; 128 KiB of LSA. -/
def execIdentifyMemoryDevice (mb : Nat) (input : List Byte) (s : State) : Res :=
  .next (s.standard mb 0x4000 0 input (fun s =>
    let cap := s.fld F.REGION_CAP_granules 0
    let (fw, s1) := s.freeBytes 16
    let (tail, s2) := s1.freeBytes 9
    s2.answerStd mb 0x4000 (fw ++ leBytes 8 cap ++ leBytes 8 0 ++ leBytes 8 cap ++ leBytes 8 1 ++
      leBytes 2 256 ++ leBytes 2 256 ++ leBytes 2 256 ++ leBytes 2 256 ++ leBytes 4 0x20000 ++ tail)))

/-- GET_HEALTH_INFO (R124, R590): the media status; the other values are not the spec's. -/
def execGetHealthInfo (mb : Nat) (input : List Byte) (s : State) : Res :=
  .next (s.standard mb 0x4200 0 input (fun s =>
    let (h, s1) := s.freeBytes 1
    let (rest, s2) := s1.freeBytes 16
    s2.answerStd mb 0x4200 (h ++ leBytes 1 (b2n (!s.mediaReady)) ++ rest)))

/-- The mailbox's own settings. -/
def State.mbox (s : State) (mb : Nat) : MboxState :=
  mapGet { timestamp := 0, timeSetAt := 0, eventPolicy := 0, alerts := 0 } s.host.mailboxes mb
def State.setMbox (s : State) (mb : Nat) (m : MboxState) : State :=
  { s with host := { s.host with mailboxes := mapSet s.host.mailboxes mb m } }

/-- GET_TIMESTAMP (R124): the timestamp set, and the nanoseconds since. -/
def execGetTimestamp (mb : Nat) (input : List Byte) (s : State) : Res :=
  .next (s.standard mb 0x0300 0 input (fun s =>
    let m := s.mbox mb
    s.answerStd mb 0x0300 (leBytes 8 (m.timestamp + (s.clock - m.timeSetAt) * 1000))))

/-- SET_TIMESTAMP (R124). -/
def execSetTimestamp (mb : Nat) (input : List Byte) (s : State) : Res :=
  .next (s.standard mb 0x0301 8 input (fun s =>
    (s.setMbox mb { s.mbox mb with timestamp := leAt input 0 8, timeSetAt := s.clock }).answerStd mb 0x0301 []))

/-- GET_SUPPORTED_LOGS (R124): the answer's contents are not the spec's. -/
def execGetSupportedLogs (mb : Nat) (input : List Byte) (s : State) : Res :=
  .next (s.standard mb 0x0400 0 input (fun s =>
    let (bs, s1) := s.freeBytes 20
    s1.answerStd mb 0x0400 (leBytes 2 1 ++ leBytes 6 0 ++ bs)))

/-- GET_LOG (R124): 16 bytes of log identifier, an offset and a length; the log's bytes are not the spec's. -/
def execGetLog (mb : Nat) (input : List Byte) (s : State) : Res :=
  .next (s.standard mb 0x0401 24 input (fun s =>
    let n := leAt input 20 4
    if 4096 < n then s.send (.mailbox mb 0x0401 .invalidInput [])
    else
      let (bs, s1) := s.freeBytes n
      s1.answerStd mb 0x0401 bs))

/-- The log of a logical device and severity (R698). -/
def State.ldLog (s : State) (n sev : Nat) : LdLog := mapGet { recs := [], lost := 0 } s.evt.logs (n * 4 + sev)

/-- A vendor-defined CXL event record: event ID, severity, prompt-book sequence and detail in 128 bytes (R698). -/
def CoreEntry.record (e : CoreEntry) : List Byte :=
  leBytes 16 0 ++ leBytes 2 e.event ++ leBytes 1 e.severity ++ leBytes 5 0 ++ leBytes 8 e.seq ++ leBytes 8 e.detail ++
    leBytes 88 0

/-- GET_EVENT_RECORDS (R698): the log named by the first byte, oldest first, as many as the payload holds. -/
def execGetEventRecords (mb : Nat) (input : List Byte) (s : State) : Res :=
  .next (s.standard mb 0x0100 1 input (fun s =>
    let l := s.ldLog ((s.mbLd mb).getD mb) (leAt input 0 1)
    let rs := l.recs.take 31
    if 3 < leAt input 0 1 then s.send (.mailbox mb 0x0100 .invalidInput [])
    else s.answerStd mb 0x0100 (leBytes 1 (b2n (decide (0 < l.lost)) + 2 * b2n (decide (31 < l.recs.length))) ++ leBytes 1 0 ++
      leBytes 2 l.lost ++ leBytes 16 0 ++ leBytes 2 rs.length ++ leBytes 10 0 ++ rs.flatMap CoreEntry.record)))

/-- CLEAR_EVENT_RECORDS (R698): log, flags (bit 0 clears all), count, and the positions of the records from 0. A cleared
event ID's vector is re-armed by the record's absence. -/
def execClearEventRecords (mb : Nat) (input : List Byte) (s : State) : Res :=
  let sev := leAt input 0 1
  .next (
    if !s.mailUp then s.holdMail mb 0x0101 input
    else if input.length < 6 ∨ input.length ≠ 6 + 2 * leAt input 2 1 then s.send (.mailbox mb 0x0101 .invalidLength [])
    else if 3 < sev then s.send (.mailbox mb 0x0101 .invalidInput [])
    else
      let n := (s.mbLd mb).getD mb
      let l := s.ldLog n sev
      let marks := (upto (leAt input 2 1)).map (fun k => leAt input (6 + 2 * k) 2)
      let kept := if bitB (leAt input 1 1) 0 then [] else
        ((List.zip (upto l.recs.length) l.recs).filter (fun p => !marks.contains p.1)).map (fun p => p.2)
      let logs := mapSet s.evt.logs (n * 4 + sev) { recs := kept, lost := 0 }
      ({ s with evt := { s.evt with logs := logs } }).answerStd mb 0x0101 [])

/-- GET_EVENT_INTERRUPT_POLICY (R124). -/
def execGetEventInterruptPolicy (mb : Nat) (input : List Byte) (s : State) : Res :=
  .next (s.standard mb 0x0102 0 input (fun s => s.answerStd mb 0x0102 (leBytes 5 (s.mbox mb).eventPolicy)))

/-- SET_EVENT_INTERRUPT_POLICY (R124). -/
def execSetEventInterruptPolicy (mb : Nat) (input : List Byte) (s : State) : Res :=
  .next (s.standard mb 0x0103 5 input (fun s =>
    (s.setMbox mb { s.mbox mb with eventPolicy := leAt input 0 5 }).answerStd mb 0x0103 []))

/-- GET_ALERT_CONFIGURATION (R124). -/
def execGetAlertConfiguration (mb : Nat) (input : List Byte) (s : State) : Res :=
  .next (s.standard mb 0x4201 0 input (fun s => s.answerStd mb 0x4201 (leBytes 16 (s.mbox mb).alerts)))

/-- SET_ALERT_CONFIGURATION (R124). -/
def execSetAlertConfiguration (mb : Nat) (input : List Byte) (s : State) : Res :=
  .next (s.standard mb 0x4202 12 input (fun s =>
    (s.setMbox mb { s.mbox mb with alerts := leAt input 0 12 }).answerStd mb 0x4202 []))

/-- GET_PARTITION_INFO (R100): all capacity is persistent. -/
def execGetPartitionInfo (mb : Nat) (input : List Byte) (s : State) : Res :=
  .next (s.standard mb 0x4100 0 input (fun s =>
    let cap := s.fld F.REGION_CAP_granules 0
    s.answerStd mb 0x4100 (leBytes 8 0 ++ leBytes 8 cap ++ leBytes 8 0 ++ leBytes 8 cap)))

/-- GET_LSA (R100, R124): 128 KiB of label storage per logical device. -/
def execGetLsa (mb : Nat) (input : List Byte) (s : State) : Res :=
  .next (s.standard mb 0x4102 8 input (fun s =>
    let off := leAt input 0 4
    let n := leAt input 4 4
    if 0x20000 < off + n ∨ 4096 < n then s.send (.mailbox mb 0x4102 .invalidInput [])
    else s.answerStd mb 0x4102 (memReadN 0 s.host.lsa (mb * 0x20000 + off) n)))

/-- SET_LSA (R100, R124): an offset, four reserved bytes and the data. -/
def execSetLsa (mb : Nat) (input : List Byte) (s : State) : Res :=
  let off := leAt input 0 4
  .next (
    if !s.mailUp then s.holdMail mb 0x4103 input
    else if input.length < 8 then s.send (.mailbox mb 0x4103 .invalidLength [])
    else if 0x20000 < off + (input.length - 8) then s.send (.mailbox mb 0x4103 .invalidInput [])
    else
      let lsa := memWriteN 0 s.host.lsa (mb * 0x20000 + off) (input.drop 8)
      ({ s with host := { s.host with lsa := lsa } }).answerStd mb 0x4103 [])

/-- GET_POISON_LIST (R125): the LOST folios of a DPA range, one record of 1,024 lines for each. DESIGN CHOICE (log entry 88):
at most 254 records to an answer, and a folio counts when its first byte lies in the range asked for. -/
def execGetPoisonList (mb : Nat) (input : List Byte) (s : State) : Res :=
  .next (s.standard mb 0x4300 16 input (fun s =>
    let base := leAt input 0 8
    let span := leAt input 8 8 * 64
    let lost := (s.ink.folios.filter (fun p => p.2.lost && decide (base ≤ p.1 * 65536) &&
      decide (p.1 * 65536 < base + span))).map (fun p => p.1)
    let rs := lost.take 254
    s.answerStd mb 0x4300 (leBytes 1 (b2n (decide (254 < lost.length))) ++ leBytes 1 0 ++ leBytes 8 0 ++
      leBytes 2 rs.length ++ leBytes 20 0 ++ rs.flatMap (fun f => leBytes 8 (f * 65536) ++ leBytes 4 1024 ++ leBytes 4 0))))

/-- MAILBOX_UNSUPPORTED (R100, R124, R127). -/
def execMailboxUnsupported (mb opcode : Nat) (s : State) : Res :=
  .next (if s.mailUp then s.send (.mailbox mb opcode .unsupported []) else s.holdMail mb opcode [])

/-! ### Vendor commands that report (R128) -/

/-- GET_DEVICE_INFO. -/
def execGetDeviceInfo (mb : Nat) (input : List Byte) (s : State) : Res :=
  .next (s.vendor mb 0xC000 0 false false input (fun s =>
    s.answer mb 0xC000 St.DONE ([Config.stepping] ++ leBytes 1 s.role ++ leBytes 1 0 ++ leBytes 4 s.epoch ++
      leBytes 2 (s.fld F.SCENE_ACTIVE_set 0) ++ leBytes 6 0 ++ leBytes 8 (s.fld F.REGION_CAP_granules 0 * 2 ^ 28) ++
      leBytes 8 (s.fld F.INK_CNT_ink 0 * 65536) ++ leBytes 8 (s.fld F.INK_CEIL_ceiling 0 * 65536))))

/-- GET_EPOCH. -/
def execGetEpoch (mb : Nat) (input : List Byte) (s : State) : Res :=
  .next (s.vendor mb 0xC001 0 false false input (fun s =>
    s.answer mb 0xC001 St.DONE (leBytes 1 s.role ++ leBytes 2 0 ++ leBytes 4 s.epoch ++
      leBytes 4 (s.readWord .TWIN_LEASE 0))))

/-- REGION_READ: the live entry (R172). -/
def execRegionRead (mb : Nat) (input : List Byte) (s : State) : Res :=
  .next (s.vendor mb 0xC004 2 false false input (fun s =>
    let r := leAt input 0 2
    if 4096 ≤ r then s.answer mb 0xC004 St.ILLEGAL []
    else s.answer mb 0xC004 St.DONE (leBytes 7 0 ++ (upto 4).flatMap (fun w => leBytes 8 (s.regionWord true r w)))))

/-- REGION_WRITE: the shadow entry; word 3 is ignored (R172). -/
def execRegionWrite (mb : Nat) (input : List Byte) (s : State) : Res :=
  .next (s.vendor mb 0xC005 40 true true input (fun s =>
    let r := leAt input 0 2
    if 4096 ≤ r then s.answer mb 0xC005 St.ILLEGAL []
    else (s.setTabEntry false 0 r ((upto 3).map (fun w => leAt input (8 + 8 * w) 8))).answer mb 0xC005 St.DONE []))

/-- ACCESS_STAGE: a shadow identity entry and its 16 windows (R101, R102). -/
def execAccessStage (mb : Nat) (input : List Byte) (s : State) : Res :=
  .next (s.vendor mb 0xC006 144 true true input (fun s =>
    (s.setTabEntry false 2 (leAt input 0 1) ((upto 17).map (fun w => leAt input (8 + 8 * w) 8))).answer mb 0xC006 St.DONE []))

/-- ACCESS_COMMIT (R102, R766): RETRY_LATER while a commit waits; otherwise the answer comes with the outcome. -/
def execAccessCommit (mb : Nat) (input : List Byte) (s : State) : Res :=
  .next (s.vendor mb 0xC007 0 true true input (fun s =>
    if s.region.commit.isSome then s.answer mb 0xC007 St.RETRY_LATER []
    else (s.startCommit (.mailbox mb)).settle))

/-- ACC_COMMIT (R766): a write of `ACC_COMMIT`; discarded while a commit waits. -/
def execAccCommit (value : Nat) (s : State) : Res :=
  .next (if bitB value 31 && s.region.commit.isNone then (s.startCommit .core).settle else s)

/-- COMMIT_EDGE (R104, R178, R766): the commit under way reaches its edge if it waits for nothing; then the controller's
next waiting commit starts. -/
def execCommitEdge (s : State) : Res := .next (s.commitEdge.nextCommit).settle

/-- PERSIST_BARRIER (R128, R135): answered when the barrier holds. -/
def execPersistBarrier (mb : Nat) (input : List Byte) (s : State) : Res :=
  .next (s.vendor mb 0xC008 2 false true input (fun s =>
    let bs := s.host.barriers ++ [(mb, leAt input 0 2, s.path.nextAcc)]
    ({ s with host := { s.host with barriers := bs } }).settle))

/-- INK_READ (R209): in bytes, 65,536 per folio; the rate in MB/s. -/
def execInkRead (mb : Nat) (input : List Byte) (s : State) : Res :=
  .next (s.vendor mb 0xC009 0 false false input (fun s =>
    s.answer mb 0xC009 St.DONE (leBytes 7 0 ++ leBytes 8 (s.fld F.INK_CNT_ink 0 * 65536) ++
      leBytes 8 (s.fld F.INK_LIMIT_limit 0 * 65536) ++ leBytes 8 ((s.liveWord .CURT_INK 0).toNat * 65536) ++
      leBytes 8 (s.fld F.BLOT_STAT_rate 0))))

/-- INK_LIMIT_SET (R198): bytes, rounded down to whole folios; the ceiling in force is returned. -/
def execInkLimitSet (mb : Nat) (input : List Byte) (s : State) : Res :=
  .next (s.vendor mb 0xC00A 8 true true input (fun s =>
    let s1 := (s.setInkLimit (leAt input 0 8 / 65536)).settle
    s1.answer mb 0xC00A St.DONE (leBytes 7 0 ++ leBytes 8 (s1.fld F.INK_CEIL_ceiling 0 * 65536))))

/-- INK_LIMIT_WRITE (R196, R198): a write of `INK_LIMIT`. -/
def execInkLimitWrite (value : Nat) (s : State) : Res := .next (s.setInkLimit (bits value 20 0)).settle

/-- ENERGY_READ (R608): the meter of an identity, in mJ. -/
def execEnergyRead (mb : Nat) (input : List Byte) (s : State) : Res :=
  .next (s.vendor mb 0xC015 1 false false input (fun s =>
    s.answer mb 0xC015 St.DONE (leBytes 7 0 ++ leBytes 8 (s.meter (leAt input 0 1)))))

/-- The cap that a written value sets (R606). -/
def clampCap (w : Nat) : Nat := if w < 60 then 60 else if 110 < w then 110 else w

/-- POWER_CAP_SET (R606). -/
def execPowerCapSet (mb : Nat) (input : List Byte) (s : State) : Res :=
  .next (s.vendor mb 0xC016 2 true false input (fun s =>
    let c := clampCap (leAt input 0 2)
    (s.setRw F.SENT_PCAP_cap 0 c).answer mb 0xC016 St.DONE (leBytes 1 0 ++ leBytes 2 c)))

/-- SENT_PCAP (R606): a write of the register. -/
def execSentPcap (value : Nat) (s : State) : Res := .next (s.setRw F.SENT_PCAP_cap 0 (clampCap (bits value 6 0)))

/-- TWIN_STATUS (R572). -/
def execTwinStatus (mb : Nat) (input : List Byte) (s : State) : Res :=
  .next (s.vendor mb 0xC01A 0 false false input (fun s =>
    s.answer mb 0xC01A St.DONE (leBytes 1 s.role ++ leBytes 1 (s.fld F.TWIN_STAT_link 0) ++ leBytes 1 0 ++ leBytes 4 s.epoch ++
      leBytes 4 (bits (s.readWord .TWIN_LAG 0) 15 0) ++ leBytes 4 (s.fld F.TWIN_STAT_progress 0))))

/-- EVENT_ROUTE (R129, R698): the routing byte of the logical device through which it arrives; of a GFD identity, that of the
logical device whose window serves it. Where none does, ILLEGAL (log entry 95). -/
def execEventRoute (mb : Nat) (input : List Byte) (s : State) : Res :=
  .next (s.vendor mb 0xC01F 4 false false input (fun s =>
    let ev := leAt input 0 2
    let vec := leAt input 2 1
    let en := leAt input 3 1
    if 63 < vec || !evIsAssigned ev || decide (4096 ≤ ev) then s.answer mb 0xC01F St.ILLEGAL []
    else match s.mbLd mb with
      | none => s.answer mb 0xC01F St.ILLEGAL []
      | some n =>
        let routes := mapSet s.evt.routes (n * 4096 + ev) ((if en = 0 then 0 else 128) + vec)
        ({ s with evt := { s.evt with routes := routes } }).answer mb 0xC01F St.DONE []))

/-! ### Maintenance over the mailbox (R733) -/

/-- MAINT_STATUS (R733). -/
def execMaintStatus (mb : Nat) (input : List Byte) (s : State) : Res :=
  .next (s.vendor mb 0xC00D 4 false false input (fun s =>
    match s.job (leAt input 0 4) with
    | some j => s.answer mb 0xC00D St.DONE (leBytes 1 j.state ++ leBytes 1 j.status ++ leBytes 1 j.progress)
    | none => s.answer mb 0xC00D St.ILLEGAL []))

/-! ### Records and tallies -/

/-- All records that PBOOK_READ may give, ring and log, in ascending sequence (R714): a ring record before its log copy. -/
def State.pbAll (s : State) : List (Nat × PbRecord) :=
  let log := s.pb.log.foldl (fun m l => l.seqs.foldl (fun m r => mapSet m r.seq r) m) ([] : List (Nat × PbRecord))
  s.pb.ring.foldl (fun m p => mapSet m p.2.seq p.2) log

/-- Set the read flag of the ring records with the given sequences (R712). -/
def State.pbMarkRead (s : State) (seqs : List Nat) : State :=
  let ring := s.pb.ring.map (fun p => if seqs.contains p.2.seq then (p.1, { p.2 with read := true }) else p)
  { s with pb := { s.pb with ring := ring } }

/-- PBOOK_READ (R714). -/
def execPbookRead (mb : Nat) (input : List Byte) (s : State) : Res :=
  .next (s.vendor mb 0xC012 10 false false input (fun s =>
    let n := min 7 (leAt input 8 2)
    let rs := ((s.pbAll.filter (fun p => decide (leAt input 0 8 ≤ p.1))).take n).map (fun p => p.2)
    (s.pbMarkRead (rs.map (fun r => r.seq))).answer mb 0xC012 St.DONE
      (leBytes 1 rs.length ++ leBytes 6 0 ++ rs.flatMap PbRecord.bytes)))

/-- Acknowledge a FATAL record (R712): the status, and the state after it. -/
def State.pbAck (s : State) (q : Nat) : Nat × State :=
  match s.pb.ring.find? (fun p => p.2.seq == q) with
  | none => (St.ILLEGAL, s)
  | some (k, r) =>
    if r.severity ≠ 3 then (St.ILLEGAL, s)
    else if !r.read then (St.CONFLICT, s)
    else if r.acked then (St.ALREADY_DONE, s)
    else
      let ring := mapSet s.pb.ring k { r with acked := true }
      let s1 := ({ s with pb := { s.pb with ring := ring } }).pbCounts
      (St.DONE, s1.raiseSev Ev.PBOOK_ACKED 0 q true)

/-- STRIKE_INCOMPLETE's record has been acknowledged: CXL.mem may be served again (R591); LOAD_IN returns where no role has
been taken yet (R544). -/
def State.afterAck (s : State) (q : Nat) : State :=
  match s.pb.ring.find? (fun p => p.2.seq == q) with
  | some (_, r) =>
    if r.event == Ev.STRIKE_INCOMPLETE && r.acked then
      let back := if s.inLoadIn || s.role == 0 then 0x80 else 0
      (({ s with pwr := { s.pwr with noMem := false } }).sceneChange back 0x100).settle
    else s
  | none => s

/-- PBOOK_ACK (R712). -/
def execPbookAck (mb : Nat) (input : List Byte) (s : State) : Res :=
  .next (s.vendor mb 0xC013 8 true false input (fun s =>
    let (st, s1) := s.pbAck (leAt input 0 8)
    (if st = St.DONE then s1.afterAck (leAt input 0 8) else s1).answer mb 0xC013 st []))

/-- PBOOK_ACK_HI (R712, R722): a write of `PBOOK_ACK_HI` acknowledges the sequence of the pair. -/
def execPbookAckHi (value : Nat) (s : State) : Res :=
  let q := value % 2 ^ 32 * 2 ^ 32 + (s.liveWord .PBOOK_ACK_LO 0).toNat
  let (st, s1) := (s.setLive .PBOOK_ACK_HI 0 value).pbAck q
  .next ((if st = St.DONE then s1.afterAck q else s1).setLive .PBOOK_ACK_STAT 0 st)

/-- Copy a tally into `PBOOK_TALLY_SNAP` (R721). -/
def State.tallySnap (s : State) (i : Nat) : State :=
  let bs := (mapGet Tally.empty s.pb.tallies i).bytes
  (upto 40).foldl (fun st w => st.setLive .PBOOK_TALLY_SNAP w (leNat ((bs.drop (4 * w)).take 4))) s

/-- TALLY_READ (R719, R721). -/
def execTallyRead (mb : Nat) (input : List Byte) (s : State) : Res :=
  .next (s.vendor mb 0xC014 2 false false input (fun s =>
    let i := leAt input 0 2
    if 0x1FF < i then s.answer mb 0xC014 St.ILLEGAL []
    else (s.tallySnap i).answer mb 0xC014 St.DONE (leBytes 7 0 ++ (mapGet Tally.empty s.pb.tallies i).bytes)))

/-- TALLY_SNAP (R721): `PBOOK_TALLY_SEL` written with snap. -/
def execTallySnap (index : Nat) (s : State) : Res := .next (s.tallySnap (index % 512))

/-- TALLY_CLEAR (R721): `PBOOK_TALLY_SEL` written with clear, after any copy that snap asks for in the same write. -/
def execTallyClear (index : Nat) (snap : Bool) (s : State) : Res :=
  let i := index % 512
  let s1 := if snap then s.tallySnap i else s
  .next { s1 with pb := { s1.pb with tallies := mapDel s1.pb.tallies i } }

/-- PBOOK_FIRE (R707): trigger `t` fires as though its event were raised; its record carries PBOOK_FIRED. -/
def execPbookFire (value : Nat) (s : State) : Res :=
  let t := bits value 7 0
  .next (
    if bitB value 31 then
      let s1 := s.addSat F.EVT_SRC_count Ev.PBOOK_FIRED 1
      let sev := max (evSeverity Ev.PBOOK_FIRED) (s1.fld F.PBOOK_TRIG_severity t)
      let (s2, d) := s1.pbWrite 2 sev Ev.PBOOK_FIRED t t (s1.pbCapture t)
      let (s3, ovf) := s2.toCore Ev.PBOOK_FIRED sev s1.pbSeq t
      let s4 := (if d then s3.raiseDropped else s3).toHosts Ev.PBOOK_FIRED sev s1.pbSeq t
      if ovf then s4.raiseOverflow else s4
    else s)

/-- RING_TAIL_READ (R712, R713): a stage core reads the tail of slot `r` of the page shown; the record is marked read. -/
def execRingTailRead (slot : Nat) (s : State) : Res :=
  let r := s.fld F.PBOOK_WIN_page 0 * 2048 + slot % 2048
  .next (match mapGet? s.pb.ring r with
    | some p => (s.pbMarkRead [p.seq]).send (.ctlRead (0x2900000 + (slot % 2048) * 512 + 504) p.seq)
    | none => s.send (.ctlRead (0x2900000 + (slot % 2048) * 512 + 504) 0))

end Sys2Proof.Machine
end

