-- ==== Sys2Proof/Machine/Tickets.lean ====
section
/-! DEFINITION. Queues, tickets, completions, notes and the life of a scribe context (R413 to R417, R430 to R434, R440 to
R443, R500 to R526). -/

set_option Elab.async false

namespace Sys2Proof.Machine

/-! ### Queues -/

/-- A queue pair. -/
def State.queue (s : State) (ld id : Nat) : Option Queue := mapGet? s.que.pairs (ld * 4096 + id)

/-- Set a queue pair. -/
def State.setQueue (s : State) (ld id : Nat) (q : Queue) : State :=
  { s with que := { s.que with pairs := mapSet s.que.pairs (ld * 4096 + id) q } }

/-- A slot that has held no ticket yet (R505). -/
def QSlot.init : QSlot :=
  { state := .free, gen := 0, ticket := 0, aborted := false, held := none, order := 0, cpl := 0 }
def Queue.slot (q : Queue) (k : Nat) : QSlot := mapGet QSlot.init q.slots k
def Queue.setSlot (q : Queue) (k : Nat) (x : QSlot) : Queue := { q with slots := mapSet q.slots k x }

/-- Slots of a queue in a state. -/
def Queue.count (q : Queue) (st : SlotState) : Nat := (q.slots.filter (fun p => p.2.state == st)).length

/-- Tickets ADMITTED or RUNNING of a queue. -/
def Queue.live (q : Queue) : Nat := q.count .admitted + q.count .running

/-- The queues of a logical device, by id. -/
def State.queuesOf (s : State) (ld : Nat) : List (Nat × Queue) :=
  (s.que.pairs.filter (fun p => p.1 / 4096 == ld)).map (fun p => (p.1 % 4096, p.2))

/-- Tickets ADMITTED or RUNNING of a logical device, and in the device. -/
def State.ldLive (s : State) (ld : Nat) : Nat := (s.queuesOf ld).foldl (fun a p => a + p.2.live) 0
def State.allLive (s : State) : Nat := s.que.pairs.foldl (fun a p => a + p.2.live) 0

/-- Refresh the queue registers (R527). -/
def State.queueRegs (s : State) (ld : Nat) : State :=
  let running := s.que.pairs.foldl (fun a p => a + p.2.count .running) 0
  ((((s.setFld F.QUEUE_STAT_admitted 0 s.allLive).setFld F.QUEUE_STAT_running 0 running).setFld F.QUEUE_PAIRS_pairs 0
    s.que.pairs.length).setFld F.QUEUE_LD_STAT_queues ld (s.queuesOf ld).length).setFld F.QUEUE_LD_STAT_admitted ld
    (s.ldLive ld)

/-- A field of a ticket (R507): bytes `off` to `off + size − 1`. -/
def tk (t : Line) (off size : Nat) : Nat := bits t.toNat (8 * (off + size) - 1) (8 * off)

/-- Count an entry for the vector of a queue, and fire it under `QUEUE_COAL` (R525). -/
def State.coalesce (s : State) (ld vec : Nat) : State :=
  if vec = 0xFF then s
  else
    let k := ld * 64 + vec
    let (n, t) := mapGet (0, s.clock) s.que.coal k
    let t1 := if n = 0 then s.clock else t
    let w := s.liveWord .QUEUE_COAL k
    let count := max 1 (bits w.toNat 15 8)
    if count ≤ n + 1 ∨ bits w.toNat 7 0 = 0 then
      ({ s with que := { s.que with coal := mapDel s.que.coal k } }).send (.msix ld vec)
    else { s with que := { s.que with coal := mapSet s.que.coal k (n + 1, t1) } }

/-- Write 16 bytes of a completion or note entry as one write (R512, R513). -/
def State.ringWrite (s : State) (ld at_ value slot gen status w12 phase : Nat) : State :=
  let bs := leBytes 8 value ++ leBytes 2 slot ++ leBytes 1 gen ++ leBytes 1 status ++ leBytes 2 w12 ++ leBytes 1 0 ++
    leBytes 1 phase
  { s with que := { s.que with window := memWriteN 0 s.que.window (ld * 2 ^ 28 + at_) bs } }

/-- Write a completion: the slot's ticket reaches its commit point (R449, R512, R513, R521, R525). -/
def State.postCompletion (s : State) (ld id slot result status : Nat) : State :=
  match s.queue ld id with
  | none => s
  | some q =>
    let x := q.slot slot
    let next := (q.cplTail + 1) % q.depth
    let q1 := { (q.setSlot slot { x with state := .written, cpl := q.cplTail }) with
      cplTail := next, cplPhase := if next = 0 then 1 - q.cplPhase else q.cplPhase }
    let s1 := ((s.ringWrite ld (q.cpl + 16 * q.cplTail) result slot x.gen status q.subHead q.cplPhase).setQueue ld id q1)
    let s2 := if bitB (tk x.ticket 1 1) 0 then s1.coalesce ld q.vector else s1
    s2.queueRegs ld

/-- The note ring has a free entry (R514). -/
def Queue.noteFree (q : Queue) : Bool := decide (q.noteCount < q.depth)

/-- Write a note: kind 0 NOTIFY, 1 ABORT_RESULT (R512, R514, R525). -/
def State.postNote (s : State) (ld id slot gen value status kind : Nat) : State :=
  match s.queue ld id with
  | none => s
  | some q =>
    let next := (q.noteTail + 1) % q.depth
    let q1 := { q with noteTail := next, noteCount := q.noteCount + 1,
                       notePhase := if next = 0 then 1 - q.notePhase else q.notePhase }
    ((s.ringWrite ld (q.cpl + 16 * q.depth + 16 * q.noteTail) value slot gen status kind q.notePhase).setQueue ld id q1).coalesce
      ld q.vector

/-- Post an abort result, or hold it until a note entry frees, one for each slot (R514, R521). -/
def State.abortNote (s : State) (ld id slot gen status : Nat) : State :=
  match s.queue ld id with
  | none => s
  | some q =>
    if q.noteFree then s.postNote ld id slot gen 0 status 1
    else
      let x := q.slot slot
      let h := match x.held with
        | some h => h
        | none => status * 256 + gen
      (s.setQueue ld id (q.setSlot slot { x with held := some h })).raise Ev.NOTE_RING_FULL

/-- A message that names a stale generation is discarded and counted (R511). -/
def State.staleTicket (s : State) : State := (s.addSat F.QUEUE_STALE_CNT_count 0 1).raise Ev.STALE_TICKET

/-! ### Free ranges -/

/-- Free ranges of a space of `total` units, as (base, length), given the used ranges in rising order. -/
def gapsFrom (start total : Nat) : List (Nat × Nat) → List (Nat × Nat)
  | [] => if start < total then [(start, total - start)] else []
  | (b, n) :: t => (if start < b then [(start, b - start)] else []) ++ gapsFrom (max start (b + n)) total t

/-- The longest free range. -/
def longestGap (gs : List (Nat × Nat)) : Nat := gs.foldl (fun a g => max a g.2) 0

/-- The first free range of at least `n` units (the choice is open, log entry 22). -/
def firstFit (gs : List (Nat × Nat)) (n : Nat) : Option Nat := (gs.find? (fun g => decide (n ≤ g.2))).map (fun g => g.1)

/-! ### Contexts -/

/-- The context `k` = scribe × 16 + context, if it runs a ticket. -/
def State.ctx (s : State) (k : Nat) : Option Ctx := mapGet? s.scr.ctxs k
def State.setCtx (s : State) (k : Nat) (c : Ctx) : State := { s with scr := { s.scr with ctxs := mapSet s.scr.ctxs k c } }

/-- Contexts of a scribe. -/
def State.ctxsOf (s : State) (e : Nat) : List (Nat × Ctx) := s.scr.ctxs.filter (fun p => p.1 / 16 == e)

/-- A script of a logical device. -/
def State.script (s : State) (ld id : Nat) : Option Script := s.scr.scripts.find? (fun x => x.ld == ld && x.id == id)

/-- Free inkwell ranges of a scribe in 4 KiB units. -/
def State.inkGaps (s : State) (e : Nat) : List (Nat × Nat) :=
  gapsFrom 0 128 ((s.ctxsOf e).foldl (fun m p => mapSet m (p.2.inkBase / 4096) (match s.script p.2.ld p.2.script with
    | some x => x.inkFoot / 4096
    | none => 1)) [])

/-- Refresh the registers of a scribe (R457). -/
def State.scribeRegs (s : State) (e : Nat) : State :=
  let cs := s.ctxsOf e
  let gaps := s.inkGaps e
  let free := gaps.foldl (fun a g => a + g.2) 0
  (((s.setFld F.SCR_STAT_contexts e cs.length).setFld F.SCR_STAT_dpa_ops e (cs.foldl (fun a p => a + p.2.ops.length) 0)).setFld
    F.SCR_INK_free_run e (longestGap gaps)).setFld F.SCR_INK_used e (128 - free)

/-- Refresh `SCR_CTX` and `SCR_CTX_TKT` of a context (R457). -/
def State.ctxRegs (s : State) (k : Nat) : State :=
  match s.ctx k with
  | some c => ((s.setLive .SCR_CTX k (2 ^ 31 + b2n c.handler * 2 ^ 30 + b2n c.sealOpen * 2 ^ 29 +
      c.sealLines.length * 2 ^ 22 + c.script)).setLive .SCR_CTX_TKT k (c.queue * 65536 + c.slot)).scribeRegs (k / 16)
  | none => ((s.setLive .SCR_CTX k 0).setLive .SCR_CTX_TKT k 0).scribeRegs (k / 16)

/-- Store a context and refresh its registers. -/
def State.putCtx (s : State) (k : Nat) (c : Ctx) : State := (s.setCtx k c).ctxRegs k

/-- The ticket of a context has no DPA operation or store left in flight (R449, R496, R523). -/
def State.ctxQuiet (s : State) (c : Ctx) : Bool :=
  c.ops.isEmpty && !(s.path.held.any (fun r => c.stores.contains r.acc))

/-- QUEUE_DELETE ends once no ticket of the queue is left (R506). -/
def State.deleteDone (s : State) (ld id : Nat) : State :=
  match s.queue ld id with
  | some q => (match q.deleting with
    | some mb =>
      if q.live = 0 then
        (({ s with que := { s.que with pairs := mapDel s.que.pairs (ld * 4096 + id) } }).queueRegs ld).answer mb 0xC01C St.DONE []
      else s
    | none => s)
  | none => s

/-! ### Scribes in and out of service (R412 to R415, R737) -/

/-- Position of a physical scribe in its cluster's map, if it fills one (R412). -/
def State.fillsPosition (s : State) (e : Nat) : Bool :=
  (upto 8).any (fun i => bits (s.liveWord .SCL_MAP (e / 9)).toNat (4 * i + 3) (4 * i) == e % 9)

/-- Refresh `SCL_STAT.spare` and `failed` from the scribes' states (R457). -/
def State.clusterRegs (s : State) (k : Nat) : State :=
  let es := (upto 9).filter (fun i => s.fld F.SCR_STAT_state (9 * k + i) == 0 && !s.fillsPosition (9 * k + i))
  let failed := ((upto 9).filter (fun i => s.fld F.SCR_STAT_state (9 * k + i) == 2)).length
  (s.setFld F.SCL_STAT_spare k (es.headD 0xF)).setFld F.SCL_STAT_failed k failed

/-- Put physical index `i` (or 0xF) at the position that `old` fills. -/
def State.mapReplace (s : State) (k old i : Nat) : State :=
  match (upto 8).find? (fun p => bits (s.liveWord .SCL_MAP k).toNat (4 * p + 3) (4 * p) == old) with
  | some p => s.setLive .SCL_MAP k (setBits (s.liveWord .SCL_MAP k).toNat (4 * p + 3) (4 * p) i)
  | none => s

/-- Clear a scribe's inkwell. -/
def State.zeroInk (s : State) (e : Nat) : State :=
  { s with scr := { s.scr with inkwell := memClear s.scr.inkwell (e * 524288) ((e + 1) * 524288) } }

/-- The built-in test of a scribe taken out of service has ended (R737 steps 5 and 6): SPARE or FAILED, its drain cleared. -/
def State.swapTested (s : State) (e : Nat) (pass : Bool) : State :=
  let s1 := ((s.setFld F.SCR_STAT_state e (if pass then 0 else 2)).setRw F.SCR_CTL_drain e 0).clusterRegs (e / 9)
  let s2 := if pass then s1 else s1.raiseD Ev.SCRIBE_FAILED e
  match s2.running 0x0B with
  | some j => s2.endJob j.id (if pass then St.DONE else St.ENGINE_FAULT)
  | none => s2

/-- A swap without a spare left ends (R737). -/
def State.swapCancel (s : State) (status : Nat) : State :=
  match s.scr.swap with
  | none => s
  | some (e, _, _) =>
    let s1 := ({ s with scr := { s.scr with swap := none } }).setRw F.SCR_CTL_drain e 0
    match s1.running 0x0B with
    | some j => s1.endJob j.id status
    | none => s1

/-- The drained scribe has no context left: the spare takes its position, and it is tested (R737 steps 4 to 6). -/
def State.swapDone (s : State) : State :=
  match s.scr.swap with
  | none => s
  | some (e, _, pass) =>
    if !(s.ctxsOf e).isEmpty then s
    else
      let k := e / 9
      let sp := s.fld F.SCL_STAT_spare k
      if 9 ≤ sp then s.swapCancel St.CONFLICT
      else
        let s1 := { s with scr := { s.scr with swap := none } }
        ((((s1.zeroInk (9 * k + sp)).setFld F.SCR_STAT_state (9 * k + sp) 1).mapReplace k (e % 9) sp).raiseD
          Ev.SCRIBE_SWAPPED e).swapTested e pass

/-! ### The end of a context -/

/-- The context ends: the completion entry is written unless the ticket ends without one, then an abort's result; the
cue run closes (R406, R416, R506, R521, R523, R526). -/
def State.finishCtx (s : State) (k : Nat) (status result : Nat) : State :=
  match s.ctx k with
  | none => s
  | some c =>
    let s1 := ({ s with scr := { s.scr with ctxs := mapDel s.scr.ctxs k } }).ctxRegs k
    let rs := s1.path.results.filter (fun r => !(r.scribe == k / 16 && r.ctx == k % 16))
    let s2 := ({ s1 with path := { s1.path with results := rs } }).closeRun k
    let s3 := if c.silent then
        (match s2.queue c.ld c.queue with
         | some q => (s2.setQueue c.ld c.queue (q.setSlot c.slot { q.slot c.slot with state := .free })).queueRegs c.ld
         | none => s2)
      else s2.postCompletion c.ld c.queue c.slot result status
    let s4 := if c.abortNote && !c.silent then s3.abortNote c.ld c.queue c.slot c.gen St.ABORTED else s3
    (s4.deleteDone c.ld c.queue).swapDone

/-- Finish a context that only waits for its stores. -/
def State.tryFinish (s : State) (k : Nat) : State :=
  match s.ctx k with
  | none => s
  | some c => match c.block with
    | .halt st r => if s.ctxQuiet c then s.finishCtx k st r else s
    | .ending st cm =>
      if s.ctxQuiet c && !(s.path.applied.any (fun a => cm == some a.acc)) then s.finishCtx k st 0 else s
    | _ => s

/-- End the ticket of a context (R441, R443, R522): its SEAL group and loads are discarded, an abort discards stores held
at tracker admission (R160) too; the rest is waited for. -/
def State.endCtx (s : State) (k status : Nat) (abort silent : Bool) : State :=
  match s.ctx k with
  | none => s
  | some c =>
    let mine (r : Req) : Bool := match r.src with
      | .script sc cx _ => sc == k / 16 && cx == k % 16
      | _ => false
    let commit : Option Nat := match c.block with
      | .commit (some a) => if s.path.held.any (fun r => r.acc == a) then none else some a
      | _ => none
    let gone (r : Req) : Bool := mine r && (!r.isStore || r.isSeal || (abort && r.gate == .fence))
    let held := s.path.held.filter (fun r => !gone r)
    let left := held.filter mine
    let keep := c.ops.filter (fun o => (o.dest == .store || (match o.dest with
      | .atomic _ _ => true
      | _ => false)) && left.any (fun r => match r.src with
        | .script _ _ sl => sl == o.slot
        | _ => false))
    let c1 : Ctx := { c with ops := keep.map (fun o => { o with dest := .store }), block := .ending status commit,
                             sealOpen := false, sealLines := [], sealBuf := [], abortNote := c.abortNote || abort,
                             silent := c.silent || silent }
    let rs := s.path.results.filter (fun r => !(r.scribe == k / 16 && r.ctx == k % 16))
    ((({ s with path := { s.path with held := held, results := rs } }).putCtx k c1).closeRun k).tryFinish k

/-- Record a ticket's end by a trap or R441 in `SCR_FAULT`, and raise TICKET_FAULT at most once per millisecond (R440). -/
def State.faultRecord (s : State) (k cause status pc : Nat) : State :=
  let e := k / 16
  let w := cause * 2 ^ 24 + status * 2 ^ 16 + k % 16 * 2 ^ 12 + 1
  let s1 := (s.setLive .SCR_FAULT e w).setLive .SCR_FAULT_PC e (pc % 2 ^ 32)
  let again := match mapGet? s1.scr.faultAt e with
    | some t => decide (s1.clock < t + 1000)
    | none => false
  if again then s1
  else ({ s1 with scr := { s1.scr with faultAt := mapSet s1.scr.faultAt e s1.clock } }).raiseD Ev.TICKET_FAULT e

/-! ### Ending the tickets of a logical device (R526, R726) -/

/-- Every ticket of the logical devices chosen ends without a completion or note, and their queues go. -/
def State.dropQueues (s : State) (ldSel : Nat → Bool) : State :=
  let ks := (s.scr.ctxs.filter (fun p => ldSel p.2.ld)).map (fun p => p.1)
  let s1 := ks.foldl (fun st k => st.endCtx k St.ABORTED true true) s
  let gone := (s1.que.pairs.filter (fun p => ldSel (p.1 / 4096))).map (fun p => p.1 / 4096)
  let coal := s1.que.coal.filter (fun p => !ldSel (p.1 / 64))
  let bells := s1.que.bells.filter (fun b => !ldSel b.ld)
  let s2 := { s1 with que := { s1.que with pairs := s1.que.pairs.filter (fun p => !ldSel (p.1 / 4096)), coal := coal,
                                           bells := bells } }
  gone.foldl (fun st ld => st.queueRegs ld) (s2.queueRegs 0)

/-! ### QUEUE_CREATE and QUEUE_DELETE -/

/-- Two areas of the window overlap. -/
def areasMeet (a n b m : Nat) : Bool := decide (a < b + m) && decide (b < a + n)

/-- R500 for a new queue's two areas. -/
def State.areasOk (s : State) (ld depth sub cpl : Nat) : Bool :=
  let fits (a n : Nat) : Bool := a % 4096 == 0 && decide (a + n ≤ 0x0FFFF000)
  let others := (s.queuesOf ld).flatMap (fun p => [(p.2.sub, 64 * p.2.depth), (p.2.cpl, 32 * p.2.depth)])
  fits sub (64 * depth) && fits cpl (32 * depth) && !areasMeet sub (64 * depth) cpl (32 * depth) &&
    !(others.any (fun o => areasMeet sub (64 * depth) o.1 o.2 || areasMeet cpl (32 * depth) o.1 o.2))

/-- QUEUE_CREATE (R504, R505). -/
def execQueueCreate (mb : Nat) (input : List Byte) (s : State) : Res :=
  .next (s.vendor mb 0xC01B 14 false true input (fun s =>
    let id := leAt input 0 2
    let depth := leAt input 2 2
    let vec := leAt input 12 1
    match s.mbLd mb with
    | none => s.answer mb 0xC01B St.QUEUE_FULL []
    | some ld =>
      if 4095 < id ∨ depth < 2 ∨ 4096 < depth ∨ (63 < vec ∧ vec ≠ 0xFF) ∨ 3 < leAt input 13 1 ∨
          !s.areasOk ld depth (leAt input 4 4) (leAt input 8 4) then s.answer mb 0xC01B St.ILLEGAL []
      else if (s.queue ld id).isSome then s.answer mb 0xC01B St.CONFLICT []
      else if 65536 ≤ s.que.pairs.length then s.answer mb 0xC01B St.QUEUE_FULL []
      else
        let q : Queue := { depth := depth, vector := vec, prio := leAt input 13 1, sub := leAt input 4 4,
                           cpl := leAt input 8 4, subHead := 0, subTail := 0, cplHead := 0, cplTail := 0, cplPhase := 1,
                           noteHead := 0, noteTail := 0, notePhase := 1, noteCount := 0, slots := [], deleting := none }
        ((s.setQueue ld id q).queueRegs ld).answer mb 0xC01B St.DONE []))

/-- QUEUE_DELETE (R506): fetching stops, tickets end as an abort ends them but without completion or note. -/
def execQueueDelete (mb : Nat) (input : List Byte) (s : State) : Res :=
  .next (s.vendor mb 0xC01C 2 false false input (fun s =>
    let id := leAt input 0 2
    match s.mbLd mb with
    | none => s.answer mb 0xC01C St.QUEUE_FULL []
    | some ld => match s.queue ld id with
      | none => s.answer mb 0xC01C St.ILLEGAL []
      | some q =>
        let slots := q.slots.map (fun p => if p.2.state == .admitted then (p.1, { p.2 with state := .free }) else p)
        let s1 := s.setQueue ld id { q with deleting := some mb, slots := slots }
        let ks := (s1.scr.ctxs.filter (fun p => p.2.ld == ld && p.2.queue == id)).map (fun p => p.1)
        (ks.foldl (fun st k => st.endCtx k St.ABORTED true true) s1).deleteDone ld id))

/-! ### Doorbells (R515 to R517) -/

/-- A bad doorbell is discarded and counted (R517). -/
def State.bellBad (s : State) (ld : Nat) : State := (s.addSat F.QUEUE_DB_BAD_CNT_count 0 1).raiseD Ev.DOORBELL_BAD ld

/-- Bits of a doorbell value that must be zero (R515): all but queue id and index, and the generation of an abort. -/
def bellReserved (off v : Nat) : Nat :=
  bits v 31 16 + bits v 63 56 + (if off = 0x18 then 0 else bits v 55 48)

/-- Submission tail: the queue manager may fetch tickets up to it (R508, R516, R517). -/
def State.bellTail (s : State) (ld id : Nat) (q : Queue) (idx : Nat) : State :=
  let held := (q.subTail + q.depth - q.subHead) % q.depth
  let adv := (idx + q.depth - q.subTail) % q.depth
  if q.depth ≤ held + adv then s.bellBad ld else s.setQueue ld id { q with subTail := idx }

/-- Completion head: the slots of the completions it passes become FREE (R510, R517). -/
def State.bellCpl (s : State) (ld id : Nat) (q : Queue) (idx : Nat) : State :=
  let adv := (idx + q.depth - q.cplHead) % q.depth
  if q.count .written < adv then s.bellBad ld
  else
    let slots := q.slots.map (fun p =>
      if p.2.state == .written && decide ((p.2.cpl + q.depth - q.cplHead) % q.depth < adv) then
        (p.1, { p.2 with state := .free }) else p)
    s.setQueue ld id { q with cplHead := idx, slots := slots }

/-- Note head: note entries become free, and held abort results are written, lowest slot first (R514, R517). -/
def State.bellNote (s : State) (ld id : Nat) (q : Queue) (idx : Nat) : State :=
  let adv := (idx + q.depth - q.noteHead) % q.depth
  if q.noteCount < adv then s.bellBad ld
  else
    let s1 := s.setQueue ld id { q with noteHead := idx, noteCount := q.noteCount - adv }
    (q.slots.filter (fun p => p.2.held.isSome)).foldl (fun st p =>
      match st.queue ld id, p.2.held with
      | some y, some h =>
        if y.noteFree then
          (st.setQueue ld id (y.setSlot p.1 { y.slot p.1 with held := none })).postNote ld id p.1 (h % 256) 0 (h / 256) 1
        else st.raise Ev.NOTE_RING_FULL
      | _, _ => st) s1

/-- Abort, decided against the slot as it stands (R511, R521, R522). -/
def State.bellAbort (s : State) (ld id : Nat) (q : Queue) (slot gen : Nat) : State :=
  let x := q.slot slot
  if x.gen ≠ gen then (s.staleTicket).abortNote ld id slot gen St.STALE_TICKET
  else if x.aborted && x.state != .free then s.abortNote ld id slot gen St.ALREADY_DONE
  else match x.state with
    | .free => s.abortNote ld id slot gen St.STALE_TICKET
    | .written => s.abortNote ld id slot gen St.ALREADY_DONE
    | .admitted =>
      ((s.setQueue ld id (q.setSlot slot { x with aborted := true })).postCompletion ld id slot 0 St.ABORTED).abortNote ld
        id slot gen St.ABORTED
    | .running =>
      let s1 := s.setQueue ld id (q.setSlot slot { x with aborted := true })
      match s1.scr.ctxs.find? (fun p => p.2.ld == ld && p.2.queue == id && p.2.slot == slot) with
      | some (k, _) => s1.endCtx k St.ABORTED true false
      | none => s1

/-- One doorbell store (R515 to R517). The fetches that R516 puts before an abort are `fetchAll`'s. -/
def State.bell (s : State) (fetchAll : State → Nat → Nat → State) (b : Bell) : State :=
  let id := bits b.value 47 32
  let idx := bits b.value 15 0
  if !b.wide || !([0, 8, 0x10, 0x18].contains b.off) || bellReserved b.off b.value != 0 then s.bellBad b.ld
  else match s.queue b.ld id with
    | none => s.bellBad b.ld
    | some q =>
      if q.depth ≤ idx then s.bellBad b.ld
      else if b.off = 0 then s.bellTail b.ld id q idx
      else if b.off = 8 then s.bellCpl b.ld id q idx
      else if b.off = 0x10 then s.bellNote b.ld id q idx
      else
        let s1 := fetchAll s b.ld id
        match s1.queue b.ld id with
        | some q1 => s1.bellAbort b.ld id q1 idx (bits b.value 55 48)
        | none => s1

/-! ### Fetching and admission (R509, R516, R518, R520) -/

/-- The ticket at the head of a submission ring. -/
def State.headTicket (s : State) (ld : Nat) (q : Queue) : Line :=
  lineOfBytes (memReadN 0 s.que.window (ld * 2 ^ 28 + q.sub + 64 * q.subHead) 64)

/-- The status with which a fetched ticket completes at once, if it does (R507, R509, R520). -/
def State.ticketStatus (s : State) (ld id : Nat) (t : Line) : Option Nat :=
  let op := tk t 0 1
  let script := s.script ld (tk t 8 2)
  if (op ≠ 1 ∧ op ≠ 2) ∨ 3 < tk t 1 1 ∨ tk t 10 6 ≠ 0 ∨ tk t 26 6 ≠ 0 ∨ tk t 2 2 ≠ id ∨ 3 < tk t 7 1 then some St.ILLEGAL
  else if script.isNone then some St.ILLEGAL
  else if s.fenced then some St.FENCED
  else if op = 2 then some St.DONE
  else none

/-- Fetch one ticket of a queue and check it (R509). -/
def State.fetchTicket (s : State) (ld id : Nat) : State :=
  match s.queue ld id with
  | none => s
  | some q =>
    let t := s.headTicket ld q
    let slot := tk t 4 2
    let gen := tk t 6 1
    let q1 := { q with subHead := (q.subHead + 1) % q.depth }
    let x := q1.slot slot
    if q.depth ≤ slot ∨ x.state ≠ .free ∨ gen = x.gen then (s.setQueue ld id q1).staleTicket
    else
      let y : QSlot := { x with state := .admitted, gen := gen, ticket := t, aborted := false, order := s.que.nextOrder }
      let s1 := s.setQueue ld id (q1.setSlot slot y)
      let s2 := { s1 with que := { s1.que with nextOrder := s1.que.nextOrder + 1 } }
      match s2.ticketStatus ld id t with
      | some st => s2.postCompletion ld id slot 0 st
      | none => s2.queueRegs ld

/-- Tickets waiting in a queue's ring. -/
def Queue.waiting (q : Queue) : Nat := if q.deleting.isSome then 0 else (q.subTail + q.depth - q.subHead) % q.depth

/-- Fetch every ticket covered by the submission tails (R516). -/
def State.fetchAll (s : State) (ld id : Nat) : State :=
  match s.queue ld id with
  | some q => (upto q.waiting).foldl (fun st _ => st.fetchTicket ld id) s
  | none => s

/-- Act on the doorbells accepted so far, in their order (R516). -/
def State.runBells (s : State) : State :=
  s.que.bells.foldl (fun st b => st.bell State.fetchAll b) { s with que := { s.que with bells := [] } }

/-- Act on a doorbell behind those accepted before it. -/
def State.ring (s : State) (ld off value : Nat) : State :=
  let b : Bell := { ld := ld, off := off, wide := true, value := value % 2 ^ 64 }
  ({ s with que := { s.que with bells := s.que.bells ++ [b] } }).runBells

/-- SUBMISSION_TAIL (R516). -/
def execSubmissionTail (ld value : Nat) (s : State) : Res := .next (s.ring (ld % 128) 0 value)
/-- COMPLETION_HEAD (R510). -/
def execCompletionHead (ld value : Nat) (s : State) : Res := .next (s.ring (ld % 128) 8 value)
/-- NOTE_HEAD (R514). -/
def execNoteHead (ld value : Nat) (s : State) : Res := .next (s.ring (ld % 128) 0x10 value)
/-- ABORT (R521 to R523). -/
def execAbort (ld value : Nat) (s : State) : Res := .next (s.ring (ld % 128) 0x18 value).settle

/-- The effective priority of the ticket at a queue's head (R518). -/
def State.effPrio (s : State) (ld : Nat) (q : Queue) : Nat := max q.prio (tk (s.headTicket ld q) 7 1 % 4)

/-- The weight of an effective priority (R518, R527); 0 is taken as 1. -/
def State.admitWeight (s : State) (p : Nat) : Nat :=
  max 1 (bits (s.liveWord .QUEUE_ADMIT_CFG 0).toNat (31 - 4 * p) (28 - 4 * p))

/-- Queues that a fetch may be granted to (R518), as keys with their effective priority. -/
def State.fetchable (s : State) : List (Nat × Nat) :=
  if 2048 ≤ s.allLive then []
  else
    (s.que.pairs.filter (fun p => decide (0 < p.2.waiting) &&
      decide (s.ldLive (p.1 / 4096) < s.fld F.QUEUE_ADMIT_CFG_ld_max 0))).map
      (fun p => (p.1, s.effPrio (p.1 / 4096) p.2))

/-- The first of a rising list after `last`, else its first. -/
def nextAfter (l : List Nat) (last : Nat) : Option Nat :=
  match l.find? (fun x => decide (last < x)) with
  | some x => some x
  | none => l.head?

/-- TICKET_FETCH (R509, R518): the next grant of the weighted round robin fetches one ticket. -/
def execTicketFetch (s0 : State) : Res :=
  let s := s0.runBells
  let fs := s.fetchable
  let ps := (upto 4).filter (fun p => fs.any (fun f => f.2 == p))
  let left (g : List (Nat × Nat)) (p : Nat) : Nat := mapGet 0 g p
  let (grants, pick) := match ps.find? (fun p => decide (0 < left s.que.grants p)) with
    | some p => (s.que.grants, some p)
    | none => ((upto 4).map (fun p => (p, s.admitWeight p)), ps.head?)
  .next (match pick with
    | none => s
    | some p =>
      let mine := (fs.filter (fun f => f.2 == p)).map (fun f => f.1)
      let lds := mine.foldl (fun a k => setIns a (k / 4096)) []
      match nextAfter lds (mapGet 127 s.que.lastLd p) with
      | none => s
      | some ld =>
        let qs := mine.filter (fun k => k / 4096 == ld)
        match nextAfter qs (mapGet (ld * 4096 + 4095) s.que.lastQueue (p * 128 + ld)) with
        | none => s
        | some k =>
          let s1 := { s with que := { s.que with grants := mapSet grants p (left grants p - 1),
                                                  lastLd := mapSet s.que.lastLd p ld,
                                                  lastQueue := mapSet s.que.lastQueue (p * 128 + ld) k } }
          s1.fetchTicket ld (k % 4096))

/-- COALESCE_TIMEOUT (R525): vectors whose time has passed since their first unsignalled entry fire. -/
def execCoalesceTimeout (s : State) : Res :=
  .next (s.que.coal.foldl (fun st p =>
    let time := bits (st.liveWord .QUEUE_COAL p.1).toNat 7 0
    if st.due p.2.2 time then
      ({ st with que := { st.que with coal := mapDel st.que.coal p.1 } }).send (.msix (p.1 / 64) (p.1 % 64))
    else st) s)

/-! ### Assigning contexts (R416, R417, R519) -/

/-- A scribe takes new contexts: IN_SERVICE, in a position, not draining (R413, R457). -/
def State.scribeOpen (s : State) (e : Nat) : Bool :=
  s.fld F.SCR_STAT_state e == 1 && s.fillsPosition e && !s.flag F.SCR_CTL_drain e

/-- Free contexts of a scribe. -/
def State.freeCtxs (s : State) (e : Nat) : Nat := 16 - (s.ctxsOf e).length

/-- A scribe can take a context of a script (R416). -/
def State.scribeFits (s : State) (e : Nat) (x : Script) : Bool :=
  s.scribeOpen e && decide (0 < s.freeCtxs e) && (firstFit (s.inkGaps e) (x.inkFoot / 4096)).isSome

/-- The element of a list with the greatest measure, the first on ties. -/
def bestOf (l : List Nat) (f : Nat → Nat) : Option Nat :=
  l.foldl (fun a x => match a with
    | some y => if f y < f x then some x else a
    | none => some x) none

/-- The scribe for a ticket of a script (R519): the cluster with the most free contexts among those that can take it, then
the scribe with the most (the lowest index on ties, log entry 22). -/
def State.chooseScribe (s : State) (x : Script) : Option Nat :=
  let able := (upto 36).filter (fun e => (mapGet? x.bases (e / 9)).isSome && s.scribeFits e x)
  let free (k : Nat) : Nat := (upto 9).foldl (fun a i => if s.scribeOpen (9 * k + i) then a + s.freeCtxs (9 * k + i) else a) 0
  match bestOf ((upto 4).filter (fun k => able.any (fun e => e / 9 == k))) free with
  | some k => bestOf (able.filter (fun e => e / 9 == k)) s.freeCtxs
  | none => none

/-- ADMITTED tickets in effective priority, oldest first: queue key and slot (R519). -/
def State.admittedOrder (s : State) : List (Nat × Nat) :=
  let all := s.que.pairs.flatMap (fun p => (p.2.slots.filter (fun x => x.2.state == .admitted)).map (fun x =>
    (max p.2.prio (tk x.2.ticket 7 1 % 4) * 2 ^ 64 + x.2.order, (p.1, x.1))))
  (all.foldl (fun m e => mapSet m e.1 e.2) ([] : List (Nat × (Nat × Nat)))).map (fun e => e.2)

/-- The identity of a logical device's tickets (R428, R502); 256, which has no windows, where none matches. -/
def State.ldIdentity (s : State) (ld : Nat) : Nat :=
  if s.linkMode (ld / 16) = 2 then s.fld F.QUEUE_GFD_MAP_identity ld
  else (s.matchIdentity (ld / 16) (ld % 16)).getD 256

/-- Fill the new context's inkwell allotment: zero, then the INK_DATA sections (R417, R431). -/
def State.fillInk (s : State) (e base : Nat) (x : Script) (share : Nat) : State :=
  let a := e * 524288 + base
  let z := memClear s.scr.inkwell a (a + x.inkFoot)
  let ink := (x.sections.filter (fun y => y.kind == 4)).foldl (fun m y =>
    memWriteN 0 m (a + y.place) (memReadN 0 s.scr.reservoir (e / 9 * 8388608 + share + y.copy) y.size)) z
  { s with scr := { s.scr with inkwell := ink } }

/-- Start a ticket on a scribe (R400, R416, R417, R429, R442). -/
def State.startCtx (s : State) (e ld id slot : Nat) (q : Queue) (x : Script) : State :=
  match (upto 16).find? (fun c => (s.ctx (e * 16 + c)).isNone), firstFit (s.inkGaps e) (x.inkFoot / 4096) with
  | some c, some b =>
    let k := e * 16 + c
    let y := q.slot slot
    let t := y.ticket
    let ident := s.ldIdentity ld
    let cx : Ctx := { x := [], v := [], p := [], pc := 2 ^ 60 + x.entry, win := tk t 24 2, cause := 0, epc := 0,
                      handler := false, sealOpen := false, sealLines := [], sealBuf := [], ops := [], stores := [],
                      block := .none, inkBase := b * 4096, script := x.id, ld := ld, queue := id, slot := slot,
                      gen := y.gen, ticket := t, ident := ident, desc := [], abortNote := false, silent := false }
    let s1 := (s.setQueue ld id (q.setSlot slot { y with state := .running })).fillInk e (b * 4096) x
      (mapGet 0 x.bases (e / 9))
    let s2 := (s1.putCtx k cx).queueRegs ld
    let s3 := if bitB (tk t 1 1) 1 then s2.startRun k (tk t 32 8) ident (tk t 24 2) else s2
    if x.damaged.contains (e / 9) then s3.endCtx k St.ENGINE_FAULT false false else s3
  | _, _ => s

/-- CONTEXT_START (R416, R519): the first ADMITTED ticket, in effective priority and age, that a scribe can take. -/
def execContextStart (s : State) : Res :=
  let pick := s.admittedOrder.findSome? (fun a =>
    let ld := a.1 / 4096
    match s.queue ld (a.1 % 4096) with
    | none => none
    | some q => match s.script ld (tk (q.slot a.2).ticket 8 2) with
      | some x => (s.chooseScribe x).map (fun e => (a, e, q, x))
      | none => none)
  .next (match pick with
    | some (a, e, q, x) => (s.startCtx e (a.1 / 4096) (a.1 % 4096) a.2 q x).settle
    | none => s)

/-! ### Scribes in and out of service (R412 to R415) -/

/-- SCRIBE_FAILED (R414, R415, R441). -/
def execScribeFailed (e : Nat) (s : State) : Res :=
  .next (
    if 36 ≤ e ∨ s.fld F.SCR_STAT_state e ≠ 1 then s
    else
      let k := e / 9
      let s0 : State := match s.scr.swap with
        | some (x, _, _) => if x = e then s.swapCancel St.ENGINE_FAULT else s
        | none => s
      let s1 := ((s0.setFld F.SCR_STAT_state e 2).raiseD Ev.SCRIBE_FAILED e)
      let s2 := (s1.ctxsOf e).foldl (fun st p =>
        (st.faultRecord p.1 0 St.ENGINE_FAULT p.2.pc).endCtx p.1 St.ENGINE_FAULT false false) s1
      let sp := s2.fld F.SCL_STAT_spare k
      let s3 := if sp < 9 then
          (((s2.zeroInk (9 * k + sp)).setFld F.SCR_STAT_state (9 * k + sp) 1).mapReplace k (e % 9) sp).raiseD
            Ev.SPARE_IN_SERVICE (9 * k + sp)
        else (s2.mapReplace k (e % 9) 0xF).raiseD Ev.SPARE_EXHAUSTED k
      (s3.clusterRegs k).settle)

/-! ### Scripts (R430 to R434, R442) -/

/-- The parsed sections of an image. -/
def imageSections (img : List Byte) (n : Nat) : List Section :=
  (upto n).map (fun i =>
    let e := img.drop (64 + 16 * i)
    { kind := leNat (e.take 1), place := leNat ((e.drop 4).take 4), size := leNat ((e.drop 8).take 4),
      copy := leNat ((e.drop 12).take 4) })

/-- R432 for a whole image. -/
def scriptFormOk (img : List Byte) (len mask : Nat) : Bool :=
  let f (o n : Nat) : Nat := leNat ((img.drop o).take n)
  let n := f 5 1
  let res := f 8 4
  let ink := f 12 4
  let secs := imageSections img n
  let inRes (x : Section) : Bool := decide (x.kind ≤ 3)
  let crc := crc32c (img.take 60 ++ leBytes 4 0 ++ img.drop 64)
  let rsv := (upto n).all (fun i => leNat (((img.drop (64 + 16 * i + 1))).take 3) == 0)
  decide (64 ≤ img.length) && f 0 4 == 0x534C4F42 && f 4 1 == 1 && decide (1 ≤ n) && decide (n ≤ 16) && f 6 2 == 0 &&
    f 24 32 == 0 && f 56 4 == len && decide (len ≤ 16777216) && f 60 4 == crc && rsv &&
    res % 4096 == 0 && decide (4096 ≤ res) && decide (res ≤ 8388608) &&
    ink % 4096 == 0 && decide (4096 ≤ ink) && decide (ink ≤ 524288) && decide (64 + 16 * n ≤ len) &&
    secs.all (fun x => decide (1 ≤ x.kind) && decide (x.kind ≤ 5) && decide (0 < x.size) &&
      decide (x.place + x.size ≤ (if inRes x then res else ink)) && (x.kind != 1 || x.place % 4 == 0) &&
      (if x.kind = 5 then x.copy == 0 else decide (x.copy + x.size ≤ len))) &&
    (upto n).all (fun i => (upto i).all (fun j => match secs[i]?, secs[j]? with
      | some a, some b => (inRes a != inRes b) || !areasMeet a.place a.size b.place b.size
      | _, _ => true)) &&
    f 16 4 % 4 == 0 && f 20 4 % 4 == 0 &&
    secs.any (fun x => x.kind == 1 && decide (x.place ≤ f 16 4) && decide (f 16 4 < x.place + x.size)) &&
    (f 20 4 == 0 || secs.any (fun x => x.kind == 1 && decide (x.place ≤ f 20 4) && decide (f 20 4 < x.place + x.size))) &&
    decide (0 < mask) && decide (mask < 16)

/-- Free reservoir ranges of a cluster in 4 KiB units. -/
def State.resGaps (s : State) (k : Nat) : List (Nat × Nat) :=
  gapsFrom 0 2048 (s.scr.scripts.foldl (fun m x => match mapGet? x.bases k with
    | some b => mapSet m (b / 4096) (x.size / 4096)
    | none => m) [])

/-- Refresh the reservoir fields of a cluster's registers (R457). -/
def State.reservoirRegs (s : State) (k : Nat) : State :=
  let gs := s.resGaps k
  let n := (s.scr.scripts.filter (fun x => (mapGet? x.bases k).isSome)).length
  ((s.setFld F.SCL_STAT_free_run k (longestGap gs)).setFld F.SCL_STAT_free k (gs.foldl (fun a g => a + g.2) 0)).setFld
    F.SCL_SCRIPTS_loaded k n

/-- Lay an image into one cluster at `base`: its sections, and INK_DATA's pristine copies behind the footprint (R431, R433). -/
def layImage (mem : List Host.Cell) (k base size : Nat) (img : List Byte) (raw placed : List Section) : List Host.Cell :=
  let a := k * 8388608 + base
  (List.zip raw placed).foldl (fun m p =>
    let bs := (img.drop p.1.copy).take p.1.size
    if p.1.kind ≤ 3 then memWriteN 0 m (a + p.1.place) bs
    else if p.1.kind = 4 then memWriteN 0 m (a + p.2.copy) bs
    else m) (memClear mem a (a + size))

/-- Give every INK_DATA section the place of its pristine copy behind the footprint. -/
def placeCopies : Nat → List Section → List Section
  | _, [] => []
  | at_, x :: t => if x.kind = 4 then { x with copy := at_ } :: placeCopies (at_ + x.size) t
                   else { x with copy := 0 } :: placeCopies at_ t

/-- The bytes that a script takes of a reservoir: its footprint and the pristine copies in whole pages (R433). -/
def scriptSize (img : List Byte) : Nat :=
  let raw := imageSections img (leNat ((img.drop 5).take 1))
  let data := raw.foldl (fun a x => if x.kind = 4 then a + x.size else a) 0
  leNat ((img.drop 8).take 4) + (data + 4095) / 4096 * 4096

/-- Lay a script into its clusters at `bases` and enter it (R431, R433). -/
def State.enterScript (s : State) (ld id : Nat) (img : List Byte) (bases : List (Nat × Nat)) : State :=
  let raw := imageSections img (leNat ((img.drop 5).take 1))
  let res := leNat ((img.drop 8).take 4)
  let secs := placeCopies res raw
  let x : Script := { ld := ld, id := id, bases := bases, size := scriptSize img, resFoot := res,
                      inkFoot := leNat ((img.drop 12).take 4), entry := leNat ((img.drop 16).take 4),
                      handler := leNat ((img.drop 20).take 4), sections := secs, damaged := [] }
  let mem := bases.foldl (fun m p => layImage m p.1 p.2 (scriptSize img) img raw secs) s.scr.reservoir
  { s with scr := { s.scr with scripts := s.scr.scripts ++ [x], reservoir := mem } }

/-- SCRIPT_LOAD's checks in their order, and its effect (R129, R432, R433). -/
def State.loadScript (s : State) (mb ld : Nat) (input : List Byte) : State :=
  let id := leAt input 0 2
  let len := leAt input 4 4
  let dpa := leAt input 8 8
  let gs := (upto (len / 2 ^ 28 + 2)).map (fun i => min (dpa + i * 2 ^ 28) (dpa + len - 1))
  let img := s.dpaBytes dpa len
  let ks := (upto 4).filter (fun k => bitB (leAt input 2 1) k)
  if len = 0 ∨ 16777216 < len then s.answer mb 0xC01D St.ILLEGAL []
  else if !(gs.all (fun a => (s.windowFor ((s.mbIdentity mb).getD 256) a 62).isSome && (s.regionAt a).isSome)) then
    s.answer mb 0xC01D St.ACCESS_DENIED []
  else if !scriptFormOk img len (leAt input 2 1) then s.answer mb 0xC01D St.ILLEGAL []
  else if (s.script ld id).isSome then s.answer mb 0xC01D St.CONFLICT []
  else
    let spots := ks.map (fun k => (k, firstFit (s.resGaps k) (scriptSize img / 4096)))
    if spots.any (fun p => p.2.isNone || decide (64 ≤ s.fld F.SCL_SCRIPTS_loaded p.1)) then
      s.answer mb 0xC01D St.QUEUE_FULL []
    else
      let s1 := s.enterScript ld id img (spots.map (fun p => (p.1, p.2.getD 0 * 4096)))
      ((ks.foldl (fun st k => st.reservoirRegs k) s1).raiseD Ev.SCRIPT_LOADED id).answer mb 0xC01D St.DONE []

/-- SCRIPT_LOAD (R129, R432, R433). -/
def execScriptLoad (mb : Nat) (input : List Byte) (s : State) : Res :=
  .next (s.vendor mb 0xC01D 16 false true input (fun s =>
    match s.mbLd mb with
    | none => s.answer mb 0xC01D St.QUEUE_FULL []
    | some ld => s.loadScript mb ld input))

/-- A ticket of the script is ADMITTED or RUNNING (R128). -/
def State.scriptUsed (s : State) (ld id : Nat) : Bool :=
  (s.queuesOf ld).any (fun p => p.2.slots.any (fun x =>
    (x.2.state == .admitted || x.2.state == .running) && tk x.2.ticket 8 2 == id))

/-- Take a script out of every cluster. -/
def State.unloadScript (s : State) (ld id : Nat) : State :=
  let s1 := { s with scr := { s.scr with scripts := s.scr.scripts.filter (fun x => !(x.ld == ld && x.id == id)) } }
  (upto 4).foldl (fun st k => st.reservoirRegs k) s1

/-- SCRIPT_UNLOAD (R128, R431): an id that is not loaded gives ILLEGAL (log entry 23). -/
def execScriptUnload (mb : Nat) (input : List Byte) (s : State) : Res :=
  .next (s.vendor mb 0xC01E 2 false false input (fun s =>
    let id := leAt input 0 2
    match s.mbLd mb with
    | none => s.answer mb 0xC01E St.QUEUE_FULL []
    | some ld =>
      if (s.script ld id).isNone then s.answer mb 0xC01E St.ILLEGAL []
      else if s.scriptUsed ld id then s.answer mb 0xC01E St.CONFLICT []
      else ((s.unloadScript ld id).raiseD Ev.SCRIPT_UNLOADED id).answer mb 0xC01E St.DONE []))

end Sys2Proof.Machine
end

