-- ==== Sys2Proof/Machine/Reads.lean ====
section
/-! DEFINITION. Folio reads from flash and what happens when they fail (R311 to R317, R343 to R345, R358, R361, R390 to
R392, R549, R689). -/

set_option Elab.async false

namespace Sys2Proof.Machine

/-- A read leaves the list of reads in flight. -/
def State.dropRead (s : State) (r : ReadJob) : State :=
  { s with flash := { s.flash with reads := s.flash.reads.filter (fun x => !(x.folio == r.folio && x.cls == r.cls)) } }

/-- The staging of a folio ends at every source (R392): LOST, its waiters answered by the pass that follows. -/
def State.stageLost (s : State) (f : Nat) : State :=
  let s1 := s.markLost f true
  let s2 := s1.setFolio f { s1.folio f with state := .absent, frame := 0 }
  let cues := match s2.entryOf f with
    | some e => e.cues
    | none => []
  let s3 := (s2.closeEntry f).cueResult cues St.LOST
  let s4 := { s3 with flash := { s3.flash with repairs := setIns s3.flash.repairs f } }
  (s4.addSat F.STAGE_FAIL_CNT_lost 0 1).raiseD Ev.STAGE_LOST (f * 65536)

/-- Set the step of R390 that a staging has reached. -/
def State.stagePhase (s : State) (f phase : Nat) : State :=
  match s.entryOf f with
  | some e => s.setEntry { e with phase := phase }
  | none => s

/-- The contents came: to a folio being replaced, to a relocation, or to a staging. -/
def State.readGood (s : State) (r : ReadJob) (rebuilt : Bool) : State :=
  let f := r.folio
  let x := s.folio f
  let (cells, key) := match mapGet? s.flash.store ((r.quire * 16 + r.leaf) * 4 + r.slot) with
    | some ff => (ff.cells, ff.key)
    | none => ([], s.keyOf f)
  if 8 ≤ r.cls then
    if x.quire = r.quire ∧ x.leaf = r.leaf ∧ x.slot = r.slot then
      { s with flash := { s.flash with relocating := s.flash.relocating ++ [s.moveSlot f key cells] } }
    else s
  else if s.inRepair f then s.finishReplace f cells
  else if x.state == .staging then
    let s1 := if rebuilt then
        ((s.stagePhase f 1).addSat F.STAGE_FAIL_CNT_reconstructed 0 1).raiseD Ev.STAGE_RECONSTRUCTED (f * 65536) else s
    s1.fillFolio f cells
  else s

/-- No flash source gives the contents (R195, R361, R390). -/
def State.readLost (s : State) (r : ReadJob) : State :=
  let f := r.folio
  let x := s.folio f
  if r.cls = 8 then s
  else if 8 < r.cls then
    if x.state == .absent && !x.lost then
      let s1 := s.markLost f true
      if s1.mayFetch f then s1.fetchFolio f .repair
      else { s1 with flash := { s1.flash with repairs := setIns s1.flash.repairs f } }
    else s
  else if s.inRepair f then
    if s.mayFetch f then s.fetchFolio f .rebuild else s.loseInk f
  else if x.state == .staging then
    if s.mayFetch f then (s.stagePhase f 2).fetchFolio f .staging else s.stageLost f
  else s

/-- The event of a finding (R314, R682, R689). -/
def readEndEvent (e : ReadEnd) : Option EvId :=
  match e with
  | .good => none
  | .uncorrectable => some Ev.LEAF_UNCORRECTABLE
  | .badCrc => some Ev.FOLIO_CHECK_CRC
  | .badGen => some Ev.FOLIO_CHECK_GEN
  | .badDpa => some Ev.FOLIO_CHECK_DPA
  | .dmaHalt => some Ev.DMA_CHANNEL_HALT

/-- Raise the event of a finding. -/
def State.readEvent (s : State) (f : Nat) (e : ReadEnd) : State :=
  match readEndEvent e with
  | some ev => s.raiseD ev (f * 65536)
  | none => s

/-- Missing members of the read's quire, the failed data leaf counted once (R311, R390). -/
def State.readMissing (s : State) (r : ReadJob) : Nat :=
  match s.groupOf (r.quire / 1024) with
  | some g => s.missing g + (if s.leafMissing r.quire r.leaf then 0 else 1)
  | none => 1

/-- Reconstruct from the other members, once (R311, R313, R390): `recon` tells how the reconstructed folio checks. -/
def State.reconstruct (s : State) (r : ReadJob) (recon : ReadEnd) : State :=
  if 3 ≤ s.readMissing r then s.readLost r
  else if recon = .good then s.readGood r true
  else (s.readEvent r.folio recon).readLost r

/-- A read of a class 0 to 6 or 14 suspends the program or erase of its die, as often as the bound in force when that began
allows (R87, R316, R317). -/
def State.suspend (s : State) (r : ReadJob) : State :=
  let k := s.dieKey (s.readLeaf r)
  match mapGet? s.flash.susp k with
  | some (n, most) =>
    if (r.cls ≤ 6 ∨ r.cls = 14) ∧ n < most then
      let s1 := { s with flash := { s.flash with susp := mapSet s.flash.susp k (n + 1, most) } }
      if n + 1 = most then s1.raiseD Ev.SUSPEND_EXHAUSTED k else s1
    else s
  | none => s

/-- The read of a folio for a class that is in flight: one whose NAND command has been issued. -/
def State.readOf (s : State) (folio cls : Nat) : Option ReadJob :=
  s.flash.reads.find? (fun r => r.folio == folio && r.cls == cls && r.issued)

/-- LEAF_READ_DONE (R314, R358, R390, R688): a folio read ends as `out`; where it fails, the reconstruction ends as `recon`.
`fixed` code words were corrected; `suspended` tells that an operation of the die was suspended for it. -/
def execLeafReadDone (folio cls : Nat) (out recon : ReadEnd) (fixed : Nat) (suspended : Bool) (s : State) : Res :=
  .next (match s.readOf folio cls with
    | none => s
    | some r =>
      let a := s.readLeaf r
      let c := 2 * adSlot a + bits a 27 27
      let s1 := (if suspended then s.suspend r else s).dropRead r
      if r.missing || s.leafMissing r.quire r.leaf then (s1.reconstruct r recon).flashRegs.settle
      else
        let s2 := (s1.addSat F.FLASH_LDPC_CNT_corrected c fixed).readEvent folio out
        if out = .good then (s2.readGood r false).settle
        else
          let s3 := if out = .uncorrectable then (s2.addSat F.FLASH_FAIL_CNT_uncorrectable c 1).slowEvent a else s2
          (s3.reconstruct r recon).flashRegs.settle)

/-- SLOW_READ_ABANDON (R315, R343, R344, R345): a read of a class other than 9 and 10 that has not completed within
the `QUIRE_SLOW_TIMEOUT` of its issue (R87) is abandoned, and its leaf is treated as a missing member. -/
def execSlowReadAbandon (folio cls : Nat) (recon : ReadEnd) (s : State) : Res :=
  .next (match s.readOf folio cls with
    | none => s
    | some r =>
      if cls = 9 ∨ cls = 10 then s
      else if s.due r.since (r.slowMs * 1000) then
        ((((s.dropRead r).slowEvent (s.readLeaf r)).reconstruct r recon).flashRegs).settle
      else s)

end Sys2Proof.Machine
end

