-- ==== Sys2Proof/Machine/Slots.lean ====
section
/-! DEFINITION. Cartridges in and out (R289, R290, R348 to R351, R371 to R378): insertion, removal, failure, the slot LEDs. -/

set_option Elab.async false

namespace Sys2Proof.Machine

/-- The number of ones among the low 32 bits. -/
def ones32 (m : Nat) : Nat := popN 32 m

/-- R290: a cartridge that may be admitted. -/
def State.cartGood (s : State) (c : Cart) : Bool :=
  c.good && decide (1 ≤ c.dies) && decide (c.dies ≤ 16) && decide (1 ≤ c.cls) && decide (c.cls ≤ 3) &&
    (match s.flash.population with
     | some d => c.dies == d
     | none => true) && decide (ones32 c.mask < 4)

/-- Refuse a cartridge (R290): the slot is REFUSED and unpowered. -/
def State.cartRefuse (s : State) (slot : Nat) : State := (s.setSlot slot 2).raiseD Ev.CART_MISMATCH slot

/-- The population is fixed, and with it the host-visible capacity (R208, R290). -/
def State.fixPopulation (s : State) (d : Nat) : State :=
  ({ s with flash := { s.flash with population := some d } }).setFld F.REGION_CAP_granules 0 (d * 12 * 10 ^ 12 / 268435456)

/-- Step 4 of insertion: power the slot. -/
def State.insertPower (s : State) (slot : Nat) : State := s.slotPwr slot true

/-- Steps 2 and 3 of insertion, when the SLOT_ADMIT job runs (R290, R371). -/
def State.admitExamine (s : State) (slot : Nat) : State :=
  let c := s.cart slot
  if s.slotState slot != 1 then s.endSlotJobs slot St.ABORTED
  else if s.cartGood c then
    let s1 := if s.flash.population.isNone then s.fixPopulation c.dies else s
    if c.go || s1.flag F.QUIRE_REBUILD_CFG_auto_admit 0 then s1.insertPower slot else s1
  else (s.cartRefuse slot).endSlotJobs slot St.CONFLICT

/-- CART_PRESENT (step 1 of insertion, R289, R377): a cartridge stands in an EMPTY slot; its record and mask as read. -/
def execCartPresent (slot dies cls serial mask : Nat) (recordGood : Bool) (s : State) : Res :=
  .next (
    if decide (slot < 16) && s.slotState slot == 0 && decide (8 ≤ s.pwr.step) then
      let c : Cart := { Cart.init with dies := dies, cls := cls, serial := serial, mask := mask % 2 ^ 32, good := recordGood }
      let s1 := ((s.setFlag F.QUIRE_SLOT_STAT_prsnt slot true).setCart slot c).setSlot slot 1
      let s2 := (s1.raiseD Ev.CART_PRESENT slot).ownJob 0x07 slot 0 0
      match s2.maint.jobs.find? (fun j => j.act == 7 && j.target == slot && j.state == 0) with
      | some j => if s2.mayStart j then (s2.markStarted j).admitExamine slot else s2
      | none => s2
    else s)

/-- The 2-byte payload of SLOT_CONTROL (R128). -/
def State.slotControl (s : State) (mb action : Nat) (input : List Byte) (body : State → Nat → State) : State :=
  s.vendor mb 0xC00F 2 true false input (fun s =>
    if leAt input 1 1 = action ∧ leAt input 0 1 < 16 then body s (leAt input 0 1) else s.answer mb 0xC00F St.ILLEGAL [])

/-- SLOT_POWER_ON: SLOT_CONTROL action 1 (step 3 of the insertion procedure before R375). -/
def execSlotPowerOn (mb : Nat) (input : List Byte) (s : State) : Res :=
  .next (s.slotControl mb 1 input (fun s slot =>
    if s.slotState slot = 1 then
      let s1 := s.setCart slot { s.cart slot with go := true }
      let s2 := if (s1.runningOn 7 slot).isSome && !s1.flag F.QUIRE_SLOT_STAT_pwr_en slot then s1.insertPower slot else s1
      s2.answer mb 0xC00F St.DONE []
    else s.answer mb 0xC00F St.ILLEGAL []))

/-- LED_LOCATE: SLOT_CONTROL action 2 (R378): the locate pattern for 60 s, wherever the state's pattern is off. -/
def execLedLocate (mb : Nat) (input : List Byte) (s : State) : Res :=
  .next (s.slotControl mb 2 input (fun s slot =>
    ((s.setCart slot { s.cart slot with locateUntil := s.clock + 60000000 }).slotLed slot).answer mb 0xC00F St.DONE []))

/-- LOCATE_EXPIRY (R378). -/
def execLocateExpiry (slot : Nat) (s : State) : Res :=
  .next (if decide (slot < 16) && decide ((s.cart slot).locateUntil ≤ s.clock) then s.slotLed slot else s)

/-- Mark the dies of a cartridge (R348, R371 step 5, R379): ABSENT beyond its dies, RETIRED where the mask has the bit or
the die did not answer, GOOD elsewhere. -/
def State.markDies (s : State) (slot answered : Nat) : State :=
  let mask := (s.cart slot).mask
  let d := s.dies
  let n := 2 * d
  let bad := (upto n).filter (fun i => bitB mask i || !bitB answered i)
  let s1 := (upto 32).foldl (fun st i =>
    let v := if n ≤ i then 2 * 2 ^ 30 else if bad.contains i then 2 ^ 30 + 3 * 2 ^ 28 else 0
    st.setLive .QUIRE_DIE_STAT (slot * 32 + i) v) s
  s1.setFld F.QUIRE_SLOT_STAT_retired slot bad.length

/-- The channels of a slot come up (R340, R342): false where one fails. -/
def State.initChannels (s : State) (slot answered fail : Nat) : State :=
  let d := s.dies
  (upto 2).foldl (fun st k =>
    let c := 2 * slot + k
    let pres := bits (answered >>> (k * d)) (d - 1) 0
    let st1 := st.setLive .FLASH_STAT c (pres * 2 ^ 16 + (st.cart slot).cls * 2 ^ 14 + (if bitB fail k then 0 else 2 ^ 13))
    if bitB fail k then st1.raise (Ev.FLASH_CH_FAIL c) else st1) s

/-- SLOT_PGOOD_ASSERTED (R377, step 5 of insertion): `answered` has a bit for each die index that answered; `fail` one for
each channel that failed initialization or training. -/
def execSlotPgoodAsserted (slot answered fail : Nat) (s : State) : Res :=
  .next (
    if decide (slot < 16) && s.slotState slot == 1 && s.flag F.QUIRE_SLOT_STAT_pwr_en slot &&
        !s.flag F.QUIRE_SLOT_STAT_pgood slot then
      let s1 := s.setFlag F.QUIRE_SLOT_STAT_pgood slot true
      let s2 := (s1.setCart slot { s1.cart slot with pwrSince := none }).initChannels slot answered fail
      if fail % 4 ≠ 0 then (s2.cartFail slot).settle
      else
        let s3 := s2.markDies slot answered
        if 4 ≤ s3.fld F.QUIRE_SLOT_STAT_retired slot then (s3.cartFail slot).settle else s3
    else s)

/-- Form the ring, the reserve members and the log block of a cartridge, all erased (step 6 of insertion, R328, R335,
R339): the shares of each die below its quire space. -/
def State.formSlot (s : State) (slot : Nat) : State :=
  let d := 2 * s.dies
  let s1 := s.setPermits (leafAddr slot 0 0 0) (2 ^ 17)
  let s2 := (upto d).foldl (fun st i =>
    let share := shareOf 64 d i + shareOf 16 d i + (if i = 0 ∧ slot % 2 = 0 then 1 else 0)
    let st1 := st.setDie slot i { DieBlocks.init with fresh := share }
    if st1.dieState slot i = 0 then (upto share).foldl (fun st b => st.eraseNow (st.addrOf slot i b)) st1 else st1) s1
  let rs := (upto 64).map (fun k => (k, s.addrOf slot (k % d) (k / d)))
  let s3 := rs.foldl (fun (st : State) p =>
    match st.flash.groups.find? (fun g => g.reserve && g.first == p.1) with
    | some g =>
      let keep := g.members.filter (fun a => adSlot a != slot)
      st.setGroup { g with members := keep.filter (fun a => decide (a < p.2)) ++ [p.2] ++
                                      keep.filter (fun a => decide (p.2 < a)) }
    | none =>
      let g : Group := { num := st.freeGroup, state := 0, width := 14, layout := 0, members := [p.2], serials := [],
                         next := 0, first := p.1, reserve := true, lostQuires := [] }
      { st with flash := { st.flash with groups := st.flash.groups ++ [g] } }) s2
  { s3 with flash := { s3.flash with ringNext := mapDel s3.flash.ringNext slot,
                                     ringErased := mapDel s3.flash.ringErased slot } }

/-- Steps 6 and 7 of insertion. -/
def State.admitSlot (s : State) (slot : Nat) : State :=
  let s1 := (s.formSlot slot).setSlot slot 3
  ((((s1.raiseD Ev.CART_ADMITTED slot).endSlotJobs slot St.DONE).jReplace).jSettled).widthUpdate

/-- CART_ADMITTED (R371 steps 6 and 7): a trained cartridge enters service. -/
def execCartAdmitted (slot : Nat) (s : State) : Res :=
  .next (
    if decide (slot < 16) && s.slotState slot == 1 && s.flag F.QUIRE_SLOT_STAT_pgood slot then (s.admitSlot slot).settle
    else s)

/-- CART_FAILED (R349, R350): 0 the cartridge was pulled, 1 SLOT_PGOOD fell, 2 or 3 the channel 0 or 1 of the slot failed. -/
def execCartFailed (slot cause : Nat) (s : State) : Res :=
  let st := s.slotState slot
  .next (
    if decide (slot < 16) && (st == 1 || st == 3 || st == 4) &&
        (cause != 1 || s.flag F.QUIRE_SLOT_STAT_pwr_en slot) then
      let s1 := if cause = 0 then s.setFlag F.QUIRE_SLOT_STAT_prsnt slot false
        else if cause = 2 ∨ cause = 3 then s.raise (Ev.FLASH_CH_FAIL (2 * slot + (cause - 2))) else s
      (s1.cartFail slot).settle
    else s)

/-- The slot leaves the strike reserve and its work (step 2 of removal): PREPARING. -/
def State.prepare (s : State) (slot : Nat) : State :=
  let s1 := (s.setSlot slot 4).truncateIf (fun _ => true)
  (s1.jLose (fun k _ => k == slot)).widthUpdate

/-- Step 3 of removal: the curtain permits the power-off once nothing open or unplaced is on the slot. -/
def State.prepareOff (s : State) (slot : Nat) : State :=
  if s.slotState slot == 4 && s.flag F.QUIRE_SLOT_STAT_pwr_en slot &&
      !(s.openGroups.any (fun g => g.members.any (fun a => adSlot a == slot))) &&
      !(s.flash.quires.any (fun q => match s.groupOf (q.quire / 1024) with
        | some g => g.members.any (fun a => adSlot a == slot)
        | none => false)) &&
      s.flash.journal.leaves.all (fun l => decide (3 ≤ (l.good.filter s.inService).length) ||
        (l.good.isEmpty && l.programming.isEmpty)) then
    s.slotPwr slot false
  else s

/-- The slot is REMOVABLE (step 4 of removal). -/
def State.slotRemovable (s : State) (slot : Nat) : State :=
  (((s.setFlag F.QUIRE_SLOT_STAT_pgood slot false).setSlot slot 5).raiseD Ev.CART_REMOVABLE slot).endSlotJobs slot St.DONE

/-- The SLOT_REMOVE job starts (R371, R372, R731). -/
def State.removeStart (s : State) (slot : Nat) : State :=
  let st := s.slotState slot
  if st = 6 then s.slotRemovable slot
  else if s.reshapeOn slot && (s.running 5).isSome then s.endSlotJobs slot St.CONFLICT
  else if st = 3 ∧ s.serviceSlots.length < 16 then s.endSlotJobs slot St.CONFLICT
  else if st = 3 then ((s.prepare slot).prepareOff slot).flashRegs
  else s.endSlotJobs slot St.ILLEGAL

/-- The status that a removal request gets at once (R371). -/
def State.removeStatus (s : State) (slot : Nat) : Nat :=
  let st := s.slotState slot
  if st = 6 then St.DONE
  else if (s.reshapeOn slot && (s.running 5).isSome) ∨ (st = 3 ∧ s.serviceSlots.length < 16) then St.CONFLICT
  else St.DONE

/-- CART_REMOVABLE (step 4 of removal): SLOT_PGOOD has deasserted after the power-off; a slot still PREPARING that the
curtain now lets go is powered off first. -/
def execCartRemovable (slot : Nat) (s : State) : Res :=
  .next (
    if decide (slot < 16) && s.slotState slot == 4 then
      if s.flag F.QUIRE_SLOT_STAT_pwr_en slot then s.prepareOff slot
      else (s.diesAbsent slot).slotRemovable slot
    else s)

/-- CART_REMOVED (step 5 of removal, R376): the cartridge leaves a REMOVABLE, REFUSED or FAILED slot. -/
def execCartRemoved (slot : Nat) (s : State) : Res :=
  let st := s.slotState slot
  .next (
    if decide (slot < 16) && (st == 5 || st == 2 || st == 6) then
      let s1 := (s.setFlag F.QUIRE_SLOT_STAT_prsnt slot false).setFlag F.QUIRE_SLOT_STAT_pgood slot false
      let s2 := { s1 with flash := { s1.flash with carts := mapDel s1.flash.carts slot } }
      ((s2.diesAbsent slot).setSlot slot 0).raiseD Ev.CART_REMOVED slot
    else s)

/-- SLOT_PWR_FAIL (R373, R377, step 4 of insertion): 50 ms after SLOT_PWR_EN rose, or 100 ms after it fell, SLOT_PGOOD has
not followed. -/
def execSlotPwrFail (slot : Nat) (s : State) : Res :=
  .next (match (s.cart slot).pwrSince with
    | some t =>
      if decide (16 ≤ slot) then s
      else if s.slotState slot == 1 && s.flag F.QUIRE_SLOT_STAT_pwr_en slot && !s.flag F.QUIRE_SLOT_STAT_pgood slot &&
          s.due t 50000 then
        (((s.slotPwr slot false).raiseD Ev.SLOT_PWR_FAIL slot).setSlot slot 2).endSlotJobs slot St.TIMEOUT
      else if s.slotState slot == 4 && !s.flag F.QUIRE_SLOT_STAT_pwr_en slot && s.flag F.QUIRE_SLOT_STAT_pgood slot &&
          s.due t 100000 then
        (s.setCart slot { s.cart slot with pwrSince := none }).raiseD Ev.SLOT_PWR_FAIL slot
      else s
    | none => s)

end Sys2Proof.Machine
end

