-- ==== Sys2Proof/Machine/Dram.lean ====
section
/-! DEFINITION. The DRAM channels in service (R246 to R283): retraining, refresh, merge entries, self-refresh, patrol, the
freeze and its snapshot, repair and release. -/

set_option Elab.async false

namespace Sys2Proof.Machine

/-- A pause of a channel is deferred (R250). -/
def State.pauseHeld (s : State) (c : Nat) : Bool :=
  (s.runningOn 1 c).isSome || s.flag F.DMC_STAT_in_sr c || s.chanFrozen c || s.inStrike || s.inLoadIn

/-- The period of R249 in microseconds. -/
def State.pausePeriod (s : State) (c : Nat) : Nat := s.fld F.DMC_TRAIN_CFG_period c * 1000

/-- A pause is due: the period has passed, or the hottest DIMM has moved by `temp_delta` (R249). -/
def State.pauseDue (s : State) (c temp : Nat) : Bool :=
  let ch := s.chan c
  ch.pauseDue.isSome || s.due ch.lastPause (s.pausePeriod c) ||
    decide (s.fld F.DMC_TRAIN_CFG_temp_delta c ≤ (if ch.pauseTemp < temp then temp - ch.pauseTemp else ch.pauseTemp - temp))

/-- The pause runs (R248, R254): the debt is paid before it, `owed` refreshes fall due in it, and a burst follows at once
when they reach `max_postpone`. -/
def State.retrain (s : State) (c temp owed : Nat) : State :=
  let debt := if s.fld F.DMC_REF_CFG_max_postpone c ≤ min owed 3 then 0 else min owed 3
  (s.setFld F.DMC_STAT_debt c debt).setChan c { s.chan c with lastPause := s.clock, pauseDue := none, pauseTemp := temp,
                                                              lateRaised := false }

/-- RETRAIN_PAUSE (R248 to R250, R730): the channel's DIMMs read `temp`; a pause that is due is submitted as a DRAM_RETRAIN
job and runs at once where nothing defers it. -/
def execRetrainPause (c temp owed : Nat) (s : State) : Res :=
  .next (
    if 12 ≤ c then s
    else
      let s1 := s.setFld F.DMC_STAT_temp c temp
      if !s1.pauseDue c temp || !(s1.chan c).trained then s1
      else
        let s2 := s1.setChan c { s1.chan c with pauseDue := some ((s1.chan c).pauseDue.getD s1.clock) }
        let s3 := if s2.maint.jobs.any (fun j => j.act == 2 && j.target == c && j.state != 2) then s2
          else s2.ownJob 0x02 c 0 0
        if s3.pauseHeld c || !s3.due (s3.chan c).lastPause 20000 then s3
        else match s3.maint.jobs.find? (fun j => j.act == 2 && j.target == c && j.state == 0) with
          | some j => if s3.mayStart j then ((s3.markStarted j).retrain c temp owed).endJob j.id St.DONE else s3
          | none => s3)

/-- RETRAIN_LATE (R250): a pause has been deferred for longer than four periods. -/
def execRetrainLate (c : Nat) (s : State) : Res :=
  let ch := s.chan c
  .next (match ch.pauseDue with
    | some t =>
      if !ch.lateRaised && decide (t + 4 * s.pausePeriod c < s.clock) then
        (s.setChan c { ch with lateRaised := true }).raiseD Ev.RETRAIN_LATE c
      else s
    | none => s)

/-- The channel issues commands. -/
def State.chanLive (s : State) (c : Nat) : Bool := decide (c < 12) && !s.chanFrozen c && !s.flag F.DMC_STAT_in_sr c

/-- REFRESH (R252, R253): a refresh interval passes; with requests in the queue (`busy`) the refresh may be postponed,
else every refresh owed is issued. -/
def execRefresh (c : Nat) (busy : Bool) (s : State) : Res :=
  let debt := s.fld F.DMC_STAT_debt c
  .next (
    if s.chanLive c then
      s.setFld F.DMC_STAT_debt c (if busy && decide (debt + 1 ≤ s.fld F.DMC_REF_CFG_max_postpone c) then debt + 1 else 0)
    else s)

/-- MAKE_UP_BURST (R253): every owed refresh is issued when the debt has reached its bound or the queue is empty. -/
def execMakeUpBurst (c : Nat) (empty : Bool) (s : State) : Res :=
  .next (
    if s.chanLive c && (empty || decide (s.fld F.DMC_REF_CFG_max_postpone c ≤ s.fld F.DMC_STAT_debt c)) then
      s.setFld F.DMC_STAT_debt c 0
    else s)

/-- MERGE_ENTRY_WRITE (R261): an entry held for 1 µs is written to DRAM. -/
def execMergeEntryWrite (line : Nat) (s : State) : Res :=
  .next (match s.mergeFor line with
    | some m => if s.due m.since 1 then s.mergeOut m else s
    | none => s)

/-- SELF_REFRESH_ENTRY (R255, R256): in INTERMISSION, an idle channel with an empty merge buffer pays its debt and enters
self-refresh. -/
def execSelfRefreshEntry (c : Nat) (s : State) : Res :=
  let idle := s.fld F.DMC_CTL_idle_sr c
  .next (
    if s.chanLive c && s.sceneOn 5 && idle != 0 && s.due (s.chan c).lastReq idle &&
        !(s.dram.merge.any (fun m => m.chan == c)) then
      (s.setFld F.DMC_STAT_debt c 0).setFlag F.DMC_STAT_in_sr c true
    else s)

/-! ### Moving what a row set holds (R266, R268) -/

/-- The folio that a frame holds, PERSISTENT or VOLATILE. -/
def State.folioIn (s : State) (fr : Nat) : Option Nat :=
  match s.ink.folios.find? (fun p => p.2.state != .absent && p.2.frame == fr) with
  | some p => some p.1
  | none => (s.dram.volFrames.find? (fun p => p.2 == fr)).map (fun p => p.1)

/-- The lines of a folio were read, corrected and written anew: no copy of them is erroneous (R260). -/
def State.folioRewritten (s : State) (f : Nat) : State :=
  { s with dram := { s.dram with erroneous := s.dram.erroneous.filter (fun p => p.1 / 1024 != f) } }

/-- A folio leaves its frame, with its merge entries, for one of another channel than `c`. -/
def State.moveOwn (s : State) (c f : Nat) : Option State :=
  match ((s.mergeFolio f).folioRewritten f).replaceFrameOf (fun k => k != c) with
  | some (fr, s1) =>
    some (if (mapGet? s1.dram.volFrames f).isSome then
      { s1 with dram := { s1.dram with volFrames := mapSet s1.dram.volFrames f fr } }
    else s1.setFolio f { s1.folio f with frame := fr })
  | none => none

/-- A frame for a second copy that leaves channel `c`: in the partner channel of its folio's own, if that can be, else in another
channel than its own. -/
def State.frameForPair (s : State) (c : Nat) (x : Folio) : Option (Nat × State) :=
  match s.replaceFrameOf (fun k => k != c && k == partner (chanOf x.frame)) with
  | some r => some r
  | none => s.replaceFrameOf (fun k => k != c && (k != chanOf x.frame || x.state == FState.absent))

/-- The second copy of a folio leaves its frame for one of another channel than `c`. -/
def State.movePair (s : State) (c f : Nat) : Option State :=
  match s.frameForPair c (s.folio f) with
  | some (fr, s1) => some (s1.setFolio f { s1.folio f with pairFrame := some fr })
  | none => none

/-- A map page leaves frame `fr` for one of a channel that is neither `c` nor that of its other copy. -/
def State.movePage (s : State) (c fr g : Nat) (fs : List Nat) : Option State :=
  match s.replaceFrameOf (fun k => k != c && !fs.any (fun x => chanOf x == k)) with
  | some (n, s1) =>
    let pages := mapSet s1.dram.mapPages g (fs.map (fun x => if x == fr then n else x))
    some { s1 with dram := { s1.dram with mapPages := pages } }
  | none => none

/-- An area leaves channel `c` as a whole. -/
def State.moveArea (s : State) (c area : Nat) : Option State :=
  if (s.areaMove area c).dram.areas == s.dram.areas then none else some (s.areaMove area c)

/-- Move what a frame of channel `c` holds to a frame of another channel. None: no frame can be had. -/
def State.moveFrame (s : State) (c fr : Nat) : Option State :=
  match s.folioIn fr with
  | some f => s.moveOwn c f
  | none =>
  match s.ink.folios.find? (fun p => p.2.pairFrame == some fr) with
  | some p => s.movePair c p.1
  | none =>
  match s.dram.mapPages.find? (fun p => p.2.contains fr) with
  | some p => s.movePage c fr p.1 p.2
  | none =>
  match s.dram.areas.find? (fun a => a.2.1 == c && decide (a.2.2.1 ≤ fr / 12) && decide (fr / 12 < a.2.2.1 + a.2.2.2)) with
  | some a => s.moveArea c a.1
  | none => some s

/-- The same for those of a list of frames that are used. -/
def State.moveFrames (s : State) (c : Nat) : List Nat → Option State
  | [] => some s
  | fr :: rest =>
    if s.frameUsed fr then
      match s.moveFrame c fr with
      | some s1 => s1.moveFrames c rest
      | none => none
    else s.moveFrames c rest

/-- Move what every used frame of a row set holds to other channels (R268 step 1). -/
def State.moveRow (s : State) (c word1 : Nat) : Option State := s.moveFrames c (rowFrames c (s.rowSet c word1))

/-! ### Patrol and freeze (R260, R264 to R266, R271 to R277) -/

/-- The line of the DPA space that a frame's line holds. -/
def State.lineIn (s : State) (fr line : Nat) : Option Nat := (s.folioIn fr).map (fun f => f * 1024 + line % 1024)

/-- An uncorrectable line in a frame without data retires its row set, once what its other frames hold has moved (R266, R268). -/
def State.scrubRetire (s : State) (c word1 : Nat) : State :=
  match s.moveRow c word1 with
  | some s1 => (s1.retireRow c word1).1
  | none => s.replaceShort

/-- What a patrol read of a line finds (R264 to R266): a corrected line is counted and rewritten. -/
def State.scrubbed (s : State) (fr line : Nat) (points words : List Nat) : State :=
  let p := s.dramPlace (chanOf fr) (lineIndex fr line)
  if eccVerdict points = .uncorrectable ∧ s.frameUsed fr = false then s.scrubRetire (chanOf fr) p.word1
  else
    let s1 := (s.eccFound fr line 3 11 none points words).1
    match s.lineIn fr line with
    | some l =>
      let s2 := { s1 with dram := { s1.dram with erroneous := mapDel s1.dram.erroneous l } }
      if s2.clsMask 11 = 0 ∨ s2.cacheOn = false ∨ (s2.cacheFind l).isSome then s2
      else (s2.allocLine (s2.clsMask 11) l false (s2.dramLine l)).1
    | none => s1

/-- PATROL_SCRUB (R264 to R266): the patrol of channel `c` reads a line of one of its frames; `points` are what its code words say (R259), `words` the
snapshot's, should it freeze the channel. `progress` is the pass in ‰; `pass` ends it. -/
def execPatrolScrub (c frame line : Nat) (points : List Nat) (progress : Nat) (pass : Bool) (words : List Nat) (s : State) : Res :=
  .next (
    if chanOf frame == c && s.chanLive c && s.flag F.DMC_SCRUB_CFG_enable c then
      let s1 := s.setFld F.DMC_SCRUB_STAT_progress c progress
      let s2 := if pass then (s1.setFld F.DMC_SCRUB_STAT_passes c (s1.fld F.DMC_SCRUB_STAT_passes c + 1)).setFld
        F.DMC_SCRUB_STAT_progress c 0 else s1
      (s2.scrubbed frame line points words).settle
    else s)

/-- DMC_FROZEN (R271 to R277): an uncorrectable read, a parity error or a persistent write CRC error freezes the channel;
a LEAD then hands over (R276). -/
def execDmcFrozen (c cause cls : Nat) (dpa : Option Nat) (words : List Nat) (s : State) : Res :=
  .next (
    if decide (c < 12) && !s.chanFrozen c && decide (1 ≤ cause) && decide (cause ≤ 5) then
      (s.freezeNow c cause cls dpa words).settle
    else s)

/-- The words of the snapshot (R283). -/
def State.snapWords (s : State) (c : Nat) : List Nat :=
  (upto 64).map (fun w => (s.liveWord .DMC_FREEZE_SNAP (c * 64 + w)).toNat)

/-- Mark the snapshot read (R279). -/
def State.snapRead (s : State) (c : Nat) : State := if s.chanFrozen c then s.setFlag F.DMC_STAT_snap_read c true else s

/-- FREEZE_SNAPSHOT (R279, R283). -/
def execFreezeSnapshot (mb : Nat) (input : List Byte) (s : State) : Res :=
  .next (s.vendor mb 0xC010 1 true false input (fun s =>
    let c := leAt input 0 1
    if 12 ≤ c then s.answer mb 0xC010 St.ILLEGAL []
    else (s.snapRead c).answer mb 0xC010 St.DONE (leBytes 3 0 ++ leBytes 4 256 ++ (s.snapWords c).flatMap (leBytes 4))))

/-- FREEZE_SNAP_READ (R279): a stage core reads word 63. -/
def execFreezeSnapRead (c : Nat) (s : State) : Res :=
  .next (
    if 12 ≤ c then s
    else (s.snapRead c).send (.ctlRead (RegId.DMC_FREEZE_SNAP.off (c * 64 + 63))
      (s.liveWord .DMC_FREEZE_SNAP (c * 64 + 63)).toNat))

/-! ### Repair and release (R268 to R270, R279, R280) -/

/-- A DRAM_REPAIR job (R268 to R270): `soft` tells whether soft repair of the device was had and reads back. The state and the end
status. Where a frame finds no place on another channel the job ends with RETRY_LATER; the job whose retirement is refused
for the budget ends DONE like any other, and those after it CURTAIN_DENIED (DESIGN CHOICE, log entry 48). -/
def State.dramRepair (s : State) (c word1 dev : Nat) (soft : Bool) : State × Nat :=
  if s.chanFrozen c then (s, St.CONFLICT)
  else if (s.chan c).full then (s, St.CURTAIN_DENIED)
  else match s.moveRow c word1 with
    | none => (s, St.RETRY_LATER)
    | some s1 =>
      if soft then
        let s2 := (s1.setChan c { s1.chan c with repairs := (s1.chan c).repairs ++ [(word1, dev)] }).addSat
          F.DMC_REPAIR_STAT_soft c 1
        (s2.jAppend { type := 0x0C, args := [c, 1, word1] }, St.DONE)
      else ((s1.retireRow c word1).1, St.DONE)

/-- A DRAM_RELEASE job (R279, R280): `pass` tells how training and the pattern test end; `words` are the new snapshot. A channel
that fails stays frozen, as by a freeze anew (R276). -/
def State.dramRelease (s : State) (c : Nat) (pass : Bool) (words : List Nat) : State × Nat :=
  if !s.flag F.DMC_STAT_snap_read c then (s.setFld F.DMC_STAT_rel_status c St.CONFLICT, St.CONFLICT)
  else
    let s1 := (s.retireRow c (s.chan c).failRow).1
    if pass then
      let s2 := ((s1.setFlag F.DMC_STAT_frozen c false).setFlag F.DMC_STAT_snap_read c false).setFld
        F.DMC_STAT_rel_status c St.DONE
      let s3 := s2.setChan c { s2.chan c with trained := true, lastPause := s2.clock, pauseDue := none }
      (((s3.raise (Ev.DMC_RELEASED c)).withdrawDegraded).replaceAll, St.DONE)
    else
      let s2 := ((s1.snapshot c 6 15 words).setFlag F.DMC_STAT_snap_read c false).setFld F.DMC_STAT_rel_status c St.ENGINE_FAULT
      let s3 := s2.setChan c { s2.chan c with failRow := words.getD 1 0 % 2 ^ 32 }
      let s4 := (s3.setLive .DMC_FREEZE_SNAP (c * 64 + 63) (s3.pbSeq % 2 ^ 32)).raiseD (Ev.DMC_FROZEN c) c
      (if s4.role = 1 then s4.ownJob 0x0A 0xFFFF 0 0 else s4, St.ENGINE_FAULT)

end Sys2Proof.Machine
end

