-- ==== Sys2Proof/Machine/Twin.lean ====
section
/-! DEFINITION. The twin (chapter 14): the link, the messages, roles and epochs, heartbeat, lease and promotion, handover,
rejoin and resync, fetches and journal copies. -/

set_option Elab.async false

namespace Sys2Proof.Machine

/-! ### The link (R530 to R538) -/

/-- The state of a trained link whose HELLO exchange has completed (R530): 4 UP, 5 UP_DEGRADED. -/
def State.upState (s : State) : Nat := if s.twin.width0 = 16 ∧ s.twin.width1 = 16 then 4 else 5

/-- Put the link's state. -/
def State.setTwinLink (s : State) (v : Nat) : State := s.setFld F.TWIN_STAT_link 0 v

/-- No more resync: what was under way ends (R563, R730). -/
def State.resyncStop (s : State) : State :=
  let s1 := { s with twin := { s.twin with resyncSends := false, resyncDoneSeq := none, resyncLeft := [], resyncTotal := 0,
                                           bitmapDue := false } }
  let s2 := (s1.setFld F.TWIN_STAT_resync 0 0).setFld F.TWIN_STAT_progress 0 0
  match s2.running 0x09 with
  | some j => s2.endJob j.id St.ABORTED
  | none => (match s2.maint.jobs.find? (fun j => j.act == 9 && j.state == 0) with
    | some j => s2.endJob j.id St.ABORTED
    | none => s2)

/-- End a running handover job. -/
def State.endHandover (s : State) (status : Nat) : State :=
  match s.running 0x0A with
  | some j => s.endJob j.id status
  | none => s

/-- The link falls to state `st` (R535, R562): lag frames fold into the divergence bitmap, unacknowledged stores wait for the
next RESYNC_DONE. -/
def State.twinFall (s : State) (st : Nat) : State :=
  if s.twinUp then
    let s1 := (s.setTwinLink st).raise Ev.TWIN_LINK_DOWN
    let rec_ := if s1.twin.divMap.isEmpty then { s1.twin.record with divEpoch := s1.epoch } else s1.twin.record
    let marks := (s1.twin.lagCur ++ s1.twin.lagPrev).foldl setIns s1.twin.divMap
    let left := (s1.twin.unacked.filter (fun m => m.boundedAt.isSome || m.seq == noLink)).map
      (fun m => { m with seq := noLink, bytes := 0 })
    let jobs := s1.twin.mirrorJobs.map (fun j => (j.1, (none : Option Nat)))
    let s2 := { s1 with
      twin := { s1.twin with record := rec_, divMap := marks, lagCur := [], lagPrev := [], unacked := left,
                             mirrorJobs := jobs, tablesIn := [], asked := [], toSettle := false },
      region := { s1.region with tableSync := [] } }
    let waits := s2.path.applied.map (fun a => { a with ack := a.ack.map (fun _ => noLink) })
    let s3 := { s2 with path := { s2.path with applied := waits } }
    let s4 := if s3.role == 2 then s3 else s3.setFlag F.TWIN_STAT_synced 0 false
    let s5 := s4.resyncStop
    if s5.twin.gateClosed && s5.twin.handover.isNone then
      ({ s5 with twin := { s5.twin with gateClosed := false } }).endHandover St.ABORTED
    else s5
  else s.setTwinLink st

/-- Send HELLO (R540, R545): sequences start afresh after it (R537). -/
def State.sendHello (s : State) : State :=
  let r := s.twin.record
  let s1 := { s with twin := { s.twin with sendSeq := 0, recvSeq := 0, ackedSeq := 0, stream := 0 } }
  s1.send (.twin s.epoch 0 0 (.hello Config.deviceId.toNat r.epoch r.role r.divValid s.synced r.divEpoch
    (s.fld F.REGION_CAP_granules 0)))

/-- The controller pairs with a twin (R572). -/
def State.pairs (s : State) : Bool := s.flag F.TWIN_CFG_enable 0

/-- TWIN_LINK_TRAINED (R530, R534): TW0 and TW1 have trained at the given widths; with the session of the two security cores
made (`session`), HELLO goes out. -/
def State.twinTrained (s : State) (w0 w1 : Nat) (session : Bool) : State :=
  let ok (w : Nat) : Nat := if w = 8 ∨ w = 16 then w else 0
  let s1 := { s with twin := { s.twin with width0 := ok w0, width1 := ok w1 } }
  let st := s.fld F.TWIN_STAT_link 0
  if ok w0 = 0 ∧ ok w1 = 0 then s1
  else if s.twinUp then
    (if s1.upState = st then s1
     else if s1.upState = 5 then (s1.setTwinLink 5).raise Ev.TWIN_DEGRADED else s1.setTwinLink 4)
  else if !s.pairs || !s.pwr.ctlUp || s.inStrike || decide (3 ≤ st) then s1
  else if session then
    let cs := mapDel (mapDel s1.sec.counters 8) 9
    let s2 := ([240, 241, 242, 243].foldl (fun (st : State) k => st.setKeySlot k 1 2)
      { s1 with sec := { s1.sec with counters := cs } }).setTwinLink 3
    let s3 := ((s2.setFld F.SEC_CNT_twin_near 0 0).setFld F.SEC_CNT_twin_done 0 0)
    s3.sendHello
  else (s1.setTwinLink 2).raise Ev.SPDM_AUTH_FAIL
def execTwinLinkTrained (w0 w1 : Nat) (session : Bool) (s : State) : Res := .next (s.twinTrained w0 w1 session).settle

/-- One link is lost: with the other the twin link stays up, degraded; without it, it falls. -/
def State.twinLose (s : State) (link : Nat) : State :=
  let s1 := if link = 0 then { s with twin := { s.twin with width0 := 0 } }
    else { s with twin := { s.twin with width1 := 0 } }
  if s1.twin.width0 = 0 ∧ s1.twin.width1 = 0 then s1.twinFall 0
  else if s1.twinUp && s1.fld F.TWIN_STAT_link 0 != 5 then (s1.setTwinLink 5).raise Ev.TWIN_DEGRADED
  else s1

/-- TWIN_LINK_DOWN (R530, R535): link 0 or 1 loses its training. -/
def execTwinLinkDown (link : Nat) (s : State) : Res := .next (s.twinLose link).settle

/-- Both links go down (R535, R537). -/
def State.twinBothDown (s : State) : State :=
  ({ s with twin := { s.twin with width0 := 0, width1 := 0 } }).twinFall 0

/-- INTEGRITY_FRAME (R532, R533, R535, R665): a frame of a link ends; `good` tells whether its tag verifies; under an erased
key slot it does not (R668). -/
def State.integrityFrame (s : State) (link : Nat) (good : Bool) : State :=
  if good && s.fld F.SEC_SLOT_state (240 + 2 * (link % 2)) != 2 then
    let (s1, allowed) := s.countNonce (8 + link % 2)
    if allowed then s1 else s1.twinLose (link % 2)
  else s.twinBothDown.raise Ev.TWIN_INTEGRITY_FAIL
def execIntegrityFrame (link : Nat) (good : Bool) (s : State) : Res := .next (s.integrityFrame link good).settle

/-! ### Resync: the sender (R564, R565) -/

/-- Folios of SYNC and BOUNDED regions, in ascending order; with `marked`, those of marked chunks alone. -/
def State.mirroredFolios (s : State) (marked : Bool) : List Nat :=
  ((s.validRegions true).filter (fun e => e.persistent && e.mirror != 0)).flatMap (fun e =>
    e.folios.filter (fun f => !marked || s.twin.divMap.contains (f / 32)))

/-- Start the job of a resync and its event. -/
def State.resyncJob (s : State) : State :=
  let s1 := s.ownJob 0x09 0xFFFF 0 0
  let s2 := match s1.maint.jobs.find? (fun j => j.act == 9 && j.state == 0) with
    | some j => if s1.mayStart j then s1.markStarted j else s1
    | none => s1
  s2.raise Ev.REJOIN_START

/-- Both divergence bitmaps are valid and their epochs equal (R564 step 3). -/
def State.bitmapsAgree (s : State) (p : Peer) : Bool :=
  s.twin.record.divValid && p.divValid && s.twin.record.divEpoch == p.divEpoch

/-- The LEAD or SOLO begins a resync (steps 1 to 4). -/
def State.resyncBegin (s : State) (p : Peer) : State :=
  let bm := s.bitmapsAgree p
  let s1 := s.resyncJob
  let fs := if bm then [] else s1.mirroredFolios false
  let s2 := { s1 with twin := { s1.twin with resyncSends := true, resyncDoneSeq := none, resyncLeft := fs,
                                             resyncTotal := fs.length, bitmapDue := bm } }
  let s3 := ((s2.setFlag F.TWIN_STAT_synced 0 false).setFld F.TWIN_STAT_resync 0 (if bm then 1 else 2)).setFld
    F.TWIN_STAT_progress 0 0
  let s4 := if bm then s3 else s3.raise Ev.FULL_COPY
  s4.sendTables true s4.validEntries

/-- The shadow tables start empty: the other controller's valid entries follow (R564 step 2). -/
def State.clearShadow (s : State) : State :=
  { s with region := { s.region with tabs := s.region.tabs.filter (fun p =>
      !((decide (tabBase false 0 ≤ p.1 * 8) && decide (p.1 * 8 < tabBase false 0 + tabCount 0 * tabStride 0)) ||
        (decide (tabBase false 1 ≤ p.1 * 8) && decide (p.1 * 8 < tabBase false 1 + tabCount 1 * tabStride 1)) ||
        (decide (tabBase false 2 ≤ p.1 * 8) && decide (p.1 * 8 < tabBase false 2 + tabCount 2 * tabStride 2)))) } }

/-- The UNDERSTUDY joins (steps 1 and 3, R566). -/
def State.resyncJoin (s : State) (p : Peer) : State :=
  let bm := s.bitmapsAgree p
  let s1 := ((s.resyncJob.setFlag F.TWIN_STAT_synced 0 false).setFld F.TWIN_STAT_resync 0 (if bm then 1 else 2)).clearShadow
  let note (st : State) (d : Nat) : State := st.raiseSev Ev.OVERLAP_DISCARD (evSeverity Ev.OVERLAP_DISCARD) d true
  if bm then
    let top := s1.twin.divMap.foldl (fun a c => max a (c + 1)) 0
    let s2 := s1.twin.divMap.foldl (fun st c => note st c) s1
    s2.twinSend 0x30 (.bitmap 0 ((upto top).map (fun c => s2.twin.divMap.contains c))) none []
  else
    let s2 := note (s1.raise Ev.FULL_COPY) (2 ^ 64 - 1)
    ({ s2 with twin := { s2.twin with record := { s2.twin.record with divValid := false } } }).setFlag
      F.TWIN_STAT_div_valid 0 false

/-! ### Roles at HELLO (R544 to R546, R567) -/

/-- Granules of the valid PERSISTENT regions. -/
def State.persistGranules (s : State) : Nat :=
  ((s.validRegions true).filter (fun e => e.persistent)).foldl (fun a e => a + e.granules) 0

/-- A role may be taken: the start and its load-in have ended (R544). -/
def State.mayTakeRole (s : State) : Bool := decide (8 ≤ s.pwr.step) && !s.inStrike && !s.inLoadIn

/-- How HELLO settles (R545). -/
inductive Settled where
  | split
  /-- This controller is the LEAD or the SOLO that becomes LEAD; `kept`: the roles are kept; `fresh`: first pairing. -/
  | win (kept fresh : Bool)
  | lose (fresh : Bool)
deriving DecidableEq, Repr

/-- The table of R545. -/
def State.helloTable (s : State) (p : Peer) : Settled :=
  let me := s.twin.record
  if p.epoch < me.epoch then .win false false
  else if me.epoch < p.epoch then .lose false
  else if me.epoch = 0 ∧ me.role = 0 ∧ p.role = 0 then
    let mine := s.flag F.TWIN_CFG_prefer_lead 0
    if mine != p.prefer then (if mine then .win false true else .lose true)
    else if Config.deviceId.toNat < p.id then .win false true else .lose true
  else if me.role = 1 ∧ p.role = 2 then .win true false
  else if me.role = 2 ∧ p.role = 1 then .lose false
  else .split

/-- Keep or take SOLO (R546, R567). -/
def State.keepSolo (s : State) : State := if s.role = 3 then s else s.takeRole 3 s.twin.record.epoch

/-- Settle the roles with the twin's last HELLO (R545, R546, R567). -/
def State.settleRoles (s0 : State) : State :=
  let s := { s0 with twin := { s0.twin with toSettle := false } }
  match s.twin.peer with
  | none => s
  | some p =>
    match s.helloTable p with
    | .split => ((s.twinFall 6).raise Ev.TWIN_SPLIT).keepSolo
    | .win kept fresh =>
      if p.granules < s.persistGranules then ((s.twinFall 7).raise Ev.JOIN_REFUSED).keepSolo
      else
        let e := if fresh then 1 else s.twin.record.epoch
        let s1 := s.setFlag F.TWIN_STAT_fenced 0 false
        (if kept then s1.takeRole 1 e else s1.takeRole 3 e).resyncBegin p
    | .lose fresh =>
      if s.fld F.REGION_CAP_granules 0 < p.held then (s.twinFall 7).raise Ev.JOIN_REFUSED
      else (s.takeRole 2 (if fresh then 1 else p.epoch)).resyncJoin p

/-- The twin's HELLO is noted: the message numbers start anew and no handover is in progress (R537, R545). -/
def State.helloNote (s : State) (p : Peer) : State :=
  let t := s.twin
  { s with twin := { t with peer := some p, toSettle := true, recvSeq := 0, ackedSeq := 0, gateClosed := false,
                            handover := none } }

/-- The twin's identity becomes readable. -/
def State.helloId (s : State) (id : Nat) : State :=
  (s.setFld F.TWIN_PEER_LO_id_lo 0 (id % 2 ^ 32)).setFld F.TWIN_PEER_HI_id_hi 0 (id / 2 ^ 32)

/-- The link is up: UP or, in the half-width state, DEGRADED (R535, R536, R545). -/
def State.helloUp (s : State) : State :=
  let up := s.upState
  let s1 := ((s.endHandover St.TIMEOUT).setTwinLink up).raise Ev.TWIN_LINK_UP
  if up = 5 then s1.raise Ev.TWIN_DEGRADED else s1

/-- HELLO (R545) from twin `p`. -/
def State.hello (s : State) (p : Peer) : State :=
  let st := s.fld F.TWIN_STAT_link 0
  if !s.pairs || decide (st < 3) || st == 7 then s
  else
    let s0 := if st = 3 then s else (s.twinFall 3).sendHello
    let s1 := ((s0.helloNote p).helloId p.id).helloUp
    if s1.mayTakeRole then s1.settleRoles else s1

/-- HELLO (R545): `prefer` and `held` are the twin's `prefer_lead` and the granules of its PERSISTENT regions. -/
def execHello (id epoch role : Nat) (divValid synced : Bool) (divEpoch granules : Nat) (prefer : Bool) (held : Nat)
    (s : State) : Res :=
  .next (s.hello { id := id, epoch := epoch, role := role, divValid := divValid, synced := synced, divEpoch := divEpoch,
                   granules := granules, prefer := prefer, held := held }).settle

/-! ### Acknowledgements (R539, R554, R562, R564, R771) -/

/-- Sequence `a` is newer than `b` (R537). -/
def newer (a b : Nat) : Bool :=
  let d := (a + 2 ^ 32 - b % 2 ^ 32) % 2 ^ 32
  decide (1 ≤ d) && decide (d < 2 ^ 31)

/-- Message `q` is covered by the ack `a`. -/
def ackCovers (a q : Nat) : Bool := decide (q < 2 ^ 32) && !newer q a

/-- Ask again for every folio that is still wanted (R362, R570). -/
def State.fetchAgain (s : State) : State :=
  let s1 := { s with twin := { s.twin with retryLater := [] } }
  let s2 := s.twin.retryLater.foldl (fun st p => if st.mayFetch p.1 then st.fetchFolio p.1 p.2 else st) s1
  let lost := (s2.ink.folios.filter (fun p => p.2.isLost)).map (fun p => p.1)
  let want := lost.filter (fun f => s2.mayFetch f && !s2.twin.fetches.any (fun j => j.folio == f) &&
    !s2.twin.fetched.any (fun j => j.1 == f))
  want.foldl (fun st f => st.fetchFolio f .repair) { s2 with flash := { s2.flash with repairs := [] } }

/-- The divergence state is cleared, and a resync has ended here (R562, R564 step 6). -/
def State.resyncCleared (s : State) : State :=
  let rec_ := { s.twin.record with divEpoch := 0, divValid := true }
  let s1 := { s with twin := { s.twin with record := rec_, divMap := [], pairedEver := true, resyncDoneSeq := none,
                                           resyncSends := false } }
  let s2 := (s1.setFlag F.TWIN_STAT_div_valid 0 true).setFlag F.TWIN_STAT_synced 0 true
  let s3 := (s2.setFld F.TWIN_STAT_resync 0 0).setFld F.TWIN_STAT_progress 0 1000
  let s4 := match s3.running 0x09 with
    | some j => s3.endJob j.id St.DONE
    | none => s3
  s4.raise Ev.RESYNC_DONE

/-- The sender's step 6: its RESYNC_DONE, part 1, is acknowledged. -/
def State.resyncAcked (s : State) : State :=
  let s1 := s.resyncCleared
  let s2 := if s1.role == 3 then s1.takeRole 1 s1.epoch else s1
  s2.fetchAgain

/-- The copy of a region is complete here (R771 step 3). -/
def State.mirrorReady (s : State) (r : Nat) : State :=
  let s1 := { s with twin := { s.twin with mirrorJobs := s.twin.mirrorJobs.filter (fun j => j.1 != r) } }
  if s.mirrorPending r then (s1.setMirrorPending r false).raiseD Ev.MIRROR_READY r else s1

/-- Renew the LEAD's lease when the acknowledged message was sent no more than 190 µs ago (R554, R560 step 6). -/
def State.leaseRenew (s : State) (at_ : Option Nat) : State :=
  match at_ with
  | none => s
  | some t =>
    if s.role == 1 && !s.twin.heartbeatStopped && decide (s.clock ≤ t + 190) then
      let s1 := ({ s with twin := { s.twin with leaseEnd := some (s.clock + 10000), newLeadSince := none } }).setFlag
        F.TWIN_STAT_fenced 0 false
      if s.twin.newLeadSince.isSome then s1.raise Ev.HANDOVER_DONE else s1
    else s

/-- An ack comes: everything up to it has been processed by the twin. -/
def State.twinAcked (s : State) (a : Nat) : State :=
  let sentAt := (s.twin.unacked.find? (fun m => m.seq == a)).map (fun m => m.at_)
  let left := s.twin.unacked.filter (fun m => !ackCovers a m.seq)
  let jobs := (s.twin.mirrorJobs.filter (fun j => match j.2 with
    | some q => ackCovers a q
    | none => false)).map (fun j => j.1)
  let done := match s.twin.resyncDoneSeq with
    | some q => ackCovers a q && s.twin.resyncSends
    | none => false
  let acks := s.path.applied.map (fun x => match x.ack with
    | some q => if ackCovers a q then { x with ack := none } else x
    | none => x)
  let s1 := { s with twin := { s.twin with unacked := left }, path := { s.path with applied := acks } }
  let s2 := if done then s1.resyncAcked else s1
  let s3 := jobs.foldl (fun st r => st.mirrorReady r) s2
  s3.leaseRenew sentAt

/-! ### Receiving (R537 to R540) -/

/-- A receiver of a newer epoch is fenced and restarts the link (R538). -/
def State.outdated (s : State) : State := ((s.twinFall 3).setFlag F.TWIN_STAT_fenced 0 true).sendHello

/-- A message is taken in: epoch and sequence are checked, its ack is used, then its body is processed. -/
def State.receive (s : State) (h : TwinHead) (type : Nat) (body : State → State) : State :=
  let newLead := type == 0x41 && s.role == 1 && s.twin.handover.isSome
  if !s.twinUp || s.fld F.SEC_SLOT_state 240 == 2 then s
  else if h.epoch < s.epoch ∧ !s.twin.toSettle then (s.addSat F.TWIN_STALE_CNT_count 0 1).raise Ev.TWIN_STALE
  else if s.epoch < h.epoch ∧ !s.twin.toSettle ∧ !newLead then s.outdated
  else if h.seq ≠ (s.twin.recvSeq + 1) % 2 ^ 32 then s.twinBothDown
  else
    let heard := if s.role == 2 then s.clock else s.twin.lastHeard
    let quiet := type == 0x03 && s.twin.ackedSeq == s.twin.recvSeq
    let s1 := { s with twin := { s.twin with
      recvSeq := h.seq, ackedSeq := if quiet then h.seq else s.twin.ackedSeq, lastHeard := heard, lostRaised := false } }
    body (s1.twinAcked h.ack)

/-- HEARTBEAT (R553, R556): the LEAD's ink is told; the promotion timer starts again. -/
def execHeartbeat (h : TwinHead) (_ink : Nat) (s : State) : Res := .next (s.receive h 0x02 (fun st => st)).settle

/-- ACK (R539, R554). -/
def execAck (h : TwinHead) (s : State) : Res := .next (s.receive h 0x03 (fun st => st)).settle

/-- HEARTBEAT_SEND (R553, R562): a LEAD's heartbeat falls due, and the lag frames change places once every message sent
before their last change has been acknowledged. -/
def State.heartbeatSend (s : State) : State :=
  if s.role == 1 && s.twinUp && !s.twin.heartbeatStopped && (s.due s.twin.lastBeat 2000 || s.due s.twin.lastSent 2000) then
    let s1 := s.twinSend 0x02 (.heartbeat (s.fld F.INK_CNT_ink 0)) none []
    let swap := !s.twin.unacked.any (fun m => ackCovers s.twin.lagSwapSeq m.seq)
    if swap then { s1 with twin := { s1.twin with lastBeat := s.clock, lagPrev := s.twin.lagCur, lagCur := [],
                                                  lagSwapSeq := s.twin.sendSeq } }
    else { s1 with twin := { s1.twin with lastBeat := s.clock } }
  else s
def execHeartbeatSend (s : State) : Res := .next s.heartbeatSend

/-- The requests of class 12 that a STORE or SEAL makes (R548). -/
def State.twinStore (s : State) (seq : Nat) (isSeal : Bool) (recs : List LineWrite) : State :=
  if s.role != 2 then s
  else if isSeal then
    (match recs with
     | [] => s
     | w :: _ => s.acceptInner (s.request (.twin seq) true (w.line * 64) recs 12 (s.clock + 2 ^ 40) false true none))
  else recs.foldl (fun st w =>
    st.acceptInner (st.request (.twin seq) true (w.line * 64) [w] 12 (st.clock + 2 ^ 40) false false none)) s

/-- STORE (R548): one to 48 records, each applied under R152. -/
def execStore (h : TwinHead) (recs : List LineWrite) (s : State) : Res :=
  .next (s.receive h 0x10 (fun st => st.twinStore h.seq false (recs.take 48))).settle

/-- SEAL (R548): up to 64 records, one group under R18. -/
def execSeal (h : TwinHead) (recs : List LineWrite) (s : State) : Res :=
  .next (s.receive h 0x11 (fun st => st.twinStore h.seq true (recs.take 64))).settle

/-! ### Tables (R550) -/

/-- TABLE_SYNC (R550, R564): an entry for the shadow tables; with the last of a group (`last`) they are committed. -/
def State.takeTable (s : State) (seq table index : Nat) (ws : List Nat) (last : Bool) : State :=
  if s.role != 2 then s
  else
    let s1 := s.setTabEntry false (table % 3) index (ws.take (tabWords (table % 3)))
    let s2 := { s1 with twin := { s1.twin with tablesIn := s1.twin.tablesIn ++ [seq] } }
    if last then s2.ownCommit (.twin seq) else s2
def execTableSync (h : TwinHead) (table index : Nat) (ws : List Nat) (last : Bool) (s : State) : Res :=
  .next (s.receive h 0x12 (fun st => st.takeTable h.seq table index ws last)).settle

/-- TABLE_RESULT (R550): with any status but DONE the commit that waits for it is refused with CURTAIN_DENIED. -/
def State.tableResult (s : State) (seq status : Nat) : State :=
  let s1 := { s with region := { s.region with tableSync := s.region.tableSync.filter (fun q => q != seq) } }
  if !s.region.tableSync.contains seq || status == St.DONE then s1
  else
    let s2 := s1.raise Ev.TABLE_SYNC_DENIED
    match s2.region.commit with
    | none => s2
    | some by_ =>
      let s3 := { s2 with region := { s2.region with commit := none, tableSync := [] } }
      (s3.commitStat false { status := St.CURTAIN_DENIED, kind := 3, entry := 0 }).commitTell by_ St.CURTAIN_DENIED
def execTableResult (h : TwinHead) (seq status : Nat) (s : State) : Res :=
  .next (s.receive h 0x13 (fun st => st.tableResult seq status)).settle

/-! ### Resync: messages (R564, R568) -/

/-- BITMAP (R564 step 3): the chunks are added to this controller's own, and the folios to send are known. -/
def State.takeBitmap (s : State) (first : Nat) (marks : List Bool) : State :=
  if s.twin.resyncSends && s.twin.bitmapDue then
    let cs := (upto marks.length).filter (fun k => marks.getD k false)
    let s1 := { s with twin := { s.twin with divMap := cs.foldl (fun a k => setIns a (first + k)) s.twin.divMap,
                                             bitmapDue := false } }
    let fs := s1.mirroredFolios true
    { s1 with twin := { s1.twin with resyncLeft := fs, resyncTotal := fs.length } }
  else s
def execBitmap (h : TwinHead) (first : Nat) (marks : List Bool) (s : State) : Res :=
  .next (s.receive h 0x30 (fun st => st.takeBitmap first marks)).settle

/-- RESYNC_FOLIO (R564 step 5, R565, R771): the UNDERSTUDY replaces the folio whole. -/
def execResyncFolio (h : TwinHead) (folio : Nat) (zero : Bool) (cells : List Host.Cell) (s : State) : Res :=
  .next (s.receive h 0x31 (fun st => if st.role = 2 then st.takeWhole folio (if zero then [] else cells) else st)).settle

/-- HANDBACK_FOLIO (R568): a folio of a region whose data this controller does not hold is taken as DIRTY. -/
def execHandbackFolio (h : TwinHead) (folio : Nat) (zero : Bool) (cells : List Host.Cell) (s : State) : Res :=
  .next (s.receive h 0x32 (fun st => match st.regionAt (folio * 65536) with
    | some e => if st.twin.absentNone.contains e.idx then st.takeWhole folio (if zero then [] else cells) else st
    | none => st)).settle

/-- The UNDERSTUDY has the folios of the given regions to hand back (R568). -/
def State.handbackBegin (s : State) (regions : List Nat) : State :=
  let fs := ((s.validRegions true).filter (fun e => e.persistent && regions.contains e.idx)).flatMap (fun e => e.folios)
  if regions.isEmpty then s
  else ({ s with twin := { s.twin with resyncLeft := fs, resyncTotal := fs.length } }).setFld F.TWIN_STAT_resync 0 3

/-- RESYNC_DONE (R564 step 6, R568): part 1 ends the UNDERSTUDY's resync; `absent` names the regions that the other
controller marks as absent. Part 2 ends a hand-back. -/
def State.resyncDone (s : State) (part : Nat) (absent : List Nat) : State :=
  if part = 1 then
    (if s.role = 2 then (s.resyncCleared.fetchAgain).handbackBegin absent else s)
  else if part = 2 then
    let s1 := s.twin.absentNone.foldl (fun st r => st.mirrorReady r) s
    { s1 with twin := { s1.twin with absentNone := [], noneRaised := [] } }
  else s
def execResyncDone (h : TwinHead) (part : Nat) (absent : List Nat) (s : State) : Res :=
  .next (s.receive h 0x33 (fun st => st.resyncDone part absent)).settle

/-- MIRROR_READY (R771 step 3). -/
def execMirrorReady (h : TwinHead) (region : Nat) (s : State) : Res :=
  .next (s.receive h 0x34 (fun st => st.mirrorReady region)).settle

/-! ### The TWIN_RESYNC job (R564, R730) -/

/-- Progress of a resync in ‰. -/
def State.resyncProgress (s : State) : State :=
  let t := s.twin.resyncTotal
  let left := s.twin.resyncLeft.length
  let p := if t = 0 then 1000 else (t - left) * 1000 / t
  (s.setFld F.TWIN_STAT_progress 0 p).jobProgress 0x09 (p / 10)

/-- One step of the work: the next folio is sent, or after the last one RESYNC_DONE. -/
def State.resyncStep (s : State) : State :=
  let hand := s.role == 2
  if !s.twinUp || (!hand && (!s.twin.resyncSends || s.twin.bitmapDue || !s.region.tableSync.isEmpty)) ||
      s.twin.resyncDoneSeq.isSome then s
  else match s.twin.resyncLeft with
    | f :: rest => (({ s with twin := { s.twin with resyncLeft := rest } }).sendWhole hand f).resyncProgress
    | [] =>
      if hand then
        (if s.fld F.TWIN_STAT_resync 0 = 3 then (s.twinSend 0x33 (.resyncDone 2) none []).setFld F.TWIN_STAT_resync 0 0 else s)
      else
        let s1 := s.twinSend 0x33 (.resyncDone 1) none []
        let q := s1.twin.sendSeq
        let un := s1.twin.unacked.map (fun m => if m.seq = noLink then { m with seq := q } else m)
        let ap := s1.path.applied.map (fun a => if a.ack = some noLink then { a with ack := some q } else a)
        { s1 with twin := { s1.twin with resyncDoneSeq := some q, unacked := un }, path := { s1.path with applied := ap } }

/-- TWIN_RESYNC (R564, R730): the controller's job; a queued one starts when nothing conflicts, a running one sends its next
folio. -/
def State.twinResync (s : State) : State :=
  let s1 := match s.maint.jobs.find? (fun j => j.act == 9 && j.state == 0) with
    | some j => if s.mayStart j then s.markStarted j else s
    | none => s
  s1.resyncStep
def execTwinResync (s : State) : Res := .next s.twinResync.settle

/-! ### Fetches (R362, R363, R390, R391, R570, R686) -/

/-- FETCH_REQ (R570): answered from this controller's own copy. -/
def State.fetchReq (s : State) (folio id : Nat) : State :=
  let mirrored := match s.regionAt (folio * 65536) with
    | some e => e.persistent && e.mirror != 0
    | none => false
  let marked := s.fld F.TWIN_STAT_resync 0 != 0 && (s.twin.divMap.contains (folio / 32) || s.fld F.TWIN_STAT_resync 0 == 2)
  if !mirrored then s.twinSend 0x22 (.fetchNak id St.ACCESS_DENIED) none []
  else if marked || !s.synced then s.twinSend 0x22 (.fetchNak id St.RETRY_LATER) none []
  else
    let x := s.folio folio
    let s1 := { s with twin := { s.twin with asked := s.twin.asked ++ [(id, folio)] } }
    if x.state == .absent && !x.isLost && (s1.entryOf folio).isNone then s1.openEntry folio none else s1
def execFetchReq (h : TwinHead) (folio id : Nat) (s : State) : Res :=
  .next (s.receive h 0x20 (fun st => st.fetchReq folio id)).settle

/-- A fetch has failed (R390, R570): what waited for it. -/
def State.fetchLost (s : State) (j : FetchJob) : State :=
  match j.why with
  | .staging => if (s.folio j.folio).state == .staging then s.stageLost j.folio else s
  | .rebuild => if s.inRepair j.folio then s.loseInk j.folio else s
  | .repair => { s with flash := { s.flash with repairs := setIns s.flash.repairs j.folio } }
  | .line _ => s

/-- End a fetch by its id. -/
def State.dropFetch (s : State) (id : Nat) : State :=
  { s with twin := { s.twin with fetches := s.twin.fetches.filter (fun j => j.id != id) } }

/-- A poisoned line is restored from the twin's folio (R686). -/
def State.lineRecover (s : State) (j : FetchJob) (line : Nat) (cells : List Host.Cell) : State :=
  match s.regionAt (line * 64) with
  | none => s
  | some e =>
    if s.linePoisoned line && !j.dirtied then
      let d := lineOfBytes (memReadN 0 cells (line % 1024 * 64) 64)
      (s.applyLine e (s.clsMask 5) { line := line, mask := fullMask, data := d }).raiseD Ev.LINE_RECOVERED (line * 64)
    else s

/-- FETCH_DATA (R570): `good` tells whether the CRC and the folio map agree with the data. -/
def State.fetchData (s : State) (id : Nat) (good : Bool) (cells : List Host.Cell) : State :=
  match s.twin.fetches.find? (fun j => j.id == id) with
  | none => s
  | some j =>
    let s1 := s.dropFetch id
    if good then
      match j.why with
      | .rebuild => if s1.inRepair j.folio then s1.finishWhole j.folio cells else s1
      | .line l => s1.lineRecover j l cells
      | w => { s1 with twin := { s1.twin with fetched := s1.twin.fetched ++ [(j.folio, w, cells)] } }
    else (s1.raiseD Ev.TWIN_FETCH_FAIL (j.folio * 65536)).fetchLost j
def execFetchData (h : TwinHead) (id : Nat) (good : Bool) (cells : List Host.Cell) (s : State) : Res :=
  .next (s.receive h 0x21 (fun st => st.fetchData id good cells)).settle

/-- FETCH_NAK (R570): the fetch has failed; one refused with RETRY_LATER is asked for again at RESYNC_DONE. -/
def State.fetchNak (s : State) (id status : Nat) : State :=
  match s.twin.fetches.find? (fun j => j.id == id) with
  | none => s
  | some j =>
    let s1 := (s.dropFetch id).raiseD Ev.TWIN_FETCH_FAIL (j.folio * 65536)
    if status = St.RETRY_LATER then
      { s1 with twin := { s1.twin with retryLater := s1.twin.retryLater ++ [(j.folio, j.why)] } }
    else s1.fetchLost j

/-- TWIN_FETCH_FAIL (R570): no answer came within `fetch_ms`. -/
def State.fetchTimeout (s : State) (id : Nat) : State :=
  match s.twin.fetches.find? (fun j => j.id == id) with
  | none => s
  | some j =>
    if s.due j.since (s.fld F.TWIN_CFG_fetch_ms 0 * 1000) then
      ((s.dropFetch id).raiseD Ev.TWIN_FETCH_FAIL (j.folio * 65536)).fetchLost j
    else s
def execTwinFetchFail (id : Nat) (s : State) : Res := .next (s.fetchTimeout id).settle

/-! ### Journal copies (R571) -/

/-- The internal folios of a journal copy. -/
def copyFolios (index : Nat) : List Nat := (upto 3).map (fun k => internalFolio 0xA000000000000000 (index * 3 + k))

/-- JOURNAL_COPY (R571): the leaf is kept and blotted as three internal folios. -/
def State.journalCopy (s : State) (index first : Nat) (recs : List JRec) : State :=
  let s1 := { s with flash := { s.flash with twinCopies := mapSet s.flash.twinCopies index (first, recs) } }
  (copyFolios index).foldl (fun st f =>
    let x := match mapGet? st.ink.folios f with
      | some x => x
      | none => Folio.init false
    let st1 := st.setFolio f { x with state := .dirty, dirtyAt := st.clock }
    if x.isInk then st1 else st1.addInk none 1) s1

/-- JOURNAL_REQ (R366, R571): answered with the copy, or FETCH_NAK with LOST. -/
def State.journalReq (s : State) (index : Nat) : State :=
  match mapGet? s.flash.twinCopies index with
  | some c => s.twinSend 0x23 (.journalCopy index c.1 c.2) none []
  | none => s.twinSend 0x22 (.fetchNak (index % 2 ^ 32) St.LOST) none []
def execJournalReq (h : TwinHead) (index : Nat) (s : State) : Res :=
  .next (s.receive h 0x24 (fun st => st.journalReq index)).settle

/-- An internal folio of a journal copy that precedes leaf `first`. -/
def copyBefore (first f : Nat) : Bool :=
  decide (internalFolio 0xA000000000000000 0 ≤ f) && decide (f < internalFolio 0xA000000000000000 (first * 3))

/-- CHECKPOINT_NOTE (R571): copies before the leaf named are released. A folio of theirs that is still ink leaves the count when
it is CLEAN, as R192 has it, and is forgotten by a later note. -/
def State.checkpointNote (s : State) (first : Nat) : State :=
  { s with
    flash := { s.flash with twinCopies := s.flash.twinCopies.filter (fun c => decide (first ≤ c.1)) },
    ink := { s.ink with folios := s.ink.folios.filter (fun p => p.2.isInk || !copyBefore first p.1) } }
def execCheckpointNote (h : TwinHead) (_number first : Nat) (s : State) : Res :=
  .next (s.receive h 0x25 (fun st => st.checkpointNote first)).settle

/-! ### Handover (R560, R561) -/

/-- HANDOVER (R560 step 4): taken up once everything before it has been processed. -/
def execHandover (h : TwinHead) (_final : Nat) (s : State) : Res :=
  .next (s.receive h 0x40 (fun st =>
    if st.role = 2 then { st with twin := { st.twin with handover := some h.seq } } else st)).settle

/-- HANDOVER_ACK (R560 step 5): the former LEAD is UNDERSTUDY under the new epoch, and hands back its NONE regions. -/
def State.handoverAck (s : State) (epoch : Nat) : State :=
  if s.role == 1 && s.twin.handover.isSome then
    let s1 := { s with twin := { s.twin with handover := none, gateClosed := false } }
    let s2 := (s1.takeRole 2 epoch).endHandover St.DONE
    s2.handbackBegin s2.noneRegions
  else s
def execHandoverAck (h : TwinHead) (s : State) : Res :=
  .next (s.receive h 0x41 (fun st => st.handoverAck h.epoch)).settle

/-- HANDOVER_ACK_TIMEOUT (R561): a new LEAD without a lease 6 ms after HANDOVER_ACK takes SOLO at the same epoch. -/
def State.handoverTimeout (s : State) : State :=
  match s.twin.newLeadSince with
  | none => s
  | some t =>
    if s.role == 1 && s.due t 6000 then
      ({ s with twin := { s.twin with newLeadSince := none } }).takeRole 3 s.epoch
    else s
def execHandoverAckTimeout (s : State) : Res := .next s.handoverTimeout.settle

/-! ### Lease, promotion, solo declaration, yield (R554 to R556, R567) -/

/-- LEASE_EXPIRED (R554): the LEAD's lease has run out; it is fenced. -/
def State.leaseExpired (s : State) : State :=
  match s.twin.leaseEnd with
  | none => s
  | some t =>
    if s.role == 1 && decide (t ≤ s.clock) then
      (({ s with twin := { s.twin with leaseEnd := none } }).setFlag F.TWIN_STAT_fenced 0 true).raise Ev.LEASE_EXPIRED
    else s
def execLeaseExpired (s : State) : Res := .next s.leaseExpired.settle

/-- PROMOTED (R556): 6 ms without a message of the LEAD: a synced UNDERSTUDY becomes SOLO, another raises HEARTBEAT_LOST. -/
def State.promote (s : State) : State :=
  if s.role == 2 && s.due s.twin.lastHeard 6000 then
    if s.synced then
      (if s.epoch < 0xFFFFFFFF && s.epochRoom then ((s.raise Ev.PROMOTED).tookOver).takeRole 3 (s.epoch + 1) else s)
    else if s.twin.lostRaised then s
    else ({ s with twin := { s.twin with lostRaised := true } }).raise Ev.HEARTBEAT_LOST
  else s
def execPromoted (s : State) : Res := .next s.promote.settle

/-- The status of a solo declaration (R542, R555, R631). -/
def State.soloStatus (s : State) : Nat :=
  if !(s.role == 0 || s.role == 2 || (s.role == 1 && s.fenced)) then St.ILLEGAL
  else if s.epoch = 0xFFFFFFFF ∨ !s.epochRoom then St.CURTAIN_DENIED
  else St.DONE

/-- SOLO_DECLARATION (R555): `TWIN_CTL.solo` written with 1. A LEAD keeps the data of its NONE regions. -/
def State.solo (s : State) : State :=
  if s.soloStatus = St.DONE then (if s.role = 1 then s else s.tookOver).takeRole 3 (s.epoch + 1) else s
def execSoloDeclaration (s : State) : Res := .next s.solo.settle

/-- TWIN_YIELD (R567): `TWIN_CTL.yield` written with 1 on a split pair: the bitmap is invalid, the stored epoch 0, and HELLO
goes out afresh. -/
def State.yieldNow (s : State) : State :=
  let s1 := s.epochWrite { s.twin.record with epoch := 0, divValid := false }
  (s1.setTwinLink 3).sendHello
def execTwinYield (s : State) : Res :=
  .next (if s.fld F.TWIN_STAT_link 0 = 6 then s.yieldNow.settle else s)

/-! ### Second copies (R557, R770) -/

/-- Ink folios that lack a second copy they should have. -/
def State.lacking (s : State) : List Nat :=
  if s.role = 3 then (s.ink.folios.filter (fun p => p.2.isInk && !p.2.covered && !p.2.gone && p.2.state != .absent &&
    decide (p.1 < 2 ^ 32))).map (fun p => p.1)
  else s.lackSecond s.toNone

/-- SECOND_COPY_BUILT (R557, R770): the build of a folio's second copy ends; the last one ends the build. -/
def State.secondBuilt (s : State) (f : Nat) : State :=
  if s.ink.building then
    let s1 := s.buildSecond f
    if s1.lacking.isEmpty then ({ s1 with ink := { s1.ink with building := false } }).setFlag F.TWIN_STAT_solo_copies 0 false
    else s1
  else s
def execSecondCopyBuilt (f : Nat) (s : State) : Res := .next (s.secondBuilt f).settle

end Sys2Proof.Machine
end

