-- ==== Sys2Proof/Machine/Quiesce.lean ====
section
/-! DEFINITION. What a strike and a device reset do alike before anything is lost (R59, R62, R396, R526, R585): links are
frozen, requests, staging, tickets and jobs end, the cache and the merge buffers go to DRAM. -/

set_option Elab.async false

namespace Sys2Proof.Machine

/-- Freeze every host link; a pending GPF phase 2 gets no answer (R59, R137, R585). -/
def State.freezeLinks (s : State) : State :=
  (upto 8).foldl (fun st k => (st.setFlag F.HPORT_STAT_frozen k true).setLink k
    { st.link k with gpf := none, doe := none }) s

/-- Requests under way end with their links: nothing is answered. -/
def State.pathClear (s : State) : State :=
  { s with path := { s.path with ingress := [], held := [], applied := [], compl := [], results := [], inner := [] },
           host := { s.host with biWaits := [], barriers := [] } }

/-- Every single-flight entry and cue run ends; folios in STAGING return to ABSENT (R396). -/
def State.stageEnd (s : State) : State :=
  let s1 := (s.stage.runs.map (fun r => r.ctx)).foldl (fun st k => st.closeRun k) s
  let fs := s1.ink.folios.map (fun p => if p.2.state == .staging then (p.1, { p.2 with state := FState.absent, frame := 0 })
    else p)
  let s2 := { s1 with stage := { s1.stage with entries := [], wanted := [] }, ink := { s1.ink with folios := fs },
                      flash := { s1.flash with reads := [], relocating := [], victim := none } }
  s2.entryCount

/-- Twin fetches under way end (R535). -/
def State.fetchEnd (s : State) : State :=
  { s with twin := { s.twin with fetches := [], fetched := [], retryLater := [] } }

/-- Every job that has not ended ends with ABORTED, but the POWER_CYCLE that is itself the cause (R730). -/
def State.jobsEnd (s : State) : State :=
  (s.maint.jobs.filter (fun j => j.state != 2 && j.act != 0x0E)).foldl (fun st j => st.endJob j.id St.ABORTED)
    (s.swapCancel St.ABORTED)

/-- Slots in preparation that are still powered return to service (R374). -/
def State.prepareEnd (s : State) : State :=
  ((upto 16).filter (fun k => s.slotState k == 4 && s.flag F.QUIRE_SLOT_STAT_pwr_en k)).foldl (fun st k => st.setSlot k 3) s

/-- DRAM channels leave self-refresh (R62, R587). -/
def State.wakeAll (s : State) : State := (upto 12).foldl (fun st c => st.setFlag F.DMC_STAT_in_sr c false) s

/-- The contexts of the tickets that have ended become idle (R526). -/
def State.ctxsEnd (s : State) : State :=
  (s.scr.ctxs.map (fun p => p.1)).foldl (fun st k => st.finishCtx k St.ABORTED 0) s

/-- Steps 2 and 3 of a strike, or 1 to 3 of R59: nothing from outside is served, all dirty data is in DRAM. -/
def State.quiesce (s : State) : State :=
  let s1 := s.freezeLinks.twinBothDown.dropQueues (fun _ => true)
  ((s1.rollEnd.jobsEnd.stageEnd.fetchEnd.pathClear.ctxsEnd).cacheStrike).mergeDrain

end Sys2Proof.Machine
end

