-- ==== Sys2Proof/Machine/Strike.lean ====
section
/-! DEFINITION. The strike (R52 to R56, R336 to R339, R354, R582 to R588, R748): its start from any cause, the write of the
ink to the strike reserve, the journal, the prompt book, and the release. -/

set_option Elab.async false

namespace Sys2Proof.Machine

/-! ### The sentinel's outputs -/

/-- Drive HOLDUP_CHG_EN (R593), HOLDUP_EN (R584, R588) and HOLDUP_TEST (R596). -/
def State.chgEn (s : State) (on : Bool) : State :=
  if s.flag F.SENT_STAT_chg_en 0 = on then s else (s.setFlag F.SENT_STAT_chg_en 0 on).send (.pin 3 0 (b2n on))
def State.holdupEn (s : State) (on : Bool) : State :=
  if s.flag F.SENT_STAT_holdup_en 0 = on then s else (s.setFlag F.SENT_STAT_holdup_en 0 on).send (.pin 4 0 (b2n on))
def State.testEn (s : State) (on : Bool) : State :=
  if s.flag F.SENT_STAT_testing 0 = on then s else (s.setFlag F.SENT_STAT_testing 0 on).send (.pin 5 0 (b2n on))

/-- Put the sentinel's state (R610). -/
def State.setSent (s : State) (v : Nat) : State := s.setFld F.SENT_STAT_state 0 v

/-- The state outside a strike and load-in. -/
def State.sentNormal (s : State) : State :=
  s.setSent (if s.sen.sagSince.isSome then 2 else if s.sen.distSince.isSome then 1 else 0)

/-- The main rails go down in descending group order, SLOT_PWR_EN first (R747). -/
def State.railsDown (s : State) : State :=
  let n := s.pwr.railGroup
  let s1 := ((upto 16).filter (fun k => s.flag F.QUIRE_SLOT_STAT_pwr_en k)).foldl (fun st k =>
    (st.setFlag F.QUIRE_SLOT_STAT_pwr_en k false).send (.pin 1 k 0)) s
  let s2 := ((upto n).map (fun k => n - k)).foldl (fun st g => st.send (.pin 6 g 0)) s1
  { s2 with pwr := { s2.pwr with railGroup := 0 } }

/-- The voltage glitch detectors are disarmed (R750). -/
def State.disarm (s : State) : State := { s with sen := { s.sen with glitchArmed := false } }

/-- BOARD_PWR_CYCLE_N is asserted (R588, R750). -/
def State.powerCycle (s : State) : State := s.disarm.send .boardPwrCycle

/-- A cause before the first scene with no warm-start record: no strike, the rails go down (R748). -/
def State.abortStart (s : State) : State :=
  let s1 := s.disarm.railsDown
  ({ s1 with pwr := { s1.pwr with step := 0 } }).powerCycle

/-! ### The start of a strike (R584, R585 steps 1 to 3, R587) -/

/-- A disturbance that runs ends with its lowest count (R613). -/
def State.distEnd (s : State) : State :=
  if s.sen.distSince.isSome then
    (s.sample 0x0C2 s.sen.distMin) |> fun st => { st with sen := { st.sen with distSince := none, distMin := 0xFFF } }
  else s

/-- SAG, SAG hold, scribe gate and throttle end (R587). -/
def State.sagStop (s : State) : State :=
  let s1 := match s.sen.sagSince with
    | some t => s.sample 0x0C1 ((s.clock - t) / 1000)
    | none => s
  let ended := if s.sen.sagSince.isSome then some s.clock else s.sen.sagEnded
  let s2 := { s1 with sen := { s1.sen with sagSince := none, sagEnded := ended, sagRepeat := false, holdUntil := none,
                                           steps := 0, coolSince := none },
                      ink := { s1.ink with sag := false } }
  ((s2.setFlag F.SENT_STAT_sag_hold 0 false).setFlag F.SENT_STAT_throttle 0 false).setCeiling

/-- Step 1 of R585. -/
def State.strikeStart (s : State) (cause : Nat) : State :=
  let s1 := ((s.setFld F.CURT_STRIKE_cause 0 cause).chgEn false).testEn false
  let s2 := if cause = 1 then s1.holdupEn true else s1
  let s3 := (s2.distEnd.sagStop.sceneStrike.strikeBegin).raise Ev.STRIKE_START
  ({ s3 with sen := { s3.sen with strikeSince := s.clock, clockStrike := cause == 2 || cause == 3, strikeOver := false,
                                  loadStep := 0, loadNeed := none, busyUntil := s.clock },
             pwr := { s3.pwr with heldReset := none, refclkBack := none },
             flash := { s3.flash with quiet := false } }).setSent 3

/-- A strike cause (R583): ignored while a strike runs (R587), R748 before the first scene, else the strike begins. -/
def State.strike (s : State) (cause : Nat) : State :=
  if s.inStrike then s
  else if s.pwr.step < 8 ∧ s.pwr.warmValid = false then s.abortStart
  else
    let s1 := ((s.strikeStart cause).quiesce.prepareEnd).wakeAll
    { s1 with pwr := { s1.pwr with warmValid := false } }

/-! ### Step 4: the ink (R336, R338, R354) -/

/-- Members of a reserve group that a strike can write: cartridge in service, die good. -/
def State.reserveHere (s : State) (g : Group) : List Nat :=
  g.members.filter (fun m => s.inService (adSlot m) && s.dieState (adSlot m) (s.dieIndex m) == 0)

/-- The width at which a strike writes a reserve group: 14 with 16 members present, 13 with 15 or 14, 0 with fewer. -/
def strikeWidth (n : Nat) : Nat := if n = 16 then 14 else if 14 ≤ n then 13 else 0

/-- The members of the group that the strike makes of a reserve group: those present, and with 14 the first absent one, whose
position stays unwritten (R354). -/
def State.strikeMembers (s : State) (g : Group) : List Nat :=
  let here := s.reserveHere g
  if here.length = 14 then
    (match g.members.find? (fun a => !here.contains a) with
     | some a => g.members.filter (fun x => here.contains x || x == a)
     | none => here)
  else here

/-- Contents of an ink folio that needs flash reads: its flash copy with the lines of its second copy or held lines laid over
(R195, R278, R549). -/
def State.inkCells (s : State) (f : Nat) : List Host.Cell :=
  let x := s.folio f
  if 2 ^ 47 ≤ f then s.internalCells f
  else if x.state == .absent || s.chanFrozen (chanOf x.frame) then
    let mask := if x.state == .absent then x.heldLines else x.second.getD 0
    let laid := (memSlice s.dram.second (f * 65536) ((f + 1) * 65536)).filter (fun c => bitB mask (c.1 / 64))
    let base := (s.flashCells f).filter (fun c => !bitB mask (c.1 / 64))
    laid.foldl (fun m c => memWrite 0 m c.1 c.2) base
  else memSlice s.dram.cells (f * 65536) ((f + 1) * 65536)

/-- The ink of a strike in the order of R585 step 4. A folio of a frozen channel that no second copy covers has no contents
here, and neither has one whose copies are all gone (R277). -/
def State.strikeInk (s : State) : List Nat :=
  let ink := s.ink.folios.filter (fun p => p.2.isInk && !p.2.gone)
  let apart (p : Nat × Folio) : Bool := decide (p.1 < 2 ^ 47) && (p.2.state == .absent || s.chanFrozen (chanOf p.2.frame))
  let whole := ink.filter (fun p => !apart p)
  let part := ink.filter (fun p => apart p && (p.2.state == .absent || p.2.covered))
  ((whole.foldl (fun a p => insDirty p a) []) ++ (part.foldl (fun a p => insDirty p a) [])).map (fun p => p.1)

/-- The slot of one folio: a blot, whose generation keeps its last value when it is exhausted (R336);
where its own key slot is empty, the strike key encrypts it (R669). -/
def State.strikeSlot (s : State) (f : Nat) : FolioSlot :=
  let own := s.keyOf f
  { folio := f, kind := .blot, gen := min ((s.folio f).gen + 1) (2 ^ 32 - 1), key := if s.keyLoaded own then own else 255, cells := s.inkCells f }

/-- A folio is written by the strike: it is held, CLEAN, or ABSENT where it was absent. -/
def State.strikeHold (s : State) (quire i : Nat) (fs : FolioSlot) : State :=
  match fs.kind with
  | .pad => s
  | _ =>
    let x := s.folio fs.folio
    let away := x.state == .absent
    let s1 := (s.setFolio fs.folio { x with state := .blotting, heldLines := if away then 0 else x.heldLines }).holdSlot quire i fs
    if away then s1.setFolio fs.folio { s1.folio fs.folio with state := .absent } else s1

/-- Hold the slots of a strike quire in order. -/
def State.strikeHolds (s : State) (quire : Nat) : Nat → List FolioSlot → State
  | _, [] => s
  | i, fs :: t => (s.strikeHold quire i fs).strikeHolds quire (i + 1) t

/-- One quire of a reserve group that has become the ordinary group `g`; a position on an absent member stays unwritten
(R338, R354). -/
def State.strikeQuire (s : State) (g : Group) (line : Nat) (fs : List Nat) : State :=
  let n := g.width * 3
  let slots := fs.map s.strikeSlot
  let pad : FolioSlot := { folio := 0, kind := .pad, gen := 0, key := 0, cells := [] }
  let seq := s.fld F.QUIRE_SEQ_LO_seq_lo 0 + s.fld F.QUIRE_SEQ_HI_seq_hi 0 * 2 ^ 32 + 1
  let quire := g.num * 1024 + line
  let all := slots ++ List.replicate (n - slots.length) pad
  let q : QuireJob := { quire := quire, seq := seq, width := g.width, slots := all, done := [], strike := true }
  let there := (upto (g.width + 2)).filter (fun p => s.inService (adSlot (g.leafOf quire p)))
  let s1 := ((s.setFld F.QUIRE_SEQ_LO_seq_lo 0 (seq % 2 ^ 32)).setFld F.QUIRE_SEQ_HI_seq_hi 0 (seq / 2 ^ 32)).jAppend
    { type := 0x02, args := [quire, seq] }
  ((s1.putHeaders q there).jAppend { type := 0x03, args := [quire] }).strikeHolds quire 0 all

/-- Write up to 1,024 quires into one group. -/
def State.strikeQuires (s : State) (g : Group) (line : Nat) (left : List Nat) : Nat → State × List Nat × Nat
  | 0 => (s, left, line)
  | n + 1 =>
    match left with
    | [] => (s, [], line)
    | _ => (s.strikeQuire g line (left.take (g.width * 3))).strikeQuires g (line + 1) (left.drop (g.width * 3)) n

/-- Use one reserve group: it becomes an ordinary group, FULL or TRUNCATED (R337). -/
def State.strikeGroup (s : State) (g : Group) (left : List Nat) : State × List Nat :=
  let ms := s.strikeMembers g
  let w := strikeWidth (s.reserveHere g).length
  if w = 0 then (s, left)
  else
    let seq := s.fld F.QUIRE_SEQ_LO_seq_lo 0 + s.fld F.QUIRE_SEQ_HI_seq_hi 0 * 2 ^ 32
    let h : Group := { g with state := 1, width := w, layout := s.fld F.QUIRE_LAYOUT_layout 0, members := ms,
                              serials := ms.map (fun a => (s.cart (adSlot a)).serial), next := 0, first := seq + 1,
                              reserve := false }
    let s1 := (s.setGroup h).jAppend { type := 0x01, args := h.num :: h.width :: h.layout :: ms }
    let r := s1.strikeQuires h 0 left 1024
    (r.1.setGroup { h with state := if r.2.2 = 1024 then 2 else 3, next := r.2.2 }, r.2.1)

/-- Write the ink to the reserve groups in ascending order. -/
def State.strikeGroups (s : State) : List Group → List Nat → State
  | [], _ => s
  | g :: gs, left =>
    match left with
    | [] => s
    | _ =>
      let r := s.strikeGroup g left
      r.1.strikeGroups gs r.2

/-- Reserve groups in ascending k. -/
def insFirst (g : Group) : List Group → List Group
  | [] => [g]
  | h :: t => if g.first < h.first then g :: h :: t else h :: insFirst g t

/-- Step 4: a checkpoint under way is dropped, the ink is written. -/
def State.strikeWrite (s : State) : State :=
  let j := s.flash.journal
  let dirty := s.ink.folios.foldl (fun a p => if p.1 < 2 ^ 47 then setIns a (p.1 / 4096) else a) j.mapDirty
  let s1 := if j.ckptRuns && j.ckptLeaf.isNone && !j.openRecs.any (fun r => r.type == 0x0B) then
      { s with flash := { s.flash with journal := { j with ckptRuns := false, ckptQueue := [], mapDirty := dirty } } }
    else s
  let gs := (s1.flash.groups.filter (fun g => g.reserve)).foldl (fun a g => insFirst g a) []
  s1.strikeGroups gs s1.strikeInk

/-! ### Steps 5 to 7 -/

/-- Step 5: the open leaf is written, every leaf stands on three cartridges, the last one carries the strike flag. -/
def State.strikeJournal (s : State) : State :=
  let s1 := s.jClose.jReplace
  let todo := s1.flash.journal.leaves.flatMap (fun l => l.programming.map (fun k => (l.index, k)))
  let s2 := todo.foldl (fun st p => st.journalGood p.1 p.2) s1
  let last := s2.flash.journal.leaves.getLast?.map (fun l => l.index)
  { s2 with flash := { s2.flash with journal := { s2.flash.journal with strikeLeaf := last } } }

/-- VOLATILE data does not survive a strike, even where power has returned (R40). -/
def State.volatileLost (s : State) : State :=
  ((s.validRegions true).filter (fun e => !e.persistent)).foldl (fun (st : State) e =>
    { st with dram := { st.dram with cells := memClear st.dram.cells (e.base * 2 ^ 28) ((e.limit + 1) * 2 ^ 28) } }) s

/-- The release in place (R588): mains has been good for 500 ms; LOAD_IN replaces STRIKE (R74). With CTL in a reset that the strike
broke into, the start goes on from the step it stood at, and load-in begins at its step 8 (log entry 90). -/
def State.releasePlace (s : State) : State :=
  let s0 := (s.holdupEn false).volatileLost
  if !s0.pwr.ctlUp then s0.sentNormal
  else
    let s1 := (upto 8).foldl (fun st k => st.setFlag F.HPORT_STAT_frozen k false) (s0.setSent 4)
    let s2 := { s1 with sen := { s1.sen with loadStep := 0, loadSince := s.clock, reserveRaised := false, loadNeed := none },
                        pwr := { s1.pwr with step := 8 } }
    s2.sceneNow 0x80 0x40

/-- The release by a power cycle (R588): the sentinel erases its strike key (R669); after a loss of REFCLK it waits
for REFCLK (R54). -/
def State.releaseCycle (s : State) (cause : Nat) : State :=
  let s1 := s.holdupEn false
  let s2 := { s1 with sen := { s1.sen with strikeOver := true }, sec := { s1.sec with strikeKey := false } }
  if cause = 2 then s2 else s2.powerCycle

/-- Step 7: the strike-end word, the tally, the event, the release, in place only while a strike pair is free (R631). `energy` is what the bank gave, in 0.1 J. -/
def State.strikeFinish (s : State) (energy : Nat) : State :=
  let ms := (s.clock - s.sen.strikeSince) / 1000
  let cause := s.fld F.CURT_STRIKE_cause 0
  let s1 := (((s.strikeEnd).setFld F.SENT_STRIKE_STAT_ms 0 (satTo 16 ms)).setFld F.SENT_STRIKE_STAT_energy 0
    (satTo 16 energy)).sample 0x0C3 ms
  let s2 := s1.raise Ev.STRIKE_DONE
  let s3 := { s2 with sen := { s2.sen with busyUntil := s2.clock } }
  let good := match s.sen.goodSince with
    | some t => s.due t 500000
    | none => false
  if cause = 1 ∧ good = true ∧ s1.strikeFree.isEmpty = false then s3.releasePlace else s3.releaseCycle cause

/-- STRIKE_DONE (R585 steps 4 to 7): once the quires under way are complete. -/
def State.strikeDone (s : State) (energy : Nat) : State :=
  if s.inStrike && !s.sen.strikeOver && s.flash.quires.isEmpty then
    ((s.strikeWrite.strikeJournal.strikeLog).strikeFinish energy).flashRegs
  else s
def execStrikeDone (energy : Nat) (s : State) : Res := .next (s.strikeDone energy).settle

end Sys2Proof.Machine
end

