-- ==== Sys2Proof/Machine/Sentinel.lean ====
section
/-! DEFINITION. The power sentinel (chapter 15): sensing and disturbance classes, the hold-up test, e_save, PMBus, the power
cap, the energy meters and the core voltage. Load-in is in its own file. -/

set_option Elab.async false

namespace Sys2Proof.Machine

/-! ### Sensing (R575 to R578, R610, R750) -/

/-- The start of a condition that holds without a break. -/
def sinceWhen (on : Bool) (o : Option Nat) (now : Nat) : Option Nat := if on then some (o.getD now) else none

/-- A condition has held without a break for `dur` microseconds. -/
def State.heldFor (s : State) (o : Option Nat) (dur : Nat) : Bool :=
  match o with
  | some t => s.due t dur
  | none => false

/-- A sample of the mains inputs: counts 2,432, 2,304 and 2,475 stand for 11.4, 10.8 and 11.6 V (R576). -/
def State.senseBulk (s : State) (m : Mains) : State :=
  let c := m.bulk % 4096
  let n := s.sen
  let s1 := (((s.setFlag F.SENT_STAT_ac_fail 0 m.ac).setFlag F.SENT_STAT_pwr_ok 0 m.ok).setFld F.SENT_BULK_count 0 c).setFld
    F.SENT_BULK_min 0 (min c (s.fld F.SENT_BULK_min 0))
  let low := if n.distSince.isSome then min n.distMin c else n.distMin
  let s2 := { s1 with sen := { s1.sen with
    acSince := sinceWhen m.ac n.acSince s.clock, lowSince := sinceWhen (decide (c < 2432)) n.lowSince s.clock,
    dropSince := sinceWhen (decide (c < 2304)) n.dropSince s.clock,
    goodSince := sinceWhen (decide (2475 ≤ c) && !m.ac && m.ok) n.goodSince s.clock, distMin := low } }
  if c < 1920 ∧ n.belowMin = true then s2.disarm else s2

/-- A trigger of some class holds (R578). -/
def mainsTrouble (m : Mains) : Bool := m.ac || decide (m.bulk % 4096 < 2432) || !m.ok

/-- The trigger of SAG, and of DROP apart from PSU_PWR_OK, is met (R578). -/
def State.sagMet (s : State) : Bool := s.heldFor s.sen.acSince 1000 || s.heldFor s.sen.lowSince 200
def State.dropMet (s : State) : Bool := s.heldFor s.sen.dropSince 200 || s.heldFor s.sen.acSince 8000

/-- A disturbance, SAG hold, strike or load-in is in progress until now (R595). -/
def State.busyNow (s : State) : State := { s with sen := { s.sen with busyUntil := s.clock } }

/-- The sentinel's state follows the disturbance outside a strike and load-in. -/
def State.sentFollow (s : State) : State := if s.inStrike || s.inLoadIn then s else s.sentNormal

/-- DISTURBANCE (R578): a trigger of any class first holds. -/
def State.disturbance (s : State) (m : Mains) : State :=
  let s1 := s.senseBulk m
  if mainsTrouble m && s1.sen.distSince.isNone && !s1.inStrike && s1.pwr.aonUp then
    ({ s1 with sen := { s1.sen with distSince := some s1.clock, distMin := m.bulk % 4096 } }).busyNow.sentFollow
  else s1
def execDisturbance (m : Mains) (s : State) : Res := .next (s.disturbance m)

/-- BLIP (R578, R613): a disturbance ends without having met SAG or DROP. -/
def State.blip (s : State) (m : Mains) : State :=
  let s1 := s.senseBulk m
  match s.sen.distSince with
  | none => s1
  | some t =>
    if mainsTrouble m || s.sen.sagSince.isSome || s.sagMet || s.dropMet then s1
    else ((s1.sample 0x0C0 (s1.clock - t)).distEnd).busyNow.sentFollow
def execBlip (m : Mains) (s : State) : Res := .next (s.blip m)

/-- SAG_ENTER (R579, R581). -/
def State.sagEnter (s : State) (m : Mains) : State :=
  let s1 := s.senseBulk m
  if (s.sagMet || s1.sagMet) && s1.sen.sagSince.isNone && !s1.inStrike && s1.pwr.aonUp then
    let again := s1.sen.holdUntil.isSome || (match s1.sen.sagEnded with
      | some t => decide (s1.clock ≤ t + 10000000)
      | none => false)
    let dist := s1.sen.distSince.getD s1.clock
    let s2 := { s1 with sen := { s1.sen with sagSince := some s1.clock, sagRepeat := again, holdUntil := none,
                                             distSince := some dist, distMin := min s1.sen.distMin (m.bulk % 4096) },
                        ink := { s1.ink with sag := true } }
    (((s2.setFlag F.SENT_STAT_sag_hold 0 false).busyNow.sentFollow).raise Ev.SAG_ENTER).setCeiling
  else s1
def execSagEnter (m : Mains) (s : State) : Res := .next (s.sagEnter m).settle

/-- SAG_EXIT (R580, R581, R613): all supplies good for 500 ms; after a repeated SAG the quarter ceiling stays for 60 s. -/
def State.sagExit (s : State) (m : Mains) : State :=
  let s1 := s.senseBulk m
  match s1.sen.sagSince with
  | none => s1
  | some t =>
    if s1.heldFor s1.sen.goodSince 500000 then
      let hold := if s1.sen.sagRepeat then some (s1.clock + 60000000) else none
      let s2 := (s1.sample 0x0C1 ((s1.clock - t) / 1000)).distEnd
      let s3 := { s2 with sen := { s2.sen with sagSince := none, sagEnded := some s1.clock, sagRepeat := false,
                                               holdUntil := hold },
                          ink := { s2.ink with sag := hold.isSome } }
      (((s3.setFlag F.SENT_STAT_sag_hold 0 hold.isSome).busyNow.sentFollow).raise Ev.SAG_EXIT).setCeiling
    else s1
def execSagExit (m : Mains) (s : State) : Res := .next (s.sagExit m).settle

/-- SAG_HOLD_END (R581). -/
def State.sagHoldEnd (s : State) : State :=
  match s.sen.holdUntil with
  | none => s
  | some t =>
    if t ≤ s.clock then
      let s1 := { s with sen := { s.sen with holdUntil := none }, ink := { s.ink with sag := s.sen.sagSince.isSome } }
      (s1.setFlag F.SENT_STAT_sag_hold 0 false).busyNow.setCeiling
    else s
def execSagHoldEnd (s : State) : Res := .next s.sagHoldEnd.settle

/-- DROP (R578, R582, R587, R748): the strike starts; while one runs a second cause starts none. -/
def State.drop (s : State) (m : Mains) : State :=
  let s1 := s.senseBulk m
  if (s.dropMet || s1.dropMet || !m.ok) && s1.pwr.aonUp then
    if s1.inStrike then (if s1.fld F.CURT_STRIKE_cause 0 = 1 then s1 else s1.raise Ev.DROP)
    else (s1.raise Ev.DROP).strike 1
  else s1
def execDrop (m : Mains) (s : State) : Res := .next (s.drop m).settle

/-- REARM (R610): `SENT_BULK` written with bit 31 set. -/
def execRearm (value : Nat) (s : State) : Res :=
  .next (if bitB value 31 then s.setFld F.SENT_BULK_min 0 0xFFF else s)

/-! ### The bank (R592 to R596) -/

/-- Fused V_chg and V_min in mV, R_TEST in 0.1 Ω, η in %. -/
def State.vChg (s : State) : Nat := s.fld F.SENT_BANK_FUSE_v_chg 0 * 200
def State.vMin (s : State) : Nat := s.fld F.SENT_BANK_FUSE_v_min 0 * 200
def State.eta (s : State) : Nat := s.fld F.SENT_BANK_FUSE_eta 0

/-- The bank voltage of a HOLDUP_SENSE count in 1/16 mV (R576). -/
def bankV (count : Nat) : Nat := count * 225

/-- Charging follows the bank voltage outside a strike and a test (R593). -/
def State.charge (s : State) : State :=
  let v := bankV (s.fld F.SENT_HOLDUP_count 0)
  if s.inStrike || s.flag F.SENT_STAT_testing 0 then s
  else if s.vChg * 16 ≤ v then s.chgEn false
  else if v + 3200 < s.vChg * 16 then s.chgEn true else s

/-- A HOLDUP_SENSE sample: the charge, the reserve energy of R594 and V_min (R593, R594, R750). -/
def State.senseBank (s : State) (count : Nat) : State :=
  let c := count % 4096
  let v := bankV c
  let full := decide (s.vChg * 16 ≤ v) || (s.sen.atCharge && decide (s.vChg * 16 ≤ v + 3200))
  let holds := decide (6000000000000 * 256 + s.eta * s.sen.testC * (256 * s.sen.testVeff ^ 2) ≤ s.eta * s.sen.testC * v ^ 2)
  let below := decide (v < s.vMin * 16)
  let s1 := s.setFld F.SENT_HOLDUP_count 0 c
  let s2 := { s1 with sen := { s1.sen with atCharge := full, holdsReserve := holds, belowMin := below } }
  (if below && decide (s2.fld F.SENT_BULK_count 0 < 1920) then s2.disarm else s2).charge

/-- Since when a hold-up test is due: asked for, or 24 h after the last valid one (R595). -/
def State.testDueSince (s : State) : Option Nat :=
  match s.sen.testDue with
  | some t => some t
  | none => (match s.sen.testedAt with
    | some t => if s.due t 86400000000 then some (t + 86400000000) else none
    | none => if s.pwr.step = 6 ∧ s.sen.measured = false then some s.sen.bankSince else none)

/-- A test may start: the bank stands at V_chg, and nothing of R595's list is in progress or has been for 60 s. -/
def State.testMay (s : State) : Bool :=
  s.sen.atCharge && s.sentState == 0 && s.sen.holdUntil.isNone && !s.flag F.SENT_STAT_testing 0 &&
    (s.sen.busyUntil == 0 || s.due s.sen.busyUntil 60000000)

/-- HOLDUP_TEST (R595, R596 steps 1 and 2): a due test, or one that `SENT_CTL.test_go` asks for (`go`), starts or is
deferred; a REHEARSAL gives a deferred test up after 60 s (R736). -/
def State.holdupTest (s : State) (go : Bool) : State :=
  if s.flag F.SENT_STAT_testing 0 then s
  else if go || s.testDueSince.isSome then
    let s1 := { s with sen := { s.sen with testDue := some (s.testDueSince.getD s.clock) } }
    if s1.testMay then ({ s1.chgEn false with sen := { s1.sen with testSince := s1.clock } }).testEn true
    else match s1.running 0x0D with
      | some j => if s1.due j.since 60000000 then s1.rehearsalEnd true St.TIMEOUT else s1
      | none => s1
  else s
def execHoldupTest (go : Bool) (s : State) : Res := .next (s.holdupTest go)

/-- HOLDUP_TEST_LATE (R595): a due test has been deferred for 1 h. -/
def State.testLate (s : State) : State :=
  match s.testDueSince with
  | none => s
  | some t =>
    if s.due t 3600000000 && !s.sen.testLate && !s.flag F.SENT_STAT_testing 0 then
      ({ s with sen := { s.sen with testLate := true, testDue := some t } }).raise Ev.HOLDUP_TEST_LATE
    else s
def execHoldupTestLate (s : State) : Res := .next s.testLate

/-- Publish E_measured in mJ: the curtain recomputes its limit (R196, R197, R596). -/
def State.publishE (s : State) (mJ : Nat) : State :=
  let e := satTo 18 mJ
  let save := s.fld F.SENT_ESAVE_pj_per_b 0
  let s1 := ((s.setFlag F.SENT_HOLDUP_E_valid 0 true).setFld F.SENT_HOLDUP_E_e_mj 0 e)
  let s2 := (s1.setFld F.CURT_INK_SRC_e_j 0 (satTo 16 (e / 1000))).setFld F.CURT_INK_SRC_esave 0 save
  ({ s2 with sen := { s2.sen with measured := true } }).setCurtain (curtainLimit e save)

/-- e_save is taken anew at a test: the largest window since the previous one, not below 900 pJ/B (R597). -/
def State.takeEsave (s : State) : State :=
  if s.sen.esaveMax = 0 then s
  else ({ s with sen := { s.sen with esaveMax := 0, esaveSeen := true } }).setFld F.SENT_ESAVE_pj_per_b 0
    (satTo 16 (max 900 s.sen.esaveMax))

/-- ESR in 0.1 mΩ from the sum of 64 samples of V0 and the sample V1 (R596 step 2). -/
def State.testEsr (s : State) (sum0 v1 : Nat) : Nat :=
  if v1 = 0 ∨ sum0 < 64 * v1 then (Config.freeEsr s.fresh).toNat
  else satTo 16 ((sum0 - 64 * v1) * s.fld F.SENT_BANK_FUSE_r_test 0 * 1000 / (64 * v1))

/-- C in mF from the sum of the samples at 10 kS/s and the sums of 64 samples of V0 and V2 (R596 steps 3 and 4). -/
def State.testCap (s : State) (sum0 qsum sum2 : Nat) : Nat :=
  let d := s.fld F.SENT_BANK_FUSE_r_test 0 * (sum0 - sum2)
  if d = 0 then (Config.freeCap s.fresh).toNat else satTo 16 (qsum * 64 / d)

/-- V_eff in mV (R596 step 5). -/
def State.testVe (s : State) (esr : Nat) : Nat := s.vMin + 5000 * esr / s.vMin

/-- The test's results (R596 steps 5 and 6). -/
def State.testResult (s : State) (esr cap : Nat) : State :=
  let ve := s.testVe esr
  let unfit := decide (Config.fuseEsrMax.toNat < esr)
  let e := if unfit then 0 else s.eta * cap * (s.vChg ^ 2 - ve ^ 2) / 200000000
  let s1 := ((s.testEn false).setFld F.SENT_HOLDUP_C_esr 0 esr).setFld F.SENT_HOLDUP_C_cap_mf 0 cap
  let s2 := { s1 with sen := { s1.sen with testC := cap, testVeff := ve, testedAt := some s1.clock, testDue := none,
                                           testLate := false } }
  let s3 := (s2.nextFresh.takeEsave.publishE e).charge
  let s4 := s3.raise Ev.HOLDUP_TESTED
  if unfit then s4.raise Ev.HOLDUP_UNFIT else s4

/-- HOLDUP_TESTED (R596): a test ends with what it has sampled; at a power-on whose bank has not reached V_chg within 60 s,
E_measured is 0. -/
def State.holdupTested (s : State) (sum0 v1 qsum sum2 : Nat) : State :=
  if s.flag F.SENT_STAT_testing 0 then
    let s1 := s.testResult (s.testEsr sum0 v1) (s.testCap sum0 qsum sum2)
    s1.rehearsalEnd (s1.fld F.SENT_HOLDUP_E_e_mj 0 == 0) St.DONE
  else if s.pwr.step == 6 && !s.sen.measured && !s.sen.atCharge && s.due s.sen.bankSince 60000000 then
    (s.publishE 0).raise Ev.HOLDUP_UNFIT
  else s
def execHoldupTested (sum0 v1 qsum sum2 : Nat) (s : State) : Res := .next (s.holdupTested sum0 v1 qsum sum2).settle

/-! ### PMBus (R599 to R602) -/

/-- The entry is in use. -/
def State.pmbValid (s : State) (e : Nat) : Bool := decide (e < 32) && s.flag F.SENT_PMB_TAB_valid e

/-- A transaction that the filter refuses (R600, R601). -/
def State.pmbDenied (s : State) (e : Nat) : State :=
  (s.setFld F.SENT_PMB_CMD_status 0 St.CURTAIN_DENIED).raiseD Ev.PMBUS_DENIED e

/-- A transaction on the bus. -/
def State.pmbSend (s : State) (e code : Nat) (data : Option Nat) : State :=
  s.send (.pmbus (s.fld F.SENT_PMB_TAB_addr e) (s.fld F.SENT_PMB_TAB_page e) code data)

/-- A firmware transaction (R587, R600): ended by a strike, refused by the filter, or run. -/
def State.pmbus (s : State) (e : Nat) (ok : Bool) (run : State → State) : State :=
  if s.inStrike then s.setFld F.SENT_PMB_CMD_status 0 St.ABORTED
  else if s.pmbValid e && ok then (run s).setFld F.SENT_PMB_CMD_status 0 St.DONE
  else s.pmbDenied e

/-- A read whose answer is `value`. -/
def State.pmbRead (s : State) (e code value : Nat) : State :=
  s.pmbus e true (fun st => (st.pmbSend e code none).setRw F.SENT_PMB_DATA_data 0 value)

/-- The sequence group's fused interval has passed since its last on or off, and a rail of the controller's own stays on
(R601). -/
def State.railMay (s : State) (e : Nat) (on : Bool) : Bool :=
  let g := s.fld F.SENT_PMB_TAB_group e
  (match mapGet? s.sen.railOps g with
   | some t => s.due t (s.fld F.CURT_SEQ_interval g * 1000)
   | none => true) && (on || !s.flag F.SENT_PMB_TAB_self e)

/-- OPERATION (R600, R601). -/
def execOperation (entry : Nat) (on : Bool) (s : State) : Res :=
  .next (s.pmbus entry (s.railMay entry on) (fun st =>
    let g := st.fld F.SENT_PMB_TAB_group entry
    ({ st with sen := { st.sen with railOps := mapSet st.sen.railOps g st.clock } }).pmbSend entry 0x01
      (some (if on then 0x80 else 0))))

/-- CLEAR_FAULTS (R600). -/
def execClearFaults (entry : Nat) (s : State) : Res := .next (s.pmbus entry true (fun st => st.pmbSend entry 0x03 none))

/-- The decoded setpoint lies in the fused band of the entry (R600): `data` × 2^−n V, n being the VOUT_MODE read at boot. -/
def State.inBand (s : State) (e data : Nat) : Bool :=
  let n := mapGet 0 s.sen.voutMode e
  let b := s.fld F.SENT_PMB_TAB_band e
  decide (s.fld F.CURT_BAND_min_mv b * 2 ^ n ≤ data * 1000) && decide (data * 1000 ≤ s.fld F.CURT_BAND_max_mv b * 2 ^ n)

/-- VOUT_COMMAND (R600). -/
def execVoutCommand (entry data : Nat) (s : State) : Res :=
  .next (s.pmbus entry (s.inBand entry (data % 65536)) (fun st => st.pmbSend entry 0x21 (some (data % 65536))))

/-- STATUS_WORD and the READ commands (R600): `value` is the regulator's answer. -/
def execStatusWord (entry value : Nat) (s : State) : Res := .next (s.pmbRead entry 0x79 value)
def execReadVin (entry value : Nat) (s : State) : Res := .next (s.pmbRead entry 0x88 value)
def execReadIin (entry value : Nat) (s : State) : Res := .next (s.pmbRead entry 0x89 value)
def execReadVout (entry value : Nat) (s : State) : Res := .next (s.pmbRead entry 0x8B value)
def execReadIout (entry value : Nat) (s : State) : Res := .next (s.pmbRead entry 0x8C value)
def execReadTemperature1 (entry value : Nat) (s : State) : Res := .next (s.pmbRead entry 0x8D value)
def execReadPout (entry value : Nat) (s : State) : Res := .next (s.pmbRead entry 0x96 value)
def execReadPin (entry value : Nat) (s : State) : Res := .next (s.pmbRead entry 0x97 value)

/-- One regulator's poll (R602). -/
def State.pollOne (s : State) (e : Nat) (ok : Bool) : State :=
  let s1 := ((s.pmbSend e 0x97 none).pmbSend e 0x8B none).pmbSend e 0x8D none
  let n := if ok then 0 else mapGet 0 s.sen.fails e + 1
  let s2 := { s1 with sen := { s1.sen with fails := mapSet s1.sen.fails e n } }
  if n = 3 then s2.raiseD Ev.PMBUS_FAULT e else s2

/-- A regulator marked hold-up-fed has failed to answer three times in a row. -/
def State.fedFails (s : State) : Bool :=
  (upto 32).any (fun e => s.pmbValid e && s.flag F.SENT_PMB_TAB_holdup_fed e && decide (3 ≤ mapGet 0 s.sen.fails e))

/-- The e_save of a window in pJ/B, if it counts (R597): `mw` summed READ_PIN, `bytes` of data leaves in `ms`. -/
def State.esaveWindow (s : State) (ms bytes mw : Nat) : Option Nat :=
  let d := s.flash.population.getD 16
  if 200 ≤ ms ∧ 20000000000 * d * ms ≤ bytes * 16000 ∧ s.eta * bytes ≠ 0 ∧ s.fedFails = false then
    some (mw * ms * 100000000 / (bytes * s.eta))
  else none

/-- PMBUS_POLL (R597, R602): `answered` has a bit for each entry that answers; the window that ends with this poll. -/
def State.pmbusPoll (s : State) (answered ms bytes mw : Nat) : State :=
  let s1 := ((upto 32).filter s.pmbValid).foldl (fun st e => st.pollOne e (bitB answered e)) s
  match s1.esaveWindow ms bytes mw with
  | some w => { s1 with sen := { s1.sen with esaveMax := max s1.sen.esaveMax w } }
  | none => s1
def execPmbusPoll (answered ms bytes mw : Nat) (s : State) : Res := .next (s.pmbusPoll answered ms bytes mw)

/-! ### The power cap (R606, R607) -/

/-- The mean of the samples of the last millisecond, in mW. -/
def State.powerMean (s : State) : Nat := s.sen.power.foldl (fun a p => a + p) 0 / max 1 s.sen.power.length

/-- The throttle is on: a step of R607 or the curtain's of R641. -/
def State.throttleFlag (s : State) : State :=
  s.setFlag F.SENT_STAT_throttle 0 (decide (s.sen.steps ≠ 0) || s.flag F.CURT_THERM_throttle 0)

/-- One step of the throttle: twelve of the scribe duty, then four of the ingress credits. -/
def State.pcapStep (s : State) : State :=
  let mean := s.powerMean
  if s.inStrike then s
  else if s.powerCap * 1000 < mean then
    let s1 := { s with sen := { s.sen with steps := min 16 (s.sen.steps + 1), coolSince := none } }
    (if s.sen.steps = 0 then s1.raise Ev.PCAP_THROTTLE else s1).throttleFlag
  else if mean + 2000 ≤ s.powerCap * 1000 then
    let t := s.sen.coolSince.getD s.clock
    let n := if s.due t 10000 then s.sen.steps - 1 else s.sen.steps
    ({ s with sen := { s.sen with steps := n, coolSince := some t } }).throttleFlag
  else { s with sen := { s.sen with coolSince := none } }

/-- PCAP_ESTIMATE (R607, R613): the estimate of one 100 µs interval, in mW. -/
def State.pcapEstimate (s : State) (mw : Nat) : State :=
  let s1 := { s with sen := { s.sen with power := (mw :: s.sen.power).take 10, powerCount := s.sen.powerCount + 1 } }
  let w := satTo 16 (s1.powerMean / 10)
  let s2 := s1.setFld F.SENT_PWR_power 0 w
  (if s1.sen.powerCount % 10 = 0 then s2.sample 0x0C4 w else s2).pcapStep
def execPcapEstimate (mw : Nat) (s : State) : Res := .next (s.pcapEstimate mw)

/-! ### Energy meters (R608, R609) -/

/-- Units of the accumulators in a picojoule, and in a millijoule. -/
def unitsPerPj : Nat := 900000
def unitsPerMj : Nat := 900000000000000

/-- The dynamic energy of some counts, in pJ. -/
def countsPj (c : MeterCounts) : Nat :=
  60 * c.pins + 1600 * c.lookups + 6400 * c.dram + 350 * c.staged + 70400 * c.dirtied + 250 * c.cycles

/-- What the data at rest of the PERSISTENT regions adds to a meter in 1 ms, in units: 0.004 nJ per byte-hour, shared
equally by the owner set; the shares of an empty set and what no division gives go to the idle meter (256). -/
def State.restUnits (s : State) : List (Nat × Nat) :=
  ((s.validRegions true).filter (fun e => e.persistent)).foldl (fun m e =>
    let bytes := e.granules * 2 ^ 28
    let set := s.ownerSet true e.owner
    let own := (upto 256).filter (fun i => bitB set i)
    let n := own.length
    let each := bytes / max 1 n
    let m1 := own.foldl (fun m i => mapUpd 0 m i (fun x => x + each)) m
    mapUpd 0 m1 256 (fun x => x + (bytes - each * n))) []

/-- Charge a meter: whole millijoules go to its register. -/
def State.chargeMeter (s : State) (i u : Nat) : State :=
  let v := mapGet 0 s.sen.meterFrac i + u
  let s1 := { s with sen := { s.sen with meterFrac := mapSet s.sen.meterFrac i (v % unitsPerMj) } }
  let n := v / unitsPerMj
  if n = 0 then s1
  else if i < 256 then
    let t := s.meter i + n
    (s1.setLive .SENT_METER (2 * i) (t % 2 ^ 32)).setLive .SENT_METER (2 * i + 1) (t / 2 ^ 32 % 2 ^ 32)
  else
    let t := (s.liveWord .SENT_METER_IDLE 0).toNat + (s.liveWord .SENT_METER_IDLE 1).toNat * 2 ^ 32 + n
    (s1.setLive .SENT_METER_IDLE 0 (t % 2 ^ 32)).setLive .SENT_METER_IDLE 1 (t / 2 ^ 32 % 2 ^ 32)

/-- METER_UPDATE (R608, R609): the counts of 1 ms by identity, 256 for internal work, and the static energy in pJ. -/
def State.meterUpdate (s : State) (counts : List (Nat × MeterCounts)) (static : Nat) : State :=
  let dyn := counts.foldl (fun m p => mapUpd 0 m (min p.1 256) (fun x => x + countsPj p.2 * unitsPerPj)) s.restUnits
  let total := dyn.foldl (fun a p => a + p.2) 0
  let st := static * unitsPerPj
  let shares := dyn.map (fun p => (p.1, st * p.2 / max 1 total))
  let given := shares.foldl (fun a p => a + p.2) 0
  let s1 := (List.zip dyn shares).foldl (fun st p => st.chargeMeter p.1.1 (p.1.2 + p.2.2)) s
  s1.chargeMeter 256 (st - given)
def execMeterUpdate (counts : List (Nat × MeterCounts)) (static : Nat) (s : State) : Res :=
  .next (s.meterUpdate counts static)

/-! ### The core voltage (R604, R605) -/

/-- DVFS_RAISE (R605): a write of `SENT_DVFS`. -/
def execDvfsRaise (value : Nat) (s : State) : Res := .next (s.setRw F.SENT_DVFS_raise 0 (bits value 1 1))

/-- DVFS_READY (R604, R605): the voltage of root / 2 has been reached. -/
def execDvfsReady (s : State) : Res :=
  .next (if s.flag F.SENT_DVFS_raise 0 && !s.flag F.SENT_DVFS_ready 0 then
      ((s.setFld F.SENT_DVFS_vdd_mv 0 (vddMv 0)).setFlag F.SENT_DVFS_ready 0 true).sceneJobGo
    else s)

end Sys2Proof.Machine
end

