-- ==== Sys2Proof/Machine/Cores.lean ====
section
/-! DEFINITION. The stage cores (R614 to R617), images and swap entries (R635 to R637, R645 to R650), the update protocol
(R638, R639), and the curtain's temperature limit (R641). -/

set_option Elab.async false

namespace Sys2Proof.Machine

/-! ### Images (R646, R647) -/

/-- First array offset of slot A, slot B and the staging area (R619). -/
def slotBase (slot : Nat) : Nat := 0x1000000 * (slot + 1)
def stagingBase : Nat := 0x3000000

/-- Bytes of an image, header included. -/
def State.imageLen (s : State) (a : Nat) : Nat := 512 + s.fwLE (a + 16) 4

/-- Check 1 of R647: magic, version, length, sections and the reserved fields. -/
def State.imageForm (s : State) (a : Nat) : Bool :=
  let kinds := (upto 3).map (fun k => s.fwLE (a + 128 + 16 * k) 4)
  s.fwLE a 4 == 0x4D495150 && s.fwLE (a + 4) 2 == 1 && decide (s.fwLE (a + 16) 4 ≤ 4 * 2 ^ 20 - 512) && s.fwLE (a + 20) 4 == 3 &&
    decide (s.fwLE (a + 12) 4 < 2) && s.fwLE (a + 176) 336 == 0 && [1, 2, 3].all (fun k => kinds.contains k)

/-- Checks 3 and 4 of R647: the security version, and the device that the image is bound to. -/
def State.imageFits (s : State) (a : Nat) : Bool :=
  decide (s.fld F.SEC_SVN_svn 0 ≤ s.fwLE (a + 8) 4) &&
    (s.fwLE (a + 24) 8 == 0 || s.fwLE (a + 24) 8 == Config.deviceId.toNat)

/-- R647; `signed` tells the outcome of checks 2 and 5: the signer is a root key that is not revoked, and the signature is
its own. -/
def State.imageOk (s : State) (a : Nat) (signed : Bool) : Bool := s.imageForm a && s.imageFits a && signed

/-- A section of an image by kind: its bytes. -/
def State.imageSection (s : State) (a kind : Nat) : List Byte :=
  match (upto 3).find? (fun k => s.fwLE (a + 128 + 16 * k) 4 == kind) with
  | some k => s.fwRead (a + s.fwLE (a + 132 + 16 * k) 4) (min (s.fwLE (a + 136 + 16 * k) 4) (4 * 2 ^ 20))
  | none => []

/-- What D of R647 is taken of: the header with the signature as zero, then the rest. -/
def State.imageD (s : State) (a : Nat) : List Byte :=
  s.fwRead a 64 ++ List.replicate 64 0 ++ s.fwRead (a + 128) (s.imageLen a - 128)

/-- The 64 bytes of a digest. -/
def digestBytes (d : BitVec 512) : List Byte := leBytes 64 d.toNat

/-- Extend a measurement register (R649). -/
def State.measure (s : State) (k : Nat) (bs : List Byte) : State :=
  let m := (upto 16).foldl (fun a w => a + (s.liveWord .SEC_MEAS (k * 16 + w)).toNat * 2 ^ (32 * w)) 0
  let n := (Config.extend (BitVec.ofNat 512 m) (Config.digest k bs)).toNat
  (upto 16).foldl (fun st w => st.setLive .SEC_MEAS (k * 16 + w) (n / 2 ^ (32 * w) % 2 ^ 32)) s

/-! ### Swap entries (R635) -/

/-- Array offset of page `p` of parameter sector 0 or 1. -/
def swapAt (sector p : Nat) : Nat := sector * 0x2000 + p * 256

/-- The valid swap entry at an offset: its sequence, slot and the place of its digest. -/
def State.swapEntry (s : State) (a : Nat) : Option (Nat × Nat × Nat) :=
  if s.fwLE a 4 = 0x50575053 ∧ crc32c (s.fwRead a 252) = s.fwLE (a + 252) 4 ∧ s.fwLE (a + 8) 1 < 2 then
    some (s.fwLE (a + 4) 4, s.fwLE (a + 8) 1, a + 16)
  else none

/-- Swap entries in descending sequence. -/
def insSwap (e : Nat × Nat × Nat) : List (Nat × Nat × Nat) → List (Nat × Nat × Nat)
  | [] => [e]
  | x :: t => if x.1 < e.1 then e :: x :: t else x :: insSwap e t
def State.swapEntries (s : State) : List (Nat × Nat × Nat) :=
  ((upto 64).filterMap (fun k => s.swapEntry (swapAt (k / 32) (k % 32)))).foldl (fun a e => insSwap e a) []

/-- Program a page by the security core. -/
def State.pageProg (s : State) (a : Nat) (bs : List Byte) : State :=
  let s1 := s.fwProg a bs
  { s1 with core := { s1.core with pages := setIns s1.core.pages (a / 256) } }

/-- Write the next swap entry (R635): a full sector is erased first. -/
def State.swapWrite (s : State) (slot : Nat) (digest : List Byte) : State :=
  let q := (match s.swapEntries with
    | e :: _ => e.1 + 1
    | [] => 0) % 2 ^ 32
  let sec := q % 2
  let free (st : State) := (upto 32).find? (fun p => !st.core.pages.contains (swapAt sec p / 256) && st.fwIsBlank (swapAt sec p) 256)
  let (s1, p) := match free s with
    | some p => (s, p)
    | none => (s.fwEraseWhole sec, 0)
  let body := leBytes 4 0x50575053 ++ leBytes 4 q ++ leBytes 1 slot ++ leBytes 7 0 ++ digest ++ leBytes 172 0
  ((s1.pageProg (swapAt sec p) (body ++ leBytes 4 (crc32c body))).setFld F.CURT_SWAP_SEQ_seq 0 q).raiseD Ev.FWF_SWAP q

/-! ### The update protocol (R638, R639) -/

/-- The inactive slot: 0 A, 1 B. -/
def State.idleSlot (s : State) : Nat := if s.flag F.CURT_BOOT_slot 0 then 0 else 1

/-- First global sector of a boot slot. -/
def slotSector (slot : Nat) : Nat := if slot = 0 then 158 else 286

/-- Why steps 2 to 4 cannot run now: the bank is busy; a sector of the slot is protected; an intent word is used up. -/
def State.slotShut (s : State) (slot : Nat) : Option EvId :=
  let is := (upto 32).map (fun k => slotSector slot + k)
  if is.any s.fwProtected then some Ev.FWF_PROT_DENIED
  else if is.any (fun i => s.fwIntentLeft i == 0) then some Ev.FWF_INTENT_FULL
  else none

/-- Steps 2 to 4 of R638: the slot is erased and programmed, read back, and named by a swap entry. -/
def State.slotWrite (s : State) (slot : Nat) : State :=
  let n := s.imageLen stagingBase
  let bs := s.fwRead stagingBase n
  let s1 := (s.setFlag F.CURT_BOOT_update 0 true)
  let s2 := (upto 32).foldl (fun st k => st.fwEraseWhole (slotSector slot + k)) s1
  let s3 := s2.fwProg (slotBase slot) bs
  let used := (upto ((n + 255) / 256)).map (fun p => slotBase slot / 256 + p)
  let s4 := { s3 with core := { s3.core with pages := used.foldl setIns s3.core.pages } }
  (s4.setFlag F.CURT_BOOT_update 0 false).swapWrite slot (digestBytes (Config.digest 8 bs))

/-- The next core of a roll is drained; after the last one the roll ends with its job. -/
def State.rollNext (s : State) (r : Roll) : State :=
  match r.left with
  | [] =>
    let s1 := ({ s with core := { s.core with roll := none } }).raise Ev.STC_ROLL_DONE
    (match s1.running 0x08 with
     | some j => s1.endJob j.id St.DONE
     | none => s1)
  | k :: rest =>
    let s1 := { s with core := { s.core with roll := some { r with left := rest, current := some k } } }
    (s1.setRw F.STC_CTL_drain 0 (setBits (s1.fld F.STC_CTL_drain 0) k k 1)).coresFollow

/-- A core of the roll runs the new image: the roll moves on. -/
def State.rollOn (s : State) (k : Nat) : State :=
  match s.core.roll with
  | some r => if r.current = some k then s.rollNext { r with current := none } else s
  | none => s

/-- A core is released to RUNNING (R616, R639). -/
def State.coreRun (s : State) (k : Nat) : State :=
  let s1 := s.setRw F.STC_CTL_drain 0 (setBits (s.fld F.STC_CTL_drain 0) k k 0)
  (({ s1 with core := { s1.core with kicks := mapSet s1.core.kicks k s1.clock } }).setFld F.STC_STAT_state k 0).dutiesNow

/-- The answer to Activate FW that a job owes its mailbox. -/
def State.fwTell (s : State) (j : Job) (ret : CxlRet) : State :=
  match j.waiter with
  | some (mb, op) => (s.setJob { j with waiter := none }).send (.mailbox mb op ret [])
  | none => s

/-- An online activation that runs as job `j` (R638 steps 1 to 5, R639). -/
def State.fwOnline (s : State) (j : Job) (signed : Bool) : State :=
  let slot := s.idleSlot
  if !s.imageOk stagingBase signed then
    ((((s.raise Ev.IMAGE_REJECTED).raise Ev.FWF_UPDATE_REFUSED).fwTell j .invalidInput).endJob j.id St.ILLEGAL)
  else if s.fwLE (stagingBase + 6) 2 ≠ s.core.rollLevel then (s.fwTell j .invalidInput).endJob j.id St.ILLEGAL
  else if !(s.fwOps (slot + 1)).isEmpty || !(s.fwOps 0).isEmpty then (s.fwTell j .busy).endJob j.id St.RETRY_LATER
  else match s.slotShut slot with
    | some e => ((s.raise e).fwTell j .invalidInput).endJob j.id St.ACCESS_DENIED
    | none =>
      let s1 := ((s.slotWrite slot).setFlag F.CURT_BOOT_slot 0 (slot == 1)).measure 6 (s.imageD stagingBase)
      (s1.fwTell j .success).rollNext { left := [0, 1, 2, 3], current := none, image := slot }

/-- An activation at the next reset (R638 steps 1 to 5). -/
def State.fwLater (s : State) (mb : Nat) (signed : Bool) : State :=
  let slot := s.idleSlot
  let tell (st : State) (r : CxlRet) : State := st.send (.mailbox mb 0x0202 r [])
  if !s.imageOk stagingBase signed then tell ((s.raise Ev.IMAGE_REJECTED).raise Ev.FWF_UPDATE_REFUSED) .invalidInput
  else if !(s.fwOps (slot + 1)).isEmpty || !(s.fwOps 0).isEmpty then tell s .busy
  else match s.slotShut slot with
    | some e => tell (s.raise e) .invalidInput
    | none => tell (s.slotWrite slot) .success

/-- A queued FW_UPDATE job starts. -/
def State.fwUpdate (s : State) (j : Job) (signed : Bool) : State :=
  let s1 := s.markStarted j
  match s1.job j.id with
  | some k => s1.fwOnline k signed
  | none => s1

/-- GET_FW_INFO (R124, R638): two slots, the active one, the one that the next reset takes, online activation; the CXL layout
is PRESUMED (log entry 14), the revision strings are not the spec's. -/
def State.fwInfo (s : State) (mb : Nat) : State :=
  let active := s.fld F.CURT_BOOT_slot 0 + 1
  let next := match s.swapEntries with
    | e :: _ => e.2.1 + 1
    | [] => active
  let (revs, s1) := s.freeBytes 64
  s1.answerStd mb 0x0200 (leBytes 1 2 ++ leBytes 1 (active + 8 * next) ++ leBytes 1 1 ++ leBytes 13 0 ++ revs)
def execGetFwInfo (mb : Nat) (input : List Byte) (s : State) : Res := .next (s.standard mb 0x0200 0 input (fun s => s.fwInfo mb))

/-- Pages of the staging area that a part fills. -/
def transferPages (off n : Nat) : List Nat := (upto ((n + 255) / 256)).map (fun p => (stagingBase + off) / 256 + p)

/-- TRANSFER_FW (R126, R638): a part of an image into the staging area, whatever slot it names; action 4 gives the transfer
up. -/
def State.transferFw (s : State) (mb : Nat) (input : List Byte) : State :=
  let off := leAt input 4 4 * 128
  let bs := input.drop 128
  let ps := transferPages off bs.length
  let tell (st : State) (r : CxlRet) : State := st.send (.mailbox mb 0x0201 r [])
  if leAt input 0 1 = 4 then tell s .success
  else if 4 < leAt input 0 1 ∨ off % 256 ≠ 0 ∨ 4 * 2 ^ 20 < off + bs.length then tell s .invalidInput
  else if !(s.fwOps 3).isEmpty then tell s .busy
  else if ps.any (fun p => s.core.pages.contains p) then tell s .invalidInput
  else if ps.any (fun p => s.fwProtected (fwSector (p * 256))) then tell (s.raise Ev.FWF_PROT_DENIED) .invalidInput
  else
    let s1 := s.fwProg (stagingBase + off) bs
    tell { s1 with core := { s1.core with pages := ps.foldl setIns s1.core.pages } } .success
def execTransferFw (mb : Nat) (input : List Byte) (s : State) : Res :=
  .next (if !s.mailUp then s.holdMail mb 0x0201 input
    else if input.length < 128 then s.send (.mailbox mb 0x0201 .invalidLength [])
    else s.transferFw mb input)

/-- ACTIVATE_FW (R126, R638, R639): action 0 is online, 1 at the next reset; slot 1 is A, 2 is B. `signed` tells the outcome
of checks 2 and 5 of R647. -/
def State.activateFw (s : State) (mb : Nat) (input : List Byte) (signed : Bool) : State :=
  let tell (st : State) (r : CxlRet) : State := st.send (.mailbox mb 0x0202 r [])
  if 1 < leAt input 0 1 ∨ leAt input 1 1 ≠ s.idleSlot + 1 then tell s .invalidInput
  else if leAt input 0 1 = 1 then s.fwLater mb signed
  else
    let (s1, st, id) := s.submit .controller true 0x08 0xFFFF 0 0 0
    if st ≠ St.DONE then tell s1 .busy
    else match s1.job id with
      | none => s1
      | some j =>
        let j1 := { j with waiter := some (mb, 0x0202) }
        let s2 := s1.setJob j1
        if s2.mayStart j1 then s2.fwUpdate j1 signed else s2
def execActivateFw (mb : Nat) (input : List Byte) (signed : Bool) (s : State) : Res :=
  .next (if !s.mailUp then s.holdMailOut mb 0x0202 input [b2n signed]
    else if input.length ≠ 2 then s.send (.mailbox mb 0x0202 .invalidLength [])
    else s.activateFw mb input signed).settle

/-! ### Watchdogs (R616, R650) -/

/-- The fused minimum SVN is raised once every core has written its watchdog (R650). -/
def State.svnCommit (s : State) : State :=
  match s.core.svnPending with
  | some v =>
    if s.core.kicked.length = 4 then
      (({ s with core := { s.core with svnPending := none } }).setFld F.SEC_SVN_svn 0 v).raiseD Ev.SVN_COMMITTED v
    else s
  | none => s

/-- STC_WDOG (R616): any write restarts the watchdog. -/
def State.watchdogKick (s : State) (core : Nat) : State :=
  if s.pwr.ctlUp && decide (core < 4) then
    ({ s with core := { s.core with kicks := mapSet s.core.kicks core s.clock,
                                    kicked := setIns s.core.kicked core } }).svnCommit
  else s
def execStcWdog (core : Nat) (s : State) : Res := .next (s.watchdogKick core)

/-- STC_WATCHDOG (R615, R616): 10 ms without a write halt a RUNNING core. -/
def State.watchdogOver (s : State) (core : Nat) : State :=
  if s.pwr.ctlUp && decide (core < 4) && s.fld F.STC_STAT_state core == 0 && s.due (mapGet 0 s.core.kicks core) 10000 then
    ((s.setFld F.STC_STAT_state core 2).dutiesNow).raiseD Ev.STC_WATCHDOG core
  else s
def execStcWatchdog (core : Nat) (s : State) : Res := .next (s.watchdogOver core)

/-! ### Temperature (R641) -/

/-- The byte of a temperature in two's complement, and the temperature of a byte. -/
def degByte (t : Int) : Nat := (t % 256).toNat
def byteDeg (b : Nat) : Int := if b < 128 then (b : Int) else (b : Int) - 256

/-- A POWER_CYCLE job of the controller starts at once in every state but a strike (R734): it requests the strike. -/
def State.cycleNow (s : State) : State :=
  if s.inStrike then s
  else
    let (s1, _, id) := s.submit .controller true 0x0E 0xFFFF 0x5043 0 0
    match s1.job id with
    | some j => (s1.markStarted j).strike 4
    | none => s1.strike 4

/-- THERM_SAMPLE (R641): the hottest of the 16 sensors, sampled every 100 µs. -/
def State.thermSample (s : State) (hot : Int) : State :=
  let s1 := s.setFld F.CURT_THERM_hot 0 (degByte hot)
  let s2 := if byteDeg (s1.fld F.CURT_THERM_peak 0) < hot then s1.setFld F.CURT_THERM_peak 0 (degByte hot) else s1
  let cold := if hot < 100 then some (s.sen.coldSince.getD s.clock) else none
  let n := if 115 ≤ hot then s.sen.hotSamples + 1 else 0
  let s3 := { s2 with sen := { s2.sen with coldSince := cold, hotSamples := n } }
  let on := s.flag F.CURT_THERM_throttle 0
  let s4 :=
    if 105 ≤ hot ∧ on = false then (s3.setFlag F.CURT_THERM_throttle 0 true).throttleFlag.raise Ev.THERM_THROTTLE
    else if on = true ∧ s3.heldFor cold 10000 = true then (s3.setFlag F.CURT_THERM_throttle 0 false).throttleFlag.raise Ev.THERM_NORMAL
    else s3
  if n = 3 then
    let s5 := (s4.setFlag F.CURT_THERM_trip 0 true).raise Ev.THERM_TRIP
    if s5.pwr.ctlUp then s5.cycleNow else s5.strike 4
  else s4
def execThermSample (hot : Int) (s : State) : Res :=
  .next (if s.pwr.step < 3 then s else (s.thermSample hot).settle)

end Sys2Proof.Machine
end

