-- ==== Sys2Proof/Machine/HostTraffic.lean ====
section
/-! DEFINITION. CXL.mem loads and stores of the hosts (R16, R25, R105, R106, R140, R152, R501, R515, R665). -/

set_option Elab.async false

namespace Sys2Proof.Machine

/-- A request of a host arrives at port ingress, where the host has a credit for it (R105, R106, R118, R140, R144, R665, R681): its
flit is one more use of a secure stream. What the arrays answer is met by a request that passes the access check; a damaged
ingress buffer by any. A request without a credit, or over a link that serves none, does not come. -/
def State.hostArrives (s : State) (q : Ingress) (err : PathErr) : State :=
  if !s.linkServes q.link || !s.ingressRoom q.link q.isStore then s
  else match s.ideUse q.link false with
    | (s1, false) => s1.settle
    | (s1, true) =>
      let insecure := s1.flag F.HPORT_CFG_ide_req q.link && !s1.flag F.HPORT_STAT_ide_secure q.link
      let q1 := { q with t0 := s1.clock, insecure := insecure, bad := err == .bufferUe }
      let k := s1.checkHost q1
      let s2 := if k.bad q1 = 0 ∨ err = .bufferUe then s1.meetError err (k.dpa.getD q.hpa / 64) k.cls else s1
      ({ s2 with path := { s2.path with ingress := s2.path.ingress ++ [q1] } }).settle.runBells

/-- HOST_LOAD (R25, R105, R106, R140, R144, R681): the request stands at port ingress; from there it goes on as far as it may. -/
def execHostLoad (link key hpa tag : Nat) (own : Bool) (err : PathErr) (s : State) : Res :=
  .next (s.hostArrives { link := link, key := key, hpa := hpa, tag := tag, isStore := false, own := own, mask := 0, data := 0,
                         t0 := 0, insecure := false, bad := false } err)

/-- HOST_STORE (R16, R105, R106, R140, R152, R681): as a load. -/
def execHostStore (link key hpa tag mask : Nat) (data : Line) (err : PathErr) (s : State) : Res :=
  .next (s.hostArrives { link := link, key := key, hpa := hpa, tag := tag, isStore := true, own := false, mask := mask % 2 ^ 64,
                         data := data, t0 := 0, insecure := false, bad := false } err)

end Sys2Proof.Machine
end

