-- ==== Sys2Proof/Machine/Scribes.lean ====
section
/-! DEFINITION. What every Bolastade instruction shares: fetching, fields, registers, readiness, traps, the address checks,
loads and stores (R418 to R429, R435 to R444, R453, R459 to R463). -/

set_option Elab.async false

namespace Sys2Proof.Machine

/-! ### Fields of an instruction word (R435) -/

def wOp (w : Nat) : Nat := bits w 31 26
/-- F-A, F-S: rd; F-I: a; F-M: rt. -/
def wRd (w : Nat) : Nat := bits w 25 21
/-- F-A, F-S: rs1; F-I: b; F-M: rb. -/
def wR1 (w : Nat) : Nat := bits w 20 16
def wR2 (w : Nat) : Nat := bits w 15 11
def wFunc (w : Nat) : Nat := bits w 10 0
def wImm (w : Nat) : Nat := bits w 15 0
def wSub (w : Nat) : Nat := bits w 5 0
def wImm5 (w : Nat) : Nat := bits w 10 6
def wVd (w : Nat) : Nat := bits w 25 23
def wV1 (w : Nat) : Nat := bits w 22 20
def wV2 (w : Nat) : Nat := bits w 19 17
def wPm (w : Nat) : Nat := bits w 16 15
def wEw (w : Nat) : Nat := bits w 14 13
def wRs (w : Nat) : Nat := bits w 12 8
def wFv (w : Nat) : Nat := bits w 7 0

/-- The low `n` bits of `v`, sign-extended to 64 bits, as an unsigned number (R459). -/
def sx (v n : Nat) : Nat :=
  let u := v % 2 ^ n
  if u < 2 ^ (n - 1) then u else u + 2 ^ 64 - 2 ^ n

/-! ### Registers (R423) -/

def Ctx.xr (c : Ctx) (n : Nat) : W64 := if n = 0 then 0 else mapGet 0 c.x n
def Ctx.setX (c : Ctx) (n : Nat) (v : W64) : Ctx := if n = 0 then c else { c with x := mapSet c.x n v }
def Ctx.vr (c : Ctx) (n : Nat) : Line := mapGet 0 c.v n
def Ctx.setV (c : Ctx) (n : Nat) (v : Line) : Ctx := { c with v := mapSet c.v n v }
def Ctx.pr (c : Ctx) (n : Nat) : W64 := if n = 0 then BitVec.allOnes 64 else mapGet 0 c.p n
def Ctx.setP (c : Ctx) (n : Nat) (v : W64) : Ctx := if n = 0 then c else { c with p := mapSet c.p n v }

/-- The next instruction (R459). -/
def Ctx.advance (c : Ctx) : Ctx := { c with pc := (c.pc + 4) % 2 ^ 64 }

/-! ### Fetch and issue (R418 to R420, R427, R436) -/

/-- The script that a context runs. -/
def State.ctxScript (s : State) (c : Ctx) : Option Script := s.script c.ld c.script

/-- A TEXT section holds the 4 bytes at a reservoir offset. -/
def Script.isText (x : Script) (o : Nat) : Bool :=
  x.sections.any (fun y => y.kind == 1 && decide (y.place ≤ o) && decide (o + 4 ≤ y.place + y.size))

/-- First reservoir byte of the context's share in its cluster. -/
def State.shareBase (s : State) (k : Nat) (c : Ctx) : Nat :=
  k / 16 / 9 * 8388608 + (match s.ctxScript c with
    | some x => mapGet 0 x.bases (k / 16 / 9)
    | none => 0)

/-- The word at `pc`; none: FETCH_BOUNDS (R427, R470). -/
def State.fetchWord (s : State) (k : Nat) (c : Ctx) : Option Nat :=
  match s.ctxScript c with
  | some x =>
    if c.pc / 2 ^ 60 = 1 && x.isText (c.pc % 2 ^ 60) then
      some (memReadLE 0 s.scr.reservoir (s.shareBase k c + c.pc % 2 ^ 60) 4)
    else none
  | none => none

/-- General registers that an operation in flight has still to write. -/
def Ctx.pendingX (c : Ctx) : List Nat :=
  c.ops.filterMap (fun o => match o.dest with
    | .reg rt _ _ _ => some rt
    | .atomic rd _ => some rd
    | .probe p => some p.rd
    | _ => none)

/-- Vector registers that a load in flight has still to write. -/
def Ctx.pendingV (c : Ctx) : List Nat :=
  c.ops.filterMap (fun o => match o.dest with
    | .vec vd _ => some vd
    | .bcast vd _ _ _ => some vd
    | _ => none)

/-- General registers that a word reads or writes (R435). -/
def wordX (w : Nat) : List Nat :=
  let op := wOp w
  if op = 0x01 ∨ (0x1C ≤ op ∧ op ≤ 0x1D) ∨ (0x28 ≤ op ∧ op ≤ 0x30) ∨ (0x3C ≤ op ∧ op ≤ 0x3D) then [wRd w, wR1 w, wR2 w]
  else if op = 0x11 then []
  else if 0x02 ≤ op ∧ op ≤ 0x19 then [wRd w, wR1 w]
  else if 0x20 ≤ op ∧ op ≤ 0x26 then [wRs w]
  else []

/-- Vector registers that a word reads or writes. -/
def wordV (w : Nat) : List Nat :=
  let op := wOp w
  if op = 0x20 ∨ op = 0x21 then [wVd w]
  else if op = 0x22 then [wV1 w, wV2 w]
  else if op = 0x24 then [wV1 w]
  else if 0x23 ≤ op ∧ op ≤ 0x26 then [wVd w, wV1 w, wV2 w]
  else []

/-- Operands of a word are available (R419). -/
def Ctx.operandsReady (c : Ctx) (w : Nat) : Bool :=
  (wordX w).all (fun n => n == 0 || !c.pendingX.contains n) && (wordV w).all (fun n => !c.pendingV.contains n)

/-- The context at a scribe that may issue now, with the word it issues (R419): it runs a ticket, nothing holds it, its
word is fetched and its operands are available. -/
def State.issue (s : State) (e cx : Nat) : Option (Ctx × Nat) :=
  if 16 ≤ cx then none
  else match s.ctx (e * 16 + cx) with
  | none => none
  | some c =>
    if c.block = .none then
      (match s.fetchWord (e * 16 + cx) c with
       | some w => if c.operandsReady w then some (c, w) else none
       | none => none)
    else none

/-- As `issue`, for a word of one row: its major opcode, and the bits of `mask` at `value` (R436). -/
def State.issueAs (s : State) (e cx major mask value : Nat) : Option (Ctx × Nat) :=
  match s.issue e cx with
  | some (c, w) => if wOp w = major ∧ w &&& mask = value then some (c, w) else none
  | none => none

/-! ### Traps (R437 to R440, R461) -/

/-- Trap causes. -/
inductive Trap where
  | illegalInsn | misaligned | addrBounds | addrAccess | writeRo | fetchBounds | fetchUe | dataUe | sealState
  | trap (status : Nat)
  | srAccess
deriving DecidableEq, Repr

/-- Code of a cause (R437). -/
def Trap.code : Trap → Nat
  | .illegalInsn => 0x01
  | .misaligned => 0x02
  | .addrBounds => 0x03
  | .addrAccess => 0x04
  | .writeRo => 0x05
  | .fetchBounds => 0x06
  | .fetchUe => 0x07
  | .dataUe => 0x08
  | .sealState => 0x09
  | .trap _ => 0x0A
  | .srAccess => 0x0B

/-- Status of a cause (R437). -/
def Trap.status : Trap → Nat
  | .illegalInsn => St.ILLEGAL
  | .misaligned => St.BOUNDS
  | .addrBounds => St.BOUNDS
  | .addrAccess => St.ACCESS_DENIED
  | .writeRo => St.BOUNDS
  | .fetchBounds => St.BOUNDS
  | .fetchUe => St.ENGINE_FAULT
  | .dataUe => St.POISONED
  | .sealState => St.ILLEGAL
  | .trap st => st
  | .srAccess => St.ILLEGAL

/-- Loads in flight that have a register to write. -/
def Ctx.loadsInFlight (c : Ctx) : Bool := c.ops.any (fun o => o.dest != .store)

/-- Take a trap at `pc` once every load in flight has written its register (R438): the handler, or the ticket's end.
An uncorrectable error of an inkwell or reservoir raises SRAM_UE first (R675, R702). -/
def State.takeTrap (s0 : State) (k : Nat) (c : Ctx) (t : Trap) : State :=
  if c.loadsInFlight then s0
  else
    let s := match t with
      | .dataUe => s0.raiseD Ev.SRAM_UE (k / 16)
      | .fetchUe => s0.raiseD Ev.SRAM_UE (k / 16)
      | _ => s0
    let handler := match s.ctxScript c with
      | some x => x.handler
      | none => 0
    if c.handler then
      ((s.faultRecord k t.code St.ENGINE_FAULT c.pc).raiseD Ev.DOUBLE_TRAP (k / 16)).endCtx k St.ENGINE_FAULT false false
    else if handler = 0 then
      let st := match t with
        | .trap v => if v = 0 ∨ 0x14 < v then St.ILLEGAL else v
        | _ => t.status
      (s.faultRecord k t.code st c.pc).endCtx k st false false
    else
      s.putCtx k { c with epc := c.pc, cause := t.code + 256 * t.status, handler := true, pc := 2 ^ 60 + handler }

/-- End a ticket under R441. -/
def State.endByEvent (s : State) (k : Nat) (c : Ctx) (status : Nat) : State :=
  (s.faultRecord k 0 status c.pc).endCtx k status false false

/-! ### Addresses (R32, R33, R426 to R429, R462, R463) -/

/-- One window of the ticket grants the rights over a granule (R428). -/
def State.windowOk (s : State) (c : Ctx) (g : Nat) (rd wr : Bool) : Bool :=
  (upto 16).any (fun i =>
    let w := s.window true c.ident i
    bitB c.win i && bitB w 63 && bitB w 60 && (!rd || bitB w 62) && (!wr || bitB w 61) && decide (bits w 19 0 ≤ g) &&
      decide (g ≤ bits w 51 32))

/-- A TEXT or RODATA section shares a byte with a range of the reservoir share. -/
def Script.readOnly (x : Script) (o n : Nat) : Bool :=
  x.sections.any (fun y => decide (y.kind ≤ 2) && areasMeet y.place y.size o n)

/-- The checks of an access of `n` bytes at a script address: the first trap that it meets, alignment apart. -/
def State.addrCheck (s : State) (c : Ctx) (a n : Nat) (rd wr : Bool) : Option Trap :=
  let o := a % 2 ^ 60
  match a / 2 ^ 60 % 16 with
  | 0 => (match s.ctxScript c with
    | some x => if o + n ≤ x.inkFoot then none else some .addrBounds
    | none => some .addrBounds)
  | 1 => (match s.ctxScript c with
    | some x => if x.resFoot < o + n then some .addrBounds
                else if wr && x.readOnly o n then some .writeRo else none
    | none => some .addrBounds)
  | 2 =>
    if 2 ^ 48 < o + n then some .addrBounds
    else if (upto ((o + n - 1) / 2 ^ 28 + 1 - o / 2 ^ 28)).all (fun i => s.windowOk c (o / 2 ^ 28 + i) rd wr) then none
    else some .addrAccess
  | 3 => if 0x1000 < o + n then some .addrBounds else if wr && decide (o < 0x40) then some .writeRo else none
  | _ => some .addrBounds

/-- A range shares a line with the open SEAL group (R473, R483). -/
def Ctx.inGroup (c : Ctx) (a n : Nat) : Bool :=
  c.sealOpen && a / 2 ^ 60 == 2 && decide (0 < n) && c.sealLines.any (fun l =>
    decide (a % 2 ^ 60 / 64 ≤ l) && decide (l ≤ (a % 2 ^ 60 + n - 1) / 64))

/-! ### Inkwell, reservoir and ticket space -/

/-- Bytes of a space that is not DPA. -/
def State.localRead (s : State) (k : Nat) (c : Ctx) (a n : Nat) : List Byte :=
  let o := a % 2 ^ 60
  match a / 2 ^ 60 % 16 with
  | 0 => memReadN 0 s.scr.inkwell (k / 16 * 524288 + c.inkBase + o) n
  | 1 => memReadN 0 s.scr.reservoir (s.shareBase k c + o) n
  | _ => (upto n).map (fun i => if o + i < 64 then (lineBytes c.ticket).getD (o + i) 0 else memRead 0 c.desc (o + i))

/-- Write bytes into a space that is not DPA; the ticket space belongs to the context. -/
def State.localWrite (s : State) (k : Nat) (c : Ctx) (a : Nat) (bs : List Byte) : State × Ctx :=
  let o := a % 2 ^ 60
  match a / 2 ^ 60 % 16 with
  | 0 => ({ s with scr := { s.scr with
      inkwell := memWriteN 0 s.scr.inkwell (k / 16 * 524288 + c.inkBase + o) bs } }, c)
  | 1 => ({ s with scr := { s.scr with
      reservoir := memWriteN 0 s.scr.reservoir (s.shareBase k c + o) bs } }, c)
  | _ => (s, { c with desc := memWriteN 0 c.desc o bs })

/-! ### DPA operations (R420, R444, R453) -/

/-- A free DPA operation slot of a scribe, of its 64. -/
def State.freeSlot (s : State) (e : Nat) : Option Nat :=
  let used := ((s.ctxsOf e).flatMap (fun p => p.2.ops.map (fun o => o.slot))).filter (fun n => decide (n < 64))
  if used.length < 64 then (upto 64).find? (fun n => !used.contains n) else none

/-- The bytes of a line that the context's own earlier stores give, as mask and data: stores in flight in their order,
then bytes held in the open SEAL group (R444). -/
def Ctx.ownBytes (c : Ctx) (line : Nat) : Nat × Line :=
  let merge (a : Nat × Line) (m : Nat) (d : Line) : Nat × Line :=
    (a.1 ||| m, lineOfBytes (mergeBytes m (lineBytes a.2) (lineBytes d)))
  let fl := (c.ops.filter (fun o => o.dest == .store && o.line == line)).foldl (fun a o => merge a o.mask o.data) (0, 0)
  match mapGet? c.sealBuf line with
  | some (m, d) => merge fl m d
  | none => fl

/-- Issue a read of one line for the context: its slot is taken and the request goes to the tracker as class 4. -/
def State.dpaLoad (s : State) (k slot : Nat) (c : Ctx) (dest : OpDest) (line : Nat) : State :=
  let (m, d) := c.ownBytes line
  let o : DpaOp := { slot := slot, dest := dest, line := line, mask := m, data := d }
  let s1 := s.putCtx k { c with ops := c.ops ++ [o] }
  (s1.accept (.script (k / 16) (k % 16) slot) false (line * 64) [] 4 s1.clock false false none).cueAuto k (line / 1024)

/-- Issue a store of bytes of one line; bytes of a line of the open SEAL group are held instead (R453). -/
def State.dpaStore (s : State) (k slot : Nat) (c : Ctx) (line mask : Nat) (data : Line) (rmw : Option Rmw)
    (dest : OpDest) (dpa : Nat) : State :=
  let o : DpaOp := { slot := slot, dest := dest, line := line, mask := mask, data := data }
  let s1 := s.putCtx k { c with ops := c.ops ++ [o], stores := c.stores ++ [s.path.nextAcc] }
  (s1.accept (.script (k / 16) (k % 16) slot) true dpa
    (if rmw.isSome then [] else [{ line := line, mask := mask, data := data }]) 4 s1.clock false false rmw).cueAuto k
    (line / 1024)

/-- Hold bytes of a store in the group buffer (R453). -/
def Ctx.holdBytes (c : Ctx) (line mask : Nat) (data : Line) : Ctx :=
  let (m, d) := mapGet (0, (0 : Line)) c.sealBuf line
  { c with sealBuf := mapSet c.sealBuf line (m ||| mask, lineOfBytes (mergeBytes mask (lineBytes d) (lineBytes data))) }

/-- The bytes of a value placed at byte `off` of a line. -/
def placeAt (off : Nat) (v : Nat) : Line := BitVec.ofNat 512 (v * 2 ^ (8 * off))

/-- A scalar or whole-vector store of `n` bytes within one line, after its checks: none when no slot is free. -/
def State.storeBytes (s : State) (k : Nat) (c : Ctx) (a n mask : Nat) (v : Nat) : Option State :=
  let c1 := c.advance
  if a / 2 ^ 60 % 16 = 2 then
    let dpa := a % 2 ^ 60
    let line := dpa / 64
    let m := mask * 2 ^ (dpa % 64) % 2 ^ 64
    let d := placeAt (dpa % 64) v
    if c.sealOpen && c.sealLines.contains line then some (s.putCtx k (c1.holdBytes line m d))
    else if m = 0 then some (s.putCtx k c1)
    else match s.freeSlot (k / 16) with
      | some slot => some ((s.dpaStore k slot c1 line m d none .store dpa).settle)
      | none => none
  else
    let old := s.localRead k c a n
    let (s1, c2) := s.localWrite k c1 a (mergeBytes mask old (leBytes n v))
    some (s1.putCtx k c2)

/-! ### The answer of a DPA load (R420, R438) -/

/-- Sign- or zero-extend an `n`-byte value to a register. -/
def extend (v n : Nat) (signed : Bool) : W64 := BitVec.ofNat 64 (if signed then sx v (8 * n) else v % 2 ^ (8 * n))

/-- Bytes `off` to `off + n − 1` of a line as a number. -/
def lineField (d : Line) (off n : Nat) : Nat := bits d.toNat (8 * (off + n) - 1) (8 * off)

/-- Elements of `n` bytes repeated over a line. -/
def repeatElem (v n : Nat) : Line := (upto (64 / n)).foldl (fun a i => a ||| placeAt (i * n) (v % 2 ^ (8 * n))) 0

/-- Merge the bytes that a mask names into a vector register. -/
def Ctx.mergeV (c : Ctx) (vd mask : Nat) (d : Line) : Ctx :=
  c.setV vd (lineOfBytes (mergeBytes mask (lineBytes (c.vr vd)) (lineBytes d)))

/-! ### PROBE (R488 to R491) -/

/-- `kmix` (R488). -/
def kmix (k seed : W64) : W64 :=
  let h := k ^^^ seed ^^^ 0x58517AC394E20D6B#64
  let h := h ^^^ (h >>> 31)
  let h := h * 0xA3B19C572E4D8F61#64
  let h := h ^^^ (h >>> 27)
  let h := h * 0x6C1EF08B5D27A3C9#64
  h ^^^ (h >>> 33)

/-- Look through one bucket line in address order (R490): the result, if it ends the probe. -/
def Probe.bucketScan (p : Probe) (bs : List Byte) : Option Nat :=
  let n := if p.kind = 0 then 4 else 8
  let w := if p.kind = 0 then 16 else 8
  let addr (i : Nat) : Nat := p.base + p.bucket * 64 + i * w
  let key (i : Nat) : Nat := leNat ((bs.drop (i * w)).take 8)
  match (upto n).find? (fun i => key i == p.key) with
  | some i => some (addr i)
  | none => ((upto n).find? (fun i => key i == p.empty)).map (fun i => addr i ||| 1)

/-- The next bucket of the chain. -/
def Probe.next (p : Probe) : Probe := { p with bucket := (p.bucket + 1) % (p.mask + 1), left := p.left - 1 }

/-- A probe of a table outside DPA, bucket by bucket. -/
def State.probeLocal (s : State) (k : Nat) (c : Ctx) : Nat → Probe → Nat
  | 0, _ => 1
  | n + 1, p =>
    match p.bucketScan (s.localRead k c (p.base + p.bucket * 64) 64) with
    | some r => r
    | none => if p.left ≤ 1 then 1 else s.probeLocal k c n p.next

/-! ### COPY and CRC (R484 to R487) -/

/-- Bytes of a DMA range that its reads cover, as line addresses. -/
def DmaRange.lines (r : DmaRange) : Nat :=
  if r.len = 0 then 0 else (r.src % 2 ^ 60 + r.len - 1) / 64 + 1 - r.src % 2 ^ 60 / 64

/-- The running CRC after `bs`, from `start` (R487). -/
def crcMore (poly start : Nat) (bs : List Byte) : Nat :=
  if poly = 0 then (2 ^ 32 - 1) ^^^ crcRun poly32c ((2 ^ 32 - 1) ^^^ start % 2 ^ 32) bs
  else (2 ^ 64 - 1) ^^^ crcRun poly64n ((2 ^ 64 - 1) ^^^ start) bs

/-- The bytes of a range once its reads have come. -/
def DmaJob.bytesOf (j : DmaJob) (r : DmaRange) : List Byte :=
  memReadN 0 j.buf (if r.src / 2 ^ 60 % 16 = 2 then r.src % 64 else 0) r.len

/-- Move a DMA job on as far as it may (R485, R486): up to 16 lines in flight, reads of a range before its writes. -/
def State.dmaAdvance (s : State) (k : Nat) : Nat → State
  | 0 => s
  | fuel + 1 =>
    match s.ctx k with
    | none => s
    | some c => match c.block with
      | .dma j => (match j.ranges with
        | [] => s
        | r :: rest =>
          let out := (c.ops.filter (fun o => match o.dest with
            | .dma _ => true
            | _ => false)).length
          let next : DmaJob := { j with ranges := rest, writing := false, issued := 0, buf := [] }
          if r.len = 0 then (s.putCtx k { c with block := .dma next }).dmaAdvance k fuel
          else if !j.writing then
            if r.src / 2 ^ 60 % 16 = 2 then
              if j.issued < r.lines then
                (match s.freeSlot (k / 16) with
                 | some slot =>
                   if out < 16 then
                     let c1 := { c with block := .dma { j with issued := j.issued + 1 } }
                     ((s.dpaLoad k slot c1 (.dma (j.issued * 64)) (r.src % 2 ^ 60 / 64 + j.issued)).settle).dmaAdvance k fuel
                   else s
                 | none => s)
              else if out = 0 then
                (let bs := j.bytesOf r
                 if j.crc.isSome then (s.putCtx k { c with block := .dma { next with done := j.done ++ bs } }).dmaAdvance k fuel
                 else (s.putCtx k { c with block := .dma { j with writing := true, issued := 0 } }).dmaAdvance k fuel)
              else s
            else
              let j1 : DmaJob := { j with buf := memWriteN 0 [] 0 (s.localRead k c r.src r.len) }
              if j.crc.isSome then
                (s.putCtx k { c with block := .dma { next with done := j.done ++ j1.bytesOf r } }).dmaAdvance k fuel
              else (s.putCtx k { c with block := .dma { j1 with writing := true, issued := 0 } }).dmaAdvance k fuel
          else if r.dst / 2 ^ 60 % 16 = 2 then
            if j.issued * 64 < r.len then
              (match s.freeSlot (k / 16) with
               | some slot =>
                 if out < 16 then
                   let c1 := { c with block := .dma { j with issued := j.issued + 1 } }
                   let bs := ((j.bytesOf r).drop (j.issued * 64)).take 64
                   let line := r.dst % 2 ^ 60 / 64 + j.issued
                   ((s.dpaStore k slot c1 line fullMask (lineOfBytes bs) none (.dma 0) (line * 64)).settle).dmaAdvance k fuel
                 else s
               | none => s)
            else if out = 0 then (s.putCtx k { c with block := .dma next }).dmaAdvance k fuel
            else s
          else
            let (s1, c1) := s.localWrite k c r.dst (j.bytesOf r)
            (s1.putCtx k { c1 with block := .dma next }).dmaAdvance k fuel)
      | _ => s

/-- Steps that a DMA job may take in one command. -/
def dmaFuel : Nat := 1024

/-! ### DPA_OP_RESPONSE (R420, R441, R444, R685) -/

/-- Take the answer of one DPA operation. -/
def State.dpaAnswer (s : State) (k : Nat) (c : Ctx) (o : DpaOp) (r : ScriptResult) : State :=
  let ops := c.ops.filter (fun x => x.slot != o.slot)
  let c1 := { c with ops := ops }
  let d := lineOfBytes (mergeBytes o.mask (lineBytes r.data) (lineBytes o.data))
  if r.status ≠ 0 then (s.putCtx k c1).endByEvent k c1 r.status
  else match o.dest with
    | .store => (s.putCtx k c1).tryFinish k
    | .reg rt n sg off => s.putCtx k (c1.setX rt (extend (lineField d off n) n sg))
    | .vec vd m => s.putCtx k (c1.mergeV vd m d)
    | .bcast vd m n off => s.putCtx k (c1.mergeV vd m (repeatElem (lineField d off n) n))
    | .atomic rd n => s.putCtx k (c1.setX rd (extend r.data.toNat n false))
    | .probe p =>
      (match p.bucketScan (lineBytes d) with
       | some v => s.putCtx k (c1.setX p.rd (BitVec.ofNat 64 v))
       | none =>
         if p.left ≤ 1 then s.putCtx k (c1.setX p.rd 1)
         else (s.dpaLoad k o.slot c1 (.probe p.next) ((p.next.base + p.next.bucket * 64) % 2 ^ 60 / 64)).settle)
    | .dma off =>
      (match c1.block with
       | .dma j =>
         let c2 := { c1 with block := .dma (if j.writing then j else
           { j with buf := memWriteN 0 j.buf off (lineBytes d) }) }
         (s.putCtx k c2).dmaAdvance k dmaFuel
       | _ => s.putCtx k c1)

/-- DPA_OP_RESPONSE (R420): the oldest answer of a context is taken and its slot is free; an answer for an operation that
is gone is discarded (R511). -/
def execDpaOpResponse (e cx : Nat) (s : State) : Res :=
  let k := e * 16 + cx
  .next (match s.path.results.find? (fun r => r.scribe == e && r.ctx == cx) with
    | none => s
    | some r =>
      let s1 := { s with path := { s.path with results := s.path.results.erase r } }
      match s1.ctx k with
      | none => s1.staleTicket
      | some c => match c.ops.find? (fun o => o.slot == r.slot) with
        | some o => s1.dpaAnswer k c o r
        | none => s1)

end Sys2Proof.Machine
end

