-- ==== Sys2Proof/Machine/Integer.lean ====
section
/-! DEFINITION. Bolastade integer and control instructions (R464 to R470, R488, R495, R498). A command names a scribe and one
of its contexts; it has its effect when the word at the context's `pc` is an instruction of its row and may issue, and
otherwise the context does not issue it. -/

set_option Elab.async false

namespace Sys2Proof.Machine

/-- 1 for true, 0 for false, as a register value. -/
def truth (b : Bool) : W64 := if b then 1 else 0

/-- One instruction of major 0x01 (R464): unary forms have rs2 = 0. -/
def State.alu (s : State) (e cx func : Nat) (unary : Bool) (f : W64 → W64 → W64) : State :=
  match s.issueAs e cx 0x01 0x7FF func with
  | none => s
  | some (c, w) =>
    if unary && wR2 w != 0 then s.takeTrap (e * 16 + cx) c .illegalInsn
    else s.setCtx (e * 16 + cx) ((c.setX (wRd w) (f (c.xr (wR1 w)) (c.xr (wR2 w)))).advance)

/-- One instruction of majors 0x02 to 0x0B (R466, R467). -/
def State.aluI (s : State) (e cx major : Nat) (legal : Nat → Bool) (f : W64 → Nat → W64) : State :=
  match s.issueAs e cx major 0 0 with
  | none => s
  | some (c, w) =>
    if legal w then s.setCtx (e * 16 + cx) ((c.setX (wRd w) (f (c.xr (wR1 w)) (wImm w))).advance)
    else s.takeTrap (e * 16 + cx) c .illegalInsn

/-- The branch target of a word (R468). -/
def Ctx.target (c : Ctx) (w : Nat) : Nat := (c.pc + sx (wImm w) 16 * 4) % 2 ^ 64

/-- A branch on one register (R468): field a is 0. -/
def State.branch (s : State) (e cx major : Nat) (cond : W64 → Bool) : State :=
  match s.issueAs e cx major 0 0 with
  | none => s
  | some (c, w) =>
    if wRd w ≠ 0 then s.takeTrap (e * 16 + cx) c .illegalInsn
    else s.setCtx (e * 16 + cx) (if cond (c.xr (wR1 w)) then { c with pc := c.target w } else c.advance)

/-- ADD (R464). -/
def execAdd (e cx : Nat) (s : State) : Res := .next (s.alu e cx 0x000 false (fun a b => a + b))
/-- SUB (R464). -/
def execSub (e cx : Nat) (s : State) : Res := .next (s.alu e cx 0x001 false (fun a b => a - b))
/-- NEG (R464). -/
def execNeg (e cx : Nat) (s : State) : Res := .next (s.alu e cx 0x002 true (fun a _ => 0 - a))
/-- AND (R464). -/
def execAnd (e cx : Nat) (s : State) : Res := .next (s.alu e cx 0x010 false (fun a b => a &&& b))
/-- OR (R464). -/
def execOr (e cx : Nat) (s : State) : Res := .next (s.alu e cx 0x011 false (fun a b => a ||| b))
/-- XOR (R464). -/
def execXor (e cx : Nat) (s : State) : Res := .next (s.alu e cx 0x012 false (fun a b => a ^^^ b))
/-- ANDN (R464). -/
def execAndn (e cx : Nat) (s : State) : Res := .next (s.alu e cx 0x013 false (fun a b => a &&& ~~~b))
/-- ORN (R464). -/
def execOrn (e cx : Nat) (s : State) : Res := .next (s.alu e cx 0x014 false (fun a b => a ||| ~~~b))
/-- SHL (R464). -/
def execShl (e cx : Nat) (s : State) : Res := .next (s.alu e cx 0x020 false (fun a b => a <<< (b.toNat % 64)))
/-- SHR: zeros are shifted in (R464). -/
def execShr (e cx : Nat) (s : State) : Res := .next (s.alu e cx 0x021 false (fun a b => a >>> (b.toNat % 64)))
/-- SAR: copies of bit 63 are shifted in (R464). -/
def execSar (e cx : Nat) (s : State) : Res := .next (s.alu e cx 0x022 false (fun a b => a.sshiftRight (b.toNat % 64)))
/-- ROR (R464). -/
def execRor (e cx : Nat) (s : State) : Res := .next (s.alu e cx 0x023 false (fun a b => a.rotateRight (b.toNat % 64)))
/-- CMP.EQ (R464). -/
def execCmpEq (e cx : Nat) (s : State) : Res := .next (s.alu e cx 0x030 false (fun a b => truth (a == b)))
/-- CMP.NE (R464). -/
def execCmpNe (e cx : Nat) (s : State) : Res := .next (s.alu e cx 0x031 false (fun a b => truth (a != b)))
/-- CMP.LT, signed (R464). -/
def execCmpLt (e cx : Nat) (s : State) : Res := .next (s.alu e cx 0x032 false (fun a b => truth (a.slt b)))
/-- CMP.LE, signed (R464). -/
def execCmpLe (e cx : Nat) (s : State) : Res := .next (s.alu e cx 0x033 false (fun a b => truth (a.sle b)))
/-- CMP.LTU (R464). -/
def execCmpLtu (e cx : Nat) (s : State) : Res := .next (s.alu e cx 0x034 false (fun a b => truth (a.ult b)))
/-- CMP.LEU (R464). -/
def execCmpLeu (e cx : Nat) (s : State) : Res := .next (s.alu e cx 0x035 false (fun a b => truth (a.ule b)))
/-- MIN: signed minimum (R464). -/
def execMin (e cx : Nat) (s : State) : Res := .next (s.alu e cx 0x038 false (fun a b => if a.sle b then a else b))
/-- MAX: signed maximum (R464). -/
def execMax (e cx : Nat) (s : State) : Res := .next (s.alu e cx 0x039 false (fun a b => if a.sle b then b else a))
/-- MINU: unsigned minimum (R464). -/
def execMinu (e cx : Nat) (s : State) : Res := .next (s.alu e cx 0x03a false (fun a b => if a.ule b then a else b))
/-- MAXU: unsigned maximum (R464). -/
def execMaxu (e cx : Nat) (s : State) : Res := .next (s.alu e cx 0x03b false (fun a b => if a.ule b then b else a))
/-- MUL (R464). -/
def execMul (e cx : Nat) (s : State) : Res := .next (s.alu e cx 0x040 false (fun a b => a * b))
/-- MULHI.S: high half of the signed product (R464). -/
def execMulhiS (e cx : Nat) (s : State) : Res := .next (s.alu e cx 0x041 false (fun a b => BitVec.ofInt 64 ((a.toInt * b.toInt) / 2 ^ 64)))
/-- MULHI.U: high half of the unsigned product (R464). -/
def execMulhiU (e cx : Nat) (s : State) : Res := .next (s.alu e cx 0x042 false (fun a b => BitVec.ofNat 64 (a.toNat * b.toNat / 2 ^ 64)))
/-- DIV (R465): truncated; by zero 0; −2^63 by −1 gives −2^63 (R464). -/
def execDiv (e cx : Nat) (s : State) : Res := .next (s.alu e cx 0x048 false (fun a b => a.sdiv b))
/-- DIVU (R465): by zero 0 (R464). -/
def execDivu (e cx : Nat) (s : State) : Res := .next (s.alu e cx 0x049 false (fun a b => a.udiv b))
/-- REM (R465): sign of the dividend; by zero the dividend (R464). -/
def execRem (e cx : Nat) (s : State) : Res := .next (s.alu e cx 0x04a false (fun a b => a.srem b))
/-- REMU (R465): by zero the dividend (R464). -/
def execRemu (e cx : Nat) (s : State) : Res := .next (s.alu e cx 0x04b false (fun a b => a.umod b))
/-- LZC: 64 for zero (R464). -/
def execLzc (e cx : Nat) (s : State) : Res := .next (s.alu e cx 0x050 true (fun a _ => BitVec.ofNat 64 (64 - bitLen a.toNat)))
/-- TZC: 64 for zero (R464). -/
def execTzc (e cx : Nat) (s : State) : Res := .next (s.alu e cx 0x051 true (fun a _ => BitVec.ofNat 64 (((upto 64).find? (fun i => bitB a.toNat i)).getD 64)))
/-- ONES (R464). -/
def execOnes (e cx : Nat) (s : State) : Res := .next (s.alu e cx 0x052 true (fun a _ => BitVec.ofNat 64 (popN 64 a.toNat)))
/-- REVB (R464). -/
def execRevb (e cx : Nat) (s : State) : Res := .next (s.alu e cx 0x053 true (fun a _ => BitVec.ofNat 64 (leNat (leBytes 8 a.toNat).reverse)))

/-- ADD.I (R466). -/
def execAddI (e cx : Nat) (s : State) : Res :=
  .next (s.aluI e cx 0x02 (fun _ => true) (fun a i => a + BitVec.ofNat 64 (sx i 16)))
/-- AND.I: zero-extended (R466). -/
def execAndI (e cx : Nat) (s : State) : Res :=
  .next (s.aluI e cx 0x03 (fun _ => true) (fun a i => a &&& BitVec.ofNat 64 i))
/-- OR.I: zero-extended (R466). -/
def execOrI (e cx : Nat) (s : State) : Res :=
  .next (s.aluI e cx 0x04 (fun _ => true) (fun a i => a ||| BitVec.ofNat 64 i))
/-- XOR.I: zero-extended (R466). -/
def execXorI (e cx : Nat) (s : State) : Res :=
  .next (s.aluI e cx 0x05 (fun _ => true) (fun a i => a ^^^ BitVec.ofNat 64 i))
/-- CMP.EQ.I (R466). -/
def execCmpEqI (e cx : Nat) (s : State) : Res :=
  .next (s.aluI e cx 0x06 (fun _ => true) (fun a i => truth (a == BitVec.ofNat 64 (sx i 16))))
/-- CMP.LT.I, signed (R466). -/
def execCmpLtI (e cx : Nat) (s : State) : Res :=
  .next (s.aluI e cx 0x07 (fun _ => true) (fun a i => truth (a.slt (BitVec.ofNat 64 (sx i 16)))))
/-- SHL.I (R467) (R466). -/
def execShlI (e cx : Nat) (s : State) : Res :=
  .next (s.aluI e cx 0x08 (fun w => bits w 15 6 == 0) (fun a i => a <<< (i % 64)))
/-- SHR.I (R467) (R466). -/
def execShrI (e cx : Nat) (s : State) : Res :=
  .next (s.aluI e cx 0x09 (fun w => bits w 15 6 == 0) (fun a i => a >>> (i % 64)))
/-- SAR.I (R467) (R466). -/
def execSarI (e cx : Nat) (s : State) : Res :=
  .next (s.aluI e cx 0x0a (fun w => bits w 15 6 == 0) (fun a i => a.sshiftRight (i % 64)))
/-- HIGH (R466). -/
def execHigh (e cx : Nat) (s : State) : Res :=
  .next (s.aluI e cx 0x0b (fun w => wR1 w == 0) (fun _ i => BitVec.ofNat 64 (i * 2 ^ 48)))

/-- BZ (R468). -/
def execBz (e cx : Nat) (s : State) : Res := .next (s.branch e cx 0x0c (fun v => v == 0))
/-- BNZ (R468). -/
def execBnz (e cx : Nat) (s : State) : Res := .next (s.branch e cx 0x0d (fun v => v != 0))
/-- BNEG (R468). -/
def execBneg (e cx : Nat) (s : State) : Res := .next (s.branch e cx 0x0e (fun v => v.slt 0))
/-- BNNEG (R468). -/
def execBnneg (e cx : Nat) (s : State) : Res := .next (s.branch e cx 0x0f (fun v => !v.slt 0))

/-- DBNZ (R468): the register is written first; b = 0 traps. -/
def execDbnz (e cx : Nat) (s : State) : Res :=
  .next (match s.issueAs e cx 0x10 0 0 with
    | none => s
    | some (c, w) =>
      if wRd w ≠ 0 ∨ wR1 w = 0 then s.takeTrap (e * 16 + cx) c .illegalInsn
      else
        let c1 := c.setX (wR1 w) (c.xr (wR1 w) - 1)
        s.setCtx (e * 16 + cx) (if c1.xr (wR1 w) != 0 then { c1 with pc := c1.target w } else c1.advance))

/-- BPANY (R468). -/
def execBpany (e cx : Nat) (s : State) : Res :=
  .next (match s.issueAs e cx 0x11 0 0 with
    | none => s
    | some (c, w) =>
      if 4 ≤ wRd w ∨ wR1 w ≠ 0 then s.takeTrap (e * 16 + cx) c .illegalInsn
      else s.setCtx (e * 16 + cx) (if c.pr (wRd w) != 0 then { c with pc := c.target w } else c.advance))

/-- CALL (R469): b is 0. -/
def execCall (e cx : Nat) (s : State) : Res :=
  .next (match s.issueAs e cx 0x12 0 0 with
    | none => s
    | some (c, w) =>
      if wR1 w ≠ 0 then s.takeTrap (e * 16 + cx) c .illegalInsn
      else s.setCtx (e * 16 + cx) { c.setX (wRd w) (BitVec.ofNat 64 (c.pc + 4)) with pc := c.target w })

/-- JUMP (R469): the target is computed before the link is written; a misaligned target traps. -/
def execJump (e cx : Nat) (s : State) : Res :=
  .next (match s.issueAs e cx 0x13 0 0 with
    | none => s
    | some (c, w) =>
      let t := ((c.xr (wR1 w)).toNat + sx (wImm w) 16 * 4) % 2 ^ 64
      if t % 4 ≠ 0 then s.takeTrap (e * 16 + cx) c .misaligned
      else s.setCtx (e * 16 + cx) { c.setX (wRd w) (BitVec.ofNat 64 (c.pc + 4)) with pc := t })

/-- HASH (R488): func is 0. -/
def execHash (e cx : Nat) (s : State) : Res :=
  .next (match s.issueAs e cx 0x2C 0 0 with
    | none => s
    | some (c, w) =>
      if wFunc w ≠ 0 then s.takeTrap (e * 16 + cx) c .illegalInsn
      else s.setCtx (e * 16 + cx) ((c.setX (wRd w) (kmix (c.xr (wR1 w)) (c.xr (wR2 w)))).advance))

/-! ### System instructions (R425, R495, R498) -/

/-- Fields of an F-S word that its row does not name are zero (R460, R495). -/
def fsZero (w : Nat) (rd r1 r2 i5 : Bool) : Bool :=
  (!rd || wRd w == 0) && (!r1 || wR1 w == 0) && (!r2 || wR2 w == 0) && (!i5 || wImm5 w == 0)

/-- The value of a special register (R425). -/
def Ctx.special (c : Ctx) (n : Nat) : Option Nat :=
  match n with
  | 0 => some c.pc
  | 1 => some (c.slot + c.queue * 2 ^ 16 + c.ld * 2 ^ 32)
  | 2 => some c.win
  | 3 => some c.gen
  | 4 => some c.cause
  | 5 => some c.epc
  | _ => none

/-- RDSR (R425). -/
def execRdsr (e cx : Nat) (s : State) : Res :=
  .next (match s.issueAs e cx 0x3D 0x3F 0x00 with
    | none => s
    | some (c, w) =>
      if !fsZero w false true true false then s.takeTrap (e * 16 + cx) c .illegalInsn
      else match c.special (wImm5 w) with
        | none => s.takeTrap (e * 16 + cx) c .srAccess
        | some v => s.setCtx (e * 16 + cx) ((c.setX (wRd w) (BitVec.ofNat 64 v)).advance))

/-- WRSR (R425, R439, R498): `win` keeps only bits that are 1 in both; `cause` and `epc` in handler mode only; writing 0 to
`cause` ends handler mode. -/
def execWrsr (e cx : Nat) (s : State) : Res :=
  .next (match s.issueAs e cx 0x3D 0x3F 0x01 with
    | none => s
    | some (c, w) =>
      let v := (c.xr (wR1 w)).toNat
      let n := wImm5 w
      if !fsZero w true false true false then s.takeTrap (e * 16 + cx) c .illegalInsn
      else if n = 2 then s.putCtx (e * 16 + cx) { c.advance with win := c.win &&& (v % 2 ^ 16) }
      else if n = 4 ∧ c.handler then
        s.putCtx (e * 16 + cx) { c.advance with cause := v % 2 ^ 16, handler := decide (v % 2 ^ 16 ≠ 0) }
      else if n = 5 ∧ c.handler then s.putCtx (e * 16 + cx) { c.advance with epc := v }
      else s.takeTrap (e * 16 + cx) c .srAccess)

/-- YIELD (R419, R495): the context is held for one round. -/
def execYield (e cx : Nat) (s : State) : Res :=
  .next (match s.issueAs e cx 0x3C 0x3F 0x00 with
    | none => s
    | some (c, w) =>
      if !fsZero w true true true true then s.takeTrap (e * 16 + cx) c .illegalInsn
      else s.setCtx (e * 16 + cx) { c.advance with block := .yield })

/-- The status that a HALT ends its ticket with (R497). -/
def haltStatus (v : Nat) : Nat × Bool :=
  if 0x14 < v ∨ [St.ABORTED, St.ALREADY_DONE, St.STALE_TICKET, St.FENCED, St.ENGINE_FAULT].contains v then (St.ILLEGAL, false)
  else (v, true)

/-- HALT (R451, R496, R497): waits for the ticket's stores, then writes the completion. -/
def execHalt (e cx : Nat) (s : State) : Res :=
  .next (match s.issueAs e cx 0x3C 0x3F 0x01 with
    | none => s
    | some (c, w) =>
      if !fsZero w true false false true then s.takeTrap (e * 16 + cx) c .illegalInsn
      else if c.sealOpen then s.takeTrap (e * 16 + cx) c .sealState
      else
        let (st, ok) := haltStatus (c.xr (wR1 w)).toNat
        let res := if ok then (c.xr (wR2 w)).toNat else 0
        ((s.setCtx (e * 16 + cx) { c with block := .halt st res }).tryFinish (e * 16 + cx)).settle)

/-- Words of some row of the opcode table, as (major, mask, value) (R436, R464, R475, R478, R479, R494, R495). -/
def rowWords : List (Nat × Nat × Nat) :=
  ([0, 1, 2, 0x10, 0x11, 0x12, 0x13, 0x14, 0x20, 0x21, 0x22, 0x23, 0x30, 0x31, 0x32, 0x33, 0x34, 0x35, 0x38, 0x39, 0x3A,
    0x3B, 0x40, 0x41, 0x42, 0x48, 0x49, 0x4A, 0x4B, 0x50, 0x51, 0x52, 0x53].map (fun f => (1, 0x7FF, f))) ++
  ((upto 18).map (fun m => (m + 2, 0, 0))) ++
  [(0x18, 0, 0), (0x19, 0, 0), (0x1C, 0, 0), (0x1D, 0, 0), (0x20, 0xC0, 0), (0x20, 0xC0, 0x40), (0x21, 0xC0, 0),
   (0x22, 0, 0), (0x23, 0, 0), (0x24, 0, 0), (0x25, 0, 0), (0x26, 0, 0), (0x28, 0x3F, 0), (0x28, 0x3F, 1), (0x28, 0x3F, 2),
   (0x29, 0x3F, 0), (0x29, 0x3F, 1), (0x2A, 0, 0), (0x2B, 0, 0), (0x2C, 0, 0), (0x2D, 0, 0), (0x2E, 0, 0), (0x2F, 0, 0),
   (0x30, 0x3F, 0), (0x3C, 0x3F, 0), (0x3C, 0x3F, 1), (0x3C, 0x3F, 2), (0x3D, 0x3F, 0), (0x3D, 0x3F, 1)]

/-- The word belongs to a row of the table. -/
def hasRow (w : Nat) : Bool := rowWords.any (fun r => wOp w == r.1 && w &&& r.2.1 == r.2.2)

/-- TRAP (R427, R436, R438 to R440, R442, R470, R495): the TRAP instruction, a word of no row, a `pc` outside TEXT, or an
uncorrectable error in the fetched code, which also marks the script DAMAGED in its cluster. -/
def execTrap (e cx : Nat) (fetchUe : Bool) (s : State) : Res :=
  let k := e * 16 + cx
  .next (if 16 ≤ cx then s else match s.ctx k with
    | none => s
    | some c =>
      if c.block ≠ .none then s
      else match s.fetchWord k c with
        | none => (s.takeTrap k c .fetchBounds).settle
        | some w =>
          if fetchUe then
            let xs := s.scr.scripts.map (fun x =>
              if x.ld == c.ld && x.id == c.script then { x with damaged := setIns x.damaged (e / 9) } else x)
            (((({ s with scr := { s.scr with scripts := xs } }).raiseD Ev.SCRIPT_DAMAGED c.script).takeTrap k c .fetchUe)).settle
          else if !hasRow w then (s.takeTrap k c .illegalInsn).settle
          else if wOp w = 0x3C ∧ wSub w = 2 ∧ c.operandsReady w then
            (if !fsZero w true false true false then (s.takeTrap k c .illegalInsn).settle
             else (s.takeTrap k c (.trap (((c.xr (wR1 w)).toNat + wImm5 w) % 256))).settle)
          else s)

end Sys2Proof.Machine
end

