-- ==== Sys2Proof/Machine/Integrity.lean ====
section
/-! DEFINITION. The SRAM patrol (R676, R677) and the check-value units (R690 to R694). -/

set_option Elab.async false

namespace Sys2Proof.Machine

/-- SRAM_PATROL (R675 to R677): the patrol reads a word and rewrites a corrected one. An uncorrectable word is handled by its
class; a prompt-book record is dropped and counted. -/
def State.sramPatrol (s : State) (f : PatrolFind) : State :=
  match f with
  | .good => s
  | .corrected cls row => s.sramCe (cls % 8) row
  | .cacheWord slice way row => (s.wayCe (slice % 32) (way % 16)).sramCe 0 row
  | .line err line => s.meetError err line 11
  | .record slot =>
    let s1 := s.raiseD Ev.SRAM_UE slot
    (match mapGet? s1.pb.ring slot with
     | none => s1
     | some r => ((({ s1 with pb := { s1.pb with ring := mapDel s1.pb.ring slot } }).addSat (pbDropFld r.severity) 0
         1).pbCounts).raiseDropped)
  | .other cls place => s.raiseD Ev.SRAM_UE (wide32 (cls % 8) place)
def execSramPatrol (f : PatrolFind) (s : State) : Res := .next (s.sramPatrol f).settle

/-! ### Check-value units -/

/-- Units 1 to 3 are fed by hardware (R690). -/
def hwFed (u : Nat) : Bool := decide (1 ≤ u) && decide (u ≤ 3)

/-- Control SRAM: 3 MiB of each core, then the 4 MiB they share; its place is PRESUMED (log entry 52). -/
def sharedSram : Nat := 0xC00000
def ctlSramSize : Nat := 0x1000000

/-- Place of descriptor `k` of a unit's ring (R691). -/
def State.descAt (s : State) (u k : Nat) : Nat :=
  sharedSram + (s.fld F.CHK_RING_BASE_base u * 8192) % 0x400000 + k % 256 * 32

/-- A descriptor is malformed: length, space or a reserved flag (R691, R693). -/
def descBad (d : List Byte) : Bool :=
  let len := leAt d 8 3
  len == 0 || decide (8388608 < len) || decide (3 < leAt d 11 1)

/-- Bytes of a space (R691). -/
def State.spaceSize (s : State) (sp : Nat) : Nat :=
  match sp with
  | 0 => s.fld F.REGION_CAP_granules 0 * 2 ^ 28
  | 1 => ctlSramSize
  | 2 => 0x4000000
  | _ => 0x100000000

/-- The bytes of a buffer as they are now. -/
def State.bufferRead (s : State) (sp a n : Nat) : List Byte :=
  match sp with
  | 0 => (upto n).map (fun i => (lineBytes (s.peekLine ((a + i) / 64))).getD ((a + i) % 64) 0)
  | 1 => memReadN 0 s.integ.ctlSram a n
  | 2 => s.fwRead a n
  | _ => memReadN 0 s.integ.ctlArea a n

/-- The CRC of a buffer, continued from an earlier result where the descriptor chains (R691). -/
def descCrc (wide : Bool) (chain : Bool) (prev : Nat) (bs : List Byte) : Nat :=
  let ones := if wide then 2 ^ 64 - 1 else 2 ^ 32 - 1
  let start := if chain then ones ^^^ (prev % (ones + 1)) else ones
  ones ^^^ crcRun (if wide then poly64n else poly32c) start bs

/-- A unit takes its next descriptor, if its ring holds one. -/
def State.unitBusy (s : State) (u : Nat) : State :=
  s.setFlag F.CHK_STAT_busy u (s.fld F.CHK_RING_HEAD_head u != s.fld F.CHK_RING_TAIL_tail u)

/-- The status with which a descriptor ends (R692, R693). -/
def State.descStatus (s : State) (d : List Byte) (ue : Bool) : Nat :=
  if descBad d then St.ILLEGAL else if s.spaceSize (leAt d 11 1) < leAt d 0 8 + leAt d 8 3 then St.BOUNDS
  else if ue then St.POISONED else St.DONE

/-- The CRC that a descriptor computes over its buffer, 0 unless it ends DONE (R691, R692). -/
def State.descValue (s : State) (u : Nat) (d : List Byte) (ok : Bool) : Nat :=
  let flags := leAt d 12 1
  let prev := (mapGet { lastCrc := 0 } s.integ.units u).lastCrc
  if ok then descCrc (bitB flags 0) (bitB flags 4) prev (s.bufferRead (leAt d 11 1) (leAt d 0 8) (leAt d 8 3)) else 0

/-- The descriptor at the head is written back and the head moves on (R691, R692). -/
def State.descPut (s : State) (u st crc flags : Nat) : State :=
  let head := s.fld F.CHK_RING_HEAD_head u
  let a := s.descAt u head
  let m := memWriteN 0 (memWriteN 0 s.integ.ctlSram (a + 24) (leBytes 8 crc)) (a + 12) (leBytes 1 flags ++ leBytes 1 st)
  let units := if st = St.DONE then mapSet s.integ.units u { lastCrc := crc } else s.integ.units
  ({ s with integ := { s.integ with ctlSram := m, units := units } }).setFld F.CHK_RING_HEAD_head u ((head + 1) % 256)

/-- What a finished descriptor raises (R692, R694): `missed` is set by a CRC or alive mismatch, `tell` asks for an interrupt. -/
def State.descTell (s : State) (u st head : Nat) (missed tell : Bool) : State :=
  let s3 := if st = St.ILLEGAL then s.raiseD Ev.CV_DESC_BAD u else if st = St.POISONED then s.raiseD Ev.DMA_CHANNEL_HALT u else s
  if missed then
    let s4 := s3.raiseD (Ev.CV_MISMATCH u) head
    if tell then s4.send (.coreIrq (s4.dutyCore 2)) else s4
  else s3

/-- Finish the descriptor at the head (R692 to R694); `ue` tells of an uncorrectable error in the unit's buffer. -/
def State.descDone (s : State) (u : Nat) (ue : Bool) : State :=
  let head := s.fld F.CHK_RING_HEAD_head u
  let d := memReadN 0 s.integ.ctlSram (s.descAt u head) 32
  let flags := leAt d 12 1
  let alive := leAt d 14 2
  let st := s.descStatus d ue
  let ok := decide (st = St.DONE)
  let crc := s.descValue u d ok
  let expected := if bitB flags 0 then leAt d 16 8 else leAt d 16 4
  let crcMiss := ok && bitB flags 1 && crc != expected
  let rebase := bitB flags 3 || (bitB flags 2 && !s.flag F.CHK_STAT_baseline u)
  let aliveMiss := ok && bitB flags 2 && !rebase && alive != (s.fld F.CHK_STAT_prev u + 1) % 65536
  let s1 := s.descPut u st crc (setBits (setBits flags 6 6 (b2n crcMiss)) 7 7 (b2n aliveMiss))
  let takes := ok && (rebase || (bitB flags 2 && !crcMiss && !aliveMiss))
  let s2 := if takes then (s1.setFld F.CHK_STAT_prev u alive).setFlag F.CHK_STAT_baseline u true else s1
  s2.descTell u st head (crcMiss || aliveMiss) (bitB flags 5)

/-- Malformed descriptors at the head end at once, without a read. -/
def State.skipBad (s : State) (u : Nat) : Nat → State
  | 0 => s.unitBusy u
  | n + 1 =>
    let s1 := s.unitBusy u
    if s1.flag F.CHK_STAT_busy u && descBad (memReadN 0 s.integ.ctlSram (s.descAt u (s.fld F.CHK_RING_HEAD_head u)) 32) then
      (s1.descDone u false).skipBad u n
    else s1

/-- CHK_RING_TAIL (R690, R693): a core writes a ring's tail; `sram` and `area` are what it has stored in control SRAM and in the
DRAM control area before. Writes for units 1 to 3 are discarded. -/
def execChkRingTail (unit tail : Nat) (sram area : List Host.Cell) (s : State) : Res :=
  .next (if hwFed unit || decide (7 < unit) || !s.pwr.ctlUp then s
    else
      let put (m cells : List Host.Cell) (size : Nat) : List Host.Cell :=
        (cells.filter (fun c => decide (c.1 < size))).foldl (fun m c => memWrite 0 m c.1 c.2) m
      let i := { s.integ with ctlSram := put s.integ.ctlSram sram ctlSramSize, ctlArea := put s.integ.ctlArea area 0x100000000 }
      (({ s with integ := i }).setRw F.CHK_RING_TAIL_tail unit (tail % 256)).skipBad unit 256)

/-- CV_DESCRIPTOR_DONE (R692 to R694): a unit finishes its descriptor. For units 1 to 3, whose hardware feeders keep no ring
here, `bad` tells whether the comparison missed; for the others it tells of an uncorrectable error in the unit's buffer. -/
def State.cvDone (s : State) (u : Nat) (bad : Bool) : State :=
  if hwFed u then
    (if bad then
      let s1 := s.raiseD (Ev.CV_MISMATCH u) 0
      if u = 2 then { s1 with twin := { s1.twin with heartbeatStopped := true } } else s1
    else (s.setFld F.CHK_STAT_prev u ((s.fld F.CHK_STAT_prev u + 1) % 65536)).setFlag F.CHK_STAT_baseline u true)
  else if s.flag F.CHK_STAT_busy u then (s.descDone u bad).skipBad u 256
  else s
def execCvDescriptorDone (unit : Nat) (bad : Bool) (s : State) : Res := .next (if 7 < unit then s else s.cvDone unit bad)

/-- UNIT_RESET (R692, R700): `CHK_CTL.reset` empties the ring and clears the baseline. -/
def execUnitReset (unit : Nat) (s : State) : Res :=
  .next (if 7 < unit then s
    else
      let s1 := s.setFld F.CHK_RING_HEAD_head unit (s.fld F.CHK_RING_TAIL_tail unit)
      (s1.setFlag F.CHK_STAT_busy unit false).setFlag F.CHK_STAT_baseline unit false)

end Sys2Proof.Machine
end

