-- ==== Sys2Proof/Machine/LoadIn.lean ====
section
/-! DEFINITION. Load-in (R333, R337, R366, R590 to R594, R718): the strike words, the journal's replay, the erases that are
redone, the RESIDENT data, the strike reserve. -/

set_option Elab.async false

namespace Sys2Proof.Machine

/-! ### The replay of the journal (R325, R590 step 3) -/

/-- A folio-map entry as the journal gives it: its location alone. A RESIDENT folio has its frame from step 5 on. -/
def loadedFolio (x : Folio) : Folio :=
  { Folio.init true with quire := x.quire, leaf := x.leaf, slot := x.slot, gen := x.gen, lost := x.lost }

/-- A group with the serial numbers and age that the controller knew it by. -/
def State.loadGroup (s : State) (old : List Group) (num width layout : Nat) (ms : List Nat) : Group :=
  match old.find? (fun g => g.num == num && g.members == ms) with
  | some g => { g with state := 1, width := width, layout := layout, next := 0, reserve := false }
  | none =>
    { num := num, state := 1, width := width, layout := layout, members := ms,
      serials := ms.map (fun a => (s.cart (adSlot a)).serial), next := 0, first := 0, reserve := false, lostQuires := [] }

/-- Put a group in place of any of its number. -/
def State.putGroup (s : State) (g : Group) : State :=
  { s with flash := { s.flash with groups := s.flash.groups.filter (fun x => x.num != g.num) ++ [g] } }

/-- Replay of a record over the tables and the groups. -/
def State.replayTable (s : State) (old : List Group) (r : JRec) : State :=
  let a (k : Nat) := r.args.getD k 0
  match r.type with
  | 0x01 => s.putGroup (s.loadGroup old (a 0) (a 1) (a 2) (r.args.drop 3))
  | 0x02 => (match s.groupOf (a 0 / 1024) with
    | some g => s.setGroup { g with next := max g.next (a 0 % 1024 + 1), first := if g.first = 0 then a 1 else g.first }
    | none => s)
  | 0x04 => (match s.groupOf (a 0 / 1024) with
    | some g => s.setGroup { g with state := 3 }
    | none => s)
  | 0x07 => (match s.groupOf (a 0) with
    | some g => s.setGroup { g with state := 4 }
    | none => s)
  | 0x0D => s.setTabEntry true (a 0) (a 1) ((r.args.drop 2).take (tabWords (a 0)))
  | _ => s

/-- Replay of a record over the folio map: MAP_DELTA moves the entry, RELOCATE only from its old place, LOST_MARK sets the
bit. -/
def replayFolio (m : List (Nat × Folio)) (r : JRec) : List (Nat × Folio) :=
  let a (k : Nat) := r.args.getD k 0
  let x := mapGet (Folio.init false) m (a 0)
  match r.type with
  | 0x05 => mapSet m (a 0) { x with quire := a 1, leaf := a 2, slot := a 3, gen := a 4 }
  | 0x06 =>
    if x.quire = a 5 ∧ x.leaf = a 6 ∧ x.slot = a 7 ∧ x.gen ≠ 0 then
      mapSet m (a 0) { x with quire := a 1, leaf := a 2, slot := a 3 }
    else m
  | 0x0E => mapSet m (a 0) { x with lost := decide (a 1 = 1) }
  | _ => m

/-- The granule whose map page a record changes. -/
def recGranule (r : JRec) : Option Nat :=
  if (r.type = 5 ∨ r.type = 6) ∧ r.args.getD 0 0 < 2 ^ 47 then some (r.args.getD 0 0 / 4096) else none

/-- A group after the replay: FULL when its word lines are used, TRUNCATED when a member is missing or the width in force is
another (R342, R352). -/
def State.settleGroup (s : State) (g : Group) : Group :=
  if g.state ≠ 1 ∨ g.reserve = true then g
  else if 1024 ≤ g.next then { g with state := 2 }
  else if s.missing g ≠ 0 ∨ g.width ≠ s.width then { g with state := 3 } else g

/-- The tables: the live copies from the checkpoint and the journal, no folio dirty; the shadow equal to them. -/
def State.loadTables (s : State) (old : List Group) (recs : List JRec) : State :=
  let (_, gs, tabs) := s.flash.journal.ckptDone
  let keep := old.filter (fun g => g.reserve)
  let s1 := ({ s with region := { s.region with tabs := tabs },
                      flash := { s.flash with groups := gs.filter (fun g => !g.reserve) } }).clearShadow
  let s2 := recs.foldl (fun st r => st.replayTable old r) s1
  let s3 : State := { s2 with flash := { s2.flash with groups := (s2.flash.groups.filter (fun g =>
    !keep.any (fun k => k.num == g.num))) ++ keep } }
  let s4 := s3.validEntries.foldl (fun st e => st.setTabEntry false e.1 e.2 (st.tabEntry true e.1 e.2)) s3
  let s5 := (s4.validRegions true).foldl (fun st e =>
    st.setTab (0x840000 + e.idx * 32 + 24) (setBits (st.regionWord true e.idx 3) 31 0 0)) s4
  { s5 with flash := { s5.flash with groups := s5.flash.groups.map s5.settleGroup } }

/-- The folio map, and the counts that follow from it. -/
def State.loadMap (s : State) (recs : List JRec) : State :=
  let m := recs.foldl replayFolio s.flash.journal.ckptDone.1
  let fs := m.map (fun p => (p.1, loadedFolio p.2))
  let dirty := recs.foldl (fun a r => match recGranule r with
    | some g => setIns a g
    | none => a) ([] : List Nat)
  let j := s.flash.journal
  let s1 := { s with ink := { s.ink with folios := fs, journalInk := 0, building := false },
                     flash := { s.flash with journal := { j with mapDirty := dirty, ckptRuns := false, ckptQueue := [],
                                                                 ckptLeaf := none,
                                                                 bytesSince := j.leaves.length * 196608 } },
                     dram := { s.dram with second := [], merge := [], erroneous := [], replace1 := [], replace3 := [],
                                           replace2 := s.dram.replace2.filter (fun k => decide (2 ^ 32 ≤ k)),
                                           shortRaised := false },
                     cache := { s.cache with lines := [] } }
  let lost := (fs.filter (fun p => p.2.lost)).length
  ((((s1.setFld F.INK_CNT_ink 0 0).jRecount).setFld F.QUIRE_LOST_CNT_folios 0 lost).cacheCount).setFld F.STAGE_PIN_frames 0 0

/-- Step 3 of R590 once every leaf can be read. -/
def State.replay (s : State) : State :=
  let recs := s.flash.journal.leaves.flatMap (fun l => l.recs)
  ((s.loadTables s.flash.groups recs).loadMap recs).jReplace.journal3

/-! ### Steps 4 to 6 (R333, R337, R590) -/

/-- A block with an open intent is erased again (R333). -/
def State.redoErase (s : State) (a : Nat) : State :=
  let slot := adSlot a
  let i := s.dieIndex a
  let s1 := (((s.setPermits a 1).raiseD Ev.ERASE_REDO a).jAppend { type := 0x09, args := [a] }).clearPermit a
  if (upto 16).any (fun k => s1.ringAddr slot k == a) then s1
  else s1.setDie slot i { s1.die slot i with freed := setIns (s1.die slot i).freed (adBlock a) }

/-- Step 4. -/
def State.redoErases (s : State) : State :=
  let es := s.flash.erases
  let s1 : State := { s with flash := { s.flash with erases := [] } }
  (es.foldl (fun st e => st.redoErase e.block) s1).groupGone

/-- A folio of a RESIDENT region has its frame, and its contents unless it is LOST; it is never ABSENT (R185). -/
def State.residentLoad (s : State) (e : Rgn) (f : Nat) : State :=
  if (s.folio f).lost then
    let s1 := s.touch e f
    s1.setFolio f { s1.folio f with state := .clean, gone := true }
  else s.residentIn e f

/-- Step 5: the pools are built, the granules of the PERSISTENT regions have their map pages (R183), every RESIDENT folio that
flash holds has its frame and its contents. -/
def State.fillResident (s : State) : State :=
  let s1 := (s.validRegions true).foldl (fun st e => st.mapRegion e) s.setStagePool
  let fs := (s1.ink.folios.filter (fun p => decide (p.1 < 2 ^ 47))).map (fun p => p.1)
  fs.foldl (fun st f => match st.regionAt (f * 65536) with
    | some e => if e.staged || !e.persistent then st else st.residentLoad e f
    | none => st) s1.setStagePool

/-- The block that reserve group `k` takes on a slot: on die k mod D, else on another die (R335, R347). -/
def State.reserveBlock (s : State) (slot k : Nat) : Option (Nat × State) :=
  let d := 2 * s.dies
  ((upto d).map (fun n => (k + n) % d)).findSome? (fun i => s.takeBlock slot i)

/-- Form reserve group `k` from free blocks, erased. -/
def State.reserveOne (s : State) (k : Nat) : State :=
  let (ms, s1) := s.serviceSlots.foldl (fun (p : List Nat × State) slot =>
    match p.2.reserveBlock slot k with
    | some (a, st) => (p.1 ++ [a], st.eraseNow a)
    | none => p) (([] : List Nat), s)
  if ms.isEmpty then s1
  else
    let g : Group := { num := s1.freeGroup, state := 0, width := 14, layout := 0, members := ms, serials := [], next := 0,
                       first := k, reserve := true, lostQuires := [] }
    { s1 with flash := { s1.flash with groups := s1.flash.groups ++ [g] } }

/-- Step 6: a new reserve from free blocks (R337). -/
def State.reserveForm (s : State) : State :=
  ((upto 64).filter (fun k => !s.flash.groups.any (fun g => g.reserve && g.first == k))).foldl (fun st k => st.reserveOne k) s

/-! ### The steps in order -/

/-- The journal is not readable: load-in stops (R366). -/
def State.loadFail (s : State) : State :=
  let s1 := (s.raise Ev.JOURNAL_UNREADABLE).sceneChange 0x100 0
  { s1 with pwr := { s1.pwr with noMem := true }, sen := { s1.sen with loadStep := 9, loadNeed := none } }

/-- The first leaf that no replica on a slot in service, and no copy here, gives (R326, R366). -/
def State.leafMissingAt (s : State) : Option Nat :=
  (s.flash.journal.leaves.find? (fun l => !l.inDram && !l.good.any s.inService)).map (fun l => l.index)

/-- Load-in goes on as far as it can: step 2 waits for E_reserve, step 3 for the leaves that the twin supplies. -/
def State.loadInGo (s : State) : State :=
  if s.inLoadIn && s.sen.loadStep == 1 && s.sen.holdsReserve && s.sen.loadNeed.isNone then
    match s.leafMissingAt with
    | some i =>
      if s.twinUp then
        ({ s with sen := { s.sen with loadNeed := some i } }).twinSend 0x24 (.journalReq i) none []
      else if s.pairs then s else s.loadFail
    | none =>
      let s1 := s.replay.redoErases.fillResident.reserveForm
      (({ s1 with sen := { s1.sen with loadStep := 6 } }).setCeiling).flashRegs
  else s

/-- The last strike is incomplete (R591). -/
def State.strikeMissing (s : State) : State :=
  let s1 := (s.raise Ev.STRIKE_INCOMPLETE).sceneChange 0x100 0
  let s2 := { s1 with pwr := { s1.pwr with noMem := true } }
  if s2.pairs then
    let s3 := s2.epochWrite { s2.twin.record with epoch := 0, divValid := false }
    if s3.twinUp || s3.fld F.TWIN_STAT_link 0 == 3 then (s3.twinFall 3).sendHello else s3
  else s2

/-- The sequence of the newest strike word (R643). -/
def State.strikeSeqLoad (s : State) : State :=
  match s.strikeNewest with
  | some a => (match s.strikeAt a with
    | some q => s.setFld F.CURT_STRIKE_SEQ_seq 0 q
    | none => s)
  | none => s

/-- LOAD_IN_START (R590 step 1, R591, R718): the start count rises, the strike words are read. -/
def State.loadInStart (s : State) : State :=
  if s.inLoadIn && s.sen.loadStep == 0 then
    let s1 := { s with pb := { s.pb with start := s.pb.start + 1 }, sen := { s.sen with loadStep := 1, loadSince := s.clock } }
    let s2 := s1.strikeSeqLoad.raise Ev.LOAD_IN_START
    (if s2.strikeIncomplete then s2.strikeMissing else s2).loadInGo
  else s
def execLoadInStart (s : State) : Res := .next s.loadInStart.settle

/-- RESERVE_SHORT (R337): 10 s into load-in the reserve is short. -/
def State.reserveShort (s : State) : State :=
  if s.inLoadIn && decide (1 ≤ s.sen.loadStep) && !s.sen.reserveRaised && s.due s.sen.loadSince 10000000 && !s.reserveOk then
    ({ s with sen := { s.sen with reserveRaised := true } }).raise Ev.RESERVE_SHORT
  else s
def execReserveShort (s : State) : Res := .next s.reserveShort

/-- HOLDUP_SENSE_SAMPLE (R593, R594, R750): a sample of the bank; load-in goes on when it holds E_reserve. -/
def execHoldupSenseSample (count : Nat) (s : State) : Res := .next ((s.senseBank count).loadInGo).settle

/-- A leaf that load-in waits for comes from the twin (R366, R571). -/
def State.loadLeaf (s : State) (index : Nat) (good : Bool) : State :=
  if good then
    let leaves := s.flash.journal.leaves.map (fun (l : JLeaf) => if l.index == index then { l with inDram := true } else l)
    ({ s with flash := { s.flash with journal := { s.flash.journal with leaves := leaves } },
              sen := { s.sen with loadNeed := none } }).loadInGo
  else s.loadFail

/-- JOURNAL_COPY (R366, R571): a copy for safe keeping, or the leaf that load-in asked for; `good` tells whether it passes
R326. -/
def execJournalCopy (h : TwinHead) (index first : Nat) (recs : List JRec) (good : Bool) (s : State) : Res :=
  .next (s.receive h 0x23 (fun st =>
    if st.sen.loadNeed = some index then st.loadLeaf index good
    else if st.role = 2 then st.journalCopy index first recs else st)).settle

/-- FETCH_NAK (R366, R570): for the leaf that load-in asked for, or for a folio. -/
def execFetchNak (h : TwinHead) (id status : Nat) (s : State) : Res :=
  .next (s.receive h 0x22 (fun st => match st.sen.loadNeed with
    | some i => if i % 2 ^ 32 = id then st.loadFail else st.fetchNak id status
    | none => st.fetchNak id status)).settle

/-! ### The end (R544, R590 step 8) -/

/-- The role after load-in (R544). -/
def State.loadRole (s : State) : State :=
  if !s.pairs || s.twin.record.role == 3 then s.takeRole 3 s.twin.record.epoch
  else if s.twin.toSettle then s.settleRoles else s

/-- Load-in ends, its reserve formed and the bank at V_chg; jobs that groups call for are submitted again (R370). -/
def State.loadInDone (s : State) : State :=
  let s0 := if s.inLoadIn && s.sen.loadStep == 6 then s.reserveForm.flashRegs else s
  if s0.inLoadIn && s0.sen.loadStep == 6 && s0.reserveOk && s0.sen.atCharge then
    let s1 := { s0 with sen := { s0.sen with loadStep := 8, busyUntil := s0.clock, reserveRaised := false } }
    let s2 := (s1.sentNormal.raise Ev.LOAD_IN_DONE).loadRole
    let s3 := s2.widthUpdate
    if s3.flash.reshapeAt.isNone then s3.submitReshape.flashRegs else s3
  else s0

end Sys2Proof.Machine
end

