-- ==== Sys2Proof/Machine/Maint.lean ====
section
/-! DEFINITION. The maintenance jobs (R730 to R738): submission by a mailbox, firmware or the controller, start, cancel, query. -/

set_option Elab.async false

namespace Sys2Proof.Machine

/-! ### Starting a job -/

/-- A scribe swap starts (R737). -/
def State.swapStart (s : State) (j : Job) (pass : Bool) : State :=
  let e := j.target
  if s.fld F.SCR_STAT_state e ≠ 1 then s.swapTested e pass
  else if 9 ≤ s.fld F.SCL_STAT_spare (e / 9) then s.endJob j.id St.CONFLICT
  else
    let ms := if j.p0 = 0 then 100 else j.p0
    let s1 := s.setRw F.SCR_CTL_drain e 1
    ({ s1 with scr := { s1.scr with swap := some (e, s1.clock + ms * 1000, pass) } }).swapDone

/-- A handover starts (R560 step 1): refused unless LEAD with a valid lease and a synced UNDERSTUDY. -/
def State.handoverStart (s : State) (j : Job) : State :=
  if s.role == 1 && (match s.twin.leaseEnd with
      | some t => decide (s.clock < t)
      | none => false) && s.synced then
    { s with twin := { s.twin with gateClosed := true } }
  else s.endJob j.id St.CONFLICT

/-- A SCENE_CHANGE starts: with reload the configuration set is read again first (R80, R738). -/
def State.sceneStart (s : State) (j : Job) : State :=
  if bitB j.p0 16 then
    match s.newestSet with
    | none => (s.raise Ev.SCENE_SET_BAD).endJob j.id St.ILLEGAL
    | some is => ((s.takeImages is).reloadBase).sceneJobGo
  else s.sceneJobGo

/-- A REHEARSAL starts (R736): the tests of bits 1 to 3 end with `fail`; the hold-up test is begun. -/
def State.rehearsalStart (s : State) (j : Job) (fail : Nat) : State :=
  let f := fail &&& j.p0 &&& 0xE
  if bitB j.p0 0 then (s.setJob { j with phase := f, progress := 50 }).holdupTest true
  else (s.setJob { j with phase := f }).endJob j.id St.DONE

/-- The work of a job that has been marked started. -/
def State.runJob (s : State) (j : Job) (o : JobOut) : State :=
  match j.act with
  | 0x01 => let (s1, st) := s.dramRepair j.target j.p0 j.p1 o.ok
            s1.endJob j.id st
  | 0x02 => (s.retrain j.target o.temp o.owed).endJob j.id St.DONE
  | 0x03 => let (s1, st) := s.dramRelease j.target o.ok o.words
            s1.endJob j.id st
  | 0x05 => s.raise Ev.RESHAPE_START
  | 0x06 => s.removeStart j.target
  | 0x07 => s.admitExamine j.target
  | 0x08 => s.fwOnline j o.ok
  | 0x0A => s.handoverStart j
  | 0x0B => s.swapStart j o.ok
  | 0x0C => s.sceneStart j
  | 0x0D => s.rehearsalStart j o.fail
  | 0x0E => s.strike 4
  | _ => s

/-- Start a queued job (R732). -/
def State.startJob (s : State) (j : Job) (o : JobOut) : State :=
  let s1 := s.markStarted j
  match s1.job j.id with
  | some k => s1.runJob k o
  | none => s1

/-- A job whose own engine starts it: rebuild, reshape and resync begin in the steps of those engines. -/
def ownStart (act : Nat) : Bool := act == 0x04 || act == 0x05 || act == 0x09

/-- A queued job can start here: nothing conflicts with it (R732); of a retraining, no pause of its channel is deferred (R250), and
the last one began 20 ms ago (R248). -/
def State.startable (s : State) (j : Job) : Bool :=
  s.mayStart j && !ownStart j.act &&
    !(j.act == 2 && (s.pauseHeld j.target || !s.due (s.chan j.target).lastPause 20000))

/-- Start the job of an id, if nothing conflicts with it. -/
def State.tryStart (s : State) (id : Nat) (o : JobOut) : State :=
  match s.job id with
  | some j => if s.startable j then s.startJob j o else s
  | none => s

/-! ### Submissions (R731, R739) -/

/-- MAINT_SUBMIT with its 16 bytes (R127, R128, R130, R617, R730): the job is submitted, the mailbox told, and where nothing
conflicts the job starts, its hardware answering `go`; none: it starts later, as a queued job does. -/
def State.submitMail (s : State) (mb : Nat) (input : List Byte) (go : Option JobOut) : State :=
  s.vendor mb 0xC00C 16 true false input (fun s =>
    let queue := leAt input 1 1
    let act := leAt input 0 1
    let target := leAt input 2 2
    let p0 := leAt input 4 4
    let p1 := leAt input 8 4
    let p2 := leAt input 12 4
    let fr := JobFrom.mailbox mb
    if 2 ≤ queue then s.submitTell fr St.ILLEGAL 0
    else if s.submitFenced fr act target p0 p1 p2 then s.submitTell fr St.FENCED 0
    else
      let (s1, st, id) := s.submit fr (queue == 1) act target p0 p1 p2
      let s2 := s1.submitTell fr st id
      match go with
      | some o => s2.tryStart id o
      | none => s2)

/-- The payload of a MAINT_SUBMIT. -/
def submitBytes (queue : Bool) (act target p0 p1 p2 : Nat) : List Byte :=
  leBytes 1 act ++ leBytes 1 (b2n queue) ++ leBytes 2 target ++ leBytes 4 p0 ++ leBytes 4 p1 ++ leBytes 4 p2

/-- Submit a job, tell the submitter, and start it where nothing conflicts. -/
def State.submitRun (s : State) (fr : JobFrom) (queue : Bool) (act target p0 p1 p2 : Nat) (o : JobOut) : State :=
  match fr with
  | .mailbox mb => s.submitMail mb (submitBytes queue act target p0 p1 p2) (some o)
  | .payload mb input => s.submitMail mb input (some o)
  | .firmware =>
    if !s.pwr.ctlUp then s
    else
      let (s1, st, id) := s.submit fr queue act target p0 p1 p2
      (s1.submitTell fr st id).tryStart id o
  | .controller =>
    let (s1, _, id) := s.submit fr queue act target p0 p1 p2
    s1.tryStart id o

/-- No outcome. -/
def JobOut.none_ : JobOut := { ok := true, temp := 0, owed := 0, words := [], fail := 0 }

/-- DRAM_REPAIR (R268, R270, R730): `soft` tells whether soft repair is had and reads back. -/
def execDramRepair (fr : JobFrom) (queue : Bool) (channel row device : Nat) (soft : Bool) (s : State) : Res :=
  .next (s.submitRun fr queue 0x01 channel row device 0 { JobOut.none_ with ok := soft }).settle
/-- DRAM_RETRAIN (R248, R730). -/
def execDramRetrain (fr : JobFrom) (queue : Bool) (channel temp owed : Nat) (s : State) : Res :=
  .next (s.submitRun fr queue 0x02 channel 0 0 0 { JobOut.none_ with temp := temp, owed := owed }).settle
/-- DRAM_RELEASE (R279, R280, R730): `pass` tells how training and the pattern test end, `words` are a new snapshot. -/
def execDramRelease (fr : JobFrom) (queue : Bool) (channel : Nat) (pass : Bool) (words : List Nat) (s : State) : Res :=
  .next (s.submitRun fr queue 0x03 channel 0 0 0 { JobOut.none_ with ok := pass, words := words }).settle
/-- SLOT_REMOVE (R371, R730). -/
def execSlotRemove (fr : JobFrom) (queue : Bool) (slot : Nat) (s : State) : Res :=
  .next (s.submitRun fr queue 0x06 slot 0 0 0 JobOut.none_).settle
/-- SLOT_ADMIT (R730): a submission by any other than the controller is ILLEGAL. -/
def execSlotAdmit (fr : JobFrom) (queue : Bool) (slot : Nat) (s : State) : Res :=
  .next (s.submitRun fr queue 0x07 slot 0 0 0 JobOut.none_).settle
/-- FW_UPDATE (R638, R639, R730): `signed` tells whether signer and signature of the staged image are right. -/
def execFwUpdate (fr : JobFrom) (queue signed : Bool) (s : State) : Res :=
  .next (s.submitRun fr queue 0x08 0xFFFF 0 0 0 { JobOut.none_ with ok := signed }).settle
/-- PLANNED_HANDOVER (R560, R730): the HANDOVER job, of a mailbox, `MAINT_REQ`, or `TWIN_CTL.handover`. -/
def execPlannedHandover (fr : JobFrom) (queue : Bool) (s : State) : Res :=
  .next (s.submitRun fr queue 0x0A 0xFFFF 0 0 0 JobOut.none_).settle
/-- SCRIBE_SWAP (R737): `pass` tells how the built-in test of the scribe will end. -/
def execScribeSwap (fr : JobFrom) (queue : Bool) (scribe timeout : Nat) (pass : Bool) (s : State) : Res :=
  .next (s.submitRun fr queue 0x0B scribe timeout 0 0 { JobOut.none_ with ok := pass }).settle
/-- SCENE_CHANGE (R738): `p0` holds the bits wanted in [15:0] and reload in [16]. -/
def execSceneChange (fr : JobFrom) (queue : Bool) (p0 : Nat) (s : State) : Res :=
  .next (s.submitRun fr queue 0x0C 0xFFFF p0 0 0 JobOut.none_)
/-- REHEARSAL (R736): `fail` has the failing tests of bits 1 to 3. -/
def execRehearsal (fr : JobFrom) (queue : Bool) (mask fail : Nat) (s : State) : Res :=
  .next (s.submitRun fr queue 0x0D 0xFFFF mask 0 0 { JobOut.none_ with fail := fail })
/-- POWER_CYCLE (R734): the mailbox answers before the strike begins; the controller's own passes R731 and R735 by. -/
def execPowerCycle (fr : JobFrom) (queue : Bool) (confirm : Nat) (s : State) : Res :=
  .next (match fr with
    | .controller => s.cycleNow
    | _ => s.submitRun fr queue 0x0E 0xFFFF confirm 0 0 JobOut.none_).settle

/-- MAINT_START (R732): the oldest queued job that nothing conflicts with starts; `o` is what its hardware answers. -/
def State.maintStart (s : State) (o : JobOut) : State :=
  match s.maint.jobs.find? s.startable with
  | some j => s.startJob j o
  | none => s
def execMaintStart (o : JobOut) (s : State) : Res := .next (s.maintStart o).settle

/-- DRAIN_TIMEOUT (R737 step 3): the tickets that still run on the scribe being drained end with ENGINE_FAULT. -/
def State.drainTimeout (s : State) : State :=
  match s.scr.swap with
  | some (e, t, _) =>
    if t ≤ s.clock then (s.ctxsOf e).foldl (fun st p => st.endCtx p.1 St.ENGINE_FAULT false false) s else s
  | none => s
def execDrainTimeout (s : State) : Res := .next s.drainTimeout.settle

/-! ### Cancel and query (R733, R739) -/

/-- A slot in preparation returns to service (R730). -/
def State.prepareCancel (s : State) (slot : Nat) : State := (((s.setSlot slot 3).slotLed slot).widthUpdate).flashRegs

/-- MAINT_CANCEL's answer, and what it does to the job. -/
def State.cancelJob (s : State) (id : Nat) : State × Nat :=
  match s.job id with
  | none => (s, St.ILLEGAL)
  | some j =>
    if j.state = 2 then (s, St.ALREADY_DONE)
    else if j.state = 0 then
      ((if j.act = 7 then s.cartRefuse j.target else s).endJob id St.ABORTED, St.DONE)
    else match j.act with
    | 0x06 =>
      if s.slotState j.target == 4 && s.flag F.QUIRE_SLOT_STAT_pwr_en j.target then
        ((s.prepareCancel j.target).endJob id St.ABORTED, St.DONE)
      else (s, St.CONFLICT)
    | 0x07 =>
      if s.slotState j.target == 1 && !s.flag F.QUIRE_SLOT_STAT_pwr_en j.target then
        ((s.cartRefuse j.target).endJob id St.ABORTED, St.DONE)
      else (s, St.CONFLICT)
    | 0x0A =>
      if s.twin.handover.isNone then
        (({ s with twin := { s.twin with gateClosed := false } }).endJob id St.ABORTED, St.DONE)
      else (s, St.CONFLICT)
    | 0x0B => (s.swapCancel St.ABORTED, St.DONE)
    | 0x0D => (s.endJob id St.ABORTED, St.DONE)
    | _ => (s, St.CONFLICT)

/-- MAINT_CANCEL (R128, R733). -/
def execMaintCancel (mb : Nat) (input : List Byte) (s : State) : Res :=
  .next (s.vendor mb 0xC00E 4 true false input (fun s =>
    let (s1, st) := s.cancelJob (leAt input 0 4)
    s1.answer mb 0xC00E st [])).settle

/-- MAINT_QRY (R739): a write of `MAINT_QRY` fills `MAINT_QRY_RES`. -/
def execMaintQry (id : Nat) (s : State) : Res :=
  .next (s.setLive .MAINT_QRY_RES 0 (match s.job id with
    | none => 3 * 2 ^ 30
    | some j => j.state * 2 ^ 30 + j.act * 2 ^ 16 + j.status % 256 * 2 ^ 8 + j.progress % 256))

/-! ### Mailbox commands that carry a job (R128, R730) -/

/-- Submit for a mailbox and answer its own opcode with the status; `late` leaves the answer to the end of the job. -/
def State.submitFor (s : State) (mb op : Nat) (queue : Bool) (act target p0 : Nat) (late : Bool) (o : JobOut) : State :=
  let (s1, st, id) := s.submit (.mailbox mb) queue act target p0 0 0
  if st ≠ St.DONE then s1.answer mb op st (if late then leBytes 3 0 ++ leBytes 4 0 else [])
  else if late then
    (match s1.job id with
     | some j => (s1.setJob { j with waiter := some (mb, op) }).tryStart id o
     | none => s1)
  else (s1.answer mb op St.DONE []).tryStart id o

/-- SCENE_SET (R128): INTERMISSION and SERVICE as wanted, by a SCENE_CHANGE job with queue 1. -/
def execSceneSet (mb : Nat) (input : List Byte) (s : State) : Res :=
  .next (s.vendor mb 0xC00B 2 true false input (fun s =>
    if leAt input 0 2 &&& 0xFEDF ≠ 0 then s.answer mb 0xC00B St.ILLEGAL []
    else s.submitFor mb 0xC00B true 0x0C 0xFFFF (leAt input 0 2) false JobOut.none_))

/-- PREPARE_REMOVAL: SLOT_CONTROL action 0 (R371): refused at once where R371 says so. -/
def execPrepareRemoval (mb : Nat) (input : List Byte) (s : State) : Res :=
  .next (s.slotControl mb 0 input (fun s slot =>
    let st := s.removeStatus slot
    if st ≠ St.DONE then s.answer mb 0xC00F st []
    else s.submitFor mb 0xC00F false 0x06 slot 0 false JobOut.none_)).settle

/-- FREEZE_RELEASE (R128, R279): a DRAM_RELEASE job with queue 0; CONFLICT when no snapshot has been read. -/
def State.freezeRelease (s : State) (mb c : Nat) (pass : Bool) (words : List Nat) : State :=
  if 12 ≤ c then s.answer mb 0xC011 St.ILLEGAL []
  else if !s.chanFrozen c || !s.flag F.DMC_STAT_snap_read c then s.answer mb 0xC011 St.CONFLICT []
  else s.submitFor mb 0xC011 false 0x03 c 0 false { JobOut.none_ with ok := pass, words := words }
def execFreezeRelease (mb : Nat) (input : List Byte) (pass : Bool) (words : List Nat) (s : State) : Res :=
  .next (if !s.mailUp then s.holdMailOut mb 0xC011 input (b2n pass :: words)
    else s.vendor mb 0xC011 1 true false input (fun s => s.freezeRelease mb (leAt input 0 1) pass words)).settle

/-- REHEARSAL_RUN (R128, R736): a REHEARSAL job with queue 0, answered when it ends. -/
def execRehearsalRun (mb : Nat) (input : List Byte) (fail : Nat) (s : State) : Res :=
  .next (if !s.mailUp then s.holdMailOut mb 0xC019 input [fail] else s.vendor mb 0xC019 4 true false input (fun s =>
    s.submitFor mb 0xC019 false 0x0D 0xFFFF (leAt input 0 4) true { JobOut.none_ with fail := fail }))

end Sys2Proof.Machine
end

