-- ==== Sys2Proof/Machine/Secure.lean ====
section
/-! DEFINITION. Key slots and their store, alarms, owner generations and debug certificates (R655 to R673). -/

set_option Elab.async false

namespace Sys2Proof.Machine

/-! ### The key blob store (R663) -/

/-- Array offset of page `p` of the store: main sectors 32 and 33 of bank 0. -/
def storeAt (p : Nat) : Nat := 0x40000 + p * 256

/-- The valid record of a page: sequence, slot, kind and page. -/
def State.storeRec (s : State) (p : Nat) : Option (Nat × Nat × Nat × Nat) :=
  let a := storeAt p
  if s.fwLE a 4 = 0x53424B50 ∧ crc32c (s.fwRead a 252) = s.fwLE (a + 252) 4 then
    some (s.fwLE (a + 4) 4, s.fwLE (a + 8) 1, s.fwLE (a + 9) 1, p)
  else none

/-- Every valid record of both sectors. -/
def State.storeRecs (s : State) : List (Nat × Nat × Nat × Nat) := (upto 1024).filterMap s.storeRec

/-- The record of highest sequence among those that `ok` admits. -/
def newestRec (rs : List (Nat × Nat × Nat × Nat)) (ok : Nat → Nat → Bool) : Option (Nat × Nat × Nat × Nat) :=
  (rs.filter (fun r => ok r.2.1 r.2.2.1)).foldl (fun (a : Option (Nat × Nat × Nat × Nat)) r => match a with
    | none => some r
    | some b => if b.1 < r.1 then some r else a) none

/-- The blob stored for a slot: its page. -/
def State.storedBlob (s : State) (slot : Nat) : Option Nat :=
  (newestRec s.storeRecs (fun k kind => k == slot && kind == 1)).map (fun r => r.2.2.2)

/-- The flash copy of the alarm latch is set. -/
def State.latchFlash (s : State) : Bool :=
  match newestRec s.storeRecs (fun _ kind => kind == 3 || kind == 4) with
  | some r => r.2.2.1 == 3
  | none => false

/-- A record's 256 bytes. -/
def storeRecBytes (seq slot kind : Nat) (blob : List Byte) : List Byte :=
  let b := leBytes 4 0x53424B50 ++ leBytes 4 seq ++ leBytes 1 slot ++ leBytes 1 kind ++ leBytes 2 0 ++
    (if blob.isEmpty then leBytes 104 0 else blob) ++ leBytes 136 0
  b ++ leBytes 4 (crc32c b)

/-- Records in force, in rising sequence, as they move to the other sector. -/
def State.storeLive (s : State) : List (Nat × Nat × Nat × Nat) :=
  let rs := s.storeRecs
  let latch (k : Nat) : Bool := k == 3 || k == 4
  let live := rs.filter (fun r => !rs.any (fun q => decide (r.1 < q.1) &&
    (if latch r.2.2.1 then latch q.2.2.1 else q.2.2.1 == r.2.2.1 && q.2.1 == r.2.1)))
  live.foldl (fun a r => (a.filter (fun q => decide (q.1 < r.1))) ++ [r] ++ (a.filter (fun q => decide (r.1 < q.1)))) []

/-- Write a record into the next blank page of the active sector, moving to the other sector when there is none. -/
def State.storeWrite (s : State) (slot kind : Nat) (blob : List Byte) : State :=
  let rs := s.storeRecs
  let (seq, active) := match newestRec rs (fun _ _ => true) with
    | some r => (r.1 + 1, r.2.2.2 / 512)
    | none => (1, 0)
  let blank (st : State) (sec : Nat) : Option Nat :=
    ((upto 512).map (fun i => sec * 512 + i)).find? (fun p => !st.core.pages.contains (storeAt p / 256))
  match blank s active with
  | some p => s.pageProg (storeAt p) (storeRecBytes seq slot kind blob)
  | none =>
    let other := 1 - active
    let live := s.storeLive.map (fun r => s.fwRead (storeAt r.2.2.2) 256)
    let s1 := s.fwEraseWhole (32 + other)
    let s2 := (List.zip (upto live.length) live).foldl (fun st p => st.pageProg (storeAt (other * 512 + p.1)) p.2) s1
    s2.pageProg (storeAt (other * 512 + live.length)) (storeRecBytes seq slot kind blob)

/-! ### Owner generations (R655, R659, R670) -/

/-- Hashes of the owner keys of the programmed generations: those fused at the beginning, where the lifecycle is OWNED, and
those programmed since. -/
def State.owners (s : State) : List Nat :=
  let w := Config.fuseSecStat.toNat
  (if bits w 29 28 = 2 then (upto (bits w 27 26 + 1)).map (fun g => (Config.ownerHash g).toNat) else []) ++ s.sec.seeds

/-- The generation in force, if any is programmed. -/
def State.genNow (s : State) : Option Nat := if s.owners.isEmpty then none else some (s.owners.length - 1)

/-- `SEC_STAT` shows the fuses (R673). -/
def State.fuseRegs (s : State) : State :=
  match s.sec.seeds with
  | [] => s
  | _ => (s.setFld F.SEC_STAT_life 0 2).setFld F.SEC_STAT_gen 0 (s.owners.length - 1)

/-- The generation of a stored blob. -/
def State.blobGen (s : State) (page : Nat) : Nat := s.fwLE (storeAt page + 18) 1
def State.blobId (s : State) (page : Nat) : Nat := s.fwLE (storeAt page + 20) 8

/-- Put the key ID of a slot. -/
def State.setKeyId (s : State) (k id : Nat) : State :=
  (s.setLive .SEC_SLOT_ID (2 * k) (id % 2 ^ 32)).setLive .SEC_SLOT_ID (2 * k + 1) (id / 2 ^ 32 % 2 ^ 32)
/-- Slot 255 is loaded, and copied into the sentinel (R669). -/
def State.loadStrike (s : State) : State :=
  let s1 := s.setKeySlot 255 1 1
  { s1 with sec := { s1.sec with strikeKey := true, strikeLoaded := true } }

/-- The KEK is derived; the first time after a generation is programmed the strike key is drawn and stored (R659, R670). -/
def State.deriveKek (s : State) : State :=
  match s.genNow with
  | none => s
  | some g =>
    let s1 := s.setFlag F.SEC_STAT_kek 0 true
    let have_ := match s1.storedBlob 255 with
      | some p => s1.blobGen p == g
      | none => false
    if have_ then s1
    else
      let (w, s2) := s1.freeBytes 88
      s2.storeWrite 255 1 (leBytes 4 0x424B5150 ++ leBytes 1 1 ++ leBytes 1 1 ++ leBytes 1 g ++ leBytes 1 0 ++ leBytes 8 0 ++ w)

/-- Load every slot whose stored blob is of the generation in force, and slot 255 (R663, R671). -/
def State.loadStored (s : State) : State :=
  match s.genNow with
  | none => s
  | some g =>
    let s1 := (upto 224).foldl (fun (st : State) k => match s.storedBlob k with
      | some p => if s.blobGen p = g then (st.setKeySlot k 1 1).setKeyId k (s.blobId p) else st
      | none => st) s
    (match s.storedBlob 255 with
     | some p => if s.blobGen p = g then s1.loadStrike else s1
     | none => s1)

/-- Step 6 of R648: the latch from either copy, slot 254, the KEK, and with the latch clear every stored key. -/
def State.bootKeys (s : State) : State :=
  let latched := s.sec.latchAon || s.latchFlash
  let s1 := ((s.fuseRegs.setFlag F.SEC_STAT_latch 0 latched).setKeySlot 254 1 1).deriveKek
  if latched then s1 else s1.loadStored

/-- Folios tagged with slot 255 are relocated under their region's slot, once that slot is loaded (R670). -/
def State.retag (s : State) : State :=
  if s.inLoadIn || s.inStrike then s
  else
    let fs := (s.flash.store.map (fun p => p.2)).filter (fun x => x.key == 255)
    (fs.foldl (fun (st : State) x =>
      let f := x.folio
      if st.moving f || st.flashKey f != 255 || !st.keyLoaded (st.keyOf f) then st
      else match (st.folio f).state with
      | .clean =>
        let (cells, st1) := st.folioCells f
        { st1 with flash := { st1.flash with relocating := st1.flash.relocating ++ [st1.moveSlot f (st1.keyOf f) cells] } }
      | .absent => st.readMove f 8
      | _ => st) s)

/-! ### KEY_LOAD (R661, R662) -/

/-- A load is performed: the slot takes the key, a new blob is stored. -/
def State.keyPut (s : State) (l : KeyLoad) : State :=
  let s1 := (s.setKeySlot l.slot 1 l.kind).setKeyId l.slot (if l.slot < 224 then l.keyId else 0)
  let s2 := if l.blob.isEmpty then s1 else s1.storeWrite l.slot 1 l.blob
  let s3 := if l.slot < 224 then s2.raiseD Ev.KEY_LOADED l.slot else s2
  (match l.mb with
   | some mb => s3.answer mb 0xC017 St.DONE []
   | none => s3).retag

/-- A load waits for its slot's use count (R662). -/
def State.keyWait (s : State) (l : KeyLoad) : State :=
  let s1 := s.setKeySlot l.slot 3 l.kind
  ({ s1 with sec := { s1.sec with loads := s1.sec.loads ++ [l] } }).raiseD Ev.KEY_LOAD_WAIT l.slot

/-- A load begins: at once when the use count is zero and none waits before it. -/
def State.keyBegin (s : State) (l : KeyLoad) (busy : Bool) : State :=
  if busy || s.slotUses l.slot != 0 || s.sec.loads.any (fun x => x.slot == l.slot) then s.keyWait l else s.keyPut l

/-- A blob's header is well formed (R660). -/
def blobForm (b : List Byte) : Bool :=
  leAt b 0 4 == 0x424B5150 && leAt b 4 1 == 1 && leAt b 5 1 == 1 && leAt b 7 1 == 0

/-- A valid region names the key slot. -/
def State.slotNamed (s : State) (k : Nat) : Bool := (s.validRegions true).any (fun e => e.persistent && e.key == k)

/-- Steps 2 to 7 of R661 for a blob of generation `gen` and key ID `id`, which unwraps when `good`. -/
def State.keyDecide (s : State) (mb slot gen id : Nat) (blob : List Byte) (good : Bool) : State :=
  let say (st : State) (x : Nat) : State := st.answer mb 0xC017 x []
  if s.flag F.SEC_STAT_latch 0 ∨ s.genNow ≠ some gen ∨ s.flag F.SEC_STAT_kek 0 = false then say s St.CURTAIN_DENIED
  else if !good then say (s.raiseD Ev.BLOB_REFUSED slot) St.ILLEGAL
  else if s.keyLoaded slot && s.keyId slot == id then say s St.DONE
  else if s.keyLoaded slot && s.slotNamed slot then say s St.CONFLICT
  else s.keyBegin { slot := slot, kind := 1, keyId := id, blob := blob, mb := some mb } false

/-- KEY_LOAD (R661); `good` tells whether the blob passes the RFC 5649 check and its record agrees with its header. -/
def State.keyLoad (s : State) (mb : Nat) (input : List Byte) (good : Bool) : State :=
  let slot := leAt input 0 1
  let b := leAt input 2 2
  let blob := input.drop 4
  if 223 < slot ∨ (b ≠ 0 ∧ b ≠ 104) ∨ (b = 104 ∧ blobForm blob = false) then s.answer mb 0xC017 St.ILLEGAL []
  else if b = 104 then s.keyDecide mb slot (leAt blob 6 1) (leAt blob 8 8) blob good
  else if s.flag F.SEC_STAT_latch 0 || s.genNow.isNone then s.answer mb 0xC017 St.CURTAIN_DENIED []
  else match s.storedBlob slot with
    | none => s.answer mb 0xC017 St.ILLEGAL []
    | some p => s.keyDecide mb slot (s.blobGen p) (s.blobId p) [] true
def execKeyLoad (mb : Nat) (input : List Byte) (good : Bool) (s : State) : Res :=
  .next (if !s.mailUp then s.holdMailOut mb 0xC017 input [b2n good]
    else if input.length < 4 ∨ ((leAt input 2 2 = 0 ∨ leAt input 2 2 = 104) ∧ input.length ≠ 4 + leAt input 2 2) then
      s.send (.mailbox mb 0xC017 .invalidLength [])
    else if !s.mbAdmin mb then s.answer mb 0xC017 St.ACCESS_DENIED []
    else s.keyLoad mb input good).settle

/-- Both slots of a link's IDE stream are loaded: the stream is secure again and responses go on (R118, R119, R665). -/
def State.ideReady (s : State) (link : Nat) : State :=
  if s.keyLoaded (224 + 2 * link) && s.keyLoaded (225 + 2 * link) then
    let w := (s.liveWord .SEC_CNT 0).toNat
    let s1 := (s.setFlag F.HPORT_STAT_ide_secure link true).setLink link { s.link link with ideKeys := true, withheld := false }
    ({ s1 with sec := { s1.sec with counters := mapDel (mapDel s1.sec.counters link) (32 + link) } }).setLive .SEC_CNT 0
      (setBits (setBits w link link 0) (16 + link) (16 + link) 0)
  else s

/-- KEY_LOADED (R662): the use count of a slot has reached zero, and the first load that waits for it is performed. -/
def State.keyLoaded_ (s : State) (slot : Nat) : State :=
  match s.sec.loads.find? (fun l => l.slot == slot) with
  | none => s
  | some l =>
    if s.slotUses slot ≠ 0 then s
    else
      let rest := s.sec.loads.erase l
      let s1 := ({ s with sec := { s.sec with loads := rest.filter (fun x => x.slot != slot) } }).keyPut l
      let s2 := (rest.filter (fun x => x.slot == slot)).foldl (fun st x => st.keyWait x) s1
      if 224 ≤ slot ∧ slot < 240 then s2.ideReady ((slot - 224) / 2) else s2
def execKeyLoaded (slot : Nat) (s : State) : Res := .next (s.keyLoaded_ slot).settle

/-- KEY_PROG (R118, R119, R662): IDE_KM sets the keys of a link's stream; `busy` tells whether flits are in flight under the
old ones. -/
def State.keyProg (s : State) (link : Nat) (busy : Bool) : State :=
  if s.pwr.ctlUp && decide (link < 8) && s.flag F.HPORT_STAT_up link then
    ([224 + 2 * link, 225 + 2 * link].foldl (fun (st : State) k =>
      st.keyBegin { slot := k, kind := 2, keyId := 0, blob := [], mb := none } busy) s).ideReady link
  else s
def execKeyProg (link : Nat) (busy : Bool) (s : State) : Res := .next (s.keyProg link busy).settle

/-- KEY_STATUS (R128, R673). -/
def execKeyStatus (mb : Nat) (input : List Byte) (s : State) : Res :=
  .next (s.vendor mb 0xC018 1 false false input (fun s =>
    let k := leAt input 0 1
    s.answer mb 0xC018 St.DONE (leBytes 1 (s.fld F.SEC_SLOT_state k) ++ leBytes 2 0 ++ leBytes 4 (satTo 16 (s.slotUses k)))))

/-! ### Alarms (R666 to R669, R671) -/

/-- Zeroize the key slots that `ok` selects: loads that wait end KEY_LOST; reads in flight under them end, the folios they were for
return to ABSENT, and what was to be relocated under them stays at its old location (R42, R668). The programs of a quire carry
what was encrypted before they were issued (R669). -/
def State.zeroize (s : State) (ok : Nat → Bool) : State :=
  let s1 := (upto 256).foldl (fun (st : State) k =>
    let x := st.fld F.SEC_SLOT_state k
    if ok k && (x == 1 || x == 3) then ((st.setFld F.SEC_SLOT_state k 2).setFld F.SEC_SLOT_kind k 0).setKeyId k 0 else st) s
  let gone := s1.sec.loads.filter (fun l => ok l.slot)
  let s2 := gone.foldl (fun st l => match l.mb with
    | some mb => st.answer mb 0xC017 St.KEY_LOST []
    | none => st) { s1 with sec := { s1.sec with loads := s1.sec.loads.filter (fun l => !ok l.slot) } }
  let lost := s2.flash.reads.filter (fun r => ok (s2.flashKey r.folio))
  let reads := s2.flash.reads.filter (fun r => !ok (s2.flashKey r.folio))
  let moves := s2.flash.relocating.filter (fun fs => !ok fs.key)
  let s3 := { s2 with flash := { s2.flash with reads := reads, relocating := moves } }
  let s4 := lost.foldl (fun (st : State) r =>
    let x := st.folio r.folio
    if x.state == .staging then
      let es := st.stage.entries.map (fun e => if e.folio == r.folio then { e with assigned := false, phase := 0 } else e)
      ({ st with stage := { st.stage with entries := es } }).setFolio r.folio { x with state := .absent, frame := 0 }
    else st) s3
  (s4.keyCount.setFlag F.CURT_KEY_alarm 0 true).setFlag F.SEC_STAT_latch 0 true |> fun st =>
    { st with sec := { st.sec with latchAon := true, latchDue := true } }

/-- An IDE stream whose keys are gone is insecure (R668). -/
def State.ideLost (s : State) : State :=
  (upto 8).foldl (fun (st : State) n =>
    if st.keyLoaded (224 + 2 * n) && st.keyLoaded (225 + 2 * n) then st
    else (st.setFlag F.HPORT_STAT_ide_secure n false).setLink n { st.link n with ideKeys := false }) s

/-- KEY_ALARM (R666, R667): source 0 to 3 TAMPER_N, 4 voltage, 5 clock, 6 temperature, for the filter time. -/
def State.keyAlarm (s : State) (source : Nat) : State :=
  if !s.pwr.aonUp || decide (6 < source) || bitB (s.fld F.SEC_ALARM_mask 0) source || (source == 4 && !s.sen.glitchArmed) then s
  else
    let s1 := (s.addSat F.SEC_ALARM_count 0 1).setFld F.SEC_ALARM_sources 0
      (setBits (s.fld F.SEC_ALARM_sources 0) source source 1)
    (((s1.zeroize (fun _ => true)).setFlag F.SEC_STAT_kek 0 false).ideLost).raiseD Ev.KEY_ALARM source
def execKeyAlarm (source : Nat) (s : State) : Res := .next (s.keyAlarm source).settle

/-- LATCH_PROGRAM (R667): the latch is programmed into the store. -/
def State.latchProgram (s : State) : State :=
  if s.sec.latchDue && s.pwr.ctlUp then
    ({ s with sec := { s.sec with latchDue := false } }).storeWrite 0 3 []
  else s
def execLatchProgram (s : State) : Res := .next s.latchProgram

/-- REUNWRAP's effect (R671). -/
def State.reunwrap (s : State) : State :=
  let s1 := if s.latchFlash then s.storeWrite 0 4 [] else s
  let s2 := ({ s1 with sec := { s1.sec with latchAon := false, latchDue := false } }).setFlag F.SEC_STAT_latch 0 false
  (s2.deriveKek.loadStored.raise Ev.REUNWRAP_DONE).retag

/-! ### Debug certificates (R672) -/

/-- A certificate's form, device and nonce; `good` tells whether its signer is the issuer's key and its signature is good. -/
def State.certOk (s : State) (cert : List Byte) (good : Bool) : Bool :=
  let nonce := (upto 8).flatMap (fun w => leBytes 4 (s.liveWord .SEC_DEBUG_NONCE w).toNat)
  good && cert.length == 144 && leAt cert 0 4 == 0x47444250 && (leAt cert 4 1 == 1 || leAt cert 4 1 == 2) &&
    (leAt cert 5 1 == 1 || leAt cert 5 1 == 2) && leAt cert 6 2 == 0 && leAt cert 8 8 == Config.deviceId.toNat &&
    (cert.drop 16).take 32 == nonce && (leAt cert 4 1 == 1 || s.genNow.isSome)

/-- A certificate is judged: an issuer 1 certificate first zeroizes slots 0 to 223 and 255 and sets the latch. -/
def State.debugJudge (s : State) (cert : List Byte) (good : Bool) : State × Bool :=
  if s.certOk cert good then
    let s1 := if leAt cert 4 1 = 1 then
        ((s.zeroize (fun k => decide (k < 224) || k == 255)).setFlag F.SEC_ALARM_debug 0 true).raise Ev.DEBUG_ZEROIZE
      else s
    let s2 := (s1.setFld F.SEC_DEBUG_issuer 0 (leAt cert 4 1)).setFld F.SEC_DEBUG_level 0 (leAt cert 5 1)
    ((s2.measure 5 cert).raiseD Ev.DEBUG_UNLOCKED (leAt cert 5 1), true)
  else (s.raise Ev.DEBUG_REFUSED, false)

/-- DBGCERT (R672): through the TAP, once step 8 of R648 has ended. -/
def execDbgcert (cert : List Byte) (good : Bool) (s : State) : Res :=
  .next (if s.pwr.ctlUp then (s.debugJudge cert good).1.settle else s)

end Sys2Proof.Machine
end

