-- ==== Sys2Proof/Machine/Spdm.lean ====
section
/-! DEFINITION. The SPDM responder (R653 to R655): connections, sessions, measurements and the vendor requests. Channels 0 to 7
are the DOE mailboxes of the links, 8 is MCTP from the BMC, 9 the twin link. Response and error codes are those of SPDM 1.3,
PRESUMED (log entry 50). -/

set_option Elab.async false

namespace Sys2Proof.Machine

/-- The channel reaches the responder: the security-core runtime runs, and the link of the channel is up. -/
def State.spdmUp (s : State) (chan : Nat) : Bool :=
  s.pwr.ctlUp && decide (chan < 10) &&
    (if chan < 8 then s.flag F.HPORT_STAT_up chan && !s.flag F.HPORT_STAT_frozen chan
     else if chan = 9 then decide (s.twin.width0 ≠ 0) || decide (s.twin.width1 ≠ 0) else true)

/-- Answer a request, or ERROR with a code. -/
def State.spdm (s : State) (chan code : Nat) (payload : List Byte) : State := s.send (.spdm chan code payload)
def State.spdmError (s : State) (chan code : Nat) : State := s.spdm chan 0x7F (leBytes 1 code ++ leBytes 1 0)
def errInvalid : Nat := 0x01
def errUnexpected : Nat := 0x04
def errDecrypt : Nat := 0x06
def errUnsupported : Nat := 0x07
def errSessions : Nat := 0x0A

/-- Stage of a channel's connection: 1 after VERSION, 2 after CAPABILITIES, 3 after ALGORITHMS. -/
def State.connStage (s : State) (chan : Nat) : Nat := mapGet 0 s.sec.conn chan
def State.setConn (s : State) (chan v : Nat) : State := { s with sec := { s.sec with conn := mapSet s.sec.conn chan v } }

/-- A request that needs at least stage `need`: the responder answers, or ERROR UnexpectedRequest. -/
def State.spdmReq (s : State) (chan need : Nat) (body : State → State) : State :=
  if !s.spdmUp chan then s
  else if s.connStage chan < need then s.spdmError chan errUnexpected
  else body s

/-- Answer with `n` bytes that the spec does not fix. -/
def State.spdmFree (s : State) (chan code n : Nat) : State :=
  let (bs, s1) := s.freeBytes n
  s1.spdm chan code bs

/-- GET_VERSION (R653): versions 1.2 and 1.3; the connection and its sessions start afresh. -/
def execGetVersion (chan : Nat) (s : State) : Res :=
  .next (s.spdmReq chan 0 (fun s =>
    let s1 := { s with sec := { s.sec with sessions := s.sec.sessions.filter (fun x => x.chan != chan) } }
    (s1.setConn chan 1).spdm chan 0x04 (leBytes 1 0 ++ leBytes 1 2 ++ leBytes 2 0x1200 ++ leBytes 2 0x1300)))

/-- GET_CAPABILITIES (R653): CERT, CHAL, MEAS with signature, ENCRYPT, MAC, MUT_AUTH, KEY_EX, HBEAT, KEY_UPD. -/
def execGetCapabilities (chan : Nat) (s : State) : Res :=
  .next (s.spdmReq chan 1 (fun s =>
    let (bs, s1) := s.freeBytes 2
    (s1.setConn chan 2).spdm chan 0x61 (bs ++ leBytes 2 0 ++ leBytes 4 0x63D6)))

/-- NEGOTIATE_ALGORITHMS (R653): `ok` tells whether the request offers Ed25519, SHA-512, secp384r1 and AES-256-GCM. -/
def execNegotiateAlgorithms (chan : Nat) (ok : Bool) (s : State) : Res :=
  .next (s.spdmReq chan 2 (fun s =>
    if ok then (s.setConn chan 3).spdmFree chan 0x63 32 else s.spdmError chan errInvalid))

/-- GET_DIGESTS (R653): slot 0 alone has a chain; its digest is that of certificates the spec does not spell out. -/
def execGetDigests (chan : Nat) (s : State) : Res := .next (s.spdmReq chan 3 (fun s => s.spdmFree chan 0x01 64))

/-- GET_CERTIFICATE (R652, R653): `length` bytes from `offset` of the chain of slot 0. -/
def execGetCertificate (chan slot offset length : Nat) (s : State) : Res :=
  .next (s.spdmReq chan 3 (fun s =>
    if slot ≠ 0 ∨ 65536 < offset + length then s.spdmError chan errInvalid else s.spdmFree chan 0x02 length))

/-- CHALLENGE (R653): slot 0's key signs. -/
def execChallenge (chan slot : Nat) (s : State) : Res :=
  .next (s.spdmReq chan 3 (fun s => if slot ≠ 0 then s.spdmError chan errInvalid else s.spdmFree chan 0x03 224))

/-- The bytes of measurement register `k`. -/
def State.measBytes (s : State) (k : Nat) : List Byte := (upto 16).flatMap (fun w => leBytes 4 (s.liveWord .SEC_MEAS (k * 16 + w)).toNat)

/-- A DMTF measurement block of index `i`: raw digest of 64 bytes; the value type is not the spec's. -/
def State.measBlock (s : State) (i : Nat) : List Byte :=
  leBytes 1 i ++ leBytes 1 1 ++ leBytes 2 67 ++ [Config.freeByte i] ++ leBytes 2 64 ++ s.measBytes (i - 1)

/-- GET_MEASUREMENTS (R653): index 0 asks for the number of indices, 1 to 8 for M0 to M7, 0xFF for all. -/
def execGetMeasurements (chan index : Nat) (sign : Bool) (s : State) : Res :=
  .next (s.spdmReq chan 3 (fun s =>
    let is := if index = 0xFF then (upto 8).map (fun k => k + 1) else if 1 ≤ index ∧ index ≤ 8 then [index] else []
    if 8 < index ∧ index ≠ 0xFF then s.spdmError chan errInvalid
    else
      let (sig, s1) := s.freeBytes (if sign then 96 else 0)
      s1.spdm chan 0x60 (leBytes 1 (if index = 0 then 8 else is.length) ++ is.flatMap s.measBlock ++ sig)))

/-- Sessions that a channel may hold (R653). -/
def sessionLimit (chan : Nat) : Nat := if chan = 9 then 2 else 4

/-- KEY_EXCHANGE (R653): `ok` tells whether the exchange data is valid. -/
def execKeyExchange (chan : Nat) (ok : Bool) (s : State) : Res :=
  .next (s.spdmReq chan 3 (fun s =>
    if !ok then s.spdmError chan errInvalid
    else if sessionLimit chan ≤ (s.sec.sessions.filter (fun x => x.chan == chan)).length ∨ 32 ≤ s.sec.sessions.length then
      s.spdmError chan errSessions
    else
      let x : SpdmSession := { chan := chan, id := s.sec.nextSession, finished := false, mutualAuth := false, leaf := 0 }
      let s1 := { s with sec := { s.sec with sessions := s.sec.sessions ++ [x], nextSession := s.sec.nextSession + 1 } }
      let (bs, s2) := s1.freeBytes 192
      s2.spdm chan 0x64 (leBytes 4 x.id ++ bs)))

/-- A session of a channel by its id. -/
def State.session (s : State) (chan id : Nat) : Option SpdmSession := s.sec.sessions.find? (fun x => x.chan == chan && x.id == id)
def State.endSession (s : State) (id : Nat) : State :=
  { s with sec := { s.sec with sessions := s.sec.sessions.filter (fun x => x.id != id), counters := mapDel s.sec.counters (1024 + id) } }

/-- FINISH (R653 to R655): `ok` tells whether the requester's verify data is right, `who` how it authenticated itself; the
twin link asks for mutual authentication. -/
def execFinish (chan id : Nat) (ok : Bool) (who : Requester) (s : State) : Res :=
  .next (s.spdmReq chan 3 (fun s =>
    match s.session chan id with
    | none => s.spdmError chan errUnexpected
    | some x =>
      if x.finished then s.spdmError chan errUnexpected
      else
        let refuse (st : State) : State := (st.endSession id).spdmError chan errDecrypt
        let done (m : Bool) (leaf : Nat) : State :=
          let ys := s.sec.sessions.map (fun y => if y.id == id then { y with finished := true, mutualAuth := m, leaf := leaf } else y)
          ({ s with sec := { s.sec with sessions := ys } }).spdmFree chan 0x65 64
        if !ok then refuse s
        else match who with
          | .failed => refuse (s.raise Ev.SPDM_AUTH_FAIL)
          | .anonymous => if chan = 9 then refuse (s.raise Ev.SPDM_AUTH_FAIL) else done false 0
          | .authenticated leaf => done true leaf))

/-- A message inside a finished session counts its sequence number (R665); an exhausted session takes no more. -/
def State.inSession (s : State) (chan id : Nat) (body : State → SpdmSession → State) : State :=
  s.spdmReq chan 3 (fun s =>
    match s.session chan id with
    | none => s.spdmError chan errUnexpected
    | some x =>
      let n := mapGet 0 s.sec.counters (1024 + id)
      if !x.finished then s.spdmError chan errUnexpected
      else if 2 ^ 64 - 1 ≤ n then (s.raiseD Ev.COUNTER_EXHAUSTED (1024 + id)).send (.cipherStop (1024 + id) St.REKEY_REQUIRED)
      else
        let s1 := { s with sec := { s.sec with counters := mapSet s.sec.counters (1024 + id) (n + 1) } }
        body (if n + 1 = 2 ^ 64 - 2 ^ 20 then s1.raiseD Ev.COUNTER_NEAR (1024 + id) else s1) x)

/-- HEARTBEAT (R653). -/
def execSpdmHeartbeat (chan id : Nat) (s : State) : Res := .next (s.inSession chan id (fun s _ => s.spdm chan 0x68 []))

/-- KEY_UPDATE (R653, R665): new keys start a new sequence. -/
def execKeyUpdate (chan id : Nat) (s : State) : Res :=
  .next (s.inSession chan id (fun s _ =>
    ({ s with sec := { s.sec with counters := mapDel s.sec.counters (1024 + id) } }).spdm chan 0x69 []))

/-- END_SESSION (R653). -/
def execEndSession (chan id : Nat) (s : State) : Res :=
  .next (s.inSession chan id (fun s _ => (s.spdm chan 0x6C []).endSession id))

/-- SPDM_UNSUPPORTED (R654): every other request gets ERROR UnsupportedRequest. -/
def execSpdmUnsupported (chan : Nat) (s : State) : Res := .next (if s.spdmUp chan then s.spdmError chan errUnsupported else s)

/-! ### Vendor requests (R655) -/

/-- The channel is the DOE mailbox of an admin identity, or MCTP from the BMC. -/
def State.vendorChan (s : State) (chan : Nat) : Bool := chan == 8 || (decide (chan < 8) && s.mbAdmin (16 * chan))

/-- Answer a vendor request with a status and data. -/
def State.vendorTell (s : State) (chan status : Nat) (data : List Byte) : State := s.spdm chan 0x7E (leBytes 1 status ++ data)

/-- A vendor request: outside R655's conditions ERROR UnsupportedRequest; from another key than `owner` ACCESS_DENIED. -/
def State.vendorReq (s : State) (chan id : Nat) (owner : State → Option Nat) (body : State → State) : State :=
  if !s.spdmUp chan then s
  else if (s.session chan id).all (fun x => !x.finished) ∨ s.vendorChan chan = false then (s.spdmError chan errUnsupported).raise Ev.SPDM_AUTH_FAIL
  else s.inSession chan id (fun s x =>
    match owner s with
    | none => body s
    | some key => if x.mutualAuth && x.leaf == key then body s
      else (s.vendorTell chan St.ACCESS_DENIED []).raise Ev.SPDM_AUTH_FAIL)

/-- The owner key in force; no key matches where none is programmed (hashes are below 2^512). -/
def State.ownerNow (s : State) : Nat := s.owners.getLast?.getD (2 ^ 512)

/-- SEED_PROGRAM (R655): the next generation, with the hash of its owner's key. -/
def State.seedProgram (s : State) (chan hash : Nat) : State :=
  let g := s.owners.length
  if 4 ≤ g then s.vendorTell chan St.CURTAIN_DENIED []
  else
    let s1 := ({ s with sec := { s.sec with seeds := s.sec.seeds ++ [hash % 2 ^ 512] } }).fuseRegs
    let s2 := if s1.flag F.SEC_STAT_latch 0 then s1 else
      (match s1.deriveKek.storedBlob 255 with
       | some _ => s1.deriveKek.loadStrike
       | none => s1.deriveKek)
    (s2.vendorTell chan St.DONE []).raiseD Ev.SEED_PROGRAMMED g
def execSeedProgram (chan id hash : Nat) (s : State) : Res :=
  .next (s.vendorReq chan id (fun s => s.owners.getLast?) (fun s => s.seedProgram chan hash)).settle

/-- KEY_WRAP (R655, R660): a record of 80 bytes becomes a blob of 104; the wrapped bytes are not spelled out. -/
def State.keyWrap (s : State) (chan : Nat) (record : List Byte) : State :=
  if record.length ≠ 80 ∨ leAt record 72 1 ≠ 1 ∨ leAt record 73 7 ≠ 0 then s.vendorTell chan St.ILLEGAL []
  else if s.flag F.SEC_STAT_kek 0 = false then s.vendorTell chan St.CURTAIN_DENIED []
  else
    let (w, s1) := s.freeBytes 88
    s1.vendorTell chan St.DONE (leBytes 4 0x424B5150 ++ leBytes 1 1 ++ leBytes 1 1 ++ leBytes 1 (s.genNow.getD 0) ++ leBytes 1 0 ++
      (record.drop 64).take 8 ++ w)
def execKeyWrap (chan id : Nat) (record : List Byte) (s : State) : Res :=
  .next (s.vendorReq chan id (fun s => some s.ownerNow) (fun s => s.keyWrap chan record))

/-- REUNWRAP (R655, R671). -/
def execReunwrap (chan id : Nat) (s : State) : Res :=
  .next (s.vendorReq chan id (fun s => some s.ownerNow) (fun s => s.reunwrap.vendorTell chan St.DONE [])).settle

/-- DEBUG_UNLOCK (R655, R672): `good` tells whether the certificate's signer and signature are right. -/
def execDebugUnlock (chan id : Nat) (cert : List Byte) (good : Bool) (s : State) : Res :=
  .next (s.vendorReq chan id (fun _ => none) (fun s =>
    let (s1, ok) := s.debugJudge cert good
    s1.vendorTell chan (if ok then St.DONE else St.ACCESS_DENIED) [])).settle

end Sys2Proof.Machine
end

