-- ==== Sys2Proof/Machine/Resets.lean ====
section
/-! DEFINITION. Resets (R57 to R63, R92, R679, R726, R727, R749, R773): of the device, of a link, of a logical device, and
the end of load-in, which a held reset waits for. What each domain of R57 keeps is log entry 60. -/

set_option Elab.async false

namespace Sys2Proof.Machine

/-! ### A logical device (R726) -/

/-- Holdings of lines end without a BIRsp: what waits for them goes on, as after the holder's answer (R116, R726). -/
def State.dropHolders (s : State) (sel : Holder → Bool) : State :=
  let ws := s.host.biWaits.map (fun w => { w with left := w.left.filter (fun x => !sel x) })
  let gone := (ws.filter (fun w => w.left.isEmpty)).map (fun w => w.line)
  let snoop := (s.host.snoop.map (fun p => (p.1, p.2.filter (fun x => !sel x)))).filter (fun p => !p.2.isEmpty)
  let ap := s.path.applied.map (fun a => { a with bi := a.bi.filter (fun l => !gone.contains l) })
  { s with host := { s.host with biWaits := ws.filter (fun w => !w.left.isEmpty), snoop := snoop },
           path := { s.path with applied := ap } }

/-- A holder of an identity that matches through logical device `n`: by LD-ID, or on a GFD link by the identity that
`QUEUE_GFD_MAP` gives the device (R101, R502). -/
def State.holderOf (s : State) (n : Nat) (h : Holder) : Bool :=
  h.link == n / 16 &&
    (if s.linkMode h.link = 2 then
      s.flag F.QUEUE_GFD_MAP_valid n && s.matchIdentity h.link h.key == some (s.fld F.QUEUE_GFD_MAP_identity n)
    else h.key == n % 16)

/-- A fenced store of logical device `n` waits no longer (R18, R160). -/
def State.fencedEnd (s : State) (n : Nat) : State :=
  let mine (x : Source) : Bool := match x with
    | .host link key _ _ => s.holderOf n { link := link, key := key }
    | _ => false
  { s with path := { s.path with held := s.path.held.filter (fun r => !(r.gate == .fence && mine r.src)) } }

/-- What a reset of logical device `n` does (R160, R726). -/
def State.ldClear (s : State) (n : Nat) : State :=
  let s1 := (s.fencedEnd n).dropQueues (fun ld => ld == n)
  let mine := s1.scr.scripts.filter (fun x => x.ld == n)
  let s2 := mine.foldl (fun st x => st.unloadScript x.ld x.id) s1
  let s3 : State := { s2 with
    evt := { s2.evt with routes := s2.evt.routes.filter (fun p => p.1 / 4096 != n),
                         logs := s2.evt.logs.filter (fun p => p.1 / 4 != n) },
    host := { s2.host with decoders := s2.host.decoders.filter (fun p => p.1 / 8 != n) } }
  (s3.dropHolders (s3.holderOf n)).raiseD Ev.LD_RESET_DONE n

/-- Logical devices of a link (R97, R100; log entry 31). -/
def State.linkLds (s : State) (n : Nat) : Nat :=
  match s.linkMode n with
  | 1 => s.fld F.HPORT_CFG_ld_count n + 1
  | 2 => 16
  | _ => 1

/-- LD_RESET (R128, R726): link and logical device; one that does not exist gives ILLEGAL. -/
def execLdReset (mb : Nat) (input : List Byte) (s : State) : Res :=
  .next (s.vendor mb 0xC003 2 true false input (fun s =>
    let link := leAt input 0 1
    let ld := leAt input 1 1
    if s.linkExists link && decide (ld < s.linkLds link) then
      ((s.ldClear (link * 16 + ld)).answer mb 0xC003 St.DONE []).settle
    else s.answer mb 0xC003 St.ILLEGAL []))

/-! ### A link (R58, R92, R96, R727) -/

/-- The split that a reset of the even link puts in effect: the configured one where no odd link runs outside reset. -/
def State.newSplit (s : State) (n : Nat) : Bool :=
  if s.pwr.linksInReset.contains (n + 1) || !(s.link n).split then s.flag F.HPORT_CFG_bifurcate n else (s.link n).split

/-- The status of a link whose domain is in reset: only the split in effect, and in a strike or load-in the freeze. -/
def State.linkBlank (s : State) (n : Nat) (split : Bool) : State :=
  let frozen := s.flag F.HPORT_STAT_frozen n
  let s1 := (s.setLive .HPORT_STAT n 0).setFlag F.HPORT_STAT_split n (n % 2 == 0 && split)
  (s1.setFlag F.HPORT_STAT_frozen n (frozen && s.inStrike)).setLink n (LinkState.init (split || n % 2 == 1))

/-- Requests and completions of a link end unanswered; a store already applied stays applied. -/
def State.linkDrop (s : State) (n : Nat) : State :=
  let mine (x : Source) : Bool := match x with
    | .host link _ _ _ => link == n
    | _ => false
  let ap := s.path.applied.map (fun a => if mine a.src then { a with src := Source.unit a.cls } else a)
  { s with path := { s.path with ingress := s.path.ingress.filter (fun q => q.link != n),
                                 compl := s.path.compl.filter (fun c => c.link != n),
                                 held := s.path.held.filter (fun r => !mine r.src), applied := ap } }

/-- The key slots of a link's IDE stream become empty, a load that waits for one is dropped (R727). -/
def State.ideEmpty (s : State) (n : Nat) : State :=
  let mine (k : Nat) : Bool := k == 224 + 2 * n || k == 225 + 2 * n
  let s1 : State := { s with sec := { s.sec with loads := s.sec.loads.filter (fun l => !mine l.slot),
                                                 conn := mapDel s.sec.conn n,
                                                 sessions := s.sec.sessions.filter (fun x => x.chan != n) } }
  ((s1.setKeySlot (224 + 2 * n) 0 0).setKeySlot (225 + 2 * n) 0 0)

/-- A link reset (R727): every logical device of the link as R726 says, the link's domain, its IDE keys; the personality that
is configured comes into force (R96), on an even link also the split (R92). -/
def State.linkReset (s : State) (n : Nat) : State :=
  let up := s.flag F.HPORT_STAT_up n
  let s1 := (upto (s.linkLds n)).foldl (fun st k => st.ldClear (n * 16 + k)) s
  let s2 := ((s1.dropHolders (fun h => h.link == n)).linkDrop n).ideEmpty n
  let split := if n % 2 = 0 then s2.newSplit n else (s2.link n).split
  let s3 := (s2.linkBlank n split).setMode n
  if up then s3.raise (Ev.LINK_DOWN n) else s3

/-- PERST_N (R58, R92, R727): the pin of a link goes low, and the link is held in reset, or high. -/
def State.perst (s : State) (link : Nat) (low : Bool) : State :=
  if low then
    let s1 : State := { s with pwr := { s.pwr with linksInReset := setIns s.pwr.linksInReset link } }
    if s.linkExists link && s.pwr.aonUp then s1.linkReset link else s1
  else { s with pwr := { s.pwr with linksInReset := s.pwr.linksInReset.filter (fun k => k != link) } }
def execPerstN (link : Nat) (low : Bool) (s : State) : Res :=
  .next (if link < 8 then (s.perst link low).settle else s)

/-! ### The device (R58 to R63, R773) -/

/-- R773: programs that have been issued complete, well or not; erases in flight stop and keep their intents. -/
def State.flashQuiet (s : State) : State :=
  let s1 := s.programsEnd
  { s1 with flash := { s1.flash with susp := [], urgentAt := none } }

/-- Frames of the granule table and of the journal area (R207). -/
def areaFrames (kind : Nat) : Nat := if kind = 0 then 128 else 65536

/-- The base address in DRAM of an area: that of its first copy. -/
def State.areaBase (s : State) (kind : Nat) : Option Nat :=
  (s.dram.areas.find? (fun a => a.1 == kind)).map (fun a => (12 * a.2.2.1 + a.2.1) * 65536)

/-- Steps 1 to 6 of R59. Stores that the ink gate held end here, and the gate is open (R157). -/
def State.resetPrepare (s : State) : State :=
  let s0 : State := { s with flash := { s.flash with quiet := true } }
  let s1 := if s0.cacheOn then s0.cleanWays (fun _ _ => true) else s0
  let s2 := (s1.quiesce.flashQuiet).trackerRegs
  let cs := (upto 12).filter (fun c => !s2.chanFrozen c)
  let s3 := cs.foldl (fun st c => (st.setFlag F.DMC_STAT_in_sr c true).setFld F.DMC_STAT_debt c 0) s2
  { s3 with pwr := { s3.pwr with warmValid := true, warmTrained := cs.filter (fun c => (s3.chan c).trained),
                                 warmMapBase := s3.areaBase 0, warmJournalBase := s3.areaBase 1 } }

/-- Registers that a device reset leaves: those of the AON domain (R57), those that show data which the reset keeps in DRAM,
flash and the firmware flash, and those of the curtain and of the latched alarm (log entry 60). The fields of CTL and FAB among them that nothing saves are
cleared by `State.regsReset`. -/
def resetKeeps : List RegId :=
  [.CLK_STAT, .RST_CAUSE, .SENT_CTL, .SENT_STAT, .SENT_BULK, .SENT_HOLDUP, .SENT_SAG_CFG, .SENT_PCAP, .SENT_PWR, .SENT_DVFS,
   .SENT_HOLDUP_C, .SENT_HOLDUP_E, .SENT_ESAVE, .SENT_STRIKE_STAT, .SENT_BANK_FUSE, .SENT_PMB_CFG, .SENT_PMB_CMD,
   .SENT_PMB_DATA, .SENT_PMB_TAB, .SENT_METER_IDLE, .SENT_METER] ++
  [.CURT_INK, .CURT_INK_SRC, .CURT_STRIKE, .CURT_STRIKE_SEQ, .CURT_ACC, .CURT_SLOT, .CURT_LEASE, .CURT_EPOCH, .CURT_EPERM_CNT,
   .CURT_KEY, .CURT_THERM, .CURT_BOOT, .CURT_SWAP_SEQ, .CURT_PCAP, .CURT_BAND, .CURT_SEQ, .SEC_ALARM, .SEC_SVN, .FWF_PROT,
   .PBOOK_SEQ_LO, .PBOOK_SEQ_HI, .PBOOK_FLUSHED_LO, .PBOOK_FLUSHED_HI, .PBOOK_DROP, .PBOOK_STAT] ++
  [.INK_CNT, .REGION_CAP, .DMC_STAT, .DMC_GEOM, .DMC_REPAIR_STAT, .DMC_FREEZE_SNAP, .FLASH_STAT, .QUIRE_STAT, .QUIRE_FREE,
   .QUIRE_SEQ_LO, .QUIRE_SEQ_HI, .QUIRE_CKPT_CNT, .QUIRE_REBUILD_STAT, .QUIRE_DEG1, .QUIRE_DEG2, .QUIRE_LOST_CNT, .QUIRE_LAYOUT,
   .QUIRE_SLOT_STAT, .QUIRE_DIE_STAT, .SCR_STAT]

/-- The register file after a device reset: the lock bit of the firmware flash is set again (R632), the latch and the failed
attempts stay (R634, R667), the straps show in `HPORT_CFG` (R92). -/
def State.regsReset (s : State) : State :=
  let kept := s.regs.live.filter (fun p => match regAt p.1 with
    | some (r, _) => resetKeeps.contains r
    | none => false)
  let s1 : State := { s with regs := { live := kept, base := [], rwsTaken := [] } }
  let s2 := ((s1.setFld F.FWF_PWD_STAT_fails 0 (s.fld F.FWF_PWD_STAT_fails 0)).setFlag F.SEC_STAT_latch 0
    (s.flag F.SEC_STAT_latch 0)).setFlag F.CURT_BOOT_update 0 false
  let s3 := (upto 4).foldl (fun st p => st.setFld F.HPORT_CFG_bifurcate (2 * p) (bit s.pwr.bifStrap p)) s2
  let s4 := (upto 4).foldl (fun st p => st.setFlag F.HPORT_STAT_split (2 * p) (s.link (2 * p)).split) s3
  let s5 := (upto 12).foldl (fun st c => st.setFld F.DMC_STAT_rel_status c 0) s4
  ((s5.setFld F.CURT_STRIKE_cause 0 0).setFld F.CURT_ACC_signed 0 0).keyCount

/-- The links after a device reset: split and personality stay in effect until the first scene (R92, R96). -/
def State.hostReset (s : State) : State :=
  let ls := s.host.links.map (fun p => (p.1, LinkState.init (p.2.split || p.1 % 2 == 1)))
  { s with host := { State.reset.host with modes := s.host.modes, links := ls, extents := s.host.extents, lsa := s.host.lsa } }

/-- The shadow tables equal the live ones again. -/
def State.shadowFresh (s : State) : State :=
  let s1 : State := { s with region := { s.region with commit := none, queued := [], tableSync := [] } }
  let s2 := s1.clearShadow
  s2.validEntries.foldl (fun st e => st.setTabEntry false e.1 e.2 (st.tabEntry true e.1 e.2)) s2

/-- The units of SEC, CTL, FAB and the links are reset; what lies in DRAM, flash, the firmware flash and AON stays. With CTL goes
the scene images' copy: a strike that begins before it is loaded again applies STRIKE with no entries, as R769 has it for a
scene without image (DESIGN CHOICE, log entry 90). -/
def State.unitsReset (s : State) : State :=
  let z := State.reset
  let fs := s.ink.folios.map (fun p => (p.1, { p.2 with pins := 0 }))
  let tallies := s.pb.tallies.filter (fun p => decide (0xC0 ≤ p.1) && decide (p.1 ≤ 0xC4))
  { s with
    scene := z.scene,
    pwr := { s.pwr with secUp := false, ctlUp := false, fabUp := false, noMem := false, heldReset := none },
    evt := z.evt,
    pb := { s.pb with tallies := tallies, writer := [] },
    path := { z.path with nextAcc := s.path.nextAcc },
    cache := z.cache,
    ink := { s.ink with folios := fs, building := false },
    stage := z.stage,
    twin := { z.twin with record := s.twin.record, divMap := s.twin.divMap, lagCur := s.twin.lagCur, lagPrev := s.twin.lagPrev,
                          pairedEver := s.twin.pairedEver },
    integ := { z.integ with poison := s.integ.poison, overflow := s.integ.overflow, ctlArea := s.integ.ctlArea,
                            marked := s.integ.marked },
    core := { z.core with array := s.core.array, pages := s.core.pages, password := s.core.password, failedAt := s.core.failedAt },
    sec := { z.sec with latchAon := s.sec.latchAon, latchDue := s.sec.latchDue, seeds := s.sec.seeds, strikeKey := s.sec.strikeKey,
                        strikeLoaded := s.sec.strikeLoaded },
    scr := z.scr,
    que := { z.que with window := s.que.window } }

/-- The controller no longer knows where its areas begin but from the warm-start record (R57); the other copies stay where they
are. -/
def State.areasReset (s : State) : State :=
  let first (kind : Nat) : List (Nat × Nat × Nat × Nat) := ((s.dram.areas.filter (fun a => a.1 == kind)).drop 1)
  { s with dram := { s.dram with areas := first 0 ++ first 1 } }

/-- SEC, CTL, FAB and every LINK are reset (R58). -/
def State.domainsReset (s : State) : State := ((s.regsReset).unitsReset.hostReset).shadowFresh

/-- The start goes on from its security-core step (R59, R61, R679, R749): SYS_RESET_N is high and the clocks run. -/
def State.startGoes (s : State) : State :=
  let s1 := if s.pwr.warmValid then s.setFlag F.RST_CAUSE_warm 0 true else s
  if s1.pwr.secUePending then
    ({ s1 with pwr := { s1.pwr with secUePending := false } }).raise Ev.SEC_UE_RESET
  else s1

/-- DRAM holds ink that R59 has to keep: after the first scene, and from the moment a warm start has taken its channels out of
self-refresh. -/
def State.dramHolds (s : State) : Bool := decide (8 ≤ s.pwr.step) || (decide (s.pwr.step = 7) && s.pwr.warmValid)

/-- A device reset occurs; `causes` are its bits in `RST_CAUSE` (R64): the links leave the active state (R139). Before DRAM holds ink
a warm-start record stands as it is. -/
def State.resetNow (s : State) (causes : Nat) : State :=
  let s0 := (upto 8).foldl (fun st n => st.linkLeave n) (if s.dramHolds then s.resetPrepare.areasReset else s)
  let s1 := s0.domainsReset
  let s2 := s1.setLive .RST_CAUSE 0 ((s1.liveWord .RST_CAUSE 0).toNat ||| causes)
  let s3 : State := { s2 with pwr := { s2.pwr with step := min s2.pwr.step 4, secUePending := s2.pwr.secUePending || bitB causes 5 } }
  if s3.pwr.step = 4 ∧ s3.pwr.resetLow = false then s3.startGoes else s3

/-- A request for a device reset (R58, R63): discarded in a strike, held during load-in. Of several held in
one load-in one reset comes, and it shows the cause of each (DESIGN CHOICE, log entry 90). -/
def State.deviceReset (s : State) (cause : Nat) : State :=
  if s.inStrike then s
  else if s.inLoadIn then { s with pwr := { s.pwr with heldReset := some (s.pwr.heldReset.getD 0 ||| 2 ^ cause) } }
  else s.resetNow (2 ^ cause)

/-- SYS_RESET_N (R59, R749): the pin is sampled low. During steps 1 to 4 it only holds the start before step 5. -/
def State.sysReset (s : State) : State :=
  if s.pwr.resetLow then s
  else
    let s1 : State := { s with pwr := { s.pwr with resetLow := true } }
    if s.pwr.step ≤ 4 then s1 else s1.deviceReset 3
def execSysResetN (s : State) : Res := .next s.sysReset

/-- SYS_RESET_N_RELEASE (R749): the pin is sampled high. -/
def State.sysRelease (s : State) : State :=
  if s.pwr.resetLow then
    let s1 : State := { s with pwr := { s.pwr with resetLow := false } }
    if s.pwr.step = 4 then s1.startGoes else s1
  else s
def execSysResetNRelease (s : State) : Res := .next s.sysRelease

/-- SEC_FAULT (R63, R679): an uncorrectable error or a lockstep mismatch of class 7. Before step 4 the class has no clock. -/
def execSecFault (s : State) : Res := .next (if s.pwr.step < 4 then s else s.deviceReset 5)

/-- CXL_RESET (R58, R65): of the link, or of the device. -/
def execCxlReset (link : Nat) (s : State) : Res :=
  .next (
    if s.linkExists link && s.pwr.ctlUp then
      if s.flag F.RST_CTL_cxl_reset_dev 0 then s.deviceReset 6 else (s.linkReset link).settle
    else s)

/-- Whether the link that a mailbox is reached through is still up; the BMC has no host link. -/
def State.mbLinkUp (s : State) (mb : Nat) : Bool :=
  if mb < 128 then s.flag F.HPORT_STAT_up (mb / 16)
  else if mb < 384 then (upto 8).any (fun n => s.linkMode n == 2 && s.flag F.HPORT_STAT_up n) else true

/-- DEVICE_RESET (R63, R128, R131): the parameter 0x5253 confirms it; answered before the reset occurs. In a strike a link
still up is told RETRY_LATER. -/
def execDeviceReset (mb : Nat) (input : List Byte) (s : State) : Res :=
  .next (s.vendor mb 0xC002 2 true false input (fun s =>
    if leAt input 0 2 ≠ 0x5253 then s.answer mb 0xC002 St.ILLEGAL []
    else if s.inStrike then (if s.mbLinkUp mb then s.answer mb 0xC002 St.RETRY_LATER [] else s)
    else (s.answer mb 0xC002 St.DONE []).deviceReset 4))

/-! ### The end of load-in (R63, R590 step 8) -/

/-- LOAD_IN_DONE (R63, R590, R670): folios under the strike key are retagged, then a reset that was held occurs. -/
def State.loadInOver (s : State) : State :=
  let s1 := s.loadInDone
  if s.inLoadIn && !s1.inLoadIn then
    let s2 := s1.retag.settle
    match s2.pwr.heldReset with
    | some c => s2.resetNow c
    | none => s2
  else s1
def execLoadInDone (s : State) : Res := .next s.loadInOver

end Sys2Proof.Machine
end

