-- ==== Sys2Proof/Machine/Mail.lean ====
section
/-! DEFINITION. Mailbox commands that were held while no stage core was RUNNING (R617): once a core holds MAILBOX they run in
the order in which they came. -/

set_option Elab.async false

namespace Sys2Proof.Machine

/-- The state after an outcome; the block's commands end in a next state. -/
def stateOf (s : State) (r : Res) : State :=
  match r with
  | .next t => t
  | _ => s

/-- A held MAINT_SUBMIT (R128, R730): its job starts as a queued job does, by MAINT_START. -/
def mailSubmit (mb : Nat) (input : List Byte) (s : State) : Res := .next (s.submitMail mb input none).settle

/-- A held SLOT_CONTROL by its action (R128). -/
def mailSlotControl (mb : Nat) (input : List Byte) (s : State) : Res :=
  match leAt input 1 1 with
  | 0 => execPrepareRemoval mb input s
  | 1 => execSlotPowerOn mb input s
  | _ => execLedLocate mb input s

/-- A held standard command by its opcode (R124). -/
def mailStandard (mb op : Nat) (input : List Byte) (out : List Nat) (s : State) : Res :=
  let n0 := out.headD 0
  match op with
  | 0x0100 => execGetEventRecords mb input s
  | 0x0101 => execClearEventRecords mb input s
  | 0x0102 => execGetEventInterruptPolicy mb input s
  | 0x0103 => execSetEventInterruptPolicy mb input s
  | 0x0200 => execGetFwInfo mb input s
  | 0x0201 => execTransferFw mb input s
  | 0x0202 => execActivateFw mb input (n0 == 1) s
  | 0x0300 => execGetTimestamp mb input s
  | 0x0301 => execSetTimestamp mb input s
  | 0x0400 => execGetSupportedLogs mb input s
  | 0x0401 => execGetLog mb input s
  | 0x4000 => execIdentifyMemoryDevice mb input s
  | 0x4100 => execGetPartitionInfo mb input s
  | 0x4102 => execGetLsa mb input s
  | 0x4103 => execSetLsa mb input s
  | 0x4200 => execGetHealthInfo mb input s
  | 0x4201 => execGetAlertConfiguration mb input s
  | 0x4202 => execSetAlertConfiguration mb input s
  | 0x4300 => execGetPoisonList mb input s
  | _ => execMailboxUnsupported mb op s

/-- A held vendor command by its opcode (R128). -/
def mailVendor (mb op : Nat) (input : List Byte) (out : List Nat) (s : State) : Res :=
  let n0 := out.headD 0
  match op with
  | 0xC000 => execGetDeviceInfo mb input s
  | 0xC001 => execGetEpoch mb input s
  | 0xC002 => execDeviceReset mb input s
  | 0xC003 => execLdReset mb input s
  | 0xC004 => execRegionRead mb input s
  | 0xC005 => execRegionWrite mb input s
  | 0xC006 => execAccessStage mb input s
  | 0xC007 => execAccessCommit mb input s
  | 0xC008 => execPersistBarrier mb input s
  | 0xC009 => execInkRead mb input s
  | 0xC00A => execInkLimitSet mb input s
  | 0xC00B => execSceneSet mb input s
  | 0xC00C => mailSubmit mb input s
  | 0xC00D => execMaintStatus mb input s
  | 0xC00E => execMaintCancel mb input s
  | 0xC00F => mailSlotControl mb input s
  | 0xC010 => execFreezeSnapshot mb input s
  | 0xC011 => execFreezeRelease mb input (n0 == 1) (out.drop 1) s
  | 0xC012 => execPbookRead mb input s
  | 0xC013 => execPbookAck mb input s
  | 0xC014 => execTallyRead mb input s
  | 0xC015 => execEnergyRead mb input s
  | 0xC016 => execPowerCapSet mb input s
  | 0xC017 => execKeyLoad mb input (n0 == 1) s
  | 0xC018 => execKeyStatus mb input s
  | 0xC019 => execRehearsalRun mb input n0 s
  | 0xC01A => execTwinStatus mb input s
  | 0xC01B => execQueueCreate mb input s
  | 0xC01C => execQueueDelete mb input s
  | 0xC01D => execScriptLoad mb input s
  | 0xC01E => execScriptUnload mb input s
  | 0xC01F => execEventRoute mb input s
  | _ => execMailboxUnsupported mb op s

/-- Run held commands in order; those left when the CTL domain is reset are gone with it. -/
def State.mailRun (s : State) : List (Nat × Nat × List Byte × List Nat) → State
  | [] => s
  | (mb, op, input, out) :: rest =>
    if s.pwr.ctlUp then
      (stateOf s (if op < 0xC000 then mailStandard mb op input out s else mailVendor mb op input out s)).mailRun rest
    else s

/-- A core holds MAILBOX again: what was held runs (R617). -/
def State.runMail (s : State) : State :=
  if s.mailUp && !s.core.mail.isEmpty then
    ({ s with core := { s.core with mail := [] } }).mailRun s.core.mail
  else s

/-! ### Stage cores come back (R615 to R617, R639) -/

/-- STC_RELOADED (R616): a HALTED or LOADING core has been loaded again and runs. -/
def State.coreReloaded (s : State) (core : Nat) : State :=
  let x := s.fld F.STC_STAT_state core
  if s.pwr.ctlUp && decide (core < 4) && (x == 2 || x == 3) then
    (((s.coreRun core).raiseD Ev.STC_RELOADED core).rollOn core).runMail
  else s
def execStcReloaded (core : Nat) (s : State) : Res := .next (s.coreReloaded core).settle

/-- CORE_QUIESCE (R639): the core that a roll drains has reached its quiesce point; it is loaded with the new image and runs,
and the roll moves on. -/
def State.coreQuiesced (s : State) (core : Nat) : State :=
  match s.core.roll with
  | some r =>
    if s.pwr.ctlUp && r.current == some core && s.fld F.STC_STAT_state core == 1 then
      ((s.coreRun core).rollOn core).runMail
    else s
  | none => s
def execCoreQuiesce (core : Nat) (s : State) : Res := .next (s.coreQuiesced core).settle

end Sys2Proof.Machine
end

