-- ==== Sys2Proof/Machine/Start.lean ====
section
/-! DEFINITION. From power to the first scene (R52 to R56, R66, R80, R413, R629, R636, R648, R744 to R750), the loss of power,
and the scene boundaries (R85 to R91). What survives a loss of power is log entry 61. -/

set_option Elab.async false

namespace Sys2Proof.Machine

/-! ### The loss of power (R57, R58, R744) -/

/-- Registers whose value is kept in flash, fuses or the firmware flash. -/
def powerKeeps : List RegId :=
  [.QUIRE_SEQ_LO, .QUIRE_SEQ_HI, .QUIRE_CKPT_CNT, .QUIRE_LAYOUT, .REGION_CAP, .FWF_PROT, .SEC_SVN]

/-- The journal as NAND holds it: a leaf at the end that no program has brought there is lost, and with it the open leaf. -/
def journalCold (j : Journal) : Journal :=
  let kept := (j.leaves.reverse.dropWhile (fun l => l.good.isEmpty)).reverse
  let gone := j.leaves.drop kept.length
  let rec_ := match gone with
    | l :: _ => l.first
    | [] => j.nextRec - j.openRecs.length
  { j with leaves := kept.map (fun l => { l with programming := [], inDram := false, ink := false }),
           nextIndex := j.nextIndex - gone.length, nextRec := rec_, openRecs := [], openSince := none,
           ckptRuns := false, ckptQueue := [], ckptLeaf := none, mapDirty := [], underThree := false }

/-- Flash without power: folios, groups, blocks, journal and the erase intents stay; programs under way are lost. -/
def State.flashCold (s : State) : FlashUnit :=
  let f := s.flash
  let carts := (f.carts.filter (fun p => s.slotState p.1 == 3 || s.slotState p.1 == 4)).map (fun p =>
    (p.1, { p.2 with locateUntil := 0, pwrSince := none, go := false }))
  { State.reset.flash with population := f.population, carts := carts, blocks := f.blocks, groups := f.groups, store := f.store,
                           erases := f.erases, journal := journalCold f.journal, lastDie := f.lastDie,
                           twinCopies := f.twinCopies, permits := f.permits, ringNext := f.ringNext,
                           ringErased := f.ringErased, ringDie := f.ringDie }

/-- Everything is as State.reset says, but for what lies in NAND, the firmware flash and the fuses, the DIMM
repairs that the journal records, and the levels of the pins. The prompt book takes what its log holds (R718). -/
def State.cold (s : State) : State :=
  let z := State.reset
  let kept := s.regs.live.filter (fun p => match regAt p.1 with
    | some (r, _) => powerKeeps.contains r
    | none => false)
  let chans := s.dram.chans.map (fun p => (p.1, { Chan.init with repairs := p.2.repairs }))
  let persist := s.integ.poison.filter (fun p => s.linePersistent p.1)
  let marks := (s.twin.lagCur ++ s.twin.lagPrev).foldl setIns s.twin.divMap
  let fails := s.fld F.FWF_PWD_STAT_fails 0
  let s1 : State := { z with
    pending := s.pending, clock := s.clock, fresh := s.fresh, sent := s.sent,
    regs := { z.regs with live := kept },
    pwr := { z.pwr with boots := s.pwr.boots, afterStrike := s.pwr.afterStrike || s.inStrike, afterRefclk := s.pwr.afterRefclk,
                        resetLow := s.pwr.resetLow, linksInReset := s.pwr.linksInReset },
    pb := { z.pb with log := s.pb.log, logSlot := s.pb.logSlot, logLine := s.pb.logLine },
    host := { z.host with lsa := s.host.lsa },
    path := { z.path with nextAcc := s.path.nextAcc },
    dram := { z.dram with retired := s.dram.retired, chans := chans },
    flash := s.flashCold,
    twin := { z.twin with divMap := marks, pairedEver := s.twin.pairedEver },
    integ := { z.integ with poison := persist },
    core := { z.core with array := s.core.array, pages := s.core.pages, password := s.core.password,
                          failedAt := if fails = 0 then none else some s.clock },
    sec := { z.sec with seeds := s.sec.seeds } }
  ((s1.setFld F.FWF_PWD_STAT_fails 0 fails).fuseRegs).pbRestore

/-- Power is lost, unless it is lost already. -/
def State.powerLost (s : State) : State := if s.pwr.aonUp then s.cold else s

/-- VDD_AON_FALL (R744): the whole controller is in reset. -/
def execVddAonFall (s : State) : Res := .next s.powerLost

/-! ### Steps 1 to 4 of R66 -/

/-- The firmware flash as the part is delivered (R619), put into a blank array. -/
def State.deliver (s : State) (cells : List Host.Cell) : State :=
  match s.core.array with
  | [] =>
    let cs := cells.filter (fun c => decide (c.1 < 0x4000000))
    let a := cs.foldl (fun m c => memWrite fwErased m c.1 c.2) []
    let ps := a.foldl (fun p c => setIns p (c.1 / 256)) ([] : List Nat)
    { s with core := { s.core with array := a, pages := ps } }
  | _ => s

/-- POWER_ON_RESET (R66 step 1, R64): VDD_AON has risen; the AON domain runs on the RC oscillator and samples the mains. -/
def State.powerOn (s : State) (m : Mains) (delivered : List Host.Cell) : State :=
  let s1 := s.powerLost.fuseRegs.deliver delivered
  let p : PowerUnit := { s1.pwr with aonUp := true, step := 1, railSince := s1.clock, afterStrike := false, afterRefclk := false }
  let s2 : State := { s1 with pwr := p }
  let s3 := (((s2.setFlag F.CLK_STAT_aon_on_rc 0 true).setFlag F.RST_CAUSE_strike 0 s1.pwr.afterStrike).setFlag
    F.RST_CAUSE_refclk 0 s1.pwr.afterRefclk)
  s3.senseBulk m
def execPowerOnReset (m : Mains) (delivered : List Host.Cell) (s : State) : Res := .next (s.powerOn m delivered)

/-- Raise the rails of a sequence group (R745). -/
def State.raiseGroup (s : State) (g : Nat) : State :=
  ({ s with pwr := { s.pwr with railGroup := g, railSince := s.clock } }).send (.pin 6 g 1)

/-- Raise the next rail group once its interval has passed (R745). -/
def State.nextGroup (s : State) : State :=
  let g := s.pwr.railGroup + 1
  if s.due s.pwr.railSince (s.fld F.CURT_SEQ_interval g * 1000) then s.raiseGroup g else s

/-- REFCLK_PRESENT (R54, R66 step 2): at a start CLK_AON moves to REFCLK / 4 and the rails begin, group 1 its interval after
VDD_AON has come; later REFCLK has returned. -/
def State.refclkHere (s : State) : State :=
  if !s.pwr.aonUp then s
  else
    let s1 := s.setFlag F.CLK_STAT_refclk_ok 0 true
    if s.pwr.step = 1 then
      let s2 : State := { s1 with pwr := { s1.pwr with step := 2 } }
      (s2.setFlag F.CLK_STAT_aon_on_rc 0 false).nextGroup
    else if s.flag F.CLK_STAT_refclk_ok 0 then s
    else { s1 with pwr := { s1.pwr with refclkBack := some s1.clock } }
def execRefclkPresent (s : State) : Res := .next s.refclkHere

/-- After the last group (R92, R750): the straps are sampled and decide the split, the glitch detectors are armed. -/
def State.railsUp (s : State) (strap : Nat) : State :=
  let b := strap % 16
  let s1 : State := { s with pwr := { s.pwr with bifStrap := b, step := 3 }, sen := { s.sen with glitchArmed := true } }
  (upto 4).foldl (fun st p =>
    ((st.setFld F.HPORT_CFG_bifurcate (2 * p) (bit b p)).setFld F.HPORT_STAT_split (2 * p) (bit b p)).setLink (2 * p)
      (LinkState.init (bitB b p))) s1

/-- RAIL_GROUP_WITHIN_TOLERANCE (R745): the rails of the group read within tolerance and the next group's interval has
passed; the next group begins, or after group 5 step 3 ends. `strap` is what BIF_STRAP[3:0] reads. -/
def State.railGood (s : State) (strap : Nat) : State :=
  if s.pwr.step ≠ 2 then s
  else if 5 ≤ s.pwr.railGroup then s.railsUp strap
  else s.nextGroup
def execRailGroupWithinTolerance (strap : Nat) (s : State) : Res := .next (s.railGood strap)

/-- RAIL_START_FAIL (R746): the group that began 20 ms ago is not within tolerance. -/
def State.railFail (s : State) : State :=
  if s.pwr.step = 2 ∧ s.pwr.railGroup ≠ 0 ∧ s.due s.pwr.railSince 20000 = true then
    let s1 := (s.disarm.railsDown).raise Ev.RAIL_START_FAIL
    ({ s1 with pwr := { s1.pwr with step := 0 } }).powerCycle
  else s
def execRailStartFail (s : State) : Res := .next s.railFail

/-- ROOT_PLL_LOCK (R66 step 4): the derived clocks start, the other PLLs lock to theirs (R45). -/
def State.pllLock (s : State) : State :=
  if s.pwr.step = 3 then
    let s1 : State := { s with pwr := { s.pwr with step := 4 } }
    (((s1.setFlag F.CLK_STAT_root_lock 0 true).setFlag F.CLK_STAT_ddr_pll_lock 0 true).setFlag
      F.CLK_STAT_host_pll_lock 0 true).setFlag F.CLK_STAT_twin_pll_lock 0 true
  else s
def execRootPllLock (s : State) : Res := .next s.pllLock

/-! ### Loss of a clock (R52 to R56) -/

/-- The root PLL runs in holdover, unless it has never locked (R53, R56). -/
def State.holdover (s : State) : State :=
  if s.flag F.CLK_STAT_root_lock 0 then (s.setFlag F.CLK_STAT_root_lock 0 false).setFlag F.CLK_STAT_holdover 0 true else s

/-- REFCLK_LOST (R52, R53): no REFCLK edge for the detection time; the SerDes PLLs, which lock to REFCLK, lose their lock. -/
def State.refclkLost (s : State) : State :=
  if s.pwr.aonUp && s.flag F.CLK_STAT_refclk_ok 0 then
    let s1 := ((s.setFlag F.CLK_STAT_refclk_ok 0 false).setFlag F.CLK_STAT_refclk_lost 0 true).setFlag F.CLK_STAT_aon_on_rc 0 true
    let s1 := (s1.setFlag F.CLK_STAT_host_pll_lock 0 false).setFlag F.CLK_STAT_twin_pll_lock 0 false
    let s2 := s1.holdover.raise Ev.REFCLK_LOST
    ({ s2 with pwr := { s2.pwr with refclkBack := none } }).strike 2
  else s
def execRefclkLost (s : State) : Res := .next s.refclkLost.settle

/-- PLL_UNLOCK (R56): the root PLL loses lock while REFCLK is present; treated as a loss of REFCLK. -/
def State.pllUnlock (s : State) : State :=
  if s.flag F.CLK_STAT_root_lock 0 && s.flag F.CLK_STAT_refclk_ok 0 then
    (s.holdover.raise Ev.PLL_UNLOCK).strike 3
  else s
def execPllUnlock (s : State) : Res := .next s.pllUnlock.settle

/-- CLK_HOLDOVER_FAIL (R56): in the strike of an unlock a count against REFCLK finds the holdover clock too far off. The
strike stops without its end word, the board is power-cycled. -/
def State.holdoverFail (s : State) : State :=
  if s.inStrike && !s.sen.strikeOver && s.fld F.CURT_STRIKE_cause 0 == 3 && s.flag F.CLK_STAT_refclk_ok 0 then
    let s1 := s.raise Ev.CLK_HOLDOVER_FAIL
    ({ s1 with sen := { s1.sen with strikeOver := true } }).powerCycle
  else s
def execClkHoldoverFail (s : State) : Res := .next s.holdoverFail

/-- REFCLK_RESTORED (R54, R55): the strike of R52 has ended and REFCLK has been present for 10 ms. -/
def State.refclkRestored (s : State) : State :=
  let back := match s.pwr.refclkBack with
    | some t => s.due t 10000
    | none => false
  if s.inStrike && s.sen.strikeOver && s.fld F.CURT_STRIKE_cause 0 == 2 && back then
    let s1 := s.raise Ev.REFCLK_RESTORED
    ({ s1 with pwr := { s1.pwr with afterRefclk := true } }).powerCycle
  else s
def execRefclkRestored (s : State) : Res := .next s.refclkRestored

/-! ### Step 5: the security core boots (R629, R636, R648 to R650) -/

/-- Sectors in the order of R629. -/
def redoOrder : List Nat := [3, 2, 0, 1] ++ (upto 538).map (fun k => k + 4)

/-- An erase that power or a reset interrupted is made again (R629). -/
def State.fwRedo (s : State) (i : Nat) : State :=
  if s.fwInterrupted i then ((s.fwBlank i).fwClearBit i).raiseD Ev.FWF_ERASE_REDO i else s
def State.fwRedoAll (s : State) : State := redoOrder.foldl (fun st i => st.fwRedo i) s

/-- Try swap entries in descending sequence (R636): `matched` are the sequences whose slot image has the entry's digest,
`signed` those that pass checks 2 and 5 of R647. -/
def State.bootPick (s : State) (matched signed : List Nat) : List (Nat × Nat × Nat) → State × Option (Nat × Nat)
  | [] => (s, none)
  | (q, slot, _) :: rest =>
    if matched.contains q && s.imageOk (slotBase slot) (signed.contains q) then (s, some (q, slot))
    else (s.raise Ev.IMAGE_REJECTED).bootPick matched signed rest

/-- The PMBus table of the image's third section (R599): 32 entries of 4 bytes. -/
def State.pmbusLoad (s : State) (a : Nat) (vout : List (Nat × Nat)) : State :=
  let bs := s.imageSection a 3
  let s1 := (upto 32).foldl (fun st k => st.setLive .SENT_PMB_TAB k (leAt bs (4 * k) 4)) s
  { s1 with sen := { s1.sen with voutMode := vout.foldl (fun m p => mapSet m p.1 p.2) [] } }

/-- The measurements of step 7 (R649). -/
def State.bootMeasure (s : State) (a : Nat) : State :=
  let fuses := leBytes 4 Config.fuseBank.toNat ++ leBytes 2 Config.fuseEsrMax.toNat ++
    (upto 16).flatMap (fun k => leBytes 4 (s.liveWord .CURT_BAND k).toNat) ++
    (upto 16).flatMap (fun k => leBytes 4 (s.liveWord .CURT_SEQ k).toNat)
  let m0 := leBytes 4 (s.fld F.SEC_SVN_svn 0) ++ leBytes 4 (s.liveWord .SEC_STAT 0).toNat
  (((s.measure 0 m0).measure 1 (s.imageSection a 1)).measure 2 (s.imageSection a 2)).measure 3
    (s.imageSection a 3 ++ fuses)

/-- The image's roll level, and the SVN that it asks to be committed once every core runs (R639, R650). -/
def State.bootImage (s : State) (a : Nat) : State :=
  let svn := s.fwLE (a + 8) 4
  let want := bitB (s.fwLE (a + 12) 4) 0 && decide (s.fld F.SEC_SVN_svn 0 < svn) && decide (svn ≤ 64)
  { s with core := { s.core with rollLevel := s.fwLE (a + 6) 2, svnPending := if want then some svn else none, kicked := [] } }

/-- The stage cores are released (R615, R616), the epoch record and the strike log are read (R543, R643, R672). -/
def State.coresGo (s : State) : State :=
  let b := s.pwr.boots + 1
  let kicks := (upto 4).map (fun k => (k, s.clock))
  let s1 : State := { s with core := { s.core with kicks := kicks },
                             pwr := { s.pwr with secUp := true, ctlUp := true, fabUp := true, boots := b, step := 5 } }
  let s2 := ((upto 4).foldl (fun st k => st.setFld F.STC_STAT_state k 0) s1).dutiesNow
  let s3 := (upto 8).foldl (fun st w => st.setLive .SEC_DEBUG_NONCE w (Config.bootNonce b w).toNat) s2
  let s4 := match s3.epochInForce with
    | some r => s3.epochTake r
    | none => s3.epochTake { epoch := 0, role := 0, divEpoch := 0, divValid := false, readable := false }
  s4.strikeSeqLoad

/-- The start goes on with the entry that was picked: its sequence and slot; `newest` is the sequence of the newest entry. When
no entry verifies, no core is released (R636). -/
def State.bootFrom (s : State) (newest : Option Nat) (vout : List (Nat × Nat)) (pick : Option (Nat × Nat)) : State :=
  match pick with
  | none => s
  | some (q, slot) =>
    let back := newest.any (fun e => e != q)
    let s1 := ((s.setFlag F.CURT_BOOT_slot 0 (slot == 1)).setFlag F.CURT_BOOT_fell_back 0 back).setFld F.CURT_SWAP_SEQ_seq 0 q
    let s2 := if back then s1.raise Ev.FWF_BOOT_FALLBACK else s1
    let s3 := ((s2.bootImage (slotBase slot)).pmbusLoad (slotBase slot) vout).bootKeys
    (((s3.bootMeasure (slotBase slot)).coresGo).raise Ev.BOOT_VERIFIED).runMail

/-- BOOT_VERIFIED (R66 step 5, R648): `vout` are the VOUT_MODE exponents that the regulators answer (R600). -/
def State.bootVerified (s : State) (matched signed : List Nat) (vout : List (Nat × Nat)) : State :=
  if s.pwr.step ≠ 4 ∨ s.pwr.resetLow = true then s
  else
    let s1 := s.fwRedoAll
    let r := s1.bootPick matched signed s1.swapEntries
    r.1.bootFrom (s1.swapEntries.head?.map (fun e => e.1)) vout r.2
def execBootVerified (matched signed : List Nat) (vout : List (Nat × Nat)) (s : State) : Res :=
  .next (s.bootVerified matched signed vout)

/-! ### Step 6: the configuration set (R80) -/

/-- The copy that serves, as R80 chooses. -/
def State.newestCopy (s : State) : Option Nat :=
  match s.readSet 0, s.readSet 1 with
  | some (qa, _), some (qb, _) => some (if qa < qb then 1 else 0)
  | some _, none => some 0
  | none, some _ => some 1
  | none, none => none

/-- At the first scene the links take split and personality from the base (R92, R96), and the pair pool the frames
that the staged pool can yield (R196); at a start without a warm-start record the granule table and the journal area take their
places (R188, R207; which they are is open, log entry 83). -/
def State.firstScene (s : State) : State :=
  let s1 := (upto 4).foldl (fun st p =>
    let b := st.flag F.HPORT_CFG_bifurcate (2 * p)
    (st.setFlag F.HPORT_STAT_split (2 * p) b).setLink (2 * p) (LinkState.init b)) s
  let s2 := (upto 8).foldl (fun st n => st.setMode n) s1
  let s3 := if s2.pwr.warmValid then s2 else
    { s2 with dram := { s2.dram with areas := [(0, 0, 0, 128), (0, 6, 0, 128), (1, 1, 0, 65536), (1, 7, 0, 65536)] } }
  ((s3.setFld F.PAIR_STAT_frames 0 0).setStagePool.pairGrow).setCeiling

/-- The start ends with SERVICE as first scene (R80, R243): nothing is served in CXL.mem until the next start. -/
def State.startService (s : State) : State :=
  (({ s with pwr := { s.pwr with noMem := true } }).applySet 0x101).firstScene

/-- CONFIG_SET_LOAD (R66 step 6, R80): the set is checked and taken, M4 extended (R649). -/
def State.configLoad (s : State) : State :=
  if s.pwr.step ≠ 5 then s
  else
    let s1 : State := { s with pwr := { s.pwr with step := 6 }, sen := { s.sen with bankSince := s.clock } }
    match s1.newestSet, s1.newestCopy with
    | some is, some copy => ((s1.takeImages is).freshBase).measure 4 (s1.fwRead (setCopyAt copy) setCopySize)
    | _, _ => (({ s1 with scene := { s1.scene with images := [] } }).freshBase.raise Ev.SCENE_SET_BAD).startService
def execConfigSetLoad (s : State) : Res := .next s.configLoad

/-! ### Step 7: rehearsal -/

/-- R241 for one channel beside channel 0. -/
def dimmOk (first d : DimmSet) : Bool :=
  d.rdimm && d.width == 4 && d.devices == 10 && (d.count == 1 || d.count == 2) && [32, 64, 128, 256].contains d.gib &&
    (d.ranks == 1 || d.ranks == 2) && decide ((if d.count = 1 then 6400 else 5600) ≤ d.speed) &&
    d.count == first.count && d.gib == first.gib && d.ranks == first.ranks && d.density == first.density

/-- A channel without DIMMs. -/
def noDimm : DimmSet := { count := 0, gib := 0, ranks := 0, density := 0, rdimm := false, width := 0, devices := 0, speed := 0 }

/-- The first channel that breaks R241. -/
def popBad (r : Rehearsed) : Option Nat :=
  (upto 12).find? (fun c => !dimmOk (r.dimms.getD 0 noDimm) (r.dimms.getD c noDimm))

/-- `DMC_GEOM` of a channel (R245, R281). -/
def dimmGeom (d : DimmSet) : Nat :=
  let cap := d.count * d.gib
  (if d.count = 1 then 2 else 1) * 2 ^ 30 + d.count * 2 ^ 28 + d.ranks * 2 ^ 26 +
    (Nat.log2 cap + 24 - 13 - (d.ranks - 1) - (d.count - 1)) * 2 ^ 21 + cap

/-- Array self-test (R677): soft repairs are made afresh, spares counted; errors of cache ways are counted (R235). -/
def State.arraysTest (s : State) (r : Rehearsed) : State :=
  let s1 : State := { s with integ := { s.integ with marked := [] } }
  let s2 := r.soft.foldl (fun st c => (st.addSat F.INT_ARRAY_soft (c % 8) 1).raiseD Ev.SRAM_SOFT_REPAIR (c % 8)) s1
  let s3 := r.spares.foldl (fun st p => st.setFld F.INT_ARRAY_spares (p.1 % 8) p.2) s2
  r.wayErrors.foldl (fun st e => (st.wayCe (e.1 % 32) (e.2.1 % 16)).sramCe 0 e.2.2) s3

/-- Arrays beyond repair (R678): a cache way is disabled (R234). -/
def State.waysFail (s : State) (r : Rehearsed) : State :=
  r.badWays.foldl (fun st p =>
    let k := p.1 % 32
    ((st.raiseD Ev.SRAM_UNREPAIRABLE 0).setFld F.SCACHE_WAYSTAT_soft k (st.fld F.SCACHE_WAYSTAT_soft k ||| 2 ^ (p.2 % 16))).raiseD
      Ev.WAY_DISABLED (k * 16 + p.2 % 16)) s

/-- Scribes (R413, R678): those that pass fill positions 0 to 7 of their cluster in ascending physical index, the next is
SPARE, one that failed is FAILED. A scribe already FAILED stays so at a warm start. -/
def State.scribesFill (s : State) (r : Rehearsed) : State :=
  let lost := r.badInkwells.length + r.badReservoirs.length
  let s1 := (upto lost).foldl (fun st _ => st.raiseD Ev.SRAM_UNREPAIRABLE 2) s
  (upto 4).foldl (fun st k =>
    let pass (i : Nat) : Bool := r.scribes.contains (9 * k + i) && !r.badInkwells.contains (9 * k + i) &&
      !r.badReservoirs.contains k && s.fld F.SCR_STAT_state (9 * k + i) != 2
    let good := (upto 9).filter pass
    let map := (upto 8).foldl (fun a p => a + (good.getD p 0xF) * 16 ^ p) 0
    let st1 := (upto 9).foldl (fun (t : State) i => t.setFld F.SCR_STAT_state (9 * k + i)
      (if !pass i then 2 else if (good.take 8).contains i then 1 else 0)) (st.setLive .SCL_MAP k map)
    ((upto 9).foldl (fun t i => t.scribeRegs (9 * k + i)) st1).clusterRegs k |>.reservoirRegs k) s1

/-- Channels train, or leave self-refresh with the recorded results, trained anew where the first access fails (R61, R246, R247); the repairs recorded are applied again or
made hard (R269). -/
def State.channelsGo (s : State) (r : Rehearsed) (warm : Bool) : State :=
  (upto 12).foldl (fun st c =>
    let x := st.chan c
    let reps := if warm then x.repairs else x.repairs.filter (fun w => !r.hard.contains (c, w.1))
    let on := if warm then s.pwr.warmTrained.contains c || r.accessFail.contains c else true
    let st1 := (st.setChan c { x with trained := on, lastPause := st.clock, pauseDue := none, repairs := reps }).setLive .DMC_GEOM c
      (dimmGeom (r.dimms.getD c noDimm))
    let st2 := (st1.setFld F.DMC_REPAIR_STAT_soft c (satTo 8 reps.length)).setFld F.DMC_REPAIR_STAT_retired c
      (st1.dram.retired.filter (fun f => chanOf f == c)).length
    if st2.chanFrozen c then st2 else st2.setFlag F.DMC_STAT_in_sr c false) s

/-- A cartridge of the appliance, or of one that has no journal yet, is powered and trained at once (R290, R340, R348, R349). -/
def State.cartUp (s : State) (c : FoundCart) (form : Bool) : State :=
  let s1 := (s.slotPwr c.slot true).setFlag F.QUIRE_SLOT_STAT_pgood c.slot true
  let s2 := ((s1.setCart c.slot { s1.cart c.slot with pwrSince := none, go := true }).initChannels c.slot c.answered c.fail)
  let s3 := s2.markDies c.slot c.answered
  if c.fail % 4 ≠ 0 ∨ 4 ≤ s3.fld F.QUIRE_SLOT_STAT_retired c.slot then s3.cartFail c.slot
  else if form then ((s3.formSlot c.slot).setSlot c.slot 3).raiseD Ev.CART_ADMITTED c.slot
  else s3.setSlot c.slot 3

/-- A cartridge found at a power-on: refused, brought into service, or treated as one newly inserted. -/
def State.cartFound (s : State) (fresh : Bool) (c : FoundCart) : State :=
  let old := mapGet? s.flash.carts c.slot
  let x : Cart := { Cart.init with dies := c.dies, cls := c.cls, serial := c.serial, mask := c.mask % 2 ^ 32,
                                   good := c.recordGood }
  let s1 := (s.setFlag F.QUIRE_SLOT_STAT_prsnt c.slot true).setCart c.slot x
  if !s1.cartGood x then s1.cartRefuse c.slot
  else if fresh then s1.cartUp c true
  else if (old.map (fun o => o.serial)) = some c.serial then s1.cartUp c false
  else ((s1.setSlot c.slot 1).raiseD Ev.CART_PRESENT c.slot).ownJob 0x07 c.slot 0 0

/-- The cartridges at a power-on (R290, R352, R353): the population comes from the journal, else from the lowest slot. -/
def State.cartsFound (s : State) (r : Rehearsed) : State :=
  let cs := (upto 16).filterMap (fun k => r.carts.find? (fun c => c.slot == k))
  let fresh := s.flash.population.isNone
  let s1 := if fresh then
      (match cs.find? (fun c => c.recordGood) with
       | some c => s.fixPopulation c.dies
       | none => s)
    else s
  let s2 := cs.foldl (fun st c => st.cartFound fresh c) s1
  let n := s2.serviceSlots.length
  let s3 := (s2.setFld F.QUIRE_STAT_width 0 (if n = 16 then 14 else 13)).setFlag F.QUIRE_REBUILD_STAT_halted 0 (decide (n < 15))
  (if n < 15 then (s3.raise Ev.WRITES_HALTED).askDegraded else s3).flashRegs

/-- The first scene is LOAD_IN: it waits before all else (R66 step 8). -/
def State.askLoadIn (s : State) (faulty : Bool) : State :=
  let rest := s.scene.waiting ++ (if faulty then [Boundary.change 0x100 0] else [])
  ({ s with scene := { s.scene with waiting := Boundary.change 0x80 0 :: rest } }).setFlag F.SCENE_STAT_busy 0 true

/-- Arrays of classes 3, 4, 5 and 7 beyond repair: SERVICE, and no CXL.mem (R678). -/
def State.arraysFail (s : State) (r : Rehearsed) : State :=
  let bad := r.badArrays.filter (fun c => c == 3 || c == 4 || c == 5 || c == 7)
  let s1 := bad.foldl (fun st c => st.raiseD Ev.SRAM_UNREPAIRABLE c) s
  if bad.isEmpty then s1 else { s1 with pwr := { s1.pwr with noMem := true } }

/-- The population is not as R241 says, or a channel fails training (R243, R247). -/
def State.popMismatch (s : State) (c : Nat) : State := (s.raiseD Ev.DIMM_POP_MISMATCH c).startService

/-- At a warm start the record tells where the granule table and the journal area lie (R57, R61). -/
def State.warmAreas (s : State) : State :=
  let at_ (kind : Nat) (base : Option Nat) : List (Nat × Nat × Nat × Nat) := match base with
    | some b => [(kind, b / 65536 % 12, b / 65536 / 12, areaFrames kind)]
    | none => []
  { s with dram := { s.dram with areas := at_ 0 s.pwr.warmMapBase ++ at_ 1 s.pwr.warmJournalBase ++ s.dram.areas } }

/-- Rehearsal once the DRAM is there. -/
def State.rehearseOn (s : State) (r : Rehearsed) (warm : Bool) : State :=
  let s0 := s.channelsGo r warm
  let s1 := (if warm then s0.warmAreas else s0).scribesFill r
  let s2 := if warm then
      s1.setCurtain (curtainLimit (s1.fld F.SENT_HOLDUP_E_e_mj 0) (s1.fld F.SENT_ESAVE_pj_per_b 0))
    else (s1.cartsFound r).renewals
  let s3 := s2.arraysFail r
  ({ s3 with pwr := { s3.pwr with step := 7 } }).askLoadIn s3.pwr.noMem

/-- POWER_ON_REHEARSAL (R66 step 7): the tests have ended with `r`; at a power-on the hold-up bank has been measured, too. -/
def State.rehearse (s : State) (r : Rehearsed) : State :=
  let warm := s.pwr.warmValid
  if s.pwr.step ≠ 6 ∨ s.pwr.noMem = true ∨ (warm || s.sen.measured) = false then s
  else
    let s1 := (s.arraysTest r).waysFail r
    match popBad r with
    | some c => s1.popMismatch c
    | none =>
      let train := if warm then r.accessFail else upto 12
      let untrained := (upto 12).filter (fun c => train.contains c && !r.trained.contains c)
      match untrained with
      | [] => s1.rehearseOn r warm
      | c :: _ => (untrained.foldl (fun (st : State) k => st.raiseD Ev.TRAIN_FAIL k) s1).popMismatch c
def execPowerOnRehearsal (r : Rehearsed) (s : State) : Res := .next (s.rehearse r)

/-! ### Step 8 and the boundaries after it (R61, R86, R89, R91) -/

/-- A FATAL record of STRIKE_INCOMPLETE has not been acknowledged (R591). -/
def State.incompleteOpen (s : State) : Bool :=
  s.pb.ring.any (fun p => p.2.event == Ev.STRIKE_INCOMPLETE && !p.2.acked)

/-- DEGRADED is asked for again after a reset, while its cause lasts (R272, R350). -/
def State.degradedAgain (s : State) : State :=
  if s.flash.degraded || (upto 12).any s.chanFrozen then s.sceneChange 0x10 0 else s

/-- After the first scene of a warm start (R61, R333, R544, R591, R773): the record is cleared, erases that were stopped are made
again, journal leaves and ring blocks that waited are written and erased, the role is taken. -/
def State.warmGo (s : State) : State :=
  let s0 : State := { s with pwr := { s.pwr with warmValid := false }, flash := { s.flash with quiet := false } }
  let s1 := (s0.redoErases.jReplace.releaseEmpty).degradedAgain
  let s1 := s1.serviceSlots.foldl (fun st k => st.ringErase k) s1
  let s2 := if s1.incompleteOpen then
      ({ s1 with pwr := { s1.pwr with noMem := true } }).sceneChange 0x100 0
    else s1
  s2.setCeiling.loadRole

/-- After the first scene of a power-on, load-in begins (R590). -/
def State.coldGo (s : State) : State :=
  let s1 := s.setSent 4
  { s1 with sen := { s1.sen with loadStep := 0, loadSince := s1.clock, reserveRaised := false, loadNeed := none } }

/-- SCENE_BOUNDARY (R66 step 8, R86): the oldest pending boundary occurs; none does before the first scene. -/
def State.boundary (s : State) : State :=
  if !s.pwr.ctlUp || (decide (s.pwr.step < 7) && !s.pwr.noMem) then s
  else match s.scene.waiting with
    | [] => s
    | b :: _ =>
      let s1 := s.nextBoundary
      let s2 := match b with
        | .request _ => s1.sceneJobEnd
        | .change _ _ => s1
      let s3 := if s.pwr.step = 7 then
          (let s4 : State := { s2.firstScene with pwr := { s2.firstScene.pwr with step := 8 } }
           if s.pwr.warmValid then s4.warmGo else s4.coldGo)
        else s2
      s3.sceneJobGo.runMail
def execSceneBoundary (s : State) : Res := .next s.boundary.settle

/-- SCENE_REQ (R85, R89, R90): a write of the register; without `go` it does nothing. -/
def execSceneReq (value : Nat) (s : State) : Res :=
  .next (if s.pwr.ctlUp && bitB value 31 then s.requestSet (bits value 8 0) else s)

end Sys2Proof.Machine
end

