-- ==== Sys2Proof/Machine/RegWrite.lean ====
section
/-! DEFINITION. Stage-core accesses of the control aperture (R2, R3, R35, R36): reads and writes of an unassigned offset, and
writes of the registers under their access codes. A write that starts something does what the command of its own does. -/

set_option Elab.async false

namespace Sys2Proof.Machine

/-! ### Unassigned offsets (R36) -/

/-- CTL_UNMAPPED (R36): a stage core reads or writes an offset. An assigned one raises nothing: a read is answered, a write is
REGISTER_WRITE's. -/
def State.ctlAccess (s : State) (off : Nat) (write : Bool) : State :=
  if !s.pwr.ctlUp then s
  else if offAssigned off then (if write then s else s.send (.ctlRead off (s.readOff off)))
  else
    let s1 := s.raiseD Ev.CTL_UNMAPPED off
    if write then s1 else s1.send (.ctlRead off 0)
def execCtlUnmapped (off : Nat) (write : Bool) (s : State) : Res := .next (s.ctlAccess off write)

/-! ### The shadow tables (R101, R102, R172, R175) -/

/-- The table, entry and word that an offset of the shadow tables names: region words 0 to 2, owner sets, identities with
their windows. -/
def shadowAt (off : Nat) : Option (Nat × Nat × Nat) :=
  ((upto 3).find? (fun t => decide (tabBase false t ≤ off) && decide (off < tabBase false t + tabCount t * tabStride t))).bind
    (fun t =>
      let d := off - tabBase false t
      let w := d % tabStride t / 8
      if w < tabWords t then some (t, d / tabStride t, w) else none)

/-- One 32-bit half of a shadow word is written. -/
def State.shadowWrite (s : State) (off v : Nat) : State :=
  let a := off / 8 * 8
  let old := s.tab a
  s.setTab a (if off % 8 < 4 then setBits old 31 0 v else setBits old 63 32 v)

/-! ### Registers whose write starts something -/

/-- `SCACHE_MAINT` by its op (R221). -/
def maintOp (v : Nat) (s : State) : Res :=
  let slice := bits v 11 7
  let way := bits v 15 12
  let set := bits v 27 16
  match bits v 3 0 with
  | 0x1 => execClean s
  | 0x2 => execInvalidate s
  | 0x3 => execFlush s
  | 0x4 => execCleanSet slice set s
  | 0x5 => execInvalidateSet slice set s
  | 0x6 => execFlushSet slice set s
  | 0x7 => execCleanAll s
  | 0x8 => execInvalidateAll s
  | 0x9 => execFlushAll s
  | 0xA => execDisable s
  | 0xB => execEnable s
  | 0xC => execWayDisable slice way s
  | 0xD => execWayEnable slice way s
  | _ => .next (s.startMaint v St.ILLEGAL id)

/-- `FWF_CMD` of a port by its op (R623). The fetch record stands; a page read meets no error here (log entry 63). -/
def fwfOp (p v : Nat) (s : State) : Res :=
  let fetch := bits (s.liveWord .FWF_FETCH 0).toNat (3 * p + 2) (3 * p)
  match bits v 7 0 with
  | 0x01 => execReadPage p 0 s
  | 0x02 => execProgramPage p fetch s
  | 0x03 => execEraseSector p fetch s
  | 0x04 => execSuspend p s
  | 0x05 => execResume p s
  | 0x06 => execProtSet p s
  | 0x07 => execProtClear p s
  | 0x08 => execLock p s
  | 0x09 => execPwdSet p s
  | _ => .next (s.fwCmd p (fun st => st.fwStatus p St.ILLEGAL))

/-- `SENT_PMB_CMD` by its code (R600): a read's answer is a free value; every other code is refused. -/
def pmbOp (v : Nat) (s : State) : Res :=
  let e := bits v 12 8
  let data := s.fld F.SENT_PMB_DATA_data 0
  let (bs, s1) := s.freeBytes 2
  let x := leNat bs
  match bits v 7 0 with
  | 0x01 => execOperation e (bitB data 7) s
  | 0x03 => execClearFaults e s
  | 0x21 => execVoutCommand e data s
  | 0x79 => execStatusWord e x s1
  | 0x88 => execReadVin e x s1
  | 0x89 => execReadIin e x s1
  | 0x8B => execReadVout e x s1
  | 0x8C => execReadIout e x s1
  | 0x8D => execReadTemperature1 e x s1
  | 0x96 => execReadPout e x s1
  | 0x97 => execReadPin e x s1
  | _ => .next (s.pmbDenied e)

/-- `MAINT_REQ` (R730, R731, R739): the job is submitted and told; it starts as a queued job does, by MAINT_START. -/
def State.maintReq (s : State) (v : Nat) : State :=
  let p (n : Nat) : Nat := (s.liveWord (if n = 0 then .MAINT_PARAM0 else if n = 1 then .MAINT_PARAM1 else .MAINT_PARAM2) 0).toNat
  let (s1, st, id) := s.submit .firmware (bitB v 30) (bits v 23 16) (bits v 15 0) (p 0) (p 1) (p 2)
  s1.submitTell .firmware st id

/-- `DMC_CTL.release` (R279): CONFLICT before the snapshot has been read, else a DRAM_RELEASE job. -/
def State.releaseWrite (s : State) (c : Nat) : State :=
  if !s.chanFrozen c || !s.flag F.DMC_STAT_snap_read c then s.setFld F.DMC_STAT_rel_status c St.CONFLICT
  else
    let (s1, st, _) := s.submit .firmware false 0x03 c 0 0 0
    if st = St.DONE then s1 else s1.setFld F.DMC_STAT_rel_status c st

/-- `TWIN_CTL` (R555, R560, R567, R572). -/
def State.twinCtl (s : State) (v : Nat) : State :=
  let s1 := if bitB v 0 then stateOf s (execSoloDeclaration s) else s
  let s2 := if bitB v 1 then
      (let (t, st, id) := s1.submit .firmware false 0x0A 0xFFFF 0 0 0
       t.submitTell .firmware st id)
    else s1
  if bitB v 2 then stateOf s2 (execTwinYield s2) else s2

/-- Registers that take no write though their field is written RW: way masks from 16 up (R239), the ring registers of the
hardware-fed units (R690), a link that does not exist (R92). -/
def State.writeShut (s : State) (r : RegId) (i : Nat) : Bool := r.roInstance i || s.linkAbsent r i

/-- A write of a register that starts something; none where the access codes say it all. -/
def startWrite (r : RegId) (i v : Nat) (s : State) : Option Res :=
  let go := bitB v 31
  let when_ (b : Bool) (x : Res) : Option Res := some (if b then x else .next s)
  match r with
  | .SCENE_REQ => some (execSceneReq v s)
  | .INK_LIMIT => some (execInkLimitWrite v s)
  | .ACC_COMMIT => some (execAccCommit v s)
  | .SCACHE_MAINT => when_ go (maintOp v s)
  | .SENT_PCAP => some (execSentPcap v s)
  | .SENT_BULK => some (execRearm v s)
  | .SENT_DVFS => some (execDvfsRaise v s)
  | .SENT_CTL => when_ (bitB v 0) (execHoldupTest true s)
  | .SENT_PMB_CMD => when_ go (pmbOp v s)
  | .STC_WDOG => some (execStcWdog i s)
  | .FWF_CMD => when_ go (fwfOp i v s)
  | .FWF_PWD_KEY => some (execFwfPwdKey i v s)
  | .FWF_PWD_DATA => some (execFwfPwdData i v s)
  | .TWIN_CTL => some (.next (s.twinCtl v).settle)
  | .CHK_CTL => when_ go (execUnitReset i s)
  | .CHK_RING_TAIL => some (execChkRingTail i v [] [] s)
  | .PBOOK_FIRE => some (execPbookFire v s)
  | .PBOOK_ACK_HI => some (execPbookAckHi v s)
  | .PBOOK_TALLY_SEL =>
    some (if bitB v 30 then execTallyClear (bits v 8 0) go s else if go then execTallySnap (bits v 8 0) s else .next s)
  | .MAINT_REQ => when_ go (.next (s.maintReq v))
  | .MAINT_QRY => some (execMaintQry v s)
  | _ => none

/-- What follows a plain write: cores and duties (R615, R616), a channel's release (R279), what the new value lets go on. -/
def State.afterWrite (s : State) (r : RegId) (i v : Nat) : State :=
  match r with
  | .STC_CTL => s.coresFollow.runMail.settle
  | .STC_DUTY => s.dutiesNow.runMail.settle
  | .DMC_CTL => if bitB v 31 then s.releaseWrite i else s
  | .SCACHE_CTL => s.settle
  | .HPORT_CFG => s.linksIdle.settle
  | _ => s

/-- A write of the acknowledgement's low half stays for the high half (R722), though it reads as zero. -/
def State.plainWrite (s : State) (r : RegId) (i v : Nat) : State :=
  if r = .PBOOK_ACK_LO then s.setLive r i v else s.regWrite r i v

/-- REGISTER_WRITE (R2, R3, R36): a stage core writes 32 bits at an offset. -/
def State.ctlWrite (s : State) (off value : Nat) : State :=
  let v := value % 2 ^ 32
  if !s.pwr.ctlUp then s
  else if !offAssigned off then s.raiseD Ev.CTL_UNMAPPED off
  else if (shadowAt off).isSome then s.shadowWrite (off / 4 * 4) v
  else match regAt (off / 4 * 4) with
    | none => s
    | some (r, i) =>
      if s.writeShut r i then s
      else match startWrite r i v s with
        | some x => stateOf s x
        | none => (s.plainWrite r i v).afterWrite r i v
def execRegisterWrite (off value : Nat) (s : State) : Res := .next (s.ctlWrite off value)

end Sys2Proof.Machine
end

