-- ==== Sys2Proof/Machine/Transfer.lean ====
section
/-! DEFINITION. Bolastade instructions that reach memory, vectors, the stager and the queue (R446 to R456, R471 to R494). -/

set_option Elab.async false

namespace Sys2Proof.Machine

/-! ### Scalar loads and stores (R471) -/

/-- The effective address of an F-M word. -/
def Ctx.address (c : Ctx) (w : Nat) : Nat := ((c.xr (wR1 w)).toNat + sx (bits w 11 0) 12) % 2 ^ 64

/-- Trap of an access: alignment first, then the address, then an uncorrectable error outside DPA (R437, R461). -/
def State.accessTrap (s : State) (c : Ctx) (a n align : Nat) (rd wr ue : Bool) : Option Trap :=
  if a % align ≠ 0 then some .misaligned
  else match s.addrCheck c a n rd wr with
    | some t => some t
    | none => if ue && a / 2 ^ 60 % 16 != 2 then some .dataUe else none

/-- LD (R471): `ue` tells of an uncorrectable error in an inkwell or reservoir word. -/
def execLd (e cx : Nat) (ue : Bool) (s : State) : Res :=
  let k := e * 16 + cx
  .next (match s.issueAs e cx 0x18 0 0 with
    | none => s
    | some (c, w) =>
      let n := 2 ^ bits w 15 14
      let a := c.address w
      if bit w 12 = 1 ∨ (n = 8 ∧ bit w 13 = 1) then s.takeTrap k c .illegalInsn
      else match s.accessTrap c a n n true false ue with
        | some t => s.takeTrap k c t
        | none =>
          if a / 2 ^ 60 = 2 then
            (match s.freeSlot e with
             | some slot => (s.dpaLoad k slot c.advance (.reg (wRd w) n (bitB w 13) (a % 64)) (a % 2 ^ 60 / 64)).settle
             | none => s)
          else s.setCtx k ((c.setX (wRd w) (extend (leNat (s.localRead k c a n)) n (bitB w 13))).advance))

/-- ST (R445, R471). -/
def execSt (e cx : Nat) (s : State) : Res :=
  let k := e * 16 + cx
  .next (match s.issueAs e cx 0x19 0 0 with
    | none => s
    | some (c, w) =>
      let n := 2 ^ bits w 15 14
      let a := c.address w
      if bit w 12 = 1 ∨ bit w 13 = 1 then s.takeTrap k c .illegalInsn
      else match s.accessTrap c a n n false true false with
        | some t => s.takeTrap k c t
        | none => (s.storeBytes k c a n (2 ^ n - 1) ((c.xr (wRd w)).toNat % 2 ^ (8 * n))).getD s)

/-! ### Atomics (R446, R472, R473) -/

/-- Every earlier DPA store of the context has been applied. -/
def State.storesApplied (s : State) (c : Ctx) : Bool :=
  !(s.path.held.any (fun r => c.stores.contains r.acc)) && c.ops.all (fun o => o.dest != .store)

/-- CAS (op 1) and FADD (op 2). -/
def State.atomicOp (s : State) (e cx major op : Nat) (ue : Bool) : State :=
  let k := e * 16 + cx
  match s.issueAs e cx major 0 0 with
  | none => s
  | some (c, w) =>
    let n := if wFunc w = 3 then 8 else 4
    let a := (c.xr (wR1 w)).toNat
    let x := (c.xr (wRd w)).toNat % 2 ^ (8 * n)
    let y := (c.xr (wR2 w)).toNat % 2 ^ (8 * n)
    if wFunc w ≠ 2 ∧ wFunc w ≠ 3 then s.takeTrap k c .illegalInsn
    else match s.accessTrap c a n n true true false with
      | some t => s.takeTrap k c t
      | none =>
        if c.inGroup a n then s.takeTrap k c .sealState
        else if a / 2 ^ 60 = 2 then
          (if s.storesApplied c then
            (match s.freeSlot e with
             | some slot =>
               let m : Rmw := { op := op, width := n, off := a % 64, a := if op = 1 then x else y, b := y }
               let c1 := { c.advance with block := .atomic }
               (s.dpaStore k slot c1 (a % 2 ^ 60 / 64) 0 0 (some m) (.atomic (wRd w) n) (a % 2 ^ 60)).settle
             | none => s)
           else s)
        else if ue then s.takeTrap k c .dataUe
        else
          let old := leNat (s.localRead k c a n)
          let new := if op = 1 then (if old = x then y else old) else (old + y) % 2 ^ (8 * n)
          let (s1, c1) := s.localWrite k c a (leBytes n new)
          s1.setCtx k ((c1.setX (wRd w) (BitVec.ofNat 64 old)).advance)

/-- CAS (R472). -/
def execCas (e cx : Nat) (ue : Bool) (s : State) : Res := .next (s.atomicOp e cx 0x1C 1 ue)
/-- FADD (R472). -/
def execFadd (e cx : Nat) (ue : Bool) (s : State) : Res := .next (s.atomicOp e cx 0x1D 2 ue)

/-! ### Vectors (R424, R474 to R478) -/

/-- Element width in bytes, and the byte mask of the active elements (R424, R474). -/
def elemWidth (w : Nat) : Nat := 2 ^ wEw w
def Ctx.active (c : Ctx) (w i : Nat) : Bool := bitB (c.pr (wPm w)).toNat (i * elemWidth w)
def Ctx.activeMask (c : Ctx) (w : Nat) : Nat :=
  (upto (64 / elemWidth w)).foldl (fun m i =>
    if c.active w i then m + (2 ^ elemWidth w - 1) * 2 ^ (i * elemWidth w) else m) 0

/-- The address of a line or broadcast form (R475): `unit` is 64 or the element width. -/
def Ctx.vaddress (c : Ctx) (w unit : Nat) : Nat := ((c.xr (wRs w)).toNat + sx (bits w 5 0) 6 * unit) % 2 ^ 64

/-- VLD, line mode (R475). -/
def execVld (e cx : Nat) (ue : Bool) (s : State) : Res :=
  let k := e * 16 + cx
  .next (match s.issueAs e cx 0x20 0xC0 0 with
    | none => s
    | some (c, w) =>
      let a := c.vaddress w 64
      let al := if a / 2 ^ 60 = 2 then 64 else elemWidth w
      if wV1 w ≠ 0 ∨ wV2 w ≠ 0 then s.takeTrap k c .illegalInsn
      else match s.accessTrap c a 64 al true false ue with
        | some t => s.takeTrap k c t
        | none =>
          if a / 2 ^ 60 = 2 then
            (match s.freeSlot e with
             | some slot => (s.dpaLoad k slot c.advance (.vec (wVd w) (c.activeMask w)) (a % 2 ^ 60 / 64)).settle
             | none => s)
          else s.setCtx k ((c.mergeV (wVd w) (c.activeMask w) (lineOfBytes (s.localRead k c a 64))).advance))

/-- VLD, broadcast mode (R475). -/
def execVldBc (e cx : Nat) (ue : Bool) (s : State) : Res :=
  let k := e * 16 + cx
  .next (match s.issueAs e cx 0x20 0xC0 0x40 with
    | none => s
    | some (c, w) =>
      let n := elemWidth w
      let a := c.vaddress w n
      if wV1 w ≠ 0 ∨ wV2 w ≠ 0 then s.takeTrap k c .illegalInsn
      else match s.accessTrap c a n n true false ue with
        | some t => s.takeTrap k c t
        | none =>
          if a / 2 ^ 60 = 2 then
            (match s.freeSlot e with
             | some slot =>
               (s.dpaLoad k slot c.advance (.bcast (wVd w) (c.activeMask w) n (a % 64)) (a % 2 ^ 60 / 64)).settle
             | none => s)
          else
            s.setCtx k ((c.mergeV (wVd w) (c.activeMask w) (repeatElem (leNat (s.localRead k c a n)) n)).advance))

/-- VST, line mode (R475). -/
def execVst (e cx : Nat) (s : State) : Res :=
  let k := e * 16 + cx
  .next (match s.issueAs e cx 0x21 0xC0 0 with
    | none => s
    | some (c, w) =>
      let a := c.vaddress w 64
      let al := if a / 2 ^ 60 = 2 then 64 else elemWidth w
      if wV1 w ≠ 0 ∨ wV2 w ≠ 0 then s.takeTrap k c .illegalInsn
      else match s.accessTrap c a 64 al false true false with
        | some t => s.takeTrap k c t
        | none => (s.storeBytes k c a 64 (c.activeMask w) (c.vr (wVd w)).toNat).getD s)

/-- Element `i` of a vector as a number, and sign-extended to an integer. -/
def elemU (v : Line) (n i : Nat) : Nat := lineField v (i * n) n
def elemS (v : Line) (n i : Nat) : Int :=
  let u := elemU v n i
  if 2 * u < 2 ^ (8 * n) then (u : Int) else (u : Int) - 2 ^ (8 * n)

/-- The conditions of R476; `un` compares unsigned. -/
def vcond (cond : Nat) (un : Bool) (a b : Line) (n i : Nat) : Bool :=
  let lt := if un then decide (elemU a n i < elemU b n i) else decide (elemS a n i < elemS b n i)
  let eq := elemU a n i == elemU b n i
  match cond with
  | 0 => eq
  | 1 => !eq
  | 2 => lt
  | 3 => lt || eq
  | 4 => !(lt || eq)
  | _ => !lt

/-- VCMP (R476). -/
def execVcmp (e cx : Nat) (s : State) : Res :=
  let k := e * 16 + cx
  .next (match s.issueAs e cx 0x22 0 0 with
    | none => s
    | some (c, w) =>
      let f := wFv w
      let n := elemWidth w
      if 16 ≤ f ∨ 5 < f % 8 ∨ 4 ≤ wVd w ∨ wRs w ≠ 0 then s.takeTrap k c .illegalInsn
      else
        let p := (upto (64 / n)).foldl (fun m i =>
          if c.active w i && vcond (f % 8) (bitB f 3) (c.vr (wV1 w)) (c.vr (wV2 w)) n i then
            m + (2 ^ n - 1) * 2 ^ (i * n) else m) 0
        s.setCtx k ((c.setP (wVd w) (BitVec.ofNat 64 p)).advance))

/-- VSEL (R474): every element is written. -/
def execVsel (e cx : Nat) (s : State) : Res :=
  let k := e * 16 + cx
  .next (match s.issueAs e cx 0x23 0 0 with
    | none => s
    | some (c, w) =>
      if wFv w ≠ 0 ∨ wRs w ≠ 0 then s.takeTrap k c .illegalInsn
      else
        let bs := mergeBytes (c.activeMask w) (lineBytes (c.vr (wV2 w))) (lineBytes (c.vr (wV1 w)))
        s.setCtx k ((c.setV (wVd w) (lineOfBytes bs)).advance))

/-- VSUM (R474). -/
def execVsum (e cx : Nat) (s : State) : Res :=
  let k := e * 16 + cx
  .next (match s.issueAs e cx 0x24 0 0 with
    | none => s
    | some (c, w) =>
      let n := elemWidth w
      if 2 ≤ wFv w ∨ wVd w ≠ 0 ∨ wV2 w ≠ 0 then s.takeTrap k c .illegalInsn
      else
        let v := c.vr (wV1 w)
        let t := (upto (64 / n)).foldl (fun (a : W64) i =>
          if c.active w i then a + extend (elemU v n i) n (wFv w == 0) else a) (c.xr (wRs w))
        s.setCtx k ((c.setX (wRs w) t).advance))

/-- The smaller or greater of two elements (R478). -/
def vpick (greatest un : Bool) (a b : Line) (n i : Nat) : Nat :=
  let lt := if un then decide (elemU a n i < elemU b n i) else decide (elemS a n i < elemS b n i)
  if lt != greatest then elemU a n i else elemU b n i

/-- Elementwise VMIN and VMAX (R478, form 0). -/
def State.velem (s : State) (e cx major : Nat) (greatest : Bool) : State :=
  let k := e * 16 + cx
  match s.issueAs e cx major 1 0 with
  | none => s
  | some (c, w) =>
    let n := elemWidth w
    if 4 ≤ wFv w ∨ wRs w ≠ 0 then s.takeTrap k c .illegalInsn
    else
      let d := (upto (64 / n)).foldl (fun a i =>
        a ||| placeAt (i * n) (vpick greatest (bitB (wFv w) 1) (c.vr (wV1 w)) (c.vr (wV2 w)) n i)) (0 : Line)
      s.setCtx k ((c.mergeV (wVd w) (c.activeMask w) d).advance)

/-- Reductions VMINR and VMAXR (R478, form 1), compared on 64 bits. -/
def State.vreduce (s : State) (e cx major : Nat) (greatest : Bool) : State :=
  let k := e * 16 + cx
  match s.issueAs e cx major 1 1 with
  | none => s
  | some (c, w) =>
    let n := elemWidth w
    let un := bitB (wFv w) 1
    if 4 ≤ wFv w ∨ wVd w ≠ 0 ∨ wV2 w ≠ 0 then s.takeTrap k c .illegalInsn
    else
      let t := (upto (64 / n)).foldl (fun (a : W64) i =>
        if c.active w i then
          let v := extend (elemU (c.vr (wV1 w)) n i) n (!un)
          let lt := if un then v.ult a else v.slt a
          let gt := if un then a.ult v else a.slt v
          if greatest then (if gt then v else a) else (if lt then v else a)
        else a) (c.xr (wRs w))
      s.setCtx k ((c.setX (wRs w) t).advance)

/-- VMIN (R478). -/
def execVmin (e cx : Nat) (s : State) : Res := .next (s.velem e cx 0x25 false)
/-- VMINR (R478). -/
def execVminr (e cx : Nat) (s : State) : Res := .next (s.vreduce e cx 0x25 false)
/-- VMAX (R478). -/
def execVmax (e cx : Nat) (s : State) : Res := .next (s.velem e cx 0x26 true)
/-- VMAXR (R478). -/
def execVmaxr (e cx : Nat) (s : State) : Res := .next (s.vreduce e cx 0x26 true)

/-! ### SEAL and PBAR (R447 to R456, R479 to R482) -/

/-- SEAL.OPEN (R451). -/
def execSealOpen (e cx : Nat) (s : State) : Res :=
  let k := e * 16 + cx
  .next (match s.issueAs e cx 0x28 0x3F 0 with
    | none => s
    | some (c, w) =>
      if !fsZero w true true true true then s.takeTrap k c .illegalInsn
      else if c.sealOpen then s.takeTrap k c .sealState
      else s.putCtx k { c.advance with sealOpen := true, sealLines := [], sealBuf := [] })

/-- R452 for one line: the first trap it meets. -/
def State.sealCheck (s : State) (c : Ctx) (a : Nat) : Option Trap :=
  let sel := a / 2 ^ 60
  if sel = 2 then
    (match s.addrCheck c (a / 64 * 64) 64 true true with
     | some t => some t
     | none => if s.linePersistent (a % 2 ^ 60 / 64) then none else some .sealState)
  else if sel < 4 then some .sealState
  else some .addrBounds

/-- SEAL.ADD (R452, R480). -/
def execSealAdd (e cx : Nat) (s : State) : Res :=
  let k := e * 16 + cx
  .next (match s.issueAs e cx 0x28 0x3F 1 with
    | none => s
    | some (c, w) =>
      let a := (c.xr (wR1 w)).toNat
      let line := a % 2 ^ 60 / 64
      if !fsZero w true false true true then s.takeTrap k c .illegalInsn
      else match s.sealCheck c a with
        | some t => s.takeTrap k c t
        | none =>
          if !c.sealOpen then s.takeTrap k c .sealState
          else if c.sealLines.contains line then s.setCtx k c.advance
          else if 64 ≤ c.sealLines.length then s.takeTrap k c .sealState
          else s.putCtx k { c.advance with sealLines := c.sealLines ++ [line] })

/-- SEAL.COMMIT (R451, R454, R456, R481): the group goes to the ink gate as one request. -/
def execSealCommit (e cx : Nat) (s : State) : Res :=
  let k := e * 16 + cx
  .next (match s.issueAs e cx 0x28 0x3F 2 with
    | none => s
    | some (c, w) =>
      if !fsZero w true true true true then s.takeTrap k c .illegalInsn
      else match c.sealLines.findSome? (fun l => s.sealCheck c (2 * 2 ^ 60 + l * 64)) with
        | some t => s.takeTrap k c t
        | none =>
          if !c.sealOpen then s.takeTrap k c .sealState
          else
            let ws := c.sealBuf.map (fun p => ({ line := p.1, mask := p.2.1, data := p.2.2 } : LineWrite))
            let c1 := { c.advance with sealOpen := false, sealLines := [], sealBuf := [] }
            if ws.isEmpty then s.putCtx k c1
            else
              let acc := s.path.nextAcc
              let o : DpaOp := { slot := 64, dest := .store, line := 0, mask := 0, data := 0 }
              let s1 := s.putCtx k { c1 with block := .commit (some acc), ops := c1.ops ++ [o], stores := c1.stores ++ [acc] }
              (s1.accept (.script e cx 64) true ((ws.headD { line := 0, mask := 0, data := 0 }).line * 64) ws 4 s1.clock
                false true none).settle)

/-- PBAR.local and PBAR.twin (R447, R482). -/
def State.pbar (s : State) (e cx sub : Nat) (twin : Bool) : State :=
  match s.issueAs e cx 0x29 0x3F sub with
  | none => s
  | some (c, w) =>
    if !fsZero w true true true true then s.takeTrap (e * 16 + cx) c .illegalInsn
    else s.setCtx (e * 16 + cx) { c.advance with block := .pbar twin s.path.nextAcc }

/-- PBAR.local (R447). -/
def execPbarLocal (e cx : Nat) (s : State) : Res := .next (s.pbar e cx 0 false)
/-- PBAR.twin (R447). -/
def execPbarTwin (e cx : Nat) (s : State) : Res := .next (s.pbar e cx 1 true)

/-- A PBAR may retire (R447, R450): its stores are applied; for PBAR.twin in LEAD the twin has acknowledged them. -/
def State.pbarHolds (s : State) (c : Ctx) (twin : Bool) (acc : Nat) : Bool :=
  let mine := c.stores.filter (fun a => decide (a < acc))
  !s.fenced && !(s.path.held.any (fun r => mine.contains r.acc)) &&
    (!twin || s.role != 1 || (!(s.path.applied.any (fun a => a.ack.isSome && mine.contains a.acc)) &&
      !(s.twin.unacked.any (fun m => m.accs.any (fun a => mine.contains a)))))

/-! ### COPY, CRC, PROBE (R461, R483 to R491) -/

/-- Checks of one range (R461, R483, R486): destination write unless `crc`, source read. -/
def State.rangeTrap (s : State) (c : Ctx) (r : DmaRange) (crc : Bool) : Option Trap :=
  let dpa := r.src / 2 ^ 60 % 16 == 2 || (!crc && r.dst / 2 ^ 60 % 16 == 2)
  let al := if dpa then 64 else 8
  let rank (t : Option Trap) : Nat := match t with
    | some .addrBounds => 0
    | some .addrAccess => 1
    | some .writeRo => 2
    | _ => 9
  let a := s.addrCheck c r.src r.len true false
  let b := if crc then none else s.addrCheck c r.dst r.len false true
  if r.len = 0 then none
  else if !crc && (r.src % al != 0 || r.dst % al != 0 || r.len % al != 0) then some .misaligned
  else if rank a ≤ rank b ∧ a.isSome then a
  else if b.isSome then b
  else if c.inGroup r.src r.len || (!crc && c.inGroup r.dst r.len) then some .sealState
  else none

/-- The place of a descriptor or a list of them in the ticket space (R484). -/
def descTrap (a count : Nat) : Option Trap :=
  let o := a % 2 ^ 60
  if a % 32 ≠ 0 then some .misaligned
  else if a / 2 ^ 60 ≠ 3 ∨ o < 0x40 ∨ 0x1000 < o + 32 * count then some .addrBounds
  else none

/-- Range descriptor `i` of a list and the trap of its own fields (R484). -/
def State.descRange (s : State) (k : Nat) (c : Ctx) (a i : Nat) (crc : Bool) : DmaRange × Option Trap :=
  let bs := s.localRead k c (a + 32 * i) 32
  let r : DmaRange := { dst := leNat (bs.take 8), src := leNat ((bs.drop 8).take 8), len := leNat ((bs.drop 16).take 4) }
  (r, if leNat ((bs.drop 20).take 12) ≠ 0 ∨ (crc ∧ r.dst ≠ 0) then some .illegalInsn
      else if 16777216 < r.len then some .addrBounds else none)

/-- The ranges of a list, or the first trap (R461, R484). -/
def State.listRanges (s : State) (k : Nat) (c : Ctx) (a count : Nat) (crc : Bool) : List DmaRange × Option Trap :=
  match descTrap a count with
  | some t => ([], some t)
  | none =>
    let ds := (upto count).map (fun i => s.descRange k c a i crc)
    (ds.map (fun d => d.1), ds.findSome? (fun d => match d.2 with
      | some t => some t
      | none => s.rangeTrap c d.1 crc))

/-- Start a DMA job on one of the scribe's 4 channels (R485, R486); an error in the channel ends the ticket (R441, R682). -/
def State.startDma (s : State) (e cx : Nat) (c : Ctx) (err : DmaErr) (j : DmaJob) : State :=
  let k := e * 16 + cx
  let busy := ((s.ctxsOf e).filter (fun p => match p.2.block with
    | .dma _ => true
    | _ => false)).length
  if 4 ≤ busy || !s.storesApplied c then s
  else match err with
    | .none => (s.putCtx k { c.advance with block := .dma j }).dmaAdvance k dmaFuel
    | .buffer => (((s.raiseD Ev.DMA_HALT e).raiseD Ev.DMA_CHANNEL_HALT e).endByEvent k c St.POISONED).settle
    | .source => (((s.raiseD Ev.SRAM_UE e).raiseD Ev.DMA_HALT e).endByEvent k c St.POISONED).settle

/-- A job with its ranges still to move. -/
def DmaJob.init (crc : Option (Nat × Nat)) (start : Nat) (rs : List DmaRange) : DmaJob :=
  { crc := crc, start := start, ranges := rs, writing := false, issued := 0, buf := [], done := [] }

/-- COPY (R486, form 0). -/
def execCopy (e cx : Nat) (err : DmaErr) (s : State) : Res :=
  let k := e * 16 + cx
  .next (match s.issueAs e cx 0x2A 1 0 with
    | none => s
    | some (c, w) =>
      let r : DmaRange := { dst := (c.xr (wRd w)).toNat, src := (c.xr (wR1 w)).toNat, len := (c.xr (wR2 w)).toNat }
      if wFunc w ≠ 0 then s.takeTrap k c .illegalInsn
      else match s.rangeTrap c r false with
        | some t => s.takeTrap k c t
        | none => s.startDma e cx c err (DmaJob.init none 0 [r]))

/-- COPY.L (R486, form 1): a count of 0 retires at once. -/
def execCopyL (e cx : Nat) (err : DmaErr) (s : State) : Res :=
  let k := e * 16 + cx
  .next (match s.issueAs e cx 0x2A 1 1 with
    | none => s
    | some (c, w) =>
      let count := (c.xr (wR2 w)).toNat
      if wFunc w ≠ 1 ∨ wRd w ≠ 0 then s.takeTrap k c .illegalInsn
      else if count = 0 then s.setCtx k c.advance
      else if 128 < count then s.takeTrap k c .addrBounds
      else match s.listRanges k c (c.xr (wR1 w)).toNat count false with
        | (_, some t) => s.takeTrap k c t
        | (rs, none) => s.startDma e cx c err (DmaJob.init none 0 rs))

/-- CRC (R487). -/
def execCrc (e cx : Nat) (err : DmaErr) (s : State) : Res :=
  let k := e * 16 + cx
  .next (match s.issueAs e cx 0x2B 0 0 with
    | none => s
    | some (c, w) =>
      let f := wFunc w
      let poly := bit f 0
      let start := if bitB f 2 then (c.xr (wRd w)).toNat else 0
      let count := (c.xr (wR2 w)).toNat
      let a := (c.xr (wR1 w)).toNat
      if 8 ≤ f then s.takeTrap k c .illegalInsn
      else if bitB f 1 then
        (if count = 0 then s.setCtx k ((c.setX (wRd w) (BitVec.ofNat 64 (crcMore poly start []))).advance)
         else if 128 < count then s.takeTrap k c .addrBounds
         else match s.listRanges k c a count true with
           | (_, some t) => s.takeTrap k c t
           | (rs, none) => s.startDma e cx c err (DmaJob.init (some (wRd w, poly)) start rs))
      else
        let r : DmaRange := { dst := 0, src := a, len := count }
        match s.rangeTrap c r true with
        | some t => s.takeTrap k c t
        | none => s.startDma e cx c err (DmaJob.init (some (wRd w, poly)) start [r]))

/-- PROBE (R489, R490). -/
def execProbe (e cx : Nat) (ue : Bool) (s : State) : Res :=
  let k := e * 16 + cx
  .next (match s.issueAs e cx 0x2D 0 0 with
    | none => s
    | some (c, w) =>
      let a := (c.xr (wR1 w)).toNat
      let key := (c.xr (wR2 w)).toNat
      if wFunc w ≠ 0 then s.takeTrap k c .illegalInsn
      else match descTrap a 1 with
        | some t => s.takeTrap k c t
        | none =>
          let bs := s.localRead k c a 32
          let base := leNat (bs.take 8)
          let lg := leNat ((bs.drop 8).take 1)
          let limit := leNat ((bs.drop 9).take 1)
          let kind := leNat ((bs.drop 10).take 1)
          let seed := leNat ((bs.drop 16).take 8)
          let empty := leNat ((bs.drop 24).take 8)
          if 32 < lg ∨ limit < 1 ∨ 64 < limit ∨ 1 < kind ∨ leNat ((bs.drop 11).take 5) ≠ 0 then s.takeTrap k c .illegalInsn
          else match s.accessTrap c base (64 * 2 ^ lg) 64 true false false with
            | some t => s.takeTrap k c t
            | none =>
              if c.inGroup base (64 * 2 ^ lg) then s.takeTrap k c .sealState
              else if ue && base / 2 ^ 60 != 2 then s.takeTrap k c .dataUe
              else if key = empty then s.setCtx k ((c.setX (wRd w) 1).advance)
              else
                let m := 2 ^ lg - 1
                let p : Probe := { rd := wRd w, key := key, base := base, mask := m,
                                   bucket := (kmix (BitVec.ofNat 64 key) (BitVec.ofNat 64 seed)).toNat % 2 ^ lg, left := limit,
                                   kind := kind, empty := empty }
                if base / 2 ^ 60 = 2 then
                  (match s.freeSlot e with
                   | some slot => (s.dpaLoad k slot c.advance (.probe p) ((base + p.bucket * 64) % 2 ^ 60 / 64)).settle
                   | none => s)
                else s.setCtx k ((c.setX (wRd w) (BitVec.ofNat 64 (s.probeLocal k c 64 p))).advance))

/-! ### CUE, WAITC, NOTIFY (R492 to R494) -/

/-- CUE and CUE.R (R492). -/
def State.cueOp (s : State) (e cx func : Nat) : State :=
  let k := e * 16 + cx
  match s.issueAs e cx 0x2E 1 func with
  | none => s
  | some (c, w) =>
    if wFunc w ≠ func ∨ wR2 w ≠ 0 then s.takeTrap k c .illegalInsn
    else match s.cueRun k with
      | none => s.setCtx k ((c.setX (wRd w) (BitVec.allOnes 64)).advance)
      | some r =>
        if r.bad.isSome then s.setCtx k ((c.setX (wRd w) (BitVec.allOnes 64)).advance)
        else
          let x := (c.xr (wR1 w)).toNat
          let v := if func = 0 then x else (r.cursor + x) % 2 ^ 64
          let s1 := s.moveCursor r v
          let cur := match s1.cueRun k with
            | some r1 => r1.cursor
            | none => 0
          (s1.setCtx k ((c.setX (wRd w) (BitVec.ofNat 64 cur)).advance)).settle

/-- CUE (R492). -/
def execCue (e cx : Nat) (s : State) : Res := .next (s.cueOp e cx 0)
/-- CUE.R (R492). -/
def execCueR (e cx : Nat) (s : State) : Res := .next (s.cueOp e cx 1)

/-- WAITC (R403, R493): the entry is made due, and the context is held until its result is there. -/
def execWaitc (e cx : Nat) (s : State) : Res :=
  let k := e * 16 + cx
  .next (match s.issueAs e cx 0x2F 0 0 with
    | none => s
    | some (c, w) =>
      if wFunc w ≠ 0 ∨ wR2 w ≠ 0 then s.takeTrap k c .illegalInsn
      else
        let i := (c.xr (wR1 w)).toNat
        let s1 := s.setCtx k { c.advance with block := .waitc (wRd w) i }
        match s1.cueRun k with
        | some r => (s1.setCueRun { r with due := max r.due (min i 65536) }).settle
        | none => s1)

/-- What a WAITC returns now (R493). -/
def State.waitcResult (s : State) (k i : Nat) : Option Nat :=
  match s.cueRun k with
  | none => some St.ILLEGAL
  | some r => match r.bad with
    | some st => some st
    | none => if !r.isOpen then none else if r.count ≤ i then some St.BOUNDS else mapGet? r.results i

/-- NOTIFY (R494). -/
def execNotify (e cx : Nat) (s : State) : Res :=
  let k := e * 16 + cx
  .next (match s.issueAs e cx 0x30 0x3F 0 with
    | none => s
    | some (c, w) =>
      if !fsZero w false false true true then s.takeTrap k c .illegalInsn
      else s.setCtx k { c.advance with block := .notify (wRd w) (c.xr (wR1 w)).toNat })

/-! ### BLOCKING_RETIRE (R419) -/

/-- Post a NOTIFY's note, or answer QUEUE_FULL (R494, R514). -/
def State.retireNotify (s : State) (k : Nat) (c : Ctx) (rd v : Nat) : State :=
  match s.queue c.ld c.queue with
  | some q =>
    if q.noteFree then
      (s.setCtx k { c.setX rd 0 with block := .none }).postNote c.ld c.queue c.slot c.gen v St.DONE 0
    else (s.setCtx k { c.setX rd (BitVec.ofNat 64 St.QUEUE_FULL) with block := .none }).raise Ev.NOTE_RING_FULL
  | none => s

/-- BLOCKING_RETIRE (R419): the blocking instruction of a context retires if nothing holds it any more. -/
def execBlockingRetire (e cx : Nat) (s : State) : Res :=
  let k := e * 16 + cx
  .next (match s.ctx k with
    | none => s
    | some c => match c.block with
      | .none => s
      | .atomic => if c.loadsInFlight then s else s.setCtx k { c with block := .none }
      | .dma j =>
        if j.ranges.isEmpty && !c.loadsInFlight then
          (match j.crc with
           | some (rd, poly) => s.setCtx k { c.setX rd (BitVec.ofNat 64 (crcMore poly j.start j.done)) with block := .none }
           | none => s.setCtx k { c with block := .none })
        else s.dmaAdvance k dmaFuel
      | .commit acc =>
        if !s.fenced && !(s.path.held.any (fun r => acc == some r.acc)) && !(s.path.applied.any (fun a => acc == some a.acc)) then
          (let rs := s.path.results.filter (fun r => !(r.scribe == e && r.ctx == cx && r.slot == 64))
           ({ s with path := { s.path with results := rs } }).putCtx k
             { c with block := .none, ops := c.ops.filter (fun o => o.slot != 64) })
        else s
      | .pbar twin acc => if s.pbarHolds c twin acc then s.setCtx k { c with block := .none } else s
      | .waitc rd i => (match s.waitcResult k i with
        | some v => s.setCtx k { c.setX rd (BitVec.ofNat 64 v) with block := .none }
        | none => s)
      | .notify rd v => if s.storesApplied c then s.retireNotify k c rd v else s
      | .yield => s.setCtx k { c with block := .none }
      | .halt _ _ => (s.tryFinish k).settle
      | .ending _ _ => (s.tryFinish k).settle)

end Sys2Proof.Machine
end

