-- ==== Sys2Proof/Machine/Dispatch.lean ====
section
/-! DEFINITION. The one place that gives each command its meaning: one arm per row of the command table. -/

namespace Sys2Proof.Machine

def exec (i : Instr) (s : State) : Host.Outcome State Fault Refusal :=
  match i with
  | .powerOnReset m delivered => Sys2Proof.Machine.execPowerOnReset m delivered s
  | .rootPllLock => Sys2Proof.Machine.execRootPllLock s
  | .bootVerified matched signed vout => Sys2Proof.Machine.execBootVerified matched signed vout s
  | .configSetLoad => Sys2Proof.Machine.execConfigSetLoad s
  | .powerOnRehearsal r => Sys2Proof.Machine.execPowerOnRehearsal r s
  | .railStartFail => Sys2Proof.Machine.execRailStartFail s
  | .refclkLost => Sys2Proof.Machine.execRefclkLost s
  | .pllUnlock => Sys2Proof.Machine.execPllUnlock s
  | .clkHoldoverFail => Sys2Proof.Machine.execClkHoldoverFail s
  | .refclkRestored => Sys2Proof.Machine.execRefclkRestored s
  | .sysResetN => Sys2Proof.Machine.execSysResetN s
  | .sysResetNRelease => Sys2Proof.Machine.execSysResetNRelease s
  | .perstN link low => Sys2Proof.Machine.execPerstN link low s
  | .cxlReset link => Sys2Proof.Machine.execCxlReset link s
  | .secFault => Sys2Proof.Machine.execSecFault s
  | .sceneReq value => Sys2Proof.Machine.execSceneReq value s
  | .sceneBoundary => Sys2Proof.Machine.execSceneBoundary s
  | .ctlUnmapped off write => Sys2Proof.Machine.execCtlUnmapped off write s
  | .registerWrite off value => Sys2Proof.Machine.execRegisterWrite off value s
  | .linkUp link width speed flitLo cxl => Sys2Proof.Machine.execLinkUp link width speed flitLo cxl s
  | .linkDown link => Sys2Proof.Machine.execLinkDown link s
  | .hostLoad link key hpa tag own err => Sys2Proof.Machine.execHostLoad link key hpa tag own err s
  | .hostStore link key hpa tag mask data err => Sys2Proof.Machine.execHostStore link key hpa tag mask data err s
  | .birsp link key line => Sys2Proof.Machine.execBirsp link key line s
  | .biSlow => Sys2Proof.Machine.execBiSlow s
  | .ideIntegrityFail link => Sys2Proof.Machine.execIdeIntegrityFail link s
  | .keyProg link busy => Sys2Proof.Machine.execKeyProg link busy s
  | .doeRequest link protocol done => Sys2Proof.Machine.execDoeRequest link protocol done s
  | .hdmCommit dev index base size skip ways granularity lock => Sys2Proof.Machine.execHdmCommit dev index base size skip ways granularity lock s
  | .hdmUncommit dev index => Sys2Proof.Machine.execHdmUncommit dev index s
  | .addCapacity dev base limit rights => Sys2Proof.Machine.execAddCapacity dev base limit rights s
  | .releaseCapacity dev base limit => Sys2Proof.Machine.execReleaseCapacity dev base limit s
  | .gpfPhase1 link => Sys2Proof.Machine.execGpfPhase1 link s
  | .gpfPhase2 link => Sys2Proof.Machine.execGpfPhase2 link s
  | .identifyMemoryDevice mb input => Sys2Proof.Machine.execIdentifyMemoryDevice mb input s
  | .getHealthInfo mb input => Sys2Proof.Machine.execGetHealthInfo mb input s
  | .getTimestamp mb input => Sys2Proof.Machine.execGetTimestamp mb input s
  | .setTimestamp mb input => Sys2Proof.Machine.execSetTimestamp mb input s
  | .getSupportedLogs mb input => Sys2Proof.Machine.execGetSupportedLogs mb input s
  | .getLog mb input => Sys2Proof.Machine.execGetLog mb input s
  | .getEventRecords mb input => Sys2Proof.Machine.execGetEventRecords mb input s
  | .clearEventRecords mb input => Sys2Proof.Machine.execClearEventRecords mb input s
  | .getEventInterruptPolicy mb input => Sys2Proof.Machine.execGetEventInterruptPolicy mb input s
  | .setEventInterruptPolicy mb input => Sys2Proof.Machine.execSetEventInterruptPolicy mb input s
  | .getAlertConfiguration mb input => Sys2Proof.Machine.execGetAlertConfiguration mb input s
  | .setAlertConfiguration mb input => Sys2Proof.Machine.execSetAlertConfiguration mb input s
  | .getPartitionInfo mb input => Sys2Proof.Machine.execGetPartitionInfo mb input s
  | .getLsa mb input => Sys2Proof.Machine.execGetLsa mb input s
  | .setLsa mb input => Sys2Proof.Machine.execSetLsa mb input s
  | .getPoisonList mb input => Sys2Proof.Machine.execGetPoisonList mb input s
  | .getFwInfo mb input => Sys2Proof.Machine.execGetFwInfo mb input s
  | .transferFw mb input => Sys2Proof.Machine.execTransferFw mb input s
  | .activateFw mb input signed => Sys2Proof.Machine.execActivateFw mb input signed s
  | .mailboxUnsupported mb opcode => Sys2Proof.Machine.execMailboxUnsupported mb opcode s
  | .getDeviceInfo mb input => Sys2Proof.Machine.execGetDeviceInfo mb input s
  | .getEpoch mb input => Sys2Proof.Machine.execGetEpoch mb input s
  | .deviceReset mb input => Sys2Proof.Machine.execDeviceReset mb input s
  | .ldReset mb input => Sys2Proof.Machine.execLdReset mb input s
  | .regionRead mb input => Sys2Proof.Machine.execRegionRead mb input s
  | .regionWrite mb input => Sys2Proof.Machine.execRegionWrite mb input s
  | .accessStage mb input => Sys2Proof.Machine.execAccessStage mb input s
  | .accessCommit mb input => Sys2Proof.Machine.execAccessCommit mb input s
  | .accCommit value => Sys2Proof.Machine.execAccCommit value s
  | .commitEdge => Sys2Proof.Machine.execCommitEdge s
  | .persistBarrier mb input => Sys2Proof.Machine.execPersistBarrier mb input s
  | .inkRead mb input => Sys2Proof.Machine.execInkRead mb input s
  | .inkLimitSet mb input => Sys2Proof.Machine.execInkLimitSet mb input s
  | .inkLimitWrite value => Sys2Proof.Machine.execInkLimitWrite value s
  | .sceneSet mb input => Sys2Proof.Machine.execSceneSet mb input s
  | .maintStatus mb input => Sys2Proof.Machine.execMaintStatus mb input s
  | .maintCancel mb input => Sys2Proof.Machine.execMaintCancel mb input s
  | .prepareRemoval mb input => Sys2Proof.Machine.execPrepareRemoval mb input s
  | .slotPowerOn mb input => Sys2Proof.Machine.execSlotPowerOn mb input s
  | .ledLocate mb input => Sys2Proof.Machine.execLedLocate mb input s
  | .freezeSnapshot mb input => Sys2Proof.Machine.execFreezeSnapshot mb input s
  | .freezeRelease mb input pass words => Sys2Proof.Machine.execFreezeRelease mb input pass words s
  | .freezeSnapRead c => Sys2Proof.Machine.execFreezeSnapRead c s
  | .pbookRead mb input => Sys2Proof.Machine.execPbookRead mb input s
  | .pbookAck mb input => Sys2Proof.Machine.execPbookAck mb input s
  | .tallyRead mb input => Sys2Proof.Machine.execTallyRead mb input s
  | .energyRead mb input => Sys2Proof.Machine.execEnergyRead mb input s
  | .powerCapSet mb input => Sys2Proof.Machine.execPowerCapSet mb input s
  | .sentPcap value => Sys2Proof.Machine.execSentPcap value s
  | .keyLoad mb input good => Sys2Proof.Machine.execKeyLoad mb input good s
  | .keyLoaded slot => Sys2Proof.Machine.execKeyLoaded slot s
  | .keyStatus mb input => Sys2Proof.Machine.execKeyStatus mb input s
  | .rehearsalRun mb input fail => Sys2Proof.Machine.execRehearsalRun mb input fail s
  | .twinStatus mb input => Sys2Proof.Machine.execTwinStatus mb input s
  | .queueCreate mb input => Sys2Proof.Machine.execQueueCreate mb input s
  | .queueDelete mb input => Sys2Proof.Machine.execQueueDelete mb input s
  | .scriptLoad mb input => Sys2Proof.Machine.execScriptLoad mb input s
  | .scriptUnload mb input => Sys2Proof.Machine.execScriptUnload mb input s
  | .eventRoute mb input => Sys2Proof.Machine.execEventRoute mb input s
  | .classStarved cls stage => Sys2Proof.Machine.execClassStarved cls stage s
  | .boundedGateClosed => Sys2Proof.Machine.execBoundedGateClosed s
  | .holdPoison => Sys2Proof.Machine.execHoldPoison s
  | .stallBoundPoison => Sys2Proof.Machine.execStallBoundPoison s
  | .secondCopyBuilt f => Sys2Proof.Machine.execSecondCopyBuilt f s
  | .clean => Sys2Proof.Machine.execClean s
  | .invalidate => Sys2Proof.Machine.execInvalidate s
  | .flush => Sys2Proof.Machine.execFlush s
  | .cleanSet slice set => Sys2Proof.Machine.execCleanSet slice set s
  | .invalidateSet slice set => Sys2Proof.Machine.execInvalidateSet slice set s
  | .flushSet slice set => Sys2Proof.Machine.execFlushSet slice set s
  | .cleanAll => Sys2Proof.Machine.execCleanAll s
  | .invalidateAll => Sys2Proof.Machine.execInvalidateAll s
  | .flushAll => Sys2Proof.Machine.execFlushAll s
  | .disable => Sys2Proof.Machine.execDisable s
  | .enable => Sys2Proof.Machine.execEnable s
  | .wayDisable slice way => Sys2Proof.Machine.execWayDisable slice way s
  | .wayEnable slice way => Sys2Proof.Machine.execWayEnable slice way s
  | .scacheMaintDone => Sys2Proof.Machine.execScacheMaintDone s
  | .retrainPause c temp owed => Sys2Proof.Machine.execRetrainPause c temp owed s
  | .retrainLate c => Sys2Proof.Machine.execRetrainLate c s
  | .refresh c busy => Sys2Proof.Machine.execRefresh c busy s
  | .makeUpBurst c empty => Sys2Proof.Machine.execMakeUpBurst c empty s
  | .mergeEntryWrite line => Sys2Proof.Machine.execMergeEntryWrite line s
  | .selfRefreshEntry c => Sys2Proof.Machine.execSelfRefreshEntry c s
  | .patrolScrub c frame line points progress pass words => Sys2Proof.Machine.execPatrolScrub c frame line points progress pass words s
  | .dmcFrozen c cause cls dpa words => Sys2Proof.Machine.execDmcFrozen c cause cls dpa words s
  | .leafReadDone folio cls out recon fixed suspended => Sys2Proof.Machine.execLeafReadDone folio cls out recon fixed suspended s
  | .slowReadAbandon folio cls recon => Sys2Proof.Machine.execSlowReadAbandon folio cls recon s
  | .quireOpen redo halt => Sys2Proof.Machine.execQuireOpen redo halt s
  | .leafProgramDone what ok => Sys2Proof.Machine.execLeafProgramDone what ok s
  | .eraseDone block ok => Sys2Proof.Machine.execEraseDone block ok s
  | .journalFlush => Sys2Proof.Machine.execJournalFlush s
  | .reclaim room => Sys2Proof.Machine.execReclaim room s
  | .cartFailed slot cause => Sys2Proof.Machine.execCartFailed slot cause s
  | .reshapeDelayExpiry => Sys2Proof.Machine.execReshapeDelayExpiry s
  | .cartPresent slot dies cls serial mask recordGood => Sys2Proof.Machine.execCartPresent slot dies cls serial mask recordGood s
  | .cartAdmitted slot => Sys2Proof.Machine.execCartAdmitted slot s
  | .slotPwrFail slot => Sys2Proof.Machine.execSlotPwrFail slot s
  | .cartRemovable slot => Sys2Proof.Machine.execCartRemovable slot s
  | .cartRemoved slot => Sys2Proof.Machine.execCartRemoved slot s
  | .contextStart => Sys2Proof.Machine.execContextStart s
  | .scribeFailed e => Sys2Proof.Machine.execScribeFailed e s
  | .dpaOpResponse e cx => Sys2Proof.Machine.execDpaOpResponse e cx s
  | .blockingRetire e cx => Sys2Proof.Machine.execBlockingRetire e cx s
  | .add e cx => Sys2Proof.Machine.execAdd e cx s
  | .sub e cx => Sys2Proof.Machine.execSub e cx s
  | .neg e cx => Sys2Proof.Machine.execNeg e cx s
  | .and e cx => Sys2Proof.Machine.execAnd e cx s
  | .or e cx => Sys2Proof.Machine.execOr e cx s
  | .xor e cx => Sys2Proof.Machine.execXor e cx s
  | .andn e cx => Sys2Proof.Machine.execAndn e cx s
  | .orn e cx => Sys2Proof.Machine.execOrn e cx s
  | .shl e cx => Sys2Proof.Machine.execShl e cx s
  | .shr e cx => Sys2Proof.Machine.execShr e cx s
  | .sar e cx => Sys2Proof.Machine.execSar e cx s
  | .ror e cx => Sys2Proof.Machine.execRor e cx s
  | .cmpEq e cx => Sys2Proof.Machine.execCmpEq e cx s
  | .cmpNe e cx => Sys2Proof.Machine.execCmpNe e cx s
  | .cmpLt e cx => Sys2Proof.Machine.execCmpLt e cx s
  | .cmpLe e cx => Sys2Proof.Machine.execCmpLe e cx s
  | .cmpLtu e cx => Sys2Proof.Machine.execCmpLtu e cx s
  | .cmpLeu e cx => Sys2Proof.Machine.execCmpLeu e cx s
  | .min e cx => Sys2Proof.Machine.execMin e cx s
  | .max e cx => Sys2Proof.Machine.execMax e cx s
  | .minu e cx => Sys2Proof.Machine.execMinu e cx s
  | .maxu e cx => Sys2Proof.Machine.execMaxu e cx s
  | .mul e cx => Sys2Proof.Machine.execMul e cx s
  | .mulhiS e cx => Sys2Proof.Machine.execMulhiS e cx s
  | .mulhiU e cx => Sys2Proof.Machine.execMulhiU e cx s
  | .div e cx => Sys2Proof.Machine.execDiv e cx s
  | .divu e cx => Sys2Proof.Machine.execDivu e cx s
  | .rem e cx => Sys2Proof.Machine.execRem e cx s
  | .remu e cx => Sys2Proof.Machine.execRemu e cx s
  | .lzc e cx => Sys2Proof.Machine.execLzc e cx s
  | .tzc e cx => Sys2Proof.Machine.execTzc e cx s
  | .ones e cx => Sys2Proof.Machine.execOnes e cx s
  | .revb e cx => Sys2Proof.Machine.execRevb e cx s
  | .addI e cx => Sys2Proof.Machine.execAddI e cx s
  | .andI e cx => Sys2Proof.Machine.execAndI e cx s
  | .orI e cx => Sys2Proof.Machine.execOrI e cx s
  | .xorI e cx => Sys2Proof.Machine.execXorI e cx s
  | .cmpEqI e cx => Sys2Proof.Machine.execCmpEqI e cx s
  | .cmpLtI e cx => Sys2Proof.Machine.execCmpLtI e cx s
  | .shlI e cx => Sys2Proof.Machine.execShlI e cx s
  | .shrI e cx => Sys2Proof.Machine.execShrI e cx s
  | .sarI e cx => Sys2Proof.Machine.execSarI e cx s
  | .high e cx => Sys2Proof.Machine.execHigh e cx s
  | .bz e cx => Sys2Proof.Machine.execBz e cx s
  | .bnz e cx => Sys2Proof.Machine.execBnz e cx s
  | .bneg e cx => Sys2Proof.Machine.execBneg e cx s
  | .bnneg e cx => Sys2Proof.Machine.execBnneg e cx s
  | .dbnz e cx => Sys2Proof.Machine.execDbnz e cx s
  | .bpany e cx => Sys2Proof.Machine.execBpany e cx s
  | .call e cx => Sys2Proof.Machine.execCall e cx s
  | .jump e cx => Sys2Proof.Machine.execJump e cx s
  | .ld e cx ue => Sys2Proof.Machine.execLd e cx ue s
  | .st e cx => Sys2Proof.Machine.execSt e cx s
  | .cas e cx ue => Sys2Proof.Machine.execCas e cx ue s
  | .fadd e cx ue => Sys2Proof.Machine.execFadd e cx ue s
  | .vld e cx ue => Sys2Proof.Machine.execVld e cx ue s
  | .vldBc e cx ue => Sys2Proof.Machine.execVldBc e cx ue s
  | .vst e cx => Sys2Proof.Machine.execVst e cx s
  | .vcmp e cx => Sys2Proof.Machine.execVcmp e cx s
  | .vsel e cx => Sys2Proof.Machine.execVsel e cx s
  | .vsum e cx => Sys2Proof.Machine.execVsum e cx s
  | .vmin e cx => Sys2Proof.Machine.execVmin e cx s
  | .vminr e cx => Sys2Proof.Machine.execVminr e cx s
  | .vmax e cx => Sys2Proof.Machine.execVmax e cx s
  | .vmaxr e cx => Sys2Proof.Machine.execVmaxr e cx s
  | .sealOpen e cx => Sys2Proof.Machine.execSealOpen e cx s
  | .sealAdd e cx => Sys2Proof.Machine.execSealAdd e cx s
  | .sealCommit e cx => Sys2Proof.Machine.execSealCommit e cx s
  | .pbarLocal e cx => Sys2Proof.Machine.execPbarLocal e cx s
  | .pbarTwin e cx => Sys2Proof.Machine.execPbarTwin e cx s
  | .copy e cx err => Sys2Proof.Machine.execCopy e cx err s
  | .copyL e cx err => Sys2Proof.Machine.execCopyL e cx err s
  | .crc e cx err => Sys2Proof.Machine.execCrc e cx err s
  | .hash e cx => Sys2Proof.Machine.execHash e cx s
  | .probe e cx ue => Sys2Proof.Machine.execProbe e cx ue s
  | .cue e cx => Sys2Proof.Machine.execCue e cx s
  | .cueR e cx => Sys2Proof.Machine.execCueR e cx s
  | .waitc e cx => Sys2Proof.Machine.execWaitc e cx s
  | .notify e cx => Sys2Proof.Machine.execNotify e cx s
  | .yield e cx => Sys2Proof.Machine.execYield e cx s
  | .halt e cx => Sys2Proof.Machine.execHalt e cx s
  | .trap e cx fetchUe => Sys2Proof.Machine.execTrap e cx fetchUe s
  | .rdsr e cx => Sys2Proof.Machine.execRdsr e cx s
  | .wrsr e cx => Sys2Proof.Machine.execWrsr e cx s
  | .submissionTail ld value => Sys2Proof.Machine.execSubmissionTail ld value s
  | .completionHead ld value => Sys2Proof.Machine.execCompletionHead ld value s
  | .noteHead ld value => Sys2Proof.Machine.execNoteHead ld value s
  | .abort ld value => Sys2Proof.Machine.execAbort ld value s
  | .ticketFetch => Sys2Proof.Machine.execTicketFetch s
  | .coalesceTimeout => Sys2Proof.Machine.execCoalesceTimeout s
  | .integrityFrame link good => Sys2Proof.Machine.execIntegrityFrame link good s
  | .twinLinkDown link => Sys2Proof.Machine.execTwinLinkDown link s
  | .hello id epoch role divValid synced divEpoch granules prefer held => Sys2Proof.Machine.execHello id epoch role divValid synced divEpoch granules prefer held s
  | .heartbeat h ink => Sys2Proof.Machine.execHeartbeat h ink s
  | .heartbeatSend => Sys2Proof.Machine.execHeartbeatSend s
  | .ack h => Sys2Proof.Machine.execAck h s
  | .store h recs => Sys2Proof.Machine.execStore h recs s
  | .sealMsg h recs => Sys2Proof.Machine.execSeal h recs s
  | .tableSync h table index ws last => Sys2Proof.Machine.execTableSync h table index ws last s
  | .tableResult h seq status => Sys2Proof.Machine.execTableResult h seq status s
  | .fetchReq h folio id => Sys2Proof.Machine.execFetchReq h folio id s
  | .fetchData h id good cells => Sys2Proof.Machine.execFetchData h id good cells s
  | .fetchNak h id status => Sys2Proof.Machine.execFetchNak h id status s
  | .twinFetchFail id => Sys2Proof.Machine.execTwinFetchFail id s
  | .journalCopy h index first recs good => Sys2Proof.Machine.execJournalCopy h index first recs good s
  | .journalReq h index => Sys2Proof.Machine.execJournalReq h index s
  | .checkpointNote h number first => Sys2Proof.Machine.execCheckpointNote h number first s
  | .bitmap h first marks => Sys2Proof.Machine.execBitmap h first marks s
  | .resyncFolio h folio zero cells => Sys2Proof.Machine.execResyncFolio h folio zero cells s
  | .handbackFolio h folio zero cells => Sys2Proof.Machine.execHandbackFolio h folio zero cells s
  | .resyncDone h part absent => Sys2Proof.Machine.execResyncDone h part absent s
  | .mirrorReady h region => Sys2Proof.Machine.execMirrorReady h region s
  | .handover h final => Sys2Proof.Machine.execHandover h final s
  | .handoverAck h => Sys2Proof.Machine.execHandoverAck h s
  | .handoverAckTimeout => Sys2Proof.Machine.execHandoverAckTimeout s
  | .leaseExpired => Sys2Proof.Machine.execLeaseExpired s
  | .promoted => Sys2Proof.Machine.execPromoted s
  | .soloDeclaration => Sys2Proof.Machine.execSoloDeclaration s
  | .twinYield => Sys2Proof.Machine.execTwinYield s
  | .disturbance m => Sys2Proof.Machine.execDisturbance m s
  | .blip m => Sys2Proof.Machine.execBlip m s
  | .sagEnter m => Sys2Proof.Machine.execSagEnter m s
  | .sagExit m => Sys2Proof.Machine.execSagExit m s
  | .sagHoldEnd => Sys2Proof.Machine.execSagHoldEnd s
  | .drop m => Sys2Proof.Machine.execDrop m s
  | .strikeDone energy => Sys2Proof.Machine.execStrikeDone energy s
  | .loadInStart => Sys2Proof.Machine.execLoadInStart s
  | .reserveShort => Sys2Proof.Machine.execReserveShort s
  | .loadInDone => Sys2Proof.Machine.execLoadInDone s
  | .holdupTest go => Sys2Proof.Machine.execHoldupTest go s
  | .holdupTested sum0 v1 qsum sum2 => Sys2Proof.Machine.execHoldupTested sum0 v1 qsum sum2 s
  | .holdupTestLate => Sys2Proof.Machine.execHoldupTestLate s
  | .operation entry on => Sys2Proof.Machine.execOperation entry on s
  | .clearFaults entry => Sys2Proof.Machine.execClearFaults entry s
  | .voutCommand entry data => Sys2Proof.Machine.execVoutCommand entry data s
  | .statusWord entry value => Sys2Proof.Machine.execStatusWord entry value s
  | .readVin entry value => Sys2Proof.Machine.execReadVin entry value s
  | .readIin entry value => Sys2Proof.Machine.execReadIin entry value s
  | .readVout entry value => Sys2Proof.Machine.execReadVout entry value s
  | .readIout entry value => Sys2Proof.Machine.execReadIout entry value s
  | .readTemperature1 entry value => Sys2Proof.Machine.execReadTemperature1 entry value s
  | .readPout entry value => Sys2Proof.Machine.execReadPout entry value s
  | .readPin entry value => Sys2Proof.Machine.execReadPin entry value s
  | .pmbusPoll answered ms bytes mw => Sys2Proof.Machine.execPmbusPoll answered ms bytes mw s
  | .pcapEstimate mw => Sys2Proof.Machine.execPcapEstimate mw s
  | .meterUpdate counts static => Sys2Proof.Machine.execMeterUpdate counts static s
  | .rearm value => Sys2Proof.Machine.execRearm value s
  | .dvfsRaise value => Sys2Proof.Machine.execDvfsRaise value s
  | .dvfsReady => Sys2Proof.Machine.execDvfsReady s
  | .stcWdog core => Sys2Proof.Machine.execStcWdog core s
  | .stcWatchdog core => Sys2Proof.Machine.execStcWatchdog core s
  | .stcReloaded core => Sys2Proof.Machine.execStcReloaded core s
  | .coreQuiesce core => Sys2Proof.Machine.execCoreQuiesce core s
  | .readPage port ecc => Sys2Proof.Machine.execReadPage port ecc s
  | .programPage port fetch => Sys2Proof.Machine.execProgramPage port fetch s
  | .eraseSector port fetch => Sys2Proof.Machine.execEraseSector port fetch s
  | .suspend port => Sys2Proof.Machine.execSuspend port s
  | .resume port => Sys2Proof.Machine.execResume port s
  | .protSet port => Sys2Proof.Machine.execProtSet port s
  | .protClear port => Sys2Proof.Machine.execProtClear port s
  | .lock port => Sys2Proof.Machine.execLock port s
  | .pwdSet port => Sys2Proof.Machine.execPwdSet port s
  | .fwfOperationEnd bank => Sys2Proof.Machine.execFwfOperationEnd bank s
  | .fwfPwdKey port value => Sys2Proof.Machine.execFwfPwdKey port value s
  | .fwfPwdData port value => Sys2Proof.Machine.execFwfPwdData port value s
  | .thermSample hot => Sys2Proof.Machine.execThermSample hot s
  | .getVersion chan => Sys2Proof.Machine.execGetVersion chan s
  | .getCapabilities chan => Sys2Proof.Machine.execGetCapabilities chan s
  | .negotiateAlgorithms chan ok => Sys2Proof.Machine.execNegotiateAlgorithms chan ok s
  | .getDigests chan => Sys2Proof.Machine.execGetDigests chan s
  | .getCertificate chan slot offset length => Sys2Proof.Machine.execGetCertificate chan slot offset length s
  | .challenge chan slot => Sys2Proof.Machine.execChallenge chan slot s
  | .getMeasurements chan index sign => Sys2Proof.Machine.execGetMeasurements chan index sign s
  | .keyExchange chan ok => Sys2Proof.Machine.execKeyExchange chan ok s
  | .finish chan id ok who => Sys2Proof.Machine.execFinish chan id ok who s
  | .spdmHeartbeat chan id => Sys2Proof.Machine.execSpdmHeartbeat chan id s
  | .keyUpdate chan id => Sys2Proof.Machine.execKeyUpdate chan id s
  | .endSession chan id => Sys2Proof.Machine.execEndSession chan id s
  | .spdmUnsupported chan => Sys2Proof.Machine.execSpdmUnsupported chan s
  | .seedProgram chan id hash => Sys2Proof.Machine.execSeedProgram chan id hash s
  | .keyWrap chan id record => Sys2Proof.Machine.execKeyWrap chan id record s
  | .reunwrap chan id => Sys2Proof.Machine.execReunwrap chan id s
  | .debugUnlock chan id cert good => Sys2Proof.Machine.execDebugUnlock chan id cert good s
  | .dbgcert cert good => Sys2Proof.Machine.execDbgcert cert good s
  | .keyAlarm source => Sys2Proof.Machine.execKeyAlarm source s
  | .latchProgram => Sys2Proof.Machine.execLatchProgram s
  | .sramPatrol f => Sys2Proof.Machine.execSramPatrol f s
  | .chkRingTail unit tail sram area => Sys2Proof.Machine.execChkRingTail unit tail sram area s
  | .cvDescriptorDone unit bad => Sys2Proof.Machine.execCvDescriptorDone unit bad s
  | .unitReset unit => Sys2Proof.Machine.execUnitReset unit s
  | .pbookFire value => Sys2Proof.Machine.execPbookFire value s
  | .pbookAckHi value => Sys2Proof.Machine.execPbookAckHi value s
  | .ringTailRead slot => Sys2Proof.Machine.execRingTailRead slot s
  | .pbookFlush => Sys2Proof.Machine.execPbookFlush s
  | .tallySnap index => Sys2Proof.Machine.execTallySnap index s
  | .tallyClear index snap => Sys2Proof.Machine.execTallyClear index snap s
  | .dramRepair fr queue channel row device soft => Sys2Proof.Machine.execDramRepair fr queue channel row device soft s
  | .dramRetrain fr queue channel temp owed => Sys2Proof.Machine.execDramRetrain fr queue channel temp owed s
  | .dramRelease fr queue channel pass words => Sys2Proof.Machine.execDramRelease fr queue channel pass words s
  | .rebuild => Sys2Proof.Machine.execRebuild s
  | .reshape => Sys2Proof.Machine.execReshape s
  | .slotRemove fr queue slot => Sys2Proof.Machine.execSlotRemove fr queue slot s
  | .slotAdmit fr queue slot => Sys2Proof.Machine.execSlotAdmit fr queue slot s
  | .fwUpdate fr queue signed => Sys2Proof.Machine.execFwUpdate fr queue signed s
  | .twinResync => Sys2Proof.Machine.execTwinResync s
  | .plannedHandover fr queue => Sys2Proof.Machine.execPlannedHandover fr queue s
  | .scribeSwap fr queue scribe timeout pass => Sys2Proof.Machine.execScribeSwap fr queue scribe timeout pass s
  | .drainTimeout => Sys2Proof.Machine.execDrainTimeout s
  | .sceneChange fr queue p0 => Sys2Proof.Machine.execSceneChange fr queue p0 s
  | .rehearsal fr queue mask fail => Sys2Proof.Machine.execRehearsal fr queue mask fail s
  | .powerCycle fr queue confirm => Sys2Proof.Machine.execPowerCycle fr queue confirm s
  | .maintStart o => Sys2Proof.Machine.execMaintStart o s
  | .maintQry id => Sys2Proof.Machine.execMaintQry id s
  | .refclkPresent => Sys2Proof.Machine.execRefclkPresent s
  | .railGroupWithinTolerance strap => Sys2Proof.Machine.execRailGroupWithinTolerance strap s
  | .vddAonFall => Sys2Proof.Machine.execVddAonFall s
  | .holdupSenseSample count => Sys2Proof.Machine.execHoldupSenseSample count s
  | .s2mCreditReturn link ndr drs => Sys2Proof.Machine.execS2mCreditReturn link ndr drs s
  | .twinLinkTrained w0 w1 session => Sys2Proof.Machine.execTwinLinkTrained w0 w1 session s
  | .slotPgoodAsserted slot answered fail => Sys2Proof.Machine.execSlotPgoodAsserted slot answered fail s
  | .locateExpiry slot => Sys2Proof.Machine.execLocateExpiry slot s

end Sys2Proof.Machine
end

