-- ==== Sys2Proof/Safety.lean ====
section
/-! DEFINITION. What every run keeps: the canonical form of the byte memories, and the things that no command takes back.

The block never stops: every command answers a next state, so a safe run is one that stays within these bounds. -/

set_option Elab.async false

namespace Sys2Proof.Machine

/-- The byte memories of the block: DRAM and its second copies by DPA (R193, R211), the label storage areas (R123), the
firmware flash, which reads 0xFF where it is erased (R618), control SRAM and the control area (R691, R207), the inkwells and
reservoirs (R424), and the queue windows (R516). -/
structure Mems where
  cells : List Host.Cell
  second : List Host.Cell
  lsa : List Host.Cell
  array : List Host.Cell
  ctlSram : List Host.Cell
  ctlArea : List Host.Cell
  inkwell : List Host.Cell
  reservoir : List Host.Cell
  window : List Host.Cell
deriving DecidableEq, Repr

/-- The byte memories of a state. -/
def State.mems (s : State) : Mems :=
  { cells := s.dram.cells, second := s.dram.second, lsa := s.host.lsa, array := s.core.array,
    ctlSram := s.integ.ctlSram, ctlArea := s.integ.ctlArea, inkwell := s.scr.inkwell, reservoir := s.scr.reservoir,
    window := s.que.window }

/-- Each memory is in its canonical form: rising addresses, no entry equal to what an unlisted address reads as. -/
def Mems.wf (m : Mems) : Bool :=
  memWf 0 m.cells && memWf 0 m.second && memWf 0 m.lsa && memWf fwErased m.array && memWf 0 m.ctlSram &&
    memWf 0 m.ctlArea && memWf 0 m.inkwell && memWf 0 m.reservoir && memWf 0 m.window

/-- What a state holds that no command takes back: commands waiting, the clock, what has been sent, the counters of the free
values and of the starts, the owner keys programmed (R655), and whether the twins were ever paired (R562). -/
structure Held where
  pending : List Instr
  clock : Nat
  sent : List Out
  fresh : Nat
  boots : Nat
  seeds : List Nat
  pairedEver : Bool
  mems : Mems
deriving DecidableEq, Repr

/-- The part of a state that `Held` names. -/
def State.holds (s : State) : Held :=
  { pending := s.pending, clock := s.clock, sent := s.sent, fresh := s.fresh, boots := s.pwr.boots,
    seeds := s.sec.seeds, pairedEver := s.twin.pairedEver, mems := s.mems }

/-- The later state has the earlier one's queue and clock, has sent everything it had sent, has drawn no fewer free values,
has started no fewer times, has lost no owner key, and keeps the canonical form of the memories. -/
structure Held.Le (a b : Held) : Prop where
  pending : b.pending = a.pending
  clock : b.clock = a.clock
  sent : a.sent <+: b.sent
  fresh : a.fresh ≤ b.fresh
  boots : a.boots ≤ b.boots
  seeds : a.seeds <+: b.seeds
  paired : a.pairedEver = true → b.pairedEver = true
  mems : a.mems.wf = true → b.mems.wf = true

/-- What a command keeps. -/
def Keeps (s t : State) : Prop := s.holds.Le t.holds

/-- A state without its registers, event router, prompt book and outputs. -/
def State.sansEvents (s : State) : State :=
  { s with sent := [], regs := { live := [], base := [], rwsTaken := [] },
           evt := { coreQs := [], routes := [], logs := [], overflowAt := none },
           pb := { ring := [], start := 0, log := [], flushing := none, logSlot := 0, logLine := 0, tallies := [],
                   droppedAt := none, urgentAt := none, writer := [] } }

/-- The later state differs from the earlier one in nothing but the event router (EVT), the prompt book (PBOOK), the live
words of their registers, and what has been sent. -/
structure OnlyEvents (s t : State) : Prop where
  core : t.sansEvents = s.sansEvents
  base : t.regs.base = s.regs.base
  taken : t.regs.rwsTaken = s.regs.rwsTaken
  live : ∀ o : Nat, o < 0x2700000 → mapGet? t.regs.live o = mapGet? s.regs.live o

end Sys2Proof.Machine
end

