-- ==== Sys2Proof/WellFormed.lean ====
section
/-! DEFINITION. Which commands the outside of the block can give: every operand within the range of the thing it names. A
meaning answers every command, well-formed or not; this check says which of them the hardware can receive. -/

set_option Elab.async false

namespace Sys2Proof

/-- A number that a 32-bit word holds (R2). -/
def word? (v : Nat) : Bool := decide (v < 2 ^ 32)

/-- A mailbox: a logical device, a GFD identity, or the BMC (R124, R126, R730). -/
def mailbox? (mb : Nat) : Bool := decide (mb < 384) || decide (mb = 512)

/-- A mailbox payload (R124): at most 4,096 bytes. -/
def payload? (input : List Byte) : Bool := decide (input.length ≤ 4096)

/-- The header of a twin message: epoch, sequence and ack of 32 bits (R536). -/
def twinHead? (h : TwinHead) : Bool := word? h.epoch && word? h.seq && word? h.ack

/-- The records of a STORE or SEAL message (R540): line addresses of a 64-bit space and byte masks of 64 bits. -/
def records? (rs : List LineWrite) : Bool := rs.all (fun r => decide (r.line < 2 ^ 58) && decide (r.mask < 2 ^ 64))

/-- A sample of the mains inputs: BULK_SENSE is a 12-bit count (R576). -/
def mains? (m : Mains) : Bool := decide (m.bulk < 4096)

/-- The operands of a command are within the ranges of what they name. -/
def Instr.wellFormed : Instr → Bool
  | .powerOnReset m _ => mains? m
  | .rootPllLock => true
  | .bootVerified _ _ _ => true
  | .configSetLoad => true
  | .powerOnRehearsal _ => true
  | .railStartFail => true
  | .refclkLost => true
  | .pllUnlock => true
  | .clkHoldoverFail => true
  | .refclkRestored => true
  | .sysResetN => true
  | .sysResetNRelease => true
  | .perstN link _ => decide (link < 8)
  | .cxlReset link => decide (link < 8)
  | .secFault => true
  | .sceneReq value => word? value
  | .sceneBoundary => true
  | .ctlUnmapped off _ => decide (off < 0x10000000)
  | .registerWrite off value => decide (off < 0x10000000) && word? value
  | .linkUp link width _ _ _ => decide (link < 8) && decide (width ≤ 16)
  | .linkDown link => decide (link < 8)
  | .hostLoad link key hpa tag _ _ => decide (link < 8) && decide (key < 4096) && decide (hpa < 2 ^ 64) && decide (tag < 65536)
  | .hostStore link key hpa tag mask _ _ => decide (link < 8) && decide (key < 4096) && decide (hpa < 2 ^ 64) && decide (tag < 65536) && decide (mask < 2 ^ 64)
  | .birsp link key _ => decide (link < 8) && decide (key < 4096)
  | .biSlow => true
  | .ideIntegrityFail link => decide (link < 8)
  | .keyProg link _ => decide (link < 8)
  | .doeRequest link _ _ => decide (link < 8)
  | .hdmCommit dev index _ _ _ _ _ _ => decide (dev < 384) && decide (index < 8)
  | .hdmUncommit dev index => decide (dev < 384) && decide (index < 8)
  | .addCapacity dev _ _ _ => decide (dev < 384)
  | .releaseCapacity dev _ _ => decide (dev < 384)
  | .gpfPhase1 link => decide (link < 8)
  | .gpfPhase2 link => decide (link < 8)
  | .identifyMemoryDevice mb input => mailbox? mb && payload? input
  | .getHealthInfo mb input => mailbox? mb && payload? input
  | .getTimestamp mb input => mailbox? mb && payload? input
  | .setTimestamp mb input => mailbox? mb && payload? input
  | .getSupportedLogs mb input => mailbox? mb && payload? input
  | .getLog mb input => mailbox? mb && payload? input
  | .getEventRecords mb input => mailbox? mb && payload? input
  | .clearEventRecords mb input => mailbox? mb && payload? input
  | .getEventInterruptPolicy mb input => mailbox? mb && payload? input
  | .setEventInterruptPolicy mb input => mailbox? mb && payload? input
  | .getAlertConfiguration mb input => mailbox? mb && payload? input
  | .setAlertConfiguration mb input => mailbox? mb && payload? input
  | .getPartitionInfo mb input => mailbox? mb && payload? input
  | .getLsa mb input => mailbox? mb && payload? input
  | .setLsa mb input => mailbox? mb && payload? input
  | .getPoisonList mb input => mailbox? mb && payload? input
  | .getFwInfo mb input => mailbox? mb && payload? input
  | .transferFw mb input => mailbox? mb && payload? input
  | .activateFw mb input _ => mailbox? mb && payload? input
  | .mailboxUnsupported mb opcode => mailbox? mb && decide (opcode < 65536)
  | .getDeviceInfo mb input => mailbox? mb && payload? input
  | .getEpoch mb input => mailbox? mb && payload? input
  | .deviceReset mb input => mailbox? mb && payload? input
  | .ldReset mb input => mailbox? mb && payload? input
  | .regionRead mb input => mailbox? mb && payload? input
  | .regionWrite mb input => mailbox? mb && payload? input
  | .accessStage mb input => mailbox? mb && payload? input
  | .accessCommit mb input => mailbox? mb && payload? input
  | .accCommit value => word? value
  | .commitEdge => true
  | .persistBarrier mb input => mailbox? mb && payload? input
  | .inkRead mb input => mailbox? mb && payload? input
  | .inkLimitSet mb input => mailbox? mb && payload? input
  | .inkLimitWrite value => word? value
  | .sceneSet mb input => mailbox? mb && payload? input
  | .maintStatus mb input => mailbox? mb && payload? input
  | .maintCancel mb input => mailbox? mb && payload? input
  | .prepareRemoval mb input => mailbox? mb && payload? input
  | .slotPowerOn mb input => mailbox? mb && payload? input
  | .ledLocate mb input => mailbox? mb && payload? input
  | .freezeSnapshot mb input => mailbox? mb && payload? input
  | .freezeRelease mb input _ _ => mailbox? mb && payload? input
  | .freezeSnapRead c => decide (c < 12)
  | .pbookRead mb input => mailbox? mb && payload? input
  | .pbookAck mb input => mailbox? mb && payload? input
  | .tallyRead mb input => mailbox? mb && payload? input
  | .energyRead mb input => mailbox? mb && payload? input
  | .powerCapSet mb input => mailbox? mb && payload? input
  | .sentPcap value => word? value
  | .keyLoad mb input _ => mailbox? mb && payload? input
  | .keyLoaded slot => decide (slot < 256)
  | .keyStatus mb input => mailbox? mb && payload? input
  | .rehearsalRun mb input _ => mailbox? mb && payload? input
  | .twinStatus mb input => mailbox? mb && payload? input
  | .queueCreate mb input => mailbox? mb && payload? input
  | .queueDelete mb input => mailbox? mb && payload? input
  | .scriptLoad mb input => mailbox? mb && payload? input
  | .scriptUnload mb input => mailbox? mb && payload? input
  | .eventRoute mb input => mailbox? mb && payload? input
  | .classStarved cls stage => decide (cls < 16) && decide (stage < 8)
  | .boundedGateClosed => true
  | .holdPoison => true
  | .stallBoundPoison => true
  | .secondCopyBuilt _ => true
  | .clean => true
  | .invalidate => true
  | .flush => true
  | .cleanSet slice _ => decide (slice < 32)
  | .invalidateSet slice _ => decide (slice < 32)
  | .flushSet slice _ => decide (slice < 32)
  | .cleanAll => true
  | .invalidateAll => true
  | .flushAll => true
  | .disable => true
  | .enable => true
  | .wayDisable slice _ => decide (slice < 32)
  | .wayEnable slice _ => decide (slice < 32)
  | .scacheMaintDone => true
  | .retrainPause c _ _ => decide (c < 12)
  | .retrainLate c => decide (c < 12)
  | .refresh c _ => decide (c < 12)
  | .makeUpBurst c _ => decide (c < 12)
  | .mergeEntryWrite _ => true
  | .selfRefreshEntry c => decide (c < 12)
  | .patrolScrub c _ line points _ _ _ => decide (c < 12) && decide (line < 1024) && decide (points.length = 8)
  | .dmcFrozen c _ _ _ _ => decide (c < 12)
  | .leafReadDone folio _ _ _ _ _ => word? folio
  | .slowReadAbandon folio _ _ => word? folio
  | .quireOpen _ _ => true
  | .leafProgramDone _ _ => true
  | .eraseDone _ _ => true
  | .journalFlush => true
  | .reclaim _ => true
  | .cartFailed slot _ => decide (slot < 16)
  | .reshapeDelayExpiry => true
  | .cartPresent slot _ _ _ mask _ => decide (slot < 16) && word? mask
  | .cartAdmitted slot => decide (slot < 16)
  | .slotPwrFail slot => decide (slot < 16)
  | .cartRemovable slot => decide (slot < 16)
  | .cartRemoved slot => decide (slot < 16)
  | .contextStart => true
  | .scribeFailed e => decide (e < 36)
  | .dpaOpResponse e cx => decide (e < 36) && decide (cx < 16)
  | .blockingRetire e cx => decide (e < 36) && decide (cx < 16)
  | .add e cx => decide (e < 36) && decide (cx < 16)
  | .sub e cx => decide (e < 36) && decide (cx < 16)
  | .neg e cx => decide (e < 36) && decide (cx < 16)
  | .and e cx => decide (e < 36) && decide (cx < 16)
  | .or e cx => decide (e < 36) && decide (cx < 16)
  | .xor e cx => decide (e < 36) && decide (cx < 16)
  | .andn e cx => decide (e < 36) && decide (cx < 16)
  | .orn e cx => decide (e < 36) && decide (cx < 16)
  | .shl e cx => decide (e < 36) && decide (cx < 16)
  | .shr e cx => decide (e < 36) && decide (cx < 16)
  | .sar e cx => decide (e < 36) && decide (cx < 16)
  | .ror e cx => decide (e < 36) && decide (cx < 16)
  | .cmpEq e cx => decide (e < 36) && decide (cx < 16)
  | .cmpNe e cx => decide (e < 36) && decide (cx < 16)
  | .cmpLt e cx => decide (e < 36) && decide (cx < 16)
  | .cmpLe e cx => decide (e < 36) && decide (cx < 16)
  | .cmpLtu e cx => decide (e < 36) && decide (cx < 16)
  | .cmpLeu e cx => decide (e < 36) && decide (cx < 16)
  | .min e cx => decide (e < 36) && decide (cx < 16)
  | .max e cx => decide (e < 36) && decide (cx < 16)
  | .minu e cx => decide (e < 36) && decide (cx < 16)
  | .maxu e cx => decide (e < 36) && decide (cx < 16)
  | .mul e cx => decide (e < 36) && decide (cx < 16)
  | .mulhiS e cx => decide (e < 36) && decide (cx < 16)
  | .mulhiU e cx => decide (e < 36) && decide (cx < 16)
  | .div e cx => decide (e < 36) && decide (cx < 16)
  | .divu e cx => decide (e < 36) && decide (cx < 16)
  | .rem e cx => decide (e < 36) && decide (cx < 16)
  | .remu e cx => decide (e < 36) && decide (cx < 16)
  | .lzc e cx => decide (e < 36) && decide (cx < 16)
  | .tzc e cx => decide (e < 36) && decide (cx < 16)
  | .ones e cx => decide (e < 36) && decide (cx < 16)
  | .revb e cx => decide (e < 36) && decide (cx < 16)
  | .addI e cx => decide (e < 36) && decide (cx < 16)
  | .andI e cx => decide (e < 36) && decide (cx < 16)
  | .orI e cx => decide (e < 36) && decide (cx < 16)
  | .xorI e cx => decide (e < 36) && decide (cx < 16)
  | .cmpEqI e cx => decide (e < 36) && decide (cx < 16)
  | .cmpLtI e cx => decide (e < 36) && decide (cx < 16)
  | .shlI e cx => decide (e < 36) && decide (cx < 16)
  | .shrI e cx => decide (e < 36) && decide (cx < 16)
  | .sarI e cx => decide (e < 36) && decide (cx < 16)
  | .high e cx => decide (e < 36) && decide (cx < 16)
  | .bz e cx => decide (e < 36) && decide (cx < 16)
  | .bnz e cx => decide (e < 36) && decide (cx < 16)
  | .bneg e cx => decide (e < 36) && decide (cx < 16)
  | .bnneg e cx => decide (e < 36) && decide (cx < 16)
  | .dbnz e cx => decide (e < 36) && decide (cx < 16)
  | .bpany e cx => decide (e < 36) && decide (cx < 16)
  | .call e cx => decide (e < 36) && decide (cx < 16)
  | .jump e cx => decide (e < 36) && decide (cx < 16)
  | .ld e cx _ => decide (e < 36) && decide (cx < 16)
  | .st e cx => decide (e < 36) && decide (cx < 16)
  | .cas e cx _ => decide (e < 36) && decide (cx < 16)
  | .fadd e cx _ => decide (e < 36) && decide (cx < 16)
  | .vld e cx _ => decide (e < 36) && decide (cx < 16)
  | .vldBc e cx _ => decide (e < 36) && decide (cx < 16)
  | .vst e cx => decide (e < 36) && decide (cx < 16)
  | .vcmp e cx => decide (e < 36) && decide (cx < 16)
  | .vsel e cx => decide (e < 36) && decide (cx < 16)
  | .vsum e cx => decide (e < 36) && decide (cx < 16)
  | .vmin e cx => decide (e < 36) && decide (cx < 16)
  | .vminr e cx => decide (e < 36) && decide (cx < 16)
  | .vmax e cx => decide (e < 36) && decide (cx < 16)
  | .vmaxr e cx => decide (e < 36) && decide (cx < 16)
  | .sealOpen e cx => decide (e < 36) && decide (cx < 16)
  | .sealAdd e cx => decide (e < 36) && decide (cx < 16)
  | .sealCommit e cx => decide (e < 36) && decide (cx < 16)
  | .pbarLocal e cx => decide (e < 36) && decide (cx < 16)
  | .pbarTwin e cx => decide (e < 36) && decide (cx < 16)
  | .copy e cx _ => decide (e < 36) && decide (cx < 16)
  | .copyL e cx _ => decide (e < 36) && decide (cx < 16)
  | .crc e cx _ => decide (e < 36) && decide (cx < 16)
  | .hash e cx => decide (e < 36) && decide (cx < 16)
  | .probe e cx _ => decide (e < 36) && decide (cx < 16)
  | .cue e cx => decide (e < 36) && decide (cx < 16)
  | .cueR e cx => decide (e < 36) && decide (cx < 16)
  | .waitc e cx => decide (e < 36) && decide (cx < 16)
  | .notify e cx => decide (e < 36) && decide (cx < 16)
  | .yield e cx => decide (e < 36) && decide (cx < 16)
  | .halt e cx => decide (e < 36) && decide (cx < 16)
  | .trap e cx _ => decide (e < 36) && decide (cx < 16)
  | .rdsr e cx => decide (e < 36) && decide (cx < 16)
  | .wrsr e cx => decide (e < 36) && decide (cx < 16)
  | .submissionTail ld0 value => decide (ld0 < 384) && word? value
  | .completionHead ld0 value => decide (ld0 < 384) && word? value
  | .noteHead ld0 value => decide (ld0 < 384) && word? value
  | .abort ld0 value => decide (ld0 < 384) && word? value
  | .ticketFetch => true
  | .coalesceTimeout => true
  | .integrityFrame link _ => decide (link < 2)
  | .twinLinkDown link => decide (link < 2)
  | .hello id _ _ _ _ _ _ _ _ => decide (id < 2 ^ 64)
  | .heartbeat h _ => twinHead? h
  | .heartbeatSend => true
  | .ack h => twinHead? h
  | .store h recs => twinHead? h && records? recs
  | .sealMsg h recs => twinHead? h && records? recs
  | .tableSync h _ _ _ _ => twinHead? h
  | .tableResult h seq _ => twinHead? h && word? seq
  | .fetchReq h folio id => twinHead? h && word? folio && decide (id < 2 ^ 64)
  | .fetchData h id _ _ => twinHead? h && decide (id < 2 ^ 64)
  | .fetchNak h id _ => twinHead? h && decide (id < 2 ^ 64)
  | .twinFetchFail id => word? id
  | .journalCopy h _ _ _ _ => twinHead? h
  | .journalReq h _ => twinHead? h
  | .checkpointNote h _ _ => twinHead? h
  | .bitmap h _ _ => twinHead? h
  | .resyncFolio h folio _ _ => twinHead? h && word? folio
  | .handbackFolio h folio _ _ => twinHead? h && word? folio
  | .resyncDone h _ _ => twinHead? h
  | .mirrorReady h region => twinHead? h && decide (region < 4096)
  | .handover h _ => twinHead? h
  | .handoverAck h => twinHead? h
  | .handoverAckTimeout => true
  | .leaseExpired => true
  | .promoted => true
  | .soloDeclaration => true
  | .twinYield => true
  | .disturbance m => mains? m
  | .blip m => mains? m
  | .sagEnter m => mains? m
  | .sagExit m => mains? m
  | .sagHoldEnd => true
  | .drop m => mains? m
  | .strikeDone _ => true
  | .loadInStart => true
  | .reserveShort => true
  | .loadInDone => true
  | .holdupTest _ => true
  | .holdupTested _ _ _ _ => true
  | .holdupTestLate => true
  | .operation entry _ => decide (entry < 32)
  | .clearFaults entry => decide (entry < 32)
  | .voutCommand entry data => decide (entry < 32) && decide (data < 65536)
  | .statusWord entry value => decide (entry < 32) && word? value
  | .readVin entry value => decide (entry < 32) && word? value
  | .readIin entry value => decide (entry < 32) && word? value
  | .readVout entry value => decide (entry < 32) && word? value
  | .readIout entry value => decide (entry < 32) && word? value
  | .readTemperature1 entry value => decide (entry < 32) && word? value
  | .readPout entry value => decide (entry < 32) && word? value
  | .readPin entry value => decide (entry < 32) && word? value
  | .pmbusPoll _ _ _ _ => true
  | .pcapEstimate _ => true
  | .meterUpdate _ _ => true
  | .rearm value => word? value
  | .dvfsRaise value => word? value
  | .dvfsReady => true
  | .stcWdog core => decide (core < 4)
  | .stcWatchdog core => decide (core < 4)
  | .stcReloaded core => decide (core < 4)
  | .coreQuiesce core => decide (core < 4)
  | .readPage port _ => decide (port < 5)
  | .programPage port _ => decide (port < 5)
  | .eraseSector port _ => decide (port < 5)
  | .suspend port => decide (port < 5)
  | .resume port => decide (port < 5)
  | .protSet port => decide (port < 5)
  | .protClear port => decide (port < 5)
  | .lock port => decide (port < 5)
  | .pwdSet port => decide (port < 5)
  | .fwfOperationEnd bank => decide (bank < 4)
  | .fwfPwdKey port value => decide (port < 5) && word? value
  | .fwfPwdData port value => decide (port < 5) && word? value
  | .thermSample _ => true
  | .getVersion _ => true
  | .getCapabilities _ => true
  | .negotiateAlgorithms _ _ => true
  | .getDigests _ => true
  | .getCertificate _ slot _ _ => decide (slot < 8)
  | .challenge _ slot => decide (slot < 8)
  | .getMeasurements _ _ _ => true
  | .keyExchange _ _ => true
  | .finish _ id _ _ => word? id
  | .spdmHeartbeat _ id => word? id
  | .keyUpdate _ id => word? id
  | .endSession _ id => word? id
  | .spdmUnsupported _ => true
  | .seedProgram _ id _ => word? id
  | .keyWrap _ id _ => word? id
  | .reunwrap _ id => word? id
  | .debugUnlock _ id _ _ => word? id
  | .dbgcert _ _ => true
  | .keyAlarm source => decide (source < 8)
  | .latchProgram => true
  | .sramPatrol _ => true
  | .chkRingTail unit _ _ _ => decide (unit < 4)
  | .cvDescriptorDone unit _ => decide (unit < 4)
  | .unitReset unit => decide (unit < 4)
  | .pbookFire value => word? value
  | .pbookAckHi value => word? value
  | .ringTailRead _ => true
  | .pbookFlush => true
  | .tallySnap index => decide (index < 4096)
  | .tallyClear index _ => decide (index < 4096)
  | .dramRepair _ _ channel _ device _ => decide (channel < 12) && decide (device < 256)
  | .dramRetrain _ _ channel _ _ => decide (channel < 12)
  | .dramRelease _ _ channel _ _ => decide (channel < 12)
  | .rebuild => true
  | .reshape => true
  | .slotRemove _ _ slot => decide (slot < 16)
  | .slotAdmit _ _ slot => decide (slot < 16)
  | .fwUpdate _ _ _ => true
  | .twinResync => true
  | .plannedHandover _ _ => true
  | .scribeSwap _ _ scribe _ _ => decide (scribe < 36)
  | .drainTimeout => true
  | .sceneChange _ _ p0 => word? p0
  | .rehearsal _ _ mask _ => word? mask
  | .powerCycle _ _ confirm => word? confirm
  | .maintStart _ => true
  | .maintQry id => word? id
  | .refclkPresent => true
  | .railGroupWithinTolerance strap => decide (strap < 16)
  | .vddAonFall => true
  | .holdupSenseSample count => decide (count < 4096)
  | .s2mCreditReturn link _ _ => decide (link < 8)
  | .twinLinkTrained _ _ _ => true
  | .slotPgoodAsserted slot _ _ => decide (slot < 16)
  | .locateExpiry slot => decide (slot < 16)

end Sys2Proof
end

