-- ==== Sys2Proof/Certificates/Slice0/Obligations.lean ====
section
/-! DEFINITION. The statements for the provers: what the commands of the PQ4820 do, and what every step keeps. -/

open Sys2Proof Sys2Proof.Machine

namespace Sys2Proof.Claims

/-- The command answers a next state, and that state has the property. -/
def Answers (c : Instr) (s : State) (p : State → Prop) : Prop := ∃ t, exec c s = .next t ∧ p t

end Sys2Proof.Claims

/-- The state with one more request at port ingress. -/
def Sys2Proof.Machine.State.atIngress (s : State) (q : Ingress) : State :=
  { s with path := { s.path with ingress := s.path.ingress ++ [q] } }

open Sys2Proof.Claims


/-- The step of the block; the queue and the idle tick are the model's (log entries 1 and 2). -/
def Obligations.StepRunsTheFrontCommand : Prop :=
  (∀ (c : Instr) (rest : List Instr) (s : State),
    step { s with pending := c :: rest } = exec c { s with pending := rest }) ∧
  (∀ s : State, s.pending = [] → step s = .next s.idle) ∧
  (∀ s : State, s.idle.pending = s.pending ∧ s.idle.clock = s.clock + 1 ∧ s.idle.sent = s.sent ∧ s.idle.path = s.path ∧
    s.idle.dram = s.dram ∧ s.idle.cache = s.cache ∧ s.idle.host = s.host ∧ s.idle.flash = s.flash ∧ s.idle.twin = s.twin ∧
    s.idle.maint = s.maint ∧ s.idle.evt = s.evt ∧ s.idle.pb.ring = s.pb.ring)

/-- The block never stops: a request it turns away gets its status (R4), in a next state. -/
def Obligations.EveryCommandAnswersANextState : Prop := ∀ (c : Instr) (s : State), ∃ t, exec c s = .next t

/-- The canonical form of the memories is kept by every step from every state. -/
def Obligations.EveryStepKeepsTheMemoryForm : Prop :=
  ∀ s t : State, s.mems.wf = true → step s = .next t → t.mems.wf = true

/-- What no command takes back: `Held.Le`. -/
def Obligations.CommandsTakeNothingBack : Prop :=
  ∀ (c : Instr) (s t : State), exec c s = .next t →
    t.pending = s.pending ∧ t.clock = s.clock ∧ s.sent <+: t.sent ∧ s.fresh ≤ t.fresh ∧ s.pwr.boots ≤ t.pwr.boots ∧
      s.sec.seeds <+: t.sec.seeds ∧ (s.twin.pairedEver = true → t.twin.pairedEver = true)

/-- The state right after power-on reset; `RegId.special` and the table's own reset column give each register's word. -/
def Obligations.ResetLeavesTheTableValues : Prop :=
  (∀ (r : RegId) (i : Nat), State.reset.baseWord r i = r.resetWord i ∧
    State.reset.liveWord r i = r.resetWord i) ∧
  (∀ (r : RegId) (i : Nat) (f : FieldDef), r.special i = 0 → f ∈ r.fields →
    bits (r.resetWord i).toNat f.hi f.lo = f.reset) ∧
  (∀ e : Nat, e < 4096 → State.reset.fld F.EVT_SRC_severity e = evSeverity e) ∧
  State.reset.mems.wf = true ∧ State.reset.mems = ⟨[], [], [], [], [], [], [], [], []⟩ ∧
  State.reset.pending = [] ∧ State.reset.pwr.step = 0 ∧ State.reset.pwr.secUp = false ∧ State.reset.pwr.ctlUp = false ∧
  State.reset.pwr.fabUp = false

/-- R695: what a raise changes and that it counts one occurrence. -/
def Obligations.RaisingAnEventTouchesOnlyTheRecord : Prop :=
  ∀ (s : State) (event sev detail : Nat) (record : Bool), OnlyEvents s (s.raiseSev event sev detail record) ∧
    (event < 4096 → event ≠ Ev.EVT_OVERFLOW → event ≠ Ev.PBOOK_DROPPED →
      (s.raiseSev event sev detail record).fld F.EVT_SRC_count event = min 0xFFFF (s.fld F.EVT_SRC_count event + 1))

/-- R66 steps 1 to 4, R744 to R746, R750: the sequence of power, and where it breaks off. -/
def Obligations.PowerAndRailSequence : Prop :=
  (∀ s : State, s.pwr.aonUp = true → Answers .vddAonFall s fun t =>
    t.pwr.aonUp = false ∧ t.pwr.step = 0 ∧ t.path.held = [] ∧ t.dram.cells = [] ∧ t.core.array = s.core.array ∧
      t.sec.seeds = s.sec.seeds ∧ t.pwr.boots = s.pwr.boots) ∧
  (∀ (s : State) (m : Mains) (part : List Host.Cell), Answers (.powerOnReset m part) s fun t =>
    t.pwr.aonUp = true ∧ t.pwr.step = 1 ∧
      (s.pwr.aonUp = true → t.pwr.secUp = false ∧ t.pwr.ctlUp = false ∧ t.pwr.fabUp = false) ∧
      t.fld F.CLK_STAT_aon_on_rc 0 = 1 ∧ t.fld F.SENT_BULK_count 0 = m.bulk % 4096 ∧
      t.fld F.SENT_STAT_ac_fail 0 = b2n m.ac ∧ t.fld F.SENT_STAT_pwr_ok 0 = b2n m.ok) ∧
  (∀ s : State, s.pwr.aonUp = true → s.pwr.step = 1 → Answers .refclkPresent s fun t =>
    t.pwr.step = 2 ∧ t.fld F.CLK_STAT_refclk_ok 0 = 1 ∧ t.fld F.CLK_STAT_aon_on_rc 0 = 0 ∧
      if s.pwr.railSince + s.fld F.CURT_SEQ_interval (s.pwr.railGroup + 1) * 1000 ≤ s.clock then
        t.pwr.railGroup = s.pwr.railGroup + 1 ∧ t.pwr.railSince = s.clock ∧
          t.sent = s.sent ++ [.pin 6 (s.pwr.railGroup + 1) 1]
      else t.pwr.railGroup = s.pwr.railGroup ∧ t.pwr.railSince = s.pwr.railSince ∧ t.sent = s.sent) ∧
  (∀ (s : State) (strap : Nat), s.pwr.step = 2 → s.pwr.railGroup < 5 →
    s.pwr.railSince + s.fld F.CURT_SEQ_interval (s.pwr.railGroup + 1) * 1000 ≤ s.clock →
    Answers (.railGroupWithinTolerance strap) s fun t =>
      t.pwr.railGroup = s.pwr.railGroup + 1 ∧ t.pwr.railSince = s.clock ∧ t.regs = s.regs ∧
        t.sent = s.sent ++ [.pin 6 (s.pwr.railGroup + 1) 1]) ∧
  (∀ (s : State) (strap : Nat), s.pwr.step = 2 → s.pwr.railGroup = 5 →
    Answers (.railGroupWithinTolerance strap) s fun t =>
      t.pwr.step = 3 ∧ t.pwr.bifStrap = strap % 16 ∧ t.sen.glitchArmed = true ∧ t.sent = s.sent) ∧
  (∀ s : State, s.pwr.step = 2 → s.pwr.railGroup ≠ 0 → s.pwr.railSince + 20000 ≤ s.clock → Answers .railStartFail s fun t =>
    t.pwr.step = 0 ∧ t.pwr.railGroup = 0 ∧ t.sen.glitchArmed = false ∧ ∃ l, t.sent = l ++ [.boardPwrCycle]) ∧
  (∀ s : State, s.pwr.step = 3 → Answers .rootPllLock s fun t =>
    t.pwr.step = 4 ∧ t.sent = s.sent ∧ t.fld F.CLK_STAT_root_lock 0 = 1 ∧ t.fld F.CLK_STAT_ddr_pll_lock 0 = 1 ∧
      t.fld F.CLK_STAT_host_pll_lock 0 = 1 ∧ t.fld F.CLK_STAT_twin_pll_lock 0 = 1)

/-- R52 to R56: REFCLK and the root PLL; R748: a strike cause during the start. -/
def Obligations.ClockLossSequence : Prop :=
  (∀ s : State, s.pwr.aonUp = true → s.fld F.CLK_STAT_refclk_ok 0 = 1 →
    ∃ u : State, exec .refclkLost s = .next (State.settle (u.strike 2)) ∧ u.pwr.refclkBack = none ∧
      u.fld F.CLK_STAT_refclk_ok 0 = 0 ∧ u.fld F.CLK_STAT_refclk_lost 0 = 1 ∧ u.fld F.CLK_STAT_aon_on_rc 0 = 1 ∧
      u.fld F.CLK_STAT_host_pll_lock 0 = 0 ∧ u.fld F.CLK_STAT_twin_pll_lock 0 = 0 ∧
      (s.fld F.CLK_STAT_root_lock 0 = 1 → u.fld F.CLK_STAT_root_lock 0 = 0 ∧ u.fld F.CLK_STAT_holdover 0 = 1)) ∧
  (∀ s : State, s.fld F.CLK_STAT_root_lock 0 = 1 → s.fld F.CLK_STAT_refclk_ok 0 = 1 →
    ∃ u : State, exec .pllUnlock s = .next (State.settle (u.strike 3)) ∧ u.pwr = s.pwr ∧
      u.fld F.CLK_STAT_root_lock 0 = 0 ∧ u.fld F.CLK_STAT_holdover 0 = 1 ∧ u.fld F.CLK_STAT_refclk_ok 0 = 1) ∧
  (∀ s : State, s.inStrike = true → s.sen.strikeOver = false → s.fld F.CURT_STRIKE_cause 0 = 3 →
    s.fld F.CLK_STAT_refclk_ok 0 = 1 → Answers .clkHoldoverFail s fun t =>
      t.sen.strikeOver = true ∧ t.pwr = s.pwr ∧ t.sen.glitchArmed = false ∧ ∃ l, t.sent = l ++ [.boardPwrCycle]) ∧
  (∀ (s : State) (since : Nat), s.inStrike = true → s.sen.strikeOver = true → s.fld F.CURT_STRIKE_cause 0 = 2 →
    s.pwr.refclkBack = some since → since + 10000 ≤ s.clock → Answers .refclkRestored s fun t =>
      t.pwr = { s.pwr with afterRefclk := true } ∧ t.sen.glitchArmed = false ∧
        ∃ l, t.sent = l ++ [.boardPwrCycle]) ∧
  (∀ (s : State) (cause : Nat), s.inStrike = false → s.pwr.step < 8 → s.pwr.warmValid = false →
    (s.strike cause).pwr.step = 0 ∧ (s.strike cause).pwr.railGroup = 0 ∧ (s.strike cause).sen.glitchArmed = false ∧
      ∃ l, (s.strike cause).sent = l ++ [.boardPwrCycle])

/-- R66 steps 5 to 8, R80, R243: the rest of a start; R85, R89: a request of a scene. -/
def Obligations.StartFromBootToFirstScene : Prop :=
  (∀ (s : State) (matched signed : List Nat) (vout : List (Nat × Nat)) (q slot : Nat), s.pwr.step = 4 →
    s.pwr.resetLow = false → (s.fwRedoAll.bootPick matched signed s.fwRedoAll.swapEntries).2 = some (q, slot) →
    ∃ u : State, exec (.bootVerified matched signed vout) s = .next u.runMail ∧
      u.pwr.step = 5 ∧ u.pwr.secUp = true ∧ u.pwr.ctlUp = true ∧ u.pwr.fabUp = true) ∧
  (∀ s : State, s.pwr.step = 5 → Answers .configSetLoad s fun t =>
    t.pwr.step = 6 ∧ (s.newestSet = none → t.pwr.noMem = true)) ∧
  (∀ (s : State) (r : Rehearsed), s.pwr.step = 6 → s.pwr.noMem = false → s.pwr.warmValid = false → s.sen.measured = true →
    popBad r = none → (∀ c, c < 12 → r.trained.contains c = true) → Answers (.powerOnRehearsal r) s fun t =>
      t.pwr.step = 7 ∧ t.scene.waiting.head? = some (.change 0x80 0) ∧ t.fld F.SCENE_STAT_busy 0 = 1) ∧
  (∀ (s : State) (set : Nat) (rest : List Boundary), s.pwr.ctlUp = true → s.pwr.step = 8 →
    s.scene.waiting = .request set :: rest →
    ∃ u : State, exec .sceneBoundary s = .next (State.settle u.sceneJobEnd.sceneJobGo.runMail) ∧
      u = s.nextBoundary ∧ u.fld F.SCENE_STAT_status 0 = St.DONE) ∧
  (∀ (s : State) (value : Nat), s.pwr.ctlUp = true → bitB value 31 = true → s.fld F.SCENE_STAT_busy 0 = 0 →
    Answers (.sceneReq value) s fun t =>
      if s.requestStatus (bits value 8 0) = St.DONE then
        t.scene.waiting = s.scene.waiting ++ [.request (bits value 8 0)] ∧ t.fld F.SCENE_STAT_busy 0 = 1
      else t.scene = s.scene ∧ t.fld F.SCENE_STAT_busy 0 = 0 ∧ t.fld F.SCENE_STAT_status 0 = St.ILLEGAL) ∧
  (∀ (s : State) (value : Nat), bitB value 31 = false ∨ s.fld F.SCENE_STAT_busy 0 = 1 →
    exec (.sceneReq value) s = .next s)

/-- R58, R59, R63, R131, R679, R726, R727, R749: what each kind of reset does and when it is held or discarded. -/
def Obligations.ResetsOfDeviceLinkAndLogicalDevice : Prop :=
  (∀ s : State, s.pwr.resetLow = false → s.pwr.step ≤ 4 →
    exec .sysResetN s = .next { s with pwr := { s.pwr with resetLow := true } }) ∧
  (∀ s : State, s.pwr.resetLow = false → s.pwr.step = 8 → s.inStrike = false → s.inLoadIn = false →
    Answers .sysResetN s fun t => t.pwr.resetLow = true ∧ t.pwr.step = 4 ∧ t.pwr.warmValid = true ∧ t.pwr.secUp = false ∧
      t.pwr.ctlUp = false ∧ t.pwr.fabUp = false ∧ t.path.held = [] ∧ t.path.ingress = [] ∧ t.cache.lines = []) ∧
  (∀ s : State, s.pwr.resetLow = true → s.pwr.step < 4 →
    exec .sysResetNRelease s = .next { s with pwr := { s.pwr with resetLow := false } }) ∧
  (∀ (s : State) (link : Nat), s.inStrike = false → s.inLoadIn = true → 4 < s.pwr.step → s.linkExists link = true →
    s.pwr.ctlUp = true → s.fld F.RST_CTL_cxl_reset_dev 0 = 1 →
      exec .secFault s = .next { s with pwr := { s.pwr with heldReset := some (s.pwr.heldReset.getD 0 ||| 2 ^ 5) } } ∧
      exec (.cxlReset link) s = .next { s with pwr := { s.pwr with heldReset := some (s.pwr.heldReset.getD 0 ||| 2 ^ 6) } } ∧
      (s.pwr.resetLow = false →
        exec .sysResetN s = .next { s with pwr := { s.pwr with heldReset := some (s.pwr.heldReset.getD 0 ||| 2 ^ 3), resetLow := true } })) ∧
  (∀ (s : State) (link : Nat), s.inStrike = true → 4 < s.pwr.step → s.fld F.RST_CTL_cxl_reset_dev 0 = 1 →
      exec .secFault s = .next s ∧ exec (.cxlReset link) s = .next s ∧
      (s.pwr.resetLow = false → exec .sysResetN s = .next { s with pwr := { s.pwr with resetLow := true } })) ∧
  (∀ s : State, 4 ≤ s.pwr.step → s.inStrike = false → s.inLoadIn = false → Answers .secFault s fun t =>
      t.pwr.secUp = false ∧ t.pwr.ctlUp = false ∧ t.pwr.fabUp = false ∧ t.path.held = [] ∧ t.cache.lines = []) ∧
  (∀ (s : State) (mb : Nat) (input : List Byte), s.mailUp = true → input.length = 2 → s.mbAdmin mb = true →
    leAt input 0 2 = 0x5253 →
      (s.inStrike = true → exec (.deviceReset mb input) s = .next (if s.mbLinkUp mb then s.answer mb 0xC002 St.RETRY_LATER [] else s)) ∧
      (s.inStrike = false → s.inLoadIn = true → exec (.deviceReset mb input) s = .next { s with
        pwr := { s.pwr with heldReset := some (s.pwr.heldReset.getD 0 ||| 2 ^ 4) }, sent := s.sent ++ [.mailbox mb 0xC002 .success [0]] }) ∧
      (s.inStrike = false → s.inLoadIn = false → Answers (.deviceReset mb input) s fun t =>
        t.pwr.secUp = false ∧ t.pwr.ctlUp = false ∧ t.pwr.fabUp = false ∧ t.path.held = [] ∧ t.cache.lines = [])) ∧
  (∀ (s : State) (link : Nat), link < 8 → s.linkExists link = true → s.pwr.aonUp = true →
    ∃ u : State, exec (.perstN link true) s = .next u.settle ∧ link ∈ u.pwr.linksInReset ∧
      u.fld F.HPORT_STAT_up link = 0 ∧ u.fld F.HPORT_STAT_ide_secure link = 0 ∧
      (∀ q ∈ u.path.ingress, q.link ≠ link) ∧ (∀ q ∈ u.path.compl, q.link ≠ link)) ∧
  (∀ (s : State) (link : Nat), link < 8 → ∃ u : State, exec (.perstN link false) s = .next u.settle ∧
    u.pwr.linksInReset = s.pwr.linksInReset.filter (fun k => k != link) ∧ u.regs = s.regs) ∧
  (∀ (s : State) (link : Nat), link < 8 → s.linkExists link = true → s.pwr.ctlUp = true →
    s.fld F.RST_CTL_cxl_reset_dev 0 = 0 → ∃ u : State, exec (.cxlReset link) s = .next u.settle ∧
      u.fld F.HPORT_STAT_up link = 0 ∧ u.fld F.HPORT_STAT_ide_secure link = 0 ∧
      (∀ q ∈ u.path.ingress, q.link ≠ link) ∧ (∀ q ∈ u.path.compl, q.link ≠ link)) ∧
  (∀ (s : State) (mb : Nat) (input : List Byte), s.mailUp = true → input.length = 2 → s.mbAdmin mb = true →
    s.linkExists (leAt input 0 1) = true → leAt input 1 1 < s.linkLds (leAt input 0 1) →
    ∃ u v : State, exec (.ldReset mb input) s = .next v.settle ∧ v = u.answer mb 0xC003 St.DONE [] ∧
      (∀ p ∈ u.host.decoders, p.1 / 8 ≠ leAt input 0 1 * 16 + leAt input 1 1) ∧
      (∀ x ∈ u.host.biWaits, x.left ≠ [])) ∧
  (∀ s : State, s.inLoadIn = false → exec .loadInDone s = .next s)

namespace Sys2Proof.Claims

/-- A mailbox command with its opcode, the length of its input, and whether it needs admin rights and is refused when the
controller is fenced (R124, R128, R130). -/
structure MailRow where
  cmd : Nat → List Byte → Instr
  op : Nat
  len : Nat
  admin : Bool
  fence : Bool

/-- The standard commands of R124 whose input has one length. -/
def mailStandardRows : List MailRow :=
  [⟨.identifyMemoryDevice, 0x4000, 0, false, false⟩, ⟨.getHealthInfo, 0x4200, 0, false, false⟩,
   ⟨.getTimestamp, 0x0300, 0, false, false⟩, ⟨.setTimestamp, 0x0301, 8, false, false⟩,
   ⟨.getSupportedLogs, 0x0400, 0, false, false⟩, ⟨.getLog, 0x0401, 24, false, false⟩,
   ⟨.getEventRecords, 0x0100, 1, false, false⟩, ⟨.getEventInterruptPolicy, 0x0102, 0, false, false⟩,
   ⟨.setEventInterruptPolicy, 0x0103, 5, false, false⟩, ⟨.getAlertConfiguration, 0x4201, 0, false, false⟩,
   ⟨.setAlertConfiguration, 0x4202, 12, false, false⟩, ⟨.getPartitionInfo, 0x4100, 0, false, false⟩,
   ⟨.getLsa, 0x4102, 8, false, false⟩, ⟨.getPoisonList, 0x4300, 16, false, false⟩,
   ⟨.getFwInfo, 0x0200, 0, false, false⟩]

/-- The vendor commands of R128 whose input has one length, but for those that carry a job. -/
def mailVendorRows : List MailRow :=
  [⟨.getDeviceInfo, 0xC000, 0, false, false⟩, ⟨.getEpoch, 0xC001, 0, false, false⟩, ⟨.deviceReset, 0xC002, 2, true, false⟩,
   ⟨.ldReset, 0xC003, 2, true, false⟩, ⟨.regionRead, 0xC004, 2, false, false⟩, ⟨.regionWrite, 0xC005, 40, true, true⟩,
   ⟨.accessStage, 0xC006, 144, true, true⟩, ⟨.accessCommit, 0xC007, 0, true, true⟩,
   ⟨.persistBarrier, 0xC008, 2, false, true⟩, ⟨.inkRead, 0xC009, 0, false, false⟩, ⟨.inkLimitSet, 0xC00A, 8, true, true⟩,
   ⟨.sceneSet, 0xC00B, 2, true, false⟩, ⟨.maintStatus, 0xC00D, 4, false, false⟩, ⟨.slotPowerOn, 0xC00F, 2, true, false⟩,
   ⟨.ledLocate, 0xC00F, 2, true, false⟩, ⟨.freezeSnapshot, 0xC010, 1, true, false⟩, ⟨.pbookRead, 0xC012, 10, false, false⟩,
   ⟨.pbookAck, 0xC013, 8, true, false⟩, ⟨.tallyRead, 0xC014, 2, false, false⟩, ⟨.energyRead, 0xC015, 1, false, false⟩,
   ⟨.powerCapSet, 0xC016, 2, true, false⟩, ⟨.keyStatus, 0xC018, 1, false, false⟩, ⟨.twinStatus, 0xC01A, 0, false, false⟩,
   ⟨.queueCreate, 0xC01B, 14, false, true⟩, ⟨.queueDelete, 0xC01C, 2, false, false⟩, ⟨.scriptLoad, 0xC01D, 16, false, true⟩,
   ⟨.scriptUnload, 0xC01E, 2, false, false⟩, ⟨.eventRoute, 0xC01F, 4, false, false⟩]

end Sys2Proof.Claims

/-- R127, R128, R130, R617: what every mailbox command of a fixed length meets before it runs. -/
def Obligations.MailboxCommandsAreHeldMeasuredAndAdmitted : Prop :=
  ∀ r ∈ mailStandardRows ++ mailVendorRows, ∀ (mb : Nat) (input : List Byte) (s : State),
    (s.mailUp = false → exec (r.cmd mb input) s = .next (s.holdMail mb r.op input)) ∧
    (s.mailUp = true → input.length ≠ r.len →
      exec (r.cmd mb input) s = .next (s.send (.mailbox mb r.op .invalidLength []))) ∧
    (s.mailUp = true → input.length = r.len → r.admin = true → s.mbAdmin mb = false →
      exec (r.cmd mb input) s = .next (s.answer mb r.op St.ACCESS_DENIED [])) ∧
    (s.mailUp = true → input.length = r.len → (r.admin = true → s.mbAdmin mb = true) → r.fence = true → s.cmdFenced = true →
      exec (r.cmd mb input) s = .next (s.answer mb r.op St.FENCED []))

/-- R124, R125, R698: the standard commands of the mailbox. Payload layouts are the model's choice (log entry 14). -/
def Obligations.StandardMailboxCommandsAnswer : Prop :=
  ∀ (s : State) (mb : Nat), s.mailUp = true →
  (∃ fw tail, fw.length = 16 ∧ tail.length = 9 ∧ Answers (.identifyMemoryDevice mb []) s fun t =>
    t.regs = s.regs ∧ t.sent = s.sent ++ [.mailbox mb 0x4000 .success (fw ++ leBytes 8 (s.fld F.REGION_CAP_granules 0) ++
      leBytes 8 0 ++ leBytes 8 (s.fld F.REGION_CAP_granules 0) ++ leBytes 8 1 ++ leBytes 2 256 ++ leBytes 2 256 ++
      leBytes 2 256 ++ leBytes 2 256 ++ leBytes 4 0x20000 ++ tail)]) ∧
  (∃ h rest, h.length = 1 ∧ rest.length = 16 ∧ Answers (.getHealthInfo mb []) s fun t =>
    t.regs = s.regs ∧ t.sent = s.sent ++ [.mailbox mb 0x4200 .success (h ++ leBytes 1 (b2n (!s.mediaReady)) ++ rest)]) ∧
  exec (.getTimestamp mb []) s = .next (s.send (.mailbox mb 0x0300 .success
    (leBytes 8 ((s.mbox mb).timestamp + (s.clock - (s.mbox mb).timeSetAt) * 1000)))) ∧
  (∀ input : List Byte, input.length = 8 → Answers (.setTimestamp mb input) s fun t =>
    (t.mbox mb).timestamp = leAt input 0 8 ∧ (t.mbox mb).timeSetAt = s.clock ∧ (∀ k, k ≠ mb → t.mbox k = s.mbox k) ∧
      t.sent = s.sent ++ [.mailbox mb 0x0301 .success []]) ∧
  (∃ bs, bs.length = 20 ∧ Answers (.getSupportedLogs mb []) s fun t => t.regs = s.regs ∧
    t.sent = s.sent ++ [.mailbox mb 0x0400 .success (leBytes 2 1 ++ leBytes 6 0 ++ bs)]) ∧
  (∀ input : List Byte, input.length = 24 → leAt input 20 4 ≤ 4096 → ∃ bs, bs.length = leAt input 20 4 ∧
    Answers (.getLog mb input) s fun t => t.regs = s.regs ∧ t.sent = s.sent ++ [.mailbox mb 0x0401 .success bs]) ∧
  (∀ input : List Byte, input.length = 1 → leAt input 0 1 ≤ 3 → ∀ l, l = s.ldLog ((s.mbLd mb).getD mb) (leAt input 0 1) →
    exec (.getEventRecords mb input) s = .next (s.send (.mailbox mb 0x0100 .success
      (leBytes 1 (b2n (decide (0 < l.lost)) + 2 * b2n (decide (31 < l.recs.length))) ++ leBytes 1 0 ++ leBytes 2 l.lost ++
        leBytes 16 0 ++ leBytes 2 (l.recs.take 31).length ++ leBytes 10 0 ++ (l.recs.take 31).flatMap CoreEntry.record)))) ∧
  (∀ input : List Byte, 6 ≤ input.length → input.length = 6 + 2 * leAt input 2 1 → leAt input 0 1 ≤ 3 →
    bitB (leAt input 1 1) 0 = true → Answers (.clearEventRecords mb input) s fun t =>
      t.ldLog ((s.mbLd mb).getD mb) (leAt input 0 1) = ⟨[], 0⟩ ∧
        (∀ n sev, n * 4 + sev ≠ (s.mbLd mb).getD mb * 4 + leAt input 0 1 → t.ldLog n sev = s.ldLog n sev) ∧
        t.sent = s.sent ++ [.mailbox mb 0x0101 .success []]) ∧
  exec (.getEventInterruptPolicy mb []) s = .next (s.send (.mailbox mb 0x0102 .success (leBytes 5 (s.mbox mb).eventPolicy))) ∧
  (∀ input : List Byte, input.length = 5 → Answers (.setEventInterruptPolicy mb input) s fun t =>
    t.mbox mb = { s.mbox mb with eventPolicy := leAt input 0 5 } ∧ (∀ k, k ≠ mb → t.mbox k = s.mbox k) ∧
      t.sent = s.sent ++ [.mailbox mb 0x0103 .success []]) ∧
  exec (.getAlertConfiguration mb []) s = .next (s.send (.mailbox mb 0x4201 .success (leBytes 16 (s.mbox mb).alerts))) ∧
  (∀ input : List Byte, input.length = 12 → Answers (.setAlertConfiguration mb input) s fun t =>
    t.mbox mb = { s.mbox mb with alerts := leAt input 0 12 } ∧ (∀ k, k ≠ mb → t.mbox k = s.mbox k) ∧
      t.sent = s.sent ++ [.mailbox mb 0x4202 .success []]) ∧
  exec (.getPartitionInfo mb []) s = .next (s.send (.mailbox mb 0x4100 .success (leBytes 8 0 ++
    leBytes 8 (s.fld F.REGION_CAP_granules 0) ++ leBytes 8 0 ++ leBytes 8 (s.fld F.REGION_CAP_granules 0)))) ∧
  (∀ input : List Byte, input.length = 8 → leAt input 4 4 ≤ 4096 → leAt input 0 4 + leAt input 4 4 ≤ 0x20000 →
    exec (.getLsa mb input) s = .next (s.send (.mailbox mb 0x4102 .success
      (memReadN 0 s.host.lsa (mb * 0x20000 + leAt input 0 4) (leAt input 4 4))))) ∧
  (∀ input : List Byte, 8 ≤ input.length → leAt input 0 4 + (input.length - 8) ≤ 0x20000 →
    Answers (.setLsa mb input) s fun t => t.sent = s.sent ++ [.mailbox mb 0x4103 .success []] ∧ t.regs = s.regs ∧
      t.host.lsa = memWriteN 0 s.host.lsa (mb * 0x20000 + leAt input 0 4) (input.drop 8)) ∧
  (∀ input : List Byte, input.length = 16 → ∃ lost : List Nat,
    (∀ f, f ∈ lost ↔ ∃ x, (f, x) ∈ s.ink.folios ∧ x.lost = true ∧ leAt input 0 8 ≤ f * 65536 ∧
      f * 65536 < leAt input 0 8 + leAt input 8 8 * 64) ∧
    exec (.getPoisonList mb input) s = .next (s.send (.mailbox mb 0x4300 .success
      (leBytes 1 (b2n (decide (254 < lost.length))) ++ leBytes 1 0 ++ leBytes 8 0 ++ leBytes 2 (lost.take 254).length ++
        leBytes 20 0 ++ (lost.take 254).flatMap (fun f => leBytes 8 (f * 65536) ++ leBytes 4 1024 ++ leBytes 4 0))))) ∧
  (∀ opcode : Nat, exec (.mailboxUnsupported mb opcode) s = .next (s.send (.mailbox mb opcode .unsupported [])))

/-- R128: the commands that report. The stepping is a free value (log entry 12). -/
def Obligations.VendorReportsAnswerDone : Prop :=
  ∀ (s : State) (mb : Nat), s.mailUp = true →
  exec (.getDeviceInfo mb []) s = .next (s.answer mb 0xC000 St.DONE ([Config.stepping] ++ leBytes 1 s.role ++ leBytes 1 0 ++
    leBytes 4 s.epoch ++ leBytes 2 (s.fld F.SCENE_ACTIVE_set 0) ++ leBytes 6 0 ++
    leBytes 8 (s.fld F.REGION_CAP_granules 0 * 268435456) ++ leBytes 8 (s.fld F.INK_CNT_ink 0 * 65536) ++
    leBytes 8 (s.fld F.INK_CEIL_ceiling 0 * 65536))) ∧
  exec (.getEpoch mb []) s = .next (s.answer mb 0xC001 St.DONE (leBytes 1 s.role ++ leBytes 2 0 ++ leBytes 4 s.epoch ++
    leBytes 4 (s.readWord .TWIN_LEASE 0))) ∧
  (∀ input : List Byte, input.length = 2 → leAt input 0 2 < 4096 →
    exec (.regionRead mb input) s = .next (s.answer mb 0xC004 St.DONE (leBytes 7 0 ++
      (leBytes 8 (s.regionWord true (leAt input 0 2) 0) ++ (leBytes 8 (s.regionWord true (leAt input 0 2) 1) ++
        (leBytes 8 (s.regionWord true (leAt input 0 2) 2) ++ leBytes 8 (s.regionWord true (leAt input 0 2) 3))))))) ∧
  exec (.inkRead mb []) s = .next (s.answer mb 0xC009 St.DONE (leBytes 7 0 ++ leBytes 8 (s.fld F.INK_CNT_ink 0 * 65536) ++
    leBytes 8 (s.fld F.INK_LIMIT_limit 0 * 65536) ++ leBytes 8 ((s.liveWord .CURT_INK 0).toNat * 65536) ++
    leBytes 8 (s.fld F.BLOT_STAT_rate 0))) ∧
  (∀ input : List Byte, input.length = 1 → exec (.energyRead mb input) s = .next (s.answer mb 0xC015 St.DONE
    (leBytes 7 0 ++ leBytes 8 ((s.liveWord .SENT_METER (2 * leAt input 0 1)).toNat +
      (s.liveWord .SENT_METER (2 * leAt input 0 1 + 1)).toNat * 4294967296)))) ∧
  exec (.twinStatus mb []) s = .next (s.answer mb 0xC01A St.DONE (leBytes 1 s.role ++ leBytes 1 (s.fld F.TWIN_STAT_link 0) ++
    leBytes 1 0 ++ leBytes 4 s.epoch ++ leBytes 4 (bits (s.readWord .TWIN_LAG 0) 15 0) ++
    leBytes 4 (s.fld F.TWIN_STAT_progress 0))) ∧
  (∀ input : List Byte, input.length = 4 → exec (.maintStatus mb input) s = .next (match s.job (leAt input 0 4) with
    | some j => s.answer mb 0xC00D St.DONE (leBytes 1 j.state ++ leBytes 1 j.status ++ leBytes 1 j.progress)
    | none => s.answer mb 0xC00D St.ILLEGAL [])) ∧
  (∀ input : List Byte, input.length = 1 → exec (.keyStatus mb input) s = .next (s.answer mb 0xC018 St.DONE
    (leBytes 1 (s.fld F.SEC_SLOT_state (leAt input 0 1)) ++ leBytes 2 0 ++
      leBytes 4 (satTo 16 (s.slotUses (leAt input 0 1)))))) ∧
  (∀ input : List Byte, input.length = 1 → leAt input 0 1 < 12 → s.mbAdmin mb = true →
    exec (.freezeSnapshot mb input) s = .next (State.answer
      (if s.chanFrozen (leAt input 0 1) = true then s.setFlag F.DMC_STAT_snap_read (leAt input 0 1) true else s)
      mb 0xC010 St.DONE (leBytes 3 0 ++ leBytes 4 256 ++ (s.snapWords (leAt input 0 1)).flatMap (leBytes 4)))) ∧
  (∀ input : List Byte, input.length = 10 → ∃ rs : List PbRecord, rs.length ≤ 7 ∧ rs.length ≤ leAt input 8 2 ∧
    (∀ r ∈ rs, ∃ q, (q, r) ∈ s.pbAll ∧ leAt input 0 8 ≤ q) ∧
    exec (.pbookRead mb input) s = .next ((s.pbMarkRead (rs.map (fun r => r.seq))).answer mb 0xC012 St.DONE
      (leBytes 1 rs.length ++ leBytes 6 0 ++ rs.flatMap PbRecord.bytes))) ∧
  (∀ input : List Byte, input.length = 2 → leAt input 0 2 ≤ 0x1FF →
    exec (.tallyRead mb input) s = .next ((s.tallySnap (leAt input 0 2)).answer mb 0xC014 St.DONE
      (leBytes 7 0 ++ (mapGet Tally.empty s.pb.tallies (leAt input 0 2)).bytes)))

/-- R102, R135, R172, R198, R606, R698, R712, R721, R766. -/
def Obligations.MailboxTablesInkRecordsAndRouting : Prop :=
  (∀ (s : State) (mb : Nat) (input : List Byte), s.mailUp = true → s.mbAdmin mb = true → s.cmdFenced = false →
    (input.length = 40 → leAt input 0 2 < 4096 → exec (.regionWrite mb input) s = .next
      ((s.setTabEntry false 0 (leAt input 0 2) [leAt input 8 8, leAt input 16 8, leAt input 24 8]).answer mb 0xC005 St.DONE [])) ∧
    (input.length = 144 → exec (.accessStage mb input) s = .next ((s.setTabEntry false 2 (leAt input 0 1)
      ((upto 17).map (fun w => leAt input (8 + 8 * w) 8))).answer mb 0xC006 St.DONE [])) ∧
    (input.length = 0 → exec (.accessCommit mb input) s = .next (if s.region.commit.isSome = true then
      s.answer mb 0xC007 St.RETRY_LATER [] else State.settle (s.startCommit (.mailbox mb)))) ∧
    (input.length = 2 → ∃ u : State, exec (.persistBarrier mb input) s = .next u.settle ∧ u.path = s.path ∧
      u.host.barriers = s.host.barriers ++ [(mb, leAt input 0 2, s.path.nextAcc)]) ∧
    (input.length = 8 → ∃ u : State, exec (.inkLimitSet mb input) s = .next (u.answer mb 0xC00A St.DONE (leBytes 7 0 ++
      leBytes 8 (u.fld F.INK_CEIL_ceiling 0 * 65536))) ∧ u = State.settle (s.setInkLimit (leAt input 0 8 / 65536))) ∧
    (input.length = 2 → Answers (.powerCapSet mb input) s fun t =>
      t.fld F.SENT_PCAP_cap 0 = max 60 (min 110 (leAt input 0 2)) ∧
        t.sent = s.sent ++ [.mailbox mb 0xC016 .success (0 :: 0 :: leBytes 2 (max 60 (min 110 (leAt input 0 2))))]) ∧
    (input.length = 8 → Answers (.pbookAck mb input) s fun t => ∃ l, t.sent = l ++
      [.mailbox mb 0xC013 .success [BitVec.ofNat 8 (s.pbAck (leAt input 0 8)).1]])) ∧
  (∀ (s : State) (value : Nat), exec (.accCommit value) s = .next
    (if bitB value 31 = true ∧ s.region.commit = none then State.settle (s.startCommit .core) else s)) ∧
  (∀ s : State, s.region.commit = none → s.region.queued = [] → exec .commitEdge s = .next s.settle) ∧
  (∀ (s : State) (value : Nat), exec (.inkLimitWrite value) s = .next (State.settle (s.setInkLimit (value % 2 ^ 21)))) ∧
  (∀ (s : State) (value : Nat), Answers (.sentPcap value) s fun t =>
    t.fld F.SENT_PCAP_cap 0 = max 60 (min 110 (value % 128)) ∧ t.sent = s.sent) ∧
  (∀ mb : Nat, mb < 128 → ∀ s : State, s.mbLd mb = some mb) ∧
  (∀ (s : State) (mb n : Nat) (input : List Byte), s.mailUp = true → input.length = 4 → s.mbLd mb = some n →
    leAt input 0 2 < 4096 →
    leAt input 2 1 < 64 → evIsAssigned (leAt input 0 2) = true → Answers (.eventRoute mb input) s fun t =>
      mapGet 0 t.evt.routes (n * 4096 + leAt input 0 2) = (if leAt input 3 1 = 0 then 0 else 128) + leAt input 2 1 ∧
        (∀ k, k ≠ n * 4096 + leAt input 0 2 → mapGet 0 t.evt.routes k = mapGet 0 s.evt.routes k) ∧
        t.evt.logs = s.evt.logs ∧ t.sent = s.sent ++ [.mailbox mb 0xC01F .success [0]]) ∧
  (∀ (s : State) (value : Nat), Answers (.pbookAckHi value) s fun t => (t.liveWord .PBOOK_ACK_STAT 0).toNat =
    ((s.setLive .PBOOK_ACK_HI 0 value).pbAck (value % 2 ^ 32 * 2 ^ 32 + (s.liveWord .PBOOK_ACK_LO 0).toNat)).1) ∧
  (∀ (s : State) (index : Nat), exec (.tallySnap index) s = .next (s.tallySnap (index % 512))) ∧
  (∀ (s : State) (index : Nat) (snap : Bool), Answers (.tallyClear index snap) s fun t =>
    mapGet Tally.empty t.pb.tallies (index % 512) = Tally.empty ∧ t.pb.ring = s.pb.ring ∧
      (∀ k, k ≠ index % 512 → mapGet Tally.empty t.pb.tallies k = mapGet Tally.empty s.pb.tallies k)) ∧
  (∀ (s : State) (value : Nat), bitB value 31 = false → exec (.pbookFire value) s = .next s) ∧
  (∀ (s : State) (value : Nat), bitB value 31 = true → s.pb.ring.length < 8192 → s.pb.writer.length < 64 →
    s.fld F.EVT_SRC_core Ev.PBOOK_FIRED = 0 → s.evt.routes = [] → Answers (.pbookFire value) s fun t =>
    ∃ r, mapGet? t.pb.ring (freeSlotFrom 0 s.pb.ring) = some r ∧ r.event = Ev.PBOOK_FIRED ∧ r.kind = 2 ∧
      r.trigger = value % 256 ∧ r.seq = s.pbSeq ∧ r.start = s.pb.start) ∧
  (∀ (s : State) (slot : Nat), slot < 2048 → Answers (.ringTailRead slot) s fun t => t.regs = s.regs ∧
    match mapGet? s.pb.ring (s.fld F.PBOOK_WIN_page 0 * 2048 + slot) with
    | some r => t = (s.pbMarkRead [r.seq]).send (.ctlRead (0x2900000 + slot * 512 + 504) r.seq)
    | none => t = s.send (.ctlRead (0x2900000 + slot * 512 + 504) 0))

/-- R36: unassigned offsets of the control aperture. -/
def Obligations.UnassignedApertureOffsets : Prop :=
  Ev.CTL_UNMAPPED = 0x010 ∧
  ∀ (s : State) (off value : Nat), s.pwr.ctlUp = true → offAssigned off = false →
    exec (.ctlUnmapped off false) s = .next ((s.raiseD Ev.CTL_UNMAPPED off).send (.ctlRead off 0)) ∧
    exec (.ctlUnmapped off true) s = .next (s.raiseD Ev.CTL_UNMAPPED off) ∧
    exec (.registerWrite off value) s = .next (s.raiseD Ev.CTL_UNMAPPED off)

/-- R2, R72: the access codes, of every register and field; `w1cWhole` names the registers whose tables say that any 1 clears a
W1C field whole. -/
def Obligations.RegisterFieldsFollowTheirAccessCodes : Prop :=
  (∀ (s : State) (off v : Nat) (r : RegId) (i : Nat), s.pwr.ctlUp = true → offAssigned off = true → shadowAt off = none →
    regAt (off / 4 * 4) = some (r, i) → s.writeShut r i = false → startWrite r i (v % 2 ^ 32) s = none →
    r ≠ .PBOOK_ACK_LO → r ≠ .STC_CTL → r ≠ .STC_DUTY → r ≠ .DMC_CTL → r ≠ .SCACHE_CTL →
    r ≠ .HPORT_CFG →
    exec (.registerWrite off v) s = .next (s.regWrite r i (v % 2 ^ 32))) ∧
  (∀ (s : State) (r : RegId) (i v : Nat) (f : FieldDef), f ∈ r.fields →
    let t := s.regWrite r i v
    { t with regs := s.regs } = s ∧
    (∀ (q : RegId) (j : Nat), q.off j ≠ r.off i → t.liveWord q j = s.liveWord q j ∧ t.baseWord q j = s.baseWord q j) ∧
    (f.acc = .rw → bits (t.liveWord r i).toNat f.hi f.lo = bits v f.hi f.lo ∧
      bits (t.baseWord r i).toNat f.hi f.lo = bits v f.hi f.lo) ∧
    (f.acc ∈ [Access.ro, .roc, .wo, .rws] → bits (t.liveWord r i).toNat f.hi f.lo = bits (s.liveWord r i).toNat f.hi f.lo) ∧
    (f.acc = .w1c → r.w1cWhole = true → bits (t.liveWord r i).toNat f.hi f.lo =
      if bits v f.hi f.lo = 0 then bits (s.liveWord r i).toNat f.hi f.lo else 0) ∧
    (f.acc = .w1c → r.w1cWhole = false → ∀ j, f.lo ≤ j → j ≤ f.hi →
      bitB (t.liveWord r i).toNat j = (bitB (s.liveWord r i).toNat j && !bitB v j)) ∧
    (f.acc = .rws → bits (t.baseWord r i).toNat f.hi f.lo = if s.regs.rwsTaken.contains (r.off i) = true then
      bits (s.baseWord r i).toNat f.hi f.lo else bits v f.hi f.lo))

/-- R93, R99, R119, R121, R135, R138 to R140, R150, R158: the commands at a host link. -/
def Obligations.HostLinksComeUpAndGoDown : Prop :=
  (∀ (s : State) (link width speed : Nat) (lo cxl : Bool), s.linkExists link = true → s.fld F.HPORT_CFG_enable link = 1 →
    link ∉ s.pwr.linksInReset → s.fld F.HPORT_STAT_frozen link = 0 → width ∈ [1, 2, 4, 8, 16] →
    width ≤ (if s.share link = 16384 then 16 else 8) → 1 ≤ speed → speed ≤ 6 → (lo = true → speed = 6) →
    ∃ u : State, exec (.linkUp link width speed lo cxl) s = .next u.settle ∧ u.path = s.path ∧ u.host = s.host ∧
      u.fld F.HPORT_STAT_up link = 1 ∧ u.fld F.HPORT_STAT_width link = width ∧ u.fld F.HPORT_STAT_speed link = speed ∧
      u.fld F.HPORT_STAT_flit_lo link = lo.toNat ∧ u.fld F.HPORT_STAT_cxl link = cxl.toNat ∧
      (cxl = true → s.fld F.HPORT_STAT_up link = 0 ∨ s.fld F.HPORT_STAT_cxl link = 0 → ∃ v : State, u = v.raise (0x108 + link))) ∧
  (∀ (s : State) (link : Nat), link < 8 → s.fld F.HPORT_STAT_up link = 1 → Answers (.linkDown link) s fun t =>
    t.fld F.HPORT_STAT_up link = 0 ∧ t.fld F.HPORT_STAT_width link = 0 ∧ t.fld F.HPORT_STAT_speed link = 0 ∧
      t.fld F.HPORT_STAT_cxl link = 0 ∧ t.path = s.path ∧ t.dram = s.dram ∧ ∃ v : State, t = v.raise (0x100 + link)) ∧
  (∀ (s : State) (link : Nat), s.linkExists link = false → exec (.ideIntegrityFail link) s = .next s) ∧
  (∀ (s : State) (link : Nat), s.linkExists link = true → Answers (.ideIntegrityFail link) s fun t =>
    t.fld F.HPORT_STAT_ide_secure link = 0 ∧ t.link link = { s.link link with withheld := true } ∧ t.path = s.path ∧
      ∃ v : State, t = v.raiseD 0x118 link) ∧
  (∀ (s : State) (link : Nat), exec (.gpfPhase1 link) s = .next (s.send (.gpfDone link 1))) ∧
  (∀ (s : State) (link : Nat), s.inStrike = false →
    exec (.gpfPhase2 link) s = .next (if s.fld F.HPORT_CFG_gpf_en link = 0 then
      (s.send (.gpfDone link 2)).raise 0x120
      else (s.setLink link { s.link link with gpf := some s.path.nextAcc }).settle)) ∧
  (∀ (s : State) (link protocol : Nat), ((s.link link).doe = none →
      (protocol ≤ 4 →
        exec (.doeRequest link protocol false) s = .next (s.setLink link { s.link link with doe := some protocol })) ∧
      exec (.doeRequest link protocol true) s = .next s) ∧
    (∀ p, (s.link link).doe = some p →
      exec (.doeRequest link protocol false) s = .next (s.send (.doe link 0xFF [])) ∧
      (p = 0 → exec (.doeRequest link protocol true) s =
        .next ((s.setLink link { s.link link with doe := none }).send (.doe link 0 [0, 1, 2, 3, 4]))) ∧
      (p = 3 → exec (.doeRequest link protocol true) s = .next ((s.setLink link { s.link link with doe := none }).send
        (.doe link 3 (s.cdat link)))))) ∧
  (∀ (s : State) (link ndr drs : Nat), exec (.s2mCreditReturn link ndr drs) s = .next (s.setLink link { s.link link with
      ndr := min (if s.share link = 16384 then 1024 else 512) ((s.link link).ndr + ndr)
      drs := min (if s.share link = 16384 then 1024 else 512) ((s.link link).drs + drs) }).settle) ∧
  (∀ (s : State) (cls stage : Nat), exec (.classStarved cls stage) s = .next (
    if s.waitsSince cls stage (s.clock - 1000) = true ∧ ∀ t ∈ mapGet? s.path.starvedAt cls, t + 1000000 ≤ s.clock then
      ({ s with path := { s.path with starvedAt := mapSet s.path.starvedAt cls s.clock } }).raiseD 0x304
        (cls * 256 + stage)
    else s)) ∧
  (∀ s : State, exec .boundedGateClosed s = .next s.settle ∧
    s.boundedGate.fld F.TRK_STAT_bounded_gate 0 = s.boundedOld.toNat)

/-- R25, R105, R106, R115 to R117, R154, R311, R314, R315, R388: requests of the hosts and what ends them. -/
def Obligations.HostRequestsAndTheirEnds : Prop :=
  (∀ (s : State) (link key hpa tag : Nat) (own : Bool), s.linkServes link = true → s.ingressRoom link false = true →
    s.fld F.HPORT_STAT_ide_secure link = 0 → mapGet? s.dram.erroneous ((s.hdmTranslate (s.hdmDevice link key) hpa).getD hpa / 64) = none →
    exec (.hostLoad link key hpa tag own .none) s = .next (s.atIngress
      ⟨link, key, hpa, tag, false, own, 0, 0, s.clock, s.flag F.HPORT_CFG_ide_req link, false⟩).settle.runBells ∧
    exec (.hostLoad link key hpa tag own .bufferUe) s = .next ((s.raiseD 0xF21
      ((s.hdmTranslate (s.hdmDevice link key) hpa).getD hpa / 64 * 64)).atIngress
        ⟨link, key, hpa, tag, false, own, 0, 0, s.clock, s.flag F.HPORT_CFG_ide_req link, true⟩).settle.runBells) ∧
  (∀ (s : State) (link key hpa tag mask : Nat) (data : Line), s.linkServes link = true → s.ingressRoom link true = true →
    s.fld F.HPORT_STAT_ide_secure link = 0 → mapGet? s.dram.erroneous ((s.hdmTranslate (s.hdmDevice link key) hpa).getD hpa / 64) = none →
    exec (.hostStore link key hpa tag mask data .none) s = .next (s.atIngress
      ⟨link, key, hpa, tag, true, false, mask % 2 ^ 64, data, s.clock, s.flag F.HPORT_CFG_ide_req link, false⟩).settle.runBells) ∧
  (∀ (s : State) (link key hpa tag mask : Nat) (own : Bool) (data : Line) (e : PathErr), s.linkServes link = false →
    exec (.hostLoad link key hpa tag own e) s = .next s ∧ exec (.hostStore link key hpa tag mask data e) s = .next s) ∧
  (∀ (s : State) (r : Req) (link key hpa tag : Nat), s.path.held = [r] → r.src = .host link key hpa tag →
    r.isStore = false → r.bound ≤ s.clock →
    (r.gate = .applied → exec .holdPoison s = .next ((s.poisonLoad r 0).raiseD 0x303 r.dpa).settle) ∧
    (r.gate = .staging → exec .stallBoundPoison s = .next ((s.poisonLoad r 0).raiseD 0xA09 r.dpa).settle)) ∧
  (∀ s : State, (∀ r ∈ s.path.held, s.clock < r.bound) →
    exec .holdPoison s = .next s.settle ∧ exec .stallBoundPoison s = .next s.settle) ∧
  (∀ (s : State) (link key line : Nat), ∃ u : State, exec (.birsp link key line) s = .next u.settle ∧
    (∀ w ∈ u.host.biWaits, w.left ≠ [] ∧ (w.line = line → { link := link, key := key } ∉ w.left)) ∧
    (∀ a ∈ u.path.applied, ∀ w ∈ s.host.biWaits, w.line = line → (∀ h ∈ w.left, h = { link := link, key := key }) →
      line ∉ a.bi) ∧ u.dram = s.dram ∧ u.regs = s.regs) ∧
  (∀ (s : State) (w : BiWait), s.host.biWaits = [w] → exec .biSlow s = .next (if w.warned + 1000 ≤ s.clock then
    ({ s with host := { s.host with biWaits := [{ w with warned := w.warned + 1000 }] } }).raiseD 0x112 (w.line * 64)
    else s)) ∧
  (∀ (s : State) (r : ReadJob) (fixed : Nat) (ff : FlashFolio), s.readOf r.folio r.cls = some r → r.missing = false →
    s.leafMissing r.quire r.leaf = false → r.cls < 8 → s.inRepair r.folio = false → (s.folio r.folio).state = .staging →
    mapGet? s.flash.store ((r.quire * 16 + r.leaf) * 4 + r.slot) = some ff →
    exec (.leafReadDone r.folio r.cls .good .good fixed false) s = .next (((s.dropRead r).addSat F.FLASH_LDPC_CNT_corrected
      (2 * adSlot (s.readLeaf r) + bits (s.readLeaf r) 27 27) fixed).fillFolio r.folio ff.cells).settle) ∧
  (∀ (s : State) (r : ReadJob) (recon : ReadEnd), s.readOf r.folio r.cls = some r → r.cls < 9 →
    r.since + r.slowMs * 1000 ≤ s.clock →
    exec (.slowReadAbandon r.folio r.cls recon) s = .next
      (((((s.dropRead r).slowEvent (s.readLeaf r)).reconstruct r recon).flashRegs).settle)) ∧
  (∀ (s : State) (folio cls : Nat) (out recon : ReadEnd) (fixed : Nat) (b : Bool), s.readOf folio cls = none →
    exec (.leafReadDone folio cls out recon fixed b) s = .next s ∧ exec (.slowReadAbandon folio cls recon) s = .next s)

/-- R108 to R113. -/
def Obligations.HdmDecodersAndDynamicCapacity : Prop :=
  (∀ (s : State) (dev index base size skip ways gran : Nat) (lock : Bool), Answers (.hdmCommit dev index base size skip ways gran lock) s fun t =>
    let ok := index < 8 ∧ ways ∈ [1, 2, 4, 8, 16, 3, 6, 12] ∧ gran ∈ [256, 512, 1024, 2048, 4096, 8192, 16384] ∧
      size % 0x10000000 = 0 ∧ skip % 0x10000000 = 0 ∧ 0 < size ∧
      ¬ ∃ d, mapGet? s.host.decoders (dev * 8 + index) = some d ∧ d.committed = true ∧ d.lock = true
    (ok → mapGet? t.host.decoders (dev * 8 + index) = some ⟨true, lock, base, size, skip, ways, gran⟩ ∧ t.sent = s.sent ++ [.hdm dev index true] ∧
        ∀ k, k ≠ dev * 8 + index → mapGet? t.host.decoders k = mapGet? s.host.decoders k) ∧
    (¬ ok → t = s.send (.hdm dev index false))) ∧
  (∀ (s : State) (dev index : Nat) (d : Hdm), mapGet? s.host.decoders (dev * 8 + index) = some d →
    (d.lock = true → exec (.hdmUncommit dev index) s = .next s) ∧
    (d.lock = false → Answers (.hdmUncommit dev index) s fun t => mapGet? t.host.decoders (dev * 8 + index) = none ∧
      t.path = s.path ∧ t.regs = s.regs)) ∧
  (∀ (s : State) (dev base limit rights : Nat), (s.dcRoom dev base limit = true →
      base ≤ limit → rights < 8 → exec (.addCapacity dev base limit rights) s = .next (if s.region.commit = none then
        (s.startCommit (.dcAdd dev base limit rights)).settle
        else ({ s with region := { s.region with queued := s.region.queued ++ [Committer.dcAdd dev base limit rights] } }).settle)) ∧
    (4096 ≤ (s.dcOut dev).length →
      exec (.addCapacity dev base limit rights) s = .next (s.send (.capacity dev base limit true false))) ∧
    (∀ xs, s.dcOut dev = xs → xs.length < 4096 → s.dcRegions xs = [] → s.dcRoom dev base limit = true)) ∧
  (∀ (s : State) (dev base limit : Nat), exec (.releaseCapacity dev base limit) s = .next (if s.region.commit = none then
        (s.startCommit (.dcRelease dev base limit 0 0)).settle
        else ({ s with region := { s.region with queued := s.region.queued ++ [Committer.dcRelease dev base limit 0 0] } }).settle) ∧
    (s.region.commit = none → (dev, base, limit) ∉ s.host.extents →
      exec (.releaseCapacity dev base limit) s = .next (s.send (.capacity dev base limit false false)).settle))

/-- R653, R654, R665: SPDM requests. Response and error codes are log entry 50's. -/
def Obligations.SpdmNegotiationAndSessions : Prop :=
  (∀ (s : State) (n : Nat), (s.freeBytes n).1.length = n) ∧
  (∀ (s : State) (ch : Nat), s.spdmUp ch = true →
    Answers (.getVersion ch) s (fun t => t.connStage ch = 1 ∧ (∀ x ∈ t.sec.sessions, x.chan ≠ ch) ∧
      t.sent = s.sent ++ [.spdm ch 0x04 [0, 2, 0x00, 0x12, 0x00, 0x13]]) ∧
    exec (.spdmUnsupported ch) s = .next (s.send (.spdm ch 0x7F [0x07, 0])) ∧
    (1 ≤ s.connStage ch → Answers (.getCapabilities ch) s fun t => t.connStage ch = 2) ∧
    (s.connStage ch < 1 → exec (.getCapabilities ch) s = .next (s.send (.spdm ch 0x7F [0x04, 0]))) ∧
    (2 ≤ s.connStage ch → Answers (.negotiateAlgorithms ch true) s (fun t => t.connStage ch = 3) ∧
      exec (.negotiateAlgorithms ch false) s = .next (s.send (.spdm ch 0x7F [0x01, 0]))) ∧
    (s.connStage ch < 3 → exec (.getDigests ch) s = .next (s.send (.spdm ch 0x7F [0x04, 0])))) ∧
  (∀ (s : State) (ch : Nat), s.spdmUp ch = true → 3 ≤ s.connStage ch →
    exec (.getDigests ch) s = .next ((s.freeBytes 64).2.send (.spdm ch 0x01 (s.freeBytes 64).1)) ∧
    (∀ slot off n : Nat, exec (.getCertificate ch slot off n) s = .next (if slot ≠ 0 ∨ 65536 < off + n then
      s.send (.spdm ch 0x7F [0x01, 0]) else (s.freeBytes n).2.send (.spdm ch 0x02 (s.freeBytes n).1))) ∧
    (∀ slot : Nat, exec (.challenge ch slot) s = .next (if slot ≠ 0 then
      s.send (.spdm ch 0x7F [0x01, 0]) else (s.freeBytes 224).2.send (.spdm ch 0x03 (s.freeBytes 224).1))) ∧
    (∀ i : Nat, 1 ≤ i → i ≤ 8 → exec (.getMeasurements ch i false) s = .next (s.send (.spdm ch 0x60 ([1] ++ s.measBlock i)))) ∧
    exec (.getMeasurements ch 0xFF false) s =
      .next (s.send (.spdm ch 0x60 ([8] ++ [1, 2, 3, 4, 5, 6, 7, 8].flatMap s.measBlock))) ∧
    (∀ n : Nat, n = (if ch = 9 then 2 else 4) →
      ((s.sec.sessions.filter (fun x => x.chan == ch)).length < n → s.sec.sessions.length < 32 →
        Answers (.keyExchange ch true) s fun t => t.sec.sessions = s.sec.sessions ++ [⟨ch, s.sec.nextSession, false, false, 0⟩] ∧
          t.sec.nextSession = s.sec.nextSession + 1) ∧
      (n ≤ (s.sec.sessions.filter (fun x => x.chan == ch)).length ∨ 32 ≤ s.sec.sessions.length →
        exec (.keyExchange ch true) s = .next (s.send (.spdm ch 0x7F [0x0A, 0]))))) ∧
  (∀ (s : State) (ch id : Nat) (x : SpdmSession), s.spdmUp ch = true → 3 ≤ s.connStage ch → s.session ch id = some x →
    (x.finished = false → (∀ leaf : Nat, Answers (.finish ch id true (.authenticated leaf)) s fun t =>
        t.sec.sessions = s.sec.sessions.map (fun y => if y.id = id then { y with finished := true, mutualAuth := true, leaf := leaf } else y)) ∧
      (ch = 9 → Answers (.finish ch id true .anonymous) s fun t => ∀ y ∈ t.sec.sessions, y.id ≠ id) ∧
      (ch ≠ 9 → Answers (.finish ch id true .anonymous) s fun t =>
        t.sec.sessions = s.sec.sessions.map (fun y => if y.id = id then { y with finished := true, mutualAuth := false, leaf := 0 } else y)) ∧
      exec (.spdmHeartbeat ch id) s = .next (s.send (.spdm ch 0x7F [0x04, 0]))) ∧
    (x.finished = true → mapGet 0 s.sec.counters (1024 + id) + 1 < 2 ^ 64 - 2 ^ 20 →
      Answers (.spdmHeartbeat ch id) s (fun t => mapGet 0 t.sec.counters (1024 + id) = mapGet 0 s.sec.counters (1024 + id) + 1 ∧
        t.sent = s.sent ++ [.spdm ch 0x68 []]) ∧
      Answers (.keyUpdate ch id) s (fun t => mapGet 0 t.sec.counters (1024 + id) = 0 ∧ t.sent = s.sent ++ [.spdm ch 0x69 []]) ∧
      Answers (.endSession ch id) s (fun t => (∀ y ∈ t.sec.sessions, y.id ≠ id) ∧ t.sent = s.sent ++ [.spdm ch 0x6C []])))

/-- R655, R671, R672: the vendor requests of the SPDM responder. -/
def Obligations.VendorSpdmRequestsNeedTheirOwner : Prop :=
  (∀ (s : State) (ch id hash : Nat) (b : List Byte) (ok : Bool), s.spdmUp ch = true →
    (s.vendorChan ch = false ∨ ∀ x ∈ s.session ch id, x.finished = false) →
    let t := (s.send (.spdm ch 0x7F [0x07, 0])).raise Ev.SPDM_AUTH_FAIL
    exec (.seedProgram ch id hash) s = .next t.settle ∧ exec (.keyWrap ch id b) s = .next t ∧
      exec (.reunwrap ch id) s = .next t.settle ∧ exec (.debugUnlock ch id b ok) s = .next t.settle) ∧
  (∀ (s : State) (ch id hash : Nat) (b : List Byte) (x : SpdmSession) (g : Nat), s.spdmUp ch = true → 3 ≤ s.connStage ch →
    s.vendorChan ch = true → s.session ch id = some x → x.finished = true → s.owners.getLast? = some g →
    mapGet 0 s.sec.counters (1024 + id) + 1 < 2 ^ 64 - 2 ^ 20 → ∃ u : State, u.regs = s.regs ∧ u.sent = s.sent ∧
      u.sec = { s.sec with counters := mapSet s.sec.counters (1024 + id) (mapGet 0 s.sec.counters (1024 + id) + 1) } ∧
      (x.mutualAuth = true → x.leaf = g → exec (.seedProgram ch id hash) s = .next (u.seedProgram ch hash).settle ∧
        exec (.keyWrap ch id b) s = .next (u.keyWrap ch b) ∧
        exec (.reunwrap ch id) s = .next (u.reunwrap.vendorTell ch 0 []).settle) ∧
      (x.mutualAuth = false ∨ x.leaf ≠ g → let t := (u.send (.spdm ch 0x7E [0x09])).raise Ev.SPDM_AUTH_FAIL
        exec (.seedProgram ch id hash) s = .next t.settle ∧ exec (.keyWrap ch id b) s = .next t ∧
        exec (.reunwrap ch id) s = .next t.settle) ∧
      (∀ good : Bool, s.certOk b good = false →
        exec (.debugUnlock ch id b good) s = .next (((u.raise Ev.DEBUG_REFUSED).send (.spdm ch 0x7E [0x09])).settle))) ∧
  (∀ (s : State) (ch hash : Nat), (4 ≤ s.owners.length → s.seedProgram ch hash = s.send (.spdm ch 0x7E [0x13])) ∧
    (s.owners.length < 4 → (s.seedProgram ch hash).sec.seeds = s.sec.seeds ++ [hash % 2 ^ 512] ∧
      ∃ u : State, s.seedProgram ch hash = u.raiseD 0xE8D s.owners.length)) ∧
  (∀ (s : State) (ch : Nat) (b : List Byte), b.length ≠ 80 → s.keyWrap ch b = s.send (.spdm ch 0x7E [0x12])) ∧
  (∀ s : State, s.reunwrap.sec.latchAon = false ∧ s.reunwrap.sec.latchDue = false) ∧
  (∀ (s : State) (b : List Byte) (good : Bool), s.pwr.ctlUp = true → s.certOk b good = false →
    exec (.dbgcert b good) s = .next (s.raise Ev.DEBUG_REFUSED).settle) ∧
  (∀ (s : State) (b : List Byte), s.pwr.ctlUp = true → s.certOk b true = true → ∃ u : State,
    exec (.dbgcert b true) s = .next ((u.measure 5 b).raiseD Ev.DEBUG_UNLOCKED (leAt b 5 1)).settle ∧
      u.fld F.SEC_DEBUG_issuer 0 = leAt b 4 1 ∧ u.fld F.SEC_DEBUG_level 0 = leAt b 5 1)

/-- R118, R661, R662, R666, R667: key loads and alarms. -/
def Obligations.KeySlotsLoadAndAlarm : Prop :=
  (∀ (s : State) (mb : Nat) (input : List Byte) (good : Bool), s.mailUp = true → s.mbAdmin mb = true → 4 ≤ input.length →
    (leAt input 2 2 = 0 ∨ leAt input 2 2 = 104 → input.length = 4 + leAt input 2 2) →
    exec (.keyLoad mb input good) s = .next (s.keyLoad mb input good).settle ∧
    (223 < leAt input 0 1 ∨ (leAt input 2 2 ≠ 0 ∧ leAt input 2 2 ≠ 104) →
      s.keyLoad mb input good = s.answer mb 0xC017 0x12 []) ∧
    (leAt input 0 1 ≤ 223 → leAt input 2 2 = 104 → blobForm (input.drop 4) = true →
      s.keyLoad mb input good = s.keyDecide mb (leAt input 0 1) (leAt (input.drop 4) 6 1) (leAt (input.drop 4) 8 8)
        (input.drop 4) good) ∧
    (leAt input 0 1 ≤ 223 → leAt input 2 2 = 0 → s.fld F.SEC_STAT_latch 0 = 1 →
      s.keyLoad mb input good = s.answer mb 0xC017 0x13 [])) ∧
  (∀ (s : State) (mb slot gen id : Nat) (blob : List Byte),
    (s.fld F.SEC_STAT_latch 0 = 1 ∨ s.genNow ≠ some gen → ∀ good, s.keyDecide mb slot gen id blob good = s.answer mb 0xC017 0x13 []) ∧
    (s.fld F.SEC_STAT_latch 0 = 0 → s.fld F.SEC_STAT_kek 0 = 1 → s.genNow = some gen →
      s.keyDecide mb slot gen id blob false = (s.raiseD 0xE86 slot).answer mb 0xC017 0x12 [] ∧
      (s.keyLoaded slot = true → s.keyId slot = id → s.keyDecide mb slot gen id blob true = s.answer mb 0xC017 0 []) ∧
      (s.keyLoaded slot = true → s.keyId slot ≠ id → s.slotNamed slot = true →
        s.keyDecide mb slot gen id blob true = s.answer mb 0xC017 0x0D []) ∧
      (s.keyLoaded slot = false → s.keyDecide mb slot gen id blob true = s.keyBegin ⟨slot, 1, id, blob, some mb⟩ false))) ∧
  (∀ (s : State) (l : KeyLoad) (busy : Bool), s.keyBegin l busy =
    if busy = true ∨ s.slotUses l.slot ≠ 0 ∨ (∃ x ∈ s.sec.loads, x.slot = l.slot) then s.keyWait l else s.keyPut l) ∧
  (∀ (s : State) (slot : Nat), (∀ l ∈ s.sec.loads, l.slot ≠ slot) → exec (.keyLoaded slot) s = .next s.settle) ∧
  (∀ (s : State) (l : KeyLoad), s.sec.loads = [l] → l.slot < 224 →
    exec (.keyLoaded l.slot) s = .next (if s.slotUses l.slot = 0 then
      (({ s with sec := { s.sec with loads := [] } }).keyPut l).settle else s.settle)) ∧
  (∀ (s : State) (link : Nat) (busy : Bool), link < 8 → s.pwr.ctlUp = true → s.fld F.HPORT_STAT_up link = 1 →
    exec (.keyProg link busy) s = .next ((((s.keyBegin ⟨224 + 2 * link, 2, 0, [], none⟩ busy).keyBegin
      ⟨225 + 2 * link, 2, 0, [], none⟩ busy).ideReady link).settle)) ∧
  (∀ (s : State) (source : Nat), s.pwr.aonUp = true → source ≤ 6 →
    (bitB (s.fld F.SEC_ALARM_mask 0) source = true → exec (.keyAlarm source) s = .next s.settle) ∧
    (bitB (s.fld F.SEC_ALARM_mask 0) source = false → (source = 4 → s.sen.glitchArmed = true) →
      ∃ u : State, exec (.keyAlarm source) s = .next (u.raiseD 0xE84 source).settle ∧ u.sec.latchAon = true ∧
        u.sec.loads = [] ∧ u.fld F.SEC_STAT_kek 0 = 0 ∧ u.fld F.SEC_STAT_latch 0 = 1)) ∧
  (∀ s : State, s.sec.latchDue = true → s.pwr.ctlUp = true →
    exec .latchProgram s = .next (({ s with sec := { s.sec with latchDue := false } }).storeWrite 0 3 []))

/-- R622 to R628, R632, R637: commands of a firmware-flash port; in what order refusals come is the model's. -/
def Obligations.FirmwareFlashPortCommands : Prop :=
  (∀ (s : State) (p x : Nat), s.portBusy p = true → exec (.readPage p x) s = .next s ∧ exec (.programPage p x) s = .next s ∧
    exec (.eraseSector p x) s = .next s ∧ exec (.protSet p) s = .next s ∧ exec (.protClear p) s = .next s ∧
    exec (.lock p) s = .next s ∧ exec (.pwdSet p) s = .next s) ∧
  (∀ (s : State) (p ecc : Nat), p < 5 → s.portBusy p = false → s.core.reads = [] →
    s.fwRunning (s.fwAddr p / 0x1000000 % 4) = none →
    (s.fwAddr p % 256 ≠ 0 → exec (.readPage p ecc) s = .next (s.fwStatus p 0x12).fwRegs) ∧
    (s.fwAddr p % 256 = 0 → exec (.readPage p ecc) s = .next (s.fwReadEnd p (s.fwAddr p) ecc).fwRegs)) ∧
  (∀ (s : State) (p a : Nat), fwSector a ≠ 2 → fwSector a ≠ 3 →
    s.fwReadEnd p a 2 = (s.fwStatus p 0x06).raiseD 0xE04 a ∧
    ∀ ecc, ecc < 2 → ∃ u : State, s.fwReadEnd p a ecc = u.fwStatus p 0) ∧
  (∀ (s : State) (p fetch a i : Nat), p < 5 → s.portBusy p = false → a = s.fwAddr p → i = fwSector a → a % 256 = 0 → fwBase i = a →
    let u := s.fwFetch p fetch
    (u.fwBarred p i = true → exec (.programPage p fetch) s = .next (u.fwStatus p 0x13).fwRegs ∧
      exec (.eraseSector p fetch) s = .next (u.fwStatus p 0x13).fwRegs) ∧
    (u.fwBarred p i = false → u.fwProtected i = true →
      exec (.programPage p fetch) s = .next ((u.fwStatus p 0x09).raiseD 0xE05 i).fwRegs ∧
      exec (.eraseSector p fetch) s = .next ((u.fwStatus p 0x09).raiseD 0xE05 i).fwRegs) ∧
    (u.fwBarred p i = false → u.fwProtected i = false → u.fwSelf p (fwBankOf a) = true →
      exec (.programPage p fetch) s = .next ((u.fwStatus p 0x0B).raiseD 0xE00 p).fwRegs ∧
      exec (.eraseSector p fetch) s = .next ((u.fwStatus p 0x0B).raiseD 0xE00 p).fwRegs) ∧
    (u.fwBarred p i = false → u.fwProtected i = false → u.fwSelf p (fwBankOf a) = false →
      (u.fwRoom true a = false → exec (.eraseSector p fetch) s = .next (u.fwStatus p 0x01).fwRegs) ∧
      (u.fwRoom true a = true → exec (.eraseSector p fetch) s = .next (State.fwRegs (if u.fwIntentLeft i = 0
        then (u.fwStatus p 0x10).raiseD 0xE03 i else (u.fwClearBit i).fwBegin ⟨p, true, a, [], false⟩))) ∧
      (a / 256 ∉ u.core.pages → exec (.programPage p fetch) s = .next (State.fwRegs (if u.fwRoom false a = true
        then u.fwBegin ⟨p, false, a, u.fwBuf p, false⟩ else u.fwStatus p 0x01))))) ∧
  (∀ (s : State) (b : Nat), b < 4 → (s.fwRunning b = none → exec (.fwfOperationEnd b) s = .next s) ∧
    (∀ o, s.fwRunning b = some o → ∃ u : State, exec (.fwfOperationEnd b) s = .next (((u.fwStatus o.port 0).fwReadsGo b).fwRegs) ∧
      (o.erase = false → o.off / 256 ∈ u.core.pages ∧
        u.core.array = (s.fwProg o.off o.data).core.array) ∧
      (o.erase = true → ∃ v : State, u = (v.fwBlank (fwSector o.off)).fwClearBit (fwSector o.off)))) ∧
  (∀ (s : State) (p : Nat), p < 5 →
    ((∀ o ∈ s.fwRunning (s.fwBankArg p), o.port ≠ p) → exec (.suspend p) s = .next (s.fwStatus p 0x12)) ∧
    (∀ o, s.fwRunning (s.fwBankArg p) = some o → o.port = p → exec (.suspend p) s =
      .next (((((s.setFwOps (s.fwBankArg p) ((s.fwOps (s.fwBankArg p)).map (fun x => { x with suspended := true }))).fwCountSuspend
        (s.fwBankArg p)).fwStatus p 0).fwReadsGo (s.fwBankArg p)).fwRegs)) ∧
    ((∀ o ∈ s.fwOps (s.fwBankArg p), o.port ≠ p) → exec (.resume p) s = .next (s.fwStatus p 0x12)) ∧
    (∀ o : FwOp, s.fwOps (s.fwBankArg p) = [o] → o.port = p → o.suspended = true → exec (.resume p) s =
      .next (((s.setFwOps (s.fwBankArg p) [{ o with suspended := false }]).fwStatus p 0).fwRegs))) ∧
  (∀ (s : State) (p i : Nat) (on : Bool), p < 5 → s.portBusy p = false → i = fwSector (s.fwAddr p) →
    let c : Instr := if on then .protSet p else .protClear p
    (fwBase i ≠ s.fwAddr p ∨ i = 2 ∨ i = 3 → exec c s = .next (s.fwStatus p 0x12).fwRegs) ∧
    (fwBase i = s.fwAddr p → i ≠ 2 → i ≠ 3 → s.fld F.FWF_PWD_STAT_locked 0 = 1 →
      exec c s = .next (s.fwStatus p 0x09).fwRegs) ∧
    (fwBase i = s.fwAddr p → i ≠ 2 → i ≠ 3 → s.fld F.FWF_PWD_STAT_locked 0 = 0 →
      exec c s = .next (((s.setFld F.FWF_PROT_prot (i / 32) (setBits (s.fld F.FWF_PROT_prot (i / 32)) (i % 32) (i % 32)
        on.toNat)).fwStatus p 0).fwRegs)) ∧
    exec (.lock p) s = .next (((s.setFlag F.FWF_PWD_STAT_locked 0 true).fwStatus p 0).fwRegs))

/-- R633, R634: the writes of the password sequence. -/
def Obligations.FirmwarePasswordSequence : Prop :=
  (∀ (s : State) (p v : Nat), p < 5 → (s.core.seqPlace = 0 → exec (.fwfPwdKey p 0xA5C3) s = .next (s.pwdPlace 1) ∧
      (v ≠ 0xA5C3 → exec (.fwfPwdKey p v) s = .next s)) ∧
    (s.core.seqPlace = 1 → exec (.fwfPwdKey p 0x3C5A) s = .next (s.pwdPlace 2) ∧
      (v ≠ 0x3C5A → exec (.fwfPwdKey p v) s = .next ((s.pwdPlace 0).fwStatus p 0x12))) ∧
    (s.core.seqPlace = 6 → exec (.fwfPwdKey p 0x0F0F) s = .next ((s.pwdPlace 0).pwdAttempt p) ∧
      (v ≠ 0x0F0F → exec (.fwfPwdKey p v) s = .next ((s.pwdPlace 0).fwStatus p 0x12))) ∧
    (2 ≤ s.core.seqPlace → s.core.seqPlace < 6 → exec (.fwfPwdKey p v) s = .next ((s.pwdPlace 0).fwStatus p 0x12))) ∧
  (∀ (s : State) (p a b c d v : Nat), p < 5 → s.core.words = [a, b, c, d] →
    (2 ≤ s.core.seqPlace → s.core.seqPlace < 6 → exec (.fwfPwdData p v) s = .next { s with core := { s.core with
      words := [b, c, d, v % 2 ^ 32], seqPlace := s.core.seqPlace + 1 } }) ∧
    (s.core.seqPlace = 0 → exec (.fwfPwdData p v) s = .next { s with core := { s.core with
      words := [b, c, d, v % 2 ^ 32] } })) ∧
  (∀ (s : State) (p a b c d : Nat), p < 5 → s.core.words = [a, b, c, d] →
    let given := a + 2 ^ 32 * (b + 2 ^ 32 * (c + 2 ^ 32 * d))
    (s.pwdRefused = true → s.pwdAttempt p = s.fwStatus p 0x01) ∧
    (s.pwdRefused = false → given = s.core.password → (s.pwdAttempt p).fld F.FWF_PWD_STAT_locked 0 = 0 ∧
      (s.pwdAttempt p).fld F.FWF_PWD_STAT_fails 0 = 0 ∧ (s.pwdAttempt p).fld F.FWF_RES_status p = 0) ∧
    (s.pwdRefused = false → given ≠ s.core.password →
      (s.pwdAttempt p).fld F.FWF_PWD_STAT_fails 0 = min 255 (s.fld F.FWF_PWD_STAT_fails 0 + 1) ∧
      (s.pwdAttempt p).fld F.FWF_PWD_STAT_locked 0 = s.fld F.FWF_PWD_STAT_locked 0 ∧
      (s.pwdAttempt p).core.failedAt = some s.clock ∧ (s.pwdAttempt p).fld F.FWF_RES_status p = 0x09) ∧
    (s.portBusy p = false → exec (.pwdSet p) s = .next (if s.fld F.FWF_PWD_STAT_locked 0 = 0 then
      ((({ s with core := { s.core with password := given } }).fwStatus p 0).fwRegs) else (s.fwStatus p 0x09).fwRegs))) ∧
  (∀ (s : State) (t : Nat), s.core.failedAt = some t → (s.pwdRefused = true ↔ s.clock < t +
    (if s.fld F.FWF_PWD_STAT_fails 0 = 0 then 0 else min (2 ^ (s.fld F.FWF_PWD_STAT_fails 0 - 1)) 64000 * 1000)))

/-- R615 to R617, R639, R641, R650: the stage cores and the temperature limit. -/
def Obligations.StageCoresWatchdogsAndTemperature : Prop :=
  (∀ (s : State) (k : Nat), s.pwr.ctlUp = true → k < 4 →
    let u : State := { s with core := { s.core with kicks := mapSet s.core.kicks k s.clock, kicked := setIns s.core.kicked k } }
    exec (.stcWdog k) s = .next u.svnCommit ∧ (∀ v, s.core.svnPending = some v → u.core.kicked.length = 4 →
      u.svnCommit.core.svnPending = none ∧ u.svnCommit.fld F.SEC_SVN_svn 0 = v % 128)) ∧
  (∀ (s : State) (k : Nat), s.pwr.ctlUp = true → k < 4 → s.fld F.STC_STAT_state k = 0 →
    exec (.stcWatchdog k) s = .next (if mapGet 0 s.core.kicks k + 10000 ≤ s.clock then
      ((s.setFld F.STC_STAT_state k 2).dutiesNow).raiseD Ev.STC_WATCHDOG k else s)) ∧
  (∀ (s : State) (k : Nat), s.pwr.ctlUp = true → k < 4 →
    (s.fld F.STC_STAT_state k = 2 ∨ s.fld F.STC_STAT_state k = 3 → exec (.stcReloaded k) s =
      .next ((((s.coreRun k).raiseD Ev.STC_RELOADED k).rollOn k).runMail).settle) ∧
    (s.fld F.STC_STAT_state k = 0 → exec (.stcReloaded k) s = .next s.settle)) ∧
  (∀ (s : State) (k : Nat) (r : Roll), s.pwr.ctlUp = true → s.core.roll = some r →
    (r.current = some k → s.fld F.STC_STAT_state k = 1 →
      exec (.coreQuiesce k) s = .next (((s.coreRun k).rollOn k).runMail).settle) ∧
    (r.current ≠ some k → exec (.coreQuiesce k) s = .next s.settle)) ∧
  (∀ (s : State) (r : Roll), r.left = [] → s.running 0x08 = none →
    s.rollNext r = ({ s with core := { s.core with roll := none } }).raise Ev.STC_ROLL_DONE) ∧
  (∀ (s : State) (hot : Int), s.pwr.step < 3 → exec (.thermSample hot) s = .next s) ∧
  (∀ (s : State) (hot : Int), 3 ≤ s.pwr.step → exec (.thermSample hot) s = .next (s.thermSample hot).settle ∧
    (100 ≤ hot → hot < 105 → s.fld F.CURT_THERM_throttle 0 = 0 →
      (s.thermSample hot).path = s.path ∧ (s.thermSample hot).sen.hotSamples = 0 ∧
      (s.thermSample hot).fld F.CURT_THERM_hot 0 = degByte hot) ∧
    (105 ≤ hot → hot < 115 → s.fld F.CURT_THERM_throttle 0 = 0 →
      ∃ u : State, s.thermSample hot = u.throttleFlag.raise Ev.THERM_THROTTLE ∧ u.fld F.CURT_THERM_throttle 0 = 1 ∧
        u.sen.hotSamples = 0) ∧
    (115 ≤ hot → s.sen.hotSamples = 2 → s.pwr.ctlUp = false → ∃ u : State, s.thermSample hot =
      ((u.setFlag F.CURT_THERM_trip 0 true).raise Ev.THERM_TRIP).strike 4))

/-- R124, R638, R639, R647: firmware updates. -/
def Obligations.FirmwareUpdateOverTheMailbox : Prop :=
  (∀ (s : State) (mb : Nat), s.mailUp = true → exec (.getFwInfo mb []) s = .next (s.fwInfo mb)) ∧
  (∀ (s : State) (mb : Nat) (input : List Byte), s.mailUp = true → 128 ≤ input.length →
    let off := leAt input 4 4 * 128
    let bs := input.drop 128
    let ps := (upto ((bs.length + 255) / 256)).map (fun p => (0x3000000 + off) / 256 + p)
    (leAt input 0 1 ≤ 3 → off % 256 = 0 → off + bs.length ≤ 4 * 2 ^ 20 → s.fwOps 3 = [] → (∀ p ∈ ps, p ∉ s.core.pages) →
      (∀ p ∈ ps, s.fwProtected (fwSector (p * 256)) = false) → Answers (.transferFw mb input) s fun t =>
        t.core.array = (s.fwProg (0x3000000 + off) bs).core.array ∧ t.core.pages = ps.foldl setIns s.core.pages ∧
        t.sent = s.sent ++ [.mailbox mb 0x0201 .success []] ∧ t.regs = s.regs ∧ t.path = s.path) ∧
    (leAt input 0 1 ≤ 3 → (off % 256 ≠ 0 ∨ 4 * 2 ^ 20 < off + bs.length) →
      exec (.transferFw mb input) s = .next (s.send (.mailbox mb 0x0201 .invalidInput []))) ∧
    (leAt input 0 1 ≤ 3 → off % 256 = 0 → off + bs.length ≤ 4 * 2 ^ 20 → s.fwOps 3 ≠ [] →
      exec (.transferFw mb input) s = .next (s.send (.mailbox mb 0x0201 .busy [])))) ∧
  (∀ (s : State) (mb : Nat) (input : List Byte) (ok : Bool), s.mailUp = true → input.length = 2 →
    (leAt input 1 1 ≠ s.idleSlot + 1 →
      exec (.activateFw mb input ok) s = .next (s.send (.mailbox mb 0x0202 .invalidInput [])).settle) ∧
    (leAt input 1 1 = s.idleSlot + 1 → leAt input 0 1 = 1 → s.imageOk stagingBase ok = false →
      exec (.activateFw mb input ok) s = .next ((((s.raise Ev.IMAGE_REJECTED).raise Ev.FWF_UPDATE_REFUSED).send
        (.mailbox mb 0x0202 .invalidInput [])).settle)) ∧
    (leAt input 1 1 = s.idleSlot + 1 → leAt input 0 1 = 1 → s.imageOk stagingBase ok = true →
      s.fwOps (s.idleSlot + 1) = [] → s.fwOps 0 = [] → s.slotShut s.idleSlot = none →
      exec (.activateFw mb input ok) s = .next (((s.slotWrite s.idleSlot).send (.mailbox mb 0x0202 .success [])).settle)))

/-- R676, R677, R690 to R694, R715: the check-value units, the patrol and the log. -/
def Obligations.CheckUnitsPatrolAndLogFlush : Prop :=
  (∀ (s : State) (u tail : Nat) (x y : List Host.Cell), 1 ≤ u → u ≤ 3 → exec (.chkRingTail u tail x y) s = .next s) ∧
  (∀ (s : State) (u tail : Nat), u = 0 ∨ (4 ≤ u ∧ u ≤ 7) → s.pwr.ctlUp = true →
    exec (.chkRingTail u tail [] []) s = .next ((s.setRw F.CHK_RING_TAIL_tail u (tail % 256)).skipBad u 256)) ∧
  (∀ (s : State), Answers (.cvDescriptorDone 2 true) s (fun t => t.twin = { s.twin with heartbeatStopped := true }) ∧
    exec (.cvDescriptorDone 1 true) s = .next (s.raiseD (Ev.CV_MISMATCH 1) 0) ∧
    ∀ u, 1 ≤ u → u ≤ 3 → Answers (.cvDescriptorDone u false) s fun t =>
      t.fld F.CHK_STAT_prev u = (s.fld F.CHK_STAT_prev u + 1) % 65536 ∧ t.fld F.CHK_STAT_baseline u = 1) ∧
  (∀ (s : State) (u : Nat) (bad : Bool), u = 0 ∨ (4 ≤ u ∧ u ≤ 7) →
    exec (.cvDescriptorDone u bad) s = .next (if s.fld F.CHK_STAT_busy u = 0 then s else (s.descDone u bad).skipBad u 256)) ∧
  (∀ (s : State) (u : Nat), u < 8 → Answers (.unitReset u) s fun t => t.fld F.CHK_STAT_busy u = 0 ∧
    t.fld F.CHK_STAT_baseline u = 0 ∧ t.fld F.CHK_RING_HEAD_head u = s.fld F.CHK_RING_TAIL_tail u % 256) ∧
  (∀ s : State, exec (.sramPatrol .good) s = .next s.settle) ∧
  (∀ (s : State) (cls row : Nat), cls < 8 → exec (.sramPatrol (.corrected cls row)) s = .next (s.sramCe cls row).settle ∧
    ((s.ceTimes s.integ.rowCe (wide32 cls row)).length ≠ s.fld F.INT_CE_CFG_row_limit 0 →
      (s.sramCe cls row).fld F.INT_ARRAY_ce cls = min 65535 (s.fld F.INT_ARRAY_ce cls + 1))) ∧
  (∀ (s : State) (slice way row : Nat), slice < 32 → way < 16 →
    exec (.sramPatrol (.cacheWord slice way row)) s = .next ((s.wayCe slice way).sramCe 0 row).settle) ∧
  (∀ (s : State) (slot : Nat) (r : PbRecord), mapGet? (s.raiseD Ev.SRAM_UE slot).pb.ring slot = some r → ∃ u : State,
    exec (.sramPatrol (.record slot)) s = .next ((u.addSat (pbDropFld r.severity) 0 1).pbCounts.raiseDropped).settle ∧
      mapGet? u.pb.ring slot = none ∧ ∀ k, k ≠ slot → mapGet? u.pb.ring k = mapGet? (s.raiseD Ev.SRAM_UE slot).pb.ring k) ∧
  (∀ s : State, (s.pb.flushing ≠ none ∨ s.inStrike = true ∨ s.flushDue = false → exec .pbookFlush s = .next s) ∧
    (s.pb.flushing = none → s.inStrike = false → s.inLoadIn = false → s.flushDue = true → s.pbUnflushed ≠ [] →
      exec .pbookFlush s = .next (s.logIssue (s.pbUnflushed.take 384) (s.pbUnflushed.drop 384)))) ∧
  (∀ s : State, (s.flushDue = true ↔ 384 ≤ s.pbUnflushed.length ∨ ∃ t, s.pb.urgentAt = some t ∧ t + 1000 ≤ s.clock))

/-- R221 to R240: cache maintenance. -/
def Obligations.CacheMaintenanceOperations : Prop :=
  (∀ (s : State) (a b : Nat), s.fld F.SCACHE_MAINT_STAT_busy 0 = 1 →
    (∀ c ∈ [Instr.disable, .enable, .wayDisable a b, .wayEnable a b], exec c s = .next s) ∧
    (∀ c ∈ [Instr.clean, .invalidate, .flush, .cleanSet a b, .invalidateSet a b, .flushSet a b, .cleanAll, .invalidateAll,
      .flushAll], exec c s = .next s.settle)) ∧
  (∀ (s : State) (word st : Nat) (f : State → State), s.fld F.SCACHE_MAINT_STAT_busy 0 = 0 →
    (s.startMaint word st f).cache.maint = some word ∧ (s.startMaint word st f).cache.maintStatus = st ∧
      (s.startMaint word st f).fld F.SCACHE_MAINT_STAT_busy 0 = 1 ∧ (s.startMaint word st f).dram = (f s).dram ∧
      (s.startMaint word st f).cache.lines = (f s).cache.lines) ∧
  (∀ s : State, let place : State → State := fun t =>
      { t with cache := { t.cache with maintAt := some (t.path.nextAcc, s.maintFirst, s.maintFirst + s.maintCount) } }
    (s.maintInside = true → exec .clean s = .next (s.startMaint 0x1 0 place).settle ∧
      exec .invalidate s = .next (s.startMaint 0x2 0 place).settle ∧
      exec .flush s = .next (s.startMaint 0x3 0 place).settle) ∧
    (s.maintInside = false → exec .clean s = .next (s.startMaint 0x1 0x0A id).settle ∧
      exec .invalidate s = .next (s.startMaint 0x2 0x0A id).settle ∧ exec .flush s = .next (s.startMaint 0x3 0x0A id).settle)) ∧
  (∀ (s : State) (a lo hi v : Nat), s.cache.maintAt = some (a, lo, hi) → s.cache.maint = some v →
    (∀ r ∈ s.path.held, r.isStore = true → r.acc < a → ∀ l ∈ r.dpa / 64 :: r.writes.map (fun w => w.line), ¬ (lo ≤ l ∧ l < hi)) →
    let sel : Nat → CLine → Bool := fun _ c => decide (lo ≤ c.line) && decide (c.line < hi)
    let u : State := if v % 16 = 1 then s.cleanWays sel else if v % 16 = 2 then s.invalidateWays sel else s.flushWays sel
    s.maintGo = { u with cache := { u.cache with maintAt := none } }) ∧
  (∀ (s : State) (slice set : Nat), slice < 32 → set < 4096 → let w := slice * 2 ^ 7 + set * 2 ^ 16
    exec (.cleanSet slice set) s = .next (s.startMaint (0x4 + w) 0 (fun t => t.cleanWays (inSet slice set))).settle ∧
    exec (.invalidateSet slice set) s = .next (s.startMaint (0x5 + w) 0 (fun t => t.invalidateWays (inSet slice set))).settle ∧
    exec (.flushSet slice set) s = .next (s.startMaint (0x6 + w) 0 (fun t => t.flushWays (inSet slice set))).settle) ∧
  (∀ s : State, exec .cleanAll s = .next (s.startMaint 0x7 0 (fun t => t.cleanWays (fun _ _ => true))).settle ∧
    exec .invalidateAll s = .next (s.startMaint 0x8 0 (fun t =>
      (t.invalidateWays (fun _ _ => true)).setFlag F.SCACHE_STAT_stale 0 false)).settle ∧
    exec .flushAll s = .next (s.startMaint 0x9 0 (fun t => t.flushWays (fun _ _ => true))).settle) ∧
  (∀ (s : State) (slice way : Nat), exec .disable s = .next (s.startMaint 0xA 0 id) ∧
    exec .enable s = .next (s.startMaint 0xB 0 id) ∧
    (slice < 32 → way < 16 → exec (.wayEnable slice way) s = .next (s.startMaint (0xD + slice * 2 ^ 7 + way * 2 ^ 12) 0 id) ∧
      (bitB (s.fld F.SCACHE_WAYSTAT_soft slice) way = false → exec (.wayDisable slice way) s =
        .next (s.startMaint (0xC + slice * 2 ^ 7 + way * 2 ^ 12) (if s.waysOn slice - 1 < 8 then 0x12 else 0) id)))) ∧
  (∀ (s : State) (sel : Nat → CLine → Bool), (∀ p ∈ (s.invalidateWays sel).cache.lines, sel p.1 p.2 = false) ∧
    ((∀ p ∈ s.cache.lines, sel p.1 p.2 = true → p.2.dirty = false) → (s.invalidateWays sel).dram = s.dram ∧
      (s.cleanWays sel) = s ∧ (s.invalidateWays sel).cache.lines = s.cache.lines.filter (fun p => !sel p.1 p.2))) ∧
  (∀ s : State, (s.cache.maint = none → exec .scacheMaintDone s = .next s) ∧
    (∀ st : Nat, st < 256 → (s.maintEnd st).cache.maint = none ∧ (s.maintEnd st).fld F.SCACHE_MAINT_STAT_busy 0 = 0 ∧
      (s.maintEnd st).fld F.SCACHE_MAINT_STAT_status 0 = st ∧ ∃ u : State, s.maintEnd st = u.raiseD Ev.SCACHE_MAINT_DONE st) ∧
    (s.cache.maint = some 0xA → s.cache.maintAt = none → (∀ r ∈ s.path.held, r.inSlice = false) → exec .scacheMaintDone s = .next (if s.fld F.SCACHE_STAT_dirty_p 0 = 0 then
      (s.cacheDisable.maintEnd 0).settle else ((s.raise Ev.DISABLE_DENIED).maintEnd 0x13).settle)) ∧
    (s.cache.maint = some 0xB → s.cache.maintAt = none → exec .scacheMaintDone s = .next (s.cacheEnable.maintEnd 0).settle) ∧
    (s.cache.maint = some 0x7 → s.cache.maintAt = none → exec .scacheMaintDone s = .next (s.maintEnd s.cache.maintStatus).settle)) ∧
  (∀ s : State, (∀ p ∈ s.cacheDisable.cache.lines, p.2.stale = 2 ^ 64 - 1) ∧ s.cacheDisable.fld F.SCACHE_STAT_enabled 0 = 0 ∧
    s.cacheDisable.dram = s.dram ∧ s.cacheEnable.cache = s.cache ∧ s.cacheEnable.fld F.SCACHE_STAT_enabled 0 = 1)

/-- R248 to R283: the commands of a DRAM channel in service. -/
def Obligations.DramChannelsInService : Prop :=
  (∀ (s : State) (c : Nat) (b : Bool), s.chanLive c = false → exec (.refresh c b) s = .next s ∧ exec (.makeUpBurst c b) s = .next s ∧
    exec (.selfRefreshEntry c) s = .next s ∧
    ∀ fr line pts p q w, exec (.patrolScrub c fr line pts p q w) s = .next s) ∧
  (∀ (s : State) (c : Nat), s.chanLive c = true →
    exec (.refresh c false) s = .next (s.setFld F.DMC_STAT_debt c 0) ∧
    exec (.refresh c true) s = .next (s.setFld F.DMC_STAT_debt c
      (if s.fld F.DMC_STAT_debt c + 1 ≤ s.fld F.DMC_REF_CFG_max_postpone c then s.fld F.DMC_STAT_debt c + 1 else 0)) ∧
    exec (.makeUpBurst c true) s = .next (s.setFld F.DMC_STAT_debt c 0) ∧
    exec (.makeUpBurst c false) s = .next (if s.fld F.DMC_REF_CFG_max_postpone c ≤ s.fld F.DMC_STAT_debt c then
      s.setFld F.DMC_STAT_debt c 0 else s)) ∧
  (∀ (s : State) (c temp owed : Nat), c < 12 → (s.setFld F.DMC_STAT_temp c temp).pauseDue c temp = false →
    exec (.retrainPause c temp owed) s = .next (s.setFld F.DMC_STAT_temp c temp)) ∧
  (∀ (s u v : State) (c temp owed : Nat) (j : Job), c < 12 → u = s.setFld F.DMC_STAT_temp c temp → u.pauseDue c temp = true →
    (u.chan c).trained = true → v = u.setChan c { u.chan c with pauseDue := some ((u.chan c).pauseDue.getD u.clock) } →
    v.maint.jobs = [j] → j.act = 2 → j.target = c → j.state = 0 → v.pauseHeld c = false →
    (v.chan c).lastPause + 20000 ≤ v.clock → v.mayStart j = true →
    exec (.retrainPause c temp owed) s = .next (((v.markStarted j).retrain c temp owed).endJob j.id St.DONE)) ∧
  (∀ (s : State) (c temp owed : Nat), ((s.retrain c temp owed).chan c).lastPause = s.clock ∧
    ((s.retrain c temp owed).chan c).pauseDue = none ∧ ((s.retrain c temp owed).chan c).pauseTemp = temp ∧
    (s.retrain c temp owed).fld F.DMC_STAT_debt c ≤ 3) ∧
  (∀ (s : State) (c t : Nat), (s.chan c).pauseDue = some t → (s.chan c).lateRaised = false →
    exec (.retrainLate c) s = .next (if t + 4 * (s.fld F.DMC_TRAIN_CFG_period c * 1000) < s.clock then
      (s.setChan c { s.chan c with lateRaised := true }).raiseD Ev.RETRAIN_LATE c else s)) ∧
  (∀ (s : State) (line : Nat), (s.mergeFor line = none → exec (.mergeEntryWrite line) s = .next s) ∧
    ∀ m, s.mergeFor line = some m → exec (.mergeEntryWrite line) s = .next (if m.since + 1 ≤ s.clock then s.mergeOut m else s)) ∧
  (∀ (s : State) (c : Nat), s.chanLive c = true →
    (s.sceneOn 5 = false ∨ s.fld F.DMC_CTL_idle_sr c = 0 → exec (.selfRefreshEntry c) s = .next s) ∧
    (s.sceneOn 5 = true → s.fld F.DMC_CTL_idle_sr c ≠ 0 → (s.chan c).lastReq + s.fld F.DMC_CTL_idle_sr c ≤ s.clock →
      (∀ m ∈ s.dram.merge, m.chan ≠ c) →
      exec (.selfRefreshEntry c) s = .next ((s.setFld F.DMC_STAT_debt c 0).setFlag F.DMC_STAT_in_sr c true))) ∧
  (∀ (s : State) (frame line progress : Nat) (points words : List Nat), let c := chanOf frame
    s.chanLive c = true → s.fld F.DMC_SCRUB_CFG_enable c = 1 → s.folioIn frame = none →
    let u := s.setFld F.DMC_SCRUB_STAT_progress c progress
    let p := u.dramPlace c (lineIndex frame line)
    exec (.patrolScrub c frame line [10, 10, 10, 10, 10, 10, 10, 10] progress false words) s = .next u.settle ∧
    (∀ d, eccVerdict points = .corrected d →
      exec (.patrolScrub c frame line points progress false words) s = .next (u.dramCe c p.rowKey d).settle) ∧
    (eccVerdict points = .uncorrectable →
      exec (.patrolScrub c frame line points progress false words) s =
        .next (if u.frameUsed frame = true then u.freezeNow c 3 11 none (snapAt p words) else u.scrubRetire c p.word1).settle)) ∧
  (∀ (s : State) (c cause cls : Nat) (dpa : Option Nat) (words : List Nat), c < 12 → s.chanFrozen c = false → 1 ≤ cause → cause ≤ 5 →
    let u := s.freezeChan c cause cls dpa words
    exec (.dmcFrozen c cause cls dpa words) s = .next (if u.role = 1 then (u.ownJob 0x0A 0xFFFF 0 0).settle else u.settle)) ∧
  (∀ (s : State) (c : Nat), c < 12 → s.chanFrozen c = true → Answers (.freezeSnapRead c) s fun t =>
    t.fld F.DMC_STAT_snap_read c = 1 ∧ t.sent = s.sent ++ [.ctlRead (RegId.DMC_FREEZE_SNAP.off (c * 64 + 63))
      (s.liveWord .DMC_FREEZE_SNAP (c * 64 + 63)).toNat])

/-- A job is submitted, its sender told, and started where nothing conflicts. -/
def Sys2Proof.Claims.submitted (s : State) (fr : JobFrom) (queue : Bool) (act target p0 p1 : Nat) (o : JobOut) : State :=
  let r := s.submit fr queue act target p0 p1 0
  (r.1.submitTell fr r.2.1 r.2.2).tryStart r.2.2 o

/-- The command `c` submits the activity on the target, for each sender; `fin` is what follows at once. -/
def Sys2Proof.Claims.Submits (c : JobFrom → Bool → Instr) (act target p0 p1 : Nat) (o : JobOut) (fin : State → State) : Prop :=
  ∀ (s : State) (queue : Bool),
    (s.pwr.ctlUp = true → exec (c .firmware queue) s = .next (fin (submitted s .firmware queue act target p0 p1 o))) ∧
    (s.pwr.ctlUp = false → exec (c .firmware queue) s = .next (fin s)) ∧
    (act ≠ 0x0E → exec (c .controller queue) s = .next (fin (submitted s .controller queue act target p0 p1 o))) ∧
    (∀ mb, s.mailUp = true → s.mbAdmin mb = true → target < 65536 → p0 < 2 ^ 32 → p1 < 2 ^ 32 →
      (s.submitFenced (.mailbox mb) act target p0 p1 0 = false →
        exec (c (.mailbox mb) queue) s = .next (fin (submitted s (.mailbox mb) queue act target p0 p1 o))) ∧
      (s.submitFenced (.mailbox mb) act target p0 p1 0 = true →
        exec (c (.mailbox mb) queue) s = .next (fin (s.answer mb 0xC00C St.FENCED (leBytes 3 0 ++ leBytes 4 0))))) ∧
    (∀ mb, s.mailUp = true → s.mbAdmin mb = false →
      exec (c (.mailbox mb) queue) s = .next (fin (s.answer mb 0xC00C St.ACCESS_DENIED []))) ∧
    (∀ mb input, (s.mailUp = true → input.length ≠ 16 →
        exec (c (.payload mb input) queue) s = .next (fin (s.send (.mailbox mb 0xC00C .invalidLength [])))) ∧
      (s.mailUp = true → input.length = 16 → s.mbAdmin mb = false →
        exec (c (.payload mb input) queue) s = .next (fin (s.answer mb 0xC00C St.ACCESS_DENIED []))) ∧
      (s.mailUp = true → input.length = 16 → s.mbAdmin mb = true → 2 ≤ leAt input 1 1 →
        exec (c (.payload mb input) queue) s = .next (fin (s.answer mb 0xC00C St.ILLEGAL (leBytes 3 0 ++ leBytes 4 0)))))

/-- R730 to R732, R737 to R739: every job command, the judgement, and the start. -/
def Obligations.MaintenanceJobsAreSubmittedAndStarted : Prop :=
  (∀ ch row dev soft, Submits (.dramRepair · · ch row dev soft) 1 ch row dev { JobOut.none_ with ok := soft } State.settle) ∧
  (∀ ch temp owed,
    Submits (.dramRetrain · · ch temp owed) 2 ch 0 0 { JobOut.none_ with temp := temp, owed := owed } State.settle) ∧
  (∀ ch pass ws,
    Submits (.dramRelease · · ch pass ws) 3 ch 0 0 { JobOut.none_ with ok := pass, words := ws } State.settle) ∧
  (∀ slot, Submits (.slotRemove · · slot) 6 slot 0 0 JobOut.none_ State.settle) ∧
  (∀ slot, Submits (.slotAdmit · · slot) 7 slot 0 0 JobOut.none_ State.settle) ∧
  (∀ signed, Submits (.fwUpdate · · signed) 8 0xFFFF 0 0 { JobOut.none_ with ok := signed } State.settle) ∧
  Submits (.plannedHandover · ·) 10 0xFFFF 0 0 JobOut.none_ State.settle ∧
  (∀ e ms pass, Submits (.scribeSwap · · e ms pass) 11 e ms 0 { JobOut.none_ with ok := pass } State.settle) ∧
  (∀ p0, Submits (.sceneChange · · p0) 12 0xFFFF p0 0 JobOut.none_ id) ∧
  (∀ mask fail, Submits (.rehearsal · · mask fail) 13 0xFFFF mask 0 { JobOut.none_ with fail := fail } id) ∧
  (∀ confirm, Submits (.powerCycle · · confirm) 14 0xFFFF confirm 0 JobOut.none_ State.settle) ∧
  (∀ (s : State) (queue : Bool) (confirm : Nat), exec (.powerCycle .controller queue confirm) s = .next s.cycleNow.settle) ∧
  -- the judgement
  (∀ (s : State) fr queue act target p0 p1 p2,
    (submitIll fr act target p0 p1 p2 = true →
      s.submit fr queue act target p0 p1 p2 = (s, St.ILLEGAL, 0)) ∧
    (s.submitStatus fr queue act target p0 p1 p2 = St.CONFLICT →
      s.submit fr queue act target p0 p1 p2 = (s.raiseD Ev.MAINT_REFUSED act, St.CONFLICT, 0)) ∧
    (s.submitStatus fr queue act target p0 p1 p2 = St.DONE → ∃ q,
      s.submit fr queue act target p0 p1 p2 = (q, St.DONE, s.maint.nextId) ∧
      q.maint.jobs = s.maint.jobs ++ [⟨s.maint.nextId, act, target, p0, p1, p2, fr, 0, 0, 0, 0, s.clock, none⟩] ∧
      q.maint.nextId = (if s.maint.nextId = 4294967295 then 1 else s.maint.nextId + 1) ∧ q.sent = s.sent)) ∧
  (∀ (s : State) (st id : Nat),
    (s.submitTell .firmware st id) = (s.setLive .MAINT_RES 0 st).setLive .MAINT_JOBID 0 id ∧
    s.submitTell .controller st id = s ∧
    (∀ mb, (s.submitTell (.mailbox mb) st id) = s.answer mb 0xC00C st (leBytes 3 0 ++ leBytes 4 id))) ∧
  -- the start
  (∀ (s : State) (id : Nat) (o : JobOut) (j : Job), s.job id = some j →
    (s.startable j = false → s.tryStart id o = s) ∧
    (s.startable j = true → ∃ k, (s.markStarted j).job j.id = some k ∧ k = { j with state := 1, since := s.clock } ∧
      s.tryStart id o = (s.markStarted j).runJob k o)) ∧
  (∀ (s : State) (j : Job) (o : JobOut),
    (j.act = 1 → s.runJob j o = (s.dramRepair j.target j.p0 j.p1 o.ok).1.endJob j.id (s.dramRepair j.target j.p0 j.p1 o.ok).2) ∧
    (j.act = 2 → s.runJob j o = (s.retrain j.target o.temp o.owed).endJob j.id St.DONE) ∧
    (j.act = 3 → s.runJob j o = (s.dramRelease j.target o.ok o.words).1.endJob j.id (s.dramRelease j.target o.ok o.words).2) ∧
    (j.act = 10 → s.role = 1 → s.synced = true → (∃ t, s.twin.leaseEnd = some t ∧ s.clock < t) →
      s.runJob j o = { s with twin := { s.twin with gateClosed := true } }) ∧
    (j.act = 10 → s.role ≠ 1 → s.runJob j o = s.endJob j.id St.CONFLICT) ∧
    (j.act = 11 → s.fld F.SCR_STAT_state j.target ≠ 1 → s.runJob j o = s.swapTested j.target o.ok) ∧
    (j.act = 11 → s.fld F.SCR_STAT_state j.target = 1 → 9 ≤ s.fld F.SCL_STAT_spare (j.target / 9) →
      s.runJob j o = s.endJob j.id St.CONFLICT) ∧
    (j.act = 12 → bitB j.p0 16 = false → s.runJob j o = s.sceneJobGo) ∧
    (j.act = 13 → bitB j.p0 0 = false →
      s.runJob j o = (s.setJob { j with phase := o.fail &&& j.p0 &&& 0xE }).endJob j.id St.DONE) ∧
    (j.act = 14 → s.runJob j o = s.strike 4)) ∧
  (∀ (s : State) (o : JobOut), (s.maint.jobs.find? s.startable = none → exec (.maintStart o) s = .next s.settle) ∧
    (∀ j, s.maint.jobs.find? s.startable = some j → exec (.maintStart o) s = .next (s.startJob j o).settle)) ∧
  (∀ (s : State) (id : Nat),
    (s.job id = none → exec (.maintQry id) s = .next (s.setLive .MAINT_QRY_RES 0 0xC0000000)) ∧
    (∀ j, s.job id = some j → exec (.maintQry id) s = .next (s.setLive .MAINT_QRY_RES 0
      (j.state * 2 ^ 30 + j.act * 2 ^ 16 + j.status % 256 * 2 ^ 8 + j.progress % 256))))

/-- R733, R739, R128: cancels, ends, and the mailbox commands that carry a job. -/
def Obligations.JobsEndByTheirWorkOrByCancel : Prop :=
  (∀ (s : State) (mb : Nat) (input : List Byte), s.mailUp = true → input.length = 4 →
    (s.mbAdmin mb = false → exec (.maintCancel mb input) s = .next (s.answer mb 0xC00E St.ACCESS_DENIED []).settle) ∧
    (s.mbAdmin mb = true → s.job (leAt input 0 4) = none →
      exec (.maintCancel mb input) s = .next (s.answer mb 0xC00E St.ILLEGAL []).settle) ∧
    (∀ j, s.mbAdmin mb = true → s.job (leAt input 0 4) = some j →
      (j.state = 2 → exec (.maintCancel mb input) s = .next (s.answer mb 0xC00E St.ALREADY_DONE []).settle) ∧
      (j.state = 0 → j.act ≠ 7 → exec (.maintCancel mb input) s =
        .next ((s.endJob (leAt input 0 4) St.ABORTED).answer mb 0xC00E St.DONE []).settle) ∧
      (j.state = 1 → (j.act = 1 ∨ j.act = 2 ∨ j.act = 3 ∨ j.act = 8 ∨ j.act = 12 ∨ j.act = 14) →
        exec (.maintCancel mb input) s = .next (s.answer mb 0xC00E St.CONFLICT []).settle) ∧
      (j.state = 1 → j.act = 13 → exec (.maintCancel mb input) s =
        .next ((s.endJob (leAt input 0 4) St.ABORTED).answer mb 0xC00E St.DONE []).settle))) ∧
  (∀ (s : State) (id status : Nat) (j : Job), s.job id = some j → j.state ≠ 2 → j.waiter = none →
    ∃ u : State, s.endJob id status = u.raiseD Ev.MAINT_ENDED (id * 256 + status) ∧ u.sent = s.sent) ∧
  (∀ (s : State) (mb : Nat) (input : List Byte), s.mailUp = true → s.mbAdmin mb = true → input.length = 2 →
    leAt input 1 1 = 0 → leAt input 0 1 < 16 →
    (s.removeStatus (leAt input 0 1) ≠ St.DONE → exec (.prepareRemoval mb input) s =
      .next (s.answer mb 0xC00F (s.removeStatus (leAt input 0 1)) []).settle) ∧
    (s.removeStatus (leAt input 0 1) = St.DONE →
      s.submitStatus (.mailbox mb) false 6 (leAt input 0 1) 0 0 0 = St.DONE → exec (.prepareRemoval mb input) s =
      .next (((s.submit (.mailbox mb) false 6 (leAt input 0 1) 0 0 0).1.answer mb 0xC00F St.DONE []).tryStart s.maint.nextId
        JobOut.none_).settle)) ∧
  (∀ (s : State) (mb : Nat) (input : List Byte) (pass : Bool) (ws : List Nat), s.mailUp = true → s.mbAdmin mb = true →
    input.length = 1 →
    (12 ≤ leAt input 0 1 → exec (.freezeRelease mb input pass ws) s = .next (s.answer mb 0xC011 St.ILLEGAL []).settle) ∧
    (leAt input 0 1 < 12 → (s.chanFrozen (leAt input 0 1) = false ∨ s.flag F.DMC_STAT_snap_read (leAt input 0 1) = false) →
      exec (.freezeRelease mb input pass ws) s = .next (s.answer mb 0xC011 St.CONFLICT []).settle) ∧
    (leAt input 0 1 < 12 → s.chanFrozen (leAt input 0 1) = true → s.flag F.DMC_STAT_snap_read (leAt input 0 1) = true →
      s.submitStatus (.mailbox mb) false 3 (leAt input 0 1) 0 0 0 = St.DONE → exec (.freezeRelease mb input pass ws) s =
      .next (((s.submit (.mailbox mb) false 3 (leAt input 0 1) 0 0 0).1.answer mb 0xC011 St.DONE []).tryStart s.maint.nextId
        { JobOut.none_ with ok := pass, words := ws }).settle)) ∧
  (∀ (s : State) (mb : Nat) (input : List Byte) (fail : Nat), s.mailUp = true → s.mbAdmin mb = true → input.length = 4 →
    s.submitStatus (.mailbox mb) false 13 0xFFFF (leAt input 0 4) 0 0 ≠ St.DONE →
    (exec (.rehearsalRun mb input fail) s = .next
      ((s.submit (.mailbox mb) false 13 0xFFFF (leAt input 0 4) 0 0).1.answer mb 0xC019
        (s.submitStatus (.mailbox mb) false 13 0xFFFF (leAt input 0 4) 0 0) (leBytes 3 0 ++ leBytes 4 0)))) ∧
  (∀ (s : State) (mb : Nat) (input : List Byte) (fail : Nat), s.mailUp = true → s.mbAdmin mb = true → input.length = 4 →
    s.submitStatus (.mailbox mb) false 13 0xFFFF (leAt input 0 4) 0 0 = St.DONE →
    Answers (.rehearsalRun mb input fail) s fun t => ∃ (q : State) (j : Job),
      (s.submit (.mailbox mb) false 13 0xFFFF (leAt input 0 4) 0 0).1.job s.maint.nextId = some j ∧
      q = (s.submit (.mailbox mb) false 13 0xFFFF (leAt input 0 4) 0 0).1.setJob { j with waiter := some (mb, 0xC019) } ∧
      t = q.tryStart s.maint.nextId { JobOut.none_ with fail := fail }) ∧
  (∀ (s : State), (s.scr.swap = none → exec .drainTimeout s = .next s.settle) ∧
    (∀ e t pass, s.scr.swap = some (e, t, pass) → s.clock < t → exec .drainTimeout s = .next s.settle) ∧
    (∀ e t pass, s.scr.swap = some (e, t, pass) → t ≤ s.clock → exec .drainTimeout s = .next
      ((s.ctxsOf e).foldl (fun st p => st.endCtx p.1 St.ENGINE_FAULT false false) s).settle))

/-- R371 to R378: cartridges in and out. -/
def Obligations.CartridgesComeAndGo : Prop :=
  (∀ (s : State) slot dies cls serial mask good,
    (16 ≤ slot ∨ s.slotState slot ≠ 0 ∨ s.pwr.step < 8 → exec (.cartPresent slot dies cls serial mask good) s = .next s) ∧
    (slot < 16 → s.slotState slot = 0 → 8 ≤ s.pwr.step →
      Answers (.cartPresent slot dies cls serial mask good) s fun t => ∃ u v : State,
        v = u.raiseD Ev.CART_PRESENT slot ∧ u.slotState slot = 1 ∧ u.flag F.QUIRE_SLOT_STAT_prsnt slot = true ∧
        u.cart slot = { Cart.init with dies := dies, cls := cls, serial := serial, mask := mask % 2 ^ 32, good := good } ∧
        ((v.ownJob 7 slot 0 0).maint.jobs.find? (fun j => j.act == 7 && j.target == slot && j.state == 0) = none →
          t = v.ownJob 7 slot 0 0) ∧
        (∀ j, (v.ownJob 7 slot 0 0).maint.jobs.find? (fun j => j.act == 7 && j.target == slot && j.state == 0) = some j →
          (v.ownJob 7 slot 0 0).mayStart j = true →
          t = ((v.ownJob 7 slot 0 0).markStarted j).admitExamine slot))) ∧
  (∀ (s : State) slot answered fail,
    ((16 ≤ slot ∨ s.slotState slot ≠ 1 ∨ s.flag F.QUIRE_SLOT_STAT_pwr_en slot = false ∨
        s.flag F.QUIRE_SLOT_STAT_pgood slot = true) → exec (.slotPgoodAsserted slot answered fail) s = .next s) ∧
    (slot < 16 → s.slotState slot = 1 → s.flag F.QUIRE_SLOT_STAT_pwr_en slot = true →
      s.flag F.QUIRE_SLOT_STAT_pgood slot = false → fail % 4 ≠ 0 →
      Answers (.slotPgoodAsserted slot answered fail) s fun t => ∃ u : State,
        u = ((s.setFlag F.QUIRE_SLOT_STAT_pgood slot true).setCart slot
          { (s.setFlag F.QUIRE_SLOT_STAT_pgood slot true).cart slot with pwrSince := none }) ∧
        t = ((u.initChannels slot answered fail).cartFail slot).settle)) ∧
  (∀ (s : State) slot,
    (slot < 16 → s.slotState slot = 1 → s.flag F.QUIRE_SLOT_STAT_pgood slot = true →
      Answers (.cartAdmitted slot) s fun t => t = (s.admitSlot slot).settle) ∧
    ((16 ≤ slot ∨ s.slotState slot ≠ 1 ∨ s.flag F.QUIRE_SLOT_STAT_pgood slot = false) →
      exec (.cartAdmitted slot) s = .next s)) ∧
  (∀ (s : State) slot, slot < 16 →
    (s.slotState slot = 1 ∨ s.slotState slot = 3 ∨ s.slotState slot = 4 →
      exec (.cartFailed slot 0) s = .next (((s.setFlag F.QUIRE_SLOT_STAT_prsnt slot false).cartFail slot).settle) ∧
      exec (.cartFailed slot 2) s = .next (((s.raise (Ev.FLASH_CH_FAIL (2 * slot))).cartFail slot).settle) ∧
      exec (.cartFailed slot 3) s = .next (((s.raise (Ev.FLASH_CH_FAIL (2 * slot + 1))).cartFail slot).settle)) ∧
    (s.slotState slot ≠ 1 → s.slotState slot ≠ 3 → s.slotState slot ≠ 4 → ∀ cause,
      exec (.cartFailed slot cause) s = .next s)) ∧
  (∀ (s : State) slot, slot < 16 →
    (s.slotState slot = 4 → s.flag F.QUIRE_SLOT_STAT_pwr_en slot = false →
      exec (.cartRemovable slot) s = .next ((s.diesAbsent slot).slotRemovable slot)) ∧
    (s.slotState slot ≠ 4 → exec (.cartRemovable slot) s = .next s)) ∧
  (∀ (s : State) slot, slot < 16 →
    (s.slotState slot = 5 ∨ s.slotState slot = 2 ∨ s.slotState slot = 6 →
      Answers (.cartRemoved slot) s fun t => ∃ u : State, t = u.raiseD Ev.CART_REMOVED slot ∧ u.slotState slot = 0 ∧
        mapGet? u.flash.carts slot = none ∧ u.path = s.path ∧ u.twin = s.twin) ∧
    (s.slotState slot ≠ 5 → s.slotState slot ≠ 2 → s.slotState slot ≠ 6 → exec (.cartRemoved slot) s = .next s)) ∧
  (∀ (s : State) slot,
    ((s.cart slot).pwrSince = none → exec (.slotPwrFail slot) s = .next s) ∧
    (∀ t, slot < 16 → (s.cart slot).pwrSince = some t → s.slotState slot = 1 →
      s.flag F.QUIRE_SLOT_STAT_pwr_en slot = true → s.flag F.QUIRE_SLOT_STAT_pgood slot = false →
      (t + 50000 ≤ s.clock → exec (.slotPwrFail slot) s =
        .next ((((s.slotPwr slot false).raiseD Ev.SLOT_PWR_FAIL slot).setSlot slot 2).endSlotJobs slot St.TIMEOUT)) ∧
      (s.clock < t + 50000 → exec (.slotPwrFail slot) s = .next s)) ∧
    (∀ t, slot < 16 → (s.cart slot).pwrSince = some t → s.slotState slot = 4 →
      s.flag F.QUIRE_SLOT_STAT_pwr_en slot = false → s.flag F.QUIRE_SLOT_STAT_pgood slot = true → t + 100000 ≤ s.clock →
      exec (.slotPwrFail slot) s =
        .next ((s.setCart slot { s.cart slot with pwrSince := none }).raiseD Ev.SLOT_PWR_FAIL slot))) ∧
  (∀ (s : State) slot, slot < 16 →
    ((s.cart slot).locateUntil ≤ s.clock → exec (.locateExpiry slot) s = .next (s.slotLed slot)) ∧
    (s.clock < (s.cart slot).locateUntil → exec (.locateExpiry slot) s = .next s))

/-- R203, R305, R307, R331, R332: quires, programs and erases. -/
def Obligations.QuiresAreOpenedProgrammedAndErased : Prop :=
  (∀ (s : State) (redo : List Nat) (halt : Bool),
    (s.mayWrite = false → exec (.quireOpen redo halt) s = .next s.settle) ∧
    (s.mayWrite = true → s.quireGroup redo = none → exec (.quireOpen redo halt) s = .next s.settle) ∧
    (∀ (g : Group) (u : State), s.mayWrite = true → s.quireGroup redo = some (g, u) →
      (u.flash.journal.ckptQueue.take (g.width * 3)).length = 0 → u.flash.relocating = [] →
      (u.dueFolios.take (g.width * 3)).length = g.width * 3 → u.quireRoom g (g.width * 3) 0 = true →
      Answers (.quireOpen redo false) s fun t => ∃ v : State, t = v.settle ∧
        ∃ q, q ∈ v.flash.quires ∧ q.quire = g.num * 1024 + g.next ∧ q.width = g.width ∧ q.done = [] ∧
          q.slots.map FolioSlot.folio = u.dueFolios.take (g.width * 3) ∧ q.slots.all (fun f => f.kind == .blot) = true)) ∧
  (∀ (s : State) (quire pos : Nat) (q : QuireJob) (g : Group),
    s.flash.quires.find? (fun q => q.quire == quire) = some q → s.groupOf (quire / 1024) = some g →
    ((pos ∈ q.done ∨ q.width + 2 ≤ pos) → ∀ ok, exec (.leafProgramDone (.quire quire pos) ok) s = .next s.flashRegs.settle) ∧
    (pos ∉ q.done → pos < q.width + 2 →
      exec (.leafProgramDone (.quire quire pos) false) s =
        .next ((((s.suspEnd (g.leafOf quire pos)).abandonQuire q pos).retireBlock (g.leafOf quire pos) 1).flashRegs.settle) ∧
      ∃ v u : State, v.flash.quires = s.flash.quires.map (fun (x : QuireJob) =>
          if x.quire == quire then { q with done := setIns q.done pos } else x) ∧ v.regs = s.regs ∧
        u = (v.suspEnd (g.leafOf quire pos)).putHeaders q [pos] ∧
        ((setIns q.done pos).length < q.width + 2 →
          exec (.leafProgramDone (.quire quire pos) true) s = .next u.flashRegs.settle) ∧
        (q.width + 2 ≤ (setIns q.done pos).length → exec (.leafProgramDone (.quire quire pos) true) s =
          .next ((u.quireHeld { q with done := setIns q.done pos }).flashRegs.settle)))) ∧
  (∀ (s : State) (index slot : Nat) (l : JLeaf), s.flash.journal.leaves.find? (fun l => l.index == index) = some l →
    (slot ∈ l.programming →
      exec (.leafProgramDone (.journal index slot) true) s = .next
        (((s.suspEnd (s.ringAddr slot (mapGet 0 l.places slot / 1024 % 16))).journalGood index slot).flashRegs.settle)) ∧
    (slot ∉ l.programming → ∀ ok, exec (.leafProgramDone (.journal index slot) ok) s = .next s.flashRegs.settle)) ∧
  (∀ (s : State) (ok : Bool), exec (.leafProgramDone .log ok) s = .next (s.logProgramDone ok)) ∧
  (∀ (s : State) (block : Nat),
    ((∀ e ∈ s.flash.erases, e.block ≠ block) → ∀ ok, exec (.eraseDone block ok) s = .next s) ∧
    ((∃ e ∈ s.flash.erases, e.block = block) → Answers (.eraseDone block false) s fun t => ∃ u : State,
      u.flash.erases = s.flash.erases.filter (fun e => e.block != block) ∧ u.regs = s.regs ∧
      t = (u.retireBlock block 2).groupGone.flashRegs.settle) ∧
    ((∃ e ∈ s.flash.erases, e.block = block) → Answers (.eraseDone block true) s fun t => ∃ u v : State,
      u.flash.erases = s.flash.erases.filter (fun e => e.block != block) ∧ u.regs = s.regs ∧
      (v = (u.jAppend ⟨9, [block]⟩).clearPermit block ∨ ∃ d : DieBlocks,
        v = ((u.jAppend ⟨9, [block]⟩).clearPermit block).setDie (adSlot block) (s.dieIndex block) d ∧
        d.freed = setIns (((u.jAppend ⟨9, [block]⟩).clearPermit block).die (adSlot block) (s.dieIndex block)).freed
          (adBlock block)) ∧
      t = v.groupGone.flashRegs.settle)) ∧
  (∀ (s : State) (a cause : Nat),
    let i := s.dieIndex a
    let d := s.die (adSlot a) i
    let u := (((s.setDie (adSlot a) i { d with retired := setIns d.retired (adBlock a) }).clearPermit a).jAppend
      ⟨0x0A, [a / 2048 * 2048, cause]⟩).raiseD (if cause = 1 then Ev.PROGRAM_FAIL else Ev.ERASE_FAIL) a
    let w := (u.addSat F.FLASH_FAIL_CNT_pe_fail (2 * adSlot a + bits a 27 27) 1).addSat F.QUIRE_DIE_STAT_blocks
      (adSlot a * 32 + i) 1
    s.retireBlock a cause = if w.fld F.QUIRE_RETIRE_CFG_block_limit 0 ≤ w.fld F.QUIRE_DIE_STAT_blocks (adSlot a * 32 + i)
      then w.retireDie (adSlot a) i 2 else w) ∧
  (∀ (s : State),
    (s.flash.journal.openSince = none → exec .journalFlush s = .next s) ∧
    (∀ t, s.flash.journal.openSince = some t →
      (s.clock < t + s.fld F.QUIRE_JCFG_flush_ms 0 * 1000 → exec .journalFlush s = .next s) ∧
      (t + s.fld F.QUIRE_JCFG_flush_ms 0 * 1000 ≤ s.clock →
        exec .journalFlush s = .next s.jClose.maybeCheckpoint.settle)))

/-- R319, R357, R367, R368: relocation. -/
def Obligations.ReclaimRebuildAndReshapeMoveFolios : Prop :=
  (∀ (s : State) (room : Bool),
    (s.mayWrite = false → exec (.reclaim room) s = .next s) ∧
    (s.fld F.QUIRE_RECLAIM_CFG_free_low 0 ≤ s.fld F.QUIRE_FREE_free 0 →
      (room = false ∨ s.fld F.QUIRE_RECLAIM_CFG_free_high 0 ≤ s.fld F.QUIRE_FREE_free 0) →
      exec (.reclaim room) s = .next s) ∧
    (∀ g, s.mayWrite = true → s.fld F.QUIRE_FREE_free 0 < s.fld F.QUIRE_RECLAIM_CFG_free_low 0 →
      s.fld F.QUIRE_RECLAIM_CFG_free_low 0 / 4 ≤ s.fld F.QUIRE_FREE_free 0 → s.flash.victim = none →
      s.victimGroup = some g →
      let u : State := { s with flash := { s.flash with victim := some g.num } }
      exec (.reclaim room) s = .next
        ((u.current g.num).foldl (fun st p => if st.moving p.1 then st else st.readMove p.1 8) u).releaseEmpty.flashRegs) ∧
    (s.mayWrite = true → s.fld F.QUIRE_FREE_free 0 < s.fld F.QUIRE_RECLAIM_CFG_free_low 0 / 4 → s.flash.urgentAt = none →
      s.flash.groups = [] →
      Answers (.reclaim room) s fun t => ∃ u : State, t = u.raiseD Ev.RECLAIM_URGENT (s.fld F.QUIRE_FREE_free 0) ∧
        u.flash.urgentAt = some s.clock)) ∧
  (∀ (s : State) (g : Group), s.victimGroup = some g → g ∈ s.liveGroups ∧ g.state ≠ 1 ∧
    ∀ h ∈ s.liveGroups, h.state ≠ 1 → (s.current g.num).length ≤ (s.current h.num).length) ∧
  (∀ (s : State) (f cls : Nat),
    (s.keyLoaded (s.flashKey f) = false ∨ s.innerRoom cls = false → s.readMove f cls = s) ∧
    (s.keyLoaded (s.flashKey f) = true → s.innerRoom cls = true →
      (let rd : ReadJob := ⟨f, (s.folio f).quire, (s.folio f).leaf, (s.folio f).slot, cls, false, s.clock, 0, false⟩
       s.readMove f cls = State.issueReads { s with flash := { s.flash with reads := s.flash.reads ++ [rd] } }) ∧
      (s.readMove f cls).regs = s.regs ∧ (s.readMove f cls).ink = s.ink ∧
      (s.readMove f cls).flash.reads.length = s.flash.reads.length + 1)) ∧
  (∀ (s : State),
    (s.rebuildCheck.running 4 = none → exec .rebuild s = .next s.rebuildCheck.flashRegs) ∧
    (∀ j, s.rebuildCheck.running 4 = some j → s.rebuildCheck.rebuildNext = none →
      exec .rebuild s = .next s.rebuildCheck.moveEnds) ∧
    (∀ j g, s.rebuildCheck.running 4 = some j → s.rebuildCheck.rebuildNext = some g → s.rebuildCheck.mayWrite = false →
      exec .rebuild s = .next s.rebuildCheck) ∧
    (∀ j g, s.rebuildCheck.running 4 = some j → s.rebuildCheck.rebuildNext = some g → s.rebuildCheck.mayWrite = true →
      g.state ≠ 1 → s.rebuildCheck.groupOf g.num = some g →
      exec .rebuild s = .next (((s.rebuildCheck.moveGroup g 9).releaseEmpty.moveEnds).settle))) ∧
  (∀ (s : State) (g : Group), s.rebuildNext = some g → g ∈ s.liveGroups ∧ s.ofRebuild g = true ∧
    ∀ h ∈ s.liveGroups, s.ofRebuild h = true → s.missing h ≤ s.missing g) ∧
  (∀ (s : State) (j : Job), s.running 5 = some j →
    (s.reshapeNext = none → exec .reshape s = .next s.moveEnds) ∧
    (∀ g k, s.reshapeNext = some g → s.running 4 = some k → exec .reshape s = .next s) ∧
    (∀ g, s.reshapeNext = some g → s.running 4 = none → s.mayWrite = true → g.state ≠ 1 → s.groupOf g.num = some g →
      exec .reshape s = .next (((s.moveGroup g 10).releaseEmpty.moveEnds).settle))) ∧
  (∀ (s : State),
    (s.flash.reshapeAt = none → exec .reshapeDelayExpiry s = .next s) ∧
    (∀ t, s.flash.reshapeAt = some t →
      (s.clock < t + s.fld F.QUIRE_REBUILD_CFG_reshape_delay 0 * 60000000 → exec .reshapeDelayExpiry s = .next s) ∧
      (t + s.fld F.QUIRE_REBUILD_CFG_reshape_delay 0 * 60000000 ≤ s.clock →
        exec .reshapeDelayExpiry s = .next s.submitReshape.flashRegs)))

/-- The twin link is in service, and the message is the next one, in the epoch in force. -/
def Sys2Proof.Claims.InOrder (s : State) (h : TwinHead) : Prop :=
  s.twinUp = true ∧ s.fld F.SEC_SLOT_state 240 ≠ 2 ∧ h.epoch = s.epoch ∧ h.seq = (s.twin.recvSeq + 1) % 2 ^ 32

/-- The message is taken in: its number and its ack are used. -/
def Sys2Proof.Claims.taken (s : State) (h : TwinHead) : State :=
  ({ s with twin := { s.twin with recvSeq := h.seq, lastHeard := if s.role == 2 then s.clock else s.twin.lastHeard,
                                  lostRaised := false } }).twinAcked h.ack

/-- R585, R588, R590, R593: the end of a strike and the beginning of load-in. -/
def Obligations.LoadInBeginsAndTheStrikeEnds : Prop :=
  (∀ (s : State),
    (s.inLoadIn = false ∨ s.sen.loadStep ≠ 0 → exec .loadInStart s = .next s.settle) ∧
    (s.inLoadIn = true → s.sen.loadStep = 0 → Answers .loadInStart s fun t => ∃ u v : State,
      u.pb.start = s.pb.start + 1 ∧ u.sen.loadStep = 1 ∧ u.sen.loadSince = s.clock ∧
      v = u.strikeSeqLoad.raise Ev.LOAD_IN_START ∧
      (v.strikeIncomplete = false → t = v.loadInGo.settle) ∧
      (v.strikeIncomplete = true → t = v.strikeMissing.loadInGo.settle))) ∧
  (∀ (s : State),
    (s.inLoadIn = true → 1 ≤ s.sen.loadStep → s.sen.reserveRaised = false → s.sen.loadSince + 10000000 ≤ s.clock →
      s.reserveOk = false → exec .reserveShort s =
        .next (({ s with sen := { s.sen with reserveRaised := true } }).raise Ev.RESERVE_SHORT)) ∧
    ((s.inLoadIn = false ∨ s.sen.loadStep = 0 ∨ s.sen.reserveRaised = true ∨ s.clock < s.sen.loadSince + 10000000 ∨
      s.reserveOk = true) → exec .reserveShort s = .next s)) ∧
  (∀ (s : State) (count : Nat), Answers (.holdupSenseSample count) s fun t => t = (s.senseBank count).loadInGo.settle ∧
    (s.senseBank count).fld F.SENT_HOLDUP_count 0 = count % 4096 ∧
    ((s.senseBank count).sen.belowMin = true ↔ count % 4096 * 225 < s.fld F.SENT_BANK_FUSE_v_min 0 * 3200) ∧
    (s.inStrike = false → s.flag F.SENT_STAT_testing 0 = false →
      (count % 4096 * 225 + 3200 < s.fld F.SENT_BANK_FUSE_v_chg 0 * 3200 →
        (s.senseBank count).flag F.SENT_STAT_chg_en 0 = true) ∧
      (s.fld F.SENT_BANK_FUSE_v_chg 0 * 3200 ≤ count % 4096 * 225 →
        (s.senseBank count).flag F.SENT_STAT_chg_en 0 = false))) ∧
  (∀ (s : State) (energy : Nat),
    (s.inStrike = false ∨ s.sen.strikeOver = true ∨ s.flash.quires ≠ [] → exec (.strikeDone energy) s = .next s.settle) ∧
    (s.inStrike = true → s.sen.strikeOver = false → s.flash.quires = [] → exec (.strikeDone energy) s =
      .next (((s.strikeWrite.strikeJournal.strikeLog).strikeFinish energy).flashRegs.settle)) ∧
    (s.fld F.CURT_STRIKE_cause 0 ≠ 1 → ∃ u : State, s.strikeFinish energy = ({ u.raise Ev.STRIKE_DONE with
      sen := { (u.raise Ev.STRIKE_DONE).sen with busyUntil := (u.raise Ev.STRIKE_DONE).clock } } : State).releaseCycle
        (s.fld F.CURT_STRIKE_cause 0) ∧ u.fld F.SENT_STRIKE_STAT_energy 0 = min energy 65535 ∧
      u.fld F.SENT_STRIKE_STAT_ms 0 = min ((s.clock - s.sen.strikeSince) / 1000) 65535)) ∧
  (∀ (s : State) (h : TwinHead), InOrder s h →
    (∀ index first recs good,
      ((taken s h).sen.loadNeed = some index →
        exec (.journalCopy h index first recs good) s = .next ((taken s h).loadLeaf index good).settle) ∧
      ((taken s h).sen.loadNeed ≠ some index → (taken s h).role = 2 →
        exec (.journalCopy h index first recs good) s = .next ((taken s h).journalCopy index first recs).settle) ∧
      ((taken s h).sen.loadNeed ≠ some index → (taken s h).role ≠ 2 →
        exec (.journalCopy h index first recs good) s = .next (taken s h).settle)) ∧
    (∀ id status,
      ((taken s h).sen.loadNeed = none → exec (.fetchNak h id status) s = .next ((taken s h).fetchNak id status).settle) ∧
      (∀ i, (taken s h).sen.loadNeed = some i → i % 2 ^ 32 = id →
        exec (.fetchNak h id status) s = .next (taken s h).loadFail.settle) ∧
      (∀ i, (taken s h).sen.loadNeed = some i → i % 2 ^ 32 ≠ id →
        exec (.fetchNak h id status) s = .next ((taken s h).fetchNak id status).settle)))

/-- R576 to R581, R610: the mains. -/
def Obligations.MainsDisturbancesAreClassed : Prop :=
  (∀ (s : State) (m : Mains), (s.senseBulk m).fld F.SENT_BULK_count 0 = m.bulk % 4096 ∧
    ((s.senseBulk m).fld F.SENT_BULK_min 0 = min (m.bulk % 4096) (s.fld F.SENT_BULK_min 0)) ∧
    (s.senseBulk m).flag F.SENT_STAT_ac_fail 0 = m.ac ∧ (s.senseBulk m).flag F.SENT_STAT_pwr_ok 0 = m.ok ∧
    (s.senseBulk m).path = s.path ∧ (s.senseBulk m).sent = s.sent ∧ (s.senseBulk m).ink = s.ink) ∧
  (∀ (s : State) (value : Nat),
    (bitB value 31 = true → Answers (.rearm value) s fun t => t.fld F.SENT_BULK_min 0 = 0xFFF ∧
      t.fld F.SENT_BULK_count 0 = s.fld F.SENT_BULK_count 0 ∧ t.sen = s.sen) ∧
    (bitB value 31 = false → exec (.rearm value) s = .next s)) ∧
  (∀ (s : State) (m : Mains),
    (mainsTrouble m = true → s.sen.distSince = none → s.inStrike = false → s.pwr.aonUp = true →
      Answers (.disturbance m) s fun t => t.sen.distSince = some s.clock ∧ t.sen.distMin = m.bulk % 4096 ∧
        t.sen.busyUntil = s.clock) ∧
    ((mainsTrouble m = false ∨ s.sen.distSince ≠ none ∨ s.inStrike = true ∨ s.pwr.aonUp = false) →
      exec (.disturbance m) s = .next (s.senseBulk m))) ∧
  (∀ (s : State) (m : Mains),
    ((s.sen.distSince = none ∨ mainsTrouble m = true ∨ s.sen.sagSince ≠ none ∨ s.sagMet = true ∨ s.dropMet = true) →
      exec (.blip m) s = .next (s.senseBulk m)) ∧
    (∀ t, s.sen.distSince = some t → mainsTrouble m = false → s.sen.sagSince = none → s.sagMet = false →
      s.dropMet = false → Answers (.blip m) s fun u => u.sen.distSince = none ∧ u.sen.distMin = 0xFFF ∧
        u.sen.busyUntil = s.clock)) ∧
  (∀ (s : State) (m : Mains),
    ((s.sagMet = true ∨ (s.senseBulk m).sagMet = true) → s.sen.sagSince = none → s.inStrike = false →
      s.pwr.aonUp = true → Answers (.sagEnter m) s fun t => ∃ u : State,
        t = (u.raise Ev.SAG_ENTER).setCeiling.settle ∧ u.sen.sagSince = some s.clock ∧ u.ink.sag = true ∧
        u.flag F.SENT_STAT_sag_hold 0 = false ∧ (u.sen.sagRepeat = true ↔
          (s.sen.holdUntil ≠ none ∨ ∃ e, s.sen.sagEnded = some e ∧ s.clock ≤ e + 10000000))) ∧
    (((s.sagMet = false ∧ (s.senseBulk m).sagMet = false) ∨ s.sen.sagSince ≠ none ∨ s.inStrike = true ∨
      s.pwr.aonUp = false) → exec (.sagEnter m) s = .next (s.senseBulk m).settle)) ∧
  (∀ (s : State) (m : Mains),
    (s.sen.sagSince = none → exec (.sagExit m) s = .next (s.senseBulk m).settle) ∧
    (∀ t, s.sen.sagSince = some t → (s.senseBulk m).heldFor (s.senseBulk m).sen.goodSince 500000 = false →
      exec (.sagExit m) s = .next (s.senseBulk m).settle) ∧
    (∀ t, s.sen.sagSince = some t → (s.senseBulk m).heldFor (s.senseBulk m).sen.goodSince 500000 = true →
      Answers (.sagExit m) s fun v => ∃ u : State, v = (u.raise Ev.SAG_EXIT).setCeiling.settle ∧ u.sen.sagSince = none ∧
        u.sen.sagEnded = some s.clock ∧ u.flag F.SENT_STAT_sag_hold 0 = s.sen.sagRepeat ∧ u.ink.sag = s.sen.sagRepeat ∧
        u.sen.holdUntil = if s.sen.sagRepeat then some (s.clock + 60000000) else none)) ∧
  (∀ (s : State),
    (s.sen.holdUntil = none → exec .sagHoldEnd s = .next s.settle) ∧
    (∀ t, s.sen.holdUntil = some t → s.clock < t → exec .sagHoldEnd s = .next s.settle) ∧
    (∀ t, s.sen.holdUntil = some t → t ≤ s.clock → Answers .sagHoldEnd s fun v => ∃ u : State,
      v = u.setCeiling.settle ∧ u.sen.holdUntil = none ∧ u.flag F.SENT_STAT_sag_hold 0 = false ∧
      u.ink.sag = s.sen.sagSince.isSome))

/-- R595, R596: the hold-up test. -/
def Obligations.HoldupTestsMeasureTheBank : Prop :=
  (∀ (s : State) (go : Bool),
    (s.flag F.SENT_STAT_testing 0 = true → exec (.holdupTest go) s = .next s) ∧
    (go = false → s.testDueSince = none → exec (.holdupTest go) s = .next s) ∧
    ((go = true ∨ s.testDueSince ≠ none) → s.testMay = true → Answers (.holdupTest go) s fun t =>
      t.flag F.SENT_STAT_testing 0 = true ∧ t.flag F.SENT_STAT_chg_en 0 = false ∧ t.sen.testSince = s.clock ∧
      t.path = s.path ∧ t.ink = s.ink) ∧
    ((go = true ∨ s.testDueSince ≠ none) → s.flag F.SENT_STAT_testing 0 = false → s.testMay = false → s.running 0x0D = none →
      exec (.holdupTest go) s = .next { s with sen := { s.sen with testDue := some (s.testDueSince.getD s.clock) } })) ∧
  (∀ (s : State),
    ((s.testDueSince = none ∨ s.sen.testLate = true ∨ s.flag F.SENT_STAT_testing 0 = true) →
      exec .holdupTestLate s = .next s) ∧
    (∀ t, s.testDueSince = some t → s.clock < t + 3600000000 → exec .holdupTestLate s = .next s) ∧
    (∀ t, s.testDueSince = some t → t + 3600000000 ≤ s.clock → s.sen.testLate = false →
      s.flag F.SENT_STAT_testing 0 = false → exec .holdupTestLate s =
        .next (({ s with sen := { s.sen with testLate := true, testDue := some t } }).raise Ev.HOLDUP_TEST_LATE))) ∧
  (∀ (s : State) sum0 v1 qsum sum2,
    (s.flag F.SENT_STAT_testing 0 = false → (s.pwr.step ≠ 6 ∨ s.sen.measured = true ∨ s.sen.atCharge = true) →
      exec (.holdupTested sum0 v1 qsum sum2) s = .next s.settle) ∧
    (s.flag F.SENT_STAT_testing 0 = false → s.pwr.step = 6 → s.sen.measured = false → s.sen.atCharge = false →
      s.sen.bankSince + 60000000 ≤ s.clock →
      exec (.holdupTested sum0 v1 qsum sum2) s = .next ((s.publishE 0).raise Ev.HOLDUP_UNFIT).settle) ∧
    (s.flag F.SENT_STAT_testing 0 = true → s.running 0x0D = none →
      Answers (.holdupTested sum0 v1 qsum sum2) s fun t => ∃ u : State,
        u.sen.testedAt = some s.clock ∧ u.sen.testLate = false ∧ u.flag F.SENT_HOLDUP_E_valid 0 = true ∧
        u.fld F.SENT_HOLDUP_C_esr 0 = s.testEsr sum0 v1 % 65536 ∧
        u.fld F.SENT_HOLDUP_C_cap_mf 0 = s.testCap sum0 qsum sum2 % 65536 ∧
        (s.testEsr sum0 v1 ≤ Config.fuseEsrMax.toNat → t = (u.raise Ev.HOLDUP_TESTED).settle ∧
          u.fld F.SENT_HOLDUP_E_e_mj 0 = min (s.eta * s.testCap sum0 qsum sum2 *
            (s.vChg ^ 2 - s.testVe (s.testEsr sum0 v1) ^ 2) / 200000000) 262143) ∧
        (Config.fuseEsrMax.toNat < s.testEsr sum0 v1 →
          t = ((u.raise Ev.HOLDUP_TESTED).raise Ev.HOLDUP_UNFIT).settle ∧ u.fld F.SENT_HOLDUP_E_e_mj 0 = 0)))

/-- The refusal of a transaction by the filter. -/
def Sys2Proof.Claims.Denied (c : Instr) (s : State) (e : Nat) : Prop :=
  exec c s = .next ((s.setFld F.SENT_PMB_CMD_status 0 St.CURTAIN_DENIED).raiseD Ev.PMBUS_DENIED e)

/-- The transaction goes on the bus, and ends DONE. -/
def Sys2Proof.Claims.OnBus (c : Instr) (s : State) (e code : Nat) (data : Option Nat) (p : State → Prop) : Prop :=
  Answers c s fun t => t.sent = s.sent ++ [.pmbus (s.fld F.SENT_PMB_TAB_addr e) (s.fld F.SENT_PMB_TAB_page e) code data] ∧
    t.fld F.SENT_PMB_CMD_status 0 = St.DONE ∧ t.path = s.path ∧ t.ink = s.ink ∧ t.flash = s.flash ∧ p t

/-- R600 to R602, R604, R605: PMBus and the core voltage. -/
def Obligations.ThePmbusFilterPassesItsTable : Prop :=
  (∀ (s : State) (e v : Nat), ∀ p ∈ [(Instr.statusWord e v, 0x79), (.readVin e v, 0x88), (.readIin e v, 0x89),
      (.readVout e v, 0x8B), (.readIout e v, 0x8C), (.readTemperature1 e v, 0x8D), (.readPout e v, 0x96),
      (.readPin e v, 0x97)],
    (s.inStrike = true → exec p.1 s = .next (s.setFld F.SENT_PMB_CMD_status 0 St.ABORTED)) ∧
    (s.inStrike = false → s.pmbValid e = false → Denied p.1 s e) ∧
    (s.inStrike = false → s.pmbValid e = true → OnBus p.1 s e p.2 none fun t =>
      t.fld F.SENT_PMB_DATA_data 0 = v % 65536 ∧ t.sen = s.sen)) ∧
  (∀ (s : State) (e : Nat),
    (s.inStrike = true → exec (.clearFaults e) s = .next (s.setFld F.SENT_PMB_CMD_status 0 St.ABORTED)) ∧
    (s.inStrike = false → s.pmbValid e = false → Denied (.clearFaults e) s e) ∧
    (s.inStrike = false → s.pmbValid e = true → OnBus (.clearFaults e) s e 3 none fun t => t.sen = s.sen)) ∧
  (∀ (s : State) (e d : Nat), s.inStrike = false →
    (s.pmbValid e = false ∨ s.inBand e (d % 65536) = false → Denied (.voutCommand e d) s e) ∧
    (s.pmbValid e = true → s.inBand e (d % 65536) = true →
      OnBus (.voutCommand e d) s e 0x21 (some (d % 65536)) fun t => t.sen = s.sen)) ∧
  (∀ (s : State) (e d : Nat), s.inBand e d = true ↔
    s.fld F.CURT_BAND_min_mv (s.fld F.SENT_PMB_TAB_band e) * 2 ^ mapGet 0 s.sen.voutMode e ≤ d * 1000 ∧
    d * 1000 ≤ s.fld F.CURT_BAND_max_mv (s.fld F.SENT_PMB_TAB_band e) * 2 ^ mapGet 0 s.sen.voutMode e) ∧
  (∀ (s : State) (e : Nat) (on : Bool), s.inStrike = false →
    let g := s.fld F.SENT_PMB_TAB_group e
    let i := s.fld F.CURT_SEQ_interval g * 1000
    (s.pmbValid e = false → Denied (.operation e on) s e) ∧
    (s.flag F.SENT_PMB_TAB_self e = true → Denied (.operation e false) s e) ∧
    (∀ t, mapGet? s.sen.railOps g = some t → s.clock < t + i → Denied (.operation e on) s e) ∧
    (s.pmbValid e = true → (on = true ∨ s.flag F.SENT_PMB_TAB_self e = false) →
      (mapGet? s.sen.railOps g = none ∨ ∃ t, mapGet? s.sen.railOps g = some t ∧ t + i ≤ s.clock) →
      OnBus (.operation e on) s e 1 (some (if on then 0x80 else 0)) fun t =>
        t.sen = { s.sen with railOps := mapSet s.sen.railOps g s.clock })) ∧
  (∀ (s : State) answered ms bytes mw, Answers (.pmbusPoll answered ms bytes mw) s fun t =>
    t = (let u := ((upto 32).filter s.pmbValid).foldl (fun st e => st.pollOne e (bitB answered e)) s
      match u.esaveWindow ms bytes mw with
      | some w => { u with sen := { u.sen with esaveMax := max u.sen.esaveMax w } }
      | none => u)) ∧
  (∀ (s : State) (e : Nat) (ok : Bool), ∃ u : State,
    u.sen.fails = mapSet s.sen.fails e (if ok then 0 else mapGet 0 s.sen.fails e + 1) ∧ u.regs = s.regs ∧
    u.sent.length = s.sent.length + 3 ∧
    s.pollOne e ok = if ok = false ∧ mapGet 0 s.sen.fails e = 2 then u.raiseD Ev.PMBUS_FAULT e else u) ∧
  (∀ (s : State) (v : Nat), Answers (.dvfsRaise v) s fun t => t.fld F.SENT_DVFS_raise 0 = bits v 1 1 ∧
    t.flag F.SENT_DVFS_ready 0 = s.flag F.SENT_DVFS_ready 0 ∧ t.sen = s.sen) ∧
  (∀ (s : State),
    (s.flag F.SENT_DVFS_raise 0 = true → s.flag F.SENT_DVFS_ready 0 = false → exec .dvfsReady s = .next
      ((s.setFld F.SENT_DVFS_vdd_mv 0 (vddMv 0)).setFlag F.SENT_DVFS_ready 0 true).sceneJobGo) ∧
    (s.flag F.SENT_DVFS_raise 0 = false ∨ s.flag F.SENT_DVFS_ready 0 = true → exec .dvfsReady s = .next s))

/-- R606 to R609: power cap and meters. -/
def Obligations.PowerCapAndEnergyMeters : Prop :=
  (∀ s : State, 60 ≤ s.powerCap ∧ s.powerCap ≤ 110) ∧
  (∀ (s : State) (mw : Nat), Answers (.pcapEstimate mw) s fun t =>
    t.sen.power = (mw :: s.sen.power).take 10 ∧
    t.fld F.SENT_PWR_power 0 = min (((mw :: s.sen.power).take 10).foldl (· + ·) 0 /
      ((mw :: s.sen.power).take 10).length / 10) 65535 ∧
    t.path = s.path ∧ t.ink = s.ink ∧ t.flash = s.flash ∧ t.twin = s.twin) ∧
  (∀ s : State,
    (s.inStrike = true → s.pcapStep = s) ∧
    (s.inStrike = false → s.powerCap * 1000 < s.powerMean → s.pcapStep.sen.steps = min 16 (s.sen.steps + 1) ∧
      s.pcapStep.flag F.SENT_STAT_throttle 0 = true) ∧
    (s.inStrike = false → s.powerCap * 1000 < s.powerMean → s.sen.steps = 0 → ∃ u : State,
      s.pcapStep = (u.raise Ev.PCAP_THROTTLE).throttleFlag ∧ u.regs = s.regs) ∧
    (s.inStrike = false → s.powerMean + 2000 ≤ s.powerCap * 1000 → ∀ t, s.sen.coolSince = some t →
      (t + 10000 ≤ s.clock → s.pcapStep.sen.steps = s.sen.steps - 1) ∧
      (s.clock < t + 10000 → s.pcapStep.sen.steps = s.sen.steps)) ∧
    (s.inStrike = false → s.powerMean ≤ s.powerCap * 1000 → s.powerCap * 1000 < s.powerMean + 2000 →
      s.pcapStep.sen.steps = s.sen.steps ∧ s.pcapStep.sen.coolSince = none ∧ s.pcapStep.regs = s.regs)) ∧
  (∀ (s : State) (i u : Nat), i < 256 → s.meter i + (mapGet 0 s.sen.meterFrac i + u) / unitsPerMj < 2 ^ 64 →
    (s.chargeMeter i u).meter i = s.meter i + (mapGet 0 s.sen.meterFrac i + u) / unitsPerMj ∧
    mapGet 0 (s.chargeMeter i u).sen.meterFrac i = (mapGet 0 s.sen.meterFrac i + u) % unitsPerMj ∧
    (∀ j, j ≠ i → j < 256 → (s.chargeMeter i u).meter j = s.meter j)) ∧
  (∀ (s : State) (counts : List (Nat × MeterCounts)) (static : Nat),
    Answers (.meterUpdate counts static) s fun t =>
      let dyn := counts.foldl (fun m p => mapUpd 0 m (min p.1 256) (fun x => x + countsPj p.2 * unitsPerPj)) s.restUnits
      let total := dyn.foldl (fun a p => a + p.2) 0
      let shares := dyn.map (fun p => (p.1, static * unitsPerPj * p.2 / max 1 total))
      let u := (List.zip dyn shares).foldl (fun (st : State) p => st.chargeMeter p.1.1 (p.1.2 + p.2.2)) s
      t = u.chargeMeter 256 (static * unitsPerPj - shares.foldl (fun a p => a + p.2) 0)) ∧
  (∀ c : MeterCounts,
    countsPj c = 60 * c.pins + 1600 * c.lookups + 6400 * c.dram + 350 * c.staged + 70400 * c.dirtied + 250 * c.cycles)

/-- The messages of R540 but HELLO and HANDOVER_ACK. -/
def Sys2Proof.Claims.TwinMessage (h : TwinHead) (m : Instr) : Prop :=
  (∃ a, m = .heartbeat h a) ∨ m = .ack h ∨ (∃ r, m = .store h r) ∨ (∃ r, m = .sealMsg h r) ∨
  (∃ a b w l, m = .tableSync h a b w l) ∨ (∃ a b, m = .tableResult h a b) ∨ (∃ a b, m = .fetchReq h a b) ∨
  (∃ a b c, m = .fetchData h a b c) ∨ (∃ a b, m = .fetchNak h a b) ∨ (∃ a b r g, m = .journalCopy h a b r g) ∨
  (∃ a, m = .journalReq h a) ∨ (∃ a b, m = .checkpointNote h a b) ∨ (∃ a b, m = .bitmap h a b) ∨
  (∃ a b c, m = .resyncFolio h a b c) ∨ (∃ a b c, m = .handbackFolio h a b c) ∨ (∃ a b, m = .resyncDone h a b) ∨
  (∃ a, m = .mirrorReady h a) ∨ (∃ a, m = .handover h a)

/-- R537, R538: what a message meets before its body is read. -/
def Obligations.TwinMessagesAreCheckedBeforeTheyAreTaken : Prop :=
  ∀ (s : State) (h : TwinHead) (m : Instr), TwinMessage h m ∨ m = .handoverAck h →
    ((s.twinUp = false ∨ s.fld F.SEC_SLOT_state 240 = 2) → exec m s = .next s.settle) ∧
    (s.twinUp = true → s.fld F.SEC_SLOT_state 240 ≠ 2 → s.twin.toSettle = false →
      (h.epoch < s.epoch →
        exec m s = .next ((s.addSat F.TWIN_STALE_CNT_count 0 1).raise Ev.TWIN_STALE).settle) ∧
      (s.epoch < h.epoch → (m ≠ .handoverAck h ∨ s.role ≠ 1 ∨ s.twin.handover = none) →
        exec m s = .next ((((s.twinFall 3).setFlag F.TWIN_STAT_fenced 0 true).sendHello).settle)) ∧
      (h.epoch = s.epoch → h.seq ≠ (s.twin.recvSeq + 1) % 2 ^ 32 →
        exec m s = .next (({ s with twin := { s.twin with width0 := 0, width1 := 0 } } : State).twinFall 0).settle))

/-- R548, R550, R560, R564, R568, R570, R571: the bodies of the twin messages. -/
def Obligations.TwinMessagesDoWhatTheirTypeSays : Prop :=
  ∀ (s : State) (h : TwinHead), InOrder s h →
    let u := taken s h
    (∀ ink, exec (.heartbeat h ink) s = .next u.settle) ∧
    (s.twin.ackedSeq ≠ s.twin.recvSeq → exec (.ack h) s = .next u.settle) ∧
    (s.twin.ackedSeq = s.twin.recvSeq → ∃ v : State, exec (.ack h) s = .next (v.twinAcked h.ack).settle ∧
      v = { s with twin := { s.twin with recvSeq := h.seq, ackedSeq := h.seq, lastHeard := v.twin.lastHeard, lostRaised := false } } ∧
      v.twin.lastHeard = (if s.role = 2 then s.clock else s.twin.lastHeard)) ∧
    (∀ recs, (u.role ≠ 2 → exec (.store h recs) s = .next u.settle ∧ exec (.sealMsg h recs) s = .next u.settle) ∧
      (u.role = 2 → exec (.store h recs) s = .next ((recs.take 48).foldl (fun (st : State) w =>
        st.acceptInner (st.request (.twin h.seq) true (w.line * 64) [w] 12 (st.clock + 2 ^ 40) false false none)) u).settle) ∧
      (∀ w t, u.role = 2 → recs.take 64 = w :: t → exec (.sealMsg h recs) s = .next (u.acceptInner (u.request (.twin h.seq) true
        (w.line * 64) (w :: t) 12 (u.clock + 2 ^ 40) false true none)).settle)) ∧
    (∀ table index ws last, (u.role ≠ 2 → exec (.tableSync h table index ws last) s = .next u.settle) ∧
      (u.role = 2 → ∃ x v : State, x = u.setTabEntry false (table % 3) index (ws.take (tabWords (table % 3))) ∧
        v = { x with twin := { x.twin with tablesIn := x.twin.tablesIn ++ [h.seq] } } ∧
        exec (.tableSync h table index ws last) s = .next (if last then v.ownCommit (.twin h.seq) else v).settle)) ∧
    (∀ q st, (st = St.DONE ∨ q ∉ u.region.tableSync → exec (.tableResult h q st) s = .next
        ({ u with region := { u.region with tableSync := u.region.tableSync.filter (fun x => x != q) } } : State).settle) ∧
      (∀ by_, st ≠ St.DONE → q ∈ u.region.tableSync → u.region.commit = some by_ →
        Answers (.tableResult h q st) s fun t => ∃ v : State, t = (v.commitTell by_ St.CURTAIN_DENIED).settle ∧
          v.region.commit = none ∧ v.region.tableSync = [])) ∧
    (∀ first marks, (u.twin.resyncSends = false ∨ u.twin.bitmapDue = false →
        exec (.bitmap h first marks) s = .next u.settle) ∧
      (u.twin.resyncSends = true → u.twin.bitmapDue = true → Answers (.bitmap h first marks) s fun t => ∃ v : State,
        t = v.settle ∧ v.twin.bitmapDue = false ∧ v.twin.resyncTotal = v.twin.resyncLeft.length ∧
        v.twin.divMap = ((upto marks.length).filter (fun k => marks.getD k false)).foldl
          (fun a k => setIns a (first + k)) u.twin.divMap)) ∧
    (∀ f zero cells, (u.role = 2 →
        exec (.resyncFolio h f zero cells) s = .next (u.takeWhole f (if zero then [] else cells)).settle) ∧
      (u.role ≠ 2 → exec (.resyncFolio h f zero cells) s = .next u.settle) ∧
      (∀ e, u.regionAt (f * 65536) = some e →
        (e.idx ∈ u.twin.absentNone →
          exec (.handbackFolio h f zero cells) s = .next (u.takeWhole f (if zero then [] else cells)).settle) ∧
        (e.idx ∉ u.twin.absentNone → exec (.handbackFolio h f zero cells) s = .next u.settle)) ∧
      (u.regionAt (f * 65536) = none → exec (.handbackFolio h f zero cells) s = .next u.settle)) ∧
    (∀ part absent,
      (part = 1 → u.role = 2 →
        exec (.resyncDone h part absent) s = .next ((u.resyncCleared.fetchAgain).handbackBegin absent).settle) ∧
      (part = 1 → u.role ≠ 2 → exec (.resyncDone h part absent) s = .next u.settle) ∧
      (part = 2 → Answers (.resyncDone h part absent) s fun t => ∃ v : State, t = v.settle ∧ v.twin.absentNone = []) ∧
      (2 < part → exec (.resyncDone h part absent) s = .next u.settle)) ∧
    (∀ r, exec (.mirrorReady h r) s = .next (u.mirrorReady r).settle) ∧
    (∀ f i, ((∀ e, u.regionAt (f * 65536) = some e → e.persistent = false ∨ e.mirror = 0) →
        exec (.fetchReq h f i) s = .next (u.twinSend 0x22 (.fetchNak i St.ACCESS_DENIED) none []).settle) ∧
      (∀ e, u.regionAt (f * 65536) = some e → e.persistent = true → e.mirror ≠ 0 → u.synced = false →
        exec (.fetchReq h f i) s = .next (u.twinSend 0x22 (.fetchNak i St.RETRY_LATER) none []).settle) ∧
      (∀ e, u.regionAt (f * 65536) = some e → e.persistent = true → e.mirror ≠ 0 → u.synced = true →
        u.fld F.TWIN_STAT_resync 0 = 0 → (u.folio f).state ≠ .absent → exec (.fetchReq h f i) s =
        .next ({ u with twin := { u.twin with asked := u.twin.asked ++ [(i, f)] } } : State).settle)) ∧
    (∀ i good cells, (u.twin.fetches.find? (fun j => j.id == i) = none →
        exec (.fetchData h i good cells) s = .next u.settle) ∧
      (∀ j, u.twin.fetches.find? (fun j => j.id == i) = some j →
        exec (.fetchData h i false cells) s = .next
          (((u.dropFetch i).raiseD Ev.TWIN_FETCH_FAIL (j.folio * 65536)).fetchLost j).settle ∧
        ((j.why = .staging ∨ j.why = .repair) → Answers (.fetchData h i true cells) s fun t => ∃ v : State,
          t = v.settle ∧ v.twin.fetched = u.twin.fetched ++ [(j.folio, j.why, cells)] ∧
          v.twin.fetches = u.twin.fetches.filter (fun j => j.id != i)))) ∧
    (∀ i, (∀ c, mapGet? u.flash.twinCopies i = some c →
        exec (.journalReq h i) s = .next (u.twinSend 0x23 (.journalCopy i c.1 c.2) none []).settle) ∧
      (mapGet? u.flash.twinCopies i = none →
        exec (.journalReq h i) s = .next (u.twinSend 0x22 (.fetchNak (i % 2 ^ 32) St.LOST) none []).settle)) ∧
    (∀ n first, Answers (.checkpointNote h n first) s fun t => ∃ v : State, t = v.settle ∧
      v.flash.twinCopies = u.flash.twinCopies.filter (fun c => decide (first ≤ c.1))) ∧
    (∀ final, (u.role = 2 → exec (.handover h final) s =
        .next ({ u with twin := { u.twin with handover := some h.seq } } : State).settle) ∧
      (u.role ≠ 2 → exec (.handover h final) s = .next u.settle)) ∧
    ((u.role ≠ 1 ∨ u.twin.handover = none) → exec (.handoverAck h) s = .next u.settle) ∧
    (u.role = 1 → u.twin.handover ≠ none → Answers (.handoverAck h) s fun t => ∃ v w : State,
      v = { u with twin := { u.twin with handover := none, gateClosed := false } } ∧
      w = (v.takeRole 2 h.epoch).endHandover St.DONE ∧ t = (w.handbackBegin w.noneRegions).settle)

/-- R530 to R567, R770: roles, leases and timers. -/
def Obligations.TwinRolesLeasesAndTimers : Prop :=
  (∀ (s : State) (w0 w1 : Nat) (session : Bool),
    (w0 ≠ 8 → w0 ≠ 16 → w1 ≠ 8 → w1 ≠ 16 → exec (.twinLinkTrained w0 w1 session) s =
      .next ({ s with twin := { s.twin with width0 := 0, width1 := 0 } } : State).settle) ∧
    (w0 = 16 → s.twinUp = false → s.pairs = true → s.pwr.ctlUp = true → s.inStrike = false → s.fld F.TWIN_STAT_link 0 < 3 →
      ∃ u : State, (session = false → exec (.twinLinkTrained w0 w1 session) s =
          .next ((u.setTwinLink 2).raise Ev.SPDM_AUTH_FAIL).settle ∧ u.twin.width0 = 16 ∧ u.regs = s.regs) ∧
        (session = true → exec (.twinLinkTrained w0 w1 session) s = .next u.sendHello.settle ∧
          u.fld F.TWIN_STAT_link 0 = 3))) ∧
  (∀ (s : State) (link : Nat), ∃ u : State,
    u = { s with twin := if link = 0 then { s.twin with width0 := 0 } else { s.twin with width1 := 0 } } ∧
    (u.twin.width0 = 0 ∧ u.twin.width1 = 0 → exec (.twinLinkDown link) s = .next (u.twinFall 0).settle) ∧
    ((u.twin.width0 ≠ 0 ∨ u.twin.width1 ≠ 0) → s.twinUp = true → s.fld F.TWIN_STAT_link 0 ≠ 5 →
      exec (.twinLinkDown link) s = .next ((u.setTwinLink 5).raise Ev.TWIN_DEGRADED).settle)) ∧
  (∀ (s : State) (link : Nat),
    exec (.integrityFrame link false) s = .next ((({ s with twin := { s.twin with width0 := 0, width1 := 0 } } :
      State).twinFall 0).raise Ev.TWIN_INTEGRITY_FAIL).settle ∧
    (s.fld F.SEC_SLOT_state (240 + 2 * (link % 2)) ≠ 2 → (s.countNonce (8 + link % 2)).2 = true →
      exec (.integrityFrame link true) s = .next (s.countNonce (8 + link % 2)).1.settle)) ∧
  (∀ (s : State) id epoch role dv sy de gr pl held,
    (s.pairs = false ∨ s.fld F.TWIN_STAT_link 0 < 3 ∨ s.fld F.TWIN_STAT_link 0 = 7 →
      exec (.hello id epoch role dv sy de gr pl held) s = .next s.settle) ∧
    (s.pairs = true → s.fld F.TWIN_STAT_link 0 = 3 → Answers (.hello id epoch role dv sy de gr pl held) s fun t =>
      ∃ u : State, u = ((s.helloNote ⟨id, epoch, role, dv, sy, de, gr, pl, held⟩).helloId id).helloUp ∧
        (u.mayTakeRole = true → t = u.settleRoles.settle) ∧ (u.mayTakeRole = false → t = u.settle))) ∧
  (∀ s : State,
    (s.role ≠ 1 ∨ s.twinUp = false ∨ s.twin.heartbeatStopped = true ∨
      (s.clock < s.twin.lastBeat + 2000 ∧ s.clock < s.twin.lastSent + 2000) → exec .heartbeatSend s = .next s) ∧
    (s.role = 1 → s.twinUp = true → s.twin.heartbeatStopped = false → s.twin.lastBeat + 2000 ≤ s.clock →
      Answers .heartbeatSend s fun t => t.twin.lastBeat = s.clock ∧ t.sent = s.sent ++ [.twin s.epoch
        ((s.twin.sendSeq + 1) % 2 ^ 32) s.twin.ackedSeq (.heartbeat (s.fld F.INK_CNT_ink 0))] ∧ t.regs = s.regs)) ∧
  (∀ s : State,
    (∀ t, s.role = 1 → s.twin.leaseEnd = some t → t ≤ s.clock → exec .leaseExpired s =
      .next ((({ s with twin := { s.twin with leaseEnd := none } } : State).setFlag F.TWIN_STAT_fenced 0 true).raise
        Ev.LEASE_EXPIRED).settle) ∧
    ((s.role ≠ 1 ∨ s.twin.leaseEnd = none ∨ ∃ t, s.twin.leaseEnd = some t ∧ s.clock < t) →
      exec .leaseExpired s = .next s.settle)) ∧
  (∀ s : State,
    (s.role ≠ 2 ∨ s.clock < s.twin.lastHeard + 6000 → exec .promoted s = .next s.settle) ∧
    (s.role = 2 → s.twin.lastHeard + 6000 ≤ s.clock → s.synced = true → s.epoch < 0xFFFFFFFF → s.epochRoom = true →
      exec .promoted s = .next (((s.raise Ev.PROMOTED).tookOver).takeRole 3 (s.epoch + 1)).settle) ∧
    (s.role = 2 → s.twin.lastHeard + 6000 ≤ s.clock → s.synced = false → s.twin.lostRaised = false →
      exec .promoted s =
        .next ((({ s with twin := { s.twin with lostRaised := true } } : State).raise Ev.HEARTBEAT_LOST).settle))) ∧
  (∀ s : State,
    (s.role = 0 ∨ s.role = 2 → s.epoch ≠ 0xFFFFFFFF → s.epochRoom = true →
      exec .soloDeclaration s = .next ((s.tookOver).takeRole 3 (s.epoch + 1)).settle) ∧
    (s.role = 1 → s.fenced = true → s.epoch ≠ 0xFFFFFFFF → s.epochRoom = true →
      exec .soloDeclaration s = .next (s.takeRole 3 (s.epoch + 1)).settle) ∧
    (s.role = 3 ∨ (s.role = 1 ∧ s.fenced = false) → exec .soloDeclaration s = .next s.settle)) ∧
  (∀ s : State,
    (∀ t, s.role = 1 → s.twin.newLeadSince = some t → t + 6000 ≤ s.clock → exec .handoverAckTimeout s =
      .next ((({ s with twin := { s.twin with newLeadSince := none } } : State).takeRole 3 s.epoch).settle)) ∧
    ((s.role ≠ 1 ∨ s.twin.newLeadSince = none) → exec .handoverAckTimeout s = .next s.settle)) ∧
  (∀ s : State,
    (s.fld F.TWIN_STAT_link 0 ≠ 6 → exec .twinYield s = .next s) ∧
    (s.fld F.TWIN_STAT_link 0 = 6 → exec .twinYield s = .next
      ((((s.epochWrite { s.twin.record with epoch := 0, divValid := false }).setTwinLink 3).sendHello).settle))) ∧
  (∀ s : State, (∀ j ∈ s.maint.jobs, j.act ≠ 9) →
    (s.twinUp = false → exec .twinResync s = .next s.settle) ∧
    (∀ f rest, s.twinUp = true → s.role ≠ 2 → s.twin.resyncSends = true → s.twin.bitmapDue = false →
      s.region.tableSync = [] → s.twin.resyncDoneSeq = none → s.twin.resyncLeft = f :: rest → exec .twinResync s =
      .next ((({ s with twin := { s.twin with resyncLeft := rest } } : State).sendWhole false f).resyncProgress.settle))) ∧
  (∀ (s : State) (i : Nat),
    (s.twin.fetches.find? (fun j => j.id == i) = none → exec (.twinFetchFail i) s = .next s.settle) ∧
    (∀ j, s.twin.fetches.find? (fun j => j.id == i) = some j →
      (j.since + s.fld F.TWIN_CFG_fetch_ms 0 * 1000 ≤ s.clock → exec (.twinFetchFail i) s =
        .next ((((s.dropFetch i).raiseD Ev.TWIN_FETCH_FAIL (j.folio * 65536)).fetchLost j).settle)) ∧
      (s.clock < j.since + s.fld F.TWIN_CFG_fetch_ms 0 * 1000 → exec (.twinFetchFail i) s = .next s.settle))) ∧
  (∀ (s : State) (f : Nat),
    (s.ink.building = false → exec (.secondCopyBuilt f) s = .next s.settle) ∧
    (s.ink.building = true → (s.buildSecond f).lacking ≠ [] →
      exec (.secondCopyBuilt f) s = .next (s.buildSecond f).settle) ∧
    (s.ink.building = true → (s.buildSecond f).lacking = [] → exec (.secondCopyBuilt f) s =
      .next (({ s.buildSecond f with ink := { (s.buildSecond f).ink with building := false } } : State).setFlag
        F.TWIN_STAT_solo_copies 0 false).settle) ∧
    ((s.folio f).isInk = true → (s.folio f).covered = false → (s.folio f).state ≠ .absent →
      s.chanFrozen (chanOf (s.folio f).frame) = false → (((s.folioCells f).2.takePair f).folio f).pairFrame ≠ none →
      ((s.buildSecond f).folio f).second = some (2 ^ 1024 - 1)))

/-- The doorbells accepted so far are none, and the queue is there. -/
def Sys2Proof.Claims.Bell (s : State) (ld id : Nat) (q : Queue) : Prop :=
  s.que.bells = [] ∧ s.queue ld id = some q ∧ ld < 128 ∧ id < 65536

/-- R507 to R517, R525: doorbells and tickets. -/
def Obligations.TicketsAreFetchedAdmittedAndCompleted : Prop :=
  (∀ (s : State) (ld v : Nat), s.que.bells = [] → ld < 128 → v < 2 ^ 64 → s.queue ld (bits v 47 32) = none →
    ∀ c ∈ [Instr.submissionTail ld v, .completionHead ld v, .noteHead ld v],
      exec c s = .next ((s.addSat F.QUEUE_DB_BAD_CNT_count 0 1).raiseD Ev.DOORBELL_BAD ld)) ∧
  (∀ (s : State) (ld id : Nat) (q : Queue) (i : Nat), Bell s ld id q → i < 65536 → q.depth ≤ i →
    ∀ c ∈ [Instr.submissionTail ld (id * 2 ^ 32 + i), .completionHead ld (id * 2 ^ 32 + i), .noteHead ld (id * 2 ^ 32 + i)],
      exec c s = .next ((s.addSat F.QUEUE_DB_BAD_CNT_count 0 1).raiseD Ev.DOORBELL_BAD ld)) ∧
  (∀ (s : State) (ld id : Nat) (q : Queue) (i : Nat), Bell s ld id q → i < q.depth → q.depth ≤ 4096 →
    (let held := (q.subTail + q.depth - q.subHead) % q.depth
     let adv := (i + q.depth - q.subTail) % q.depth
     (held + adv < q.depth → exec (.submissionTail ld (id * 2 ^ 32 + i)) s =
        .next (s.setQueue ld id { q with subTail := i })) ∧
     (q.depth ≤ held + adv → exec (.submissionTail ld (id * 2 ^ 32 + i)) s =
        .next ((s.addSat F.QUEUE_DB_BAD_CNT_count 0 1).raiseD Ev.DOORBELL_BAD ld))) ∧
    (let adv := (i + q.depth - q.cplHead) % q.depth
     (adv ≤ q.count .written → Answers (.completionHead ld (id * 2 ^ 32 + i)) s fun t => ∃ r : Queue,
        t = s.setQueue ld id r ∧ r.cplHead = i ∧ r.subTail = q.subTail ∧ r.slots.length = q.slots.length ∧
        ∀ p ∈ q.slots, p.2.state ≠ .written ∨ adv ≤ (p.2.cpl + q.depth - q.cplHead) % q.depth → p ∈ r.slots) ∧
     (q.count .written < adv → exec (.completionHead ld (id * 2 ^ 32 + i)) s =
        .next ((s.addSat F.QUEUE_DB_BAD_CNT_count 0 1).raiseD Ev.DOORBELL_BAD ld))) ∧
    (let adv := (i + q.depth - q.noteHead) % q.depth
     (q.noteCount < adv → exec (.noteHead ld (id * 2 ^ 32 + i)) s =
        .next ((s.addSat F.QUEUE_DB_BAD_CNT_count 0 1).raiseD Ev.DOORBELL_BAD ld)) ∧
     (adv ≤ q.noteCount → (∀ p ∈ q.slots, p.2.held = none) → exec (.noteHead ld (id * 2 ^ 32 + i)) s =
        .next (s.setQueue ld id { q with noteHead := i, noteCount := q.noteCount - adv })))) ∧
  (∀ (s : State), s.que.bells = [] → s.que.pairs = [] → exec .ticketFetch s = .next s) ∧
  (∀ (s : State) (ld id : Nat) (q : Queue), s.que.bells = [] → s.que.pairs = [(ld * 4096 + id, q)] → id < 4096 → ld < 128 →
    q.prio ≤ 3 → 0 < q.waiting → s.allLive < 2048 → s.ldLive ld < s.fld F.QUEUE_ADMIT_CFG_ld_max 0 →
    Answers .ticketFetch s fun t => ∃ u : State, t = u.fetchTicket ld id ∧ u.regs = s.regs ∧ u.que.pairs = s.que.pairs) ∧
  (∀ (s : State) (ld id : Nat) (q : Queue), s.queue ld id = some q →
    let t := s.headTicket ld q
    let x := q.slot (tk t 4 2)
    let q1 : Queue := { q with subHead := (q.subHead + 1) % q.depth }
    ((q.depth ≤ tk t 4 2 ∨ x.state ≠ .free ∨ tk t 6 1 = x.gen) → s.fetchTicket ld id =
      ((s.setQueue ld id q1).addSat F.QUEUE_STALE_CNT_count 0 1).raise Ev.STALE_TICKET) ∧
    (tk t 4 2 < q.depth → x.state = .free → tk t 6 1 ≠ x.gen → ∃ u : State,
      (u.queue ld id).map (fun r => (r.subHead, (r.slot (tk t 4 2)).state, (r.slot (tk t 4 2)).gen, (r.slot (tk t 4 2)).ticket)) =
        some (q1.subHead, .admitted, tk t 6 1, t) ∧ u.regs = s.regs ∧
      ((tk t 0 1 ≠ 1 ∧ tk t 0 1 ≠ 2 → s.fetchTicket ld id = u.postCompletion ld id (tk t 4 2) 0 St.ILLEGAL) ∧
       (∀ f, u.ticketStatus ld id t = some f → s.fetchTicket ld id = u.postCompletion ld id (tk t 4 2) 0 f) ∧
       (u.ticketStatus ld id t = none → s.fetchTicket ld id = u.queueRegs ld)))) ∧
  (∀ (s : State) (ld id : Nat) (t : Line), 3 < tk t 1 1 ∨ tk t 2 2 ≠ id ∨ s.script ld (tk t 8 2) = none →
    s.ticketStatus ld id t = some St.ILLEGAL) ∧
  (∀ (s : State),
    (s.que.coal = [] → exec .coalesceTimeout s = .next s) ∧
    (∀ ld vec n t, s.que.coal = [(ld * 64 + vec, (n, t))] → vec < 64 →
      let time := bits (s.liveWord .QUEUE_COAL (ld * 64 + vec)).toNat 7 0
      (t + time ≤ s.clock → Answers .coalesceTimeout s fun u => u.que.coal = [] ∧ u.sent = s.sent ++ [.msix ld vec] ∧
        u.que.pairs = s.que.pairs) ∧
      (s.clock < t + time → exec .coalesceTimeout s = .next s)))

/-- R511, R521 to R523: aborts. -/
def Obligations.AbortsEndTicketsInEveryState : Prop :=
  (∀ (s : State) (ld id : Nat) (q : Queue) (slot gen : Nat), Bell s ld id q → q.depth ≤ 4096 → slot < q.depth →
    q.waiting = 0 → gen < 256 →
    let x := q.slot slot
    let v := gen * 2 ^ 48 + id * 2 ^ 32 + slot
    (x.gen ≠ gen → exec (.abort ld v) s = .next (((s.addSat F.QUEUE_STALE_CNT_count 0 1).raise Ev.STALE_TICKET).abortNote
      ld id slot gen St.STALE_TICKET).settle) ∧
    (x.gen = gen → x.state = .free → exec (.abort ld v) s = .next (s.abortNote ld id slot gen St.STALE_TICKET).settle) ∧
    (x.gen = gen → x.state = .written → exec (.abort ld v) s = .next (s.abortNote ld id slot gen St.ALREADY_DONE).settle) ∧
    (x.gen = gen → x.state ≠ .free → x.aborted = true →
      exec (.abort ld v) s = .next (s.abortNote ld id slot gen St.ALREADY_DONE).settle) ∧
    (x.gen = gen → x.state = .admitted → x.aborted = false → exec (.abort ld v) s =
      .next ((((s.setQueue ld id (q.setSlot slot { x with aborted := true })).postCompletion ld id slot 0 St.ABORTED).abortNote
        ld id slot gen St.ABORTED)).settle) ∧
    (∀ k c, x.gen = gen → x.state = .running → x.aborted = false →
      s.scr.ctxs.find? (fun p => p.2.ld == ld && p.2.queue == id && p.2.slot == slot) = some (k, c) →
      exec (.abort ld v) s = .next ((s.setQueue ld id (q.setSlot slot { x with aborted := true })).endCtx k St.ABORTED
        true false).settle)) ∧
  (∀ (s : State) (ld id slot gen status : Nat) (q : Queue), s.queue ld id = some q →
    (q.noteCount < q.depth → s.abortNote ld id slot gen status = s.postNote ld id slot gen 0 status 1) ∧
    (q.depth ≤ q.noteCount → ∃ u : State, s.abortNote ld id slot gen status = u.raise Ev.NOTE_RING_FULL ∧
      (u.queue ld id).map (fun r => (r.slot slot).held) =
        some (some (match (q.slot slot).held with
          | some h => h
          | none => status * 256 + gen)) ∧ u.regs = s.regs ∧ u.scr = s.scr))

/-- R414 to R420, R519: contexts and scribes. -/
def Obligations.ContextsStartFailAndTakeAnswers : Prop :=
  (∀ (s : State), s.que.pairs = [] → exec .contextStart s = .next s) ∧
  (∀ (s : State) (ld id slot : Nat) (q : Queue) (x : Script) (e : Nat), s.admittedOrder = [(ld * 4096 + id, slot)] →
    id < 4096 → s.queue ld id = some q → s.script ld (tk (q.slot slot).ticket 8 2) = some x →
    (s.chooseScribe x = none → exec .contextStart s = .next s) ∧
    (s.chooseScribe x = some e → exec .contextStart s = .next (s.startCtx e ld id slot q x).settle)) ∧
  (∀ (s : State) (e ld id slot : Nat) (q : Queue) (x : Script) (c b : Nat),
    (upto 16).find? (fun c => (s.ctx (e * 16 + c)).isNone) = some c → firstFit (s.inkGaps e) (x.inkFoot / 4096) = some b →
    x.damaged = [] → bitB (tk (q.slot slot).ticket 1 1) 1 = false →
    ∃ k, (s.startCtx e ld id slot q x).ctx (e * 16 + c) = some k ∧ k.x = [] ∧ k.v = [] ∧ k.p = [] ∧
      k.pc = 2 ^ 60 + x.entry ∧ k.block = .none ∧ k.ops = [] ∧ k.stores = [] ∧ k.handler = false ∧ k.sealOpen = false ∧
      k.inkBase = b * 4096 ∧ k.queue = id ∧ k.slot = slot ∧ k.gen = (q.slot slot).gen ∧ k.ld = ld ∧
      ((s.startCtx e ld id slot q x).queue ld id).map (fun r => (r.slot slot).state) = some .running) ∧
  (∀ (s : State) (e : Nat), (36 ≤ e ∨ s.fld F.SCR_STAT_state e ≠ 1) → exec (.scribeFailed e) s = .next s) ∧
  (∀ (s : State) (e : Nat), e < 36 → s.fld F.SCR_STAT_state e = 1 → s.scr.swap = none → s.ctxsOf e = [] →
    let u := (s.setFld F.SCR_STAT_state e 2).raiseD Ev.SCRIBE_FAILED e
    let sp := s.fld F.SCL_STAT_spare (e / 9)
    (sp < 9 → exec (.scribeFailed e) s = .next ((((((u.zeroInk (9 * (e / 9) + sp)).setFld F.SCR_STAT_state
      (9 * (e / 9) + sp) 1).mapReplace (e / 9) (e % 9) sp).raiseD Ev.SPARE_IN_SERVICE (9 * (e / 9) + sp)).clusterRegs
      (e / 9)).settle)) ∧
    (9 ≤ sp → exec (.scribeFailed e) s = .next ((((u.mapReplace (e / 9) (e % 9) 0xF).raiseD Ev.SPARE_EXHAUSTED
      (e / 9)).clusterRegs (e / 9)).settle))) ∧
  (∀ (s : State) (e cx : Nat),
    (s.path.results.find? (fun r => r.scribe == e && r.ctx == cx) = none → exec (.dpaOpResponse e cx) s = .next s) ∧
    (∀ r, s.path.results.find? (fun r => r.scribe == e && r.ctx == cx) = some r →
      let u : State := { s with path := { s.path with results := s.path.results.erase r } }
      (s.ctx (e * 16 + cx) = none →
        exec (.dpaOpResponse e cx) s = .next ((u.addSat F.QUEUE_STALE_CNT_count 0 1).raise Ev.STALE_TICKET)) ∧
      (∀ c, s.ctx (e * 16 + cx) = some c → c.ops.find? (fun o => o.slot == r.slot) = none →
        exec (.dpaOpResponse e cx) s = .next u) ∧
      (∀ c o, s.ctx (e * 16 + cx) = some c → c.ops.find? (fun o => o.slot == r.slot) = some o →
        exec (.dpaOpResponse e cx) s = .next (u.dpaAnswer (e * 16 + cx) c o r)))) ∧
  (∀ (s : State) (k : Nat) (c : Ctx) (o : DpaOp) (r : ScriptResult),
    let c1 : Ctx := { c with ops := c.ops.filter (fun x => x.slot != o.slot) }
    let d := lineOfBytes (mergeBytes o.mask (lineBytes r.data) (lineBytes o.data))
    (r.status ≠ 0 → s.dpaAnswer k c o r = (s.putCtx k c1).endByEvent k c1 r.status) ∧
    (r.status = 0 → o.dest = .store → s.dpaAnswer k c o r = (s.putCtx k c1).tryFinish k) ∧
    (∀ rt n sg off, r.status = 0 → o.dest = .reg rt n sg off →
      s.dpaAnswer k c o r = s.putCtx k (c1.setX rt (extend (lineField d off n) n sg))) ∧
    (∀ rd n, r.status = 0 → o.dest = .atomic rd n →
      s.dpaAnswer k c o r = s.putCtx k (c1.setX rd (extend r.data.toNat n false))))

/-- The context `cx` of scribe `e` may issue the word `w` (R419). -/
def Sys2Proof.Claims.Issues (s : State) (e cx : Nat) (c : Ctx) (w : Nat) : Prop :=
  cx < 16 ∧ s.ctx (e * 16 + cx) = some c ∧ c.block = .none ∧ s.fetchWord (e * 16 + cx) c = some w ∧ c.operandsReady w = true

/-- The five formats of R435. -/
def Sys2Proof.Claims.fA (op rd r1 r2 func : Nat) : Nat := op * 2 ^ 26 + rd * 2 ^ 21 + r1 * 2 ^ 16 + r2 * 2 ^ 11 + func
def Sys2Proof.Claims.fI (op a b imm : Nat) : Nat := op * 2 ^ 26 + a * 2 ^ 21 + b * 2 ^ 16 + imm
def Sys2Proof.Claims.fM (op rt rb size sg disp : Nat) : Nat :=
  op * 2 ^ 26 + rt * 2 ^ 21 + rb * 2 ^ 16 + size * 2 ^ 14 + sg * 2 ^ 13 + disp
def Sys2Proof.Claims.fV (op vd v1 v2 pm ew rs func : Nat) : Nat :=
  op * 2 ^ 26 + vd * 2 ^ 23 + v1 * 2 ^ 20 + v2 * 2 ^ 17 + pm * 2 ^ 15 + ew * 2 ^ 13 + rs * 2 ^ 8 + func
def Sys2Proof.Claims.fS (op rd r1 r2 i5 sub : Nat) : Nat :=
  op * 2 ^ 26 + rd * 2 ^ 21 + r1 * 2 ^ 16 + r2 * 2 ^ 11 + i5 * 2 ^ 6 + sub

/-- The context after an instruction that writes register `rd` and goes on at the next word; a write of x0 is discarded. -/
def Sys2Proof.Claims.wrote (c : Ctx) (rd : Nat) (v : W64) : Ctx :=
  { c with x := if rd = 0 then c.x else mapSet c.x rd v, pc := (c.pc + 4) % 2 ^ 64 }

/-- The instruction changes its context alone, to `d`. -/
def Sys2Proof.Claims.Becomes (m : Instr) (s : State) (e cx : Nat) (d : Ctx) : Prop :=
  exec m s = .next { s with scr := { s.scr with ctxs := mapSet s.scr.ctxs (e * 16 + cx) d } }

/-- The instruction writes one register, and nothing else but the pc changes. -/
def Sys2Proof.Claims.Writes (m : Instr) (s : State) (e cx : Nat) (c : Ctx) (rd : Nat) (v : W64) : Prop :=
  Becomes m s e cx (wrote c rd v)

/-- R419, R435, R436: when nothing is issued. -/
def Obligations.InstructionsActOnlyWhenTheirWordMayIssue : Prop :=
  ∀ (s : State) (e cx : Nat) (ue : Bool) (er : DmaErr), ∀ r ∈
    [(Instr.add e cx, 1, 0x7FF, 0), (.sub e cx, 1, 0x7FF, 1), (.neg e cx, 1, 0x7FF, 2), (.and e cx, 1, 0x7FF, 0x10),
     (.or e cx, 1, 0x7FF, 0x11), (.xor e cx, 1, 0x7FF, 0x12), (.andn e cx, 1, 0x7FF, 0x13), (.orn e cx, 1, 0x7FF, 0x14),
     (.shl e cx, 1, 0x7FF, 0x20), (.shr e cx, 1, 0x7FF, 0x21), (.sar e cx, 1, 0x7FF, 0x22), (.ror e cx, 1, 0x7FF, 0x23),
     (.cmpEq e cx, 1, 0x7FF, 0x30), (.cmpNe e cx, 1, 0x7FF, 0x31), (.cmpLt e cx, 1, 0x7FF, 0x32),
     (.cmpLe e cx, 1, 0x7FF, 0x33), (.cmpLtu e cx, 1, 0x7FF, 0x34), (.cmpLeu e cx, 1, 0x7FF, 0x35),
     (.min e cx, 1, 0x7FF, 0x38), (.max e cx, 1, 0x7FF, 0x39), (.minu e cx, 1, 0x7FF, 0x3A), (.maxu e cx, 1, 0x7FF, 0x3B),
     (.mul e cx, 1, 0x7FF, 0x40), (.mulhiS e cx, 1, 0x7FF, 0x41), (.mulhiU e cx, 1, 0x7FF, 0x42), (.div e cx, 1, 0x7FF, 0x48),
     (.divu e cx, 1, 0x7FF, 0x49), (.rem e cx, 1, 0x7FF, 0x4A), (.remu e cx, 1, 0x7FF, 0x4B), (.lzc e cx, 1, 0x7FF, 0x50),
     (.tzc e cx, 1, 0x7FF, 0x51), (.ones e cx, 1, 0x7FF, 0x52), (.revb e cx, 1, 0x7FF, 0x53)] ++
    [(Instr.addI e cx, 2, 0, 0), (.andI e cx, 3, 0, 0), (.orI e cx, 4, 0, 0), (.xorI e cx, 5, 0, 0), (.cmpEqI e cx, 6, 0, 0),
     (.cmpLtI e cx, 7, 0, 0), (.shlI e cx, 8, 0, 0), (.shrI e cx, 9, 0, 0), (.sarI e cx, 10, 0, 0), (.high e cx, 11, 0, 0),
     (.bz e cx, 12, 0, 0), (.bnz e cx, 13, 0, 0), (.bneg e cx, 14, 0, 0), (.bnneg e cx, 15, 0, 0), (.dbnz e cx, 16, 0, 0),
     (.bpany e cx, 17, 0, 0), (.call e cx, 18, 0, 0), (.jump e cx, 19, 0, 0)] ++
    [(Instr.ld e cx ue, 0x18, 0, 0), (.st e cx, 0x19, 0, 0), (.cas e cx ue, 0x1C, 0, 0), (.fadd e cx ue, 0x1D, 0, 0),
     (.vld e cx ue, 0x20, 0xC0, 0), (.vldBc e cx ue, 0x20, 0xC0, 0x40), (.vst e cx, 0x21, 0xC0, 0), (.vcmp e cx, 0x22, 0, 0),
     (.vsel e cx, 0x23, 0, 0), (.vsum e cx, 0x24, 0, 0), (.vmin e cx, 0x25, 1, 0), (.vminr e cx, 0x25, 1, 1),
     (.vmax e cx, 0x26, 1, 0), (.vmaxr e cx, 0x26, 1, 1), (.sealOpen e cx, 0x28, 0x3F, 0), (.sealAdd e cx, 0x28, 0x3F, 1),
     (.sealCommit e cx, 0x28, 0x3F, 2), (.pbarLocal e cx, 0x29, 0x3F, 0), (.pbarTwin e cx, 0x29, 0x3F, 1),
     (.copy e cx er, 0x2A, 1, 0), (.copyL e cx er, 0x2A, 1, 1), (.crc e cx er, 0x2B, 0, 0), (.hash e cx, 0x2C, 0, 0),
     (.probe e cx ue, 0x2D, 0, 0), (.cue e cx, 0x2E, 1, 0), (.cueR e cx, 0x2E, 1, 1), (.waitc e cx, 0x2F, 0, 0),
     (.notify e cx, 0x30, 0x3F, 0), (.yield e cx, 0x3C, 0x3F, 0), (.halt e cx, 0x3C, 0x3F, 1), (.rdsr e cx, 0x3D, 0x3F, 0),
     (.wrsr e cx, 0x3D, 0x3F, 1)],
    (∀ c w, Issues s e cx c w → ¬ (w / 2 ^ 26 % 64 = r.2.1 ∧ w &&& r.2.2.1 = r.2.2.2)) → exec r.1 s = .next s

/-- R464: the integer register instructions. -/
def Obligations.IntegerInstructionsComputeTheirTable : Prop :=
  (∀ (s : State) (e cx : Nat) (c : Ctx) (rd a b : Nat), rd < 32 → a < 32 → b < 32 →
    let x := c.xr a
    let y := c.xr b
    let n := y.toNat % 64
    ∀ r ∈ [(Instr.add e cx, 0, x + y), (.sub e cx, 1, x - y), (.and e cx, 0x10, x &&& y), (.or e cx, 0x11, x ||| y),
        (.xor e cx, 0x12, x ^^^ y), (.andn e cx, 0x13, x &&& ~~~y), (.orn e cx, 0x14, x ||| ~~~y),
        (.shl e cx, 0x20, BitVec.ofNat 64 (x.toNat * 2 ^ n)), (.shr e cx, 0x21, BitVec.ofNat 64 (x.toNat / 2 ^ n)),
        (.sar e cx, 0x22, BitVec.ofInt 64 (x.toInt / 2 ^ n)),
        (.ror e cx, 0x23, BitVec.ofNat 64 (x.toNat / 2 ^ n + x.toNat * 2 ^ (64 - n))),
        (.cmpEq e cx, 0x30, if x = y then 1 else 0), (.cmpNe e cx, 0x31, if x = y then 0 else 1),
        (.cmpLt e cx, 0x32, if x.toInt < y.toInt then 1 else 0), (.cmpLe e cx, 0x33, if x.toInt ≤ y.toInt then 1 else 0),
        (.cmpLtu e cx, 0x34, if x.toNat < y.toNat then 1 else 0), (.cmpLeu e cx, 0x35, if x.toNat ≤ y.toNat then 1 else 0),
        (.min e cx, 0x38, if x.toInt ≤ y.toInt then x else y), (.max e cx, 0x39, if x.toInt ≤ y.toInt then y else x),
        (.minu e cx, 0x3A, if x.toNat ≤ y.toNat then x else y), (.maxu e cx, 0x3B, if x.toNat ≤ y.toNat then y else x),
        (.mul e cx, 0x40, BitVec.ofNat 64 (x.toNat * y.toNat)), (.mulhiS e cx, 0x41, BitVec.ofInt 64 (x.toInt * y.toInt / 2 ^ 64)),
        (.mulhiU e cx, 0x42, BitVec.ofNat 64 (x.toNat * y.toNat / 2 ^ 64)),
        (.div e cx, 0x48, BitVec.ofInt 64 (x.toInt.tdiv y.toInt)), (.divu e cx, 0x49, BitVec.ofNat 64 (x.toNat / y.toNat)),
        (.rem e cx, 0x4A, BitVec.ofInt 64 (x.toInt.tmod y.toInt)), (.remu e cx, 0x4B, BitVec.ofNat 64 (x.toNat % y.toNat))],
      Issues s e cx c (fA 1 rd a b r.2.1) → Writes r.1 s e cx c rd r.2.2) ∧
  (∀ (s : State) (e cx : Nat) (c : Ctx) (rd a : Nat), rd < 32 → a < 32 →
    let x := c.xr a
    (Issues s e cx c (fA 1 rd a 0 2) → Writes (.neg e cx) s e cx c rd (0 - x)) ∧
    (Issues s e cx c (fA 1 rd a 0 0x50) → ∃ n : Nat, Writes (.lzc e cx) s e cx c rd (BitVec.ofNat 64 n) ∧ n ≤ 64 ∧
      x.toNat < 2 ^ (64 - n) ∧ (n < 64 → x.toNat.testBit (63 - n) = true)) ∧
    (Issues s e cx c (fA 1 rd a 0 0x51) → ∃ n : Nat, Writes (.tzc e cx) s e cx c rd (BitVec.ofNat 64 n) ∧ n ≤ 64 ∧
      x.toNat % 2 ^ n = 0 ∧ (n < 64 → x.toNat.testBit n = true)) ∧
    (Issues s e cx c (fA 1 rd a 0 0x52) → Writes (.ones e cx) s e cx c rd
      (BitVec.ofNat 64 ((List.range 64).countP (fun i => x.toNat.testBit i)))) ∧
    (Issues s e cx c (fA 1 rd a 0 0x53) → ∃ v : W64, Writes (.revb e cx) s e cx c rd v ∧
      ∀ i, i < 8 → v.toNat / 256 ^ i % 256 = x.toNat / 256 ^ (7 - i) % 256)) ∧
  (∀ (s : State) (e cx : Nat) (c : Ctx) (rd a b : Nat), rd < 32 → a < 32 → 0 < b → b < 32 →
    ∀ r ∈ [(Instr.neg e cx, 2), (.lzc e cx, 0x50), (.tzc e cx, 0x51), (.ones e cx, 0x52), (.revb e cx, 0x53)],
      Issues s e cx c (fA 1 rd a b r.2) → exec r.1 s = .next (s.takeTrap (e * 16 + cx) c .illegalInsn)) ∧
  (∀ (s : State) (e cx : Nat) (c : Ctx) (rd a b f : Nat), rd < 32 → a < 32 → b < 32 → f < 2048 →
    f ∉ [0, 1, 2, 0x10, 0x11, 0x12, 0x13, 0x14, 0x20, 0x21, 0x22, 0x23, 0x30, 0x31, 0x32, 0x33, 0x34, 0x35, 0x38, 0x39, 0x3A,
      0x3B, 0x40, 0x41, 0x42, 0x48, 0x49, 0x4A, 0x4B, 0x50, 0x51, 0x52, 0x53] → Issues s e cx c (fA 1 rd a b f) →
    exec (.trap e cx false) s = .next (s.takeTrap (e * 16 + cx) c .illegalInsn).settle)

/-- R465: division. -/
def Obligations.DivisionNeverTraps : Prop :=
  ∀ (s t : State) (e cx : Nat) (c : Ctx) (rd a b : Nat), rd < 32 → a < 32 → b < 32 →
    (Issues s e cx c (fA 1 rd a b 0x48) → Issues t e cx c (fA 1 rd a b 0x4A) → ∃ q m : W64,
      Writes (.div e cx) s e cx c rd q ∧ Writes (.rem e cx) t e cx c rd m ∧ c.xr a = q * c.xr b + m ∧
      (c.xr b = 0 → q = 0 ∧ m = c.xr a) ∧
      (c.xr a = BitVec.ofNat 64 (2 ^ 63) → c.xr b = BitVec.allOnes 64 → q = BitVec.ofNat 64 (2 ^ 63) ∧ m = 0)) ∧
    (Issues s e cx c (fA 1 rd a b 0x49) → Issues t e cx c (fA 1 rd a b 0x4B) → ∃ q m : W64,
      Writes (.divu e cx) s e cx c rd q ∧ Writes (.remu e cx) t e cx c rd m ∧ c.xr a = q * c.xr b + m ∧
      (c.xr b = 0 → q = 0 ∧ m = c.xr a))

/-- R466, R467: the immediate instructions. -/
def Obligations.ImmediateInstructionsComputeTheirTable : Prop :=
  (∀ (s : State) (e cx : Nat) (c : Ctx) (a b i : Nat), a < 32 → b < 32 → i < 65536 →
    let x := c.xr b
    let si : Int := if i < 32768 then i else (i : Int) - 65536
    ∀ r ∈ [(Instr.addI e cx, 2, x + BitVec.ofInt 64 si), (.andI e cx, 3, BitVec.ofNat 64 (x.toNat &&& i)),
        (.orI e cx, 4, BitVec.ofNat 64 (x.toNat ||| i)), (.xorI e cx, 5, BitVec.ofNat 64 (x.toNat ^^^ i)),
        (.cmpEqI e cx, 6, if x.toInt = si then 1 else 0), (.cmpLtI e cx, 7, if x.toInt < si then 1 else 0)],
      Issues s e cx c (fI r.2.1 a b i) → Writes r.1 s e cx c a r.2.2) ∧
  (∀ (s : State) (e cx : Nat) (c : Ctx) (a b i : Nat), a < 32 → b < 32 → i < 65536 →
    let x := c.xr b
    ∀ r ∈ [(Instr.shlI e cx, 8, BitVec.ofNat 64 (x.toNat * 2 ^ i)), (.shrI e cx, 9, BitVec.ofNat 64 (x.toNat / 2 ^ i)),
        (.sarI e cx, 10, BitVec.ofInt 64 (x.toInt / 2 ^ i))],
      Issues s e cx c (fI r.2.1 a b i) → (i < 64 → Writes r.1 s e cx c a r.2.2) ∧
        (64 ≤ i → exec r.1 s = .next (s.takeTrap (e * 16 + cx) c .illegalInsn))) ∧
  (∀ (s : State) (e cx : Nat) (c : Ctx) (a b i : Nat), a < 32 → b < 32 → i < 65536 → Issues s e cx c (fI 11 a b i) →
    (b = 0 → Writes (.high e cx) s e cx c a (BitVec.ofNat 64 (i * 2 ^ 48))) ∧
    (b ≠ 0 → exec (.high e cx) s = .next (s.takeTrap (e * 16 + cx) c .illegalInsn)))

/-- The branch target: `imm` words from the branch, modulo 2^64. -/
def Sys2Proof.Claims.branchTo (from_ i : Nat) : Nat := (from_ + (if i < 32768 then i * 4 else 2 ^ 64 - (65536 - i) * 4)) % 2 ^ 64

/-- R468, R469: branches and jumps. -/
def Obligations.BranchesAndJumpsGoWhereTheyPoint : Prop :=
  (∀ (s : State) (e cx : Nat) (c : Ctx) (a b i : Nat), a < 32 → b < 32 → i < 65536 →
    let x := c.xr b
    ∀ r ∈ [(Instr.bz e cx, 12, decide (x = 0)), (.bnz e cx, 13, decide (x ≠ 0)), (.bneg e cx, 14, decide (x.toInt < 0)),
        (.bnneg e cx, 15, decide (0 ≤ x.toInt))], Issues s e cx c (fI r.2.1 a b i) →
      (a = 0 → Becomes r.1 s e cx { c with pc := if r.2.2 then branchTo c.pc i else (c.pc + 4) % 2 ^ 64 }) ∧
      (a ≠ 0 → exec r.1 s = .next (s.takeTrap (e * 16 + cx) c .illegalInsn))) ∧
  (∀ (s : State) (e cx : Nat) (c : Ctx) (a b i : Nat), a < 32 → b < 32 → i < 65536 → Issues s e cx c (fI 16 a b i) →
    (a = 0 → 0 < b → Becomes (.dbnz e cx) s e cx { c with x := mapSet c.x b (c.xr b - 1), pc := if c.xr b - 1 = 0 then (c.pc + 4) % 2 ^ 64 else branchTo c.pc i }) ∧
    (a ≠ 0 ∨ b = 0 → exec (.dbnz e cx) s = .next (s.takeTrap (e * 16 + cx) c .illegalInsn))) ∧
  (∀ (s : State) (e cx : Nat) (c : Ctx) (a b i : Nat), a < 32 → b < 32 → i < 65536 → Issues s e cx c (fI 17 a b i) →
    (a < 4 → b = 0 → Becomes (.bpany e cx) s e cx { c with pc := if a = 0 ∨ mapGet 0 c.p a ≠ 0 then branchTo c.pc i else (c.pc + 4) % 2 ^ 64 }) ∧
    (4 ≤ a ∨ b ≠ 0 → exec (.bpany e cx) s = .next (s.takeTrap (e * 16 + cx) c .illegalInsn))) ∧
  (∀ (s : State) (e cx : Nat) (c : Ctx) (a b i : Nat), a < 32 → b < 32 → i < 65536 → Issues s e cx c (fI 18 a b i) →
    (b = 0 → Becomes (.call e cx) s e cx { wrote c a (BitVec.ofNat 64 (c.pc + 4)) with pc := branchTo c.pc i }) ∧
    (b ≠ 0 → exec (.call e cx) s = .next (s.takeTrap (e * 16 + cx) c .illegalInsn))) ∧
  (∀ (s : State) (e cx : Nat) (c : Ctx) (a b i : Nat), a < 32 → b < 32 → i < 65536 → Issues s e cx c (fI 19 a b i) →
    let t := branchTo (c.xr b).toNat i
    (t % 4 = 0 → Becomes (.jump e cx) s e cx { wrote c a (BitVec.ofNat 64 (c.pc + 4)) with pc := t }) ∧
    (t % 4 ≠ 0 → exec (.jump e cx) s = .next (s.takeTrap (e * 16 + cx) c .misaligned)))

/-- R425, R488, R495 to R498: HASH and the system instructions. -/
def Obligations.HashAndSystemInstructions : Prop :=
  (∀ (s : State) (e cx : Nat) (c : Ctx) (rd a b f : Nat), rd < 32 → a < 32 → b < 32 → f < 2048 →
    Issues s e cx c (fA 0x2C rd a b f) →
    (f = 0 →
      let h0 := (c.xr a) ^^^ (c.xr b) ^^^ 0x58517AC394E20D6B#64
      let h1 := (h0 ^^^ (h0 >>> 31)) * 0xA3B19C572E4D8F61#64
      let h2 := (h1 ^^^ (h1 >>> 27)) * 0x6C1EF08B5D27A3C9#64
      Writes (.hash e cx) s e cx c rd (h2 ^^^ (h2 >>> 33))) ∧
    (f ≠ 0 → exec (.hash e cx) s = .next (s.takeTrap (e * 16 + cx) c .illegalInsn))) ∧
  (∀ (s : State) (e cx : Nat) (c : Ctx) (rd n : Nat), rd < 32 → n < 32 → Issues s e cx c (fS 0x3D rd 0 0 n 0) →
    (n = 0 → Writes (.rdsr e cx) s e cx c rd (BitVec.ofNat 64 c.pc)) ∧
    (n = 1 → Writes (.rdsr e cx) s e cx c rd (BitVec.ofNat 64 (c.slot + c.queue * 2 ^ 16 + c.ld * 2 ^ 32))) ∧
    (n = 2 → Writes (.rdsr e cx) s e cx c rd (BitVec.ofNat 64 c.win)) ∧
    (n = 3 → Writes (.rdsr e cx) s e cx c rd (BitVec.ofNat 64 c.gen)) ∧
    (n = 4 → Writes (.rdsr e cx) s e cx c rd (BitVec.ofNat 64 c.cause)) ∧
    (n = 5 → Writes (.rdsr e cx) s e cx c rd (BitVec.ofNat 64 c.epc)) ∧
    (5 < n → exec (.rdsr e cx) s = .next (s.takeTrap (e * 16 + cx) c .srAccess))) ∧
  (∀ (s : State) (e cx : Nat) (c : Ctx) (a n : Nat), a < 32 → n < 32 → Issues s e cx c (fS 0x3D 0 a 0 n 1) →
    let v := (c.xr a).toNat
    let p := (c.pc + 4) % 2 ^ 64
    (n = 2 → exec (.wrsr e cx) s = .next (s.putCtx (e * 16 + cx) { c with pc := p, win := c.win &&& (v % 65536) })) ∧
    (n = 4 → c.handler = true → exec (.wrsr e cx) s = .next
      (s.putCtx (e * 16 + cx) { c with pc := p, cause := v % 65536, handler := decide (v % 65536 ≠ 0) })) ∧
    (n = 5 → c.handler = true → exec (.wrsr e cx) s = .next (s.putCtx (e * 16 + cx) { c with pc := p, epc := v })) ∧
    ((n = 4 ∨ n = 5) → c.handler = false → exec (.wrsr e cx) s = .next (s.takeTrap (e * 16 + cx) c .srAccess)) ∧
    ((n = 0 ∨ n = 1 ∨ n = 3 ∨ 5 < n) → exec (.wrsr e cx) s = .next (s.takeTrap (e * 16 + cx) c .srAccess))) ∧
  (∀ (s : State) (e cx : Nat) (c : Ctx), Issues s e cx c (fS 0x3C 0 0 0 0 0) →
    Becomes (.yield e cx) s e cx { c with pc := (c.pc + 4) % 2 ^ 64, block := .yield }) ∧
  (∀ (s : State) (e cx : Nat) (c : Ctx) (a b : Nat), a < 32 → b < 32 → Issues s e cx c (fS 0x3C 0 a b 0 1) →
    let v := (c.xr a).toNat
    let k := e * 16 + cx
    (c.sealOpen = true → exec (.halt e cx) s = .next (s.takeTrap k c .sealState)) ∧
    (c.sealOpen = false → v ≤ 0x14 → v ≠ St.ABORTED → v ≠ St.ALREADY_DONE → v ≠ St.STALE_TICKET → v ≠ St.FENCED →
      v ≠ St.ENGINE_FAULT → exec (.halt e cx) s = .next
        (((s.setCtx k { c with block := .halt v (c.xr b).toNat }).tryFinish k).settle)) ∧
    (c.sealOpen = false → (0x14 < v ∨ v = St.ABORTED ∨ v = St.ALREADY_DONE ∨ v = St.STALE_TICKET ∨ v = St.FENCED ∨
      v = St.ENGINE_FAULT) → exec (.halt e cx) s = .next
        (((s.setCtx k { c with block := .halt St.ILLEGAL 0 }).tryFinish k).settle))) ∧
  (∀ (s : State) (e cx : Nat) (c : Ctx) (a i : Nat), a < 32 → i < 32 → Issues s e cx c (fS 0x3C 0 a 0 i 2) →
    exec (.trap e cx false) s =
      .next (s.takeTrap (e * 16 + cx) c (.trap (((c.xr a).toNat + i) % 256))).settle) ∧
  (∀ (s : State) (e cx : Nat) (c : Ctx) (ue : Bool), cx < 16 → s.ctx (e * 16 + cx) = some c → c.block = .none →
    s.fetchWord (e * 16 + cx) c = none →
    exec (.trap e cx ue) s = .next (s.takeTrap (e * 16 + cx) c .fetchBounds).settle) ∧
  (∀ (s : State) (e cx : Nat) (c : Ctx) (w : Nat), Issues s e cx c w → w / 2 ^ 26 % 64 ≠ 0x3C →
    (∃ m v, (w / 2 ^ 26 % 64, m, v) ∈ rowWords ∧ w &&& m = v) → exec (.trap e cx false) s = .next s)

/-- R437 to R440: traps. -/
def Obligations.TrapsGoToTheHandlerOrEndTheTicket : Prop :=
  (∀ (s : State) (k : Nat) (c : Ctx) (t : Trap), c.loadsInFlight = true → s.takeTrap k c t = s) ∧
  (∀ (s : State) (k : Nat) (c : Ctx) (t : Trap) (x : Script), c.loadsInFlight = false → s.ctxScript c = some x →
    t ≠ .dataUe → t ≠ .fetchUe →
    (c.handler = false → x.handler ≠ 0 → s.takeTrap k c t = s.putCtx k
      { c with epc := c.pc, cause := t.code + 256 * t.status, handler := true, pc := 2 ^ 60 + x.handler }) ∧
    (c.handler = true → s.takeTrap k c t =
      ((s.faultRecord k t.code St.ENGINE_FAULT c.pc).raiseD Ev.DOUBLE_TRAP (k / 16)).endCtx k St.ENGINE_FAULT false false) ∧
    (c.handler = false → x.handler = 0 → (∀ v, t ≠ .trap v) → s.takeTrap k c t =
      (s.faultRecord k t.code t.status c.pc).endCtx k t.status false false) ∧
    (∀ v, c.handler = false → x.handler = 0 → t = .trap v → (0 < v ∧ v ≤ 0x14 → s.takeTrap k c t =
        (s.faultRecord k 0x0A v c.pc).endCtx k v false false) ∧
      (v = 0 ∨ 0x14 < v → s.takeTrap k c t = (s.faultRecord k 0x0A St.ILLEGAL c.pc).endCtx k St.ILLEGAL false false))) ∧
  (∀ (s : State) (k : Nat) (c : Ctx) (t : Trap) (x : Script), c.loadsInFlight = false → s.ctxScript c = some x →
    (t = .dataUe ∨ t = .fetchUe) → c.handler = false → x.handler ≠ 0 → s.takeTrap k c t =
      (s.raiseD Ev.SRAM_UE (k / 16)).putCtx k
        { c with epc := c.pc, cause := t.code + 256 * t.status, handler := true, pc := 2 ^ 60 + x.handler }) ∧
  [Trap.illegalInsn, .misaligned, .addrBounds, .addrAccess, .writeRo, .fetchBounds, .fetchUe, .dataUe, .sealState, .trap 5,
    .srAccess].map (fun t => (t.code, t.status)) =
    [(1, St.ILLEGAL), (2, St.BOUNDS), (3, St.BOUNDS), (4, St.ACCESS_DENIED), (5, St.BOUNDS), (6, St.BOUNDS),
     (7, St.ENGINE_FAULT), (8, St.POISONED), (9, St.ILLEGAL), (10, 5), (11, St.ILLEGAL)] ∧
  (∀ (s : State) (k cause status pc : Nat), ∃ u : State, u.sent = s.sent ∧ u.scr = s.scr ∧ u.que = s.que ∧
    (u.liveWord .SCR_FAULT (k / 16)).toNat = (cause * 2 ^ 24 + status * 2 ^ 16 + k % 16 * 2 ^ 12 + 1) % 2 ^ 32 ∧
    ((∃ t, mapGet? s.scr.faultAt (k / 16) = some t ∧ s.clock < t + 1000) → s.faultRecord k cause status pc = u) ∧
    ((mapGet? s.scr.faultAt (k / 16) = none ∨ ∃ t, mapGet? s.scr.faultAt (k / 16) = some t ∧ t + 1000 ≤ s.clock) →
      s.faultRecord k cause status pc = ({ u with scr := { u.scr with
        faultAt := mapSet u.scr.faultAt (k / 16) s.clock } } : State).raiseD Ev.TICKET_FAULT (k / 16)))

/-- R471 to R473: loads, stores and atomics. -/
def Obligations.LoadsStoresAndAtomicsReachTheirSpaces : Prop :=
  (∀ (s : State) (e cx : Nat) (c : Ctx) (rt rb z sg d : Nat) (ue : Bool), rt < 32 → rb < 32 → z < 4 → sg < 2 → d < 4096 →
    let k := e * 16 + cx
    let n := 2 ^ z
    let a := ((c.xr rb).toNat + (if d < 2048 then d else 2 ^ 64 - (4096 - d))) % 2 ^ 64
    (Issues s e cx c (fM 0x18 rt rb z sg d) →
      (z = 3 → sg = 1 → exec (.ld e cx ue) s = .next (s.takeTrap k c .illegalInsn)) ∧
      ((z ≠ 3 ∨ sg = 0) →
        (a % n ≠ 0 → exec (.ld e cx ue) s = .next (s.takeTrap k c .misaligned)) ∧
        (∀ t, a % n = 0 → s.addrCheck c a n true false = some t → exec (.ld e cx ue) s = .next (s.takeTrap k c t)) ∧
        (a % n = 0 → s.addrCheck c a n true false = none → a / 2 ^ 60 ≠ 2 → ue = true →
          exec (.ld e cx ue) s = .next (s.takeTrap k c .dataUe)) ∧
        (a % n = 0 → s.addrCheck c a n true false = none → a / 2 ^ 60 ≠ 2 → ue = false →
          let v := leNat (s.localRead k c a n)
          Writes (.ld e cx ue) s e cx c rt (if sg = 1 ∧ 2 ^ (8 * n - 1) ≤ v % 2 ^ (8 * n) then
            BitVec.ofNat 64 (v % 2 ^ (8 * n) + 2 ^ 64 - 2 ^ (8 * n)) else BitVec.ofNat 64 (v % 2 ^ (8 * n)))) ∧
        (a % n = 0 → s.addrCheck c a n true false = none → a / 2 ^ 60 = 2 →
          (s.freeSlot e = none → exec (.ld e cx ue) s = .next s) ∧
          (∀ f, s.freeSlot e = some f → exec (.ld e cx ue) s = .next
            ((s.dpaLoad k f c.advance (.reg rt n (decide (sg = 1)) (a % 64)) (a % 2 ^ 60 / 64)).settle))))) ∧
    (Issues s e cx c (fM 0x19 rt rb z sg d) →
      (sg = 1 → exec (.st e cx) s = .next (s.takeTrap k c .illegalInsn)) ∧
      (sg = 0 → a % n ≠ 0 → exec (.st e cx) s = .next (s.takeTrap k c .misaligned)) ∧
      (∀ t, sg = 0 → a % n = 0 → s.addrCheck c a n false true = some t → exec (.st e cx) s = .next (s.takeTrap k c t)) ∧
      (sg = 0 → a % n = 0 → s.addrCheck c a n false true = none →
        exec (.st e cx) s = .next ((s.storeBytes k c a n (2 ^ n - 1) ((c.xr rt).toNat % 2 ^ (8 * n))).getD s)) ∧
      (sg = 0 → a % n = 0 → s.addrCheck c a n false true = none → a / 2 ^ 60 = 0 → Answers (.st e cx) s fun t =>
        t.scr.inkwell = memWriteN 0 s.scr.inkwell (k / 16 * 524288 + c.inkBase + a % 2 ^ 60)
          (mergeBytes (2 ^ n - 1) (s.localRead k c a n) (leBytes n ((c.xr rt).toNat % 2 ^ (8 * n)))) ∧
        t.path = s.path ∧ t.cache = s.cache ∧ t.que = s.que))) ∧
  (∀ (s : State) (e cx : Nat) (c : Ctx) (rd r1 r2 f : Nat) (ue : Bool), rd < 32 → r1 < 32 → r2 < 32 → f < 2048 →
    let k := e * 16 + cx
    let n := if f = 3 then 8 else 4
    let a := (c.xr r1).toNat
    let x := (c.xr rd).toNat % 2 ^ (8 * n)
    let y := (c.xr r2).toNat % 2 ^ (8 * n)
    ∀ r ∈ [(Instr.cas e cx ue, 0x1C, 1), (.fadd e cx ue, 0x1D, 2)], Issues s e cx c (fA r.2.1 rd r1 r2 f) →
      (f ≠ 2 → f ≠ 3 → exec r.1 s = .next (s.takeTrap k c .illegalInsn)) ∧
      (f = 2 ∨ f = 3 →
        (a % n ≠ 0 → exec r.1 s = .next (s.takeTrap k c .misaligned)) ∧
        (∀ t, a % n = 0 → s.addrCheck c a n true true = some t → exec r.1 s = .next (s.takeTrap k c t)) ∧
        (a % n = 0 → s.addrCheck c a n true true = none →
          (c.inGroup a n = true → exec r.1 s = .next (s.takeTrap k c .sealState)) ∧
          (c.inGroup a n = false → a / 2 ^ 60 = 2 → (s.storesApplied c = false ∨ s.freeSlot e = none) →
            exec r.1 s = .next s) ∧
          (∀ g, c.inGroup a n = false → a / 2 ^ 60 = 2 → s.storesApplied c = true → s.freeSlot e = some g →
            exec r.1 s = .next ((s.dpaStore k g { c.advance with block := .atomic } (a % 2 ^ 60 / 64) 0 0
              (some ⟨r.2.2, n, a % 64, if r.2.2 = 1 then x else y, y⟩) (.atomic rd n) (a % 2 ^ 60)).settle)) ∧
          (c.inGroup a n = false → a / 2 ^ 60 = 0 → ue = false → Answers r.1 s fun t =>
            let old := leNat (s.localRead k c a n)
            let v := if r.2.2 = 1 then (if old = x then y else old) else (old + y) % 2 ^ (8 * n)
            t.scr.inkwell = memWriteN 0 s.scr.inkwell (k / 16 * 524288 + c.inkBase + a % 2 ^ 60) (leBytes n v) ∧
            t.ctx k = some (wrote c rd (BitVec.ofNat 64 old)) ∧ t.path = s.path))))

/-- Element `i` of `n` bytes of a vector: as a number, and as a signed number. -/
def Sys2Proof.Claims.elU (v : Line) (n i : Nat) : Nat := v.toNat / 2 ^ (8 * n * i) % 2 ^ (8 * n)
def Sys2Proof.Claims.elI (v : Line) (n i : Nat) : Int :=
  if elU v n i < 2 ^ (8 * n - 1) then (elU v n i : Int) else (elU v n i : Int) - 2 ^ (8 * n)
/-- The element is active under predicate `pm` (R424). -/
def Sys2Proof.Claims.act (c : Ctx) (pm n i : Nat) : Bool := pm = 0 || (mapGet (0 : W64) c.p pm).toNat.testBit (i * n)
/-- The conditions of VCMP (R476), on integers. -/
def Sys2Proof.Claims.cmpHolds (f : Nat) (x y : Int) : Bool :=
  match f with
  | 0 => decide (x = y)
  | 1 => decide (x ≠ y)
  | 2 => decide (x < y)
  | 3 => decide (x ≤ y)
  | 4 => decide (y < x)
  | _ => decide (y ≤ x)

/-- R474 to R478: vectors. -/
def Obligations.VectorInstructionsWorkOnActiveElements : Prop :=
  (∀ (s : State) (e cx : Nat) (c : Ctx) (vd v1 v2 pm ew rs d : Nat) (ue : Bool), vd < 8 → v1 < 8 → v2 < 8 → pm < 4 → ew < 4 →
    rs < 32 → d < 64 →
    let k := e * 16 + cx
    let n := 2 ^ ew
    let off (unit : Nat) : Nat := ((c.xr rs).toNat + (if d < 32 then d * unit else 2 ^ 64 - (64 - d) * unit)) % 2 ^ 64
    (Issues s e cx c (fV 0x20 vd v1 v2 pm ew rs d) →
      (v1 ≠ 0 ∨ v2 ≠ 0 → exec (.vld e cx ue) s = .next (s.takeTrap k c .illegalInsn)) ∧
      (v1 = 0 → v2 = 0 → let a := off 64
        (a % (if a / 2 ^ 60 = 2 then 64 else n) ≠ 0 → exec (.vld e cx ue) s = .next (s.takeTrap k c .misaligned)) ∧
        (a % n = 0 → a / 2 ^ 60 ≠ 2 → s.addrCheck c a 64 true false = none → ue = false →
          ∃ v : Line, Becomes (.vld e cx ue) s e cx { c with v := mapSet c.v vd v, pc := (c.pc + 4) % 2 ^ 64 } ∧
          ∀ i, i < 64 / n → elU v n i = if act c pm n i then leNat ((s.localRead k c a 64).drop (i * n) |>.take n)
            else elU (c.vr vd) n i) ∧
        (∀ g, a % 64 = 0 → a / 2 ^ 60 = 2 → s.addrCheck c a 64 true false = none → s.freeSlot e = some g →
          exec (.vld e cx ue) s = .next ((s.dpaLoad k g c.advance (.vec vd (c.activeMask (fV 0x20 vd 0 0 pm ew rs d)))
            (a % 2 ^ 60 / 64)).settle)))) ∧
    (Issues s e cx c (fV 0x20 vd v1 v2 pm ew rs (64 + d)) →
      (v1 ≠ 0 ∨ v2 ≠ 0 → exec (.vldBc e cx ue) s = .next (s.takeTrap k c .illegalInsn)) ∧
      (v1 = 0 → v2 = 0 → let a := off n
        (a % n ≠ 0 → exec (.vldBc e cx ue) s = .next (s.takeTrap k c .misaligned)) ∧
        (a % n = 0 → a / 2 ^ 60 ≠ 2 → s.addrCheck c a n true false = none → ue = false →
          ∃ v : Line, Becomes (.vldBc e cx ue) s e cx { c with v := mapSet c.v vd v, pc := (c.pc + 4) % 2 ^ 64 } ∧
          ∀ i, i < 64 / n → elU v n i = if act c pm n i then leNat (s.localRead k c a n) % 2 ^ (8 * n)
            else elU (c.vr vd) n i))) ∧
    (Issues s e cx c (fV 0x21 vd v1 v2 pm ew rs d) →
      (v1 ≠ 0 ∨ v2 ≠ 0 → exec (.vst e cx) s = .next (s.takeTrap k c .illegalInsn)) ∧
      (v1 = 0 → v2 = 0 → let a := off 64
        (a % (if a / 2 ^ 60 = 2 then 64 else n) ≠ 0 → exec (.vst e cx) s = .next (s.takeTrap k c .misaligned)) ∧
        (a % (if a / 2 ^ 60 = 2 then 64 else n) = 0 → s.addrCheck c a 64 false true = none → exec (.vst e cx) s =
          .next ((s.storeBytes k c a 64 (c.activeMask (fV 0x21 vd 0 0 pm ew rs d)) (c.vr vd).toNat).getD s))))) ∧
  (∀ (s : State) (e cx : Nat) (c : Ctx) (vd v1 v2 pm ew rs f : Nat), vd < 8 → v1 < 8 → v2 < 8 → pm < 4 → ew < 4 →
    rs < 32 → f < 256 →
    let k := e * 16 + cx
    let n := 2 ^ ew
    let a := c.vr v1
    let b := c.vr v2
    (Issues s e cx c (fV 0x22 vd v1 v2 pm ew rs f) →
      (16 ≤ f ∨ 5 < f % 8 ∨ 4 ≤ vd ∨ rs ≠ 0 → exec (.vcmp e cx) s = .next (s.takeTrap k c .illegalInsn)) ∧
      (f < 16 → f % 8 ≤ 5 → vd < 4 → rs = 0 → ∃ q : W64, Becomes (.vcmp e cx) s e cx { c with p := if vd = 0 then c.p else mapSet c.p vd q, pc := (c.pc + 4) % 2 ^ 64 } ∧
        ∀ j, j < 64 → q.toNat.testBit j = (act c pm n (j / n) && cmpHolds (f % 8)
          (if f < 8 then elI a n (j / n) else elU a n (j / n)) (if f < 8 then elI b n (j / n) else elU b n (j / n))))) ∧
    (Issues s e cx c (fV 0x23 vd v1 v2 pm ew rs f) →
      (f ≠ 0 ∨ rs ≠ 0 → exec (.vsel e cx) s = .next (s.takeTrap k c .illegalInsn)) ∧
      (f = 0 → rs = 0 → ∃ v : Line, Becomes (.vsel e cx) s e cx { c with v := mapSet c.v vd v, pc := (c.pc + 4) % 2 ^ 64 } ∧
        ∀ i, i < 64 / n → elU v n i = if act c pm n i then elU a n i else elU b n i)) ∧
    (Issues s e cx c (fV 0x24 vd v1 v2 pm ew rs f) →
      (2 ≤ f ∨ vd ≠ 0 ∨ v2 ≠ 0 → exec (.vsum e cx) s = .next (s.takeTrap k c .illegalInsn)) ∧
      (f < 2 → vd = 0 → v2 = 0 → Writes (.vsum e cx) s e cx c rs (c.xr rs + BitVec.ofInt 64
        (((List.range (64 / n)).map (fun i => if act c pm n i then (if f = 0 then elI a n i else elU a n i) else 0)).foldl
          (· + ·) 0)))) ∧
    (∀ r ∈ [(Instr.vmin e cx, 0x25, false), (.vmax e cx, 0x26, true)], Issues s e cx c (fV r.2.1 vd v1 v2 pm ew rs f) →
      f % 2 = 0 →
      (4 ≤ f ∨ rs ≠ 0 → exec r.1 s = .next (s.takeTrap k c .illegalInsn)) ∧
      (f < 4 → rs = 0 → ∃ v : Line, Becomes r.1 s e cx { c with v := mapSet c.v vd v, pc := (c.pc + 4) % 2 ^ 64 } ∧
        ∀ i, i < 64 / n → elU v n i = if act c pm n i then
          (let lt := if f = 0 then decide (elI a n i ≤ elI b n i) else decide (elU a n i ≤ elU b n i)
           if lt != r.2.2 then elU a n i else elU b n i) else elU (c.vr vd) n i)) ∧
    (∀ r ∈ [(Instr.vminr e cx, 0x25, false), (.vmaxr e cx, 0x26, true)], Issues s e cx c (fV r.2.1 vd v1 v2 pm ew rs f) →
      f % 2 = 1 →
      (4 ≤ f ∨ vd ≠ 0 ∨ v2 ≠ 0 → exec r.1 s = .next (s.takeTrap k c .illegalInsn)) ∧
      (f < 4 → vd = 0 → v2 = 0 → ∃ m : W64, Writes r.1 s e cx c rs m ∧
        (let val (w : W64) : Int := if f = 1 then w.toInt else w.toNat
         let el (i : Nat) : Int := if f = 1 then elI a n i else elU a n i
         (val m = val (c.xr rs) ∨ ∃ i, i < 64 / n ∧ act c pm n i = true ∧ val m = el i) ∧
         (r.2.2 = false → val m ≤ val (c.xr rs) ∧ ∀ i, i < 64 / n → act c pm n i = true → val m ≤ el i) ∧
         (r.2.2 = true → val (c.xr rs) ≤ val m ∧ ∀ i, i < 64 / n → act c pm n i = true → el i ≤ val m)))))

/-- R447 to R456, R480 to R482: groups and barriers. -/
def Obligations.SealGroupsBarriersAndBlockedContexts : Prop :=
  (∀ (s : State) (e cx : Nat) (c : Ctx), Issues s e cx c (fS 0x28 0 0 0 0 0) →
    (c.sealOpen = true → exec (.sealOpen e cx) s = .next (s.takeTrap (e * 16 + cx) c .sealState)) ∧
    (c.sealOpen = false → exec (.sealOpen e cx) s = .next (s.putCtx (e * 16 + cx)
      { c with pc := (c.pc + 4) % 2 ^ 64, sealOpen := true, sealLines := [], sealBuf := [] }))) ∧
  (∀ (s : State) (e cx : Nat) (c : Ctx) (r : Nat), r < 32 → Issues s e cx c (fS 0x28 0 r 0 0 1) →
    let a := (c.xr r).toNat
    let line := a % 2 ^ 60 / 64
    let k := e * 16 + cx
    (∀ t, s.sealCheck c a = some t → exec (.sealAdd e cx) s = .next (s.takeTrap k c t)) ∧
    (s.sealCheck c a = none → c.sealOpen = false → exec (.sealAdd e cx) s = .next (s.takeTrap k c .sealState)) ∧
    (s.sealCheck c a = none → c.sealOpen = true → line ∈ c.sealLines →
      Becomes (.sealAdd e cx) s e cx { c with pc := (c.pc + 4) % 2 ^ 64 }) ∧
    (s.sealCheck c a = none → c.sealOpen = true → line ∉ c.sealLines → c.sealLines.length < 64 →
      exec (.sealAdd e cx) s = .next (s.putCtx k { c with pc := (c.pc + 4) % 2 ^ 64, sealLines := c.sealLines ++ [line] })) ∧
    (s.sealCheck c a = none → c.sealOpen = true → line ∉ c.sealLines → 64 ≤ c.sealLines.length →
      exec (.sealAdd e cx) s = .next (s.takeTrap k c .sealState))) ∧
  (∀ (s : State) (c : Ctx) (a : Nat),
    (a / 2 ^ 60 = 2 → s.addrCheck c (a / 64 * 64) 64 true true = none → s.linePersistent (a % 2 ^ 60 / 64) = false →
      s.sealCheck c a = some .sealState) ∧
    (a / 2 ^ 60 ≠ 2 → a / 2 ^ 60 < 4 → s.sealCheck c a = some .sealState) ∧
    (4 ≤ a / 2 ^ 60 → s.sealCheck c a = some .addrBounds)) ∧
  (∀ (s : State) (e cx : Nat) (c : Ctx), Issues s e cx c (fS 0x28 0 0 0 0 2) →
    let k := e * 16 + cx
    (∀ l t, c.sealLines = [l] → s.sealCheck c (2 * 2 ^ 60 + l * 64) = some t →
      exec (.sealCommit e cx) s = .next (s.takeTrap k c t)) ∧
    ((∀ l ∈ c.sealLines, s.sealCheck c (2 * 2 ^ 60 + l * 64) = none) →
      (c.sealOpen = false → exec (.sealCommit e cx) s = .next (s.takeTrap k c .sealState)) ∧
      (c.sealOpen = true → c.sealBuf = [] → exec (.sealCommit e cx) s =
        .next (s.putCtx k { c with pc := (c.pc + 4) % 2 ^ 64, sealOpen := false, sealLines := [], sealBuf := [] })) ∧
      (c.sealOpen = true → c.sealBuf ≠ [] → Answers (.sealCommit e cx) s fun t => ∃ (u : State) (d : Ctx),
        u = s.putCtx k d ∧ d.block = .commit (some s.path.nextAcc) ∧ d.sealOpen = false ∧ d.sealLines = [] ∧ d.sealBuf = [] ∧
        d.stores = c.stores ++ [s.path.nextAcc] ∧
        t = (u.accept (.script e cx 64) true ((c.sealBuf.headD (0, (0, 0))).1 * 64)
          (c.sealBuf.map (fun p => ⟨p.1, p.2.1, p.2.2⟩)) 4 s.clock false true none).settle))) ∧
  (∀ (s : State) (e cx : Nat) (c : Ctx),
    (Issues s e cx c (fS 0x29 0 0 0 0 0) →
      Becomes (.pbarLocal e cx) s e cx { c with pc := (c.pc + 4) % 2 ^ 64, block := .pbar false s.path.nextAcc }) ∧
    (Issues s e cx c (fS 0x29 0 0 0 0 1) →
      Becomes (.pbarTwin e cx) s e cx { c with pc := (c.pc + 4) % 2 ^ 64, block := .pbar true s.path.nextAcc })) ∧
  (∀ (s : State) (e cx : Nat), (s.ctx (e * 16 + cx) = none → exec (.blockingRetire e cx) s = .next s) ∧
    (∀ c, s.ctx (e * 16 + cx) = some c →
      (c.block = .none → exec (.blockingRetire e cx) s = .next s) ∧
      (c.block = .yield → Becomes (.blockingRetire e cx) s e cx { c with block := .none }) ∧
      (c.block = .atomic → c.loadsInFlight = true → exec (.blockingRetire e cx) s = .next s) ∧
      (c.block = .atomic → c.loadsInFlight = false → Becomes (.blockingRetire e cx) s e cx { c with block := .none }) ∧
      (∀ twin acc, c.block = .pbar twin acc → s.fenced = true → exec (.blockingRetire e cx) s = .next s) ∧
      (∀ twin acc r, c.block = .pbar twin acc → r ∈ s.path.held → r.acc ∈ c.stores → r.acc < acc →
        exec (.blockingRetire e cx) s = .next s) ∧
      (∀ acc, c.block = .pbar false acc → s.fenced = false →
        (∀ r ∈ s.path.held, ¬ (r.acc ∈ c.stores ∧ r.acc < acc)) →
        Becomes (.blockingRetire e cx) s e cx { c with block := .none }) ∧
      (∀ acc r, c.block = .commit (some acc) → r ∈ s.path.held → r.acc = acc →
        exec (.blockingRetire e cx) s = .next s) ∧
      (∀ acc, c.block = .commit (some acc) → s.fenced = false → (∀ r ∈ s.path.held, r.acc ≠ acc) →
        (∀ r ∈ s.path.applied, r.acc ≠ acc) → Answers (.blockingRetire e cx) s fun t => ∃ u : State, u.scr = s.scr ∧
          t = u.putCtx (e * 16 + cx) { c with block := .none, ops := c.ops.filter (fun o => o.slot != 64) }) ∧
      (∀ rd i, c.block = .waitc rd i →
        (s.waitcResult (e * 16 + cx) i = none → exec (.blockingRetire e cx) s = .next s) ∧
        (∀ v, s.waitcResult (e * 16 + cx) i = some v → Becomes (.blockingRetire e cx) s e cx
          { c with block := .none, x := if rd = 0 then c.x else mapSet c.x rd (BitVec.ofNat 64 v) })) ∧
      (∀ rd v, c.block = .notify rd v → s.storesApplied c = false → exec (.blockingRetire e cx) s = .next s) ∧
      (∀ rd v q, c.block = .notify rd v → s.storesApplied c = true → s.queue c.ld c.queue = some q →
        q.noteCount < q.depth → Answers (.blockingRetire e cx) s fun t => ∃ u : State,
          t = u.postNote c.ld c.queue c.slot c.gen v St.DONE 0 ∧ u.path = s.path ∧ u.que = s.que) ∧
      (∀ rd v q, c.block = .notify rd v → s.storesApplied c = true → s.queue c.ld c.queue = some q →
        q.depth ≤ q.noteCount → Answers (.blockingRetire e cx) s fun t => ∃ u : State,
          t = u.raise Ev.NOTE_RING_FULL ∧ u.que = s.que ∧
          (u.ctx (e * 16 + cx)).map (fun d => d.xr rd) = some (if rd = 0 then 0 else BitVec.ofNat 64 St.QUEUE_FULL))))

/-- R484 to R494: transfers, probes and cues. -/
def Obligations.CopyCrcProbeAndCues : Prop :=
  (∀ (s : State) (e cx : Nat) (c : Ctx) (er : DmaErr) (j : DmaJob),
    let busy := ((s.ctxsOf e).filter (fun p => match p.2.block with
      | .dma _ => true
      | _ => false)).length
    (4 ≤ busy ∨ s.storesApplied c = false → s.startDma e cx c er j = s) ∧
    (busy < 4 → s.storesApplied c = true → er = .none → s.startDma e cx c er j =
      (s.putCtx (e * 16 + cx) { c with pc := (c.pc + 4) % 2 ^ 64, block := .dma j }).dmaAdvance (e * 16 + cx) dmaFuel) ∧
    (busy < 4 → s.storesApplied c = true → er = .buffer → s.startDma e cx c er j =
      (((s.raiseD Ev.DMA_HALT e).raiseD Ev.DMA_CHANNEL_HALT e).endByEvent (e * 16 + cx) c St.POISONED).settle)) ∧
  (∀ (s : State) (e cx : Nat) (c : Ctx) (rd r1 r2 f : Nat) (er : DmaErr), rd < 32 → r1 < 32 → r2 < 32 → f < 2048 →
    let k := e * 16 + cx
    let r : DmaRange := ⟨(c.xr rd).toNat, (c.xr r1).toNat, (c.xr r2).toNat⟩
    let n := (c.xr r2).toNat
    let a := (c.xr r1).toNat
    (Issues s e cx c (fA 0x2A rd r1 r2 f) →
      (f % 2 = 0 → f ≠ 0 → exec (.copy e cx er) s = .next (s.takeTrap k c .illegalInsn)) ∧
      (∀ t, f = 0 → s.rangeTrap c r false = some t → exec (.copy e cx er) s = .next (s.takeTrap k c t)) ∧
      (f = 0 → s.rangeTrap c r false = none →
        exec (.copy e cx er) s = .next (s.startDma e cx c er ⟨none, 0, [r], false, 0, [], []⟩)) ∧
      (f % 2 = 1 → (f ≠ 1 ∨ rd ≠ 0) → exec (.copyL e cx er) s = .next (s.takeTrap k c .illegalInsn)) ∧
      (f = 1 → rd = 0 → n = 0 → Becomes (.copyL e cx er) s e cx { c with pc := (c.pc + 4) % 2 ^ 64 }) ∧
      (f = 1 → rd = 0 → 128 < n → exec (.copyL e cx er) s = .next (s.takeTrap k c .addrBounds)) ∧
      (f = 1 → rd = 0 → 0 < n → n ≤ 128 → a % 32 ≠ 0 → exec (.copyL e cx er) s = .next (s.takeTrap k c .misaligned)) ∧
      (f = 1 → rd = 0 → 0 < n → n ≤ 128 → a % 32 = 0 → (a / 2 ^ 60 ≠ 3 ∨ a % 2 ^ 60 < 64 ∨ 4096 < a % 2 ^ 60 + 32 * n) →
        exec (.copyL e cx er) s = .next (s.takeTrap k c .addrBounds)) ∧
      (∀ rs, f = 1 → rd = 0 → 0 < n → n ≤ 128 → s.listRanges k c a n false = (rs, none) →
        exec (.copyL e cx er) s = .next (s.startDma e cx c er ⟨none, 0, rs, false, 0, [], []⟩))) ∧
    (Issues s e cx c (fA 0x2B rd r1 r2 f) →
      (8 ≤ f → exec (.crc e cx er) s = .next (s.takeTrap k c .illegalInsn)) ∧
      (∀ t, f < 8 → f / 2 % 2 = 0 → s.rangeTrap c ⟨0, a, n⟩ true = some t →
        exec (.crc e cx er) s = .next (s.takeTrap k c t)) ∧
      (f < 8 → f / 2 % 2 = 0 → s.rangeTrap c ⟨0, a, n⟩ true = none → exec (.crc e cx er) s = .next (s.startDma e cx c er
        ⟨some (rd, f % 2), if f / 4 = 1 then (c.xr rd).toNat else 0, [⟨0, a, n⟩], false, 0, [], []⟩)) ∧
      (f < 8 → f / 2 % 2 = 1 → n = 0 → Writes (.crc e cx er) s e cx c rd
        (BitVec.ofNat 64 (crcMore (f % 2) (if f / 4 = 1 then (c.xr rd).toNat else 0) [])))) ∧
    (Issues s e cx c (fA 0x2D rd r1 r2 f) → ∀ ue,
      (f ≠ 0 → exec (.probe e cx ue) s = .next (s.takeTrap k c .illegalInsn)) ∧
      (f = 0 → a % 32 ≠ 0 → exec (.probe e cx ue) s = .next (s.takeTrap k c .misaligned)) ∧
      (f = 0 → a % 32 = 0 → (a / 2 ^ 60 ≠ 3 ∨ a % 2 ^ 60 < 64 ∨ 4096 < a % 2 ^ 60 + 32) →
        exec (.probe e cx ue) s = .next (s.takeTrap k c .addrBounds)) ∧
      (let bs := s.localRead k c a 32
       let base := leNat (bs.take 8)
       let lg := leNat ((bs.drop 8).take 1)
       f = 0 → a % 32 = 0 → a / 2 ^ 60 = 3 → 64 ≤ a % 2 ^ 60 → a % 2 ^ 60 + 32 ≤ 4096 → lg ≤ 32 →
       1 ≤ leNat ((bs.drop 9).take 1) → leNat ((bs.drop 9).take 1) ≤ 64 → leNat ((bs.drop 10).take 1) ≤ 1 →
       leNat ((bs.drop 11).take 5) = 0 → s.accessTrap c base (64 * 2 ^ lg) 64 true false false = none →
       c.inGroup base (64 * 2 ^ lg) = false → (ue = false ∨ base / 2 ^ 60 = 2) → n = leNat ((bs.drop 24).take 8) →
       Writes (.probe e cx ue) s e cx c rd 1)) ∧
    (∀ p ∈ [(Instr.cue e cx, 0), (.cueR e cx, 1)], Issues s e cx c (fA 0x2E rd r1 r2 f) → f % 2 = p.2 →
      (f ≠ p.2 ∨ r2 ≠ 0 → exec p.1 s = .next (s.takeTrap k c .illegalInsn)) ∧
      (f = p.2 → r2 = 0 → s.cueRun k = none → Writes p.1 s e cx c rd (BitVec.allOnes 64)) ∧
      (∀ u x y, f = p.2 → r2 = 0 → s.cueRun k = some u → u.bad = none →
        x = s.moveCursor u (if p.2 = 0 then a else (u.cursor + a) % 2 ^ 64) → x.cueRun k = some y →
        exec p.1 s = .next ((x.setCtx k (wrote c rd (BitVec.ofNat 64 y.cursor))).settle))) ∧
    (Issues s e cx c (fA 0x2F rd r1 r2 f) →
      (f ≠ 0 ∨ r2 ≠ 0 → exec (.waitc e cx) s = .next (s.takeTrap k c .illegalInsn)) ∧
      (f = 0 → r2 = 0 → s.cueRun k = none →
        Becomes (.waitc e cx) s e cx { c with pc := (c.pc + 4) % 2 ^ 64, block := .waitc rd a }) ∧
      (∀ u, f = 0 → r2 = 0 → s.cueRun k = some u → Answers (.waitc e cx) s fun t => ∃ v : State,
        v.ctx k = some { c with pc := (c.pc + 4) % 2 ^ 64, block := .waitc rd a } ∧
        t = (v.setCueRun { u with due := max u.due (min a 65536) }).settle))) ∧
  (∀ (s : State) (e cx : Nat) (c : Ctx) (rd r1 : Nat), rd < 32 → r1 < 32 → Issues s e cx c (fS 0x30 rd r1 0 0 0) →
    Becomes (.notify e cx) s e cx { c with pc := (c.pc + 4) % 2 ^ 64, block := .notify rd (c.xr r1).toNat }) ∧
  (∀ (s : State) (k i : Nat),
    (s.cueRun k = none → s.waitcResult k i = some St.ILLEGAL) ∧
    (∀ u, s.cueRun k = some u →
      (∀ v, u.bad = some v → s.waitcResult k i = some v) ∧
      (u.bad = none → u.isOpen = false → s.waitcResult k i = none) ∧
      (u.bad = none → u.isOpen = true → u.count ≤ i → s.waitcResult k i = some St.BOUNDS) ∧
      (u.bad = none → u.isOpen = true → i < u.count → s.waitcResult k i = mapGet? u.results i)))

/-- R128 and the rules of each row: the vendor commands complete. -/
def Obligations.VendorCommandsCompleteWithTheirEffect : Prop :=
  ∀ (s : State) (mb : Nat), s.mailUp = true →
  -- the reports
  (∃ o, o.length = 39 ∧ exec (.getDeviceInfo mb []) s = .next (s.answer mb 0xC000 St.DONE o)) ∧
  (∃ o, o.length = 11 ∧ exec (.getEpoch mb []) s = .next (s.answer mb 0xC001 St.DONE o)) ∧
  (∃ o, o.length = 39 ∧ exec (.inkRead mb []) s = .next (s.answer mb 0xC009 St.DONE o)) ∧
  (∃ o, o.length = 15 ∧ exec (.twinStatus mb []) s = .next (s.answer mb 0xC01A St.DONE o)) ∧
  (∀ i : List Byte, i.length = 2 → leAt i 0 2 < 4096 → ∃ o, o.length = 39 ∧
    exec (.regionRead mb i) s = .next (s.answer mb 0xC004 St.DONE o)) ∧
  (∀ (i : List Byte) (j : Job), i.length = 4 → s.job (leAt i 0 4) = some j → ∃ o, o.length = 3 ∧
    exec (.maintStatus mb i) s = .next (s.answer mb 0xC00D St.DONE o)) ∧
  (∀ i : List Byte, i.length = 1 → ∃ o, o.length = 15 ∧
    exec (.energyRead mb i) s = .next (s.answer mb 0xC015 St.DONE o)) ∧
  (∀ i : List Byte, i.length = 1 → ∃ o, o.length = 7 ∧
    exec (.keyStatus mb i) s = .next (s.answer mb 0xC018 St.DONE o)) ∧
  (∀ i : List Byte, i.length = 2 → leAt i 0 2 ≤ 0x1FF → ∃ o,
    exec (.tallyRead mb i) s = .next ((s.tallySnap (leAt i 0 2)).answer mb 0xC014 St.DONE o)) ∧
  (∀ i : List Byte, i.length = 10 → ∃ rs : List PbRecord, rs.length ≤ 7 ∧
    exec (.pbookRead mb i) s = .next ((s.pbMarkRead (rs.map (fun r => r.seq))).answer mb 0xC012 St.DONE
      (leBytes 1 rs.length ++ leBytes 6 0 ++ rs.flatMap PbRecord.bytes))) ∧
  (∀ i : List Byte, s.mbAdmin mb = true → i.length = 1 → leAt i 0 1 < 12 → ∃ o, exec (.freezeSnapshot mb i) s =
    .next ((if s.chanFrozen (leAt i 0 1) = true then s.setFlag F.DMC_STAT_snap_read (leAt i 0 1) true else s).answer mb
      0xC010 St.DONE o)) ∧
  -- the tables
  (s.cmdFenced = false →
    (∀ i : List Byte, s.mbAdmin mb = true → i.length = 40 → leAt i 0 2 < 4096 → exec (.regionWrite mb i) s = .next
      ((s.setTabEntry false 0 (leAt i 0 2) [leAt i 8 8, leAt i 16 8, leAt i 24 8]).answer mb 0xC005 St.DONE [])) ∧
    (∀ i : List Byte, s.mbAdmin mb = true → i.length = 144 → exec (.accessStage mb i) s = .next
      ((s.setTabEntry false 2 (leAt i 0 1) ((upto 17).map (fun w => leAt i (8 + 8 * w) 8))).answer mb 0xC006 St.DONE [])) ∧
    (s.mbAdmin mb = true → s.region.commit = none →
      exec (.accessCommit mb []) s = .next (s.startCommit (.mailbox mb)).settle) ∧
    (∀ i : List Byte, i.length = 2 → exec (.persistBarrier mb i) s = .next (State.settle { s with host :=
      { s.host with barriers := s.host.barriers ++ [(mb, leAt i 0 2, s.path.nextAcc)] } })) ∧
    (∀ i : List Byte, s.mbAdmin mb = true → i.length = 8 → exec (.inkLimitSet mb i) s = .next
      (let u : State := (s.setInkLimit (leAt i 0 8 / 65536)).settle
       u.answer mb 0xC00A St.DONE (leBytes 7 0 ++ leBytes 8 (u.fld F.INK_CEIL_ceiling 0 * 65536)))) ∧
    -- the queues and scripts
    (∀ (i : List Byte) (ld : Nat), i.length = 14 → s.mbLd mb = some ld → leAt i 0 2 ≤ 4095 → 2 ≤ leAt i 2 2 →
      leAt i 2 2 ≤ 4096 → (leAt i 12 1 < 64 ∨ leAt i 12 1 = 0xFF) → leAt i 13 1 < 4 →
      s.areasOk ld (leAt i 2 2) (leAt i 4 4) (leAt i 8 4) = true → s.queue ld (leAt i 0 2) = none →
      s.que.pairs.length < 65536 → Answers (.queueCreate mb i) s fun t => ∃ q, t.queue ld (leAt i 0 2) = some q ∧
        q.depth = leAt i 2 2 ∧ q.sub = leAt i 4 4 ∧ q.cpl = leAt i 8 4 ∧ q.vector = leAt i 12 1 ∧ q.prio = leAt i 13 1 ∧
        q.slots = [] ∧ t.sent = s.sent ++ [.mailbox mb 0xC01B .success [0]]) ∧
    (∀ (i : List Byte) (ld : Nat), i.length = 16 → s.mbLd mb = some ld →
      let len := leAt i 4 4
      let dpa := leAt i 8 8
      let img := s.dpaBytes dpa len
      0 < len → len ≤ 16777216 → (∀ a, dpa ≤ a → a < dpa + len →
        (s.windowFor ((s.mbIdentity mb).getD 256) a 62).isSome = true ∧ (s.regionAt a).isSome = true) →
      scriptFormOk img len (leAt i 2 1) = true → s.script ld (leAt i 0 2) = none →
      (∀ k, k < 4 → bitB (leAt i 2 1) k = true → (firstFit (s.resGaps k) (scriptSize img / 4096)).isSome = true ∧
        s.fld F.SCL_SCRIPTS_loaded k < 64) →
      Answers (.scriptLoad mb i) s fun t => ∃ u : State, t = u.answer mb 0xC01D St.DONE [] ∧ ∃ x ∈ u.scr.scripts,
        x.ld = ld ∧ x.id = leAt i 0 2 ∧ x.entry = leNat ((img.drop 16).take 4) ∧ x.size = scriptSize img)) ∧
  (∀ (i : List Byte) (ld : Nat) (q : Queue), i.length = 2 → s.mbLd mb = some ld → s.queue ld (leAt i 0 2) = some q →
    q.slots = [] → (∀ c ∈ s.scr.ctxs, ¬ (c.2.ld = ld ∧ c.2.queue = leAt i 0 2)) → Answers (.queueDelete mb i) s fun t =>
      t.que.pairs = mapDel (mapSet s.que.pairs (ld * 4096 + leAt i 0 2) { q with deleting := some mb })
        (ld * 4096 + leAt i 0 2) ∧ t.scr = s.scr ∧ t.sent = s.sent ++ [.mailbox mb 0xC01C .success [0]]) ∧
  (∀ (i : List Byte) (ld : Nat), i.length = 2 → s.mbLd mb = some ld → (s.script ld (leAt i 0 2)).isSome = true →
    s.scriptUsed ld (leAt i 0 2) = false → exec (.scriptUnload mb i) s = .next
      (((s.unloadScript ld (leAt i 0 2)).raiseD Ev.SCRIPT_UNLOADED (leAt i 0 2)).answer mb 0xC01E St.DONE [])) ∧
  -- the rest
  (∀ (i : List Byte) (k : Nat) (r : PbRecord), s.mbAdmin mb = true → i.length = 8 →
    s.pb.ring.find? (fun p => p.2.seq == leAt i 0 8) = some (k, r) → r.severity = 3 → r.read = true → r.acked = false →
    ∃ u : State, s.pbAck (leAt i 0 8) = (St.DONE, u) ∧
      exec (.pbookAck mb i) s = .next ((u.afterAck (leAt i 0 8)).answer mb 0xC013 St.DONE [])) ∧
  (∀ i : List Byte, s.mbAdmin mb = true → i.length = 2 → Answers (.powerCapSet mb i) s fun t =>
    t.fld F.SENT_PCAP_cap 0 = max 60 (min 110 (leAt i 0 2))) ∧
  (∀ (i : List Byte) (n : Nat), i.length = 4 → s.mbLd mb = some n → leAt i 0 2 < 4096 → leAt i 2 1 < 64 →
    evIsAssigned (leAt i 0 2) = true → Answers (.eventRoute mb i) s fun t =>
      mapGet 0 t.evt.routes (n * 4096 + leAt i 0 2) = (if leAt i 3 1 = 0 then 0 else 128) + leAt i 2 1) ∧
  (∀ i : List Byte, s.mbAdmin mb = true → i.length = 2 → leAt i 0 2 &&& 0xFEDF = 0 →
    s.submitStatus (.mailbox mb) true 0x0C 0xFFFF (leAt i 0 2) 0 0 = St.DONE → ∃ (u : State) (j : Job),
      j.act = 0x0C ∧ j.p0 = leAt i 0 2 ∧ j.id = s.maint.nextId ∧ u.maint.jobs = s.maint.jobs ++ [j] ∧
      exec (.sceneSet mb i) s = .next ((u.answer mb 0xC00B St.DONE []).tryStart s.maint.nextId JobOut.none_)) ∧
  (∀ i : List Byte, s.mbAdmin mb = true → i.length = 2 → leAt i 0 1 < 16 →
    (leAt i 1 1 = 1 → s.slotState (leAt i 0 1) = 1 → s.runningOn 7 (leAt i 0 1) = none →
      exec (.slotPowerOn mb i) s = .next ((s.setCart (leAt i 0 1) { s.cart (leAt i 0 1) with go := true }).answer mb 0xC00F
        St.DONE [])) ∧
    (leAt i 1 1 = 2 → exec (.ledLocate mb i) s = .next (((s.setCart (leAt i 0 1)
      { s.cart (leAt i 0 1) with locateUntil := s.clock + 60000000 }).slotLed (leAt i 0 1)).answer mb 0xC00F St.DONE [])))

/-- R464 to R468: one clause for each instruction, with its next state. -/
def Obligations.IntegerAndBranchInstructionsComplete : Prop :=
  ∀ (s : State) (e cx : Nat) (c : Ctx) (rd a b i : Nat), rd < 32 → a < 32 → b < 32 → i < 65536 →
    let x := c.xr a
    let y := c.xr b
    let n := y.toNat % 64
    let si : Int := if i < 32768 then i else (i : Int) - 65536
    let be (d : Ctx) : Res := .next { s with scr := { s.scr with ctxs := mapSet s.scr.ctxs (e * 16 + cx) d } }
    let put (v : W64) : Res := be (wrote c rd v)
    let go (t : Bool) : Res := be { c with pc := if t then branchTo c.pc i else (c.pc + 4) % 2 ^ 64 }
    let may (f r2 : Nat) : Prop := Issues s e cx c (fA 1 rd a r2 f)
    (may 0x00 b → exec (.add e cx) s = put (x + y)) ∧
    (may 0x01 b → exec (.sub e cx) s = put (x - y)) ∧
    (may 0x02 0 → exec (.neg e cx) s = put (0 - x)) ∧
    (may 0x10 b → exec (.and e cx) s = put (x &&& y)) ∧
    (may 0x11 b → exec (.or e cx) s = put (x ||| y)) ∧
    (may 0x12 b → exec (.xor e cx) s = put (x ^^^ y)) ∧
    (may 0x13 b → exec (.andn e cx) s = put (x &&& ~~~y)) ∧
    (may 0x14 b → exec (.orn e cx) s = put (x ||| ~~~y)) ∧
    (may 0x20 b → exec (.shl e cx) s = put (BitVec.ofNat 64 (x.toNat * 2 ^ n))) ∧
    (may 0x21 b → exec (.shr e cx) s = put (BitVec.ofNat 64 (x.toNat / 2 ^ n))) ∧
    (may 0x22 b → exec (.sar e cx) s = put (BitVec.ofInt 64 (x.toInt / 2 ^ n))) ∧
    (may 0x23 b → exec (.ror e cx) s = put (BitVec.ofNat 64 (x.toNat / 2 ^ n + x.toNat * 2 ^ (64 - n)))) ∧
    (may 0x30 b → exec (.cmpEq e cx) s = put (if x = y then 1 else 0)) ∧
    (may 0x31 b → exec (.cmpNe e cx) s = put (if x = y then 0 else 1)) ∧
    (may 0x32 b → exec (.cmpLt e cx) s = put (if x.toInt < y.toInt then 1 else 0)) ∧
    (may 0x33 b → exec (.cmpLe e cx) s = put (if x.toInt ≤ y.toInt then 1 else 0)) ∧
    (may 0x34 b → exec (.cmpLtu e cx) s = put (if x.toNat < y.toNat then 1 else 0)) ∧
    (may 0x35 b → exec (.cmpLeu e cx) s = put (if x.toNat ≤ y.toNat then 1 else 0)) ∧
    (may 0x38 b → exec (.min e cx) s = put (if x.toInt ≤ y.toInt then x else y)) ∧
    (may 0x39 b → exec (.max e cx) s = put (if x.toInt ≤ y.toInt then y else x)) ∧
    (may 0x3A b → exec (.minu e cx) s = put (if x.toNat ≤ y.toNat then x else y)) ∧
    (may 0x3B b → exec (.maxu e cx) s = put (if x.toNat ≤ y.toNat then y else x)) ∧
    (may 0x40 b → exec (.mul e cx) s = put (BitVec.ofNat 64 (x.toNat * y.toNat))) ∧
    (may 0x41 b → exec (.mulhiS e cx) s = put (BitVec.ofInt 64 (x.toInt * y.toInt / 2 ^ 64))) ∧
    (may 0x42 b → exec (.mulhiU e cx) s = put (BitVec.ofNat 64 (x.toNat * y.toNat / 2 ^ 64))) ∧
    (may 0x48 b → exec (.div e cx) s = put (BitVec.ofInt 64 (x.toInt.tdiv y.toInt))) ∧
    (may 0x49 b → exec (.divu e cx) s = put (BitVec.ofNat 64 (x.toNat / y.toNat))) ∧
    (may 0x4A b → exec (.rem e cx) s = put (BitVec.ofInt 64 (x.toInt.tmod y.toInt))) ∧
    (may 0x4B b → exec (.remu e cx) s = put (BitVec.ofNat 64 (x.toNat % y.toNat))) ∧
    (may 0x50 0 → ∃ k : Nat, exec (.lzc e cx) s = put (BitVec.ofNat 64 k) ∧ k ≤ 64 ∧ x.toNat < 2 ^ (64 - k) ∧
      (k < 64 → x.toNat.testBit (63 - k) = true)) ∧
    (may 0x51 0 → ∃ k : Nat, exec (.tzc e cx) s = put (BitVec.ofNat 64 k) ∧ k ≤ 64 ∧ x.toNat % 2 ^ k = 0 ∧
      (k < 64 → x.toNat.testBit k = true)) ∧
    (may 0x52 0 → exec (.ones e cx) s = put (BitVec.ofNat 64 ((List.range 64).countP (fun j => x.toNat.testBit j)))) ∧
    (may 0x53 0 → ∃ v : W64, exec (.revb e cx) s = put v ∧
      ∀ j, j < 8 → v.toNat / 256 ^ j % 256 = x.toNat / 256 ^ (7 - j) % 256) ∧
    (Issues s e cx c (fI 2 rd a i) → exec (.addI e cx) s = put (x + BitVec.ofInt 64 si)) ∧
    (Issues s e cx c (fI 3 rd a i) → exec (.andI e cx) s = put (BitVec.ofNat 64 (x.toNat &&& i))) ∧
    (Issues s e cx c (fI 4 rd a i) → exec (.orI e cx) s = put (BitVec.ofNat 64 (x.toNat ||| i))) ∧
    (Issues s e cx c (fI 5 rd a i) → exec (.xorI e cx) s = put (BitVec.ofNat 64 (x.toNat ^^^ i))) ∧
    (Issues s e cx c (fI 6 rd a i) → exec (.cmpEqI e cx) s = put (if x.toInt = si then 1 else 0)) ∧
    (Issues s e cx c (fI 7 rd a i) → exec (.cmpLtI e cx) s = put (if x.toInt < si then 1 else 0)) ∧
    (i < 64 → Issues s e cx c (fI 8 rd a i) → exec (.shlI e cx) s = put (BitVec.ofNat 64 (x.toNat * 2 ^ i))) ∧
    (i < 64 → Issues s e cx c (fI 9 rd a i) → exec (.shrI e cx) s = put (BitVec.ofNat 64 (x.toNat / 2 ^ i))) ∧
    (i < 64 → Issues s e cx c (fI 10 rd a i) → exec (.sarI e cx) s = put (BitVec.ofInt 64 (x.toInt / 2 ^ i))) ∧
    (Issues s e cx c (fI 12 0 a i) → exec (.bz e cx) s = go (decide (x = 0))) ∧
    (Issues s e cx c (fI 13 0 a i) → exec (.bnz e cx) s = go (decide (x ≠ 0))) ∧
    (Issues s e cx c (fI 14 0 a i) → exec (.bneg e cx) s = go (decide (x.toInt < 0))) ∧
    (Issues s e cx c (fI 15 0 a i) → exec (.bnneg e cx) s = go (decide (0 ≤ x.toInt)))

/-- R447, R472, R478, R492, R494, R495: one clause for each instruction. -/
def Obligations.AtomicVectorAndWaitingInstructionsComplete : Prop :=
  ∀ (s : State) (e cx : Nat) (c : Ctx),
    let k := e * 16 + cx
    let next := (c.pc + 4) % 2 ^ 64
    (∀ rd r1 r2 f : Nat, rd < 32 → r1 < 32 → r2 < 32 → (f = 2 ∨ f = 3) →
      let n := if f = 3 then 8 else 4
      let a := (c.xr r1).toNat
      let x := (c.xr rd).toNat % 2 ^ (8 * n)
      let y := (c.xr r2).toNat % 2 ^ (8 * n)
      let old := leNat (s.localRead k c a n)
      let left (t : State) (v : Nat) : Prop :=
        t.scr.inkwell = memWriteN 0 s.scr.inkwell (k / 16 * 524288 + c.inkBase + a % 2 ^ 60) (leBytes n v) ∧
          t.ctx k = some (wrote c rd (BitVec.ofNat 64 old)) ∧ t.path = s.path
      a % n = 0 → s.addrCheck c a n true true = none → c.inGroup a n = false → a / 2 ^ 60 = 0 →
      (Issues s e cx c (fA 0x1C rd r1 r2 f) → Answers (.cas e cx false) s fun t => left t (if old = x then y else old)) ∧
      (Issues s e cx c (fA 0x1D rd r1 r2 f) →
        Answers (.fadd e cx false) s fun t => left t ((old + y) % 2 ^ (8 * n)))) ∧
    (∀ vd v1 v2 pm ew : Nat, vd < 8 → v1 < 8 → v2 < 8 → pm < 4 → ew < 4 →
      let n := 2 ^ ew
      let a := c.vr v1
      let b := c.vr v2
      let puts (m : Instr) (f : Nat) (el : Nat → Nat) : Prop := Issues s e cx c (fV 0x25 vd v1 v2 pm ew 0 f) → ∃ v : Line,
        exec m s = .next { s with scr := { s.scr with ctxs := mapSet s.scr.ctxs k { c with v := mapSet c.v vd v, pc := next } } } ∧
          ∀ i, i < 64 / n → elU v n i = if act c pm n i then el i else elU (c.vr vd) n i
      let puts' (m : Instr) (f : Nat) (el : Nat → Nat) : Prop := Issues s e cx c (fV 0x26 vd v1 v2 pm ew 0 f) → ∃ v : Line,
        exec m s = .next { s with scr := { s.scr with ctxs := mapSet s.scr.ctxs k { c with v := mapSet c.v vd v, pc := next } } } ∧
          ∀ i, i < 64 / n → elU v n i = if act c pm n i then el i else elU (c.vr vd) n i
      puts (.vmin e cx) 0 (fun i => if elI a n i ≤ elI b n i then elU a n i else elU b n i) ∧
      puts (.vmin e cx) 2 (fun i => min (elU a n i) (elU b n i)) ∧
      puts' (.vmax e cx) 0 (fun i => if elI a n i ≤ elI b n i then elU b n i else elU a n i) ∧
      puts' (.vmax e cx) 2 (fun i => max (elU a n i) (elU b n i))) ∧
    (∀ v1 pm ew rs f : Nat, v1 < 8 → pm < 4 → ew < 4 → rs < 32 → (f = 1 ∨ f = 3) →
      let n := 2 ^ ew
      let val (w : W64) : Int := if f = 1 then w.toInt else w.toNat
      let el (i : Nat) : Int := if f = 1 then elI (c.vr v1) n i else elU (c.vr v1) n i
      (Issues s e cx c (fV 0x25 0 v1 0 pm ew rs f) → ∃ m : W64, exec (.vminr e cx) s = .next
        { s with scr := { s.scr with ctxs := mapSet s.scr.ctxs k (wrote c rs m) } } ∧ val m ≤ val (c.xr rs) ∧
          ∀ i, i < 64 / n → act c pm n i = true → val m ≤ el i) ∧
      (Issues s e cx c (fV 0x26 0 v1 0 pm ew rs f) → ∃ m : W64, exec (.vmaxr e cx) s = .next
        { s with scr := { s.scr with ctxs := mapSet s.scr.ctxs k (wrote c rs m) } } ∧ val (c.xr rs) ≤ val m ∧
          ∀ i, i < 64 / n → act c pm n i = true → el i ≤ val m)) ∧
    (Issues s e cx c (fS 0x29 0 0 0 0 0) → exec (.pbarLocal e cx) s = .next { s with scr := { s.scr with
      ctxs := mapSet s.scr.ctxs k { c with pc := next, block := .pbar false s.path.nextAcc } } }) ∧
    (Issues s e cx c (fS 0x29 0 0 0 0 1) → exec (.pbarTwin e cx) s = .next { s with scr := { s.scr with
      ctxs := mapSet s.scr.ctxs k { c with pc := next, block := .pbar true s.path.nextAcc } } }) ∧
    (∀ rd r1 : Nat, rd < 32 → r1 < 32 → Issues s e cx c (fS 0x30 rd r1 0 0 0) → exec (.notify e cx) s = .next { s with
      scr := { s.scr with ctxs := mapSet s.scr.ctxs k { c with pc := next, block := .notify rd (c.xr r1).toNat } } }) ∧
    (Issues s e cx c (fS 0x3C 0 0 0 0 0) → exec (.yield e cx) s = .next { s with scr := { s.scr with
      ctxs := mapSet s.scr.ctxs k { c with pc := next, block := .yield } } }) ∧
    (∀ rd r1 : Nat, rd < 32 → r1 < 32 →
      (Issues s e cx c (fA 0x2E rd r1 0 0) →
        (s.cueRun k = none → exec (.cue e cx) s = .next { s with scr := { s.scr with
          ctxs := mapSet s.scr.ctxs k (wrote c rd (BitVec.allOnes 64)) } }) ∧
        (∀ u x y, s.cueRun k = some u → u.bad = none → x = s.moveCursor u (c.xr r1).toNat → x.cueRun k = some y →
          exec (.cue e cx) s = .next ((x.setCtx k (wrote c rd (BitVec.ofNat 64 y.cursor))).settle))) ∧
      (Issues s e cx c (fA 0x2E rd r1 0 1) →
        (s.cueRun k = none → exec (.cueR e cx) s = .next { s with scr := { s.scr with
          ctxs := mapSet s.scr.ctxs k (wrote c rd (BitVec.allOnes 64)) } }) ∧
        (∀ u x y, s.cueRun k = some u → u.bad = none → x = s.moveCursor u ((u.cursor + (c.xr r1).toNat) % 2 ^ 64) →
          x.cueRun k = some y → exec (.cueR e cx) s =
            .next ((x.setCtx k (wrote c rd (BitVec.ofNat 64 y.cursor))).settle))))

/-- The command puts the job `act` on `target` into the queue; it starts at once, with the outcome `o`, where it may. -/
def Sys2Proof.Claims.Queued (c : Instr) (s : State) (act target p0 p1 : Nat) (o : JobOut) : Prop :=
  ∃ (u : State) (j : Job), u.maint.jobs = s.maint.jobs ++ [j] ∧ j.act = act ∧ j.target = target ∧ j.p0 = p0 ∧ j.p1 = p1 ∧
    j.state = 0 ∧ j.id = s.maint.nextId ∧
    exec c s = .next (let v : State := if u.startable j then u.startJob j o else u; if act < 12 then v.settle else v)

/-- Own effects of R102, R118, R198, R578, R600, R606, R661, R666, R707, R712, R721, R730. -/
def Obligations.JobsBusAndKeyCommandsComplete : Prop :=
  (∀ (s : State) (q : Bool) (o : JobOut), o = JobOut.none_ → s.pwr.ctlUp = true →
    (∀ k ∈ s.maint.jobs, k.id ≠ s.maint.nextId) →
    let ok (act target p0 p1 : Nat) : Prop := s.submitStatus .firmware q act target p0 p1 0 = St.DONE
    (∀ ch row dev soft, ok 1 ch row dev →
      Queued (.dramRepair .firmware q ch row dev soft) s 1 ch row dev { o with ok := soft }) ∧
    (∀ ch temp owed, ok 2 ch 0 0 →
      Queued (.dramRetrain .firmware q ch temp owed) s 2 ch 0 0 { o with temp := temp, owed := owed }) ∧
    (∀ ch pass ws, ok 3 ch 0 0 →
      Queued (.dramRelease .firmware q ch pass ws) s 3 ch 0 0 { o with ok := pass, words := ws }) ∧
    (∀ slot, ok 6 slot 0 0 → Queued (.slotRemove .firmware q slot) s 6 slot 0 0 o) ∧
    (∀ slot, s.submitStatus .controller q 7 slot 0 0 0 = St.DONE → Queued (.slotAdmit .controller q slot) s 7 slot 0 0 o) ∧
    (∀ signed, ok 8 0xFFFF 0 0 → Queued (.fwUpdate .firmware q signed) s 8 0xFFFF 0 0 { o with ok := signed }) ∧
    (ok 10 0xFFFF 0 0 → Queued (.plannedHandover .firmware q) s 10 0xFFFF 0 0 o) ∧
    (∀ e ms pass, ok 11 e ms 0 → Queued (.scribeSwap .firmware q e ms pass) s 11 e ms 0 { o with ok := pass }) ∧
    (∀ p0, ok 12 0xFFFF p0 0 → Queued (.sceneChange .firmware q p0) s 12 0xFFFF p0 0 o) ∧
    (∀ mask fail, ok 13 0xFFFF mask 0 → Queued (.rehearsal .firmware q mask fail) s 13 0xFFFF mask 0 { o with fail := fail })) ∧
  (∀ (s : State) (e v : Nat), s.inStrike = false → s.pmbValid e = true →
    let word (code : Nat) (t : State) : Prop := t.fld F.SENT_PMB_DATA_data 0 = v % 65536 ∧
      t.fld F.SENT_PMB_CMD_status 0 = St.DONE ∧
      t.sent = s.sent ++ [.pmbus (s.fld F.SENT_PMB_TAB_addr e) (s.fld F.SENT_PMB_TAB_page e) code none]
    let put (code data : Nat) (t : State) : Prop := t.fld F.SENT_PMB_CMD_status 0 = St.DONE ∧
      t.sent = s.sent ++ [.pmbus (s.fld F.SENT_PMB_TAB_addr e) (s.fld F.SENT_PMB_TAB_page e) code (some data)]
    Answers (.statusWord e v) s (word 0x79) ∧ Answers (.readVin e v) s (word 0x88) ∧ Answers (.readIin e v) s (word 0x89) ∧
    Answers (.readVout e v) s (word 0x8B) ∧ Answers (.readIout e v) s (word 0x8C) ∧
    Answers (.readTemperature1 e v) s (word 0x8D) ∧ Answers (.readPout e v) s (word 0x96) ∧
    Answers (.readPin e v) s (word 0x97) ∧
    (s.inBand e (v % 65536) = true → Answers (.voutCommand e v) s (put 0x21 (v % 65536))) ∧
    (s.railMay e true = true → Answers (.operation e true) s (put 1 0x80)) ∧
    (s.railMay e false = true → Answers (.operation e false) s (put 1 0))) ∧
  (∀ (s : State) (m : Mains), s.pwr.aonUp = true → s.inStrike = false → (s.dropMet = true ∨ m.ok = false) →
    exec (.drop m) s = .next (((s.senseBulk m).raise Ev.DROP).strike 1).settle) ∧
  (∀ (s : State) (link : Nat), link < 8 → s.pwr.ctlUp = true → s.fld F.HPORT_STAT_up link = 1 →
    exec (.keyProg link false) s = .next ((((s.keyBegin ⟨224 + 2 * link, 2, 0, [], none⟩ false).keyBegin
      ⟨225 + 2 * link, 2, 0, [], none⟩ false).ideReady link).settle)) ∧
  (∀ (s : State) (l : KeyLoad), s.sec.loads = [l] → l.slot < 224 → s.slotUses l.slot = 0 →
    exec (.keyLoaded l.slot) s = .next (({ s with sec := { s.sec with loads := [] } }).keyPut l).settle) ∧
  (∀ (s : State) (mb : Nat) (i : List Byte), s.mailUp = true → s.mbAdmin mb = true → i.length = 108 → leAt i 2 2 = 104 →
    leAt i 0 1 ≤ 223 → blobForm (i.drop 4) = true → s.fld F.SEC_STAT_latch 0 = 0 → s.fld F.SEC_STAT_kek 0 = 1 →
    s.genNow = some (leAt (i.drop 4) 6 1) → s.keyLoaded (leAt i 0 1) = false → exec (.keyLoad mb i true) s =
      .next (s.keyBegin ⟨leAt i 0 1, 1, leAt (i.drop 4) 8 8, i.drop 4, some mb⟩ false).settle) ∧
  (∀ (s : State) (source : Nat), s.pwr.aonUp = true → source ≤ 6 → bitB (s.fld F.SEC_ALARM_mask 0) source = false →
    (source = 4 → s.sen.glitchArmed = true) → ∃ u : State,
      exec (.keyAlarm source) s = .next (u.raiseD Ev.KEY_ALARM source).settle ∧ u.sec.latchAon = true ∧ u.sec.loads = []) ∧
  (∀ s : State, s.sec.latchDue = true → s.pwr.ctlUp = true →
    exec .latchProgram s = .next (({ s with sec := { s.sec with latchDue := false } }).storeWrite 0 3 [])) ∧
  (∀ s : State, s.region.commit = none → exec (.accCommit (2 ^ 31)) s = .next (s.startCommit .core).settle) ∧
  (∀ (s : State) by_, s.region.commit = some by_ → s.commitReady = true → s.commitCheck by_ = none →
    exec .commitEdge s = .next (((((({ s with region := { s.region with commit := none } } : State).commitCopy by_).commitStat false
      { status := St.DONE, kind := 3, entry := 0 }).commitTell by_ St.DONE).nextCommit).settle)) ∧
  (∀ (s : State) (v : Nat), exec (.inkLimitWrite v) s = .next (s.setInkLimit (v % 2 ^ 21)).settle) ∧
  (∀ (s : State) (v : Nat), Answers (.sentPcap v) s fun t => t.fld F.SENT_PCAP_cap 0 = max 60 (min 110 (v % 128))) ∧
  (∀ (s : State) (v : Nat), bitB v 31 = true → s.pb.ring.length < 8192 → s.pb.writer.length < 64 →
    s.fld F.EVT_SRC_core Ev.PBOOK_FIRED = 0 → s.evt.routes = [] → Answers (.pbookFire v) s fun t =>
      ∃ r, mapGet? t.pb.ring (freeSlotFrom 0 s.pb.ring) = some r ∧ r.event = Ev.PBOOK_FIRED ∧ r.trigger = v % 256) ∧
  (∀ (s : State) (v : Nat), Answers (.pbookAckHi v) s fun t => (t.liveWord .PBOOK_ACK_STAT 0).toNat =
    ((s.setLive .PBOOK_ACK_HI 0 v).pbAck (v % 2 ^ 32 * 2 ^ 32 + (s.liveWord .PBOOK_ACK_LO 0).toNat)).1) ∧
  (∀ (s : State) (slot : Nat) (r : PbRecord), slot < 2048 →
    mapGet? s.pb.ring (s.fld F.PBOOK_WIN_page 0 * 2048 + slot) = some r →
    exec (.ringTailRead slot) s = .next ((s.pbMarkRead [r.seq]).send (.ctlRead (0x2900000 + slot * 512 + 504) r.seq))) ∧
  (∀ (s : State) (i : Nat), exec (.tallySnap i) s = .next (s.tallySnap (i % 512))) ∧
  (∀ (s : State) (i : Nat) (snap : Bool), Answers (.tallyClear i snap) s fun t =>
    mapGet Tally.empty t.pb.tallies (i % 512) = Tally.empty)
end

