-- ==== Sys2Proof/Laws/Maps.lean ====
section
/-! SUPPORT. The laws of the sparse maps, of the byte memories and of the bit fields: a read after a write. -/

set_option Elab.async false

namespace Sys2Proof.Machine

/-! ### Sparse maps -/

theorem mapGet?_set_self {α : Type} (m : List (Nat × α)) (k : Nat) (v : α) : mapGet? (mapSet m k v) k = some v := by
  induction m with
  | nil => simp [mapSet, mapGet?]
  | cons p t ih =>
    obtain ⟨k', v'⟩ := p
    simp only [mapSet]
    split
    · simp [mapGet?]
    · split
      · simp [mapGet?]
      · next h => simpa [mapGet?, h] using ih

theorem mapGet?_set_ne {α : Type} (m : List (Nat × α)) {k j : Nat} (v : α) (h : j ≠ k) :
    mapGet? (mapSet m k v) j = mapGet? m j := by
  induction m with
  | nil => simp [mapSet, mapGet?, Ne.symm h]
  | cons p t ih =>
    obtain ⟨k', v'⟩ := p
    simp only [mapSet]
    split
    · simp [mapGet?, Ne.symm h]
    · split
      · next e => subst e; simp [mapGet?, Ne.symm h]
      · simp only [mapGet?, ih]

/-- A read of a map after a write. -/
theorem mapGet?_set {α : Type} (m : List (Nat × α)) (k j : Nat) (v : α) :
    mapGet? (mapSet m k v) j = if j = k then some v else mapGet? m j := by
  split
  · next h => rw [h, mapGet?_set_self]
  · next h => exact mapGet?_set_ne m v h

theorem mapGet_set {α : Type} (d : α) (m : List (Nat × α)) (k j : Nat) (v : α) :
    mapGet d (mapSet m k v) j = if j = k then v else mapGet d m j := by
  simp only [mapGet, mapGet?_set]
  split <;> rfl

@[simp] theorem mapGet_set_self {α : Type} (d : α) (m : List (Nat × α)) (k : Nat) (v : α) :
    mapGet d (mapSet m k v) k = v := by simp [mapGet_set]

theorem mapGet?_filter {α : Type} (m : List (Nat × α)) (f : Nat → Bool) (j : Nat) :
    mapGet? (m.filter (fun p => f p.1)) j = if f j then mapGet? m j else none := by
  induction m with
  | nil => simp [mapGet?]
  | cons p t ih =>
    obtain ⟨k, v⟩ := p
    by_cases hk : k = j
    · subst hk
      by_cases hf : f k = true
      · simp [List.filter, hf, mapGet?]
      · simp [List.filter, hf, ih]
    · by_cases hf : f k = true
      · simp [List.filter, hf, mapGet?, hk, ih]
      · simp [List.filter, hf, mapGet?, hk, ih]

/-- A read of a map after a key was removed. -/
theorem mapGet?_del {α : Type} (m : List (Nat × α)) (k j : Nat) :
    mapGet? (mapDel m k) j = if j = k then none else mapGet? m j := by
  rw [mapDel, mapGet?_filter m (fun x => x != k)]
  by_cases h : j = k <;> simp [h]

/-! ### Byte memories -/

theorem memGet_low {d : Byte} {m : List Host.Cell} {lo j : Nat} (w : memWfFrom d lo m = true) (h : j < lo) :
    mapGet? m j = none := by
  induction m generalizing lo with
  | nil => rfl
  | cons p t ih =>
    obtain ⟨a, v⟩ := p
    simp only [memWfFrom, Bool.and_eq_true, decide_eq_true_eq] at w
    have e : a ≠ j := by omega
    simp only [mapGet?, e, if_false]
    exact ih w.2 (by omega)

/-- A read of a byte memory after a write of one byte. -/
theorem memRead_write_from {d : Byte} {m : List Host.Cell} {lo a : Nat} (v : Byte) (j : Nat)
    (w : memWfFrom d lo m = true) : memRead d (memWrite d m a v) j = if j = a then v else memRead d m j := by
  induction m generalizing lo with
  | nil =>
    simp only [memWrite, memRead]
    by_cases hv : v = d <;> by_cases hj : j = a <;> simp [hv, hj, mapGet, mapGet?, Ne.symm]
  | cons p t ih =>
    obtain ⟨b, x⟩ := p
    simp only [memWfFrom, Bool.and_eq_true, decide_eq_true_eq] at w
    simp only [memWrite]
    split
    · next hab =>
      by_cases hv : v = d
      · simp only [hv, if_true]
        by_cases hj : j = a
        · subst hj
          have e : b ≠ j := by omega
          simp [memRead, mapGet, mapGet?, e, memGet_low w.2 (show j < b + 1 by omega)]
        · simp [hj]
      · simp only [hv, if_false, memRead, mapGet, mapGet?]
        by_cases hj : j = a
        · simp [hj]
        · simp [hj, Ne.symm hj]
    · split
      · next hab he =>
        subst he
        by_cases hv : v = d
        · simp only [hv, if_true]
          by_cases hj : j = b
          · subst hj
            simp [memRead, mapGet, memGet_low w.2 (show j < j + 1 by omega)]
          · simp [memRead, mapGet, mapGet?, hj, Ne.symm hj]
        · by_cases hj : j = b
          · simp [hv, hj, memRead, mapGet, mapGet?]
          · simp [hv, hj, Ne.symm hj, memRead, mapGet, mapGet?]
      · next hab he =>
        by_cases hb : b = j
        · subst hb
          simp [memRead, mapGet, mapGet?, he]
        · have := ih w.2
          simp only [memRead, mapGet] at this
          simp only [memRead, mapGet, mapGet?, hb, if_false, this]

/-- Read after write, on a memory in its canonical form. -/
theorem memRead_write {d : Byte} {m : List Host.Cell} (w : memWf d m = true) (a : Nat) (v : Byte) (j : Nat) :
    memRead d (memWrite d m a v) j = if j = a then v else memRead d m j := memRead_write_from v j w

/-! ### Bit fields -/

theorem bits_lt (v hi lo : Nat) : bits v hi lo < 2 ^ (hi + 1 - lo) := Nat.mod_lt _ (Nat.pow_pos (by decide))

theorem testBit_bits (v hi lo i : Nat) : (bits v hi lo).testBit i = (decide (i < hi + 1 - lo) && v.testBit (lo + i)) := by
  simp [bits, Nat.testBit_mod_two_pow, Nat.testBit_shiftRight]

theorem bits_le (v hi lo : Nat) : bits v hi lo * 2 ^ lo ≤ v := by
  rw [bits, Nat.shiftRight_eq_div_pow]
  calc v / 2 ^ lo % 2 ^ (hi + 1 - lo) * 2 ^ lo ≤ v / 2 ^ lo * 2 ^ lo := Nat.mul_le_mul_right _ (Nat.mod_le _ _)
    _ ≤ v := Nat.div_mul_le_self _ _

/-- `setBits` in three parts: above, the field, below. -/
theorem setBits_parts {v hi lo x : Nat} (h : lo ≤ hi + 1) :
    setBits v hi lo x = v / 2 ^ (hi + 1) * 2 ^ (hi + 1) + x % 2 ^ (hi + 1 - lo) * 2 ^ lo + v % 2 ^ lo := by
  have e : v = v / 2 ^ (hi + 1) * 2 ^ (hi + 1) + bits v hi lo * 2 ^ lo + v % 2 ^ lo := by
    have a : v = v / 2 ^ lo * 2 ^ lo + v % 2 ^ lo := (Nat.div_add_mod' v (2 ^ lo)).symm
    have b : v / 2 ^ lo = v / 2 ^ lo / 2 ^ (hi + 1 - lo) * 2 ^ (hi + 1 - lo) + v / 2 ^ lo % 2 ^ (hi + 1 - lo) :=
      (Nat.div_add_mod' _ _).symm
    have p : (2 : Nat) ^ lo * 2 ^ (hi + 1 - lo) = 2 ^ (hi + 1) := by rw [← Nat.pow_add]; congr 1; omega
    rw [Nat.div_div_eq_div_mul, p] at b
    rw [bits, Nat.shiftRight_eq_div_pow]
    have c : v / 2 ^ lo * 2 ^ lo = v / 2 ^ (hi + 1) * 2 ^ (hi + 1) + v / 2 ^ lo % 2 ^ (hi + 1 - lo) * 2 ^ lo := by
      rw [← p, Nat.mul_comm (2 ^ lo), ← Nat.mul_assoc, ← Nat.add_mul, Nat.mul_comm (2 ^ (hi + 1 - lo)), p]
      exact congrArg (· * 2 ^ lo) b
    omega
  rw [setBits]
  omega

theorem bits_setBits_self {v hi lo x : Nat} (h : lo ≤ hi + 1) : bits (setBits v hi lo x) hi lo = x % 2 ^ (hi + 1 - lo) := by
  have p : (2 : Nat) ^ (hi + 1) = 2 ^ (hi + 1 - lo) * 2 ^ lo := by rw [← Nat.pow_add]; congr 1; omega
  rw [setBits_parts h, bits, Nat.shiftRight_eq_div_pow, p, ← Nat.mul_assoc, ← Nat.add_mul,
    Nat.add_comm, Nat.add_mul_div_right _ _ (Nat.pow_pos (by decide)), Nat.div_eq_of_lt (Nat.mod_lt _ (Nat.pow_pos (by decide)))]
  simp [Nat.mul_add_mod_self_right]

theorem setBits_lt {v hi lo x n : Nat} (h : lo ≤ hi + 1) (k : hi + 1 ≤ n) (b : v < 2 ^ n) : setBits v hi lo x < 2 ^ n := by
  rw [setBits_parts h]
  have p : (2 : Nat) ^ (hi + 1) = 2 ^ (hi + 1 - lo) * 2 ^ lo := by rw [← Nat.pow_add]; congr 1; omega
  have q : (2 : Nat) ^ n = 2 ^ (n - (hi + 1)) * 2 ^ (hi + 1) := by rw [← Nat.pow_add]; congr 1; omega
  have u : v / 2 ^ (hi + 1) < 2 ^ (n - (hi + 1)) := by
    rw [Nat.div_lt_iff_lt_mul (Nat.pow_pos (by decide)), ← q]; exact b
  have w : x % 2 ^ (hi + 1 - lo) < 2 ^ (hi + 1 - lo) := Nat.mod_lt _ (Nat.pow_pos (by decide))
  have z : v % 2 ^ lo < 2 ^ lo := Nat.mod_lt _ (Nat.pow_pos (by decide))
  have a : x % 2 ^ (hi + 1 - lo) * 2 ^ lo + v % 2 ^ lo < 2 ^ (hi + 1) := by
    rw [p]
    calc _ < x % 2 ^ (hi + 1 - lo) * 2 ^ lo + 2 ^ lo := by omega
      _ = (x % 2 ^ (hi + 1 - lo) + 1) * 2 ^ lo := by rw [Nat.add_mul, Nat.one_mul]
      _ ≤ _ := Nat.mul_le_mul_right _ w
  rw [q]
  calc _ < v / 2 ^ (hi + 1) * 2 ^ (hi + 1) + 2 ^ (hi + 1) := by omega
    _ = (v / 2 ^ (hi + 1) + 1) * 2 ^ (hi + 1) := by rw [Nat.add_mul, Nat.one_mul]
    _ ≤ _ := Nat.mul_le_mul_right _ u

theorem bits_setBits_above {v hi lo x h2 l2 : Nat} (h : lo ≤ hi + 1) (k : hi < l2) :
    bits (setBits v hi lo x) h2 l2 = bits v h2 l2 := by
  have z : ∀ y : Nat, y / 2 ^ l2 = y / 2 ^ (hi + 1) / 2 ^ (l2 - (hi + 1)) := by
    intro y
    rw [Nat.div_div_eq_div_mul, ← Nat.pow_add]
    congr 2; omega
  have p : (2 : Nat) ^ (hi + 1) = 2 ^ (hi + 1 - lo) * 2 ^ lo := by rw [← Nat.pow_add]; congr 1; omega
  have a : x % 2 ^ (hi + 1 - lo) * 2 ^ lo + v % 2 ^ lo < 2 ^ (hi + 1) := by
    have w : x % 2 ^ (hi + 1 - lo) < 2 ^ (hi + 1 - lo) := Nat.mod_lt _ (Nat.pow_pos (by decide))
    have y : v % 2 ^ lo < 2 ^ lo := Nat.mod_lt _ (Nat.pow_pos (by decide))
    rw [p]
    calc _ < x % 2 ^ (hi + 1 - lo) * 2 ^ lo + 2 ^ lo := by omega
      _ = (x % 2 ^ (hi + 1 - lo) + 1) * 2 ^ lo := by rw [Nat.add_mul, Nat.one_mul]
      _ ≤ _ := Nat.mul_le_mul_right _ w
  rw [bits, bits, Nat.shiftRight_eq_div_pow, Nat.shiftRight_eq_div_pow, z, z v, setBits_parts h, Nat.add_assoc,
    Nat.add_comm (v / 2 ^ (hi + 1) * 2 ^ (hi + 1)), Nat.add_mul_div_right _ _ (Nat.pow_pos (by decide)), Nat.div_eq_of_lt a,
    Nat.zero_add]

theorem bits_setBits_below {v hi lo x h2 l2 : Nat} (h : lo ≤ hi + 1) (k : h2 < lo) :
    bits (setBits v hi lo x) h2 l2 = bits v h2 l2 := by
  have p : (2 : Nat) ^ (hi + 1) = 2 ^ (hi + 1 - lo) * 2 ^ lo := by rw [← Nat.pow_add]; congr 1; omega
  have m : setBits v hi lo x % 2 ^ lo = v % 2 ^ lo := by
    rw [setBits_parts h, p, ← Nat.mul_assoc, ← Nat.add_mul, Nat.mul_add_mod_self_right, Nat.mod_mod]
  have b : ∀ y : Nat, bits y h2 l2 = bits (y % 2 ^ lo) h2 l2 := by
    intro y
    apply Nat.eq_of_testBit_eq
    intro i
    rw [testBit_bits, testBit_bits, Nat.testBit_mod_two_pow]
    by_cases c : i < h2 + 1 - l2
    · have : l2 + i < lo := by omega
      simp [c, this]
    · simp [c]
  rw [b, m, ← b]

/-! ### Byte lists -/

@[simp] theorem leBytes_length (n v : Nat) : (leBytes n v).length = n := by
  induction n generalizing v with
  | zero => rfl
  | succ n ih => simp [leBytes, ih]

/-- The number that the little-endian bytes of a number spell is the number, cut to their width. -/
theorem leNat_leBytes (n v : Nat) : leNat (leBytes n v) = v % 256 ^ n := by
  induction n generalizing v with
  | zero => simp [leBytes, leNat, Nat.mod_one]
  | succ n ih => simp [leBytes, leNat, ih, Nat.pow_succ']; rw [Nat.mod_mul]

end Sys2Proof.Machine
end

