-- ==== Sys2Proof/Laws/State.lean ====
section
/-! SUPPORT. One lemma per field of the state and update: what an update of registers, tables, tallies or outputs leaves. -/

set_option Elab.async false

namespace Sys2Proof.Machine

/-! ### setLive -/

@[simp] theorem State.setLive_pending (s : State) (r : RegId) (i v : Nat) : (s.setLive r i v).pending = s.pending := rfl
@[simp] theorem State.setLive_clock (s : State) (r : RegId) (i v : Nat) : (s.setLive r i v).clock = s.clock := rfl
@[simp] theorem State.setLive_fresh (s : State) (r : RegId) (i v : Nat) : (s.setLive r i v).fresh = s.fresh := rfl
@[simp] theorem State.setLive_sent (s : State) (r : RegId) (i v : Nat) : (s.setLive r i v).sent = s.sent := rfl
@[simp] theorem State.setLive_scene (s : State) (r : RegId) (i v : Nat) : (s.setLive r i v).scene = s.scene := rfl
@[simp] theorem State.setLive_pwr (s : State) (r : RegId) (i v : Nat) : (s.setLive r i v).pwr = s.pwr := rfl
@[simp] theorem State.setLive_evt (s : State) (r : RegId) (i v : Nat) : (s.setLive r i v).evt = s.evt := rfl
@[simp] theorem State.setLive_pb (s : State) (r : RegId) (i v : Nat) : (s.setLive r i v).pb = s.pb := rfl
@[simp] theorem State.setLive_host (s : State) (r : RegId) (i v : Nat) : (s.setLive r i v).host = s.host := rfl
@[simp] theorem State.setLive_region (s : State) (r : RegId) (i v : Nat) : (s.setLive r i v).region = s.region := rfl
@[simp] theorem State.setLive_path (s : State) (r : RegId) (i v : Nat) : (s.setLive r i v).path = s.path := rfl
@[simp] theorem State.setLive_cache (s : State) (r : RegId) (i v : Nat) : (s.setLive r i v).cache = s.cache := rfl
@[simp] theorem State.setLive_dram (s : State) (r : RegId) (i v : Nat) : (s.setLive r i v).dram = s.dram := rfl
@[simp] theorem State.setLive_ink (s : State) (r : RegId) (i v : Nat) : (s.setLive r i v).ink = s.ink := rfl
@[simp] theorem State.setLive_flash (s : State) (r : RegId) (i v : Nat) : (s.setLive r i v).flash = s.flash := rfl
@[simp] theorem State.setLive_stage (s : State) (r : RegId) (i v : Nat) : (s.setLive r i v).stage = s.stage := rfl
@[simp] theorem State.setLive_twin (s : State) (r : RegId) (i v : Nat) : (s.setLive r i v).twin = s.twin := rfl
@[simp] theorem State.setLive_integ (s : State) (r : RegId) (i v : Nat) : (s.setLive r i v).integ = s.integ := rfl
@[simp] theorem State.setLive_maint (s : State) (r : RegId) (i v : Nat) : (s.setLive r i v).maint = s.maint := rfl
@[simp] theorem State.setLive_sen (s : State) (r : RegId) (i v : Nat) : (s.setLive r i v).sen = s.sen := rfl
@[simp] theorem State.setLive_core (s : State) (r : RegId) (i v : Nat) : (s.setLive r i v).core = s.core := rfl
@[simp] theorem State.setLive_sec (s : State) (r : RegId) (i v : Nat) : (s.setLive r i v).sec = s.sec := rfl
@[simp] theorem State.setLive_scr (s : State) (r : RegId) (i v : Nat) : (s.setLive r i v).scr = s.scr := rfl
@[simp] theorem State.setLive_que (s : State) (r : RegId) (i v : Nat) : (s.setLive r i v).que = s.que := rfl

/-! ### setBase -/

@[simp] theorem State.setBase_pending (s : State) (r : RegId) (i v : Nat) : (s.setBase r i v).pending = s.pending := rfl
@[simp] theorem State.setBase_clock (s : State) (r : RegId) (i v : Nat) : (s.setBase r i v).clock = s.clock := rfl
@[simp] theorem State.setBase_fresh (s : State) (r : RegId) (i v : Nat) : (s.setBase r i v).fresh = s.fresh := rfl
@[simp] theorem State.setBase_sent (s : State) (r : RegId) (i v : Nat) : (s.setBase r i v).sent = s.sent := rfl
@[simp] theorem State.setBase_scene (s : State) (r : RegId) (i v : Nat) : (s.setBase r i v).scene = s.scene := rfl
@[simp] theorem State.setBase_pwr (s : State) (r : RegId) (i v : Nat) : (s.setBase r i v).pwr = s.pwr := rfl
@[simp] theorem State.setBase_evt (s : State) (r : RegId) (i v : Nat) : (s.setBase r i v).evt = s.evt := rfl
@[simp] theorem State.setBase_pb (s : State) (r : RegId) (i v : Nat) : (s.setBase r i v).pb = s.pb := rfl
@[simp] theorem State.setBase_host (s : State) (r : RegId) (i v : Nat) : (s.setBase r i v).host = s.host := rfl
@[simp] theorem State.setBase_region (s : State) (r : RegId) (i v : Nat) : (s.setBase r i v).region = s.region := rfl
@[simp] theorem State.setBase_path (s : State) (r : RegId) (i v : Nat) : (s.setBase r i v).path = s.path := rfl
@[simp] theorem State.setBase_cache (s : State) (r : RegId) (i v : Nat) : (s.setBase r i v).cache = s.cache := rfl
@[simp] theorem State.setBase_dram (s : State) (r : RegId) (i v : Nat) : (s.setBase r i v).dram = s.dram := rfl
@[simp] theorem State.setBase_ink (s : State) (r : RegId) (i v : Nat) : (s.setBase r i v).ink = s.ink := rfl
@[simp] theorem State.setBase_flash (s : State) (r : RegId) (i v : Nat) : (s.setBase r i v).flash = s.flash := rfl
@[simp] theorem State.setBase_stage (s : State) (r : RegId) (i v : Nat) : (s.setBase r i v).stage = s.stage := rfl
@[simp] theorem State.setBase_twin (s : State) (r : RegId) (i v : Nat) : (s.setBase r i v).twin = s.twin := rfl
@[simp] theorem State.setBase_integ (s : State) (r : RegId) (i v : Nat) : (s.setBase r i v).integ = s.integ := rfl
@[simp] theorem State.setBase_maint (s : State) (r : RegId) (i v : Nat) : (s.setBase r i v).maint = s.maint := rfl
@[simp] theorem State.setBase_sen (s : State) (r : RegId) (i v : Nat) : (s.setBase r i v).sen = s.sen := rfl
@[simp] theorem State.setBase_core (s : State) (r : RegId) (i v : Nat) : (s.setBase r i v).core = s.core := rfl
@[simp] theorem State.setBase_sec (s : State) (r : RegId) (i v : Nat) : (s.setBase r i v).sec = s.sec := rfl
@[simp] theorem State.setBase_scr (s : State) (r : RegId) (i v : Nat) : (s.setBase r i v).scr = s.scr := rfl
@[simp] theorem State.setBase_que (s : State) (r : RegId) (i v : Nat) : (s.setBase r i v).que = s.que := rfl

/-! ### setFld -/

@[simp] theorem State.setFld_pending (s : State) (f : Fld) (i v : Nat) : (s.setFld f i v).pending = s.pending := rfl
@[simp] theorem State.setFld_clock (s : State) (f : Fld) (i v : Nat) : (s.setFld f i v).clock = s.clock := rfl
@[simp] theorem State.setFld_fresh (s : State) (f : Fld) (i v : Nat) : (s.setFld f i v).fresh = s.fresh := rfl
@[simp] theorem State.setFld_sent (s : State) (f : Fld) (i v : Nat) : (s.setFld f i v).sent = s.sent := rfl
@[simp] theorem State.setFld_scene (s : State) (f : Fld) (i v : Nat) : (s.setFld f i v).scene = s.scene := rfl
@[simp] theorem State.setFld_pwr (s : State) (f : Fld) (i v : Nat) : (s.setFld f i v).pwr = s.pwr := rfl
@[simp] theorem State.setFld_evt (s : State) (f : Fld) (i v : Nat) : (s.setFld f i v).evt = s.evt := rfl
@[simp] theorem State.setFld_pb (s : State) (f : Fld) (i v : Nat) : (s.setFld f i v).pb = s.pb := rfl
@[simp] theorem State.setFld_host (s : State) (f : Fld) (i v : Nat) : (s.setFld f i v).host = s.host := rfl
@[simp] theorem State.setFld_region (s : State) (f : Fld) (i v : Nat) : (s.setFld f i v).region = s.region := rfl
@[simp] theorem State.setFld_path (s : State) (f : Fld) (i v : Nat) : (s.setFld f i v).path = s.path := rfl
@[simp] theorem State.setFld_cache (s : State) (f : Fld) (i v : Nat) : (s.setFld f i v).cache = s.cache := rfl
@[simp] theorem State.setFld_dram (s : State) (f : Fld) (i v : Nat) : (s.setFld f i v).dram = s.dram := rfl
@[simp] theorem State.setFld_ink (s : State) (f : Fld) (i v : Nat) : (s.setFld f i v).ink = s.ink := rfl
@[simp] theorem State.setFld_flash (s : State) (f : Fld) (i v : Nat) : (s.setFld f i v).flash = s.flash := rfl
@[simp] theorem State.setFld_stage (s : State) (f : Fld) (i v : Nat) : (s.setFld f i v).stage = s.stage := rfl
@[simp] theorem State.setFld_twin (s : State) (f : Fld) (i v : Nat) : (s.setFld f i v).twin = s.twin := rfl
@[simp] theorem State.setFld_integ (s : State) (f : Fld) (i v : Nat) : (s.setFld f i v).integ = s.integ := rfl
@[simp] theorem State.setFld_maint (s : State) (f : Fld) (i v : Nat) : (s.setFld f i v).maint = s.maint := rfl
@[simp] theorem State.setFld_sen (s : State) (f : Fld) (i v : Nat) : (s.setFld f i v).sen = s.sen := rfl
@[simp] theorem State.setFld_core (s : State) (f : Fld) (i v : Nat) : (s.setFld f i v).core = s.core := rfl
@[simp] theorem State.setFld_sec (s : State) (f : Fld) (i v : Nat) : (s.setFld f i v).sec = s.sec := rfl
@[simp] theorem State.setFld_scr (s : State) (f : Fld) (i v : Nat) : (s.setFld f i v).scr = s.scr := rfl
@[simp] theorem State.setFld_que (s : State) (f : Fld) (i v : Nat) : (s.setFld f i v).que = s.que := rfl

/-! ### setFlag -/

@[simp] theorem State.setFlag_pending (s : State) (f : Fld) (i : Nat) (b : Bool) : (s.setFlag f i b).pending = s.pending := rfl
@[simp] theorem State.setFlag_clock (s : State) (f : Fld) (i : Nat) (b : Bool) : (s.setFlag f i b).clock = s.clock := rfl
@[simp] theorem State.setFlag_fresh (s : State) (f : Fld) (i : Nat) (b : Bool) : (s.setFlag f i b).fresh = s.fresh := rfl
@[simp] theorem State.setFlag_sent (s : State) (f : Fld) (i : Nat) (b : Bool) : (s.setFlag f i b).sent = s.sent := rfl
@[simp] theorem State.setFlag_scene (s : State) (f : Fld) (i : Nat) (b : Bool) : (s.setFlag f i b).scene = s.scene := rfl
@[simp] theorem State.setFlag_pwr (s : State) (f : Fld) (i : Nat) (b : Bool) : (s.setFlag f i b).pwr = s.pwr := rfl
@[simp] theorem State.setFlag_evt (s : State) (f : Fld) (i : Nat) (b : Bool) : (s.setFlag f i b).evt = s.evt := rfl
@[simp] theorem State.setFlag_pb (s : State) (f : Fld) (i : Nat) (b : Bool) : (s.setFlag f i b).pb = s.pb := rfl
@[simp] theorem State.setFlag_host (s : State) (f : Fld) (i : Nat) (b : Bool) : (s.setFlag f i b).host = s.host := rfl
@[simp] theorem State.setFlag_region (s : State) (f : Fld) (i : Nat) (b : Bool) : (s.setFlag f i b).region = s.region := rfl
@[simp] theorem State.setFlag_path (s : State) (f : Fld) (i : Nat) (b : Bool) : (s.setFlag f i b).path = s.path := rfl
@[simp] theorem State.setFlag_cache (s : State) (f : Fld) (i : Nat) (b : Bool) : (s.setFlag f i b).cache = s.cache := rfl
@[simp] theorem State.setFlag_dram (s : State) (f : Fld) (i : Nat) (b : Bool) : (s.setFlag f i b).dram = s.dram := rfl
@[simp] theorem State.setFlag_ink (s : State) (f : Fld) (i : Nat) (b : Bool) : (s.setFlag f i b).ink = s.ink := rfl
@[simp] theorem State.setFlag_flash (s : State) (f : Fld) (i : Nat) (b : Bool) : (s.setFlag f i b).flash = s.flash := rfl
@[simp] theorem State.setFlag_stage (s : State) (f : Fld) (i : Nat) (b : Bool) : (s.setFlag f i b).stage = s.stage := rfl
@[simp] theorem State.setFlag_twin (s : State) (f : Fld) (i : Nat) (b : Bool) : (s.setFlag f i b).twin = s.twin := rfl
@[simp] theorem State.setFlag_integ (s : State) (f : Fld) (i : Nat) (b : Bool) : (s.setFlag f i b).integ = s.integ := rfl
@[simp] theorem State.setFlag_maint (s : State) (f : Fld) (i : Nat) (b : Bool) : (s.setFlag f i b).maint = s.maint := rfl
@[simp] theorem State.setFlag_sen (s : State) (f : Fld) (i : Nat) (b : Bool) : (s.setFlag f i b).sen = s.sen := rfl
@[simp] theorem State.setFlag_core (s : State) (f : Fld) (i : Nat) (b : Bool) : (s.setFlag f i b).core = s.core := rfl
@[simp] theorem State.setFlag_sec (s : State) (f : Fld) (i : Nat) (b : Bool) : (s.setFlag f i b).sec = s.sec := rfl
@[simp] theorem State.setFlag_scr (s : State) (f : Fld) (i : Nat) (b : Bool) : (s.setFlag f i b).scr = s.scr := rfl
@[simp] theorem State.setFlag_que (s : State) (f : Fld) (i : Nat) (b : Bool) : (s.setFlag f i b).que = s.que := rfl

/-! ### addSat -/

@[simp] theorem State.addSat_pending (s : State) (f : Fld) (i n : Nat) : (s.addSat f i n).pending = s.pending := rfl
@[simp] theorem State.addSat_clock (s : State) (f : Fld) (i n : Nat) : (s.addSat f i n).clock = s.clock := rfl
@[simp] theorem State.addSat_fresh (s : State) (f : Fld) (i n : Nat) : (s.addSat f i n).fresh = s.fresh := rfl
@[simp] theorem State.addSat_sent (s : State) (f : Fld) (i n : Nat) : (s.addSat f i n).sent = s.sent := rfl
@[simp] theorem State.addSat_scene (s : State) (f : Fld) (i n : Nat) : (s.addSat f i n).scene = s.scene := rfl
@[simp] theorem State.addSat_pwr (s : State) (f : Fld) (i n : Nat) : (s.addSat f i n).pwr = s.pwr := rfl
@[simp] theorem State.addSat_evt (s : State) (f : Fld) (i n : Nat) : (s.addSat f i n).evt = s.evt := rfl
@[simp] theorem State.addSat_pb (s : State) (f : Fld) (i n : Nat) : (s.addSat f i n).pb = s.pb := rfl
@[simp] theorem State.addSat_host (s : State) (f : Fld) (i n : Nat) : (s.addSat f i n).host = s.host := rfl
@[simp] theorem State.addSat_region (s : State) (f : Fld) (i n : Nat) : (s.addSat f i n).region = s.region := rfl
@[simp] theorem State.addSat_path (s : State) (f : Fld) (i n : Nat) : (s.addSat f i n).path = s.path := rfl
@[simp] theorem State.addSat_cache (s : State) (f : Fld) (i n : Nat) : (s.addSat f i n).cache = s.cache := rfl
@[simp] theorem State.addSat_dram (s : State) (f : Fld) (i n : Nat) : (s.addSat f i n).dram = s.dram := rfl
@[simp] theorem State.addSat_ink (s : State) (f : Fld) (i n : Nat) : (s.addSat f i n).ink = s.ink := rfl
@[simp] theorem State.addSat_flash (s : State) (f : Fld) (i n : Nat) : (s.addSat f i n).flash = s.flash := rfl
@[simp] theorem State.addSat_stage (s : State) (f : Fld) (i n : Nat) : (s.addSat f i n).stage = s.stage := rfl
@[simp] theorem State.addSat_twin (s : State) (f : Fld) (i n : Nat) : (s.addSat f i n).twin = s.twin := rfl
@[simp] theorem State.addSat_integ (s : State) (f : Fld) (i n : Nat) : (s.addSat f i n).integ = s.integ := rfl
@[simp] theorem State.addSat_maint (s : State) (f : Fld) (i n : Nat) : (s.addSat f i n).maint = s.maint := rfl
@[simp] theorem State.addSat_sen (s : State) (f : Fld) (i n : Nat) : (s.addSat f i n).sen = s.sen := rfl
@[simp] theorem State.addSat_core (s : State) (f : Fld) (i n : Nat) : (s.addSat f i n).core = s.core := rfl
@[simp] theorem State.addSat_sec (s : State) (f : Fld) (i n : Nat) : (s.addSat f i n).sec = s.sec := rfl
@[simp] theorem State.addSat_scr (s : State) (f : Fld) (i n : Nat) : (s.addSat f i n).scr = s.scr := rfl
@[simp] theorem State.addSat_que (s : State) (f : Fld) (i n : Nat) : (s.addSat f i n).que = s.que := rfl

/-! ### subFld -/

@[simp] theorem State.subFld_pending (s : State) (f : Fld) (i n : Nat) : (s.subFld f i n).pending = s.pending := rfl
@[simp] theorem State.subFld_clock (s : State) (f : Fld) (i n : Nat) : (s.subFld f i n).clock = s.clock := rfl
@[simp] theorem State.subFld_fresh (s : State) (f : Fld) (i n : Nat) : (s.subFld f i n).fresh = s.fresh := rfl
@[simp] theorem State.subFld_sent (s : State) (f : Fld) (i n : Nat) : (s.subFld f i n).sent = s.sent := rfl
@[simp] theorem State.subFld_scene (s : State) (f : Fld) (i n : Nat) : (s.subFld f i n).scene = s.scene := rfl
@[simp] theorem State.subFld_pwr (s : State) (f : Fld) (i n : Nat) : (s.subFld f i n).pwr = s.pwr := rfl
@[simp] theorem State.subFld_evt (s : State) (f : Fld) (i n : Nat) : (s.subFld f i n).evt = s.evt := rfl
@[simp] theorem State.subFld_pb (s : State) (f : Fld) (i n : Nat) : (s.subFld f i n).pb = s.pb := rfl
@[simp] theorem State.subFld_host (s : State) (f : Fld) (i n : Nat) : (s.subFld f i n).host = s.host := rfl
@[simp] theorem State.subFld_region (s : State) (f : Fld) (i n : Nat) : (s.subFld f i n).region = s.region := rfl
@[simp] theorem State.subFld_path (s : State) (f : Fld) (i n : Nat) : (s.subFld f i n).path = s.path := rfl
@[simp] theorem State.subFld_cache (s : State) (f : Fld) (i n : Nat) : (s.subFld f i n).cache = s.cache := rfl
@[simp] theorem State.subFld_dram (s : State) (f : Fld) (i n : Nat) : (s.subFld f i n).dram = s.dram := rfl
@[simp] theorem State.subFld_ink (s : State) (f : Fld) (i n : Nat) : (s.subFld f i n).ink = s.ink := rfl
@[simp] theorem State.subFld_flash (s : State) (f : Fld) (i n : Nat) : (s.subFld f i n).flash = s.flash := rfl
@[simp] theorem State.subFld_stage (s : State) (f : Fld) (i n : Nat) : (s.subFld f i n).stage = s.stage := rfl
@[simp] theorem State.subFld_twin (s : State) (f : Fld) (i n : Nat) : (s.subFld f i n).twin = s.twin := rfl
@[simp] theorem State.subFld_integ (s : State) (f : Fld) (i n : Nat) : (s.subFld f i n).integ = s.integ := rfl
@[simp] theorem State.subFld_maint (s : State) (f : Fld) (i n : Nat) : (s.subFld f i n).maint = s.maint := rfl
@[simp] theorem State.subFld_sen (s : State) (f : Fld) (i n : Nat) : (s.subFld f i n).sen = s.sen := rfl
@[simp] theorem State.subFld_core (s : State) (f : Fld) (i n : Nat) : (s.subFld f i n).core = s.core := rfl
@[simp] theorem State.subFld_sec (s : State) (f : Fld) (i n : Nat) : (s.subFld f i n).sec = s.sec := rfl
@[simp] theorem State.subFld_scr (s : State) (f : Fld) (i n : Nat) : (s.subFld f i n).scr = s.scr := rfl
@[simp] theorem State.subFld_que (s : State) (f : Fld) (i n : Nat) : (s.subFld f i n).que = s.que := rfl

/-! ### setRw -/

@[simp] theorem State.setRw_pending (s : State) (f : Fld) (i v : Nat) : (s.setRw f i v).pending = s.pending := rfl
@[simp] theorem State.setRw_clock (s : State) (f : Fld) (i v : Nat) : (s.setRw f i v).clock = s.clock := rfl
@[simp] theorem State.setRw_fresh (s : State) (f : Fld) (i v : Nat) : (s.setRw f i v).fresh = s.fresh := rfl
@[simp] theorem State.setRw_sent (s : State) (f : Fld) (i v : Nat) : (s.setRw f i v).sent = s.sent := rfl
@[simp] theorem State.setRw_scene (s : State) (f : Fld) (i v : Nat) : (s.setRw f i v).scene = s.scene := rfl
@[simp] theorem State.setRw_pwr (s : State) (f : Fld) (i v : Nat) : (s.setRw f i v).pwr = s.pwr := rfl
@[simp] theorem State.setRw_evt (s : State) (f : Fld) (i v : Nat) : (s.setRw f i v).evt = s.evt := rfl
@[simp] theorem State.setRw_pb (s : State) (f : Fld) (i v : Nat) : (s.setRw f i v).pb = s.pb := rfl
@[simp] theorem State.setRw_host (s : State) (f : Fld) (i v : Nat) : (s.setRw f i v).host = s.host := rfl
@[simp] theorem State.setRw_region (s : State) (f : Fld) (i v : Nat) : (s.setRw f i v).region = s.region := rfl
@[simp] theorem State.setRw_path (s : State) (f : Fld) (i v : Nat) : (s.setRw f i v).path = s.path := rfl
@[simp] theorem State.setRw_cache (s : State) (f : Fld) (i v : Nat) : (s.setRw f i v).cache = s.cache := rfl
@[simp] theorem State.setRw_dram (s : State) (f : Fld) (i v : Nat) : (s.setRw f i v).dram = s.dram := rfl
@[simp] theorem State.setRw_ink (s : State) (f : Fld) (i v : Nat) : (s.setRw f i v).ink = s.ink := rfl
@[simp] theorem State.setRw_flash (s : State) (f : Fld) (i v : Nat) : (s.setRw f i v).flash = s.flash := rfl
@[simp] theorem State.setRw_stage (s : State) (f : Fld) (i v : Nat) : (s.setRw f i v).stage = s.stage := rfl
@[simp] theorem State.setRw_twin (s : State) (f : Fld) (i v : Nat) : (s.setRw f i v).twin = s.twin := rfl
@[simp] theorem State.setRw_integ (s : State) (f : Fld) (i v : Nat) : (s.setRw f i v).integ = s.integ := rfl
@[simp] theorem State.setRw_maint (s : State) (f : Fld) (i v : Nat) : (s.setRw f i v).maint = s.maint := rfl
@[simp] theorem State.setRw_sen (s : State) (f : Fld) (i v : Nat) : (s.setRw f i v).sen = s.sen := rfl
@[simp] theorem State.setRw_core (s : State) (f : Fld) (i v : Nat) : (s.setRw f i v).core = s.core := rfl
@[simp] theorem State.setRw_sec (s : State) (f : Fld) (i v : Nat) : (s.setRw f i v).sec = s.sec := rfl
@[simp] theorem State.setRw_scr (s : State) (f : Fld) (i v : Nat) : (s.setRw f i v).scr = s.scr := rfl
@[simp] theorem State.setRw_que (s : State) (f : Fld) (i v : Nat) : (s.setRw f i v).que = s.que := rfl

/-! ### setTab -/

@[simp] theorem State.setTab_pending (s : State) (off v : Nat) : (s.setTab off v).pending = s.pending := rfl
@[simp] theorem State.setTab_clock (s : State) (off v : Nat) : (s.setTab off v).clock = s.clock := rfl
@[simp] theorem State.setTab_fresh (s : State) (off v : Nat) : (s.setTab off v).fresh = s.fresh := rfl
@[simp] theorem State.setTab_sent (s : State) (off v : Nat) : (s.setTab off v).sent = s.sent := rfl
@[simp] theorem State.setTab_regs (s : State) (off v : Nat) : (s.setTab off v).regs = s.regs := rfl
@[simp] theorem State.setTab_scene (s : State) (off v : Nat) : (s.setTab off v).scene = s.scene := rfl
@[simp] theorem State.setTab_pwr (s : State) (off v : Nat) : (s.setTab off v).pwr = s.pwr := rfl
@[simp] theorem State.setTab_evt (s : State) (off v : Nat) : (s.setTab off v).evt = s.evt := rfl
@[simp] theorem State.setTab_pb (s : State) (off v : Nat) : (s.setTab off v).pb = s.pb := rfl
@[simp] theorem State.setTab_host (s : State) (off v : Nat) : (s.setTab off v).host = s.host := rfl
@[simp] theorem State.setTab_path (s : State) (off v : Nat) : (s.setTab off v).path = s.path := rfl
@[simp] theorem State.setTab_cache (s : State) (off v : Nat) : (s.setTab off v).cache = s.cache := rfl
@[simp] theorem State.setTab_dram (s : State) (off v : Nat) : (s.setTab off v).dram = s.dram := rfl
@[simp] theorem State.setTab_ink (s : State) (off v : Nat) : (s.setTab off v).ink = s.ink := rfl
@[simp] theorem State.setTab_flash (s : State) (off v : Nat) : (s.setTab off v).flash = s.flash := rfl
@[simp] theorem State.setTab_stage (s : State) (off v : Nat) : (s.setTab off v).stage = s.stage := rfl
@[simp] theorem State.setTab_twin (s : State) (off v : Nat) : (s.setTab off v).twin = s.twin := rfl
@[simp] theorem State.setTab_integ (s : State) (off v : Nat) : (s.setTab off v).integ = s.integ := rfl
@[simp] theorem State.setTab_maint (s : State) (off v : Nat) : (s.setTab off v).maint = s.maint := rfl
@[simp] theorem State.setTab_sen (s : State) (off v : Nat) : (s.setTab off v).sen = s.sen := rfl
@[simp] theorem State.setTab_core (s : State) (off v : Nat) : (s.setTab off v).core = s.core := rfl
@[simp] theorem State.setTab_sec (s : State) (off v : Nat) : (s.setTab off v).sec = s.sec := rfl
@[simp] theorem State.setTab_scr (s : State) (off v : Nat) : (s.setTab off v).scr = s.scr := rfl
@[simp] theorem State.setTab_que (s : State) (off v : Nat) : (s.setTab off v).que = s.que := rfl

/-! ### send -/

@[simp] theorem State.send_pending (s : State) (o : Out) : (s.send o).pending = s.pending := rfl
@[simp] theorem State.send_clock (s : State) (o : Out) : (s.send o).clock = s.clock := rfl
@[simp] theorem State.send_fresh (s : State) (o : Out) : (s.send o).fresh = s.fresh := rfl
@[simp] theorem State.send_regs (s : State) (o : Out) : (s.send o).regs = s.regs := rfl
@[simp] theorem State.send_scene (s : State) (o : Out) : (s.send o).scene = s.scene := rfl
@[simp] theorem State.send_pwr (s : State) (o : Out) : (s.send o).pwr = s.pwr := rfl
@[simp] theorem State.send_evt (s : State) (o : Out) : (s.send o).evt = s.evt := rfl
@[simp] theorem State.send_pb (s : State) (o : Out) : (s.send o).pb = s.pb := rfl
@[simp] theorem State.send_host (s : State) (o : Out) : (s.send o).host = s.host := rfl
@[simp] theorem State.send_region (s : State) (o : Out) : (s.send o).region = s.region := rfl
@[simp] theorem State.send_path (s : State) (o : Out) : (s.send o).path = s.path := rfl
@[simp] theorem State.send_cache (s : State) (o : Out) : (s.send o).cache = s.cache := rfl
@[simp] theorem State.send_dram (s : State) (o : Out) : (s.send o).dram = s.dram := rfl
@[simp] theorem State.send_ink (s : State) (o : Out) : (s.send o).ink = s.ink := rfl
@[simp] theorem State.send_flash (s : State) (o : Out) : (s.send o).flash = s.flash := rfl
@[simp] theorem State.send_stage (s : State) (o : Out) : (s.send o).stage = s.stage := rfl
@[simp] theorem State.send_twin (s : State) (o : Out) : (s.send o).twin = s.twin := rfl
@[simp] theorem State.send_integ (s : State) (o : Out) : (s.send o).integ = s.integ := rfl
@[simp] theorem State.send_maint (s : State) (o : Out) : (s.send o).maint = s.maint := rfl
@[simp] theorem State.send_sen (s : State) (o : Out) : (s.send o).sen = s.sen := rfl
@[simp] theorem State.send_core (s : State) (o : Out) : (s.send o).core = s.core := rfl
@[simp] theorem State.send_sec (s : State) (o : Out) : (s.send o).sec = s.sec := rfl
@[simp] theorem State.send_scr (s : State) (o : Out) : (s.send o).scr = s.scr := rfl
@[simp] theorem State.send_que (s : State) (o : Out) : (s.send o).que = s.que := rfl

/-! ### nextFresh -/

@[simp] theorem State.nextFresh_pending (s : State) : s.nextFresh.pending = s.pending := rfl
@[simp] theorem State.nextFresh_clock (s : State) : s.nextFresh.clock = s.clock := rfl
@[simp] theorem State.nextFresh_sent (s : State) : s.nextFresh.sent = s.sent := rfl
@[simp] theorem State.nextFresh_regs (s : State) : s.nextFresh.regs = s.regs := rfl
@[simp] theorem State.nextFresh_scene (s : State) : s.nextFresh.scene = s.scene := rfl
@[simp] theorem State.nextFresh_pwr (s : State) : s.nextFresh.pwr = s.pwr := rfl
@[simp] theorem State.nextFresh_evt (s : State) : s.nextFresh.evt = s.evt := rfl
@[simp] theorem State.nextFresh_pb (s : State) : s.nextFresh.pb = s.pb := rfl
@[simp] theorem State.nextFresh_host (s : State) : s.nextFresh.host = s.host := rfl
@[simp] theorem State.nextFresh_region (s : State) : s.nextFresh.region = s.region := rfl
@[simp] theorem State.nextFresh_path (s : State) : s.nextFresh.path = s.path := rfl
@[simp] theorem State.nextFresh_cache (s : State) : s.nextFresh.cache = s.cache := rfl
@[simp] theorem State.nextFresh_dram (s : State) : s.nextFresh.dram = s.dram := rfl
@[simp] theorem State.nextFresh_ink (s : State) : s.nextFresh.ink = s.ink := rfl
@[simp] theorem State.nextFresh_flash (s : State) : s.nextFresh.flash = s.flash := rfl
@[simp] theorem State.nextFresh_stage (s : State) : s.nextFresh.stage = s.stage := rfl
@[simp] theorem State.nextFresh_twin (s : State) : s.nextFresh.twin = s.twin := rfl
@[simp] theorem State.nextFresh_integ (s : State) : s.nextFresh.integ = s.integ := rfl
@[simp] theorem State.nextFresh_maint (s : State) : s.nextFresh.maint = s.maint := rfl
@[simp] theorem State.nextFresh_sen (s : State) : s.nextFresh.sen = s.sen := rfl
@[simp] theorem State.nextFresh_core (s : State) : s.nextFresh.core = s.core := rfl
@[simp] theorem State.nextFresh_sec (s : State) : s.nextFresh.sec = s.sec := rfl
@[simp] theorem State.nextFresh_scr (s : State) : s.nextFresh.scr = s.scr := rfl
@[simp] theorem State.nextFresh_que (s : State) : s.nextFresh.que = s.que := rfl

/-! ### sample -/

@[simp] theorem State.sample_pending (s : State) (idx v : Nat) : (s.sample idx v).pending = s.pending := rfl
@[simp] theorem State.sample_clock (s : State) (idx v : Nat) : (s.sample idx v).clock = s.clock := rfl
@[simp] theorem State.sample_fresh (s : State) (idx v : Nat) : (s.sample idx v).fresh = s.fresh := rfl
@[simp] theorem State.sample_sent (s : State) (idx v : Nat) : (s.sample idx v).sent = s.sent := rfl
@[simp] theorem State.sample_regs (s : State) (idx v : Nat) : (s.sample idx v).regs = s.regs := rfl
@[simp] theorem State.sample_scene (s : State) (idx v : Nat) : (s.sample idx v).scene = s.scene := rfl
@[simp] theorem State.sample_pwr (s : State) (idx v : Nat) : (s.sample idx v).pwr = s.pwr := rfl
@[simp] theorem State.sample_evt (s : State) (idx v : Nat) : (s.sample idx v).evt = s.evt := rfl
@[simp] theorem State.sample_host (s : State) (idx v : Nat) : (s.sample idx v).host = s.host := rfl
@[simp] theorem State.sample_region (s : State) (idx v : Nat) : (s.sample idx v).region = s.region := rfl
@[simp] theorem State.sample_path (s : State) (idx v : Nat) : (s.sample idx v).path = s.path := rfl
@[simp] theorem State.sample_cache (s : State) (idx v : Nat) : (s.sample idx v).cache = s.cache := rfl
@[simp] theorem State.sample_dram (s : State) (idx v : Nat) : (s.sample idx v).dram = s.dram := rfl
@[simp] theorem State.sample_ink (s : State) (idx v : Nat) : (s.sample idx v).ink = s.ink := rfl
@[simp] theorem State.sample_flash (s : State) (idx v : Nat) : (s.sample idx v).flash = s.flash := rfl
@[simp] theorem State.sample_stage (s : State) (idx v : Nat) : (s.sample idx v).stage = s.stage := rfl
@[simp] theorem State.sample_twin (s : State) (idx v : Nat) : (s.sample idx v).twin = s.twin := rfl
@[simp] theorem State.sample_integ (s : State) (idx v : Nat) : (s.sample idx v).integ = s.integ := rfl
@[simp] theorem State.sample_maint (s : State) (idx v : Nat) : (s.sample idx v).maint = s.maint := rfl
@[simp] theorem State.sample_sen (s : State) (idx v : Nat) : (s.sample idx v).sen = s.sen := rfl
@[simp] theorem State.sample_core (s : State) (idx v : Nat) : (s.sample idx v).core = s.core := rfl
@[simp] theorem State.sample_sec (s : State) (idx v : Nat) : (s.sample idx v).sec = s.sec := rfl
@[simp] theorem State.sample_scr (s : State) (idx v : Nat) : (s.sample idx v).scr = s.scr := rfl
@[simp] theorem State.sample_que (s : State) (idx v : Nat) : (s.sample idx v).que = s.que := rfl

/-! ### answer -/

@[simp] theorem State.answer_pending (s : State) (mb opcode status : Nat) (output : List Byte) : (s.answer mb opcode status output).pending = s.pending := rfl
@[simp] theorem State.answer_clock (s : State) (mb opcode status : Nat) (output : List Byte) : (s.answer mb opcode status output).clock = s.clock := rfl
@[simp] theorem State.answer_fresh (s : State) (mb opcode status : Nat) (output : List Byte) : (s.answer mb opcode status output).fresh = s.fresh := rfl
@[simp] theorem State.answer_regs (s : State) (mb opcode status : Nat) (output : List Byte) : (s.answer mb opcode status output).regs = s.regs := rfl
@[simp] theorem State.answer_scene (s : State) (mb opcode status : Nat) (output : List Byte) : (s.answer mb opcode status output).scene = s.scene := rfl
@[simp] theorem State.answer_pwr (s : State) (mb opcode status : Nat) (output : List Byte) : (s.answer mb opcode status output).pwr = s.pwr := rfl
@[simp] theorem State.answer_evt (s : State) (mb opcode status : Nat) (output : List Byte) : (s.answer mb opcode status output).evt = s.evt := rfl
@[simp] theorem State.answer_pb (s : State) (mb opcode status : Nat) (output : List Byte) : (s.answer mb opcode status output).pb = s.pb := rfl
@[simp] theorem State.answer_host (s : State) (mb opcode status : Nat) (output : List Byte) : (s.answer mb opcode status output).host = s.host := rfl
@[simp] theorem State.answer_region (s : State) (mb opcode status : Nat) (output : List Byte) : (s.answer mb opcode status output).region = s.region := rfl
@[simp] theorem State.answer_path (s : State) (mb opcode status : Nat) (output : List Byte) : (s.answer mb opcode status output).path = s.path := rfl
@[simp] theorem State.answer_cache (s : State) (mb opcode status : Nat) (output : List Byte) : (s.answer mb opcode status output).cache = s.cache := rfl
@[simp] theorem State.answer_dram (s : State) (mb opcode status : Nat) (output : List Byte) : (s.answer mb opcode status output).dram = s.dram := rfl
@[simp] theorem State.answer_ink (s : State) (mb opcode status : Nat) (output : List Byte) : (s.answer mb opcode status output).ink = s.ink := rfl
@[simp] theorem State.answer_flash (s : State) (mb opcode status : Nat) (output : List Byte) : (s.answer mb opcode status output).flash = s.flash := rfl
@[simp] theorem State.answer_stage (s : State) (mb opcode status : Nat) (output : List Byte) : (s.answer mb opcode status output).stage = s.stage := rfl
@[simp] theorem State.answer_twin (s : State) (mb opcode status : Nat) (output : List Byte) : (s.answer mb opcode status output).twin = s.twin := rfl
@[simp] theorem State.answer_integ (s : State) (mb opcode status : Nat) (output : List Byte) : (s.answer mb opcode status output).integ = s.integ := rfl
@[simp] theorem State.answer_maint (s : State) (mb opcode status : Nat) (output : List Byte) : (s.answer mb opcode status output).maint = s.maint := rfl
@[simp] theorem State.answer_sen (s : State) (mb opcode status : Nat) (output : List Byte) : (s.answer mb opcode status output).sen = s.sen := rfl
@[simp] theorem State.answer_core (s : State) (mb opcode status : Nat) (output : List Byte) : (s.answer mb opcode status output).core = s.core := rfl
@[simp] theorem State.answer_sec (s : State) (mb opcode status : Nat) (output : List Byte) : (s.answer mb opcode status output).sec = s.sec := rfl
@[simp] theorem State.answer_scr (s : State) (mb opcode status : Nat) (output : List Byte) : (s.answer mb opcode status output).scr = s.scr := rfl
@[simp] theorem State.answer_que (s : State) (mb opcode status : Nat) (output : List Byte) : (s.answer mb opcode status output).que = s.que := rfl

@[simp] theorem State.send_sent (s : State) (o : Out) : (s.send o).sent = s.sent ++ [o] := rfl
@[simp] theorem State.nextFresh_fresh (s : State) : s.nextFresh.fresh = s.fresh + 1 := rfl
@[simp] theorem State.answer_sent (s : State) (mb opcode status : Nat) (output : List Byte) :
    (s.answer mb opcode status output).sent =
      s.sent ++ [.mailbox mb opcode .success (BitVec.ofNat 8 status :: output)] := rfl

end Sys2Proof.Machine
end

