-- ==== Sys2Proof/Laws/Regs.lean ====
section
/-! SUPPORT. The laws of the register file: what a field reads after a write of a field, of a word, of another register.

They are stated of `Regs`, so that a change of another part of the state is no obstacle: `State.fld_eq` turns a field of a
state into a field of its register file. -/

set_option Elab.async false

namespace Sys2Proof.Machine

/-- A live word of a register file. -/
def Regs.word (x : Regs) (r : RegId) (i : Nat) : W32 := mapGet (r.resetWord i) x.live (r.off i)

/-- A field of a register file. -/
def Regs.fld (x : Regs) (f : Fld) (i : Nat) : Nat := bits (x.word f.reg i).toNat f.hi f.lo

/-- A register file after a write of a live word. -/
def Regs.put (x : Regs) (r : RegId) (i v : Nat) : Regs := { x with live := mapSet x.live (r.off i) (BitVec.ofNat 32 v) }

/-- A register file after a write of a field. -/
def Regs.set (x : Regs) (f : Fld) (i v : Nat) : Regs := x.put f.reg i (setBits (x.word f.reg i).toNat f.hi f.lo v)

/-- A register file after a write of a base word. -/
def Regs.putBase (x : Regs) (r : RegId) (i v : Nat) : Regs :=
  { x with base := mapSet x.base (r.off i) (BitVec.ofNat 32 v) }

theorem State.liveWord_eq (s : State) (r : RegId) (i : Nat) : s.liveWord r i = s.regs.word r i := rfl
theorem State.fld_eq (s : State) (f : Fld) (i : Nat) : s.fld f i = s.regs.fld f i := rfl
theorem State.flag_eq (s : State) (f : Fld) (i : Nat) : s.flag f i = decide (s.regs.fld f i ≠ 0) := rfl
theorem State.setLive_regs (s : State) (r : RegId) (i v : Nat) : (s.setLive r i v).regs = s.regs.put r i v := rfl
theorem State.setBase_regs (s : State) (r : RegId) (i v : Nat) : (s.setBase r i v).regs = s.regs.putBase r i v := rfl
theorem State.setFld_regs (s : State) (f : Fld) (i v : Nat) : (s.setFld f i v).regs = s.regs.set f i v := rfl
theorem State.setFlag_regs (s : State) (f : Fld) (i : Nat) (b : Bool) :
    (s.setFlag f i b).regs = s.regs.set f i (b2n b) := rfl
theorem State.addSat_regs (s : State) (f : Fld) (i n : Nat) :
    (s.addSat f i n).regs = s.regs.set f i (satTo (f.hi + 1 - f.lo) (s.regs.fld f i + n)) := rfl
theorem State.subFld_regs (s : State) (f : Fld) (i n : Nat) :
    (s.subFld f i n).regs = s.regs.set f i (s.regs.fld f i - n) := rfl
theorem State.setRw_regs (s : State) (f : Fld) (i v : Nat) :
    (s.setRw f i v).regs = (s.regs.set f i v).putBase f.reg i (setBits (s.baseWord f.reg i).toNat f.hi f.lo v) := rfl

/-! ### Words -/

theorem Regs.word_put (x : Regs) (r q : RegId) (i j v : Nat) :
    (x.put r i v).word q j = if q.off j = r.off i then BitVec.ofNat 32 v else x.word q j := mapGet_set _ _ _ _ _

@[simp] theorem Regs.word_put_self (x : Regs) (r : RegId) (i v : Nat) : (x.put r i v).word r i = BitVec.ofNat 32 v := by
  simp [Regs.word_put]

theorem Regs.word_put_ne (x : Regs) {r q : RegId} {i j : Nat} (v : Nat) (h : q.off j ≠ r.off i) :
    (x.put r i v).word q j = x.word q j := by simp [Regs.word_put, h]

@[simp] theorem Regs.word_putBase (x : Regs) (r q : RegId) (i j v : Nat) : (x.putBase r i v).word q j = x.word q j := rfl
@[simp] theorem Regs.fld_putBase (x : Regs) (f : Fld) (r : RegId) (i j v : Nat) : (x.putBase r i v).fld f j = x.fld f j := rfl

theorem Regs.word_set_ne (x : Regs) {f : Fld} {q : RegId} {i j : Nat} (v : Nat) (h : q.off j ≠ f.reg.off i) :
    (x.set f i v).word q j = x.word q j := Regs.word_put_ne x _ h

theorem Regs.fld_put_ne (x : Regs) {r : RegId} {f : Fld} {i j : Nat} (v : Nat) (h : f.reg.off j ≠ r.off i) :
    (x.put r i v).fld f j = x.fld f j := by rw [Regs.fld, Regs.fld, Regs.word_put_ne x _ h]

/-! ### Fields -/

/-- A field of a register after a write of a field of a register elsewhere. -/
theorem Regs.fld_set_reg (x : Regs) {f g : Fld} {i j : Nat} (v : Nat) (h : g.reg.off j ≠ f.reg.off i) :
    (x.set f i v).fld g j = x.fld g j := Regs.fld_put_ne x _ h

theorem setBits_word {w : W32} {hi lo : Nat} (v : Nat) (h : lo ≤ hi) (k : hi < 32) :
    (BitVec.ofNat 32 (setBits w.toNat hi lo v)).toNat = setBits w.toNat hi lo v := by
  rw [BitVec.toNat_ofNat]
  exact Nat.mod_eq_of_lt (setBits_lt (by omega) (by omega) w.isLt)

/-- The field that was written. -/
theorem Regs.fld_set_self (x : Regs) {f : Fld} (i v : Nat) (h : f.lo ≤ f.hi ∧ f.hi < 32) :
    (x.set f i v).fld f i = v % 2 ^ (f.hi + 1 - f.lo) := by
  rw [Regs.fld, Regs.set, Regs.word_put_self, setBits_word v h.1 h.2, bits_setBits_self (by omega)]

/-- Another field of the same register. -/
theorem Regs.fld_set_other (x : Regs) {f g : Fld} (i v : Nat) (h : f.lo ≤ f.hi ∧ f.hi < 32) (e : g.reg = f.reg)
    (k : f.hi < g.lo ∨ g.hi < f.lo) : (x.set f i v).fld g i = x.fld g i := by
  rw [Regs.fld, Regs.set, e, Regs.word_put_self, setBits_word v h.1 h.2, Regs.fld, e]
  cases k with
  | inl a => exact bits_setBits_above (by omega) a
  | inr b => exact bits_setBits_below (by omega) b

end Sys2Proof.Machine
end

