-- ==== Sys2Proof/Laws/Events.lean ====
section
/-! SUPPORT. What raising an event changes: the router's and the prompt book's registers and records, and what is sent. -/

set_option Elab.async false

namespace Sys2Proof.Machine

theorem OnlyEvents.refl (s : State) : OnlyEvents s s := ⟨rfl, rfl, rfl, fun _ _ => rfl⟩

theorem OnlyEvents.trans {s t u : State} (h : OnlyEvents s t) (k : OnlyEvents t u) : OnlyEvents s u :=
  ⟨k.core.trans h.core, k.base.trans h.base, k.taken.trans h.taken, fun o ho => (k.live o ho).trans (h.live o ho)⟩

theorem OnlyEvents.setLive {s0 s : State} (h : OnlyEvents s0 s) {r : RegId} {i v : Nat} (k : 0x2700000 ≤ r.off i) :
    OnlyEvents s0 (s.setLive r i v) :=
  h.trans ⟨rfl, rfl, rfl, fun o ho => mapGet?_set_ne _ _ (by omega)⟩

theorem OnlyEvents.setFld {s0 s : State} (h : OnlyEvents s0 s) (f : Fld) (i v : Nat) (k : 0x2700000 ≤ f.reg.off i) :
    OnlyEvents s0 (s.setFld f i v) := h.setLive k

theorem OnlyEvents.addSat {s0 s : State} (h : OnlyEvents s0 s) (f : Fld) (i v : Nat) (k : 0x2700000 ≤ f.reg.off i) :
    OnlyEvents s0 (s.addSat f i v) := h.setLive k

theorem OnlyEvents.send {s0 s : State} (h : OnlyEvents s0 s) {o : Out} : OnlyEvents s0 (s.send o) :=
  h.trans ⟨rfl, rfl, rfl, fun _ _ => rfl⟩

theorem OnlyEvents.mk' {s0 s : State} (h : OnlyEvents s0 s) {evt : EventUnit} {pb : PBook} :
    OnlyEvents s0 (State.mk s.pending s.clock s.fresh s.sent s.regs s.scene s.pwr evt pb s.host s.region s.path s.cache
      s.dram s.ink s.flash s.stage s.twin s.integ s.maint s.sen s.core s.sec s.scr s.que) :=
  h.trans ⟨rfl, rfl, rfl, fun _ _ => rfl⟩

theorem OnlyEvents.ite {s0 s t : State} {p : Prop} [Decidable p] (h : OnlyEvents s0 s) (k : OnlyEvents s0 t) :
    OnlyEvents s0 (if p then s else t) := by split <;> assumption

theorem OnlyEvents.foldl {α : Type} {s0 : State} {f : State → α → State} (l : List α) {s : State} (h : OnlyEvents s0 s)
    (k : ∀ t a, OnlyEvents s0 t → OnlyEvents s0 (f t a)) : OnlyEvents s0 (l.foldl f s) := by
  induction l generalizing s with
  | nil => exact h
  | cons a t ih => exact ih (k s a h)

theorem off_evt (i : Nat) : 0x2700000 ≤ RegId.EVT_SRC.off i := by simp [RegId.off, RegId.place]
theorem off_ovf (i : Nat) : 0x2700000 ≤ RegId.EVT_CORE_OVF.off i := by simp [RegId.off, RegId.place]; omega

theorem pbWrite_only {s0 s : State} (h : OnlyEvents s0 s) (kind sev event trigger detail : Nat) (caps : List (Nat × Nat)) :
    OnlyEvents s0 (s.pbWrite kind sev event trigger detail caps).1 := by
  simp only [State.pbWrite]
  split
  · refine h.addSat _ _ _ ?_
    unfold pbDropFld
    split <;> decide
  · simp only [State.pbCounts, State.setPbSeq]
    refine OnlyEvents.setFld (OnlyEvents.setFld (OnlyEvents.setFld (OnlyEvents.setFld h.mk' _ _ _ ?_) _ _ _ ?_) _ _ _ ?_) _ _ _
      ?_ <;> decide

theorem pbRecord_only {s0 s : State} (h : OnlyEvents s0 s) (event sev detail : Nat) (always : Bool) :
    OnlyEvents s0 (s.pbRecord event sev detail always).1 := by
  simp only [State.pbRecord]
  split
  · split
    · exact pbWrite_only h ..
    · exact h
  · suffices ∀ (l : List Nat) (p : State × Bool), OnlyEvents s0 p.1 → OnlyEvents s0 (l.foldl (fun (p : State × Bool) t =>
        ((p.1.pbWrite 2 (Max.max sev (p.1.fld F.PBOOK_TRIG_severity t)) event t detail (p.1.pbCapture t)).1,
          p.2 || (p.1.pbWrite 2 (Max.max sev (p.1.fld F.PBOOK_TRIG_severity t)) event t detail (p.1.pbCapture t)).2)) p).1 from
      this _ (s, false) h
    intro l
    induction l with
    | nil => exact fun p hp => hp
    | cons a t ih => exact fun p hp => ih _ (pbWrite_only hp ..)

theorem toCore_only {s0 s : State} (h : OnlyEvents s0 s) (event sev seq detail : Nat) :
    OnlyEvents s0 (s.toCore event sev seq detail).1 := by
  simp only [State.toCore]
  split
  · exact h
  · split
    · exact OnlyEvents.send h.mk'
    · exact h.addSat _ _ _ (off_ovf _)

theorem toHost_only {s0 s : State} (h : OnlyEvents s0 s) (event sev seq detail n byte : Nat) :
    OnlyEvents s0 (s.toHost event sev seq detail n byte) := by
  simp only [State.toHost]
  exact OnlyEvents.ite h.mk' (OnlyEvents.send h.mk')

theorem toHosts_only {s0 s : State} (h : OnlyEvents s0 s) (event sev seq detail : Nat) :
    OnlyEvents s0 (s.toHosts event sev seq detail) := by
  simp only [State.toHosts]
  refine OnlyEvents.ite h (OnlyEvents.foldl _ h fun t a ht => OnlyEvents.ite (toHost_only ht ..) ht)

theorem raiseOverflow_only {s0 s : State} (h : OnlyEvents s0 s) : OnlyEvents s0 s.raiseOverflow := by
  simp only [State.raiseOverflow]
  exact OnlyEvents.ite (toHosts_only (pbRecord_only (OnlyEvents.addSat h.mk' _ _ _ (off_evt _)) ..) ..) h

theorem raiseDropped_only {s0 s : State} (h : OnlyEvents s0 s) : OnlyEvents s0 s.raiseDropped := by
  simp only [State.raiseDropped]
  refine OnlyEvents.ite ?_ h
  have k := toHosts_only (toCore_only (OnlyEvents.addSat (h.mk' (evt := s.evt) (pb := (
    { s.pb with droppedAt := some s.clock } : PBook))) F.EVT_SRC_count _ 1 (off_evt Ev.PBOOK_DROPPED)) Ev.PBOOK_DROPPED 1 0 0)
    Ev.PBOOK_DROPPED 1 0 0
  exact OnlyEvents.ite (raiseOverflow_only k) k

theorem raiseSev_only {s0 s : State} (h : OnlyEvents s0 s) (event sev detail : Nat) (record : Bool) :
    OnlyEvents s0 (s.raiseSev event sev detail record) := by
  simp only [State.raiseSev]
  generalize hr : (record || decide (2 ≤ sev) || (s.addSat F.EVT_SRC_count event 1).flag F.EVT_SRC_pbook event) = r
  have k1 := pbRecord_only (h.addSat F.EVT_SRC_count event 1 (off_evt event)) event sev detail r
  generalize ((s.addSat F.EVT_SRC_count event 1).pbRecord event sev detail r) = p at k1
  generalize (if p.1.pbSeq = (s.addSat F.EVT_SRC_count event 1).pbSeq then 0 else (s.addSat F.EVT_SRC_count event 1).pbSeq) = q
  have k2 := toCore_only k1 event sev q detail
  generalize (p.1.toCore event sev q detail) = c at k2
  have k3 := toHosts_only k2 event sev q detail
  have k4 : OnlyEvents s0 (if p.2 = true then (c.1.toHosts event sev q detail).raiseDropped
      else c.1.toHosts event sev q detail) := OnlyEvents.ite (raiseDropped_only k3) k3
  exact OnlyEvents.ite (raiseOverflow_only k4) k4

theorem raiseD_only {s0 s : State} (h : OnlyEvents s0 s) (event detail : Nat) : OnlyEvents s0 (s.raiseD event detail) :=
  raiseSev_only h ..

theorem raise_only {s0 s : State} (h : OnlyEvents s0 s) (event : Nat) : OnlyEvents s0 (s.raise event) := raiseSev_only h ..

/-- A word of a register below the event block after an event. -/
theorem OnlyEvents.word {s t : State} (h : OnlyEvents s t) {r : RegId} {i : Nat} (k : r.off i < 0x2700000) :
    t.regs.word r i = s.regs.word r i := by
  simp only [Regs.word, mapGet, h.live _ k]

theorem OnlyEvents.fld {s t : State} (h : OnlyEvents s t) {f : Fld} {i : Nat} (k : f.reg.off i < 0x2700000) :
    t.regs.fld f i = s.regs.fld f i := by
  simp only [Regs.fld, h.word k]

theorem word_raiseD (s : State) (e d : Nat) {r : RegId} {i : Nat} (k : r.off i < 0x2700000) :
    (s.raiseD e d).regs.word r i = s.regs.word r i := (raiseD_only (.refl s) e d).word k

theorem word_raise (s : State) (e : Nat) {r : RegId} {i : Nat} (k : r.off i < 0x2700000) :
    (s.raise e).regs.word r i = s.regs.word r i := word_raiseD s e 0 k

theorem fld_raiseD (s : State) (e d : Nat) {f : Fld} {i : Nat} (k : f.reg.off i < 0x2700000) :
    (s.raiseD e d).regs.fld f i = s.regs.fld f i := (raiseD_only (.refl s) e d).fld k

theorem fld_raise (s : State) (e : Nat) {f : Fld} {i : Nat} (k : f.reg.off i < 0x2700000) :
    (s.raise e).regs.fld f i = s.regs.fld f i := fld_raiseD s e 0 k

@[simp] theorem raiseD_pending (s : State) (e d : Nat) : (s.raiseD e d).pending = s.pending :=
  (congrArg State.pending (raiseD_only (.refl s) e d).core :)
@[simp] theorem raise_pending (s : State) (e : Nat) : (s.raise e).pending = s.pending := raiseD_pending s e 0
@[simp] theorem raiseD_clock (s : State) (e d : Nat) : (s.raiseD e d).clock = s.clock :=
  (congrArg State.clock (raiseD_only (.refl s) e d).core :)
@[simp] theorem raise_clock (s : State) (e : Nat) : (s.raise e).clock = s.clock := raiseD_clock s e 0
@[simp] theorem raiseD_fresh (s : State) (e d : Nat) : (s.raiseD e d).fresh = s.fresh :=
  (congrArg State.fresh (raiseD_only (.refl s) e d).core :)
@[simp] theorem raise_fresh (s : State) (e : Nat) : (s.raise e).fresh = s.fresh := raiseD_fresh s e 0
@[simp] theorem raiseD_scene (s : State) (e d : Nat) : (s.raiseD e d).scene = s.scene :=
  (congrArg State.scene (raiseD_only (.refl s) e d).core :)
@[simp] theorem raise_scene (s : State) (e : Nat) : (s.raise e).scene = s.scene := raiseD_scene s e 0
@[simp] theorem raiseD_pwr (s : State) (e d : Nat) : (s.raiseD e d).pwr = s.pwr :=
  (congrArg State.pwr (raiseD_only (.refl s) e d).core :)
@[simp] theorem raise_pwr (s : State) (e : Nat) : (s.raise e).pwr = s.pwr := raiseD_pwr s e 0
@[simp] theorem raiseD_host (s : State) (e d : Nat) : (s.raiseD e d).host = s.host :=
  (congrArg State.host (raiseD_only (.refl s) e d).core :)
@[simp] theorem raise_host (s : State) (e : Nat) : (s.raise e).host = s.host := raiseD_host s e 0
@[simp] theorem raiseD_region (s : State) (e d : Nat) : (s.raiseD e d).region = s.region :=
  (congrArg State.region (raiseD_only (.refl s) e d).core :)
@[simp] theorem raise_region (s : State) (e : Nat) : (s.raise e).region = s.region := raiseD_region s e 0
@[simp] theorem raiseD_path (s : State) (e d : Nat) : (s.raiseD e d).path = s.path :=
  (congrArg State.path (raiseD_only (.refl s) e d).core :)
@[simp] theorem raise_path (s : State) (e : Nat) : (s.raise e).path = s.path := raiseD_path s e 0
@[simp] theorem raiseD_cache (s : State) (e d : Nat) : (s.raiseD e d).cache = s.cache :=
  (congrArg State.cache (raiseD_only (.refl s) e d).core :)
@[simp] theorem raise_cache (s : State) (e : Nat) : (s.raise e).cache = s.cache := raiseD_cache s e 0
@[simp] theorem raiseD_dram (s : State) (e d : Nat) : (s.raiseD e d).dram = s.dram :=
  (congrArg State.dram (raiseD_only (.refl s) e d).core :)
@[simp] theorem raise_dram (s : State) (e : Nat) : (s.raise e).dram = s.dram := raiseD_dram s e 0
@[simp] theorem raiseD_ink (s : State) (e d : Nat) : (s.raiseD e d).ink = s.ink :=
  (congrArg State.ink (raiseD_only (.refl s) e d).core :)
@[simp] theorem raise_ink (s : State) (e : Nat) : (s.raise e).ink = s.ink := raiseD_ink s e 0
@[simp] theorem raiseD_flash (s : State) (e d : Nat) : (s.raiseD e d).flash = s.flash :=
  (congrArg State.flash (raiseD_only (.refl s) e d).core :)
@[simp] theorem raise_flash (s : State) (e : Nat) : (s.raise e).flash = s.flash := raiseD_flash s e 0
@[simp] theorem raiseD_stage (s : State) (e d : Nat) : (s.raiseD e d).stage = s.stage :=
  (congrArg State.stage (raiseD_only (.refl s) e d).core :)
@[simp] theorem raise_stage (s : State) (e : Nat) : (s.raise e).stage = s.stage := raiseD_stage s e 0
@[simp] theorem raiseD_twin (s : State) (e d : Nat) : (s.raiseD e d).twin = s.twin :=
  (congrArg State.twin (raiseD_only (.refl s) e d).core :)
@[simp] theorem raise_twin (s : State) (e : Nat) : (s.raise e).twin = s.twin := raiseD_twin s e 0
@[simp] theorem raiseD_integ (s : State) (e d : Nat) : (s.raiseD e d).integ = s.integ :=
  (congrArg State.integ (raiseD_only (.refl s) e d).core :)
@[simp] theorem raise_integ (s : State) (e : Nat) : (s.raise e).integ = s.integ := raiseD_integ s e 0
@[simp] theorem raiseD_maint (s : State) (e d : Nat) : (s.raiseD e d).maint = s.maint :=
  (congrArg State.maint (raiseD_only (.refl s) e d).core :)
@[simp] theorem raise_maint (s : State) (e : Nat) : (s.raise e).maint = s.maint := raiseD_maint s e 0
@[simp] theorem raiseD_sen (s : State) (e d : Nat) : (s.raiseD e d).sen = s.sen :=
  (congrArg State.sen (raiseD_only (.refl s) e d).core :)
@[simp] theorem raise_sen (s : State) (e : Nat) : (s.raise e).sen = s.sen := raiseD_sen s e 0
@[simp] theorem raiseD_core (s : State) (e d : Nat) : (s.raiseD e d).core = s.core :=
  (congrArg State.core (raiseD_only (.refl s) e d).core :)
@[simp] theorem raise_core (s : State) (e : Nat) : (s.raise e).core = s.core := raiseD_core s e 0
@[simp] theorem raiseD_sec (s : State) (e d : Nat) : (s.raiseD e d).sec = s.sec :=
  (congrArg State.sec (raiseD_only (.refl s) e d).core :)
@[simp] theorem raise_sec (s : State) (e : Nat) : (s.raise e).sec = s.sec := raiseD_sec s e 0
@[simp] theorem raiseD_scr (s : State) (e d : Nat) : (s.raiseD e d).scr = s.scr :=
  (congrArg State.scr (raiseD_only (.refl s) e d).core :)
@[simp] theorem raise_scr (s : State) (e : Nat) : (s.raise e).scr = s.scr := raiseD_scr s e 0
@[simp] theorem raiseD_que (s : State) (e d : Nat) : (s.raiseD e d).que = s.que :=
  (congrArg State.que (raiseD_only (.refl s) e d).core :)
@[simp] theorem raise_que (s : State) (e : Nat) : (s.raise e).que = s.que := raiseD_que s e 0

end Sys2Proof.Machine
end

