-- ==== Sys2Proof/Laws/Keeps.lean ====
section
/-! SUPPORT. What `Keeps` is closed under, and the byte memories' canonical form under every memory operation. -/

set_option Elab.async false

namespace Sys2Proof.Machine

theorem Held.Le.refl (a : Held) : a.Le a :=
  ⟨rfl, rfl, List.prefix_rfl, Nat.le_refl _, Nat.le_refl _, List.prefix_rfl, id, id⟩

theorem Held.Le.trans {a b c : Held} (h : a.Le b) (k : b.Le c) : a.Le c :=
  ⟨k.pending.trans h.pending, k.clock.trans h.clock, h.sent.trans k.sent, Nat.le_trans h.fresh k.fresh,
    Nat.le_trans h.boots k.boots, h.seeds.trans k.seeds, fun x => k.paired (h.paired x), fun x => k.mems (h.mems x)⟩

theorem Keeps.refl (s : State) : Keeps s s := Held.Le.refl _

theorem Keeps.trans {s t u : State} (h : Keeps s t) (k : Keeps t u) : Keeps s u := Held.Le.trans h k

/-- A change of nothing that `Held` names. -/
theorem Keeps.upd {s0 s t : State} (h : Keeps s0 s) (e : t.holds = s.holds) : Keeps s0 t := by
  unfold Keeps; rw [e]; exact h

/-- A change of the memories alone that keeps their canonical form. -/
theorem Keeps.updMems {s0 s t : State} (h : Keeps s0 s) (p : t.pending = s.pending) (c : t.clock = s.clock)
    (o : t.sent = s.sent) (f : t.fresh = s.fresh) (b : t.pwr.boots = s.pwr.boots) (d : t.sec.seeds = s.sec.seeds)
    (q : t.twin.pairedEver = s.twin.pairedEver) (k : s.mems.wf = true → t.mems.wf = true) : Keeps s0 t := by
  refine h.trans ⟨p, c, ?_, Nat.le_of_eq f.symm, Nat.le_of_eq b.symm, ?_, fun x => q.trans x, k⟩
  · change s.sent <+: t.sent
    exact o.symm ▸ List.prefix_refl s.sent
  · change s.sec.seeds <+: t.sec.seeds
    exact d.symm ▸ List.prefix_refl s.sec.seeds

/-- The same for a record update of a state. -/
theorem Keeps.mk {s0 s : State} (h : Keeps s0 s) {regs : Regs} {scene : SceneUnit} {pwr : PowerUnit} {evt : EventUnit}
    {pb : PBook} {host : HostUnit} {region : RegionUnit} {path : PathUnit} {cache : CacheUnit} {dram : DramUnit}
    {ink : InkUnit} {flash : FlashUnit} {stage : StageUnit} {twin : TwinUnit} {integ : IntegUnit} {maint : MaintUnit}
    {sen : SentUnit} {core : CoreUnit} {sec : SecUnit} {scr : ScribeUnit} {que : QueueUnit}
    (b : s.pwr.boots ≤ pwr.boots := by with_reducible exact Nat.le_refl _) (d : s.sec.seeds <+: sec.seeds := by with_reducible exact List.prefix_rfl)
    (q : s.twin.pairedEver = true → twin.pairedEver = true := by with_reducible exact fun h => h)
    (m1 : memWf 0 s.dram.cells = true → memWf 0 dram.cells = true := by with_reducible exact fun h => h)
    (m2 : memWf 0 s.dram.second = true → memWf 0 dram.second = true := by with_reducible exact fun h => h)
    (m3 : memWf 0 s.host.lsa = true → memWf 0 host.lsa = true := by with_reducible exact fun h => h)
    (m4 : memWf fwErased s.core.array = true → memWf fwErased core.array = true := by with_reducible exact fun h => h)
    (m5 : memWf 0 s.integ.ctlSram = true → memWf 0 integ.ctlSram = true := by with_reducible exact fun h => h)
    (m6 : memWf 0 s.integ.ctlArea = true → memWf 0 integ.ctlArea = true := by with_reducible exact fun h => h)
    (m7 : memWf 0 s.scr.inkwell = true → memWf 0 scr.inkwell = true := by with_reducible exact fun h => h)
    (m8 : memWf 0 s.scr.reservoir = true → memWf 0 scr.reservoir = true := by with_reducible exact fun h => h)
    (m9 : memWf 0 s.que.window = true → memWf 0 que.window = true := by with_reducible exact fun h => h) :
    Keeps s0 (State.mk s.pending s.clock s.fresh s.sent regs scene pwr evt pb host region path cache dram ink flash stage
      twin integ maint sen core sec scr que) := by
  refine h.trans ⟨rfl, rfl, List.prefix_rfl, Nat.le_refl _, b, d, q, ?_⟩
  simp only [State.holds, State.mems, Mems.wf, Bool.and_eq_true]
  intro k
  exact ⟨⟨⟨⟨⟨⟨⟨⟨m1 k.1.1.1.1.1.1.1.1, m2 k.1.1.1.1.1.1.1.2⟩, m3 k.1.1.1.1.1.1.2⟩, m4 k.1.1.1.1.1.2⟩, m5 k.1.1.1.1.2⟩,
    m6 k.1.1.1.2⟩, m7 k.1.1.2⟩, m8 k.1.2⟩, m9 k.2⟩

/-- A record that takes every field from a state is that state. -/
theorem Keeps.same {s0 s : State} (h : Keeps s0 s) :
    Keeps s0 (State.mk s.pending s.clock s.fresh s.sent s.regs s.scene s.pwr s.evt s.pb s.host s.region s.path s.cache
      s.dram s.ink s.flash s.stage s.twin s.integ s.maint s.sen s.core s.sec s.scr s.que) := h

theorem Keeps.ite {s0 a b : State} {c : Prop} [Decidable c] (ha : Keeps s0 a) (hb : Keeps s0 b) :
    Keeps s0 (if c then a else b) := by
  split
  · exact ha
  · exact hb

/-- A command's outcome keeps what `Keeps` says, if it is a next state. -/
def KeepsRes (s0 : State) (r : Res) : Prop :=
  match r with
  | .next t => Keeps s0 t
  | _ => True

theorem KeepsRes.next {s0 t : State} (h : Keeps s0 t) : KeepsRes s0 (.next t) := h

theorem KeepsRes.ite {s0 : State} {a b : Res} {c : Prop} [Decidable c] (ha : KeepsRes s0 a) (hb : KeepsRes s0 b) :
    KeepsRes s0 (if c then a else b) := by
  split
  · exact ha
  · exact hb

theorem KeepsRes.elim {s0 t : State} {r : Res} (h : KeepsRes s0 r) (e : r = .next t) : Keeps s0 t := by
  rw [e] at h
  exact h

theorem Keeps.foldl {α : Type} {s0 : State} {f : State → α → State} {l : List α} {s : State}
    (hf : ∀ st x, Keeps s0 st → Keeps s0 (f st x)) (h : Keeps s0 s) : Keeps s0 (l.foldl f s) := by
  induction l generalizing s with
  | nil => exact h
  | cons a t ih => exact ih (hf s a h)

/-- A fold over pairs of a state and something else. -/
theorem Keeps.foldlFst {α β : Type} {s0 : State} {f : State × β → α → State × β} {l : List α} {p : State × β}
    (hf : ∀ q x, Keeps s0 q.1 → Keeps s0 (f q x).1) (h : Keeps s0 p.1) : Keeps s0 (l.foldl f p).1 := by
  induction l generalizing p with
  | nil => exact h
  | cons a t ih => exact ih (hf p a h)

/-- A fold over pairs whose second half is the state. -/
theorem Keeps.foldlSnd {α β : Type} {s0 : State} {f : β × State → α → β × State} {l : List α} {p : β × State}
    (hf : ∀ q x, Keeps s0 q.2 → Keeps s0 (f q x).2) (h : Keeps s0 p.2) : Keeps s0 (l.foldl f p).2 := by
  induction l generalizing p with
  | nil => exact h
  | cons a t ih => exact ih (hf p a h)

/-- A state paired with something that may be absent. -/
theorem Keeps.mapPair {α β : Type} {s0 s : State} {o : Option α} {f : α → β} {b : β} {t : State}
    (e : o.map (fun x => (f x, s)) = some (b, t)) (h : Keeps s0 s) : Keeps s0 t := by
  cases o with
  | none => cases e
  | some x =>
    cases e
    exact h

/-- A state that may be absent, with the state that stands for it then. -/
theorem Keeps.getD {s0 s : State} {o : Option State} (ho : ∀ t, o = some t → Keeps s0 t) (h : Keeps s0 s) :
    Keeps s0 (o.getD s) := by
  cases o with
  | none => exact h
  | some t => exact ho t rfl

/-- The first state that a search gives. -/
theorem Keeps.findSome {α β : Type} {s0 : State} {l : List α} {f : α → Option (β × State)} {b : β} {t : State}
    (e : l.findSome? f = some (b, t)) (hf : ∀ x b u, f x = some (b, u) → Keeps s0 u) : Keeps s0 t := by
  obtain ⟨x, _, hx⟩ := List.exists_of_findSome?_eq_some e
  exact hf _ _ _ hx

/-! ### The canonical form of byte memories -/

theorem memWfFrom_mono {d : Byte} {m : List Host.Cell} {a b : Nat} (h : a ≤ b) (k : memWfFrom d b m = true) :
    memWfFrom d a m = true := by
  cases m with
  | nil => rfl
  | cons c t =>
    simp only [memWfFrom, Bool.and_eq_true, decide_eq_true_eq] at k ⊢
    exact ⟨⟨Nat.le_trans h k.1.1, k.1.2⟩, k.2⟩

theorem memWrite_wfFrom {d : Byte} {m : List Host.Cell} {lo a : Nat} {v : Byte} (h : memWfFrom d lo m = true)
    (k : lo ≤ a) : memWfFrom d lo (memWrite d m a v) = true := by
  induction m generalizing lo with
  | nil =>
    unfold memWrite
    split
    · rfl
    · next e => simp [memWfFrom, k, e]
  | cons c t ih =>
    obtain ⟨x, y⟩ := c
    simp only [memWfFrom, Bool.and_eq_true, decide_eq_true_eq] at h
    unfold memWrite
    split
    · next lt =>
      split
      · simp only [memWfFrom, Bool.and_eq_true, decide_eq_true_eq]
        exact h
      · next e =>
        simp only [memWfFrom, Bool.and_eq_true, decide_eq_true_eq]
        exact ⟨⟨k, e⟩, ⟨lt, h.1.2⟩, h.2⟩
    · next ge =>
      split
      · next eq =>
        subst eq
        split
        · exact memWfFrom_mono (Nat.le_succ_of_le h.1.1) h.2
        · next e =>
          simp only [memWfFrom, Bool.and_eq_true, decide_eq_true_eq]
          exact ⟨⟨k, e⟩, h.2⟩
      · next ne =>
        simp only [memWfFrom, Bool.and_eq_true, decide_eq_true_eq]
        exact ⟨h.1, ih h.2 (by omega)⟩

theorem memWf_nil (d : Byte) : memWf d [] = true := rfl

theorem memWrite_wf {d : Byte} {m : List Host.Cell} {a : Nat} {v : Byte} (h : memWf d m = true) :
    memWf d (memWrite d m a v) = true := memWrite_wfFrom h (Nat.zero_le _)

theorem memWriteN_wf {d : Byte} {m : List Host.Cell} {a : Nat} {bs : List Byte} (h : memWf d m = true) :
    memWf d (memWriteN d m a bs) = true := by
  induction bs generalizing m a with
  | nil => exact h
  | cons b t ih => exact ih (memWrite_wf h)

theorem memFilter_wfFrom {d : Byte} {p : Host.Cell → Bool} {m : List Host.Cell} {lo : Nat}
    (h : memWfFrom d lo m = true) : memWfFrom d lo (m.filter p) = true := by
  induction m generalizing lo with
  | nil => rfl
  | cons c t ih =>
    obtain ⟨x, y⟩ := c
    simp only [memWfFrom, Bool.and_eq_true, decide_eq_true_eq] at h
    rw [List.filter_cons]
    split
    · simp only [memWfFrom, Bool.and_eq_true, decide_eq_true_eq]
      exact ⟨h.1, ih h.2⟩
    · exact memWfFrom_mono (Nat.le_succ_of_le h.1.1) (ih h.2)

theorem memFilter_wf {d : Byte} {p : Host.Cell → Bool} {m : List Host.Cell} (h : memWf d m = true) :
    memWf d (m.filter p) = true := memFilter_wfFrom h

theorem memClear_wf {d : Byte} {m : List Host.Cell} {lo hi : Nat} (h : memWf d m = true) :
    memWf d (memClear m lo hi) = true := memFilter_wf h

theorem memPaste_wf {d : Byte} {m : List Host.Cell} {a n : Nat} {cells : List Host.Cell} (h : memWf d m = true) :
    memWf d (memPaste d m a n cells) = true := by
  unfold memPaste
  have k : memWf d (memClear m a (a + n)) = true := memClear_wf h
  revert k
  generalize memClear m a (a + n) = x
  intro k
  induction cells generalizing x with
  | nil => exact k
  | cons c t ih => exact ih _ (memWrite_wf k)

theorem memFold_wf {α : Type} {d : Byte} {f : List Host.Cell → α → List Host.Cell} {l : List α} {m : List Host.Cell}
    (hf : ∀ n x, memWf d n = true → memWf d (f n x) = true) (h : memWf d m = true) : memWf d (l.foldl f m) = true := by
  induction l generalizing m with
  | nil => exact h
  | cons a t ih => exact ih (hf m a h)

theorem memWriteLE_wf {d : Byte} {m : List Host.Cell} {a n v : Nat} (h : memWf d m = true) :
    memWf d (memWriteLE d m a n v) = true := memWriteN_wf h

end Sys2Proof.Machine
end

