-- ==== Sys2Proof/Laws/KeepOps.lean ====
section
/-! SUPPORT. What the operations of Machine/Ops.lean keep. -/

set_option Elab.async false

namespace Sys2Proof.Machine

theorem State.setLive_keeps {z0 : State} {s : State} {r : RegId} {i : Nat} {v : Nat} (hK : Keeps z0 s) :
    Keeps z0 (State.setLive s r i v) := by
  unfold State.setLive
  with_reducible
    repeat' first
      | assumption | intro _ | split | dsimp -iota only | dsimp only
      | ((fail_if_success apply Keeps.same); refine Keeps.mk ?_)

theorem State.setBase_keeps {z0 : State} {s : State} {r : RegId} {i : Nat} {v : Nat} (hK : Keeps z0 s) :
    Keeps z0 (State.setBase s r i v) := by
  unfold State.setBase
  with_reducible
    repeat' first
      | assumption | intro _ | split | dsimp -iota only | dsimp only
      | ((fail_if_success apply Keeps.same); refine Keeps.mk ?_)

theorem State.setFld_keeps {z0 : State} {s : State} {f : Fld} {i : Nat} {v : Nat} (hK : Keeps z0 s) :
    Keeps z0 (State.setFld s f i v) := by
  unfold State.setFld
  with_reducible
    repeat' first
      | assumption | apply State.setLive_keeps | intro _ | split | dsimp -iota only | dsimp only

theorem State.setFlag_keeps {z0 : State} {s : State} {f : Fld} {i : Nat} {b : Bool} (hK : Keeps z0 s) :
    Keeps z0 (State.setFlag s f i b) := by
  unfold State.setFlag
  with_reducible
    repeat' first
      | assumption | apply State.setFld_keeps | intro _ | split | dsimp -iota only | dsimp only

theorem State.addSat_keeps {z0 : State} {s : State} {f : Fld} {i : Nat} {n : Nat} (hK : Keeps z0 s) :
    Keeps z0 (State.addSat s f i n) := by
  unfold State.addSat
  with_reducible
    repeat' first
      | assumption | apply State.setFld_keeps | intro _ | split | dsimp -iota only | dsimp only

theorem State.subFld_keeps {z0 : State} {s : State} {f : Fld} {i : Nat} {n : Nat} (hK : Keeps z0 s) :
    Keeps z0 (State.subFld s f i n) := by
  unfold State.subFld
  with_reducible
    repeat' first
      | assumption | apply State.setFld_keeps | intro _ | split | dsimp -iota only | dsimp only

theorem State.setRw_keeps {z0 : State} {s : State} {f : Fld} {i : Nat} {v : Nat} (hK : Keeps z0 s) :
    Keeps z0 (State.setRw s f i v) := by
  unfold State.setRw
  with_reducible
    repeat' first
      | assumption | apply State.setBase_keeps | apply State.setFld_keeps | intro _ | split | dsimp -iota only
      | dsimp only

theorem State.regWrite_keeps {z0 : State} {s : State} {r : RegId} {i v : Nat} (hK : Keeps z0 s) :
    Keeps z0 (State.regWrite s r i v) := by
  unfold State.regWrite
  with_reducible
    repeat' first
      | assumption | apply State.setLive_keeps | apply State.setBase_keeps | apply Keeps.ite | intro _ | split
      | dsimp -iota only | dsimp only | ((fail_if_success apply Keeps.same); refine Keeps.mk ?_)

theorem State.setTab_keeps {z0 : State} {s : State} {off v : Nat} (hK : Keeps z0 s) :
    Keeps z0 (State.setTab s off v) := by
  unfold State.setTab
  with_reducible
    repeat' first
      | assumption | intro _ | split | dsimp -iota only | dsimp only
      | ((fail_if_success apply Keeps.same); refine Keeps.mk ?_)

theorem State.send_keeps {z0 : State} {s : State} {o : Out} (h : Keeps z0 s) : Keeps z0 (State.send s o) :=
  h.trans ⟨rfl, rfl, List.prefix_append _ _, Nat.le_refl _, Nat.le_refl _, List.prefix_rfl, id, id⟩

theorem State.nextFresh_keeps {z0 : State} {s : State} (h : Keeps z0 s) : Keeps z0 (State.nextFresh s) :=
  h.trans ⟨rfl, rfl, List.prefix_rfl, Nat.le_succ _, Nat.le_refl _, List.prefix_rfl, id, id⟩

theorem State.setPbSeq_keeps {z0 : State} {s : State} {q : Nat} (hK : Keeps z0 s) :
    Keeps z0 (State.setPbSeq s q) := by
  unfold State.setPbSeq
  with_reducible
    repeat' first
      | assumption | apply State.setFld_keeps | intro _ | split | dsimp -iota only | dsimp only

theorem State.pbCounts_keeps {z0 : State} {s : State} (hK : Keeps z0 s) :
    Keeps z0 (State.pbCounts s) := by
  unfold State.pbCounts
  with_reducible
    repeat' first
      | assumption | apply State.setFld_keeps | intro _ | split | dsimp -iota only | dsimp only

theorem State.pbWrite_keeps {z0 : State} {s : State} {kind sev event trigger detail : Nat} {caps : List (Nat × Nat)} (hK : Keeps z0 s) :
    Keeps z0 (State.pbWrite s kind sev event trigger detail caps).1 := by
  unfold State.pbWrite
  with_reducible
    repeat' first
      | assumption | apply State.addSat_keeps | apply State.setPbSeq_keeps | apply State.pbCounts_keeps
      | apply Keeps.ite | intro _ | split | dsimp -iota only | dsimp only
      | ((fail_if_success apply Keeps.same); refine Keeps.mk ?_)

theorem State.pbWrite_keepsE {z0 : State} {s : State} {kind sev event trigger detail : Nat} {caps : List (Nat × Nat)} {tE : State} {uE} (hE : State.pbWrite s kind sev event trigger detail caps = (tE, uE)) (hK : Keeps z0 s) :
    Keeps z0 tE := by
  have k := State.pbWrite_keeps (z0 := z0) (s := s) (kind := kind) (sev := sev) (event := event) (trigger := trigger) (detail := detail) (caps := caps)  hK
  rw [hE] at k
  exact k

theorem State.pbRecord_keeps {z0 : State} {s : State} {event sev detail : Nat} {always : Bool} (hK : Keeps z0 s) :
    Keeps z0 (State.pbRecord s event sev detail always).1 := by
  unfold State.pbRecord
  with_reducible
    repeat' first
      | assumption | apply State.pbWrite_keeps | refine State.pbWrite_keepsE (by assumption) ?_
      | refine Keeps.foldl (fun _ _ _ => ?_) ?_ | refine Keeps.foldlFst (fun _ _ _ => ?_) ?_
      | refine Keeps.foldlSnd (fun _ _ _ => ?_) ?_ | apply Keeps.ite | intro _ | split | dsimp -iota only | dsimp only

theorem State.pbRecord_keepsE {z0 : State} {s : State} {event sev detail : Nat} {always : Bool} {tE : State} {uE} (hE : State.pbRecord s event sev detail always = (tE, uE)) (hK : Keeps z0 s) :
    Keeps z0 tE := by
  have k := State.pbRecord_keeps (z0 := z0) (s := s) (event := event) (sev := sev) (detail := detail) (always := always)  hK
  rw [hE] at k
  exact k

theorem State.dutiesNow_keeps {z0 : State} {s : State} (hK : Keeps z0 s) :
    Keeps z0 (State.dutiesNow s) := by
  unfold State.dutiesNow
  with_reducible
    repeat' first
      | assumption | apply State.setFld_keeps | refine Keeps.foldl (fun _ _ _ => ?_) ?_
      | refine Keeps.foldlFst (fun _ _ _ => ?_) ?_ | refine Keeps.foldlSnd (fun _ _ _ => ?_) ?_ | apply Keeps.ite
      | intro _ | split | dsimp -iota only | dsimp only

theorem State.coresFollow_keeps {z0 : State} {s : State} (hK : Keeps z0 s) :
    Keeps z0 (State.coresFollow s) := by
  unfold State.coresFollow
  with_reducible
    repeat' first
      | assumption | apply State.setFld_keeps | apply State.dutiesNow_keeps | refine Keeps.foldl (fun _ _ _ => ?_) ?_
      | refine Keeps.foldlFst (fun _ _ _ => ?_) ?_ | refine Keeps.foldlSnd (fun _ _ _ => ?_) ?_ | apply Keeps.ite
      | intro _ | split | dsimp -iota only | dsimp only

theorem State.rollEnd_keeps {z0 : State} {s : State} (hK : Keeps z0 s) :
    Keeps z0 (State.rollEnd s) := by
  unfold State.rollEnd
  with_reducible
    repeat' first
      | assumption | apply State.setRw_keeps | apply State.coresFollow_keeps | intro _ | split | dsimp -iota only
      | dsimp only | ((fail_if_success apply Keeps.same); refine Keeps.mk ?_)

theorem State.toCore_keeps {z0 : State} {s : State} {event sev seq detail : Nat} (hK : Keeps z0 s) :
    Keeps z0 (State.toCore s event sev seq detail).1 := by
  unfold State.toCore
  with_reducible
    repeat' first
      | assumption | apply State.addSat_keeps | apply State.send_keeps | apply Keeps.ite | intro _ | split
      | dsimp -iota only | dsimp only | ((fail_if_success apply Keeps.same); refine Keeps.mk ?_)

theorem State.toCore_keepsE {z0 : State} {s : State} {event sev seq detail : Nat} {tE : State} {uE} (hE : State.toCore s event sev seq detail = (tE, uE)) (hK : Keeps z0 s) :
    Keeps z0 tE := by
  have k := State.toCore_keeps (z0 := z0) (s := s) (event := event) (sev := sev) (seq := seq) (detail := detail)  hK
  rw [hE] at k
  exact k

theorem State.toHost_keeps {z0 : State} {s : State} {event sev seq detail n byte : Nat} (hK : Keeps z0 s) :
    Keeps z0 (State.toHost s event sev seq detail n byte) := by
  unfold State.toHost
  with_reducible
    repeat' first
      | assumption | apply State.send_keeps | apply Keeps.ite | intro _ | split | dsimp -iota only | dsimp only
      | ((fail_if_success apply Keeps.same); refine Keeps.mk ?_)

theorem State.toHosts_keeps {z0 : State} {s : State} {event sev seq detail : Nat} (hK : Keeps z0 s) :
    Keeps z0 (State.toHosts s event sev seq detail) := by
  unfold State.toHosts
  with_reducible
    repeat' first
      | assumption | apply State.toHost_keeps | refine Keeps.foldl (fun _ _ _ => ?_) ?_
      | refine Keeps.foldlFst (fun _ _ _ => ?_) ?_ | refine Keeps.foldlSnd (fun _ _ _ => ?_) ?_ | apply Keeps.ite
      | intro _ | split | dsimp -iota only | dsimp only

theorem State.raiseOverflow_keeps {z0 : State} {s : State} (hK : Keeps z0 s) :
    Keeps z0 (State.raiseOverflow s) := by
  unfold State.raiseOverflow
  with_reducible
    repeat' first
      | assumption | apply State.addSat_keeps | apply State.pbRecord_keeps
      | refine State.pbRecord_keepsE (by assumption) ?_ | apply State.toHosts_keeps | apply Keeps.ite | intro _
      | split | dsimp -iota only | dsimp only | ((fail_if_success apply Keeps.same); refine Keeps.mk ?_)

theorem State.raiseDropped_keeps {z0 : State} {s : State} (hK : Keeps z0 s) :
    Keeps z0 (State.raiseDropped s) := by
  unfold State.raiseDropped
  with_reducible
    repeat' first
      | assumption | apply State.addSat_keeps | apply State.toCore_keeps
      | refine State.toCore_keepsE (by assumption) ?_ | apply State.toHosts_keeps | apply State.raiseOverflow_keeps
      | apply Keeps.ite | intro _ | split | dsimp -iota only | dsimp only
      | ((fail_if_success apply Keeps.same); refine Keeps.mk ?_)

theorem State.raiseSev_keeps {z0 : State} {s : State} {event sev detail : Nat} {record : Bool} (hK : Keeps z0 s) :
    Keeps z0 (State.raiseSev s event sev detail record) := by
  unfold State.raiseSev
  with_reducible
    repeat' first
      | assumption | apply State.addSat_keeps | apply State.pbRecord_keeps
      | refine State.pbRecord_keepsE (by assumption) ?_ | apply State.toCore_keeps
      | refine State.toCore_keepsE (by assumption) ?_ | apply State.toHosts_keeps | apply State.raiseOverflow_keeps
      | apply State.raiseDropped_keeps | apply Keeps.ite | intro _ | split | dsimp -iota only | dsimp only

theorem State.raiseD_keeps {z0 : State} {s : State} {event detail : Nat} (hK : Keeps z0 s) :
    Keeps z0 (State.raiseD s event detail) := by
  unfold State.raiseD
  with_reducible
    repeat' first
      | assumption | apply State.raiseSev_keeps | intro _ | split | dsimp -iota only | dsimp only

theorem State.raise_keeps {z0 : State} {s : State} {event : EvId} (hK : Keeps z0 s) :
    Keeps z0 (State.raise s event) := by
  unfold State.raise
  with_reducible
    repeat' first
      | assumption | apply State.raiseD_keeps | intro _ | split | dsimp -iota only | dsimp only

theorem State.sceneChange_keeps {z0 : State} {s : State} {setBits clearBits : Nat} (hK : Keeps z0 s) :
    Keeps z0 (State.sceneChange s setBits clearBits) := by
  unfold State.sceneChange
  with_reducible
    repeat' first
      | assumption | apply State.setFlag_keeps | apply Keeps.ite | intro _ | split | dsimp -iota only | dsimp only
      | ((fail_if_success apply Keeps.same); refine Keeps.mk ?_)

theorem State.sample_keeps {z0 : State} {s : State} {idx v : Nat} (hK : Keeps z0 s) :
    Keeps z0 (State.sample s idx v) := by
  unfold State.sample
  with_reducible
    repeat' first
      | assumption | intro _ | split | dsimp -iota only | dsimp only
      | ((fail_if_success apply Keeps.same); refine Keeps.mk ?_)

theorem State.answer_keeps {z0 : State} {s : State} {mb opcode status : Nat} {output : List Byte} (hK : Keeps z0 s) :
    Keeps z0 (State.answer s mb opcode status output) := by
  unfold State.answer
  with_reducible
    repeat' first
      | assumption | apply State.send_keeps | intro _ | split | dsimp -iota only | dsimp only

theorem State.linkLeave_keeps {z0 : State} {s : State} {link : Nat} (hK : Keeps z0 s) :
    Keeps z0 (State.linkLeave s link) := by
  unfold State.linkLeave
  with_reducible
    repeat' first
      | assumption | apply State.setFld_keeps | apply State.setFlag_keeps | apply State.raise_keeps | apply Keeps.ite
      | intro _ | split | dsimp -iota only | dsimp only

theorem State.linksIdle_keeps {z0 : State} {s : State} (hK : Keeps z0 s) :
    Keeps z0 (State.linksIdle s) := by
  unfold State.linksIdle
  with_reducible
    repeat' first
      | assumption | apply State.linkLeave_keeps | refine Keeps.foldl (fun _ _ _ => ?_) ?_
      | refine Keeps.foldlFst (fun _ _ _ => ?_) ?_ | refine Keeps.foldlSnd (fun _ _ _ => ?_) ?_ | apply Keeps.ite
      | intro _ | split | dsimp -iota only | dsimp only

end Sys2Proof.Machine
end

