-- ==== Sys2Proof/Laws/KeepRegions.lean ====
section
/-! SUPPORT. What the operations of Machine/Regions.lean keep. -/

set_option Elab.async false

namespace Sys2Proof.Machine

theorem State.setMirrorPending_keeps {z0 : State} {s : State} {r : Nat} {b : Bool} (hK : Keeps z0 s) :
    Keeps z0 (State.setMirrorPending s r b) := by
  unfold State.setMirrorPending
  with_reducible
    repeat' first
      | assumption | apply State.setTab_keeps | intro _ | split | dsimp -iota only | dsimp only

theorem State.setMode_keeps {z0 : State} {s : State} {link : Nat} (hK : Keeps z0 s) :
    Keeps z0 (State.setMode s link) := by
  unfold State.setMode
  with_reducible
    repeat' first
      | assumption | apply Keeps.ite | intro _ | split | dsimp -iota only | dsimp only
      | ((fail_if_success apply Keeps.same); refine Keeps.mk ?_)

theorem State.violation_keeps {z0 : State} {s : State} {link key : Nat} {store hpa : Bool} {ident : Option Nat} {cause addr : Nat} (hK : Keeps z0 s) :
    Keeps z0 (State.violation s link key store hpa ident cause addr) := by
  unfold State.violation
  with_reducible
    repeat' first
      | assumption | apply State.setLive_keeps | apply State.addSat_keeps | apply State.raiseD_keeps | intro _ | split
      | dsimp -iota only | dsimp only

end Sys2Proof.Machine
end

