-- ==== Sys2Proof/Laws/KeepMemory.lean ====
section
/-! SUPPORT. What the operations of Machine/Memory.lean keep. -/

set_option Elab.async false

namespace Sys2Proof.Machine

theorem State.setFolio_keeps {z0 : State} {s : State} {f : Nat} {x : Folio} (hK : Keeps z0 s) :
    Keeps z0 (State.setFolio s f x) := by
  unfold State.setFolio
  with_reducible
    repeat' first
      | assumption | intro _ | split | dsimp -iota only | dsimp only
      | ((fail_if_success apply Keeps.same); refine Keeps.mk ?_)

theorem State.takeFrameOf_keepsE {z0 : State} {s : State} {ok : Nat → Bool} {uE} {tE : State} (hE : State.takeFrameOf s ok = some (uE, tE)) (hK : Keeps z0 s) :
    Keeps z0 tE := by
  unfold State.takeFrameOf at hE
  repeat' (first | split at hE | dsimp only at hE)
  all_goals (first | cases hE | skip)
  with_reducible
    repeat' first
      | assumption | apply Keeps.ite | intro _ | split | dsimp -iota only | dsimp only
      | ((fail_if_success apply Keeps.same); refine Keeps.mk ?_)

theorem State.takeFrame_keepsE {z0 : State} {s : State} {uE} {tE : State} (hE : State.takeFrame s = some (uE, tE)) (hK : Keeps z0 s) :
    Keeps z0 tE := by
  unfold State.takeFrame at hE
  repeat' (first | split at hE | dsimp only at hE)
  all_goals (first | cases hE | skip)
  with_reducible
    repeat' first
      | assumption | refine State.takeFrameOf_keepsE (by assumption) ?_ | intro _ | split | dsimp -iota only
      | dsimp only

theorem State.touch_keeps {z0 : State} {s : State} {e : Rgn} {f : Nat} (hK : Keeps z0 s) :
    Keeps z0 (State.touch s e f) := by
  unfold State.touch
  with_reducible
    repeat' first
      | assumption | apply State.setFolio_keeps | refine State.takeFrame_keepsE (by assumption) ?_ | apply Keeps.ite
      | intro _ | split | dsimp -iota only | dsimp only | ((fail_if_success apply Keeps.same); refine Keeps.mk ?_)

theorem State.setChan_keeps {z0 : State} {s : State} {c : Nat} {x : Chan} (hK : Keeps z0 s) :
    Keeps z0 (State.setChan s c x) := by
  unfold State.setChan
  with_reducible
    repeat' first
      | assumption | intro _ | split | dsimp -iota only | dsimp only
      | ((fail_if_success apply Keeps.same); refine Keeps.mk ?_)

theorem State.wakeChan_keeps {z0 : State} {s : State} {dpa : Nat} (hK : Keeps z0 s) :
    Keeps z0 (State.wakeChan s dpa) := by
  unfold State.wakeChan
  with_reducible
    repeat' first
      | assumption | apply State.setFlag_keeps | apply State.setChan_keeps | intro _ | split | dsimp -iota only
      | dsimp only | ((fail_if_success apply Keeps.same); refine Keeps.mk ?_)

theorem State.addInk_keeps {z0 : State} {s : State} {r : Option Nat} {n : Nat} (hK : Keeps z0 s) :
    Keeps z0 (State.addInk s r n) := by
  unfold State.addInk
  with_reducible
    repeat' first
      | assumption | apply State.addSat_keeps | apply State.setTab_keeps | intro _ | split | dsimp -iota only
      | dsimp only

theorem State.subInk_keeps {z0 : State} {s : State} {r : Option Nat} {n : Nat} (hK : Keeps z0 s) :
    Keeps z0 (State.subInk s r n) := by
  unfold State.subInk
  with_reducible
    repeat' first
      | assumption | apply State.subFld_keeps | apply State.setTab_keeps | intro _ | split | dsimp -iota only
      | dsimp only

theorem State.dirtyFolio_keeps {z0 : State} {s : State} {f : Nat} (hK : Keeps z0 s) :
    Keeps z0 (State.dirtyFolio s f) := by
  unfold State.dirtyFolio
  with_reducible
    repeat' first
      | assumption | apply State.setFolio_keeps | apply State.addInk_keeps | apply Keeps.ite | intro _ | split
      | dsimp -iota only | dsimp only | ((fail_if_success apply Keeps.same); refine Keeps.mk ?_)

theorem State.dramPut_keeps {z0 : State} {s0 : State} {line mask : Nat} {data : Line} (hK : Keeps z0 s0) :
    Keeps z0 (State.dramPut s0 line mask data) := by
  unfold State.dramPut
  repeat' first
    | with_reducible assumption
    | with_reducible exact Keeps.refl _
    | (with_reducible refine State.wakeChan_keeps ?_)
    | (with_reducible refine Keeps.getD ?_ ?_)
    | (with_reducible refine Keeps.mapPair (by assumption) ?_)
    | (with_reducible refine Keeps.foldl (fun st x hst => ?_) ?_)
    | (with_reducible refine Keeps.foldlFst (fun st x hst => ?_) ?_)
    | (with_reducible refine Keeps.foldlSnd (fun st x hst => ?_) ?_)
    | (with_reducible refine Keeps.ite ?_ ?_)
    | intro _
    | split
    | dsimp -iota only
    | dsimp only
    | dsimp only [id]
    | exact memWf_nil _
    | (fail_if_success (with_reducible refine Keeps.same ?_)
       with_reducible refine Keeps.mk ?_ ?_ ?_ ?_ ?_ ?_ ?_ ?_ ?_ ?_ ?_ ?_ ?_ <;>
         first | with_reducible exact Nat.le_refl _ | with_reducible exact List.prefix_rfl | with_reducible exact fun hm => hm |
           with_reducible exact List.prefix_append _ _ | with_reducible exact Nat.le_succ _ | with_reducible exact memWriteN_wf | with_reducible exact memClear_wf |
           with_reducible exact memPaste_wf | with_reducible exact memWrite_wf | with_reducible exact memWriteLE_wf | with_reducible exact fun _ => rfl | exact fun _ => memWf_nil _ |
           with_reducible exact fun hm => memWriteN_wf (memWriteN_wf hm) | exact fun _ => rfl |
           exact fun hm => memFold_wf (fun m y hh => memWrite_wf hh) hm |
           exact fun _ => memFold_wf (fun m y hh => memWrite_wf hh) (memWf_nil _) | skip)

theorem State.mergeOut_keeps {z0 : State} {s : State} {m : MergeEntry} (hK : Keeps z0 s) :
    Keeps z0 (State.mergeOut s m) := by
  unfold State.mergeOut
  with_reducible
    repeat' first
      | assumption | apply State.dramPut_keeps | intro _ | split | dsimp -iota only | dsimp only
      | ((fail_if_success apply Keeps.same); refine Keeps.mk ?_)

theorem State.mergeDrain_keeps {z0 : State} {s : State} (hK : Keeps z0 s) :
    Keeps z0 (State.mergeDrain s) := by
  unfold State.mergeDrain
  with_reducible
    repeat' first
      | assumption | apply State.mergeOut_keeps | refine Keeps.foldl (fun _ _ _ => ?_) ?_
      | refine Keeps.foldlFst (fun _ _ _ => ?_) ?_ | refine Keeps.foldlSnd (fun _ _ _ => ?_) ?_ | intro _ | split
      | dsimp -iota only | dsimp only

theorem State.dramWrite_keeps {z0 : State} {s0 : State} {line mask : Nat} {data : Line} (hK : Keeps z0 s0) :
    Keeps z0 (State.dramWrite s0 line mask data) := by
  unfold State.dramWrite
  with_reducible
    repeat' first
      | assumption | apply State.wakeChan_keeps | apply State.dramPut_keeps | apply State.mergeOut_keeps
      | apply Keeps.ite | intro _ | split | dsimp -iota only | dsimp only
      | ((fail_if_success apply Keeps.same); refine Keeps.mk ?_)

theorem State.frameBeside_keepsE {z0 : State} {s : State} {own : Nat} {uE} {tE : State} (hE : State.frameBeside s own = some (uE, tE)) (hK : Keeps z0 s) :
    Keeps z0 tE := by
  unfold State.frameBeside at hE
  repeat' (first | split at hE | dsimp only at hE)
  all_goals (first | cases hE | skip)
  with_reducible
    repeat' first
      | assumption | refine State.takeFrameOf_keepsE (by assumption) ?_ | intro _ | split | dsimp -iota only
      | dsimp only

theorem State.pairFrameFor_keepsE {z0 : State} {s : State} {x : Folio} {uE} {tE : State} (hE : State.pairFrameFor s x = some (uE, tE)) (hK : Keeps z0 s) :
    Keeps z0 tE := by
  unfold State.pairFrameFor at hE
  repeat' (first | split at hE | dsimp only at hE)
  all_goals (first | cases hE | skip)
  with_reducible
    repeat' first
      | assumption | refine State.takeFrame_keepsE (by assumption) ?_
      | refine State.frameBeside_keepsE (by assumption) ?_ | apply Keeps.ite | intro _ | split | dsimp -iota only
      | dsimp only

theorem State.takePair_keeps {z0 : State} {s : State} {f : Nat} (hK : Keeps z0 s) :
    Keeps z0 (State.takePair s f) := by
  unfold State.takePair
  repeat' first
    | with_reducible assumption
    | with_reducible exact Keeps.refl _
    | (with_reducible refine State.setFolio_keeps ?_)
    | (with_reducible refine State.pairFrameFor_keepsE (by assumption) ?_)
    | (with_reducible refine Keeps.getD ?_ ?_)
    | (with_reducible refine Keeps.mapPair (by assumption) ?_)
    | (with_reducible refine Keeps.foldl (fun st x hst => ?_) ?_)
    | (with_reducible refine Keeps.foldlFst (fun st x hst => ?_) ?_)
    | (with_reducible refine Keeps.foldlSnd (fun st x hst => ?_) ?_)
    | (with_reducible refine Keeps.ite ?_ ?_)
    | intro _
    | split
    | dsimp -iota only
    | dsimp only
    | dsimp only [id]
    | exact memWf_nil _
    | (fail_if_success (with_reducible refine Keeps.same ?_)
       with_reducible refine Keeps.mk ?_ ?_ ?_ ?_ ?_ ?_ ?_ ?_ ?_ ?_ ?_ ?_ ?_ <;>
         first | with_reducible exact Nat.le_refl _ | with_reducible exact List.prefix_rfl | with_reducible exact fun hm => hm |
           with_reducible exact List.prefix_append _ _ | with_reducible exact Nat.le_succ _ | with_reducible exact memWriteN_wf | with_reducible exact memClear_wf |
           with_reducible exact memPaste_wf | with_reducible exact memWrite_wf | with_reducible exact memWriteLE_wf | with_reducible exact fun _ => rfl | exact fun _ => memWf_nil _ |
           with_reducible exact fun hm => memWriteN_wf (memWriteN_wf hm) | exact fun _ => rfl |
           exact fun hm => memFold_wf (fun m y hh => memWrite_wf hh) hm |
           exact fun _ => memFold_wf (fun m y hh => memWrite_wf hh) (memWf_nil _) | skip)

theorem State.wakePair_keeps {z0 : State} {s : State} {f : Nat} (hK : Keeps z0 s) :
    Keeps z0 (State.wakePair s f) := by
  unfold State.wakePair
  with_reducible
    repeat' first
      | assumption | apply State.setFlag_keeps | apply State.setChan_keeps | intro _ | split | dsimp -iota only
      | dsimp only | ((fail_if_success apply Keeps.same); refine Keeps.mk ?_)

theorem State.secondWrite_keeps {z0 : State} {s0 : State} {line mask : Nat} {data : Line} (hK : Keeps z0 s0) :
    Keeps z0 (State.secondWrite s0 line mask data) := by
  unfold State.secondWrite
  repeat' first
    | with_reducible assumption
    | with_reducible exact Keeps.refl _
    | (with_reducible refine State.setFolio_keeps ?_)
    | (with_reducible refine State.takePair_keeps ?_)
    | (with_reducible refine State.wakePair_keeps ?_)
    | (with_reducible refine Keeps.getD ?_ ?_)
    | (with_reducible refine Keeps.mapPair (by assumption) ?_)
    | (with_reducible refine Keeps.foldl (fun st x hst => ?_) ?_)
    | (with_reducible refine Keeps.foldlFst (fun st x hst => ?_) ?_)
    | (with_reducible refine Keeps.foldlSnd (fun st x hst => ?_) ?_)
    | (with_reducible refine Keeps.ite ?_ ?_)
    | intro _
    | split
    | dsimp -iota only
    | dsimp only
    | dsimp only [id]
    | exact memWf_nil _
    | (fail_if_success (with_reducible refine Keeps.same ?_)
       with_reducible refine Keeps.mk ?_ ?_ ?_ ?_ ?_ ?_ ?_ ?_ ?_ ?_ ?_ ?_ ?_ <;>
         first | with_reducible exact Nat.le_refl _ | with_reducible exact List.prefix_rfl | with_reducible exact fun hm => hm |
           with_reducible exact List.prefix_append _ _ | with_reducible exact Nat.le_succ _ | with_reducible exact memWriteN_wf | with_reducible exact memClear_wf |
           with_reducible exact memPaste_wf | with_reducible exact memWrite_wf | with_reducible exact memWriteLE_wf | with_reducible exact fun _ => rfl | exact fun _ => memWf_nil _ |
           with_reducible exact fun hm => memWriteN_wf (memWriteN_wf hm) | exact fun _ => rfl |
           exact fun hm => memFold_wf (fun m y hh => memWrite_wf hh) hm |
           exact fun _ => memFold_wf (fun m y hh => memWrite_wf hh) (memWf_nil _) | skip)

theorem State.markLine_keeps {z0 : State} {s : State} {line : Nat} (hK : Keeps z0 s) :
    Keeps z0 (State.markLine s line) := by
  unfold State.markLine
  with_reducible
    repeat' first
      | assumption | apply State.setFolio_keeps | apply Keeps.ite | intro _ | split | dsimp -iota only | dsimp only
      | ((fail_if_success apply Keeps.same); refine Keeps.mk ?_)

theorem State.dramStore_keeps {z0 : State} {s : State} {e : Rgn} {line mask : Nat} {data : Line} (hK : Keeps z0 s) :
    Keeps z0 (State.dramStore s e line mask data) := by
  unfold State.dramStore
  with_reducible
    repeat' first
      | assumption | apply State.dramWrite_keeps | apply State.secondWrite_keeps | apply State.markLine_keeps
      | apply Keeps.ite | intro _ | split | dsimp -iota only | dsimp only

theorem State.cacheCount_keeps {z0 : State} {s : State} (hK : Keeps z0 s) :
    Keeps z0 (State.cacheCount s) := by
  unfold State.cacheCount
  with_reducible
    repeat' first
      | assumption | apply State.setFld_keeps | intro _ | split | dsimp -iota only | dsimp only

theorem State.setWay_keeps {z0 : State} {s : State} {k : Nat} {c : CLine} (hK : Keeps z0 s) :
    Keeps z0 (State.setWay s k c) := by
  unfold State.setWay
  with_reducible
    repeat' first
      | assumption | apply State.cacheCount_keeps | intro _ | split | dsimp -iota only | dsimp only
      | ((fail_if_success apply Keeps.same); refine Keeps.mk ?_)

theorem State.dropWay_keeps {z0 : State} {s : State} {k : Nat} (hK : Keeps z0 s) :
    Keeps z0 (State.dropWay s k) := by
  unfold State.dropWay
  with_reducible
    repeat' first
      | assumption | apply State.cacheCount_keeps | intro _ | split | dsimp -iota only | dsimp only
      | ((fail_if_success apply Keeps.same); refine Keeps.mk ?_)

theorem State.writeBack_keeps {z0 : State} {s : State} {k : Nat} {c : CLine} (hK : Keeps z0 s) :
    Keeps z0 (State.writeBack s k c) := by
  unfold State.writeBack
  with_reducible
    repeat' first
      | assumption | apply State.dramStore_keeps | apply State.cacheCount_keeps | apply Keeps.ite | intro _ | split
      | dsimp -iota only | dsimp only | ((fail_if_success apply Keeps.same); refine Keeps.mk ?_)

theorem State.allocLine_keeps {z0 : State} {s : State} {wmask line : Nat} {dirty : Bool} {data : Line} (hK : Keeps z0 s) :
    Keeps z0 (State.allocLine s wmask line dirty data).1 := by
  unfold State.allocLine
  with_reducible
    repeat' first
      | assumption | apply State.setWay_keeps | apply State.writeBack_keeps | intro _ | split | dsimp -iota only
      | dsimp only

theorem State.allocLine_keepsE {z0 : State} {s : State} {wmask line : Nat} {dirty : Bool} {data : Line} {tE : State} {uE} (hE : State.allocLine s wmask line dirty data = (tE, uE)) (hK : Keeps z0 s) :
    Keeps z0 tE := by
  have k := State.allocLine_keeps (z0 := z0) (s := s) (wmask := wmask) (line := line) (dirty := dirty) (data := data)  hK
  rw [hE] at k
  exact k

theorem State.loadLine_keeps {z0 : State} {s : State} {e : Rgn} {wmask line : Nat} (hK : Keeps z0 s) :
    Keeps z0 (State.loadLine s e wmask line).2 := by
  unfold State.loadLine
  with_reducible
    repeat' first
      | assumption | apply State.wakeChan_keeps | apply State.setWay_keeps | apply State.dropWay_keeps
      | apply State.writeBack_keeps | apply State.allocLine_keeps | refine State.allocLine_keepsE (by assumption) ?_
      | apply Keeps.ite | intro _ | split | dsimp -iota only | dsimp only

theorem State.loadLine_keepsE {z0 : State} {s : State} {e : Rgn} {wmask line : Nat} {tE : State} {uE} (hE : State.loadLine s e wmask line = (uE, tE)) (hK : Keeps z0 s) :
    Keeps z0 tE := by
  have k := State.loadLine_keeps (z0 := z0) (s := s) (e := e) (wmask := wmask) (line := line)  hK
  rw [hE] at k
  exact k

theorem State.storeLine_keeps {z0 : State} {s : State} {e : Rgn} {wmask : Nat} {w : LineWrite} (hK : Keeps z0 s) :
    Keeps z0 (State.storeLine s e wmask w) := by
  unfold State.storeLine
  with_reducible
    repeat' first
      | assumption | apply State.secondWrite_keeps | apply State.dramStore_keeps | apply State.setWay_keeps
      | apply State.dropWay_keeps | apply State.writeBack_keeps | apply State.allocLine_keeps
      | refine State.allocLine_keepsE (by assumption) ?_ | apply Keeps.ite | intro _ | split | dsimp -iota only
      | dsimp only | ((fail_if_success apply Keeps.same); refine Keeps.mk ?_)

theorem State.dropFolioLines_keeps {z0 : State} {s : State} {f : Nat} (hK : Keeps z0 s) :
    Keeps z0 (State.dropFolioLines s f) := by
  unfold State.dropFolioLines
  with_reducible
    repeat' first
      | assumption | apply State.cacheCount_keeps | intro _ | split | dsimp -iota only | dsimp only
      | ((fail_if_success apply Keeps.same); refine Keeps.mk ?_)

theorem State.cleanFolioLines_keeps {z0 : State} {s : State} {f : Nat} (hK : Keeps z0 s) :
    Keeps z0 (State.cleanFolioLines s f) := by
  unfold State.cleanFolioLines
  with_reducible
    repeat' first
      | assumption | apply State.writeBack_keeps | refine Keeps.foldl (fun _ _ _ => ?_) ?_
      | refine Keeps.foldlFst (fun _ _ _ => ?_) ?_ | refine Keeps.foldlSnd (fun _ _ _ => ?_) ?_ | intro _ | split
      | dsimp -iota only | dsimp only

theorem State.mergeFolio_keeps {z0 : State} {s : State} {f : Nat} (hK : Keeps z0 s) :
    Keeps z0 (State.mergeFolio s f) := by
  unfold State.mergeFolio
  with_reducible
    repeat' first
      | assumption | apply State.mergeOut_keeps | refine Keeps.foldl (fun _ _ _ => ?_) ?_
      | refine Keeps.foldlFst (fun _ _ _ => ?_) ?_ | refine Keeps.foldlSnd (fun _ _ _ => ?_) ?_ | intro _ | split
      | dsimp -iota only | dsimp only

theorem State.cleanWays_keeps {z0 : State} {s : State} {sel : Nat → CLine → Bool} (hK : Keeps z0 s) :
    Keeps z0 (State.cleanWays s sel) := by
  unfold State.cleanWays
  with_reducible
    repeat' first
      | assumption | apply State.writeBack_keeps | refine Keeps.foldl (fun _ _ _ => ?_) ?_
      | refine Keeps.foldlFst (fun _ _ _ => ?_) ?_ | refine Keeps.foldlSnd (fun _ _ _ => ?_) ?_ | intro _ | split
      | dsimp -iota only | dsimp only

theorem State.invalidateWays_keeps {z0 : State} {s : State} {sel : Nat → CLine → Bool} (hK : Keeps z0 s) :
    Keeps z0 (State.invalidateWays s sel) := by
  unfold State.invalidateWays
  with_reducible
    repeat' first
      | assumption | apply State.cacheCount_keeps | apply State.cleanWays_keeps | intro _ | split | dsimp -iota only
      | dsimp only | ((fail_if_success apply Keeps.same); refine Keeps.mk ?_)

theorem State.flushWays_keeps {z0 : State} {s : State} {sel : Nat → CLine → Bool} (hK : Keeps z0 s) :
    Keeps z0 (State.flushWays s sel) := by
  unfold State.flushWays
  with_reducible
    repeat' first
      | assumption | apply State.cleanWays_keeps | apply State.invalidateWays_keeps | intro _ | split
      | dsimp -iota only | dsimp only

theorem State.allocFolio_keeps {z0 : State} {s : State} {cls f : Nat} (hK : Keeps z0 s) :
    Keeps z0 (State.allocFolio s cls f) := by
  unfold State.allocFolio
  with_reducible
    repeat' first
      | assumption | apply State.allocLine_keeps | refine State.allocLine_keepsE (by assumption) ?_
      | refine Keeps.foldl (fun _ _ _ => ?_) ?_ | refine Keeps.foldlFst (fun _ _ _ => ?_) ?_
      | refine Keeps.foldlSnd (fun _ _ _ => ?_) ?_ | apply Keeps.ite | intro _ | split | dsimp -iota only | dsimp only

theorem State.folioCells_keeps {z0 : State} {s : State} {f : Nat} (hK : Keeps z0 s) :
    Keeps z0 (State.folioCells s f).2 := by
  unfold State.folioCells
  with_reducible
    repeat' first
      | assumption | apply State.cleanFolioLines_keeps | apply State.mergeFolio_keeps | intro _ | split
      | dsimp -iota only | dsimp only

theorem State.folioCells_keepsE {z0 : State} {s : State} {f : Nat} {tE : State} {uE} (hE : State.folioCells s f = (uE, tE)) (hK : Keeps z0 s) :
    Keeps z0 tE := by
  have k := State.folioCells_keeps (z0 := z0) (s := s) (f := f)  hK
  rw [hE] at k
  exact k

theorem State.folioPut_keeps {z0 : State} {s : State} {f : Nat} {cells : List Host.Cell} (hK : Keeps z0 s) :
    Keeps z0 (State.folioPut s f cells) := by
  unfold State.folioPut
  repeat' first
    | with_reducible assumption
    | with_reducible exact Keeps.refl _
    | (with_reducible refine State.dropFolioLines_keeps ?_)
    | (with_reducible refine Keeps.getD ?_ ?_)
    | (with_reducible refine Keeps.mapPair (by assumption) ?_)
    | (with_reducible refine Keeps.foldl (fun st x hst => ?_) ?_)
    | (with_reducible refine Keeps.foldlFst (fun st x hst => ?_) ?_)
    | (with_reducible refine Keeps.foldlSnd (fun st x hst => ?_) ?_)
    | (with_reducible refine Keeps.ite ?_ ?_)
    | intro _
    | split
    | dsimp -iota only
    | dsimp only
    | dsimp only [id]
    | exact memWf_nil _
    | (fail_if_success (with_reducible refine Keeps.same ?_)
       with_reducible refine Keeps.mk ?_ ?_ ?_ ?_ ?_ ?_ ?_ ?_ ?_ ?_ ?_ ?_ ?_ <;>
         first | with_reducible exact Nat.le_refl _ | with_reducible exact List.prefix_rfl | with_reducible exact fun hm => hm |
           with_reducible exact List.prefix_append _ _ | with_reducible exact Nat.le_succ _ | with_reducible exact memWriteN_wf | with_reducible exact memClear_wf |
           with_reducible exact memPaste_wf | with_reducible exact memWrite_wf | with_reducible exact memWriteLE_wf | with_reducible exact fun _ => rfl | exact fun _ => memWf_nil _ |
           with_reducible exact fun hm => memWriteN_wf (memWriteN_wf hm) | exact fun _ => rfl |
           exact fun hm => memFold_wf (fun m y hh => memWrite_wf hh) hm |
           exact fun _ => memFold_wf (fun m y hh => memWrite_wf hh) (memWf_nil _) | skip)

theorem State.folioErase_keeps {z0 : State} {s : State} {f : Nat} (hK : Keeps z0 s) :
    Keeps z0 (State.folioErase s f) := by
  unfold State.folioErase
  with_reducible
    repeat' first
      | assumption | apply State.folioPut_keeps | intro _ | split | dsimp -iota only | dsimp only

theorem State.overlaySecond_keeps {z0 : State} {s : State} {f mask : Nat} (hK : Keeps z0 s) :
    Keeps z0 (State.overlaySecond s f mask) := by
  unfold State.overlaySecond
  with_reducible
    repeat' first
      | assumption | apply State.dramPut_keeps | refine Keeps.foldl (fun _ _ _ => ?_) ?_
      | refine Keeps.foldlFst (fun _ _ _ => ?_) ?_ | refine Keeps.foldlSnd (fun _ _ _ => ?_) ?_ | apply Keeps.ite
      | intro _ | split | dsimp -iota only | dsimp only

theorem State.sendAhead_keeps {z0 : State} {s : State} {f : Nat} (hK : Keeps z0 s) :
    Keeps z0 (State.sendAhead s f) := by
  unfold State.sendAhead
  with_reducible
    repeat' first
      | assumption | apply State.setFolio_keeps | apply Keeps.ite | intro _ | split | dsimp -iota only | dsimp only
      | ((fail_if_success apply Keeps.same); refine Keeps.mk ?_)

theorem State.keyCount_keeps {z0 : State} {s : State} (hK : Keeps z0 s) :
    Keeps z0 (State.keyCount s) := by
  unfold State.keyCount
  with_reducible
    repeat' first
      | assumption | apply State.setFld_keeps | intro _ | split | dsimp -iota only | dsimp only

theorem State.setKeySlot_keeps {z0 : State} {s : State} {k state kind : Nat} (hK : Keeps z0 s) :
    Keeps z0 (State.setKeySlot s k state kind) := by
  unfold State.setKeySlot
  with_reducible
    repeat' first
      | assumption | apply State.setFld_keeps | apply State.keyCount_keeps | intro _ | split | dsimp -iota only
      | dsimp only

theorem State.framePut_keeps {z0 : State} {s : State} {f : Nat} {cells : List Host.Cell} (hK : Keeps z0 s) :
    Keeps z0 (State.framePut s f cells) := by
  unfold State.framePut
  repeat' first
    | with_reducible assumption
    | with_reducible exact Keeps.refl _
    | (with_reducible refine Keeps.getD ?_ ?_)
    | (with_reducible refine Keeps.mapPair (by assumption) ?_)
    | (with_reducible refine Keeps.foldl (fun st x hst => ?_) ?_)
    | (with_reducible refine Keeps.foldlFst (fun st x hst => ?_) ?_)
    | (with_reducible refine Keeps.foldlSnd (fun st x hst => ?_) ?_)
    | (with_reducible refine Keeps.ite ?_ ?_)
    | intro _
    | split
    | dsimp -iota only
    | dsimp only
    | dsimp only [id]
    | exact memWf_nil _
    | (fail_if_success (with_reducible refine Keeps.same ?_)
       with_reducible refine Keeps.mk ?_ ?_ ?_ ?_ ?_ ?_ ?_ ?_ ?_ ?_ ?_ ?_ ?_ <;>
         first | with_reducible exact Nat.le_refl _ | with_reducible exact List.prefix_rfl | with_reducible exact fun hm => hm |
           with_reducible exact List.prefix_append _ _ | with_reducible exact Nat.le_succ _ | with_reducible exact memWriteN_wf | with_reducible exact memClear_wf |
           with_reducible exact memPaste_wf | with_reducible exact memWrite_wf | with_reducible exact memWriteLE_wf | with_reducible exact fun _ => rfl | exact fun _ => memWf_nil _ |
           with_reducible exact fun hm => memWriteN_wf (memWriteN_wf hm) | exact fun _ => rfl |
           exact fun hm => memFold_wf (fun m y hh => memWrite_wf hh) hm |
           exact fun _ => memFold_wf (fun m y hh => memWrite_wf hh) (memWf_nil _) | skip)

theorem State.residentIn_keeps {z0 : State} {s : State} {e : Rgn} {f : Nat} (hK : Keeps z0 s) :
    Keeps z0 (State.residentIn s e f) := by
  unfold State.residentIn
  with_reducible
    repeat' first
      | assumption | apply State.setFolio_keeps | apply State.touch_keeps | apply State.framePut_keeps
      | apply Keeps.ite | intro _ | split | dsimp -iota only | dsimp only
      | ((fail_if_success apply Keeps.same); refine Keeps.mk ?_)

end Sys2Proof.Machine
end

