-- ==== Sys2Proof/Laws/KeepJournal.lean ====
section
/-! SUPPORT. What the operations of Machine/Journal.lean keep. -/

set_option Elab.async false

namespace Sys2Proof.Machine

theorem State.jRecount_keeps {z0 : State} {s : State} (hK : Keeps z0 s) :
    Keeps z0 (State.jRecount s) := by
  unfold State.jRecount
  with_reducible
    repeat' first
      | assumption | apply State.setFld_keeps | intro _ | split | dsimp -iota only | dsimp only
      | ((fail_if_success apply Keeps.same); refine Keeps.mk ?_)

theorem State.setCeiling_keeps {z0 : State} {s : State} (hK : Keeps z0 s) :
    Keeps z0 (State.setCeiling s) := by
  unfold State.setCeiling
  with_reducible
    repeat' first
      | assumption | apply State.setFld_keeps | apply State.setFlag_keeps | apply State.raiseD_keeps | apply Keeps.ite
      | intro _ | split | dsimp -iota only | dsimp only

theorem State.setCurtain_keeps {z0 : State} {s : State} {c : Nat} (hK : Keeps z0 s) :
    Keeps z0 (State.setCurtain s c) := by
  unfold State.setCurtain
  with_reducible
    repeat' first
      | assumption | apply State.setLive_keeps | apply State.raise_keeps | apply State.setCeiling_keeps
      | apply Keeps.ite | intro _ | split | dsimp -iota only | dsimp only
      | ((fail_if_success apply Keeps.same); refine Keeps.mk ?_)

theorem State.setStagePool_keeps {z0 : State} {s : State} (hK : Keeps z0 s) :
    Keeps z0 (State.setStagePool s) := by
  unfold State.setStagePool
  with_reducible
    repeat' first
      | assumption | apply State.setFld_keeps | intro _ | split | dsimp -iota only | dsimp only

theorem State.pairShrink_keeps {z0 : State} {s : State} (hK : Keeps z0 s) :
    Keeps z0 (State.pairShrink s) := by
  unfold State.pairShrink
  with_reducible
    repeat' first
      | assumption | apply State.setFld_keeps | apply State.setStagePool_keeps | apply Keeps.ite | intro _ | split
      | dsimp -iota only | dsimp only

theorem State.evictFolio_keeps {z0 : State} {s : State} {f : Nat} (hK : Keeps z0 s) :
    Keeps z0 (State.evictFolio s f) := by
  unfold State.evictFolio
  with_reducible
    repeat' first
      | assumption | apply State.setFolio_keeps | apply State.folioErase_keeps | intro _ | split | dsimp -iota only
      | dsimp only | ((fail_if_success apply Keeps.same); refine Keeps.mk ?_)

theorem State.clockSearch_keeps {z0 : State} {s : State} {a0 : List (Nat × Nat)} {a1 : Nat} (hK : Keeps z0 s) :
    Keeps z0 (State.clockSearch s a0 a1).2 := by
  fun_induction State.clockSearch s a0 a1
  all_goals
    with_reducible
      repeat' first
        | assumption | apply State.sample_keeps | apply State.setFolio_keeps | apply_assumption | apply Keeps.ite
        | intro _ | split | dsimp -iota only | dsimp only | ((fail_if_success apply Keeps.same); refine Keeps.mk ?_)
  
theorem State.clockSearch_keepsE {z0 : State} {s : State} {a0 : List (Nat × Nat)} {a1 : Nat} {tE : State} {uE} (hE : State.clockSearch s a0 a1 = (uE, tE)) (hK : Keeps z0 s) :
    Keeps z0 tE := by
  have k := State.clockSearch_keeps (z0 := z0) (s := s) (a0 := a0) (a1 := a1)  hK
  rw [hE] at k
  exact k

theorem State.chooseVictimOf_keeps {z0 : State} {s : State} {ok : Nat → Bool} (hK : Keeps z0 s) :
    Keeps z0 (State.chooseVictimOf s ok).2 := by
  unfold State.chooseVictimOf
  with_reducible
    repeat' first
      | assumption | apply State.clockSearch_keeps | refine State.clockSearch_keepsE (by assumption) ?_ | intro _
      | split | dsimp -iota only | dsimp only

theorem State.chooseVictimOf_keepsE {z0 : State} {s : State} {ok : Nat → Bool} {tE : State} {uE} (hE : State.chooseVictimOf s ok = (uE, tE)) (hK : Keeps z0 s) :
    Keeps z0 tE := by
  have k := State.chooseVictimOf_keeps (z0 := z0) (s := s) (ok := ok)  hK
  rw [hE] at k
  exact k

theorem State.chooseVictim_keeps {z0 : State} {s : State} (hK : Keeps z0 s) :
    Keeps z0 (State.chooseVictim s).2 := by
  unfold State.chooseVictim
  with_reducible
    repeat' first
      | assumption | apply State.chooseVictimOf_keeps | refine State.chooseVictimOf_keepsE (by assumption) ?_
      | intro _ | split | dsimp -iota only | dsimp only

theorem State.chooseVictim_keepsE {z0 : State} {s : State} {tE : State} {uE} (hE : State.chooseVictim s = (uE, tE)) (hK : Keeps z0 s) :
    Keeps z0 tE := by
  have k := State.chooseVictim_keeps (z0 := z0) (s := s)  hK
  rw [hE] at k
  exact k

theorem State.evictMany_keeps {z0 : State} {s : State} {a0 : Nat} (hK : Keeps z0 s) :
    Keeps z0 (State.evictMany s a0) := by
  fun_induction State.evictMany s a0
  all_goals
    with_reducible
      repeat' first
        | assumption | apply State.evictFolio_keeps | apply State.chooseVictim_keeps
        | refine State.chooseVictim_keepsE (by assumption) ?_ | apply_assumption | intro _ | split | dsimp -iota only
        | dsimp only
  
theorem State.pairGrow_keeps {z0 : State} {s : State} (hK : Keeps z0 s) :
    Keeps z0 (State.pairGrow s) := by
  unfold State.pairGrow
  with_reducible
    repeat' first
      | assumption | apply State.setFld_keeps | apply State.raise_keeps | apply State.setStagePool_keeps
      | apply State.evictMany_keeps | apply Keeps.ite | intro _ | split | dsimp -iota only | dsimp only

theorem State.setInkLimit_keeps {z0 : State} {s : State} {folios : Nat} (hK : Keeps z0 s) :
    Keeps z0 (State.setInkLimit s folios) := by
  unfold State.setInkLimit
  with_reducible
    repeat' first
      | assumption | apply State.setRw_keeps | apply State.setCeiling_keeps | apply State.pairShrink_keeps
      | apply State.pairGrow_keeps | intro _ | split | dsimp -iota only | dsimp only

theorem State.folioClean_keeps {z0 : State} {s : State} {f : Nat} (hK : Keeps z0 s) :
    Keeps z0 (State.folioClean s f) := by
  unfold State.folioClean
  repeat' first
    | with_reducible assumption
    | with_reducible exact Keeps.refl _
    | (with_reducible refine State.setFolio_keeps ?_)
    | (with_reducible refine State.subInk_keeps ?_)
    | (with_reducible refine State.pairShrink_keeps ?_)
    | (with_reducible refine Keeps.getD ?_ ?_)
    | (with_reducible refine Keeps.mapPair (by assumption) ?_)
    | (with_reducible refine Keeps.foldl (fun st x hst => ?_) ?_)
    | (with_reducible refine Keeps.foldlFst (fun st x hst => ?_) ?_)
    | (with_reducible refine Keeps.foldlSnd (fun st x hst => ?_) ?_)
    | (with_reducible refine Keeps.ite ?_ ?_)
    | intro _
    | split
    | dsimp -iota only
    | dsimp only
    | dsimp only [id]
    | exact memWf_nil _
    | (fail_if_success (with_reducible refine Keeps.same ?_)
       with_reducible refine Keeps.mk ?_ ?_ ?_ ?_ ?_ ?_ ?_ ?_ ?_ ?_ ?_ ?_ ?_ <;>
         first | with_reducible exact Nat.le_refl _ | with_reducible exact List.prefix_rfl | with_reducible exact fun hm => hm |
           with_reducible exact List.prefix_append _ _ | with_reducible exact Nat.le_succ _ | with_reducible exact memWriteN_wf | with_reducible exact memClear_wf |
           with_reducible exact memPaste_wf | with_reducible exact memWrite_wf | with_reducible exact memWriteLE_wf | with_reducible exact fun _ => rfl | exact fun _ => memWf_nil _ |
           with_reducible exact fun hm => memWriteN_wf (memWriteN_wf hm) | exact fun _ => rfl |
           exact fun hm => memFold_wf (fun m y hh => memWrite_wf hh) hm |
           exact fun _ => memFold_wf (fun m y hh => memWrite_wf hh) (memWf_nil _) | skip)

theorem State.twinSend_keeps {z0 : State} {s : State} {type : Nat} {body : TwinBody} {bounded : Option Nat} {accs : List Nat} (hK : Keeps z0 s) :
    Keeps z0 (State.twinSend s type body bounded accs) := by
  unfold State.twinSend
  with_reducible
    repeat' first
      | assumption | apply State.send_keeps | intro _ | split | dsimp -iota only | dsimp only
      | ((fail_if_success apply Keeps.same); refine Keeps.mk ?_)

theorem State.twinSendUp_keeps {z0 : State} {s : State} {type : Nat} {body : TwinBody} (hK : Keeps z0 s) :
    Keeps z0 (State.twinSendUp s type body) := by
  unfold State.twinSendUp
  with_reducible
    repeat' first
      | assumption | apply State.twinSend_keeps | apply Keeps.ite | intro _ | split | dsimp -iota only | dsimp only

theorem State.markChunk_keeps {z0 : State} {s : State} {dpa : Nat} (hK : Keeps z0 s) :
    Keeps z0 (State.markChunk s dpa) := by
  unfold State.markChunk
  with_reducible
    repeat' first
      | assumption | apply Keeps.ite | intro _ | split | dsimp -iota only | dsimp only
      | ((fail_if_success apply Keeps.same); refine Keeps.mk ?_)

theorem State.fetchFolio_keeps {z0 : State} {s : State} {f : Nat} {why : FetchWhy} (hK : Keeps z0 s) :
    Keeps z0 (State.fetchFolio s f why) := by
  unfold State.fetchFolio
  with_reducible
    repeat' first
      | assumption | apply State.twinSend_keeps | intro _ | split | dsimp -iota only | dsimp only
      | ((fail_if_success apply Keeps.same); refine Keeps.mk ?_)

theorem State.opBegin_keeps {z0 : State} {s : State} {die : Nat} (hK : Keeps z0 s) :
    Keeps z0 (State.opBegin s die) := by
  unfold State.opBegin
  with_reducible
    repeat' first
      | assumption | intro _ | split | dsimp -iota only | dsimp only
      | ((fail_if_success apply Keeps.same); refine Keeps.mk ?_)

theorem State.journal3_keeps {z0 : State} {s : State} (hK : Keeps z0 s) :
    Keeps z0 (State.journal3 s) := by
  unfold State.journal3
  with_reducible
    repeat' first
      | assumption | apply State.setFlag_keeps | intro _ | split | dsimp -iota only | dsimp only

theorem State.jProgram_keeps {z0 : State} {s : State} {index : Nat} {slots : List Nat} (hK : Keeps z0 s) :
    Keeps z0 (State.jProgram s index slots) := by
  unfold State.jProgram
  with_reducible
    repeat' first
      | assumption | apply State.opBegin_keeps | refine Keeps.foldl (fun _ _ _ => ?_) ?_
      | refine Keeps.foldlFst (fun _ _ _ => ?_) ?_ | refine Keeps.foldlSnd (fun _ _ _ => ?_) ?_ | apply Keeps.ite
      | intro _ | split | dsimp -iota only | dsimp only | ((fail_if_success apply Keeps.same); refine Keeps.mk ?_)

theorem State.jIssue_keeps {z0 : State} {s : State} {l : JLeaf} (hK : Keeps z0 s) :
    Keeps z0 (State.jIssue s l) := by
  unfold State.jIssue
  with_reducible
    repeat' first
      | assumption | apply State.jProgram_keeps | refine Keeps.getD ?_ ?_ | apply Keeps.ite | intro _ | split
      | dsimp -iota only | dsimp only | ((fail_if_success apply Keeps.same); refine Keeps.mk ?_)

theorem State.jClose_keeps {z0 : State} {s : State} (hK : Keeps z0 s) :
    Keeps z0 (State.jClose s) := by
  unfold State.jClose
  with_reducible
    repeat' first
      | assumption | apply State.jRecount_keeps | apply State.twinSendUp_keeps | apply State.journal3_keeps
      | apply State.jIssue_keeps | apply Keeps.ite | intro _ | split | dsimp -iota only | dsimp only
      | ((fail_if_success apply Keeps.same); refine Keeps.mk ?_)

theorem State.jAppend_keeps {z0 : State} {s : State} {r : JRec} (hK : Keeps z0 s) :
    Keeps z0 (State.jAppend s r) := by
  unfold State.jAppend
  with_reducible
    repeat' first
      | assumption | apply State.jRecount_keeps | apply State.jClose_keeps | apply Keeps.ite | intro _ | split
      | dsimp -iota only | dsimp only | ((fail_if_success apply Keeps.same); refine Keeps.mk ?_)

theorem State.maybeCheckpoint_keeps {z0 : State} {s : State} (hK : Keeps z0 s) :
    Keeps z0 (State.maybeCheckpoint s) := by
  unfold State.maybeCheckpoint
  with_reducible
    repeat' first
      | assumption | refine Keeps.foldl (fun _ _ _ => ?_) ?_ | refine Keeps.foldlFst (fun _ _ _ => ?_) ?_
      | refine Keeps.foldlSnd (fun _ _ _ => ?_) ?_ | apply Keeps.ite | intro _ | split | dsimp -iota only | dsimp only
      | ((fail_if_success apply Keeps.same); refine Keeps.mk ?_)

theorem State.markLost_keeps {z0 : State} {s : State} {f : Nat} {set : Bool} (hK : Keeps z0 s) :
    Keeps z0 (State.markLost s f set) := by
  unfold State.markLost
  with_reducible
    repeat' first
      | assumption | apply State.setFld_keeps | apply State.subFld_keeps | apply State.setFolio_keeps
      | apply State.jAppend_keeps | apply Keeps.ite | intro _ | split | dsimp -iota only | dsimp only
      | ((fail_if_success apply Keeps.same); refine Keeps.mk ?_)

theorem State.poisonInk_keeps {z0 : State} {s : State} {line : Nat} (hK : Keeps z0 s) :
    Keeps z0 (State.poisonInk s line) := by
  unfold State.poisonInk
  with_reducible
    repeat' first
      | assumption | apply State.setFolio_keeps | apply State.addInk_keeps | apply Keeps.ite | intro _ | split
      | dsimp -iota only | dsimp only | ((fail_if_success apply Keeps.same); refine Keeps.mk ?_)

theorem State.unpoison_keeps {z0 : State} {s : State} {line : Nat} (hK : Keeps z0 s) :
    Keeps z0 (State.unpoison s line) := by
  unfold State.unpoison
  with_reducible
    repeat' first
      | assumption | apply State.poisonInk_keeps | apply Keeps.ite | intro _ | split | dsimp -iota only | dsimp only
      | ((fail_if_success apply Keeps.same); refine Keeps.mk ?_)

theorem State.poisonLine_keeps {z0 : State} {s : State} {line cause : Nat} (hK : Keeps z0 s) :
    Keeps z0 (State.poisonLine s line cause) := by
  unfold State.poisonLine
  with_reducible
    repeat' first
      | assumption | apply State.raiseD_keeps | apply State.raise_keeps | apply State.sceneChange_keeps
      | apply State.dramWrite_keeps | apply State.dramStore_keeps | apply State.fetchFolio_keeps
      | apply State.poisonInk_keeps | apply Keeps.ite | intro _ | split | dsimp -iota only | dsimp only
      | ((fail_if_success apply Keeps.same); refine Keeps.mk ?_)

end Sys2Proof.Machine
end

