-- ==== Sys2Proof/Laws/KeepCredits.lean ====
section
/-! SUPPORT. What the operations of Machine/Credits.lean keep. -/

set_option Elab.async false

namespace Sys2Proof.Machine

theorem State.grant_keeps {z0 : State} {s : State} {stage : Nat} {waiting : List Nat} (hK : Keeps z0 s) :
    Keeps z0 (State.grant s stage waiting).2 := by
  unfold State.grant
  with_reducible
    repeat' first
      | assumption | refine Keeps.getD ?_ ?_ | refine Keeps.foldl (fun _ _ _ => ?_) ?_
      | refine Keeps.foldlFst (fun _ _ _ => ?_) ?_ | refine Keeps.foldlSnd (fun _ _ _ => ?_) ?_ | apply Keeps.ite
      | intro _ | split | dsimp -iota only | dsimp only | ((fail_if_success apply Keeps.same); refine Keeps.mk ?_)

theorem State.grant_keepsE {z0 : State} {s : State} {stage : Nat} {waiting : List Nat} {tE : State} {uE} (hE : State.grant s stage waiting = (uE, tE)) (hK : Keeps z0 s) :
    Keeps z0 tE := by
  have k := State.grant_keeps (z0 := z0) (s := s) (stage := stage) (waiting := waiting)  hK
  rw [hE] at k
  exact k

theorem State.issueRead_keeps {z0 : State} {s : State} {r : ReadJob} (hK : Keeps z0 s) :
    Keeps z0 (State.issueRead s r) := by
  unfold State.issueRead
  with_reducible
    repeat' first
      | assumption | apply Keeps.ite | intro _ | split | dsimp -iota only | dsimp only
      | ((fail_if_success apply Keeps.same); refine Keeps.mk ?_)

theorem State.issueDie_keeps {z0 : State} {s : State} {die : Nat} {a0 : Nat} (hK : Keeps z0 s) :
    Keeps z0 (State.issueDie s die a0) := by
  fun_induction State.issueDie s die a0
  all_goals
    with_reducible
      repeat' first
        | assumption | apply State.grant_keeps | refine State.grant_keepsE (by assumption) ?_
        | apply State.issueRead_keeps | apply_assumption | apply Keeps.ite | intro _ | split | dsimp -iota only
        | dsimp only
  
theorem State.issueReads_keeps {z0 : State} {s : State} (hK : Keeps z0 s) :
    Keeps z0 (State.issueReads s) := by
  unfold State.issueReads
  with_reducible
    repeat' first
      | assumption | apply State.issueDie_keeps | refine Keeps.foldl (fun _ _ _ => ?_) ?_
      | refine Keeps.foldlFst (fun _ _ _ => ?_) ?_ | refine Keeps.foldlSnd (fun _ _ _ => ?_) ?_ | intro _ | split
      | dsimp -iota only | dsimp only

theorem State.flashRead_keeps {z0 : State} {s : State} {f cls : Nat} (hK : Keeps z0 s) :
    Keeps z0 (State.flashRead s f cls) := by
  unfold State.flashRead
  with_reducible
    repeat' first
      | assumption | apply State.issueReads_keeps | intro _ | split | dsimp -iota only | dsimp only
      | ((fail_if_success apply Keeps.same); refine Keeps.mk ?_)

end Sys2Proof.Machine
end

