-- ==== Sys2Proof/Laws/KeepPath.lean ====
section
/-! SUPPORT. What the operations of Machine/Path.lean keep. -/

set_option Elab.async false

namespace Sys2Proof.Machine

theorem Keeps.iteSt {z0 : State} {a b : Pass} {c : Prop} [Decidable c] (ha : Keeps z0 a.st) (hb : Keeps z0 b.st) :
    Keeps z0 (if c then a else b).st := by
  split
  · exact ha
  · exact hb

theorem Keeps.foldlSt {α : Type} {z0 : State} {f : Pass → α → Pass} {l : List α} {p : Pass}
    (hf : ∀ q x, Keeps z0 q.st → Keeps z0 (f q x).st) (h : Keeps z0 p.st) : Keeps z0 (l.foldl f p).st := by
  induction l generalizing p with
  | nil => exact h
  | cons a t ih => exact ih (hf p a h)

theorem State.entryCount_keeps {z0 : State} {s : State} (hK : Keeps z0 s) :
    Keeps z0 (State.entryCount s) := by
  unfold State.entryCount
  with_reducible
    repeat' first
      | assumption | apply State.setFld_keeps | intro _ | split | dsimp -iota only | dsimp only

theorem State.setEntry_keeps {z0 : State} {s : State} {e : SfEntry} (hK : Keeps z0 s) :
    Keeps z0 (State.setEntry s e) := by
  unfold State.setEntry
  with_reducible
    repeat' first
      | assumption | apply Keeps.ite | intro _ | split | dsimp -iota only | dsimp only
      | ((fail_if_success apply Keeps.same); refine Keeps.mk ?_)

theorem State.closeEntry_keeps {z0 : State} {s : State} {f : Nat} (hK : Keeps z0 s) :
    Keeps z0 (State.closeEntry s f) := by
  unfold State.closeEntry
  with_reducible
    repeat' first
      | assumption | apply State.entryCount_keeps | intro _ | split | dsimp -iota only | dsimp only
      | ((fail_if_success apply Keeps.same); refine Keeps.mk ?_)

theorem State.stageFrame_keepsE {z0 : State} {s : State} {uE} {tE : State} (hE : State.stageFrame s = some (uE, tE)) (hK : Keeps z0 s) :
    Keeps z0 tE := by
  unfold State.stageFrame at hE
  repeat' (first | split at hE | dsimp only at hE)
  all_goals (first | cases hE | skip)
  with_reducible
    repeat' first
      | assumption | refine State.takeFrame_keepsE (by assumption) ?_ | apply State.evictFolio_keeps
      | apply State.chooseVictim_keeps | refine State.chooseVictim_keepsE (by assumption) ?_ | apply Keeps.ite
      | intro _ | split | dsimp -iota only | dsimp only

theorem State.cueResult_keeps {z0 : State} {s : State} {cues : List (Nat × Nat)} {result : Nat} (hK : Keeps z0 s) :
    Keeps z0 (State.cueResult s cues result) := by
  unfold State.cueResult
  with_reducible
    repeat' first
      | assumption | apply State.setFld_keeps | apply State.raise_keeps | apply State.sample_keeps
      | apply State.setFolio_keeps | refine Keeps.foldl (fun _ _ _ => ?_) ?_
      | refine Keeps.foldlFst (fun _ _ _ => ?_) ?_ | refine Keeps.foldlSnd (fun _ _ _ => ?_) ?_ | apply Keeps.ite
      | intro _ | split | dsimp -iota only | dsimp only | ((fail_if_success apply Keeps.same); refine Keeps.mk ?_)

theorem State.stageDone_keeps {z0 : State} {s : State} {f : Nat} (hK : Keeps z0 s) :
    Keeps z0 (State.stageDone s f) := by
  unfold State.stageDone
  with_reducible
    repeat' first
      | assumption | apply State.sample_keeps | apply State.closeEntry_keeps | apply State.cueResult_keeps | intro _
      | split | dsimp -iota only | dsimp only

theorem State.fillFolio_keeps {z0 : State} {s : State} {f : Nat} {cells : List Host.Cell} (hK : Keeps z0 s) :
    Keeps z0 (State.fillFolio s f cells) := by
  unfold State.fillFolio
  repeat' first
    | with_reducible assumption
    | with_reducible exact Keeps.refl _
    | (with_reducible refine State.setFolio_keeps ?_)
    | (with_reducible refine State.allocFolio_keeps ?_)
    | (with_reducible refine State.folioPut_keeps ?_)
    | (with_reducible refine State.overlaySecond_keeps ?_)
    | (with_reducible refine State.stageDone_keeps ?_)
    | (with_reducible refine Keeps.getD ?_ ?_)
    | (with_reducible refine Keeps.mapPair (by assumption) ?_)
    | (with_reducible refine Keeps.foldl (fun st x hst => ?_) ?_)
    | (with_reducible refine Keeps.foldlFst (fun st x hst => ?_) ?_)
    | (with_reducible refine Keeps.foldlSnd (fun st x hst => ?_) ?_)
    | (with_reducible refine Keeps.ite ?_ ?_)
    | intro _
    | split
    | dsimp -iota only
    | dsimp only
    | dsimp only [id]
    | exact memWf_nil _
    | (fail_if_success (with_reducible refine Keeps.same ?_)
       with_reducible refine Keeps.mk ?_ ?_ ?_ ?_ ?_ ?_ ?_ ?_ ?_ ?_ ?_ ?_ ?_ <;>
         first | with_reducible exact Nat.le_refl _ | with_reducible exact List.prefix_rfl | with_reducible exact fun hm => hm |
           with_reducible exact List.prefix_append _ _ | with_reducible exact Nat.le_succ _ | with_reducible exact memWriteN_wf | with_reducible exact memClear_wf |
           with_reducible exact memPaste_wf | with_reducible exact memWrite_wf | with_reducible exact memWriteLE_wf | with_reducible exact fun _ => rfl | exact fun _ => memWf_nil _ |
           with_reducible exact fun hm => memWriteN_wf (memWriteN_wf hm) | exact fun _ => rfl |
           exact fun hm => memFold_wf (fun m y hh => memWrite_wf hh) hm |
           exact fun _ => memFold_wf (fun m y hh => memWrite_wf hh) (memWf_nil _) | skip)

theorem State.assignFrame_keeps {z0 : State} {s : State} {f fr : Nat} (hK : Keeps z0 s) :
    Keeps z0 (State.assignFrame s f fr) := by
  unfold State.assignFrame
  with_reducible
    repeat' first
      | assumption | apply State.setFolio_keeps | apply State.flashRead_keeps | apply State.setEntry_keeps
      | apply State.fillFolio_keeps | apply Keeps.ite | intro _ | split | dsimp -iota only | dsimp only
      | ((fail_if_success apply Keeps.same); refine Keeps.mk ?_)

theorem State.tryAssign_keeps {z0 : State} {s : State} {f : Nat} (hK : Keeps z0 s) :
    Keeps z0 (State.tryAssign s f) := by
  unfold State.tryAssign
  with_reducible
    repeat' first
      | assumption | apply State.raise_keeps | refine State.stageFrame_keepsE (by assumption) ?_
      | apply State.assignFrame_keeps | apply Keeps.ite | intro _ | split | dsimp -iota only | dsimp only
      | ((fail_if_success apply Keeps.same); refine Keeps.mk ?_)

theorem State.openEntry_keeps {z0 : State} {s : State} {f : Nat} {cue : Option (Nat × Nat)} (hK : Keeps z0 s) :
    Keeps z0 (State.openEntry s f cue) := by
  unfold State.openEntry
  with_reducible
    repeat' first
      | assumption | apply State.entryCount_keeps | apply State.setEntry_keeps | apply State.tryAssign_keeps
      | apply Keeps.ite | intro _ | split | dsimp -iota only | dsimp only
      | ((fail_if_success apply Keeps.same); refine Keeps.mk ?_)

theorem State.assignWaiting_keeps {z0 : State} {s : State} (hK : Keeps z0 s) :
    Keeps z0 (State.assignWaiting s) := by
  unfold State.assignWaiting
  with_reducible
    repeat' first
      | assumption | refine State.stageFrame_keepsE (by assumption) ?_ | apply State.assignFrame_keeps
      | refine Keeps.foldl (fun _ _ _ => ?_) ?_ | refine Keeps.foldlFst (fun _ _ _ => ?_) ?_
      | refine Keeps.foldlSnd (fun _ _ _ => ?_) ?_ | apply Keeps.ite | intro _ | split | dsimp -iota only | dsimp only

theorem State.openWanted_keeps {z0 : State} {s : State} (hK : Keeps z0 s) :
    Keeps z0 (State.openWanted s) := by
  unfold State.openWanted
  with_reducible
    repeat' first
      | assumption | apply State.openEntry_keeps | refine Keeps.foldl (fun _ _ _ => ?_) ?_
      | refine Keeps.foldlFst (fun _ _ _ => ?_) ?_ | refine Keeps.foldlSnd (fun _ _ _ => ?_) ?_ | apply Keeps.ite
      | intro _ | split | dsimp -iota only | dsimp only | ((fail_if_success apply Keeps.same); refine Keeps.mk ?_)

theorem State.wantFolio_keeps {z0 : State} {s : State} {f : Nat} (hK : Keeps z0 s) :
    Keeps z0 (State.wantFolio s f) := by
  unfold State.wantFolio
  with_reducible
    repeat' first
      | assumption | apply State.openEntry_keeps | apply Keeps.ite | intro _ | split | dsimp -iota only | dsimp only
      | ((fail_if_success apply Keeps.same); refine Keeps.mk ?_)

theorem State.waiterLimit_keeps {z0 : State} {s : State} {f : Nat} (hK : Keeps z0 s) :
    Keeps z0 (State.waiterLimit s f) := by
  unfold State.waiterLimit
  with_reducible
    repeat' first
      | assumption | apply State.raise_keeps | apply State.setEntry_keeps | apply Keeps.ite | intro _ | split
      | dsimp -iota only | dsimp only | ((fail_if_success apply Keeps.same); refine Keeps.mk ?_)

theorem State.setLink_keeps {z0 : State} {s : State} {n : Nat} {l : LinkState} (hK : Keeps z0 s) :
    Keeps z0 (State.setLink s n l) := by
  unfold State.setLink
  with_reducible
    repeat' first
      | assumption | intro _ | split | dsimp -iota only | dsimp only
      | ((fail_if_success apply Keeps.same); refine Keeps.mk ?_)

theorem State.countNonce_keeps {z0 : State} {s : State} {counter : Nat} (hK : Keeps z0 s) :
    Keeps z0 (State.countNonce s counter).1 := by
  unfold State.countNonce
  with_reducible
    repeat' first
      | assumption | apply State.setLive_keeps | apply State.send_keeps | apply State.raiseD_keeps | apply Keeps.ite
      | intro _ | split | dsimp -iota only | dsimp only | ((fail_if_success apply Keeps.same); refine Keeps.mk ?_)

theorem State.countNonce_keepsE {z0 : State} {s : State} {counter : Nat} {tE : State} {uE} (hE : State.countNonce s counter = (tE, uE)) (hK : Keeps z0 s) :
    Keeps z0 tE := by
  have k := State.countNonce_keeps (z0 := z0) (s := s) (counter := counter)  hK
  rw [hE] at k
  exact k

theorem State.ideUse_keeps {z0 : State} {s : State} {link : Nat} {out : Bool} (hK : Keeps z0 s) :
    Keeps z0 (State.ideUse s link out).1 := by
  unfold State.ideUse
  with_reducible
    repeat' first
      | assumption | apply State.setFlag_keeps | apply State.setLink_keeps | apply State.countNonce_keeps
      | refine State.countNonce_keepsE (by assumption) ?_ | apply Keeps.ite | intro _ | split | dsimp -iota only
      | dsimp only | ((fail_if_success apply Keeps.same); refine Keeps.mk ?_)

theorem State.ideUse_keepsE {z0 : State} {s : State} {link : Nat} {out : Bool} {tE : State} {uE} (hE : State.ideUse s link out = (tE, uE)) (hK : Keeps z0 s) :
    Keeps z0 tE := by
  have k := State.ideUse_keeps (z0 := z0) (s := s) (link := link) (out := out)  hK
  rw [hE] at k
  exact k

theorem State.emit_keeps {z0 : State} {s0 : State} {c : Compl} (hK : Keeps z0 s0) :
    Keeps z0 (State.emit s0 c) := by
  unfold State.emit
  with_reducible
    repeat' first
      | assumption | apply State.send_keeps | apply State.sample_keeps | apply State.setLink_keeps | apply Keeps.ite
      | intro _ | split | dsimp -iota only | dsimp only | ((fail_if_success apply Keeps.same); refine Keeps.mk ?_)

theorem State.complete_keeps {z0 : State} {s : State} {c : Compl} (hK : Keeps z0 s) :
    Keeps z0 (State.complete s c) := by
  unfold State.complete
  with_reducible
    repeat' first
      | assumption | apply State.ideUse_keeps | refine State.ideUse_keepsE (by assumption) ?_ | apply State.emit_keeps
      | apply Keeps.ite | intro _ | split | dsimp -iota only | dsimp only
      | ((fail_if_success apply Keeps.same); refine Keeps.mk ?_)

theorem State.drainCompl_keeps {z0 : State} {s : State} (hK : Keeps z0 s) :
    Keeps z0 (State.drainCompl s) := by
  unfold State.drainCompl
  with_reducible
    repeat' first
      | assumption | apply State.complete_keeps | refine Keeps.foldl (fun _ _ _ => ?_) ?_
      | refine Keeps.foldlFst (fun _ _ _ => ?_) ?_ | refine Keeps.foldlSnd (fun _ _ _ => ?_) ?_ | intro _ | split
      | dsimp -iota only | dsimp only | ((fail_if_success apply Keeps.same); refine Keeps.mk ?_)

theorem State.loadComplete_keeps {z0 : State} {s : State} {link tag cls t0 : Nat} {poison : Bool} {data : Line} (hK : Keeps z0 s) :
    Keeps z0 (State.loadComplete s link tag cls t0 poison data) := by
  unfold State.loadComplete
  with_reducible
    repeat' first
      | assumption | apply State.complete_keeps | intro _ | split | dsimp -iota only | dsimp only

theorem State.storeComplete_keeps {z0 : State} {s : State} {link tag cls t0 acc : Nat} {lines : List Nat} (hK : Keeps z0 s) :
    Keeps z0 (State.storeComplete s link tag cls t0 acc lines) := by
  unfold State.storeComplete
  with_reducible
    repeat' first
      | assumption | apply State.complete_keeps | intro _ | split | dsimp -iota only | dsimp only

theorem State.scriptAnswer_keeps {z0 : State} {s : State} {scribe ctx slot status : Nat} {data : Line} (hK : Keeps z0 s) :
    Keeps z0 (State.scriptAnswer s scribe ctx slot status data) := by
  unfold State.scriptAnswer
  with_reducible
    repeat' first
      | assumption | intro _ | split | dsimp -iota only | dsimp only
      | ((fail_if_success apply Keeps.same); refine Keeps.mk ?_)

theorem State.answerLoad_keeps {z0 : State} {s : State} {r : Req} {poison : Bool} {status : Nat} {data : Line} (hK : Keeps z0 s) :
    Keeps z0 (State.answerLoad s r poison status data) := by
  unfold State.answerLoad
  with_reducible
    repeat' first
      | assumption | apply State.loadComplete_keeps | apply State.scriptAnswer_keeps | apply Keeps.ite | intro _
      | split | dsimp -iota only | dsimp only

theorem State.gateTally_keeps {z0 : State} {s : State} {r : Req} (hK : Keeps z0 s) :
    Keeps z0 (State.gateTally s r) := by
  unfold State.gateTally
  with_reducible
    repeat' first
      | assumption | apply State.sample_keeps | intro _ | split | dsimp -iota only | dsimp only

theorem State.setGate_keeps {z0 : State} {s : State} {acc : Nat} {g : Gate} (hK : Keeps z0 s) :
    Keeps z0 (State.setGate s acc g) := by
  unfold State.setGate
  with_reducible
    repeat' first
      | assumption | apply State.gateTally_keeps | apply Keeps.ite | intro _ | split | dsimp -iota only | dsimp only
      | ((fail_if_success apply Keeps.same); refine Keeps.mk ?_)

theorem State.unhold_keeps {z0 : State} {s : State} {acc : Nat} (hK : Keeps z0 s) :
    Keeps z0 (State.unhold s acc) := by
  unfold State.unhold
  with_reducible
    repeat' first
      | assumption | apply State.gateTally_keeps | intro _ | split | dsimp -iota only | dsimp only
      | ((fail_if_success apply Keeps.same); refine Keeps.mk ?_)

theorem State.biSnoop_keeps {z0 : State} {s : State} {line : Nat} {all : List Holder} (hK : Keeps z0 s) :
    Keeps z0 (State.biSnoop s line all) := by
  unfold State.biSnoop
  with_reducible
    repeat' first
      | assumption | apply State.send_keeps | refine Keeps.foldl (fun _ _ _ => ?_) ?_
      | refine Keeps.foldlFst (fun _ _ _ => ?_) ?_ | refine Keeps.foldlSnd (fun _ _ _ => ?_) ?_ | apply Keeps.ite
      | intro _ | split | dsimp -iota only | dsimp only | ((fail_if_success apply Keeps.same); refine Keeps.mk ?_)

theorem State.biStore_keeps {z0 : State} {s : State} {e : Rgn} {line : Nat} {src : Source} (hK : Keeps z0 s) :
    Keeps z0 (State.biStore s e line src).1 := by
  unfold State.biStore
  with_reducible
    repeat' first
      | assumption | apply State.biSnoop_keeps | apply Keeps.ite | intro _ | split | dsimp -iota only | dsimp only

theorem State.biStore_keepsE {z0 : State} {s : State} {e : Rgn} {line : Nat} {src : Source} {tE : State} {uE} (hE : State.biStore s e line src = (tE, uE)) (hK : Keeps z0 s) :
    Keeps z0 tE := by
  have k := State.biStore_keeps (z0 := z0) (s := s) (e := e) (line := line) (src := src)  hK
  rw [hE] at k
  exact k

theorem State.finishStore_keeps {z0 : State} {s0 : State} {a : Applied} (hK : Keeps z0 s0) :
    Keeps z0 (State.finishStore s0 a) := by
  unfold State.finishStore
  with_reducible
    repeat' first
      | assumption | apply State.sample_keeps | apply State.storeComplete_keeps | intro _ | split | dsimp -iota only
      | dsimp only

theorem State.completeApplied_keeps {z0 : State} {s : State} (hK : Keeps z0 s) :
    Keeps z0 (State.completeApplied s) := by
  unfold State.completeApplied
  with_reducible
    repeat' first
      | assumption | apply State.finishStore_keeps | refine Keeps.foldl (fun _ _ _ => ?_) ?_
      | refine Keeps.foldlFst (fun _ _ _ => ?_) ?_ | refine Keeps.foldlSnd (fun _ _ _ => ?_) ?_ | intro _ | split
      | dsimp -iota only | dsimp only | ((fail_if_success apply Keeps.same); refine Keeps.mk ?_)

theorem State.applyLine_keeps {z0 : State} {s : State} {e : Rgn} {wmask : Nat} {w : LineWrite} (hK : Keeps z0 s) :
    Keeps z0 (State.applyLine s e wmask w) := by
  unfold State.applyLine
  with_reducible
    repeat' first
      | assumption | apply State.touch_keeps | apply State.dirtyFolio_keeps | apply State.storeLine_keeps
      | apply State.markChunk_keeps | apply State.unpoison_keeps | apply Keeps.ite | intro _ | split
      | dsimp -iota only | dsimp only | ((fail_if_success apply Keeps.same); refine Keeps.mk ?_)

theorem State.holdLine_keeps {z0 : State} {s : State} {w : LineWrite} (hK : Keeps z0 s) :
    Keeps z0 (State.holdLine s w) := by
  unfold State.holdLine
  repeat' first
    | with_reducible assumption
    | with_reducible exact Keeps.refl _
    | (with_reducible refine State.setFolio_keeps ?_)
    | (with_reducible refine State.addInk_keeps ?_)
    | (with_reducible refine State.takePair_keeps ?_)
    | (with_reducible refine State.wakePair_keeps ?_)
    | (with_reducible refine State.openEntry_keeps ?_)
    | (with_reducible refine Keeps.getD ?_ ?_)
    | (with_reducible refine Keeps.mapPair (by assumption) ?_)
    | (with_reducible refine Keeps.foldl (fun st x hst => ?_) ?_)
    | (with_reducible refine Keeps.foldlFst (fun st x hst => ?_) ?_)
    | (with_reducible refine Keeps.foldlSnd (fun st x hst => ?_) ?_)
    | (with_reducible refine Keeps.ite ?_ ?_)
    | intro _
    | split
    | dsimp -iota only
    | dsimp only
    | dsimp only [id]
    | exact memWf_nil _
    | (fail_if_success (with_reducible refine Keeps.same ?_)
       with_reducible refine Keeps.mk ?_ ?_ ?_ ?_ ?_ ?_ ?_ ?_ ?_ ?_ ?_ ?_ ?_ <;>
         first | with_reducible exact Nat.le_refl _ | with_reducible exact List.prefix_rfl | with_reducible exact fun hm => hm |
           with_reducible exact List.prefix_append _ _ | with_reducible exact Nat.le_succ _ | with_reducible exact memWriteN_wf | with_reducible exact memClear_wf |
           with_reducible exact memPaste_wf | with_reducible exact memWrite_wf | with_reducible exact memWriteLE_wf | with_reducible exact fun _ => rfl | exact fun _ => memWf_nil _ |
           with_reducible exact fun hm => memWriteN_wf (memWriteN_wf hm) | exact fun _ => rfl |
           exact fun hm => memFold_wf (fun m y hh => memWrite_wf hh) hm |
           exact fun _ => memFold_wf (fun m y hh => memWrite_wf hh) (memWf_nil _) | skip)

theorem State.storeAll_keeps {z0 : State} {s : State} {r : Req} {ws : List LineWrite} (hK : Keeps z0 s) :
    Keeps z0 (State.storeAll s r ws).1 := by
  unfold State.storeAll
  with_reducible
    repeat' first
      | assumption | apply State.biStore_keeps | refine State.biStore_keepsE (by assumption) ?_
      | apply State.applyLine_keeps | apply State.holdLine_keeps | refine Keeps.foldl (fun _ _ _ => ?_) ?_
      | refine Keeps.foldlFst (fun _ _ _ => ?_) ?_ | refine Keeps.foldlSnd (fun _ _ _ => ?_) ?_ | apply Keeps.ite
      | intro _ | split | dsimp -iota only | dsimp only

theorem State.storeAll_keepsE {z0 : State} {s : State} {r : Req} {ws : List LineWrite} {tE : State} {uE} (hE : State.storeAll s r ws = (tE, uE)) (hK : Keeps z0 s) :
    Keeps z0 tE := by
  have k := State.storeAll_keeps (z0 := z0) (s := s) (r := r) (ws := ws)  hK
  rw [hE] at k
  exact k

theorem State.mirrorStore_keeps {z0 : State} {s : State} {s1 : State} {r : Req} {bAt : Option Nat} {recs : List StoreRec} (hK : Keeps z0 s1) :
    Keeps z0 (State.mirrorStore s s1 r bAt recs) := by
  unfold State.mirrorStore
  with_reducible
    repeat' first
      | assumption | apply State.twinSend_keeps | apply Keeps.ite | intro _ | split | dsimp -iota only | dsimp only
      | ((fail_if_success apply Keeps.same); refine Keeps.mk ?_)

theorem State.storeAnswer_keeps {z0 : State} {s : State} {r : Req} {old : Nat} (hK : Keeps z0 s) :
    Keeps z0 (State.storeAnswer s r old) := by
  unfold State.storeAnswer
  with_reducible
    repeat' first
      | assumption | apply State.scriptAnswer_keeps | intro _ | split | dsimp -iota only | dsimp only

theorem State.applyStore_keeps {z0 : State} {s : State} {r : Req} (hK : Keeps z0 s) :
    Keeps z0 (State.applyStore s r) := by
  unfold State.applyStore
  with_reducible
    repeat' first
      | assumption | apply State.poisonLine_keeps | apply State.unhold_keeps | apply State.completeApplied_keeps
      | apply State.storeAll_keeps | refine State.storeAll_keepsE (by assumption) ?_ | apply State.mirrorStore_keeps
      | apply State.storeAnswer_keeps | apply Keeps.ite | intro _ | split | dsimp -iota only | dsimp only
      | ((fail_if_success apply Keeps.same); refine Keeps.mk ?_)

theorem State.serveLoad_keeps {z0 : State} {s : State} {e : Rgn} {r : Req} (hK : Keeps z0 s) :
    Keeps z0 (State.serveLoad s e r) := by
  unfold State.serveLoad
  with_reducible
    repeat' first
      | assumption | apply State.setFolio_keeps | apply State.touch_keeps | apply State.loadLine_keeps
      | refine State.loadLine_keepsE (by assumption) ?_ | apply State.answerLoad_keeps | apply State.unhold_keeps
      | apply Keeps.ite | intro _ | split | dsimp -iota only | dsimp only
      | ((fail_if_success apply Keeps.same); refine Keeps.mk ?_)

theorem State.poisonLoad_keeps {z0 : State} {s : State} {r : Req} {status : Nat} (hK : Keeps z0 s) :
    Keeps z0 (State.poisonLoad s r status) := by
  unfold State.poisonLoad
  with_reducible
    repeat' first
      | assumption | apply State.answerLoad_keeps | apply State.unhold_keeps | intro _ | split | dsimp -iota only
      | dsimp only

theorem State.discardStore_keeps {z0 : State} {s : State} {r : Req} (hK : Keeps z0 s) :
    Keeps z0 (State.discardStore s r) := by
  unfold State.discardStore
  with_reducible
    repeat' first
      | assumption | apply State.storeComplete_keeps | apply State.scriptAnswer_keeps | apply State.unhold_keeps
      | intro _ | split | dsimp -iota only | dsimp only

theorem State.noneAbsent_keeps {z0 : State} {s : State} {i : Nat} (hK : Keeps z0 s) :
    Keeps z0 (State.noneAbsent s i) := by
  unfold State.noneAbsent
  with_reducible
    repeat' first
      | assumption | apply State.addSat_keeps | apply State.raiseD_keeps | apply Keeps.ite | intro _ | split
      | dsimp -iota only | dsimp only | ((fail_if_success apply Keeps.same); refine Keeps.mk ?_)

theorem State.boundedGate_keeps {z0 : State} {s : State} (hK : Keeps z0 s) :
    Keeps z0 (State.boundedGate s) := by
  unfold State.boundedGate
  with_reducible
    repeat' first
      | assumption | apply State.setFlag_keeps | apply State.raise_keeps | apply Keeps.ite | intro _ | split
      | dsimp -iota only | dsimp only

theorem State.hasten_keeps {z0 : State} {s : State} {f : Nat} (hK : Keeps z0 s) :
    Keeps z0 (State.hasten s f) := by
  unfold State.hasten
  with_reducible
    repeat' first
      | assumption | apply Keeps.ite | intro _ | split | dsimp -iota only | dsimp only
      | ((fail_if_success apply Keeps.same); refine Keeps.mk ?_)

theorem State.keyLost_keeps {z0 : State} {s : State} {r : Req} (hK : Keeps z0 s) :
    Keeps z0 (State.keyLost s r) := by
  unfold State.keyLost
  with_reducible
    repeat' first
      | assumption | apply State.scriptAnswer_keeps | apply State.unhold_keeps | intro _ | split | dsimp -iota only
      | dsimp only

theorem State.residentFill_keeps {z0 : State} {s : State} {fs : List Nat} (hK : Keeps z0 s) :
    Keeps z0 (State.residentFill s fs) := by
  unfold State.residentFill
  with_reducible
    repeat' first
      | assumption | apply State.residentIn_keeps | refine Keeps.foldl (fun _ _ _ => ?_) ?_
      | refine Keeps.foldlFst (fun _ _ _ => ?_) ?_ | refine Keeps.foldlSnd (fun _ _ _ => ?_) ?_ | apply Keeps.ite
      | intro _ | split | dsimp -iota only | dsimp only

theorem State.sliceGrant_keeps {z0 : State} {s : State} {sl : Nat} {a0 : Nat} (hK : Keeps z0 s) :
    Keeps z0 (State.sliceGrant s sl a0) := by
  fun_induction State.sliceGrant s sl a0
  all_goals
    with_reducible
      repeat' first
        | assumption | apply State.grant_keeps | refine State.grant_keepsE (by assumption) ?_
        | apply State.setGate_keeps | apply_assumption | apply Keeps.ite | intro _ | split | dsimp -iota only
        | dsimp only
  
theorem State.sliceGrants_keeps {z0 : State} {s : State} (hK : Keeps z0 s) :
    Keeps z0 (State.sliceGrants s) := by
  unfold State.sliceGrants
  with_reducible
    repeat' first
      | assumption | apply State.sliceGrant_keeps | refine Keeps.foldl (fun _ _ _ => ?_) ?_
      | refine Keeps.foldlFst (fun _ _ _ => ?_) ?_ | refine Keeps.foldlSnd (fun _ _ _ => ?_) ?_ | intro _ | split
      | dsimp -iota only | dsimp only

theorem State.maintAct_keeps {z0 : State} {s : State} {op : Nat} {sel : Nat → CLine → Bool} (hK : Keeps z0 s) :
    Keeps z0 (State.maintAct s op sel) := by
  unfold State.maintAct
  with_reducible
    repeat' first
      | assumption | apply State.cleanWays_keeps | apply State.invalidateWays_keeps | apply State.flushWays_keeps
      | apply Keeps.ite | intro _ | split | dsimp -iota only | dsimp only

theorem State.maintGo_keeps {z0 : State} {s : State} (hK : Keeps z0 s) :
    Keeps z0 (State.maintGo s) := by
  unfold State.maintGo
  with_reducible
    repeat' first
      | assumption | apply State.maintAct_keeps | apply Keeps.ite | intro _ | split | dsimp -iota only | dsimp only
      | ((fail_if_success apply Keeps.same); refine Keeps.mk ?_)

theorem Pass.store_keeps {z0 : State} {p : Pass} {r : Req} (hK : Keeps z0 p.st) :
    Keeps z0 (Pass.store p r).st := by
  unfold Pass.store
  with_reducible
    repeat' first
      | assumption | apply Keeps.iteSt | refine Keeps.foldlSt (fun st x hst => ?_) ?_ | apply State.send_keeps
      | apply State.openEntry_keeps | apply State.waiterLimit_keeps | apply State.scriptAnswer_keeps
      | apply State.setGate_keeps | apply State.unhold_keeps | apply State.applyStore_keeps
      | apply State.discardStore_keeps | apply State.noneAbsent_keeps | apply State.hasten_keeps
      | apply State.keyLost_keeps | apply State.residentFill_keeps | refine Keeps.foldl (fun _ _ _ => ?_) ?_
      | refine Keeps.foldlFst (fun _ _ _ => ?_) ?_ | refine Keeps.foldlSnd (fun _ _ _ => ?_) ?_ | apply Keeps.ite
      | intro _ | split | dsimp -iota only | dsimp only | ((fail_if_success apply Keeps.same); refine Keeps.mk ?_)

theorem State.filterEvict_keeps {z0 : State} {s : State} (hK : Keeps z0 s) :
    Keeps z0 (State.filterEvict s) := by
  unfold State.filterEvict
  with_reducible
    repeat' first
      | assumption | apply State.raise_keeps | apply State.biSnoop_keeps | apply Keeps.ite | intro _ | split
      | dsimp -iota only | dsimp only | ((fail_if_success apply Keeps.same); refine Keeps.mk ?_)

theorem State.passLoad_keeps {z0 : State} {s : State} {r : Req} (hK : Keeps z0 s) :
    Keeps z0 (State.passLoad s r) := by
  unfold State.passLoad
  with_reducible
    repeat' first
      | assumption | apply State.openEntry_keeps | apply State.wantFolio_keeps | apply State.waiterLimit_keeps
      | apply State.setGate_keeps | apply State.serveLoad_keeps | apply State.poisonLoad_keeps
      | apply State.noneAbsent_keeps | apply State.hasten_keeps | apply State.residentFill_keeps
      | apply State.filterEvict_keeps | apply Keeps.ite | intro _ | split | dsimp -iota only | dsimp only

theorem Pass.step_keeps {z0 : State} {p : Pass} {r : Req} (hK : Keeps z0 p.st) :
    Keeps z0 (Pass.step p r).st := by
  unfold Pass.step
  with_reducible
    repeat' first
      | assumption | apply Keeps.iteSt | refine Keeps.foldlSt (fun st x hst => ?_) ?_ | apply Pass.store_keeps
      | apply State.passLoad_keeps | apply Keeps.ite | intro _ | split | dsimp -iota only | dsimp only
      | ((fail_if_success apply Keeps.same); refine Keeps.mk ?_)

theorem State.releaseHeld_keeps {z0 : State} {s : State} (hK : Keeps z0 s) :
    Keeps z0 (State.releaseHeld s) := by
  unfold State.releaseHeld
  with_reducible
    repeat' first
      | assumption | apply Keeps.iteSt | refine Keeps.foldlSt (fun st x hst => ?_) ?_ | apply Pass.step_keeps
      | refine Keeps.foldl (fun _ _ _ => ?_) ?_ | refine Keeps.foldlFst (fun _ _ _ => ?_) ?_
      | refine Keeps.foldlSnd (fun _ _ _ => ?_) ?_ | intro _ | split | dsimp -iota only | dsimp only

theorem State.take_keeps {z0 : State} {s : State} {r : Req} (hK : Keeps z0 s) :
    Keeps z0 (State.take s r) := by
  unfold State.take
  with_reducible
    repeat' first
      | assumption | intro _ | split | dsimp -iota only | dsimp only
      | ((fail_if_success apply Keeps.same); refine Keeps.mk ?_)

theorem State.accept_keeps {z0 : State} {s : State} {src : Source} {isStore : Bool} {dpa : Nat} {ws : List LineWrite} {cls bound : Nat} {own isSeal : Bool} {rmw : Option Rmw} (hK : Keeps z0 s) :
    Keeps z0 (State.accept s src isStore dpa ws cls bound own isSeal rmw) := by
  unfold State.accept
  with_reducible
    repeat' first
      | assumption | apply State.take_keeps | intro _ | split | dsimp -iota only | dsimp only

theorem State.acceptInner_keeps {z0 : State} {s : State} {r : Req} (hK : Keeps z0 s) :
    Keeps z0 (State.acceptInner s r) := by
  unfold State.acceptInner
  with_reducible
    repeat' first
      | assumption | apply State.take_keeps | apply Keeps.ite | intro _ | split | dsimp -iota only | dsimp only
      | ((fail_if_success apply Keeps.same); refine Keeps.mk ?_)

theorem State.admitInner_keeps {z0 : State} {s : State} {a0 : Nat} (hK : Keeps z0 s) :
    Keeps z0 (State.admitInner s a0) := by
  induction a0 generalizing s with
  | zero => exact hK
  | succ n ih =>
    unfold State.admitInner
    dsimp only
    refine Keeps.ite hK ?_
    split
    · exact ih (State.take_keeps (Keeps.mk (State.grant_keeps hK)))
    · exact State.grant_keeps hK

theorem State.queueStore_keeps {z0 : State} {s : State} {w mask : Nat} {data : Line} (hK : Keeps z0 s) :
    Keeps z0 (State.queueStore s w mask data) := by
  unfold State.queueStore
  repeat' first
    | with_reducible assumption
    | with_reducible exact Keeps.refl _
    | (with_reducible refine Keeps.getD ?_ ?_)
    | (with_reducible refine Keeps.mapPair (by assumption) ?_)
    | (with_reducible refine Keeps.foldl (fun st x hst => ?_) ?_)
    | (with_reducible refine Keeps.foldlFst (fun st x hst => ?_) ?_)
    | (with_reducible refine Keeps.foldlSnd (fun st x hst => ?_) ?_)
    | (with_reducible refine Keeps.ite ?_ ?_)
    | intro _
    | split
    | dsimp -iota only
    | dsimp only
    | dsimp only [id]
    | exact memWf_nil _
    | (fail_if_success (with_reducible refine Keeps.same ?_)
       with_reducible refine Keeps.mk ?_ ?_ ?_ ?_ ?_ ?_ ?_ ?_ ?_ ?_ ?_ ?_ ?_ <;>
         first | with_reducible exact Nat.le_refl _ | with_reducible exact List.prefix_rfl | with_reducible exact fun hm => hm |
           with_reducible exact List.prefix_append _ _ | with_reducible exact Nat.le_succ _ | with_reducible exact memWriteN_wf | with_reducible exact memClear_wf |
           with_reducible exact memPaste_wf | with_reducible exact memWrite_wf | with_reducible exact memWriteLE_wf | with_reducible exact fun _ => rfl | exact fun _ => memWf_nil _ |
           with_reducible exact fun hm => memWriteN_wf (memWriteN_wf hm) | exact fun _ => rfl |
           exact fun hm => memFold_wf (fun m y hh => memWrite_wf hh) hm |
           exact fun _ => memFold_wf (fun m y hh => memWrite_wf hh) (memWf_nil _) | skip)

theorem State.peakUp_keeps {z0 : State} {s : State} {link : Nat} (hK : Keeps z0 s) :
    Keeps z0 (State.peakUp s link) := by
  unfold State.peakUp
  with_reducible
    repeat' first
      | assumption | apply State.setFld_keeps | apply Keeps.ite | intro _ | split | dsimp -iota only | dsimp only

theorem State.letIn_keeps {z0 : State} {s : State} {q : Ingress} (hK : Keeps z0 s) :
    Keeps z0 (State.letIn s q) := by
  unfold State.letIn
  with_reducible
    repeat' first
      | assumption | apply State.violation_keeps | apply State.loadComplete_keeps | apply State.storeComplete_keeps
      | apply State.take_keeps | apply State.queueStore_keeps | apply State.peakUp_keeps | refine Keeps.getD ?_ ?_
      | apply Keeps.ite | intro _ | split | dsimp -iota only | dsimp only
      | ((fail_if_success apply Keeps.same); refine Keeps.mk ?_)

theorem State.nextIngress_keeps {z0 : State} {s : State} {link : Nat} {mine : List Ingress} (hK : Keeps z0 s) :
    Keeps z0 (State.nextIngress s link mine).2 := by
  unfold State.nextIngress
  with_reducible
    repeat' first
      | assumption | apply State.grant_keeps | refine State.grant_keepsE (by assumption) ?_ | refine Keeps.getD ?_ ?_
      | refine Keeps.foldl (fun _ _ _ => ?_) ?_ | refine Keeps.foldlFst (fun _ _ _ => ?_) ?_
      | refine Keeps.foldlSnd (fun _ _ _ => ?_) ?_ | intro _ | split | dsimp -iota only | dsimp only
      | ((fail_if_success apply Keeps.same); refine Keeps.mk ?_)

theorem State.nextIngress_keepsE {z0 : State} {s : State} {link : Nat} {mine : List Ingress} {tE : State} {uE} (hE : State.nextIngress s link mine = (uE, tE)) (hK : Keeps z0 s) :
    Keeps z0 tE := by
  have k := State.nextIngress_keeps (z0 := z0) (s := s) (link := link) (mine := mine)  hK
  rw [hE] at k
  exact k

theorem State.admitLink_keeps {z0 : State} {s : State} {link : Nat} {a0 : Nat} (hK : Keeps z0 s) :
    Keeps z0 (State.admitLink s link a0) := by
  induction a0 generalizing s with
  | zero => exact hK
  | succ n ih =>
    unfold State.admitLink
    dsimp only
    refine Keeps.ite hK ?_
    split
    · rename_i hE
      exact ih (State.letIn_keeps (Keeps.mk (State.nextIngress_keepsE hE hK)))
    · rename_i hE
      exact State.nextIngress_keepsE hE hK

theorem State.admitAll_keeps {z0 : State} {s : State} (hK : Keeps z0 s) :
    Keeps z0 (State.admitAll s) := by
  unfold State.admitAll
  repeat' first
    | with_reducible assumption
    | with_reducible exact Keeps.refl _
    | (with_reducible refine State.admitInner_keeps ?_)
    | (with_reducible refine State.admitLink_keeps ?_)
    | (with_reducible refine Keeps.getD ?_ ?_)
    | (with_reducible refine Keeps.mapPair (by assumption) ?_)
    | (with_reducible refine Keeps.foldl (fun st x hst => ?_) ?_)
    | (with_reducible refine Keeps.foldlFst (fun st x hst => ?_) ?_)
    | (with_reducible refine Keeps.foldlSnd (fun st x hst => ?_) ?_)
    | (with_reducible refine Keeps.ite ?_ ?_)
    | intro _
    | split
    | dsimp -iota only
    | dsimp only
    | dsimp only [id]
    | exact memWf_nil _
    | (fail_if_success (with_reducible refine Keeps.same ?_)
       with_reducible refine Keeps.mk ?_ ?_ ?_ ?_ ?_ ?_ ?_ ?_ ?_ ?_ ?_ ?_ ?_ <;>
         first | with_reducible exact Nat.le_refl _ | with_reducible exact List.prefix_rfl | with_reducible exact fun hm => hm |
           with_reducible exact List.prefix_append _ _ | with_reducible exact Nat.le_succ _ | with_reducible exact memWriteN_wf | with_reducible exact memClear_wf |
           with_reducible exact memPaste_wf | with_reducible exact memWrite_wf | with_reducible exact memWriteLE_wf | with_reducible exact fun _ => rfl | exact fun _ => memWf_nil _ |
           with_reducible exact fun hm => memWriteN_wf (memWriteN_wf hm) | exact fun _ => rfl |
           exact fun hm => memFold_wf (fun m y hh => memWrite_wf hh) hm |
           exact fun _ => memFold_wf (fun m y hh => memWrite_wf hh) (memWf_nil _) | skip)

theorem State.barriers_keeps {z0 : State} {s : State} (hK : Keeps z0 s) :
    Keeps z0 (State.barriers s) := by
  unfold State.barriers
  with_reducible
    repeat' first
      | assumption | apply State.send_keeps | apply State.raise_keeps | apply State.answer_keeps
      | apply State.setLink_keeps | refine Keeps.foldl (fun _ _ _ => ?_) ?_
      | refine Keeps.foldlFst (fun _ _ _ => ?_) ?_ | refine Keeps.foldlSnd (fun _ _ _ => ?_) ?_ | apply Keeps.ite
      | intro _ | split | dsimp -iota only | dsimp only | ((fail_if_success apply Keeps.same); refine Keeps.mk ?_)

theorem State.trackerRegs_keeps {z0 : State} {s : State} (hK : Keeps z0 s) :
    Keeps z0 (State.trackerRegs s) := by
  unfold State.trackerRegs
  with_reducible
    repeat' first
      | assumption | apply State.setFld_keeps | apply State.setFlag_keeps | apply State.raise_keeps
      | apply State.peakUp_keeps | refine Keeps.foldl (fun _ _ _ => ?_) ?_
      | refine Keeps.foldlFst (fun _ _ _ => ?_) ?_ | refine Keeps.foldlSnd (fun _ _ _ => ?_) ?_ | apply Keeps.ite
      | intro _ | split | dsimp -iota only | dsimp only | ((fail_if_success apply Keeps.same); refine Keeps.mk ?_)

theorem State.tickWork_keeps {z0 : State} {s : State} (hK : Keeps z0 s) :
    Keeps z0 (State.tickWork s) := by
  unfold State.tickWork
  with_reducible
    repeat' first
      | assumption | apply State.sample_keeps | refine Keeps.foldl (fun _ _ _ => ?_) ?_
      | refine Keeps.foldlFst (fun _ _ _ => ?_) ?_ | refine Keeps.foldlSnd (fun _ _ _ => ?_) ?_ | apply Keeps.ite
      | intro _ | split | dsimp -iota only | dsimp only | ((fail_if_success apply Keeps.same); refine Keeps.mk ?_)

end Sys2Proof.Machine
end

