-- ==== Sys2Proof/Laws/KeepFreeze.lean ====
section
/-! SUPPORT. What the operations of Machine/Freeze.lean keep. -/

set_option Elab.async false

namespace Sys2Proof.Machine

theorem State.retireRow_keeps {z0 : State} {s : State} {c word1 : Nat} (hK : Keeps z0 s) :
    Keeps z0 (State.retireRow s c word1).1 := by
  unfold State.retireRow
  with_reducible
    repeat' first
      | assumption | apply State.setFld_keeps | apply State.raiseD_keeps | apply State.setChan_keeps
      | apply State.setStagePool_keeps | apply State.jAppend_keeps | refine Keeps.foldl (fun _ _ _ => ?_) ?_
      | refine Keeps.foldlFst (fun _ _ _ => ?_) ?_ | refine Keeps.foldlSnd (fun _ _ _ => ?_) ?_ | apply Keeps.ite
      | intro _ | split | dsimp -iota only | dsimp only | ((fail_if_success apply Keeps.same); refine Keeps.mk ?_)

theorem State.retireRow_keepsE {z0 : State} {s : State} {c word1 : Nat} {tE : State} {uE} (hE : State.retireRow s c word1 = (tE, uE)) (hK : Keeps z0 s) :
    Keeps z0 tE := by
  have k := State.retireRow_keeps (z0 := z0) (s := s) (c := c) (word1 := word1)  hK
  rw [hE] at k
  exact k

theorem State.evictFrameOf_keepsE {z0 : State} {s : State} {ok : Nat → Bool} {uE} {tE : State}
    (hE : State.evictFrameOf s ok = some (uE, tE)) (hK : Keeps z0 s) : Keeps z0 tE := by
  unfold State.evictFrameOf at hE
  obtain ⟨k, -, hE⟩ := List.exists_of_findSome?_eq_some hE
  dsimp only at hE
  split at hE
  · cases hE
  · split at hE
    · rename_i heq
      cases hE
      exact Keeps.mk (State.evictFolio_keeps (State.chooseVictimOf_keepsE heq hK))
    · cases hE

theorem State.replaceFrameOf_keepsE {z0 : State} {s : State} {ok : Nat → Bool} {uE} {tE : State} (hE : State.replaceFrameOf s ok = some (uE, tE)) (hK : Keeps z0 s) :
    Keeps z0 tE := by
  unfold State.replaceFrameOf at hE
  repeat' (first | split at hE | dsimp only at hE)
  all_goals (first | cases hE | skip)
  with_reducible
    repeat' first
      | assumption | refine State.takeFrameOf_keepsE (by assumption) ?_
      | refine State.evictFrameOf_keepsE (by assumption) ?_ | intro _ | split | dsimp -iota only | dsimp only

theorem State.areaMove_keeps {z0 : State} {s : State} {kind c : Nat} (hK : Keeps z0 s) :
    Keeps z0 (State.areaMove s kind c) := by
  unfold State.areaMove
  with_reducible
    repeat' first
      | assumption | apply Keeps.ite | intro _ | split | dsimp -iota only | dsimp only
      | ((fail_if_success apply Keeps.same); refine Keeps.mk ?_)

theorem State.buildSecond_keeps {z0 : State} {s : State} {f : Nat} (hK : Keeps z0 s) :
    Keeps z0 (State.buildSecond s f) := by
  unfold State.buildSecond
  repeat' first
    | with_reducible assumption
    | with_reducible exact Keeps.refl _
    | (with_reducible refine State.setFolio_keeps ?_)
    | (with_reducible refine State.takePair_keeps ?_)
    | (with_reducible refine State.wakePair_keeps ?_)
    | (with_reducible refine State.folioCells_keeps ?_)
    | (with_reducible refine State.folioCells_keepsE (by assumption) ?_)
    | (with_reducible refine Keeps.getD ?_ ?_)
    | (with_reducible refine Keeps.mapPair (by assumption) ?_)
    | (with_reducible refine Keeps.foldl (fun st x hst => ?_) ?_)
    | (with_reducible refine Keeps.foldlFst (fun st x hst => ?_) ?_)
    | (with_reducible refine Keeps.foldlSnd (fun st x hst => ?_) ?_)
    | (with_reducible refine Keeps.ite ?_ ?_)
    | intro _
    | split
    | dsimp -iota only
    | dsimp only
    | dsimp only [id]
    | exact memWf_nil _
    | (fail_if_success (with_reducible refine Keeps.same ?_)
       with_reducible refine Keeps.mk ?_ ?_ ?_ ?_ ?_ ?_ ?_ ?_ ?_ ?_ ?_ ?_ ?_ <;>
         first | with_reducible exact Nat.le_refl _ | with_reducible exact List.prefix_rfl | with_reducible exact fun hm => hm |
           with_reducible exact List.prefix_append _ _ | with_reducible exact Nat.le_succ _ | with_reducible exact memWriteN_wf | with_reducible exact memClear_wf |
           with_reducible exact memPaste_wf | with_reducible exact memWrite_wf | with_reducible exact memWriteLE_wf | with_reducible exact fun _ => rfl | exact fun _ => memWf_nil _ |
           with_reducible exact fun hm => memWriteN_wf (memWriteN_wf hm) | exact fun _ => rfl |
           exact fun hm => memFold_wf (fun m y hh => memWrite_wf hh) hm |
           exact fun _ => memFold_wf (fun m y hh => memWrite_wf hh) (memWf_nil _) | skip)

theorem State.renewSecond_keeps {z0 : State} {s : State} {f : Nat} (hK : Keeps z0 s) :
    Keeps z0 (State.renewSecond s f) := by
  unfold State.renewSecond
  with_reducible
    repeat' first
      | assumption | apply State.setFolio_keeps | apply State.buildSecond_keeps | apply Keeps.ite | intro _ | split
      | dsimp -iota only | dsimp only | ((fail_if_success apply Keeps.same); refine Keeps.mk ?_)

theorem State.replaced_keeps {z0 : State} {s : State} {f : Nat} (hK : Keeps z0 s) :
    Keeps z0 (State.replaced s f) := by
  unfold State.replaced
  with_reducible
    repeat' first
      | assumption | intro _ | split | dsimp -iota only | dsimp only
      | ((fail_if_success apply Keeps.same); refine Keeps.mk ?_)

theorem State.finishReplace_keeps {z0 : State} {s : State} {f : Nat} {cells : List Host.Cell} (hK : Keeps z0 s) :
    Keeps z0 (State.finishReplace s f cells) := by
  unfold State.finishReplace
  with_reducible
    repeat' first
      | assumption | apply State.overlaySecond_keeps | apply State.framePut_keeps | apply State.renewSecond_keeps
      | apply State.replaced_keeps | apply Keeps.ite | intro _ | split | dsimp -iota only | dsimp only

theorem State.finishWhole_keeps {z0 : State} {s : State} {f : Nat} {cells : List Host.Cell} (hK : Keeps z0 s) :
    Keeps z0 (State.finishWhole s f cells) := by
  unfold State.finishWhole
  with_reducible
    repeat' first
      | assumption | apply State.setFolio_keeps | apply State.framePut_keeps | apply State.renewSecond_keeps
      | apply State.replaced_keeps | apply Keeps.ite | intro _ | split | dsimp -iota only | dsimp only
      | ((fail_if_success apply Keeps.same); refine Keeps.mk ?_)

theorem State.loseInk_keeps {z0 : State} {s : State} {f : Nat} (hK : Keeps z0 s) :
    Keeps z0 (State.loseInk s f) := by
  unfold State.loseInk
  with_reducible
    repeat' first
      | assumption | apply State.raiseD_keeps | apply State.setFolio_keeps | apply State.folioErase_keeps
      | apply State.markLost_keeps | apply State.replaced_keeps | intro _ | split | dsimp -iota only | dsimp only
      | ((fail_if_success apply Keeps.same); refine Keeps.mk ?_)

theorem State.replacePlace_keepsE {z0 : State} {s : State} {f : Nat} {tE : State} (hE : State.replacePlace s f = some tE) (hK : Keeps z0 s) :
    Keeps z0 tE := by
  unfold State.replacePlace at hE
  repeat' (first | split at hE | dsimp only at hE)
  all_goals (first | cases hE | skip)
  with_reducible
    repeat' first
      | assumption | apply State.setFolio_keeps | refine State.replaceFrameOf_keepsE (by assumption) ?_
      | apply Keeps.ite | intro _ | split | dsimp -iota only | dsimp only
      | ((fail_if_success apply Keeps.same); refine Keeps.mk ?_)

theorem State.replaceShort_keeps {z0 : State} {s : State} (hK : Keeps z0 s) :
    Keeps z0 (State.replaceShort s) := by
  unfold State.replaceShort
  with_reducible
    repeat' first
      | assumption | apply State.raise_keeps | apply Keeps.ite | intro _ | split | dsimp -iota only | dsimp only
      | ((fail_if_success apply Keeps.same); refine Keeps.mk ?_)

theorem State.replaceOne_keeps {z0 : State} {s : State} {f : Nat} (hK : Keeps z0 s) :
    Keeps z0 (State.replaceOne s f) := by
  unfold State.replaceOne
  with_reducible
    repeat' first
      | assumption | apply State.fetchFolio_keeps | apply State.flashRead_keeps | apply State.finishReplace_keeps
      | apply State.loseInk_keeps | refine State.replacePlace_keepsE (by assumption) ?_
      | apply State.replaceShort_keeps | apply Keeps.ite | intro _ | split | dsimp -iota only | dsimp only
      | ((fail_if_success apply Keeps.same); refine Keeps.mk ?_)

theorem State.replaceCopy_keeps {z0 : State} {s : State} {k : Nat} (hK : Keeps z0 s) :
    Keeps z0 (State.replaceCopy s k) := by
  unfold State.replaceCopy
  with_reducible
    repeat' first
      | assumption | refine State.replaceFrameOf_keepsE (by assumption) ?_ | apply State.areaMove_keeps
      | apply State.renewSecond_keeps | apply State.replaceShort_keeps | apply Keeps.ite | intro _ | split
      | dsimp -iota only | dsimp only | ((fail_if_success apply Keeps.same); refine Keeps.mk ?_)

theorem State.replaceAll_keeps {z0 : State} {s : State} (hK : Keeps z0 s) :
    Keeps z0 (State.replaceAll s) := by
  unfold State.replaceAll
  with_reducible
    repeat' first
      | assumption | apply State.replaceOne_keeps | apply State.replaceCopy_keeps
      | refine Keeps.foldl (fun _ _ _ => ?_) ?_ | refine Keeps.foldlFst (fun _ _ _ => ?_) ?_
      | refine Keeps.foldlSnd (fun _ _ _ => ?_) ?_ | intro _ | split | dsimp -iota only | dsimp only

theorem State.snapshot_keeps {z0 : State} {s : State} {c cause cls : Nat} {words : List Nat} (hK : Keeps z0 s) :
    Keeps z0 (State.snapshot s c cause cls words) := by
  unfold State.snapshot
  with_reducible
    repeat' first
      | assumption | apply State.setLive_keeps | refine Keeps.getD ?_ ?_ | refine Keeps.foldl (fun _ _ _ => ?_) ?_
      | refine Keeps.foldlFst (fun _ _ _ => ?_) ?_ | refine Keeps.foldlSnd (fun _ _ _ => ?_) ?_ | apply Keeps.ite
      | intro _ | split | dsimp -iota only | dsimp only

theorem State.pairGone_keeps {z0 : State} {s : State} {f : Nat} (hK : Keeps z0 s) :
    Keeps z0 (State.pairGone s f) := by
  unfold State.pairGone
  repeat' first
    | with_reducible assumption
    | with_reducible exact Keeps.refl _
    | (with_reducible refine State.setFolio_keeps ?_)
    | (with_reducible refine State.subInk_keeps ?_)
    | (with_reducible refine Keeps.getD ?_ ?_)
    | (with_reducible refine Keeps.mapPair (by assumption) ?_)
    | (with_reducible refine Keeps.foldl (fun st x hst => ?_) ?_)
    | (with_reducible refine Keeps.foldlFst (fun st x hst => ?_) ?_)
    | (with_reducible refine Keeps.foldlSnd (fun st x hst => ?_) ?_)
    | (with_reducible refine Keeps.ite ?_ ?_)
    | intro _
    | split
    | dsimp -iota only
    | dsimp only
    | dsimp only [id]
    | exact memWf_nil _
    | (fail_if_success (with_reducible refine Keeps.same ?_)
       with_reducible refine Keeps.mk ?_ ?_ ?_ ?_ ?_ ?_ ?_ ?_ ?_ ?_ ?_ ?_ ?_ <;>
         first | with_reducible exact Nat.le_refl _ | with_reducible exact List.prefix_rfl | with_reducible exact fun hm => hm |
           with_reducible exact List.prefix_append _ _ | with_reducible exact Nat.le_succ _ | with_reducible exact memWriteN_wf | with_reducible exact memClear_wf |
           with_reducible exact memPaste_wf | with_reducible exact memWrite_wf | with_reducible exact memWriteLE_wf | with_reducible exact fun _ => rfl | exact fun _ => memWf_nil _ |
           with_reducible exact fun hm => memWriteN_wf (memWriteN_wf hm) | exact fun _ => rfl |
           exact fun hm => memFold_wf (fun m y hh => memWrite_wf hh) hm |
           exact fun _ => memFold_wf (fun m y hh => memWrite_wf hh) (memWf_nil _) | skip)

theorem State.dropChan_keeps {z0 : State} {s : State} {c : Nat} (hK : Keeps z0 s) :
    Keeps z0 (State.dropChan s c) := by
  unfold State.dropChan
  with_reducible
    repeat' first
      | assumption | apply State.setFolio_keeps | apply State.evictFolio_keeps | apply State.setEntry_keeps
      | apply State.pairGone_keeps | refine Keeps.foldl (fun _ _ _ => ?_) ?_
      | refine Keeps.foldlFst (fun _ _ _ => ?_) ?_ | refine Keeps.foldlSnd (fun _ _ _ => ?_) ?_ | apply Keeps.ite
      | intro _ | split | dsimp -iota only | dsimp only | ((fail_if_success apply Keeps.same); refine Keeps.mk ?_)

theorem State.freezeChan_keeps {z0 : State} {s : State} {c cause cls : Nat} {dpa : Option Nat} {words : List Nat} (hK : Keeps z0 s) :
    Keeps z0 (State.freezeChan s c cause cls dpa words) := by
  unfold State.freezeChan
  with_reducible
    repeat' first
      | assumption | apply State.setLive_keeps | apply State.setFlag_keeps | apply State.raiseD_keeps
      | apply State.sceneChange_keeps | apply State.setChan_keeps | apply State.hasten_keeps
      | apply State.replaceAll_keeps | apply State.snapshot_keeps | apply State.dropChan_keeps
      | refine Keeps.getD ?_ ?_ | intro _ | split | dsimp -iota only | dsimp only
      | ((fail_if_success apply Keeps.same); refine Keeps.mk ?_)

end Sys2Proof.Machine
end

