-- ==== Sys2Proof/Laws/KeepFwFlash.lean ====
section
/-! SUPPORT. What the operations of Machine/FwFlash.lean keep. -/

set_option Elab.async false

namespace Sys2Proof.Machine

theorem State.fwProg_keeps {z0 : State} {s : State} {a : Nat} {bs : List Byte} (hK : Keeps z0 s) :
    Keeps z0 (State.fwProg s a bs) := by
  unfold State.fwProg
  repeat' first
    | with_reducible assumption
    | with_reducible exact Keeps.refl _
    | (with_reducible refine Keeps.getD ?_ ?_)
    | (with_reducible refine Keeps.mapPair (by assumption) ?_)
    | (with_reducible refine Keeps.foldl (fun st x hst => ?_) ?_)
    | (with_reducible refine Keeps.foldlFst (fun st x hst => ?_) ?_)
    | (with_reducible refine Keeps.foldlSnd (fun st x hst => ?_) ?_)
    | (with_reducible refine Keeps.ite ?_ ?_)
    | intro _
    | split
    | dsimp -iota only
    | dsimp only
    | dsimp only [id]
    | exact memWf_nil _
    | (fail_if_success (with_reducible refine Keeps.same ?_)
       with_reducible refine Keeps.mk ?_ ?_ ?_ ?_ ?_ ?_ ?_ ?_ ?_ ?_ ?_ ?_ ?_ <;>
         first | with_reducible exact Nat.le_refl _ | with_reducible exact List.prefix_rfl | with_reducible exact fun hm => hm |
           with_reducible exact List.prefix_append _ _ | with_reducible exact Nat.le_succ _ | with_reducible exact memWriteN_wf | with_reducible exact memClear_wf |
           with_reducible exact memPaste_wf | with_reducible exact memWrite_wf | with_reducible exact memWriteLE_wf | with_reducible exact fun _ => rfl | exact fun _ => memWf_nil _ |
           with_reducible exact fun hm => memWriteN_wf (memWriteN_wf hm) | exact fun _ => rfl |
           exact fun hm => memFold_wf (fun m y hh => memWrite_wf hh) hm |
           exact fun _ => memFold_wf (fun m y hh => memWrite_wf hh) (memWf_nil _) | skip)

theorem State.fwBlank_keeps {z0 : State} {s : State} {i : Nat} (hK : Keeps z0 s) :
    Keeps z0 (State.fwBlank s i) := by
  unfold State.fwBlank
  repeat' first
    | with_reducible assumption
    | with_reducible exact Keeps.refl _
    | (with_reducible refine Keeps.getD ?_ ?_)
    | (with_reducible refine Keeps.mapPair (by assumption) ?_)
    | (with_reducible refine Keeps.foldl (fun st x hst => ?_) ?_)
    | (with_reducible refine Keeps.foldlFst (fun st x hst => ?_) ?_)
    | (with_reducible refine Keeps.foldlSnd (fun st x hst => ?_) ?_)
    | (with_reducible refine Keeps.ite ?_ ?_)
    | intro _
    | split
    | dsimp -iota only
    | dsimp only
    | dsimp only [id]
    | exact memWf_nil _
    | (fail_if_success (with_reducible refine Keeps.same ?_)
       with_reducible refine Keeps.mk ?_ ?_ ?_ ?_ ?_ ?_ ?_ ?_ ?_ ?_ ?_ ?_ ?_ <;>
         first | with_reducible exact Nat.le_refl _ | with_reducible exact List.prefix_rfl | with_reducible exact fun hm => hm |
           with_reducible exact List.prefix_append _ _ | with_reducible exact Nat.le_succ _ | with_reducible exact memWriteN_wf | with_reducible exact memClear_wf |
           with_reducible exact memPaste_wf | with_reducible exact memWrite_wf | with_reducible exact memWriteLE_wf | with_reducible exact fun _ => rfl | exact fun _ => memWf_nil _ |
           with_reducible exact fun hm => memWriteN_wf (memWriteN_wf hm) | exact fun _ => rfl |
           exact fun hm => memFold_wf (fun m y hh => memWrite_wf hh) hm |
           exact fun _ => memFold_wf (fun m y hh => memWrite_wf hh) (memWf_nil _) | skip)

theorem State.fwCountSuspend_keeps {z0 : State} {s : State} {b : Nat} (hK : Keeps z0 s) :
    Keeps z0 (State.fwCountSuspend s b) := by
  unfold State.fwCountSuspend
  with_reducible
    repeat' first
      | assumption | apply State.setFld_keeps | apply State.raiseD_keeps | apply Keeps.ite | intro _ | split
      | dsimp -iota only | dsimp only | ((fail_if_success apply Keeps.same); refine Keeps.mk ?_)

theorem State.fwHardware_keeps {z0 : State} {s : State} {a : Nat} {bs : List Byte} (hK : Keeps z0 s) :
    Keeps z0 (State.fwHardware s a bs) := by
  unfold State.fwHardware
  with_reducible
    repeat' first
      | assumption | apply State.fwProg_keeps | apply State.fwCountSuspend_keeps | apply Keeps.ite | intro _ | split
      | dsimp -iota only | dsimp only

theorem State.fwClearBit_keeps {z0 : State} {s : State} {i : Nat} (hK : Keeps z0 s) :
    Keeps z0 (State.fwClearBit s i) := by
  unfold State.fwClearBit
  with_reducible
    repeat' first
      | assumption | apply State.fwHardware_keeps | intro _ | split | dsimp -iota only | dsimp only

theorem State.fwEraseWhole_keeps {z0 : State} {s : State} {i : Nat} (hK : Keeps z0 s) :
    Keeps z0 (State.fwEraseWhole s i) := by
  unfold State.fwEraseWhole
  with_reducible
    repeat' first
      | assumption | apply State.fwBlank_keeps | apply State.fwClearBit_keeps | intro _ | split | dsimp -iota only
      | dsimp only

theorem State.epochTake_keeps {z0 : State} {s : State} {r : EpochRecord} (hK : Keeps z0 s) :
    Keeps z0 (State.epochTake s r) := by
  unfold State.epochTake
  with_reducible
    repeat' first
      | assumption | apply State.setFld_keeps | apply State.setFlag_keeps | intro _ | split | dsimp -iota only
      | dsimp only | ((fail_if_success apply Keeps.same); refine Keeps.mk ?_)

theorem State.epochWrite_keeps {z0 : State} {s : State} {r : EpochRecord} (hK : Keeps z0 s) :
    Keeps z0 (State.epochWrite s r) := by
  unfold State.epochWrite
  with_reducible
    repeat' first
      | assumption | apply State.fwHardware_keeps | apply State.epochTake_keeps | intro _ | split | dsimp -iota only
      | dsimp only | ((fail_if_success apply Keeps.same); refine Keeps.mk ?_)

theorem State.strikeBegin_keeps {z0 : State} {s : State} (hK : Keeps z0 s) :
    Keeps z0 (State.strikeBegin s) := by
  unfold State.strikeBegin
  with_reducible
    repeat' first
      | assumption | apply State.setFld_keeps | apply State.fwHardware_keeps | intro _ | split | dsimp -iota only
      | dsimp only

theorem State.strikeEnd_keeps {z0 : State} {s : State} (hK : Keeps z0 s) :
    Keeps z0 (State.strikeEnd s) := by
  unfold State.strikeEnd
  with_reducible
    repeat' first
      | assumption | apply State.fwHardware_keeps | intro _ | split | dsimp -iota only | dsimp only

theorem State.renew2_keeps {z0 : State} {s : State} (hK : Keeps z0 s) :
    Keeps z0 (State.renew2 s) := by
  unfold State.renew2
  with_reducible
    repeat' first
      | assumption | apply State.fwHardware_keeps | apply State.fwEraseWhole_keeps | intro _ | split
      | dsimp -iota only | dsimp only

theorem State.renew3_keeps {z0 : State} {s : State} (hK : Keeps z0 s) :
    Keeps z0 (State.renew3 s) := by
  unfold State.renew3
  with_reducible
    repeat' first
      | assumption | apply State.fwHardware_keeps | apply State.fwEraseWhole_keeps | intro _ | split
      | dsimp -iota only | dsimp only

theorem State.renewThree_keeps {z0 : State} {s : State} (hK : Keeps z0 s) :
    Keeps z0 (State.renewThree s) := by
  unfold State.renewThree
  with_reducible
    repeat' first
      | assumption | apply State.renew2_keeps | apply State.renew3_keeps | apply Keeps.ite | intro _ | split
      | dsimp -iota only | dsimp only

theorem State.renewTwo_keeps {z0 : State} {s : State} (hK : Keeps z0 s) :
    Keeps z0 (State.renewTwo s) := by
  unfold State.renewTwo
  with_reducible
    repeat' first
      | assumption | apply State.renew2_keeps | apply State.renew3_keeps | apply Keeps.ite | intro _ | split
      | dsimp -iota only | dsimp only

theorem State.renewals_keeps {z0 : State} {s : State} (hK : Keeps z0 s) :
    Keeps z0 (State.renewals s) := by
  unfold State.renewals
  with_reducible
    repeat' first
      | assumption | apply State.renewThree_keeps | apply State.renewTwo_keeps | apply Keeps.ite | intro _ | split
      | dsimp -iota only | dsimp only

end Sys2Proof.Machine
end

