-- ==== Sys2Proof/Laws/KeepScene.lean ====
section
/-! SUPPORT. What the operations of Machine/Scene.lean keep. -/

set_option Elab.async false

namespace Sys2Proof.Machine

theorem State.takeImages_keeps {z0 : State} {s : State} {is : List Image} (hK : Keeps z0 s) :
    Keeps z0 (State.takeImages s is) := by
  unfold State.takeImages
  with_reducible
    repeat' first
      | assumption | apply State.raiseD_keeps | refine Keeps.foldl (fun _ _ _ => ?_) ?_
      | refine Keeps.foldlFst (fun _ _ _ => ?_) ?_ | refine Keeps.foldlSnd (fun _ _ _ => ?_) ?_ | apply Keeps.ite
      | intro _ | split | dsimp -iota only | dsimp only | ((fail_if_success apply Keeps.same); refine Keeps.mk ?_)

theorem State.freshBase_keeps {z0 : State} {s : State} (hK : Keeps z0 s) :
    Keeps z0 (State.freshBase s) := by
  unfold State.freshBase
  with_reducible
    repeat' first
      | assumption | apply State.setBase_keeps | refine Keeps.foldl (fun _ _ _ => ?_) ?_
      | refine Keeps.foldlFst (fun _ _ _ => ?_) ?_ | refine Keeps.foldlSnd (fun _ _ _ => ?_) ?_ | intro _ | split
      | dsimp -iota only | dsimp only | ((fail_if_success apply Keeps.same); refine Keeps.mk ?_)

theorem State.reloadBase_keeps {z0 : State} {s : State} (hK : Keeps z0 s) :
    Keeps z0 (State.reloadBase s) := by
  unfold State.reloadBase
  with_reducible
    repeat' first
      | assumption | apply State.setBase_keeps | refine Keeps.foldl (fun _ _ _ => ?_) ?_
      | refine Keeps.foldlFst (fun _ _ _ => ?_) ?_ | refine Keeps.foldlSnd (fun _ _ _ => ?_) ?_ | intro _ | split
      | dsimp -iota only | dsimp only | ((fail_if_success apply Keeps.same); refine Keeps.mk ?_)

theorem State.bringIn_keeps {z0 : State} {s : State} {cs : List (RegId × Nat × Nat)} {c : RegId × Nat × Nat} (hK : Keeps z0 s) :
    Keeps z0 (State.bringIn s cs c) := by
  unfold State.bringIn
  with_reducible
    repeat' first
      | assumption | apply State.setLive_keeps | apply State.raiseD_keeps | apply State.raise_keeps | apply Keeps.ite
      | intro _ | split | dsimp -iota only | dsimp only

theorem State.vddAfter_keeps {z0 : State} {s : State} (hK : Keeps z0 s) :
    Keeps z0 (State.vddAfter s) := by
  unfold State.vddAfter
  with_reducible
    repeat' first
      | assumption | apply State.setFld_keeps | apply State.setFlag_keeps | refine Keeps.foldl (fun _ _ _ => ?_) ?_
      | refine Keeps.foldlFst (fun _ _ _ => ?_) ?_ | refine Keeps.foldlSnd (fun _ _ _ => ?_) ?_ | apply Keeps.ite
      | intro _ | split | dsimp -iota only | dsimp only

theorem State.enterRole_keeps {z0 : State} {s : State} {r : Nat} (hK : Keeps z0 s) :
    Keeps z0 (State.enterRole s r) := by
  unfold State.enterRole
  with_reducible
    repeat' first
      | assumption | apply State.setFld_keeps | apply State.setFlag_keeps | apply State.raiseD_keeps | apply Keeps.ite
      | intro _ | split | dsimp -iota only | dsimp only | ((fail_if_success apply Keeps.same); refine Keeps.mk ?_)

theorem State.limitFollows_keeps {z0 : State} {s : State} {old : Nat} (hK : Keeps z0 s) :
    Keeps z0 (State.limitFollows s old) := by
  unfold State.limitFollows
  with_reducible
    repeat' first
      | assumption | apply State.setCeiling_keeps | apply State.pairShrink_keeps | apply State.pairGrow_keeps
      | apply Pass.step_keeps | apply Keeps.ite | intro _ | split | dsimp -iota only | dsimp only

theorem State.applySet_keeps {z0 : State} {s : State} {set : Nat} (hK : Keeps z0 s) :
    Keeps z0 (State.applySet s set) := by
  unfold State.applySet
  with_reducible
    repeat' first
      | assumption | apply State.setFld_keeps | apply State.coresFollow_keeps | apply State.raiseSev_keeps
      | apply State.raiseD_keeps | apply State.linksIdle_keeps | apply State.bringIn_keeps
      | apply State.vddAfter_keeps | apply State.enterRole_keeps | apply State.limitFollows_keeps
      | refine Keeps.foldl (fun _ _ _ => ?_) ?_ | refine Keeps.foldlFst (fun _ _ _ => ?_) ?_
      | refine Keeps.foldlSnd (fun _ _ _ => ?_) ?_ | apply Keeps.ite | intro _ | split | dsimp -iota only | dsimp only
      | ((fail_if_success apply Keeps.same); refine Keeps.mk ?_)

theorem State.nextBoundary_keeps {z0 : State} {s : State} (hK : Keeps z0 s) :
    Keeps z0 (State.nextBoundary s) := by
  unfold State.nextBoundary
  with_reducible
    repeat' first
      | assumption | apply State.setFld_keeps | apply State.setFlag_keeps | apply State.applySet_keeps | intro _
      | split | dsimp -iota only | dsimp only | ((fail_if_success apply Keeps.same); refine Keeps.mk ?_)

theorem State.sceneNow_keeps {z0 : State} {s : State} {set clear : Nat} (hK : Keeps z0 s) :
    Keeps z0 (State.sceneNow s set clear) := by
  unfold State.sceneNow
  with_reducible
    repeat' first
      | assumption | apply State.sceneChange_keeps | apply State.nextBoundary_keeps | apply Keeps.ite | intro _
      | split | dsimp -iota only | dsimp only

theorem State.sceneStrike_keeps {z0 : State} {s : State} (hK : Keeps z0 s) :
    Keeps z0 (State.sceneStrike s) := by
  unfold State.sceneStrike
  with_reducible
    repeat' first
      | assumption | apply State.setFld_keeps | apply State.setFlag_keeps | apply State.applySet_keeps
      | refine Keeps.foldl (fun _ _ _ => ?_) ?_ | refine Keeps.foldlFst (fun _ _ _ => ?_) ?_
      | refine Keeps.foldlSnd (fun _ _ _ => ?_) ?_ | apply Keeps.ite | intro _ | split | dsimp -iota only | dsimp only
      | ((fail_if_success apply Keeps.same); refine Keeps.mk ?_)

theorem State.requestSet_keeps {z0 : State} {s : State} {set : Nat} (hK : Keeps z0 s) :
    Keeps z0 (State.requestSet s set) := by
  unfold State.requestSet
  with_reducible
    repeat' first
      | assumption | apply State.setFld_keeps | apply State.setFlag_keeps | apply Keeps.ite | intro _ | split
      | dsimp -iota only | dsimp only | ((fail_if_success apply Keeps.same); refine Keeps.mk ?_)

theorem State.takeRole_keeps {z0 : State} {s : State} {role epoch : Nat} (hK : Keeps z0 s) :
    Keeps z0 (State.takeRole s role epoch) := by
  unfold State.takeRole
  with_reducible
    repeat' first
      | assumption | apply State.epochWrite_keeps | apply State.sceneNow_keeps | apply Keeps.ite | intro _ | split
      | dsimp -iota only | dsimp only | ((fail_if_success apply Keeps.same); refine Keeps.mk ?_)

theorem State.tookOver_keeps {z0 : State} {s : State} (hK : Keeps z0 s) :
    Keeps z0 (State.tookOver s) := by
  unfold State.tookOver
  with_reducible
    repeat' first
      | assumption | intro _ | split | dsimp -iota only | dsimp only
      | ((fail_if_success apply Keeps.same); refine Keeps.mk ?_)

end Sys2Proof.Machine
end

