-- ==== Sys2Proof/Laws/KeepTwinSend.lean ====
section
/-! SUPPORT. What the operations of Machine/TwinSend.lean keep. -/

set_option Elab.async false

namespace Sys2Proof.Machine

theorem State.folioWhole_keeps {z0 : State} {s : State} {f : Nat} (hK : Keeps z0 s) :
    Keeps z0 (State.folioWhole s f).2 := by
  unfold State.folioWhole
  with_reducible
    repeat' first
      | assumption | apply State.folioCells_keeps | refine State.folioCells_keepsE (by assumption) ?_
      | apply Keeps.ite | intro _ | split | dsimp -iota only | dsimp only

theorem State.folioWhole_keepsE {z0 : State} {s : State} {f : Nat} {tE : State} {uE} (hE : State.folioWhole s f = (uE, tE)) (hK : Keeps z0 s) :
    Keeps z0 tE := by
  have k := State.folioWhole_keeps (z0 := z0) (s := s) (f := f)  hK
  rw [hE] at k
  exact k

theorem State.sendWhole_keeps {z0 : State} {s : State} {hand : Bool} {f : Nat} (hK : Keeps z0 s) :
    Keeps z0 (State.sendWhole s hand f) := by
  unfold State.sendWhole
  with_reducible
    repeat' first
      | assumption | apply State.allocFolio_keeps | apply State.twinSend_keeps | apply State.folioWhole_keeps
      | refine State.folioWhole_keepsE (by assumption) ?_ | apply Keeps.ite | intro _ | split | dsimp -iota only
      | dsimp only

theorem State.dropSecond_keeps {z0 : State} {s : State} {f : Nat} (hK : Keeps z0 s) :
    Keeps z0 (State.dropSecond s f) := by
  unfold State.dropSecond
  repeat' first
    | with_reducible assumption
    | with_reducible exact Keeps.refl _
    | (with_reducible refine Keeps.getD ?_ ?_)
    | (with_reducible refine Keeps.mapPair (by assumption) ?_)
    | (with_reducible refine Keeps.foldl (fun st x hst => ?_) ?_)
    | (with_reducible refine Keeps.foldlFst (fun st x hst => ?_) ?_)
    | (with_reducible refine Keeps.foldlSnd (fun st x hst => ?_) ?_)
    | (with_reducible refine Keeps.ite ?_ ?_)
    | intro _
    | split
    | dsimp -iota only
    | dsimp only
    | dsimp only [id]
    | exact memWf_nil _
    | (fail_if_success (with_reducible refine Keeps.same ?_)
       with_reducible refine Keeps.mk ?_ ?_ ?_ ?_ ?_ ?_ ?_ ?_ ?_ ?_ ?_ ?_ ?_ <;>
         first | with_reducible exact Nat.le_refl _ | with_reducible exact List.prefix_rfl | with_reducible exact fun hm => hm |
           with_reducible exact List.prefix_append _ _ | with_reducible exact Nat.le_succ _ | with_reducible exact memWriteN_wf | with_reducible exact memClear_wf |
           with_reducible exact memPaste_wf | with_reducible exact memWrite_wf | with_reducible exact memWriteLE_wf | with_reducible exact fun _ => rfl | exact fun _ => memWf_nil _ |
           with_reducible exact fun hm => memWriteN_wf (memWriteN_wf hm) | exact fun _ => rfl |
           exact fun hm => memFold_wf (fun m y hh => memWrite_wf hh) hm |
           exact fun _ => memFold_wf (fun m y hh => memWrite_wf hh) (memWf_nil _) | skip)

theorem State.dropStageReads_keeps {z0 : State} {s : State} {f : Nat} (hK : Keeps z0 s) :
    Keeps z0 (State.dropStageReads s f) := by
  unfold State.dropStageReads
  with_reducible
    repeat' first
      | assumption | intro _ | split | dsimp -iota only | dsimp only
      | ((fail_if_success apply Keeps.same); refine Keeps.mk ?_)

theorem State.intoFrame_keeps {z0 : State} {s : State} {f fr : Nat} {cells : List Host.Cell} (hK : Keeps z0 s) :
    Keeps z0 (State.intoFrame s f fr cells) := by
  unfold State.intoFrame
  with_reducible
    repeat' first
      | assumption | apply State.setFolio_keeps | apply State.addInk_keeps | apply State.folioPut_keeps
      | apply State.stageDone_keeps | apply State.buildSecond_keeps | apply State.dropSecond_keeps
      | apply State.dropStageReads_keeps | apply Keeps.ite | intro _ | split | dsimp -iota only | dsimp only
      | ((fail_if_success apply Keeps.same); refine Keeps.mk ?_)

theorem State.holdWhole_keeps {z0 : State} {s : State} {f : Nat} {cells : List Host.Cell} (hK : Keeps z0 s) :
    Keeps z0 (State.holdWhole s f cells) := by
  unfold State.holdWhole
  repeat' first
    | with_reducible assumption
    | with_reducible exact Keeps.refl _
    | (with_reducible refine State.setFolio_keeps ?_)
    | (with_reducible refine State.addInk_keeps ?_)
    | (with_reducible refine State.takePair_keeps ?_)
    | (with_reducible refine State.wakePair_keeps ?_)
    | (with_reducible refine State.openEntry_keeps ?_)
    | (with_reducible refine Keeps.getD ?_ ?_)
    | (with_reducible refine Keeps.mapPair (by assumption) ?_)
    | (with_reducible refine Keeps.foldl (fun st x hst => ?_) ?_)
    | (with_reducible refine Keeps.foldlFst (fun st x hst => ?_) ?_)
    | (with_reducible refine Keeps.foldlSnd (fun st x hst => ?_) ?_)
    | (with_reducible refine Keeps.ite ?_ ?_)
    | intro _
    | split
    | dsimp -iota only
    | dsimp only
    | dsimp only [id]
    | exact memWf_nil _
    | (fail_if_success (with_reducible refine Keeps.same ?_)
       with_reducible refine Keeps.mk ?_ ?_ ?_ ?_ ?_ ?_ ?_ ?_ ?_ ?_ ?_ ?_ ?_ <;>
         first | with_reducible exact Nat.le_refl _ | with_reducible exact List.prefix_rfl | with_reducible exact fun hm => hm |
           with_reducible exact List.prefix_append _ _ | with_reducible exact Nat.le_succ _ | with_reducible exact memWriteN_wf | with_reducible exact memClear_wf |
           with_reducible exact memPaste_wf | with_reducible exact memWrite_wf | with_reducible exact memWriteLE_wf | with_reducible exact fun _ => rfl | exact fun _ => memWf_nil _ |
           with_reducible exact fun hm => memWriteN_wf (memWriteN_wf hm) | exact fun _ => rfl |
           exact fun hm => memFold_wf (fun m y hh => memWrite_wf hh) hm |
           exact fun _ => memFold_wf (fun m y hh => memWrite_wf hh) (memWf_nil _) | skip)

theorem State.takeWhole_keeps {z0 : State} {s : State} {f : Nat} {cells : List Host.Cell} (hK : Keeps z0 s) :
    Keeps z0 (State.takeWhole s f cells) := by
  unfold State.takeWhole
  with_reducible
    repeat' first
      | assumption | apply State.touch_keeps | apply State.markLost_keeps
      | refine State.stageFrame_keepsE (by assumption) ?_ | apply State.intoFrame_keeps | apply State.holdWhole_keeps
      | apply Keeps.ite | intro _ | split | dsimp -iota only | dsimp only

theorem State.mirrorCopy_keeps {z0 : State} {s : State} {r : Nat} (hK : Keeps z0 s) :
    Keeps z0 (State.mirrorCopy s r) := by
  unfold State.mirrorCopy
  with_reducible
    repeat' first
      | assumption | apply State.twinSend_keeps | apply State.sendWhole_keeps
      | refine Keeps.foldl (fun _ _ _ => ?_) ?_ | refine Keeps.foldlFst (fun _ _ _ => ?_) ?_
      | refine Keeps.foldlSnd (fun _ _ _ => ?_) ?_ | apply Keeps.ite | intro _ | split | dsimp -iota only | dsimp only
      | ((fail_if_success apply Keeps.same); refine Keeps.mk ?_)

theorem State.mirrorCopies_keeps {z0 : State} {s : State} (hK : Keeps z0 s) :
    Keeps z0 (State.mirrorCopies s) := by
  unfold State.mirrorCopies
  with_reducible
    repeat' first
      | assumption | apply State.mirrorCopy_keeps | refine Keeps.foldl (fun _ _ _ => ?_) ?_
      | refine Keeps.foldlFst (fun _ _ _ => ?_) ?_ | refine Keeps.foldlSnd (fun _ _ _ => ?_) ?_ | apply Keeps.ite
      | intro _ | split | dsimp -iota only | dsimp only

theorem State.answerAsked_keeps {z0 : State} {s : State} (hK : Keeps z0 s) :
    Keeps z0 (State.answerAsked s) := by
  unfold State.answerAsked
  with_reducible
    repeat' first
      | assumption | apply State.folioCells_keeps | refine State.folioCells_keepsE (by assumption) ?_
      | apply State.twinSendUp_keeps | refine Keeps.foldl (fun _ _ _ => ?_) ?_
      | refine Keeps.foldlFst (fun _ _ _ => ?_) ?_ | refine Keeps.foldlSnd (fun _ _ _ => ?_) ?_ | apply Keeps.ite
      | intro _ | split | dsimp -iota only | dsimp only | ((fail_if_success apply Keeps.same); refine Keeps.mk ?_)

theorem State.takeOneFetched_keeps {z0 : State} {s : State} {j : Nat × FetchWhy × List Host.Cell} (hK : Keeps z0 s) :
    Keeps z0 (State.takeOneFetched s j) := by
  unfold State.takeOneFetched
  with_reducible
    repeat' first
      | assumption | apply State.addSat_keeps | apply State.raiseD_keeps | apply State.setFolio_keeps
      | apply State.addInk_keeps | apply State.folioPut_keeps | apply State.overlaySecond_keeps
      | apply State.sendAhead_keeps | apply State.markLost_keeps | refine State.stageFrame_keepsE (by assumption) ?_
      | apply State.stageDone_keeps | apply State.dropSecond_keeps | apply State.intoFrame_keeps | apply Keeps.ite
      | intro _ | split | dsimp -iota only | dsimp only | ((fail_if_success apply Keeps.same); refine Keeps.mk ?_)

theorem State.takeFetched_keeps {z0 : State} {s : State} (hK : Keeps z0 s) :
    Keeps z0 (State.takeFetched s) := by
  unfold State.takeFetched
  with_reducible
    repeat' first
      | assumption | apply State.takeOneFetched_keeps | refine Keeps.foldl (fun _ _ _ => ?_) ?_
      | refine Keeps.foldlFst (fun _ _ _ => ?_) ?_ | refine Keeps.foldlSnd (fun _ _ _ => ?_) ?_ | intro _ | split
      | dsimp -iota only | dsimp only

theorem State.handoverGo_keeps {z0 : State} {s : State} (hK : Keeps z0 s) :
    Keeps z0 (State.handoverGo s) := by
  unfold State.handoverGo
  with_reducible
    repeat' first
      | assumption | apply State.twinSend_keeps | apply Keeps.ite | intro _ | split | dsimp -iota only | dsimp only
      | ((fail_if_success apply Keeps.same); refine Keeps.mk ?_)

theorem State.handoverTake_keeps {z0 : State} {s : State} (hK : Keeps z0 s) :
    Keeps z0 (State.handoverTake s) := by
  unfold State.handoverTake
  with_reducible
    repeat' first
      | assumption | apply State.twinSend_keeps | apply State.takeRole_keeps | apply State.tookOver_keeps
      | apply Keeps.ite | intro _ | split | dsimp -iota only | dsimp only
      | ((fail_if_success apply Keeps.same); refine Keeps.mk ?_)

theorem State.sendAck_keeps {z0 : State} {s : State} (hK : Keeps z0 s) :
    Keeps z0 (State.sendAck s) := by
  unfold State.sendAck
  with_reducible
    repeat' first
      | assumption | apply State.twinSend_keeps | apply Keeps.ite | intro _ | split | dsimp -iota only | dsimp only
      | ((fail_if_success apply Keeps.same); refine Keeps.mk ?_)

theorem State.twinFirst_keeps {z0 : State} {s : State} (hK : Keeps z0 s) :
    Keeps z0 (State.twinFirst s) := by
  unfold State.twinFirst
  with_reducible
    repeat' first
      | assumption | apply State.takeFetched_keeps | intro _ | split | dsimp -iota only | dsimp only

theorem State.twinLast_keeps {z0 : State} {s : State} (hK : Keeps z0 s) :
    Keeps z0 (State.twinLast s) := by
  unfold State.twinLast
  with_reducible
    repeat' first
      | assumption | apply State.mirrorCopies_keeps | apply State.answerAsked_keeps | apply State.handoverGo_keeps
      | apply State.handoverTake_keeps | apply State.sendAck_keeps | intro _ | split | dsimp -iota only | dsimp only

end Sys2Proof.Machine
end

