-- ==== Sys2Proof/Laws/KeepCues.lean ====
section
/-! SUPPORT. What the operations of Machine/Cues.lean keep. -/

set_option Elab.async false

namespace Sys2Proof.Machine

theorem State.setCueRun_keeps {z0 : State} {s : State} {r : CueRun} (hK : Keeps z0 s) :
    Keeps z0 (State.setCueRun s r) := by
  unfold State.setCueRun
  with_reducible
    repeat' first
      | assumption | apply Keeps.ite | intro _ | split | dsimp -iota only | dsimp only
      | ((fail_if_success apply Keeps.same); refine Keeps.mk ?_)

theorem State.runCount_keeps {z0 : State} {s : State} (hK : Keeps z0 s) :
    Keeps z0 (State.runCount s) := by
  unfold State.runCount
  with_reducible
    repeat' first
      | assumption | apply State.setFld_keeps | intro _ | split | dsimp -iota only | dsimp only

theorem State.openRun_keeps {z0 : State} {s : State} {r : CueRun} (hK : Keeps z0 s) :
    Keeps z0 (State.openRun s r) := by
  unfold State.openRun
  with_reducible
    repeat' first
      | assumption | apply State.raiseD_keeps | apply State.take_keeps | apply State.setCueRun_keeps
      | apply State.runCount_keeps | apply Keeps.ite | intro _ | split | dsimp -iota only | dsimp only
      | ((fail_if_success apply Keeps.same); refine Keeps.mk ?_)

theorem State.openRuns_keeps {z0 : State} {s : State} (hK : Keeps z0 s) :
    Keeps z0 (State.openRuns s) := by
  unfold State.openRuns
  with_reducible
    repeat' first
      | assumption | apply State.raise_keeps | apply State.openRun_keeps | refine Keeps.foldl (fun _ _ _ => ?_) ?_
      | refine Keeps.foldlFst (fun _ _ _ => ?_) ?_ | refine Keeps.foldlSnd (fun _ _ _ => ?_) ?_ | apply Keeps.ite
      | intro _ | split | dsimp -iota only | dsimp only | ((fail_if_success apply Keeps.same); refine Keeps.mk ?_)

theorem State.startRun_keeps {z0 : State} {s : State} {k base ident win : Nat} (hK : Keeps z0 s) :
    Keeps z0 (State.startRun s k base ident win) := by
  unfold State.startRun
  with_reducible
    repeat' first
      | assumption | apply State.openRuns_keeps | intro _ | split | dsimp -iota only | dsimp only
      | ((fail_if_success apply Keeps.same); refine Keeps.mk ?_)

theorem State.unpinFolio_keeps {z0 : State} {s : State} {f : Nat} (hK : Keeps z0 s) :
    Keeps z0 (State.unpinFolio s f) := by
  unfold State.unpinFolio
  with_reducible
    repeat' first
      | assumption | apply State.subFld_keeps | apply State.setFolio_keeps | apply Keeps.ite | intro _ | split
      | dsimp -iota only | dsimp only | ((fail_if_success apply Keeps.same); refine Keeps.mk ?_)

theorem State.closeRun_keeps {z0 : State} {s : State} {k : Nat} (hK : Keeps z0 s) :
    Keeps z0 (State.closeRun s k) := by
  unfold State.closeRun
  with_reducible
    repeat' first
      | assumption | apply State.runCount_keeps | apply State.openRuns_keeps | apply State.unpinFolio_keeps
      | refine Keeps.foldl (fun _ _ _ => ?_) ?_ | refine Keeps.foldlFst (fun _ _ _ => ?_) ?_
      | refine Keeps.foldlSnd (fun _ _ _ => ?_) ?_ | intro _ | split | dsimp -iota only | dsimp only
      | ((fail_if_success apply Keeps.same); refine Keeps.mk ?_)

theorem State.moveCursor_keeps {z0 : State} {s : State} {r : CueRun} {v : Nat} (hK : Keeps z0 s) :
    Keeps z0 (State.moveCursor s r v) := by
  unfold State.moveCursor
  with_reducible
    repeat' first
      | assumption | apply State.sample_keeps | apply State.setFolio_keeps | apply State.setCueRun_keeps
      | apply State.unpinFolio_keeps | refine Keeps.foldl (fun _ _ _ => ?_) ?_
      | refine Keeps.foldlFst (fun _ _ _ => ?_) ?_ | refine Keeps.foldlSnd (fun _ _ _ => ?_) ?_ | apply Keeps.ite
      | intro _ | split | dsimp -iota only | dsimp only | ((fail_if_success apply Keeps.same); refine Keeps.mk ?_)

theorem State.cueNow_keeps {z0 : State} {s : State} {r : CueRun} {i status : Nat} (hK : Keeps z0 s) :
    Keeps z0 (State.cueNow s r i status) := by
  unfold State.cueNow
  with_reducible
    repeat' first
      | assumption | apply State.cueResult_keeps | apply State.setCueRun_keeps | intro _ | split | dsimp -iota only
      | dsimp only | ((fail_if_success apply Keeps.same); refine Keeps.mk ?_)

theorem State.cueIssue_keeps {z0 : State} {s : State} {r0 : CueRun} (hK : Keeps z0 s) :
    Keeps z0 (State.cueIssue s r0).1 := by
  unfold State.cueIssue
  with_reducible
    repeat' first
      | assumption | apply State.openEntry_keeps | apply State.setCueRun_keeps | apply State.cueNow_keeps
      | apply Keeps.ite | intro _ | split | dsimp -iota only | dsimp only
      | ((fail_if_success apply Keeps.same); refine Keeps.mk ?_)

theorem State.cueIssue_keepsE {z0 : State} {s : State} {r0 : CueRun} {tE : State} {uE} (hE : State.cueIssue s r0 = (tE, uE)) (hK : Keeps z0 s) :
    Keeps z0 tE := by
  have k := State.cueIssue_keeps (z0 := z0) (s := s) (r0 := r0)  hK
  rw [hE] at k
  exact k

theorem State.cueIssueRun_keeps {z0 : State} {s : State} {k : Nat} {a0 : Nat} (hK : Keeps z0 s) :
    Keeps z0 (State.cueIssueRun s k a0) := by
  fun_induction State.cueIssueRun s k a0
  all_goals
    with_reducible
      repeat' first
        | assumption | apply State.cueIssue_keeps | refine State.cueIssue_keepsE (by assumption) ?_ | apply_assumption
        | intro _ | split | dsimp -iota only | dsimp only
  
theorem State.cueIssueAll_keeps {z0 : State} {s : State} (hK : Keeps z0 s) :
    Keeps z0 (State.cueIssueAll s) := by
  unfold State.cueIssueAll
  with_reducible
    repeat' first
      | assumption | apply State.cueIssueRun_keeps | refine Keeps.foldl (fun _ _ _ => ?_) ?_
      | refine Keeps.foldlFst (fun _ _ _ => ?_) ?_ | refine Keeps.foldlSnd (fun _ _ _ => ?_) ?_ | intro _ | split
      | dsimp -iota only | dsimp only

theorem State.cueAuto_keeps {z0 : State} {s : State} {k f : Nat} (hK : Keeps z0 s) :
    Keeps z0 (State.cueAuto s k f) := by
  unfold State.cueAuto
  with_reducible
    repeat' first
      | assumption | apply State.moveCursor_keeps | apply Keeps.ite | intro _ | split | dsimp -iota only | dsimp only

theorem State.blotRegs_keeps {z0 : State} {s : State} (hK : Keeps z0 s) :
    Keeps z0 (State.blotRegs s) := by
  unfold State.blotRegs
  with_reducible
    repeat' first
      | assumption | apply State.setFld_keeps | refine Keeps.foldl (fun _ _ _ => ?_) ?_
      | refine Keeps.foldlFst (fun _ _ _ => ?_) ?_ | refine Keeps.foldlSnd (fun _ _ _ => ?_) ?_ | intro _ | split
      | dsimp -iota only | dsimp only | ((fail_if_success apply Keeps.same); refine Keeps.mk ?_)

theorem State.settle_keeps {z0 : State} {s : State} (hK : Keeps z0 s) :
    Keeps z0 (State.settle s) := by
  unfold State.settle
  with_reducible
    repeat' first
      | assumption | apply State.issueReads_keeps | apply State.assignWaiting_keeps | apply State.openWanted_keeps
      | apply State.drainCompl_keeps | apply State.completeApplied_keeps | apply State.boundedGate_keeps
      | apply State.sliceGrants_keeps | apply State.maintGo_keeps | apply State.releaseHeld_keeps
      | apply State.admitAll_keeps | apply State.barriers_keeps | apply State.trackerRegs_keeps
      | apply State.replaceAll_keeps | apply State.twinFirst_keeps | apply State.twinLast_keeps
      | apply State.cueIssueAll_keeps | apply State.blotRegs_keeps | intro _ | split | dsimp -iota only | dsimp only

/-- A microsecond with no command waiting takes nothing back, the clock apart. -/
theorem State.idle_keeps (s : State) : Keeps { s with clock := s.clock + 1 } s.idle :=
  State.blotRegs_keeps (State.tickWork_keeps (Keeps.refl _))

end Sys2Proof.Machine
end

