-- ==== Sys2Proof/Laws/KeepOperands.lean ====
section
/-! SUPPORT. What the operations of Machine/Operands.lean keep. -/

set_option Elab.async false

namespace Sys2Proof.Machine

theorem State.holdMailOut_keeps {z0 : State} {s : State} {mb op : Nat} {input : List Byte} {out : List Nat} (hK : Keeps z0 s) :
    Keeps z0 (State.holdMailOut s mb op input out) := by
  unfold State.holdMailOut
  with_reducible
    repeat' first
      | assumption | intro _ | split | dsimp -iota only | dsimp only
      | ((fail_if_success apply Keeps.same); refine Keeps.mk ?_)

theorem State.holdMail_keeps {z0 : State} {s : State} {mb op : Nat} {input : List Byte} (hK : Keeps z0 s) :
    Keeps z0 (State.holdMail s mb op input) := by
  unfold State.holdMail
  with_reducible
    repeat' first
      | assumption | apply State.holdMailOut_keeps | intro _ | split | dsimp -iota only | dsimp only

theorem State.vendor_keeps {z0 : State} {s : State} {mb op len : Nat} {admin fenceable : Bool} {input : List Byte} {body : State → State} (kbody : ∀ y0, Keeps z0 y0 → Keeps z0 (body y0)) (hK : Keeps z0 s) :
    Keeps z0 (State.vendor s mb op len admin fenceable input body) := by
  unfold State.vendor
  with_reducible
    repeat' first
      | assumption | apply State.send_keeps | apply State.answer_keeps | apply State.holdMail_keeps
      | refine kbody _ ?_ | apply Keeps.ite | intro _ | split | dsimp -iota only | dsimp only

theorem State.standard_keeps {z0 : State} {s : State} {mb op len : Nat} {input : List Byte} {body : State → State} (kbody : ∀ y0, Keeps z0 y0 → Keeps z0 (body y0)) (hK : Keeps z0 s) :
    Keeps z0 (State.standard s mb op len input body) := by
  unfold State.standard
  with_reducible
    repeat' first
      | assumption | apply State.send_keeps | apply State.holdMail_keeps | refine kbody _ ?_ | apply Keeps.ite
      | intro _ | split | dsimp -iota only | dsimp only

theorem State.answerStd_keeps {z0 : State} {s : State} {mb op : Nat} {payload : List Byte} (hK : Keeps z0 s) :
    Keeps z0 (State.answerStd s mb op payload) := by
  unfold State.answerStd
  with_reducible
    repeat' first
      | assumption | apply State.send_keeps | intro _ | split | dsimp -iota only | dsimp only

theorem State.freeBytes_keeps {z0 s : State} {n : Nat} (h : Keeps z0 s) : Keeps z0 (State.freeBytes s n).2 := by
  induction n generalizing s with
  | zero => exact h
  | succ n ih => exact ih (State.nextFresh_keeps h)

theorem State.freeBytes_keepsE {z0 s tE : State} {n : Nat} {uE : List Byte} (hE : State.freeBytes s n = (uE, tE))
    (h : Keeps z0 s) : Keeps z0 tE := by
  have k := State.freeBytes_keeps (n := n) h
  rw [hE] at k
  exact k

end Sys2Proof.Machine
end

