-- ==== Sys2Proof/Laws/KeepCommit.lean ====
section
/-! SUPPORT. What the operations of Machine/Commit.lean keep. -/

set_option Elab.async false

namespace Sys2Proof.Machine

theorem State.setTabEntry_keeps {z0 : State} {s : State} {live : Bool} {table i : Nat} {ws : List Nat} (hK : Keeps z0 s) :
    Keeps z0 (State.setTabEntry s live table i ws) := by
  unfold State.setTabEntry
  with_reducible
    repeat' first
      | assumption | apply State.setTab_keeps | refine Keeps.foldl (fun _ _ _ => ?_) ?_
      | refine Keeps.foldlFst (fun _ _ _ => ?_) ?_ | refine Keeps.foldlSnd (fun _ _ _ => ?_) ?_ | intro _ | split
      | dsimp -iota only | dsimp only

theorem State.sendTables_keeps {z0 : State} {s : State} {live : Bool} {es : List (Nat × Nat)} (hK : Keeps z0 s) :
    Keeps z0 (State.sendTables s live es) := by
  unfold State.sendTables
  with_reducible
    repeat' first
      | assumption | apply State.twinSend_keeps | refine Keeps.foldl (fun _ _ _ => ?_) ?_
      | refine Keeps.foldlFst (fun _ _ _ => ?_) ?_ | refine Keeps.foldlSnd (fun _ _ _ => ?_) ?_ | apply Keeps.ite
      | intro _ | split | dsimp -iota only | dsimp only | ((fail_if_success apply Keeps.same); refine Keeps.mk ?_)

theorem State.commitStat_keeps {z0 : State} {s : State} {busy : Bool} {f : CommitFinding} (hK : Keeps z0 s) :
    Keeps z0 (State.commitStat s busy f) := by
  unfold State.commitStat
  with_reducible
    repeat' first
      | assumption | apply State.setLive_keeps | intro _ | split | dsimp -iota only | dsimp only

theorem State.commitTell_keeps {z0 : State} {s : State} {by_ : Committer} {status : Nat} (hK : Keeps z0 s) :
    Keeps z0 (State.commitTell s by_ status) := by
  unfold State.commitTell
  with_reducible
    repeat' first
      | assumption | apply State.setTab_keeps | apply State.send_keeps | apply State.answer_keeps
      | apply State.twinSendUp_keeps | refine Keeps.foldl (fun _ _ _ => ?_) ?_
      | refine Keeps.foldlFst (fun _ _ _ => ?_) ?_ | refine Keeps.foldlSnd (fun _ _ _ => ?_) ?_ | apply Keeps.ite
      | intro _ | split | dsimp -iota only | dsimp only | ((fail_if_success apply Keeps.same); refine Keeps.mk ?_)

theorem State.commitRefused_keeps {z0 : State} {s : State} {by_ : Committer} {f : CommitFinding} (hK : Keeps z0 s) :
    Keeps z0 (State.commitRefused s by_ f) := by
  unfold State.commitRefused
  with_reducible
    repeat' first
      | assumption | apply State.raiseD_keeps | apply State.commitStat_keeps | apply State.commitTell_keeps
      | apply Keeps.ite | intro _ | split | dsimp -iota only | dsimp only
      | ((fail_if_success apply Keeps.same); refine Keeps.mk ?_)

theorem State.cleanRegion_keeps {z0 : State} {s : State} {e : Rgn} (hK : Keeps z0 s) :
    Keeps z0 (State.cleanRegion s e) := by
  unfold State.cleanRegion
  with_reducible
    repeat' first
      | assumption | apply State.writeBack_keeps | refine Keeps.foldl (fun _ _ _ => ?_) ?_
      | refine Keeps.foldlFst (fun _ _ _ => ?_) ?_ | refine Keeps.foldlSnd (fun _ _ _ => ?_) ?_ | intro _ | split
      | dsimp -iota only | dsimp only

theorem State.dcPrepare_keepsE {z0 : State} {s : State} {by_ : Committer} {uE} {tE : State} (hE : State.dcPrepare s by_ = some (tE, uE)) (hK : Keeps z0 s) :
    Keeps z0 tE := by
  unfold State.dcPrepare at hE
  repeat' (first | split at hE | dsimp only at hE)
  all_goals (first | cases hE | skip)
  repeat' first
    | with_reducible assumption
    | with_reducible exact Keeps.refl _
    | (with_reducible refine State.setTab_keeps ?_)
    | (with_reducible refine Keeps.getD ?_ ?_)
    | (with_reducible refine Keeps.mapPair (by assumption) ?_)
    | (with_reducible refine Keeps.foldl (fun st x hst => ?_) ?_)
    | (with_reducible refine Keeps.foldlFst (fun st x hst => ?_) ?_)
    | (with_reducible refine Keeps.foldlSnd (fun st x hst => ?_) ?_)
    | (with_reducible refine Keeps.ite ?_ ?_)
    | intro _
    | split
    | dsimp -iota only
    | dsimp only
    | dsimp only [id]
    | exact memWf_nil _
    | (fail_if_success (with_reducible refine Keeps.same ?_)
       with_reducible refine Keeps.mk ?_ ?_ ?_ ?_ ?_ ?_ ?_ ?_ ?_ ?_ ?_ ?_ ?_ <;>
         first | with_reducible exact Nat.le_refl _ | with_reducible exact List.prefix_rfl | with_reducible exact fun hm => hm |
           with_reducible exact List.prefix_append _ _ | with_reducible exact Nat.le_succ _ | with_reducible exact memWriteN_wf | with_reducible exact memClear_wf |
           with_reducible exact memPaste_wf | with_reducible exact memWrite_wf | with_reducible exact memWriteLE_wf | with_reducible exact fun _ => rfl | exact fun _ => memWf_nil _ |
           with_reducible exact fun hm => memWriteN_wf (memWriteN_wf hm) | exact fun _ => rfl |
           exact fun hm => memFold_wf (fun m y hh => memWrite_wf hh) hm |
           exact fun _ => memFold_wf (fun m y hh => memWrite_wf hh) (memWf_nil _) | skip)

theorem State.dcRefused_keeps {z0 : State} {s : State} {by_ : Committer} (hK : Keeps z0 s) :
    Keeps z0 (State.dcRefused s by_) := by
  unfold State.dcRefused
  with_reducible
    repeat' first
      | assumption | apply State.send_keeps | intro _ | split | dsimp -iota only | dsimp only

theorem State.startCommit_keeps {z0 : State} {s0 : State} {by0 : Committer} (hK : Keeps z0 s0) :
    Keeps z0 (State.startCommit s0 by0) := by
  unfold State.startCommit
  repeat' first
    | with_reducible assumption
    | with_reducible exact Keeps.refl _
    | (with_reducible refine State.biSnoop_keeps ?_)
    | (with_reducible refine State.sendTables_keeps ?_)
    | (with_reducible refine State.commitStat_keeps ?_)
    | (with_reducible refine State.commitRefused_keeps ?_)
    | (with_reducible refine State.cleanRegion_keeps ?_)
    | (with_reducible refine State.dcPrepare_keepsE (by assumption) ?_)
    | (with_reducible refine State.dcRefused_keeps ?_)
    | (with_reducible refine Keeps.getD ?_ ?_)
    | (with_reducible refine Keeps.mapPair (by assumption) ?_)
    | (with_reducible refine Keeps.foldl (fun st x hst => ?_) ?_)
    | (with_reducible refine Keeps.foldlFst (fun st x hst => ?_) ?_)
    | (with_reducible refine Keeps.foldlSnd (fun st x hst => ?_) ?_)
    | (with_reducible refine Keeps.ite ?_ ?_)
    | intro _
    | split
    | dsimp -iota only
    | dsimp only
    | dsimp only [id]
    | exact memWf_nil _
    | (fail_if_success (with_reducible refine Keeps.same ?_)
       with_reducible refine Keeps.mk ?_ ?_ ?_ ?_ ?_ ?_ ?_ ?_ ?_ ?_ ?_ ?_ ?_ <;>
         first | with_reducible exact Nat.le_refl _ | with_reducible exact List.prefix_rfl | with_reducible exact fun hm => hm |
           with_reducible exact List.prefix_append _ _ | with_reducible exact Nat.le_succ _ | with_reducible exact memWriteN_wf | with_reducible exact memClear_wf |
           with_reducible exact memPaste_wf | with_reducible exact memWrite_wf | with_reducible exact memWriteLE_wf | with_reducible exact fun _ => rfl | exact fun _ => memWf_nil _ |
           with_reducible exact fun hm => memWriteN_wf (memWriteN_wf hm) | exact fun _ => rfl |
           exact fun hm => memFold_wf (fun m y hh => memWrite_wf hh) hm |
           exact fun _ => memFold_wf (fun m y hh => memWrite_wf hh) (memWf_nil _) | skip)

theorem State.ownCommit_keeps {z0 : State} {s : State} {by_ : Committer} (hK : Keeps z0 s) :
    Keeps z0 (State.ownCommit s by_) := by
  unfold State.ownCommit
  with_reducible
    repeat' first
      | assumption | apply State.startCommit_keeps | apply Keeps.ite | intro _ | split | dsimp -iota only | dsimp only
      | ((fail_if_success apply Keeps.same); refine Keeps.mk ?_)

theorem State.dropRegion_keeps {z0 : State} {s : State} {e : Rgn} (hK : Keeps z0 s) :
    Keeps z0 (State.dropRegion s e) := by
  unfold State.dropRegion
  repeat' first
    | with_reducible assumption
    | with_reducible exact Keeps.refl _
    | (with_reducible refine State.subFld_keeps ?_)
    | (with_reducible refine State.setTab_keeps ?_)
    | (with_reducible refine State.raiseD_keeps ?_)
    | (with_reducible refine State.cacheCount_keeps ?_)
    | (with_reducible refine State.entryCount_keeps ?_)
    | (with_reducible refine Keeps.getD ?_ ?_)
    | (with_reducible refine Keeps.mapPair (by assumption) ?_)
    | (with_reducible refine Keeps.foldl (fun st x hst => ?_) ?_)
    | (with_reducible refine Keeps.foldlFst (fun st x hst => ?_) ?_)
    | (with_reducible refine Keeps.foldlSnd (fun st x hst => ?_) ?_)
    | (with_reducible refine Keeps.ite ?_ ?_)
    | intro _
    | split
    | dsimp -iota only
    | dsimp only
    | dsimp only [id]
    | exact memWf_nil _
    | (fail_if_success (with_reducible refine Keeps.same ?_)
       with_reducible refine Keeps.mk ?_ ?_ ?_ ?_ ?_ ?_ ?_ ?_ ?_ ?_ ?_ ?_ ?_ <;>
         first | with_reducible exact Nat.le_refl _ | with_reducible exact List.prefix_rfl | with_reducible exact fun hm => hm |
           with_reducible exact List.prefix_append _ _ | with_reducible exact Nat.le_succ _ | with_reducible exact memWriteN_wf | with_reducible exact memClear_wf |
           with_reducible exact memPaste_wf | with_reducible exact memWrite_wf | with_reducible exact memWriteLE_wf | with_reducible exact fun _ => rfl | exact fun _ => memWf_nil _ |
           with_reducible exact fun hm => memWriteN_wf (memWriteN_wf hm) | exact fun _ => rfl |
           exact fun hm => memFold_wf (fun m y hh => memWrite_wf hh) hm |
           exact fun _ => memFold_wf (fun m y hh => memWrite_wf hh) (memWf_nil _) | skip)

theorem State.pageFrames_keeps {z0 : State} {s : State} {g : Nat} (hK : Keeps z0 s) :
    Keeps z0 (State.pageFrames s g) := by
  unfold State.pageFrames
  repeat' first
    | with_reducible assumption
    | with_reducible exact Keeps.refl _
    | (with_reducible refine State.takeFrame_keepsE (by assumption) ?_)
    | (with_reducible refine State.frameBeside_keepsE (by assumption) ?_)
    | (with_reducible refine Keeps.getD ?_ ?_)
    | (with_reducible refine Keeps.mapPair (by assumption) ?_)
    | (with_reducible refine Keeps.foldl (fun st x hst => ?_) ?_)
    | (with_reducible refine Keeps.foldlFst (fun st x hst => ?_) ?_)
    | (with_reducible refine Keeps.foldlSnd (fun st x hst => ?_) ?_)
    | (with_reducible refine Keeps.ite ?_ ?_)
    | intro _
    | split
    | dsimp -iota only
    | dsimp only
    | dsimp only [id]
    | exact memWf_nil _
    | (fail_if_success (with_reducible refine Keeps.same ?_)
       with_reducible refine Keeps.mk ?_ ?_ ?_ ?_ ?_ ?_ ?_ ?_ ?_ ?_ ?_ ?_ ?_ <;>
         first | with_reducible exact Nat.le_refl _ | with_reducible exact List.prefix_rfl | with_reducible exact fun hm => hm |
           with_reducible exact List.prefix_append _ _ | with_reducible exact Nat.le_succ _ | with_reducible exact memWriteN_wf | with_reducible exact memClear_wf |
           with_reducible exact memPaste_wf | with_reducible exact memWrite_wf | with_reducible exact memWriteLE_wf | with_reducible exact fun _ => rfl | exact fun _ => memWf_nil _ |
           with_reducible exact fun hm => memWriteN_wf (memWriteN_wf hm) | exact fun _ => rfl |
           exact fun hm => memFold_wf (fun m y hh => memWrite_wf hh) hm |
           exact fun _ => memFold_wf (fun m y hh => memWrite_wf hh) (memWf_nil _) | skip)

theorem State.mapRegion_keeps {z0 : State} {s : State} {e : Rgn} (hK : Keeps z0 s) :
    Keeps z0 (State.mapRegion s e) := by
  unfold State.mapRegion
  with_reducible
    repeat' first
      | assumption | apply State.pageFrames_keeps | refine Keeps.foldl (fun _ _ _ => ?_) ?_
      | refine Keeps.foldlFst (fun _ _ _ => ?_) ?_ | refine Keeps.foldlSnd (fun _ _ _ => ?_) ?_ | apply Keeps.ite
      | intro _ | split | dsimp -iota only | dsimp only

theorem State.commitCopy_keeps {z0 : State} {s : State} {by_ : Committer} (hK : Keeps z0 s) :
    Keeps z0 (State.commitCopy s by_) := by
  unfold State.commitCopy
  with_reducible
    repeat' first
      | assumption | apply State.setMirrorPending_keeps | apply State.setCeiling_keeps
      | apply State.setStagePool_keeps | apply State.pairShrink_keeps | apply State.jAppend_keeps
      | apply State.setTabEntry_keeps | apply State.dropRegion_keeps | apply State.mapRegion_keeps
      | refine Keeps.foldl (fun _ _ _ => ?_) ?_ | refine Keeps.foldlFst (fun _ _ _ => ?_) ?_
      | refine Keeps.foldlSnd (fun _ _ _ => ?_) ?_ | apply Keeps.ite | intro _ | split | dsimp -iota only | dsimp only
      | ((fail_if_success apply Keeps.same); refine Keeps.mk ?_)

theorem State.commitEdge_keeps {z0 : State} {s : State} (hK : Keeps z0 s) :
    Keeps z0 (State.commitEdge s) := by
  unfold State.commitEdge
  with_reducible
    repeat' first
      | assumption | apply State.commitStat_keeps | apply State.commitTell_keeps | apply State.commitRefused_keeps
      | apply State.commitCopy_keeps | apply Keeps.ite | intro _ | split | dsimp -iota only | dsimp only
      | ((fail_if_success apply Keeps.same); refine Keeps.mk ?_)

theorem State.nextCommit_keeps {z0 : State} {s : State} (hK : Keeps z0 s) :
    Keeps z0 (State.nextCommit s) := by
  unfold State.nextCommit
  with_reducible
    repeat' first
      | assumption | apply State.startCommit_keeps | apply Keeps.ite | intro _ | split | dsimp -iota only | dsimp only
      | ((fail_if_success apply Keeps.same); refine Keeps.mk ?_)

end Sys2Proof.Machine
end

