-- ==== Sys2Proof/Laws/KeepJobs.lean ====
section
/-! SUPPORT. What the operations of Machine/Jobs.lean keep. -/

set_option Elab.async false

namespace Sys2Proof.Machine

theorem State.maintRegs_keeps {z0 : State} {s : State} (hK : Keeps z0 s) :
    Keeps z0 (State.maintRegs s) := by
  unfold State.maintRegs
  with_reducible
    repeat' first
      | assumption | apply State.setLive_keeps | apply State.setFld_keeps | refine Keeps.foldl (fun _ _ _ => ?_) ?_
      | refine Keeps.foldlFst (fun _ _ _ => ?_) ?_ | refine Keeps.foldlSnd (fun _ _ _ => ?_) ?_ | intro _ | split
      | dsimp -iota only | dsimp only

theorem State.setJob_keeps {z0 : State} {s : State} {j : Job} (hK : Keeps z0 s) :
    Keeps z0 (State.setJob s j) := by
  unfold State.setJob
  with_reducible
    repeat' first
      | assumption | apply Keeps.ite | intro _ | split | dsimp -iota only | dsimp only
      | ((fail_if_success apply Keeps.same); refine Keeps.mk ?_)

theorem State.submit_keeps {z0 : State} {s : State} {fr : JobFrom} {queue : Bool} {act target p0 p1 p2 : Nat} (hK : Keeps z0 s) :
    Keeps z0 (State.submit s fr queue act target p0 p1 p2).1 := by
  unfold State.submit
  with_reducible
    repeat' first
      | assumption | apply State.raiseD_keeps | apply State.maintRegs_keeps | apply Keeps.ite | intro _ | split
      | dsimp -iota only | dsimp only | ((fail_if_success apply Keeps.same); refine Keeps.mk ?_)

theorem State.submit_keepsE {z0 : State} {s : State} {fr : JobFrom} {queue : Bool} {act target p0 p1 p2 : Nat} {tE : State} {uE} (hE : State.submit s fr queue act target p0 p1 p2 = (tE, uE)) (hK : Keeps z0 s) :
    Keeps z0 tE := by
  have k := State.submit_keeps (z0 := z0) (s := s) (fr := fr) (queue := queue) (act := act) (target := target) (p0 := p0) (p1 := p1) (p2 := p2)  hK
  rw [hE] at k
  exact k

theorem State.ownJob_keeps {z0 : State} {s : State} {act target p0 p1 : Nat} (hK : Keeps z0 s) :
    Keeps z0 (State.ownJob s act target p0 p1) := by
  unfold State.ownJob
  with_reducible
    repeat' first
      | assumption | apply State.submit_keeps | refine State.submit_keepsE (by assumption) ?_ | intro _ | split
      | dsimp -iota only | dsimp only

theorem State.markStarted_keeps {z0 : State} {s : State} {j : Job} (hK : Keeps z0 s) :
    Keeps z0 (State.markStarted s j) := by
  unfold State.markStarted
  with_reducible
    repeat' first
      | assumption | apply State.raiseD_keeps | apply State.maintRegs_keeps | apply State.setJob_keeps | intro _
      | split | dsimp -iota only | dsimp only | ((fail_if_success apply Keeps.same); refine Keeps.mk ?_)

theorem State.endJob_keeps {z0 : State} {s : State} {id status : Nat} (hK : Keeps z0 s) :
    Keeps z0 (State.endJob s id status) := by
  unfold State.endJob
  with_reducible
    repeat' first
      | assumption | apply State.send_keeps | apply State.raiseD_keeps | apply State.answer_keeps
      | apply State.take_keeps | apply State.maintRegs_keeps | apply State.setJob_keeps | apply Keeps.ite | intro _
      | split | dsimp -iota only | dsimp only | ((fail_if_success apply Keeps.same); refine Keeps.mk ?_)

theorem State.submitTell_keeps {z0 : State} {s : State} {fr : JobFrom} {status id : Nat} (hK : Keeps z0 s) :
    Keeps z0 (State.submitTell s fr status id) := by
  unfold State.submitTell
  with_reducible
    repeat' first
      | assumption | apply State.setLive_keeps | apply State.answer_keeps | intro _ | split | dsimp -iota only
      | dsimp only

theorem State.jobProgress_keeps {z0 : State} {s : State} {act pct : Nat} (hK : Keeps z0 s) :
    Keeps z0 (State.jobProgress s act pct) := by
  unfold State.jobProgress
  with_reducible
    repeat' first
      | assumption | apply State.setJob_keeps | intro _ | split | dsimp -iota only | dsimp only
      | ((fail_if_success apply Keeps.same); refine Keeps.mk ?_)

theorem State.sceneJobGo_keeps {z0 : State} {s : State} (hK : Keeps z0 s) :
    Keeps z0 (State.sceneJobGo s) := by
  unfold State.sceneJobGo
  with_reducible
    repeat' first
      | assumption | apply State.setRw_keeps | apply State.requestSet_keeps | apply State.setJob_keeps
      | apply State.endJob_keeps | apply Keeps.ite | intro _ | split | dsimp -iota only | dsimp only
      | ((fail_if_success apply Keeps.same); refine Keeps.mk ?_)

theorem State.sceneJobEnd_keeps {z0 : State} {s : State} (hK : Keeps z0 s) :
    Keeps z0 (State.sceneJobEnd s) := by
  unfold State.sceneJobEnd
  with_reducible
    repeat' first
      | assumption | apply State.endJob_keeps | apply Keeps.ite | intro _ | split | dsimp -iota only | dsimp only

theorem State.rehearsalEnd_keeps {z0 : State} {s : State} {fail : Bool} {status : Nat} (hK : Keeps z0 s) :
    Keeps z0 (State.rehearsalEnd s fail status) := by
  unfold State.rehearsalEnd
  with_reducible
    repeat' first
      | assumption | apply State.setJob_keeps | apply State.endJob_keeps | apply Keeps.ite | intro _ | split
      | dsimp -iota only | dsimp only | ((fail_if_success apply Keeps.same); refine Keeps.mk ?_)

end Sys2Proof.Machine
end

