-- ==== Sys2Proof/Laws/KeepHostPort.lean ====
section
/-! SUPPORT. What the operations of Machine/HostPort.lean keep. -/

set_option Elab.async false

namespace Sys2Proof.Machine

theorem execLinkUp_keeps {z0 : State} {link width speed : Nat} {flitLo cxl : Bool} {s : State} (hK : Keeps z0 s) :
    KeepsRes z0 (execLinkUp link width speed flitLo cxl s) := by
  unfold execLinkUp
  with_reducible
    repeat' first
      | assumption | apply KeepsRes.next | apply State.setFld_keeps | apply State.setFlag_keeps
      | apply State.raise_keeps | apply State.settle_keeps | apply Keeps.ite | intro _ | split | dsimp -iota only
      | dsimp only

theorem execLinkDown_keeps {z0 : State} {link : Nat} {s : State} (hK : Keeps z0 s) :
    KeepsRes z0 (execLinkDown link s) := by
  unfold execLinkDown
  with_reducible
    repeat' first
      | assumption | apply KeepsRes.next | apply State.linkLeave_keeps | intro _ | split | dsimp -iota only
      | dsimp only

theorem State.sramCe_keeps {z0 : State} {s : State} {cls row : Nat} (hK : Keeps z0 s) :
    Keeps z0 (State.sramCe s cls row) := by
  unfold State.sramCe
  with_reducible
    repeat' first
      | assumption | apply State.addSat_keeps | apply State.raiseD_keeps | apply Keeps.ite | intro _ | split
      | dsimp -iota only | dsimp only | ((fail_if_success apply Keeps.same); refine Keeps.mk ?_)

theorem State.wayCe_keeps {z0 : State} {s : State} {slice way : Nat} (hK : Keeps z0 s) :
    Keeps z0 (State.wayCe s slice way) := by
  unfold State.wayCe
  with_reducible
    repeat' first
      | assumption | apply State.raiseD_keeps | apply Keeps.ite | intro _ | split | dsimp -iota only | dsimp only
      | ((fail_if_success apply Keeps.same); refine Keeps.mk ?_)

theorem State.dramCe_keeps {z0 : State} {s : State} {c row dev : Nat} (hK : Keeps z0 s) :
    Keeps z0 (State.dramCe s c row dev) := by
  unfold State.dramCe
  with_reducible
    repeat' first
      | assumption | apply State.addSat_keeps | apply State.raiseD_keeps | apply State.setChan_keeps
      | apply State.ownJob_keeps | apply Keeps.ite | intro _ | split | dsimp -iota only | dsimp only
      | ((fail_if_success apply Keeps.same); refine Keeps.mk ?_)

theorem State.freezeNow_keeps {z0 : State} {s : State} {c cause cls : Nat} {dpa : Option Nat} {words : List Nat} (hK : Keeps z0 s) :
    Keeps z0 (State.freezeNow s c cause cls dpa words) := by
  unfold State.freezeNow
  with_reducible
    repeat' first
      | assumption | apply State.freezeChan_keeps | apply State.ownJob_keeps | apply Keeps.ite | intro _ | split
      | dsimp -iota only | dsimp only

theorem State.eccFound_keeps {z0 : State} {s : State} {fr m cause cls : Nat} {dpa : Option Nat} {points words : List Nat} (hK : Keeps z0 s) :
    Keeps z0 (State.eccFound s fr m cause cls dpa points words).1 := by
  unfold State.eccFound
  with_reducible
    repeat' first
      | assumption | apply State.dramCe_keeps | apply State.freezeNow_keeps | intro _ | split | dsimp -iota only
      | dsimp only

theorem State.eccFound_keepsE {z0 : State} {s : State} {fr m cause cls : Nat} {dpa : Option Nat} {points words : List Nat} {tE : State} {uE} (hE : State.eccFound s fr m cause cls dpa points words = (tE, uE)) (hK : Keeps z0 s) :
    Keeps z0 tE := by
  have k := State.eccFound_keeps (z0 := z0) (s := s) (fr := fr) (m := m) (cause := cause) (cls := cls) (dpa := dpa) (points := points) (words := words)  hK
  rw [hE] at k
  exact k

theorem State.dramFound_keeps {z0 : State} {s : State} {line cls : Nat} {points words : List Nat} (hK : Keeps z0 s) :
    Keeps z0 (State.dramFound s line cls points words) := by
  unfold State.dramFound
  with_reducible
    repeat' first
      | assumption | apply State.eccFound_keeps | refine State.eccFound_keepsE (by assumption) ?_
      | refine Keeps.getD ?_ ?_ | intro _ | split | dsimp -iota only | dsimp only
      | ((fail_if_success apply Keeps.same); refine Keeps.mk ?_)

theorem State.dramAgain_keeps {z0 : State} {s : State} {line cls : Nat} (hK : Keeps z0 s) :
    Keeps z0 (State.dramAgain s line cls) := by
  unfold State.dramAgain
  with_reducible
    repeat' first
      | assumption | apply State.dramFound_keeps | intro _ | split | dsimp -iota only | dsimp only

theorem State.meetError_keeps {z0 : State} {s : State} {err : PathErr} {line cls : Nat} (hK : Keeps z0 s) :
    Keeps z0 (State.meetError s err line cls) := by
  unfold State.meetError
  with_reducible
    repeat' first
      | assumption | apply State.raiseD_keeps | apply State.dropWay_keeps | apply State.poisonLine_keeps
      | apply State.biSnoop_keeps | apply State.sramCe_keeps | apply State.wayCe_keeps | apply State.dramFound_keeps
      | apply State.dramAgain_keeps | refine Keeps.foldl (fun _ _ _ => ?_) ?_
      | refine Keeps.foldlFst (fun _ _ _ => ?_) ?_ | refine Keeps.foldlSnd (fun _ _ _ => ?_) ?_ | apply Keeps.ite
      | intro _ | split | dsimp -iota only | dsimp only | ((fail_if_success apply Keeps.same); refine Keeps.mk ?_)

theorem execS2mCreditReturn_keeps {z0 : State} {link ndr drs : Nat} {s : State} (hK : Keeps z0 s) :
    KeepsRes z0 (execS2mCreditReturn link ndr drs s) := by
  unfold execS2mCreditReturn
  with_reducible
    repeat' first
      | assumption | apply KeepsRes.next | apply State.setLink_keeps | apply State.settle_keeps | apply Keeps.ite
      | intro _ | split | dsimp -iota only | dsimp only | ((fail_if_success apply Keeps.same); refine Keeps.mk ?_)

theorem execClassStarved_keeps {z0 : State} {cls stage : Nat} {s : State} (hK : Keeps z0 s) :
    KeepsRes z0 (execClassStarved cls stage s) := by
  unfold execClassStarved
  with_reducible
    repeat' first
      | assumption | apply KeepsRes.next | apply State.raiseD_keeps | apply Keeps.ite | intro _ | split
      | dsimp -iota only | dsimp only | ((fail_if_success apply Keeps.same); refine Keeps.mk ?_)

theorem execBoundedGateClosed_keeps {z0 : State} {s : State} (hK : Keeps z0 s) :
    KeepsRes z0 (execBoundedGateClosed s) := by
  unfold execBoundedGateClosed
  with_reducible
    repeat' first
      | assumption | apply KeepsRes.next | apply State.settle_keeps | intro _ | split | dsimp -iota only | dsimp only

theorem execHoldPoison_keeps {z0 : State} {s : State} (hK : Keeps z0 s) :
    KeepsRes z0 (execHoldPoison s) := by
  unfold execHoldPoison
  with_reducible
    repeat' first
      | assumption | apply KeepsRes.next | apply State.raiseD_keeps | apply State.poisonLoad_keeps
      | apply State.settle_keeps | refine Keeps.foldl (fun _ _ _ => ?_) ?_
      | refine Keeps.foldlFst (fun _ _ _ => ?_) ?_ | refine Keeps.foldlSnd (fun _ _ _ => ?_) ?_ | intro _ | split
      | dsimp -iota only | dsimp only

theorem execStallBoundPoison_keeps {z0 : State} {s : State} (hK : Keeps z0 s) :
    KeepsRes z0 (execStallBoundPoison s) := by
  unfold execStallBoundPoison
  with_reducible
    repeat' first
      | assumption | apply KeepsRes.next | apply State.raiseD_keeps | apply State.poisonLoad_keeps
      | apply State.settle_keeps | refine Keeps.foldl (fun _ _ _ => ?_) ?_
      | refine Keeps.foldlFst (fun _ _ _ => ?_) ?_ | refine Keeps.foldlSnd (fun _ _ _ => ?_) ?_ | intro _ | split
      | dsimp -iota only | dsimp only

theorem execBirsp_keeps {z0 : State} {link key line : Nat} {s : State} (hK : Keeps z0 s) :
    KeepsRes z0 (execBirsp link key line s) := by
  unfold execBirsp
  with_reducible
    repeat' first
      | assumption | apply KeepsRes.next | apply State.settle_keeps | refine Keeps.foldl (fun _ _ _ => ?_) ?_
      | refine Keeps.foldlFst (fun _ _ _ => ?_) ?_ | refine Keeps.foldlSnd (fun _ _ _ => ?_) ?_ | apply Keeps.ite
      | intro _ | split | dsimp -iota only | dsimp only | ((fail_if_success apply Keeps.same); refine Keeps.mk ?_)

theorem execBiSlow_keeps {z0 : State} {s : State} (hK : Keeps z0 s) :
    KeepsRes z0 (execBiSlow s) := by
  unfold execBiSlow
  with_reducible
    repeat' first
      | assumption | apply KeepsRes.next | apply State.raiseD_keeps | apply Pass.step_keeps
      | refine Keeps.foldl (fun _ _ _ => ?_) ?_ | refine Keeps.foldlFst (fun _ _ _ => ?_) ?_
      | refine Keeps.foldlSnd (fun _ _ _ => ?_) ?_ | apply Keeps.ite | intro _ | split | dsimp -iota only | dsimp only
      | ((fail_if_success apply Keeps.same); refine Keeps.mk ?_)

theorem execIdeIntegrityFail_keeps {z0 : State} {link : Nat} {s : State} (hK : Keeps z0 s) :
    KeepsRes z0 (execIdeIntegrityFail link s) := by
  unfold execIdeIntegrityFail
  with_reducible
    repeat' first
      | assumption | apply KeepsRes.next | apply State.setFlag_keeps | apply State.raiseD_keeps
      | apply State.setLink_keeps | apply Keeps.ite | intro _ | split | dsimp -iota only | dsimp only
      | ((fail_if_success apply Keeps.same); refine Keeps.mk ?_)

theorem execDoeRequest_keeps {z0 : State} {link protocol : Nat} {done : Bool} {s : State} (hK : Keeps z0 s) :
    KeepsRes z0 (execDoeRequest link protocol done s) := by
  unfold execDoeRequest
  with_reducible
    repeat' first
      | assumption | apply KeepsRes.next | apply State.send_keeps | apply State.setLink_keeps | apply Keeps.ite
      | intro _ | split | dsimp -iota only | dsimp only | ((fail_if_success apply Keeps.same); refine Keeps.mk ?_)

theorem execHdmCommit_keeps {z0 : State} {dev index base size skip ways granularity : Nat} {lock : Bool} {s : State} (hK : Keeps z0 s) :
    KeepsRes z0 (execHdmCommit dev index base size skip ways granularity lock s) := by
  unfold execHdmCommit
  with_reducible
    repeat' first
      | assumption | apply KeepsRes.next | apply State.send_keeps | apply Keeps.ite | intro _ | split
      | dsimp -iota only | dsimp only | ((fail_if_success apply Keeps.same); refine Keeps.mk ?_)

theorem execHdmUncommit_keeps {z0 : State} {dev index : Nat} {s : State} (hK : Keeps z0 s) :
    KeepsRes z0 (execHdmUncommit dev index s) := by
  unfold execHdmUncommit
  with_reducible
    repeat' first
      | assumption | apply KeepsRes.next | apply Keeps.ite | intro _ | split | dsimp -iota only | dsimp only
      | ((fail_if_success apply Keeps.same); refine Keeps.mk ?_)

theorem execAddCapacity_keeps {z0 : State} {dev base limit rights : Nat} {s : State} (hK : Keeps z0 s) :
    KeepsRes z0 (execAddCapacity dev base limit rights s) := by
  unfold execAddCapacity
  with_reducible
    repeat' first
      | assumption | apply KeepsRes.next | apply State.send_keeps | apply State.settle_keeps
      | apply State.ownCommit_keeps | apply Keeps.ite | intro _ | split | dsimp -iota only | dsimp only

theorem execReleaseCapacity_keeps {z0 : State} {dev base limit : Nat} {s : State} (hK : Keeps z0 s) :
    KeepsRes z0 (execReleaseCapacity dev base limit s) := by
  unfold execReleaseCapacity
  with_reducible
    repeat' first
      | assumption | apply KeepsRes.next | apply State.settle_keeps | apply State.ownCommit_keeps | intro _ | split
      | dsimp -iota only | dsimp only

theorem State.bar0Write_keeps {z0 : State} {s : State} {link : Nat} {r : RegId} {i value : Nat} (hK : Keeps z0 s) :
    Keeps z0 (State.bar0Write s link r i value) := by
  unfold State.bar0Write
  with_reducible
    repeat' first
      | assumption | intro _ | split | dsimp -iota only | dsimp only

theorem execGpfPhase1_keeps {z0 : State} {link : Nat} {s : State} (hK : Keeps z0 s) :
    KeepsRes z0 (execGpfPhase1 link s) := by
  unfold execGpfPhase1
  with_reducible
    repeat' first
      | assumption | apply KeepsRes.next | apply State.send_keeps | intro _ | split | dsimp -iota only | dsimp only

theorem execGpfPhase2_keeps {z0 : State} {link : Nat} {s : State} (hK : Keeps z0 s) :
    KeepsRes z0 (execGpfPhase2 link s) := by
  unfold execGpfPhase2
  with_reducible
    repeat' first
      | assumption | apply KeepsRes.next | apply State.send_keeps | apply State.raise_keeps
      | apply State.setLink_keeps | apply State.settle_keeps | apply Keeps.ite | intro _ | split | dsimp -iota only
      | dsimp only | ((fail_if_success apply Keeps.same); refine Keeps.mk ?_)

end Sys2Proof.Machine
end

