-- ==== Sys2Proof/Laws/KeepCacheOps.lean ====
section
/-! SUPPORT. What the operations of Machine/CacheOps.lean keep. -/

set_option Elab.async false

namespace Sys2Proof.Machine

theorem State.startMaint_keeps {z0 : State} {s : State} {value st : Nat} {act : State → State} (kact : ∀ y0, Keeps z0 y0 → Keeps z0 (act y0)) (hK : Keeps z0 s) :
    Keeps z0 (State.startMaint s value st act) := by
  unfold State.startMaint
  with_reducible
    repeat' first
      | assumption | apply State.setFlag_keeps | refine kact _ ?_ | apply Keeps.ite | intro _ | split
      | dsimp -iota only | dsimp only | ((fail_if_success apply Keeps.same); refine Keeps.mk ?_)

theorem State.maintAddr_keeps {z0 : State} {s : State} {op : Nat} (hK : Keeps z0 s) :
    Keeps z0 (State.maintAddr s op) := by
  unfold State.maintAddr
  repeat' first
    | with_reducible assumption
    | with_reducible exact Keeps.refl _
    | (with_reducible refine State.startMaint_keeps ?_ ?_)
    | (with_reducible refine Keeps.getD ?_ ?_)
    | (with_reducible refine Keeps.mapPair (by assumption) ?_)
    | (with_reducible refine Keeps.foldl (fun st x hst => ?_) ?_)
    | (with_reducible refine Keeps.foldlFst (fun st x hst => ?_) ?_)
    | (with_reducible refine Keeps.foldlSnd (fun st x hst => ?_) ?_)
    | (with_reducible refine Keeps.ite ?_ ?_)
    | intro _
    | split
    | dsimp -iota only
    | dsimp only
    | dsimp only [id]
    | exact memWf_nil _
    | (fail_if_success (with_reducible refine Keeps.same ?_)
       with_reducible refine Keeps.mk ?_ ?_ ?_ ?_ ?_ ?_ ?_ ?_ ?_ ?_ ?_ ?_ ?_ <;>
         first | with_reducible exact Nat.le_refl _ | with_reducible exact List.prefix_rfl | with_reducible exact fun hm => hm |
           with_reducible exact List.prefix_append _ _ | with_reducible exact Nat.le_succ _ | with_reducible exact memWriteN_wf | with_reducible exact memClear_wf |
           with_reducible exact memPaste_wf | with_reducible exact memWrite_wf | with_reducible exact memWriteLE_wf | with_reducible exact fun _ => rfl | exact fun _ => memWf_nil _ |
           with_reducible exact fun hm => memWriteN_wf (memWriteN_wf hm) | exact fun _ => rfl |
           exact fun hm => memFold_wf (fun m y hh => memWrite_wf hh) hm |
           exact fun _ => memFold_wf (fun m y hh => memWrite_wf hh) (memWf_nil _) | skip)

theorem execClean_keeps {z0 : State} {s : State} (hK : Keeps z0 s) :
    KeepsRes z0 (execClean s) := by
  unfold execClean
  with_reducible
    repeat' first
      | assumption | apply KeepsRes.next | apply State.settle_keeps | apply State.maintAddr_keeps | intro _ | split
      | dsimp -iota only | dsimp only

theorem execInvalidate_keeps {z0 : State} {s : State} (hK : Keeps z0 s) :
    KeepsRes z0 (execInvalidate s) := by
  unfold execInvalidate
  with_reducible
    repeat' first
      | assumption | apply KeepsRes.next | apply State.settle_keeps | apply State.maintAddr_keeps | intro _ | split
      | dsimp -iota only | dsimp only

theorem execFlush_keeps {z0 : State} {s : State} (hK : Keeps z0 s) :
    KeepsRes z0 (execFlush s) := by
  unfold execFlush
  with_reducible
    repeat' first
      | assumption | apply KeepsRes.next | apply State.settle_keeps | apply State.maintAddr_keeps | intro _ | split
      | dsimp -iota only | dsimp only

theorem execCleanSet_keeps {z0 : State} {slice set : Nat} {s : State} (hK : Keeps z0 s) :
    KeepsRes z0 (execCleanSet slice set s) := by
  unfold execCleanSet
  with_reducible
    repeat' first
      | assumption | apply KeepsRes.next | apply State.cleanWays_keeps | apply State.settle_keeps
      | apply State.startMaint_keeps | intro _ | split | dsimp -iota only | dsimp only

theorem execInvalidateSet_keeps {z0 : State} {slice set : Nat} {s : State} (hK : Keeps z0 s) :
    KeepsRes z0 (execInvalidateSet slice set s) := by
  unfold execInvalidateSet
  with_reducible
    repeat' first
      | assumption | apply KeepsRes.next | apply State.invalidateWays_keeps | apply State.settle_keeps
      | apply State.startMaint_keeps | intro _ | split | dsimp -iota only | dsimp only

theorem execFlushSet_keeps {z0 : State} {slice set : Nat} {s : State} (hK : Keeps z0 s) :
    KeepsRes z0 (execFlushSet slice set s) := by
  unfold execFlushSet
  with_reducible
    repeat' first
      | assumption | apply KeepsRes.next | apply State.flushWays_keeps | apply State.settle_keeps
      | apply State.startMaint_keeps | intro _ | split | dsimp -iota only | dsimp only

theorem execCleanAll_keeps {z0 : State} {s : State} (hK : Keeps z0 s) :
    KeepsRes z0 (execCleanAll s) := by
  unfold execCleanAll
  with_reducible
    repeat' first
      | assumption | apply KeepsRes.next | apply State.cleanWays_keeps | apply State.settle_keeps
      | apply State.startMaint_keeps | intro _ | split | dsimp -iota only | dsimp only

theorem execInvalidateAll_keeps {z0 : State} {s : State} (hK : Keeps z0 s) :
    KeepsRes z0 (execInvalidateAll s) := by
  unfold execInvalidateAll
  with_reducible
    repeat' first
      | assumption | apply KeepsRes.next | apply State.setFlag_keeps | apply State.invalidateWays_keeps
      | apply State.settle_keeps | apply State.startMaint_keeps | intro _ | split | dsimp -iota only | dsimp only

theorem execFlushAll_keeps {z0 : State} {s : State} (hK : Keeps z0 s) :
    KeepsRes z0 (execFlushAll s) := by
  unfold execFlushAll
  with_reducible
    repeat' first
      | assumption | apply KeepsRes.next | apply State.flushWays_keeps | apply State.settle_keeps
      | apply State.startMaint_keeps | intro _ | split | dsimp -iota only | dsimp only

theorem execDisable_keeps {z0 : State} {s : State} (hK : Keeps z0 s) :
    KeepsRes z0 (execDisable s) := by
  unfold execDisable
  repeat' first
    | with_reducible assumption
    | with_reducible exact Keeps.refl _
    | (with_reducible refine KeepsRes.next ?_)
    | (with_reducible refine State.startMaint_keeps ?_ ?_)
    | (with_reducible refine Keeps.getD ?_ ?_)
    | (with_reducible refine Keeps.mapPair (by assumption) ?_)
    | (with_reducible refine Keeps.foldl (fun st x hst => ?_) ?_)
    | (with_reducible refine Keeps.foldlFst (fun st x hst => ?_) ?_)
    | (with_reducible refine Keeps.foldlSnd (fun st x hst => ?_) ?_)
    | (with_reducible refine Keeps.ite ?_ ?_)
    | intro _
    | split
    | dsimp -iota only
    | dsimp only
    | dsimp only [id]
    | exact memWf_nil _
    | (fail_if_success (with_reducible refine Keeps.same ?_)
       with_reducible refine Keeps.mk ?_ ?_ ?_ ?_ ?_ ?_ ?_ ?_ ?_ ?_ ?_ ?_ ?_ <;>
         first | with_reducible exact Nat.le_refl _ | with_reducible exact List.prefix_rfl | with_reducible exact fun hm => hm |
           with_reducible exact List.prefix_append _ _ | with_reducible exact Nat.le_succ _ | with_reducible exact memWriteN_wf | with_reducible exact memClear_wf |
           with_reducible exact memPaste_wf | with_reducible exact memWrite_wf | with_reducible exact memWriteLE_wf | with_reducible exact fun _ => rfl | exact fun _ => memWf_nil _ |
           with_reducible exact fun hm => memWriteN_wf (memWriteN_wf hm) | exact fun _ => rfl |
           exact fun hm => memFold_wf (fun m y hh => memWrite_wf hh) hm |
           exact fun _ => memFold_wf (fun m y hh => memWrite_wf hh) (memWf_nil _) | skip)

theorem execEnable_keeps {z0 : State} {s : State} (hK : Keeps z0 s) :
    KeepsRes z0 (execEnable s) := by
  unfold execEnable
  repeat' first
    | with_reducible assumption
    | with_reducible exact Keeps.refl _
    | (with_reducible refine KeepsRes.next ?_)
    | (with_reducible refine State.startMaint_keeps ?_ ?_)
    | (with_reducible refine Keeps.getD ?_ ?_)
    | (with_reducible refine Keeps.mapPair (by assumption) ?_)
    | (with_reducible refine Keeps.foldl (fun st x hst => ?_) ?_)
    | (with_reducible refine Keeps.foldlFst (fun st x hst => ?_) ?_)
    | (with_reducible refine Keeps.foldlSnd (fun st x hst => ?_) ?_)
    | (with_reducible refine Keeps.ite ?_ ?_)
    | intro _
    | split
    | dsimp -iota only
    | dsimp only
    | dsimp only [id]
    | exact memWf_nil _
    | (fail_if_success (with_reducible refine Keeps.same ?_)
       with_reducible refine Keeps.mk ?_ ?_ ?_ ?_ ?_ ?_ ?_ ?_ ?_ ?_ ?_ ?_ ?_ <;>
         first | with_reducible exact Nat.le_refl _ | with_reducible exact List.prefix_rfl | with_reducible exact fun hm => hm |
           with_reducible exact List.prefix_append _ _ | with_reducible exact Nat.le_succ _ | with_reducible exact memWriteN_wf | with_reducible exact memClear_wf |
           with_reducible exact memPaste_wf | with_reducible exact memWrite_wf | with_reducible exact memWriteLE_wf | with_reducible exact fun _ => rfl | exact fun _ => memWf_nil _ |
           with_reducible exact fun hm => memWriteN_wf (memWriteN_wf hm) | exact fun _ => rfl |
           exact fun hm => memFold_wf (fun m y hh => memWrite_wf hh) hm |
           exact fun _ => memFold_wf (fun m y hh => memWrite_wf hh) (memWf_nil _) | skip)

theorem execWayDisable_keeps {z0 : State} {slice way : Nat} {s : State} (hK : Keeps z0 s) :
    KeepsRes z0 (execWayDisable slice way s) := by
  unfold execWayDisable
  repeat' first
    | with_reducible assumption
    | with_reducible exact Keeps.refl _
    | (with_reducible refine KeepsRes.next ?_)
    | (with_reducible refine State.startMaint_keeps ?_ ?_)
    | (with_reducible refine Keeps.getD ?_ ?_)
    | (with_reducible refine Keeps.mapPair (by assumption) ?_)
    | (with_reducible refine Keeps.foldl (fun st x hst => ?_) ?_)
    | (with_reducible refine Keeps.foldlFst (fun st x hst => ?_) ?_)
    | (with_reducible refine Keeps.foldlSnd (fun st x hst => ?_) ?_)
    | (with_reducible refine Keeps.ite ?_ ?_)
    | intro _
    | split
    | dsimp -iota only
    | dsimp only
    | dsimp only [id]
    | exact memWf_nil _
    | (fail_if_success (with_reducible refine Keeps.same ?_)
       with_reducible refine Keeps.mk ?_ ?_ ?_ ?_ ?_ ?_ ?_ ?_ ?_ ?_ ?_ ?_ ?_ <;>
         first | with_reducible exact Nat.le_refl _ | with_reducible exact List.prefix_rfl | with_reducible exact fun hm => hm |
           with_reducible exact List.prefix_append _ _ | with_reducible exact Nat.le_succ _ | with_reducible exact memWriteN_wf | with_reducible exact memClear_wf |
           with_reducible exact memPaste_wf | with_reducible exact memWrite_wf | with_reducible exact memWriteLE_wf | with_reducible exact fun _ => rfl | exact fun _ => memWf_nil _ |
           with_reducible exact fun hm => memWriteN_wf (memWriteN_wf hm) | exact fun _ => rfl |
           exact fun hm => memFold_wf (fun m y hh => memWrite_wf hh) hm |
           exact fun _ => memFold_wf (fun m y hh => memWrite_wf hh) (memWf_nil _) | skip)

theorem execWayEnable_keeps {z0 : State} {slice way : Nat} {s : State} (hK : Keeps z0 s) :
    KeepsRes z0 (execWayEnable slice way s) := by
  unfold execWayEnable
  repeat' first
    | with_reducible assumption
    | with_reducible exact Keeps.refl _
    | (with_reducible refine KeepsRes.next ?_)
    | (with_reducible refine State.startMaint_keeps ?_ ?_)
    | (with_reducible refine Keeps.getD ?_ ?_)
    | (with_reducible refine Keeps.mapPair (by assumption) ?_)
    | (with_reducible refine Keeps.foldl (fun st x hst => ?_) ?_)
    | (with_reducible refine Keeps.foldlFst (fun st x hst => ?_) ?_)
    | (with_reducible refine Keeps.foldlSnd (fun st x hst => ?_) ?_)
    | (with_reducible refine Keeps.ite ?_ ?_)
    | intro _
    | split
    | dsimp -iota only
    | dsimp only
    | dsimp only [id]
    | exact memWf_nil _
    | (fail_if_success (with_reducible refine Keeps.same ?_)
       with_reducible refine Keeps.mk ?_ ?_ ?_ ?_ ?_ ?_ ?_ ?_ ?_ ?_ ?_ ?_ ?_ <;>
         first | with_reducible exact Nat.le_refl _ | with_reducible exact List.prefix_rfl | with_reducible exact fun hm => hm |
           with_reducible exact List.prefix_append _ _ | with_reducible exact Nat.le_succ _ | with_reducible exact memWriteN_wf | with_reducible exact memClear_wf |
           with_reducible exact memPaste_wf | with_reducible exact memWrite_wf | with_reducible exact memWriteLE_wf | with_reducible exact fun _ => rfl | exact fun _ => memWf_nil _ |
           with_reducible exact fun hm => memWriteN_wf (memWriteN_wf hm) | exact fun _ => rfl |
           exact fun hm => memFold_wf (fun m y hh => memWrite_wf hh) hm |
           exact fun _ => memFold_wf (fun m y hh => memWrite_wf hh) (memWf_nil _) | skip)

theorem State.cacheDisable_keeps {z0 : State} {s : State} (hK : Keeps z0 s) :
    Keeps z0 (State.cacheDisable s) := by
  unfold State.cacheDisable
  with_reducible
    repeat' first
      | assumption | apply State.setFlag_keeps | apply State.raise_keeps | apply Keeps.ite | intro _ | split
      | dsimp -iota only | dsimp only | ((fail_if_success apply Keeps.same); refine Keeps.mk ?_)

theorem State.cacheEnable_keeps {z0 : State} {s : State} (hK : Keeps z0 s) :
    Keeps z0 (State.cacheEnable s) := by
  unfold State.cacheEnable
  with_reducible
    repeat' first
      | assumption | apply State.setFlag_keeps | apply State.raise_keeps | apply Keeps.ite | intro _ | split
      | dsimp -iota only | dsimp only

theorem State.maintEffect_keeps {z0 : State} {s : State} {v st : Nat} (hK : Keeps z0 s) :
    Keeps z0 (State.maintEffect s v st).1 := by
  unfold State.maintEffect
  with_reducible
    repeat' first
      | assumption | apply State.setFld_keeps | apply State.raiseD_keeps | apply State.raise_keeps
      | apply State.cleanWays_keeps | apply State.invalidateWays_keeps | apply State.cacheDisable_keeps
      | apply State.cacheEnable_keeps | apply Keeps.ite | intro _ | split | dsimp -iota only | dsimp only

theorem State.maintEffect_keepsE {z0 : State} {s : State} {v st : Nat} {tE : State} {uE} (hE : State.maintEffect s v st = (tE, uE)) (hK : Keeps z0 s) :
    Keeps z0 tE := by
  have k := State.maintEffect_keeps (z0 := z0) (s := s) (v := v) (st := st)  hK
  rw [hE] at k
  exact k

theorem State.maintEnd_keeps {z0 : State} {s : State} {st : Nat} (hK : Keeps z0 s) :
    Keeps z0 (State.maintEnd s st) := by
  unfold State.maintEnd
  with_reducible
    repeat' first
      | assumption | apply State.setFld_keeps | apply State.setFlag_keeps | apply State.raiseD_keeps | intro _ | split
      | dsimp -iota only | dsimp only | ((fail_if_success apply Keeps.same); refine Keeps.mk ?_)

theorem execScacheMaintDone_keeps {z0 : State} {s : State} (hK : Keeps z0 s) :
    KeepsRes z0 (execScacheMaintDone s) := by
  unfold execScacheMaintDone
  with_reducible
    repeat' first
      | assumption | apply KeepsRes.next | apply State.settle_keeps | apply State.maintEffect_keeps
      | refine State.maintEffect_keepsE (by assumption) ?_ | apply State.maintEnd_keeps | apply Keeps.ite | intro _
      | split | dsimp -iota only | dsimp only

theorem State.cacheStrike_keeps {z0 : State} {s : State} (hK : Keeps z0 s) :
    Keeps z0 (State.cacheStrike s) := by
  unfold State.cacheStrike
  with_reducible
    repeat' first
      | assumption | apply State.cacheCount_keeps | apply State.cleanWays_keeps | apply State.maintEnd_keeps
      | apply Keeps.ite | intro _ | split | dsimp -iota only | dsimp only
      | ((fail_if_success apply Keeps.same); refine Keeps.mk ?_)

end Sys2Proof.Machine
end

