-- ==== Sys2Proof/Laws/KeepFwPort.lean ====
section
/-! SUPPORT. What the operations of Machine/FwPort.lean keep. -/

set_option Elab.async false

namespace Sys2Proof.Machine

theorem State.fwRegs_keeps {z0 : State} {s : State} (hK : Keeps z0 s) :
    Keeps z0 (State.fwRegs s) := by
  unfold State.fwRegs
  with_reducible
    repeat' first
      | assumption | apply State.setLive_keeps | apply State.setFlag_keeps | refine Keeps.foldl (fun _ _ _ => ?_) ?_
      | refine Keeps.foldlFst (fun _ _ _ => ?_) ?_ | refine Keeps.foldlSnd (fun _ _ _ => ?_) ?_ | intro _ | split
      | dsimp -iota only | dsimp only

theorem State.setFwOps_keeps {z0 : State} {s : State} {b : Nat} {os : List FwOp} (hK : Keeps z0 s) :
    Keeps z0 (State.setFwOps s b os) := by
  unfold State.setFwOps
  with_reducible
    repeat' first
      | assumption | apply Keeps.ite | intro _ | split | dsimp -iota only | dsimp only
      | ((fail_if_success apply Keeps.same); refine Keeps.mk ?_)

theorem State.fwStatus_keeps {z0 : State} {s : State} {p st : Nat} (hK : Keeps z0 s) :
    Keeps z0 (State.fwStatus s p st) := by
  unfold State.fwStatus
  with_reducible
    repeat' first
      | assumption | apply State.setFld_keeps | intro _ | split | dsimp -iota only | dsimp only

theorem State.fwCmd_keeps {z0 : State} {s : State} {p : Nat} {body : State → State} (kbody : ∀ y0, Keeps z0 y0 → Keeps z0 (body y0)) (hK : Keeps z0 s) :
    Keeps z0 (State.fwCmd s p body) := by
  unfold State.fwCmd
  with_reducible
    repeat' first
      | assumption | apply State.fwRegs_keeps | refine kbody _ ?_ | apply Keeps.ite | intro _ | split
      | dsimp -iota only | dsimp only

theorem State.fwReadEnd_keeps {z0 : State} {s : State} {p off ecc : Nat} (hK : Keeps z0 s) :
    Keeps z0 (State.fwReadEnd s p off ecc) := by
  unfold State.fwReadEnd
  with_reducible
    repeat' first
      | assumption | apply State.addSat_keeps | apply State.setRw_keeps | apply State.raiseD_keeps
      | apply State.take_keeps | apply State.fwStatus_keeps | refine Keeps.foldl (fun _ _ _ => ?_) ?_
      | refine Keeps.foldlFst (fun _ _ _ => ?_) ?_ | refine Keeps.foldlSnd (fun _ _ _ => ?_) ?_ | apply Keeps.ite
      | intro _ | split | dsimp -iota only | dsimp only

theorem State.fwReadsGo_keeps {z0 : State} {s : State} {b : Nat} (hK : Keeps z0 s) :
    Keeps z0 (State.fwReadsGo s b) := by
  unfold State.fwReadsGo
  with_reducible
    repeat' first
      | assumption | apply State.fwReadEnd_keeps | refine Keeps.foldl (fun _ _ _ => ?_) ?_
      | refine Keeps.foldlFst (fun _ _ _ => ?_) ?_ | refine Keeps.foldlSnd (fun _ _ _ => ?_) ?_ | apply Keeps.ite
      | intro _ | split | dsimp -iota only | dsimp only | ((fail_if_success apply Keeps.same); refine Keeps.mk ?_)

theorem execReadPage_keeps {z0 : State} {port ecc : Nat} {s : State} (hK : Keeps z0 s) :
    KeepsRes z0 (execReadPage port ecc s) := by
  unfold execReadPage
  with_reducible
    repeat' first
      | assumption | apply KeepsRes.next | apply State.fwStatus_keeps | apply State.fwCmd_keeps
      | apply State.fwReadsGo_keeps | apply Keeps.ite | intro _ | split | dsimp -iota only | dsimp only
      | ((fail_if_success apply Keeps.same); refine Keeps.mk ?_)

theorem State.fwFetch_keeps {z0 : State} {s : State} {core bank : Nat} (hK : Keeps z0 s) :
    Keeps z0 (State.fwFetch s core bank) := by
  unfold State.fwFetch
  with_reducible
    repeat' first
      | assumption | apply State.setLive_keeps | apply Keeps.ite | intro _ | split | dsimp -iota only | dsimp only

theorem State.fwStart_keeps {z0 : State} {s : State} {p off : Nat} {erase : Bool} {bad : Bool} {body : State → State} (kbody : ∀ y0, Keeps z0 y0 → Keeps z0 (body y0)) (hK : Keeps z0 s) :
    Keeps z0 (State.fwStart s p off erase bad body) := by
  unfold State.fwStart
  with_reducible
    repeat' first
      | assumption | apply State.raiseD_keeps | apply State.fwStatus_keeps | refine kbody _ ?_ | apply Keeps.ite
      | intro _ | split | dsimp -iota only | dsimp only

theorem State.fwBegin_keeps {z0 : State} {s : State} {o : FwOp} (hK : Keeps z0 s) :
    Keeps z0 (State.fwBegin s o) := by
  unfold State.fwBegin
  with_reducible
    repeat' first
      | assumption | apply State.setFld_keeps | apply State.setFwOps_keeps | intro _ | split | dsimp -iota only
      | dsimp only | ((fail_if_success apply Keeps.same); refine Keeps.mk ?_)

theorem execProgramPage_keeps {z0 : State} {port fetch : Nat} {s : State} (hK : Keeps z0 s) :
    KeepsRes z0 (execProgramPage port fetch s) := by
  unfold execProgramPage
  with_reducible
    repeat' first
      | assumption | apply KeepsRes.next | apply State.fwCmd_keeps | apply State.fwFetch_keeps
      | apply State.fwStart_keeps | apply State.fwBegin_keeps | intro _ | split | dsimp -iota only | dsimp only

theorem execEraseSector_keeps {z0 : State} {port fetch : Nat} {s : State} (hK : Keeps z0 s) :
    KeepsRes z0 (execEraseSector port fetch s) := by
  unfold execEraseSector
  with_reducible
    repeat' first
      | assumption | apply KeepsRes.next | apply State.fwClearBit_keeps | apply State.fwCmd_keeps
      | apply State.fwFetch_keeps | apply State.fwStart_keeps | apply State.fwBegin_keeps | intro _ | split
      | dsimp -iota only | dsimp only

theorem State.fwEnd_keeps {z0 : State} {s : State} {b : Nat} (hK : Keeps z0 s) :
    Keeps z0 (State.fwEnd s b) := by
  unfold State.fwEnd
  with_reducible
    repeat' first
      | assumption | apply State.fwProg_keeps | apply State.fwBlank_keeps | apply State.fwClearBit_keeps
      | apply State.fwRegs_keeps | apply State.setFwOps_keeps | apply State.fwStatus_keeps
      | apply State.fwReadsGo_keeps | apply Keeps.ite | intro _ | split | dsimp -iota only | dsimp only
      | ((fail_if_success apply Keeps.same); refine Keeps.mk ?_)

theorem execFwfOperationEnd_keeps {z0 : State} {bank : Nat} {s : State} (hK : Keeps z0 s) :
    KeepsRes z0 (execFwfOperationEnd bank s) := by
  unfold execFwfOperationEnd
  with_reducible
    repeat' first
      | assumption | apply KeepsRes.next | apply State.fwEnd_keeps | intro _ | split | dsimp -iota only | dsimp only

theorem execSuspend_keeps {z0 : State} {port : Nat} {s : State} (hK : Keeps z0 s) :
    KeepsRes z0 (execSuspend port s) := by
  unfold execSuspend
  with_reducible
    repeat' first
      | assumption | apply KeepsRes.next | apply State.fwCountSuspend_keeps | apply State.fwRegs_keeps
      | apply State.setFwOps_keeps | apply State.fwStatus_keeps | apply State.fwReadsGo_keeps | apply Keeps.ite
      | intro _ | split | dsimp -iota only | dsimp only | ((fail_if_success apply Keeps.same); refine Keeps.mk ?_)

theorem execResume_keeps {z0 : State} {port : Nat} {s : State} (hK : Keeps z0 s) :
    KeepsRes z0 (execResume port s) := by
  unfold execResume
  with_reducible
    repeat' first
      | assumption | apply KeepsRes.next | apply State.fwRegs_keeps | apply State.setFwOps_keeps
      | apply State.fwStatus_keeps | apply Keeps.ite | intro _ | split | dsimp -iota only | dsimp only
      | ((fail_if_success apply Keeps.same); refine Keeps.mk ?_)

theorem State.fwProtSet_keeps {z0 : State} {s : State} {p : Nat} {on : Bool} (hK : Keeps z0 s) :
    Keeps z0 (State.fwProtSet s p on) := by
  unfold State.fwProtSet
  with_reducible
    repeat' first
      | assumption | apply State.setFld_keeps | apply State.fwStatus_keeps | apply Keeps.ite | intro _ | split
      | dsimp -iota only | dsimp only

theorem execProtSet_keeps {z0 : State} {port : Nat} {s : State} (hK : Keeps z0 s) :
    KeepsRes z0 (execProtSet port s) := by
  unfold execProtSet
  with_reducible
    repeat' first
      | assumption | apply KeepsRes.next | apply State.fwCmd_keeps | apply State.fwProtSet_keeps | intro _ | split
      | dsimp -iota only | dsimp only

theorem execProtClear_keeps {z0 : State} {port : Nat} {s : State} (hK : Keeps z0 s) :
    KeepsRes z0 (execProtClear port s) := by
  unfold execProtClear
  with_reducible
    repeat' first
      | assumption | apply KeepsRes.next | apply State.fwCmd_keeps | apply State.fwProtSet_keeps | intro _ | split
      | dsimp -iota only | dsimp only

theorem execLock_keeps {z0 : State} {port : Nat} {s : State} (hK : Keeps z0 s) :
    KeepsRes z0 (execLock port s) := by
  unfold execLock
  with_reducible
    repeat' first
      | assumption | apply KeepsRes.next | apply State.setFlag_keeps | apply State.fwStatus_keeps
      | apply State.fwCmd_keeps | intro _ | split | dsimp -iota only | dsimp only

theorem execPwdSet_keeps {z0 : State} {port : Nat} {s : State} (hK : Keeps z0 s) :
    KeepsRes z0 (execPwdSet port s) := by
  unfold execPwdSet
  with_reducible
    repeat' first
      | assumption | apply KeepsRes.next | apply State.fwStatus_keeps | apply State.fwCmd_keeps
      | refine Keeps.foldl (fun _ _ _ => ?_) ?_ | refine Keeps.foldlFst (fun _ _ _ => ?_) ?_
      | refine Keeps.foldlSnd (fun _ _ _ => ?_) ?_ | apply Keeps.ite | intro _ | split | dsimp -iota only | dsimp only
      | ((fail_if_success apply Keeps.same); refine Keeps.mk ?_)

theorem State.pwdAttempt_keeps {z0 : State} {s : State} {port : Nat} (hK : Keeps z0 s) :
    Keeps z0 (State.pwdAttempt s port) := by
  unfold State.pwdAttempt
  with_reducible
    repeat' first
      | assumption | apply State.setFld_keeps | apply State.setFlag_keeps | apply State.raiseD_keeps
      | apply State.fwStatus_keeps | refine Keeps.foldl (fun _ _ _ => ?_) ?_
      | refine Keeps.foldlFst (fun _ _ _ => ?_) ?_ | refine Keeps.foldlSnd (fun _ _ _ => ?_) ?_ | apply Keeps.ite
      | intro _ | split | dsimp -iota only | dsimp only | ((fail_if_success apply Keeps.same); refine Keeps.mk ?_)

theorem State.pwdPlace_keeps {z0 : State} {s : State} {k : Nat} (hK : Keeps z0 s) :
    Keeps z0 (State.pwdPlace s k) := by
  unfold State.pwdPlace
  with_reducible
    repeat' first
      | assumption | intro _ | split | dsimp -iota only | dsimp only
      | ((fail_if_success apply Keeps.same); refine Keeps.mk ?_)

theorem State.pwdAbandon_keeps {z0 : State} {s : State} {port : Nat} (hK : Keeps z0 s) :
    Keeps z0 (State.pwdAbandon s port) := by
  unfold State.pwdAbandon
  with_reducible
    repeat' first
      | assumption | apply State.fwStatus_keeps | apply State.pwdPlace_keeps | apply Keeps.ite | intro _ | split
      | dsimp -iota only | dsimp only

theorem execFwfPwdKey_keeps {z0 : State} {port value : Nat} {s : State} (hK : Keeps z0 s) :
    KeepsRes z0 (execFwfPwdKey port value s) := by
  unfold execFwfPwdKey
  with_reducible
    repeat' first
      | assumption | apply KeepsRes.next | apply State.pwdAttempt_keeps | apply State.pwdPlace_keeps
      | apply State.pwdAbandon_keeps | apply Keeps.ite | intro _ | split | dsimp -iota only | dsimp only

theorem execFwfPwdData_keeps {z0 : State} {port value : Nat} {s : State} (hK : Keeps z0 s) :
    KeepsRes z0 (execFwfPwdData port value s) := by
  unfold execFwfPwdData
  with_reducible
    repeat' first
      | assumption | apply KeepsRes.next | apply State.pwdPlace_keeps | apply State.pwdAbandon_keeps | apply Keeps.ite
      | intro _ | split | dsimp -iota only | dsimp only | ((fail_if_success apply Keeps.same); refine Keeps.mk ?_)

end Sys2Proof.Machine
end

