-- ==== Sys2Proof/Laws/KeepFlash.lean ====
section
/-! SUPPORT. What the operations of Machine/Flash.lean keep. -/

set_option Elab.async false

namespace Sys2Proof.Machine

theorem State.setDie_keeps {z0 : State} {s : State} {slot i : Nat} {d : DieBlocks} (hK : Keeps z0 s) :
    Keeps z0 (State.setDie s slot i d) := by
  unfold State.setDie
  with_reducible
    repeat' first
      | assumption | intro _ | split | dsimp -iota only | dsimp only
      | ((fail_if_success apply Keeps.same); refine Keeps.mk ?_)

theorem State.takeBlock_keepsE {z0 : State} {s : State} {slot i : Nat} {uE} {tE : State} (hE : State.takeBlock s slot i = some (uE, tE)) (hK : Keeps z0 s) :
    Keeps z0 tE := by
  unfold State.takeBlock at hE
  repeat' (first | split at hE | dsimp only at hE)
  all_goals (first | cases hE | skip)
  with_reducible
    repeat' first
      | assumption | apply State.setDie_keeps | apply Keeps.ite | intro _ | split | dsimp -iota only | dsimp only
      | ((fail_if_success apply Keeps.same); refine Keeps.mk ?_)

theorem State.setPermits_keeps {z0 : State} {s : State} {lo n : Nat} (hK : Keeps z0 s) :
    Keeps z0 (State.setPermits s lo n) := by
  unfold State.setPermits
  with_reducible
    repeat' first
      | assumption | intro _ | split | dsimp -iota only | dsimp only
      | ((fail_if_success apply Keeps.same); refine Keeps.mk ?_)

theorem State.clearPermit_keeps {z0 : State} {s : State} {a : Nat} (hK : Keeps z0 s) :
    Keeps z0 (State.clearPermit s a) := by
  unfold State.clearPermit
  with_reducible
    repeat' first
      | assumption | apply Keeps.ite | intro _ | split | dsimp -iota only | dsimp only
      | ((fail_if_success apply Keeps.same); refine Keeps.mk ?_)

theorem State.suspEnd_keeps {z0 : State} {s : State} {a : Nat} (hK : Keeps z0 s) :
    Keeps z0 (State.suspEnd s a) := by
  unfold State.suspEnd
  with_reducible
    repeat' first
      | assumption | intro _ | split | dsimp -iota only | dsimp only
      | ((fail_if_success apply Keeps.same); refine Keeps.mk ?_)

theorem State.eraseBlock_keeps {z0 : State} {s : State} {a : Nat} (hK : Keeps z0 s) :
    Keeps z0 (State.eraseBlock s a) := by
  unfold State.eraseBlock
  with_reducible
    repeat' first
      | assumption | apply State.raiseD_keeps | apply State.opBegin_keeps | apply State.jAppend_keeps
      | apply Keeps.ite | intro _ | split | dsimp -iota only | dsimp only
      | ((fail_if_success apply Keeps.same); refine Keeps.mk ?_)

theorem State.eraseNow_keeps {z0 : State} {s : State} {a : Nat} (hK : Keeps z0 s) :
    Keeps z0 (State.eraseNow s a) := by
  unfold State.eraseNow
  with_reducible
    repeat' first
      | assumption | apply State.jAppend_keeps | apply State.setPermits_keeps | apply State.clearPermit_keeps
      | intro _ | split | dsimp -iota only | dsimp only

theorem State.setGroup_keeps {z0 : State} {s : State} {g : Group} (hK : Keeps z0 s) :
    Keeps z0 (State.setGroup s g) := by
  unfold State.setGroup
  with_reducible
    repeat' first
      | assumption | apply Keeps.ite | intro _ | split | dsimp -iota only | dsimp only
      | ((fail_if_success apply Keeps.same); refine Keeps.mk ?_)

theorem State.truncate_keeps {z0 : State} {s : State} {g : Group} (hK : Keeps z0 s) :
    Keeps z0 (State.truncate s g) := by
  unfold State.truncate
  with_reducible
    repeat' first
      | assumption | apply State.raiseD_keeps | apply State.setGroup_keeps | intro _ | split | dsimp -iota only
      | dsimp only | ((fail_if_success apply Keeps.same); refine Keeps.mk ?_)

theorem State.truncateIf_keeps {z0 : State} {s : State} {sel : Group → Bool} (hK : Keeps z0 s) :
    Keeps z0 (State.truncateIf s sel) := by
  unfold State.truncateIf
  with_reducible
    repeat' first
      | assumption | apply State.truncate_keeps | refine Keeps.foldl (fun _ _ _ => ?_) ?_
      | refine Keeps.foldlFst (fun _ _ _ => ?_) ?_ | refine Keeps.foldlSnd (fun _ _ _ => ?_) ?_ | intro _ | split
      | dsimp -iota only | dsimp only

theorem State.jReplace_keeps {z0 : State} {s : State} (hK : Keeps z0 s) :
    Keeps z0 (State.jReplace s) := by
  unfold State.jReplace
  with_reducible
    repeat' first
      | assumption | apply State.jProgram_keeps | apply State.jIssue_keeps | apply State.take_keeps
      | refine Keeps.foldl (fun _ _ _ => ?_) ?_ | refine Keeps.foldlFst (fun _ _ _ => ?_) ?_
      | refine Keeps.foldlSnd (fun _ _ _ => ?_) ?_ | apply Keeps.ite | intro _ | split | dsimp -iota only | dsimp only

theorem State.jLose_keeps {z0 : State} {s : State} {gone : Nat → Nat → Bool} (hK : Keeps z0 s) :
    Keeps z0 (State.jLose s gone) := by
  unfold State.jLose
  with_reducible
    repeat' first
      | assumption | apply State.raise_keeps | apply State.journal3_keeps | apply State.jReplace_keeps
      | apply Keeps.ite | intro _ | split | dsimp -iota only | dsimp only
      | ((fail_if_success apply Keeps.same); refine Keeps.mk ?_)

theorem State.jSettled_keeps {z0 : State} {s : State} (hK : Keeps z0 s) :
    Keeps z0 (State.jSettled s) := by
  unfold State.jSettled
  with_reducible
    repeat' first
      | assumption | apply State.raise_keeps | apply State.journal3_keeps | apply Keeps.ite | intro _ | split
      | dsimp -iota only | dsimp only | ((fail_if_success apply Keeps.same); refine Keeps.mk ?_)

theorem State.dropQuire_keeps {z0 : State} {s : State} {q : QuireJob} (hK : Keeps z0 s) :
    Keeps z0 (State.dropQuire s q) := by
  unfold State.dropQuire
  with_reducible
    repeat' first
      | assumption | apply State.setFolio_keeps | apply State.sendAhead_keeps | apply State.suspEnd_keeps
      | refine Keeps.foldl (fun _ _ _ => ?_) ?_ | refine Keeps.foldlFst (fun _ _ _ => ?_) ?_
      | refine Keeps.foldlSnd (fun _ _ _ => ?_) ?_ | apply Keeps.ite | intro _ | split | dsimp -iota only | dsimp only
      | ((fail_if_success apply Keeps.same); refine Keeps.mk ?_)

theorem State.abandonQuire_keeps {z0 : State} {s : State} {q : QuireJob} {pos : Nat} (hK : Keeps z0 s) :
    Keeps z0 (State.abandonQuire s q pos) := by
  unfold State.abandonQuire
  with_reducible
    repeat' first
      | assumption | apply State.raiseD_keeps | apply State.jAppend_keeps | apply State.truncate_keeps
      | apply State.dropQuire_keeps | apply Keeps.ite | intro _ | split | dsimp -iota only | dsimp only

theorem State.abandonOn_keeps {z0 : State} {s : State} {sel : Nat → Bool} (hK : Keeps z0 s) :
    Keeps z0 (State.abandonOn s sel) := by
  unfold State.abandonOn
  with_reducible
    repeat' first
      | assumption | apply State.abandonQuire_keeps | refine Keeps.foldl (fun _ _ _ => ?_) ?_
      | refine Keeps.foldlFst (fun _ _ _ => ?_) ?_ | refine Keeps.foldlSnd (fun _ _ _ => ?_) ?_ | intro _ | split
      | dsimp -iota only | dsimp only

theorem State.readsMissing_keeps {z0 : State} {s : State} {sel : Nat → Bool} (hK : Keeps z0 s) :
    Keeps z0 (State.readsMissing s sel) := by
  unfold State.readsMissing
  with_reducible
    repeat' first
      | assumption | apply Keeps.ite | intro _ | split | dsimp -iota only | dsimp only
      | ((fail_if_success apply Keeps.same); refine Keeps.mk ?_)

theorem State.erasesEnd_keeps {z0 : State} {s : State} {sel : Nat → Bool} (hK : Keeps z0 s) :
    Keeps z0 (State.erasesEnd s sel) := by
  unfold State.erasesEnd
  with_reducible
    repeat' first
      | assumption | apply State.suspEnd_keeps | refine Keeps.foldl (fun _ _ _ => ?_) ?_
      | refine Keeps.foldlFst (fun _ _ _ => ?_) ?_ | refine Keeps.foldlSnd (fun _ _ _ => ?_) ?_ | intro _ | split
      | dsimp -iota only | dsimp only | ((fail_if_success apply Keeps.same); refine Keeps.mk ?_)

theorem State.startOwn_keeps {z0 : State} {s : State} {act : Nat} {started : EvId} (hK : Keeps z0 s) :
    Keeps z0 (State.startOwn s act started) := by
  unfold State.startOwn
  with_reducible
    repeat' first
      | assumption | apply State.raise_keeps | apply State.ownJob_keeps | apply State.markStarted_keeps
      | apply Keeps.ite | intro _ | split | dsimp -iota only | dsimp only

theorem State.rebuildCheck_keeps {z0 : State} {s : State} (hK : Keeps z0 s) :
    Keeps z0 (State.rebuildCheck s) := by
  unfold State.rebuildCheck
  with_reducible
    repeat' first
      | assumption | apply Pass.step_keeps | apply State.startOwn_keeps | apply Keeps.ite | intro _ | split
      | dsimp -iota only | dsimp only

theorem State.submitReshape_keeps {z0 : State} {s : State} (hK : Keeps z0 s) :
    Keeps z0 (State.submitReshape s) := by
  unfold State.submitReshape
  with_reducible
    repeat' first
      | assumption | apply State.startOwn_keeps | apply Keeps.ite | intro _ | split | dsimp -iota only | dsimp only
      | ((fail_if_success apply Keeps.same); refine Keeps.mk ?_)

theorem State.withdrawDegraded_keeps {z0 : State} {s : State} (hK : Keeps z0 s) :
    Keeps z0 (State.withdrawDegraded s) := by
  unfold State.withdrawDegraded
  with_reducible
    repeat' first
      | assumption | apply State.sceneChange_keeps | apply Keeps.ite | intro _ | split | dsimp -iota only | dsimp only
      | ((fail_if_success apply Keeps.same); refine Keeps.mk ?_)

theorem State.askDegraded_keeps {z0 : State} {s : State} (hK : Keeps z0 s) :
    Keeps z0 (State.askDegraded s) := by
  unfold State.askDegraded
  with_reducible
    repeat' first
      | assumption | apply State.sceneChange_keeps | intro _ | split | dsimp -iota only | dsimp only
      | ((fail_if_success apply Keeps.same); refine Keeps.mk ?_)

theorem State.flashRegs_keeps {z0 : State} {s : State} (hK : Keeps z0 s) :
    Keeps z0 (State.flashRegs s) := by
  unfold State.flashRegs
  with_reducible
    repeat' first
      | assumption | apply State.setLive_keeps | apply State.setFld_keeps | apply State.setFlag_keeps
      | refine Keeps.getD ?_ ?_ | refine Keeps.foldl (fun _ _ _ => ?_) ?_ | refine Keeps.foldlFst (fun _ _ _ => ?_) ?_
      | refine Keeps.foldlSnd (fun _ _ _ => ?_) ?_ | apply Keeps.ite | intro _ | split | dsimp -iota only | dsimp only

theorem State.widthUpdate_keeps {z0 : State} {s : State} (hK : Keeps z0 s) :
    Keeps z0 (State.widthUpdate s) := by
  unfold State.widthUpdate
  with_reducible
    repeat' first
      | assumption | apply State.setFld_keeps | apply State.setFlag_keeps | apply State.raise_keeps
      | apply State.truncateIf_keeps | apply State.rebuildCheck_keeps | apply State.submitReshape_keeps
      | apply State.withdrawDegraded_keeps | apply State.askDegraded_keeps | apply State.flashRegs_keeps
      | apply Keeps.ite | intro _ | split | dsimp -iota only | dsimp only
      | ((fail_if_success apply Keeps.same); refine Keeps.mk ?_)

theorem State.slotLed_keeps {z0 : State} {s : State} {slot : Nat} (hK : Keeps z0 s) :
    Keeps z0 (State.slotLed s slot) := by
  unfold State.slotLed
  with_reducible
    repeat' first
      | assumption | apply State.setFld_keeps | apply State.send_keeps | apply Keeps.ite | intro _ | split
      | dsimp -iota only | dsimp only

theorem State.setSlot_keeps {z0 : State} {s : State} {slot st : Nat} (hK : Keeps z0 s) :
    Keeps z0 (State.setSlot s slot st) := by
  unfold State.setSlot
  with_reducible
    repeat' first
      | assumption | apply State.setFld_keeps | apply State.slotLed_keeps | intro _ | split | dsimp -iota only
      | dsimp only

theorem State.setCart_keeps {z0 : State} {s : State} {slot : Nat} {c : Cart} (hK : Keeps z0 s) :
    Keeps z0 (State.setCart s slot c) := by
  unfold State.setCart
  with_reducible
    repeat' first
      | assumption | intro _ | split | dsimp -iota only | dsimp only
      | ((fail_if_success apply Keeps.same); refine Keeps.mk ?_)

theorem State.slotPwr_keeps {z0 : State} {s : State} {slot : Nat} {on : Bool} (hK : Keeps z0 s) :
    Keeps z0 (State.slotPwr s slot on) := by
  unfold State.slotPwr
  with_reducible
    repeat' first
      | assumption | apply State.setFlag_keeps | apply State.send_keeps | apply State.setCart_keeps | intro _ | split
      | dsimp -iota only | dsimp only | ((fail_if_success apply Keeps.same); refine Keeps.mk ?_)

theorem State.diesAbsent_keeps {z0 : State} {s : State} {slot : Nat} (hK : Keeps z0 s) :
    Keeps z0 (State.diesAbsent s slot) := by
  unfold State.diesAbsent
  with_reducible
    repeat' first
      | assumption | apply State.setLive_keeps | refine Keeps.foldl (fun _ _ _ => ?_) ?_
      | refine Keeps.foldlFst (fun _ _ _ => ?_) ?_ | refine Keeps.foldlSnd (fun _ _ _ => ?_) ?_ | intro _ | split
      | dsimp -iota only | dsimp only

theorem State.endSlotJobs_keeps {z0 : State} {s : State} {slot status : Nat} (hK : Keeps z0 s) :
    Keeps z0 (State.endSlotJobs s slot status) := by
  unfold State.endSlotJobs
  with_reducible
    repeat' first
      | assumption | apply State.endJob_keeps | refine Keeps.foldl (fun _ _ _ => ?_) ?_
      | refine Keeps.foldlFst (fun _ _ _ => ?_) ?_ | refine Keeps.foldlSnd (fun _ _ _ => ?_) ?_ | intro _ | split
      | dsimp -iota only | dsimp only

theorem State.cartFail_keeps {z0 : State} {s : State} {slot : Nat} (hK : Keeps z0 s) :
    Keeps z0 (State.cartFail s slot) := by
  unfold State.cartFail
  with_reducible
    repeat' first
      | assumption | apply State.setFlag_keeps | apply State.raiseD_keeps | apply State.truncateIf_keeps
      | apply State.jLose_keeps | apply State.abandonOn_keeps | apply State.readsMissing_keeps
      | apply State.erasesEnd_keeps | apply State.askDegraded_keeps | apply State.widthUpdate_keeps
      | apply State.setSlot_keeps | apply State.slotPwr_keeps | apply State.diesAbsent_keeps
      | apply State.endSlotJobs_keeps | intro _ | split | dsimp -iota only | dsimp only

theorem State.takeBlockBut_keepsE {z0 s tE : State} {slot i uE : Nat} (hE : State.takeBlockBut s slot i = some (uE, tE))
    (h : Keeps z0 s) : Keeps z0 tE := by
  refine Keeps.findSome hE ?_
  intro x b u hx
  split at hx
  · cases hx
  · exact State.takeBlock_keepsE hx h

theorem State.reserveReplace_keeps {z0 : State} {s : State} {slot i : Nat} (hK : Keeps z0 s) :
    Keeps z0 (State.reserveReplace s slot i) := by
  unfold State.reserveReplace
  with_reducible
    repeat' first
      | assumption | apply State.eraseNow_keeps | apply State.setGroup_keeps
      | refine State.takeBlockBut_keepsE (by assumption) ?_ | refine Keeps.foldl (fun _ _ _ => ?_) ?_
      | refine Keeps.foldlFst (fun _ _ _ => ?_) ?_ | refine Keeps.foldlSnd (fun _ _ _ => ?_) ?_ | apply Keeps.ite
      | intro _ | split | dsimp -iota only | dsimp only | ((fail_if_success apply Keeps.same); refine Keeps.mk ?_)

theorem State.retireDie_keeps {z0 : State} {s : State} {slot i cause : Nat} (hK : Keeps z0 s) :
    Keeps z0 (State.retireDie s slot i cause) := by
  unfold State.retireDie
  with_reducible
    repeat' first
      | assumption | apply State.setFld_keeps | apply State.send_keeps | apply State.raiseD_keeps
      | apply State.truncateIf_keeps | apply State.jLose_keeps | apply State.abandonOn_keeps
      | apply State.readsMissing_keeps | apply State.erasesEnd_keeps | apply State.rebuildCheck_keeps
      | apply State.flashRegs_keeps | apply State.setCart_keeps | apply State.cartFail_keeps
      | apply State.reserveReplace_keeps | refine Keeps.foldl (fun _ _ _ => ?_) ?_
      | refine Keeps.foldlFst (fun _ _ _ => ?_) ?_ | refine Keeps.foldlSnd (fun _ _ _ => ?_) ?_ | apply Keeps.ite
      | intro _ | split | dsimp -iota only | dsimp only | ((fail_if_success apply Keeps.same); refine Keeps.mk ?_)

theorem State.retireBlock_keeps {z0 : State} {s : State} {a cause : Nat} (hK : Keeps z0 s) :
    Keeps z0 (State.retireBlock s a cause) := by
  unfold State.retireBlock
  with_reducible
    repeat' first
      | assumption | apply State.addSat_keeps | apply State.raiseD_keeps | apply State.jAppend_keeps
      | apply State.setDie_keeps | apply State.clearPermit_keeps | apply State.retireDie_keeps | apply Keeps.ite
      | intro _ | split | dsimp -iota only | dsimp only | ((fail_if_success apply Keeps.same); refine Keeps.mk ?_)

theorem State.slowEvent_keeps {z0 : State} {s : State} {a : Nat} (hK : Keeps z0 s) :
    Keeps z0 (State.slowEvent s a) := by
  unfold State.slowEvent
  with_reducible
    repeat' first
      | assumption | apply State.setFld_keeps | apply State.setDie_keeps | apply State.retireDie_keeps
      | apply Keeps.ite | intro _ | split | dsimp -iota only | dsimp only
      | ((fail_if_success apply Keeps.same); refine Keeps.mk ?_)

theorem State.memberFor_keepsE {z0 : State} {s : State} {slot : Nat} {uE} {tE : State} (hE : State.memberFor s slot = some (uE, tE)) (hK : Keeps z0 s) :
    Keeps z0 tE := by
  unfold State.memberFor at hE
  repeat' (first | split at hE | dsimp only at hE)
  all_goals (first | cases hE | skip)
  with_reducible
    repeat' first
      | assumption | refine State.takeBlock_keepsE (by assumption) ?_ | intro _ | split | dsimp -iota only
      | dsimp only | ((fail_if_success apply Keeps.same); refine Keeps.mk ?_)

theorem State.membersFor_keepsE {z0 s tE : State} {l uE : List Nat} (hE : State.membersFor s l = some (uE, tE))
    (h : Keeps z0 s) : Keeps z0 tE := by
  induction l generalizing s uE with
  | nil =>
    cases hE
    exact h
  | cons k rest ih =>
    unfold State.membersFor at hE
    split at hE
    · next e1 =>
      split at hE
      · next e2 =>
        cases hE
        exact ih e2 (State.memberFor_keepsE e1 h)
      · cases hE
    · cases hE

theorem State.openGroup_keepsE {z0 : State} {s : State} {redo : List Nat} {uE} {tE : State} (hE : State.openGroup s redo = some (uE, tE)) (hK : Keeps z0 s) :
    Keeps z0 tE := by
  unfold State.openGroup at hE
  repeat' (first | split at hE | dsimp only at hE)
  all_goals (first | cases hE | skip)
  with_reducible
    repeat' first
      | assumption | apply State.raiseD_keeps | apply State.jAppend_keeps | apply State.eraseNow_keeps
      | refine State.membersFor_keepsE (by assumption) ?_ | refine Keeps.foldl (fun _ _ _ => ?_) ?_
      | refine Keeps.foldlFst (fun _ _ _ => ?_) ?_ | refine Keeps.foldlSnd (fun _ _ _ => ?_) ?_ | apply Keeps.ite
      | intro _ | split | dsimp -iota only | dsimp only | ((fail_if_success apply Keeps.same); refine Keeps.mk ?_)

theorem State.releaseGroup_keeps {z0 : State} {s : State} {g : Group} (hK : Keeps z0 s) :
    Keeps z0 (State.releaseGroup s g) := by
  unfold State.releaseGroup
  with_reducible
    repeat' first
      | assumption | apply State.jAppend_keeps | apply State.setPermits_keeps | apply State.eraseBlock_keeps
      | apply State.setGroup_keeps | refine Keeps.foldl (fun _ _ _ => ?_) ?_
      | refine Keeps.foldlFst (fun _ _ _ => ?_) ?_ | refine Keeps.foldlSnd (fun _ _ _ => ?_) ?_ | intro _ | split
      | dsimp -iota only | dsimp only | ((fail_if_success apply Keeps.same); refine Keeps.mk ?_)

theorem State.releaseEmpty_keeps {z0 : State} {s : State} (hK : Keeps z0 s) :
    Keeps z0 (State.releaseEmpty s) := by
  unfold State.releaseEmpty
  with_reducible
    repeat' first
      | assumption | apply State.releaseGroup_keeps | refine Keeps.foldl (fun _ _ _ => ?_) ?_
      | refine Keeps.foldlFst (fun _ _ _ => ?_) ?_ | refine Keeps.foldlSnd (fun _ _ _ => ?_) ?_ | apply Keeps.ite
      | intro _ | split | dsimp -iota only | dsimp only

theorem State.moveEnds_keeps {z0 : State} {s : State} (hK : Keeps z0 s) :
    Keeps z0 (State.moveEnds s) := by
  unfold State.moveEnds
  with_reducible
    repeat' first
      | assumption | apply State.setFld_keeps | apply State.raise_keeps | apply State.endJob_keeps
      | apply State.withdrawDegraded_keeps | apply State.flashRegs_keeps | apply Keeps.ite | intro _ | split
      | dsimp -iota only | dsimp only

end Sys2Proof.Machine
end

