-- ==== Sys2Proof/Laws/KeepQuires.lean ====
section
/-! SUPPORT. What the operations of Machine/Quires.lean keep. -/

set_option Elab.async false

namespace Sys2Proof.Machine

theorem State.blotSlot_keeps {z0 : State} {s : State} {f : Nat} (hK : Keeps z0 s) :
    Keeps z0 (State.blotSlot s f).2 := by
  unfold State.blotSlot
  with_reducible
    repeat' first
      | assumption | apply State.setFolio_keeps | apply State.allocFolio_keeps | apply State.folioCells_keeps
      | refine State.folioCells_keepsE (by assumption) ?_ | apply Keeps.ite | intro _ | split | dsimp -iota only
      | dsimp only | ((fail_if_success apply Keeps.same); refine Keeps.mk ?_)

theorem State.blotSlot_keepsE {z0 : State} {s : State} {f : Nat} {tE : State} {uE} (hE : State.blotSlot s f = (uE, tE)) (hK : Keeps z0 s) :
    Keeps z0 tE := by
  have k := State.blotSlot_keeps (z0 := z0) (s := s) (f := f)  hK
  rw [hE] at k
  exact k

theorem State.blotSlots_keeps {z0 s : State} {l : List Nat} (h : Keeps z0 s) : Keeps z0 (State.blotSlots s l).2 := by
  induction l generalizing s with
  | nil => exact h
  | cons f t ih =>
    unfold State.blotSlots
    exact ih (State.blotSlot_keeps h)

theorem State.blotSlots_keepsE {z0 s tE : State} {l : List Nat} {uE : List FolioSlot} (hE : State.blotSlots s l = (uE, tE))
    (h : Keeps z0 s) : Keeps z0 tE := by
  have k := State.blotSlots_keeps (l := l) h
  rw [hE] at k
  exact k

theorem State.quireGroup_keepsE {z0 : State} {s : State} {redo : List Nat} {uE} {tE : State} (hE : State.quireGroup s redo = some (uE, tE)) (hK : Keeps z0 s) :
    Keeps z0 tE := by
  unfold State.quireGroup at hE
  repeat' (first | split at hE | dsimp only at hE)
  all_goals (first | cases hE | skip)
  repeat' first
    | with_reducible assumption
    | with_reducible exact Keeps.refl _
    | (with_reducible refine State.openGroup_keepsE (by assumption) ?_)
    | (with_reducible refine Keeps.getD ?_ ?_)
    | (with_reducible refine Keeps.mapPair (by assumption) ?_)
    | (with_reducible refine Keeps.foldl (fun st x hst => ?_) ?_)
    | (with_reducible refine Keeps.foldlFst (fun st x hst => ?_) ?_)
    | (with_reducible refine Keeps.foldlSnd (fun st x hst => ?_) ?_)
    | (with_reducible refine Keeps.ite ?_ ?_)
    | intro _
    | split
    | dsimp -iota only
    | dsimp only
    | dsimp only [id]
    | exact memWf_nil _
    | (fail_if_success (with_reducible refine Keeps.same ?_)
       with_reducible refine Keeps.mk ?_ ?_ ?_ ?_ ?_ ?_ ?_ ?_ ?_ ?_ ?_ ?_ ?_ <;>
         first | with_reducible exact Nat.le_refl _ | with_reducible exact List.prefix_rfl | with_reducible exact fun hm => hm |
           with_reducible exact List.prefix_append _ _ | with_reducible exact Nat.le_succ _ | with_reducible exact memWriteN_wf | with_reducible exact memClear_wf |
           with_reducible exact memPaste_wf | with_reducible exact memWrite_wf | with_reducible exact memWriteLE_wf | with_reducible exact fun _ => rfl | exact fun _ => memWf_nil _ |
           with_reducible exact fun hm => memWriteN_wf (memWriteN_wf hm) | exact fun _ => rfl |
           exact fun hm => memFold_wf (fun m y hh => memWrite_wf hh) hm |
           exact fun _ => memFold_wf (fun m y hh => memWrite_wf hh) (memWf_nil _) | skip)

theorem State.quireOpen_keeps {z0 : State} {s : State} {redo : List Nat} (hK : Keeps z0 s) :
    Keeps z0 (State.quireOpen s redo) := by
  unfold State.quireOpen
  with_reducible
    repeat' first
      | assumption | apply State.setFld_keeps | apply State.opBegin_keeps | apply State.jAppend_keeps
      | apply State.take_keeps | apply State.setGroup_keeps | apply State.flashRegs_keeps
      | apply State.blotSlots_keeps | refine State.blotSlots_keepsE (by assumption) ?_
      | refine State.quireGroup_keepsE (by assumption) ?_ | refine Keeps.foldl (fun _ _ _ => ?_) ?_
      | refine Keeps.foldlFst (fun _ _ _ => ?_) ?_ | refine Keeps.foldlSnd (fun _ _ _ => ?_) ?_ | apply Keeps.ite
      | intro _ | split | dsimp -iota only | dsimp only | ((fail_if_success apply Keeps.same); refine Keeps.mk ?_)

theorem execQuireOpen_keeps {z0 : State} {redo : List Nat} {halt : Bool} {s : State} (hK : Keeps z0 s) :
    KeepsRes z0 (execQuireOpen redo halt s) := by
  unfold execQuireOpen
  with_reducible
    repeat' first
      | assumption | apply KeepsRes.next | apply State.raiseD_keeps | apply State.settle_keeps
      | apply State.abandonQuire_keeps | apply State.flashRegs_keeps | apply State.quireOpen_keeps | apply Keeps.ite
      | intro _ | split | dsimp -iota only | dsimp only

theorem State.putHeaders_keeps {z0 : State} {s : State} {q : QuireJob} {ps : List Nat} (hK : Keeps z0 s) :
    Keeps z0 (State.putHeaders s q ps) := by
  unfold State.putHeaders
  with_reducible
    repeat' first
      | assumption | refine Keeps.foldl (fun _ _ _ => ?_) ?_ | refine Keeps.foldlFst (fun _ _ _ => ?_) ?_
      | refine Keeps.foldlSnd (fun _ _ _ => ?_) ?_ | intro _ | split | dsimp -iota only | dsimp only
      | ((fail_if_success apply Keeps.same); refine Keeps.mk ?_)

theorem State.holdSlot_keeps {z0 : State} {s : State} {quire i : Nat} {fs : FolioSlot} (hK : Keeps z0 s) :
    Keeps z0 (State.holdSlot s quire i fs) := by
  unfold State.holdSlot
  with_reducible
    repeat' first
      | assumption | apply State.raiseD_keeps | apply State.setFolio_keeps | apply State.folioClean_keeps
      | apply State.jAppend_keeps | apply State.markLost_keeps | apply Pass.store_keeps | apply Keeps.ite | intro _
      | split | dsimp -iota only | dsimp only | ((fail_if_success apply Keeps.same); refine Keeps.mk ?_)

theorem State.holdSlots_keeps {z0 : State} {s : State} {quire : Nat} {a0 : Nat} {a1 : List FolioSlot} (hK : Keeps z0 s) :
    Keeps z0 (State.holdSlots s quire a0 a1) := by
  fun_induction State.holdSlots s quire a0 a1
  all_goals
    with_reducible
      repeat' first
        | assumption | apply State.holdSlot_keeps | apply_assumption | intro _ | split | dsimp -iota only | dsimp only
  
theorem State.ckptAppend_keeps {z0 : State} {s : State} (hK : Keeps z0 s) :
    Keeps z0 (State.ckptAppend s) := by
  unfold State.ckptAppend
  with_reducible
    repeat' first
      | assumption | apply State.jAppend_keeps | apply State.take_keeps | refine Keeps.foldl (fun _ _ _ => ?_) ?_
      | refine Keeps.foldlFst (fun _ _ _ => ?_) ?_ | refine Keeps.foldlSnd (fun _ _ _ => ?_) ?_ | apply Keeps.ite
      | intro _ | split | dsimp -iota only | dsimp only

theorem State.quireHeld_keeps {z0 : State} {s : State} {q : QuireJob} (hK : Keeps z0 s) :
    Keeps z0 (State.quireHeld s q) := by
  unfold State.quireHeld
  with_reducible
    repeat' first
      | assumption | apply State.jAppend_keeps | apply State.setGroup_keeps | apply State.releaseEmpty_keeps
      | apply State.moveEnds_keeps | apply State.putHeaders_keeps | apply State.holdSlots_keeps
      | apply State.ckptAppend_keeps | apply Keeps.ite | intro _ | split | dsimp -iota only | dsimp only
      | ((fail_if_success apply Keeps.same); refine Keeps.mk ?_)

theorem State.ringErase_keeps {z0 : State} {s : State} {slot : Nat} (hK : Keeps z0 s) :
    Keeps z0 (State.ringErase s slot) := by
  unfold State.ringErase
  with_reducible
    repeat' first
      | assumption | apply State.setPermits_keeps | apply State.eraseBlock_keeps
      | refine Keeps.foldl (fun _ _ _ => ?_) ?_ | refine Keeps.foldlFst (fun _ _ _ => ?_) ?_
      | refine Keeps.foldlSnd (fun _ _ _ => ?_) ?_ | apply Keeps.ite | intro _ | split | dsimp -iota only | dsimp only
      | ((fail_if_success apply Keeps.same); refine Keeps.mk ?_)

theorem State.ckptComplete_keeps {z0 : State} {s : State} (hK : Keeps z0 s) :
    Keeps z0 (State.ckptComplete s) := by
  unfold State.ckptComplete
  with_reducible
    repeat' first
      | assumption | apply State.setLive_keeps | apply State.raiseD_keeps | apply State.jRecount_keeps
      | apply State.twinSendUp_keeps | apply State.ringErase_keeps | refine Keeps.foldl (fun _ _ _ => ?_) ?_
      | refine Keeps.foldlFst (fun _ _ _ => ?_) ?_ | refine Keeps.foldlSnd (fun _ _ _ => ?_) ?_ | intro _ | split
      | dsimp -iota only | dsimp only | ((fail_if_success apply Keeps.same); refine Keeps.mk ?_)

theorem State.journalGood_keeps {z0 : State} {s : State} {index slot : Nat} (hK : Keeps z0 s) :
    Keeps z0 (State.journalGood s index slot) := by
  unfold State.journalGood
  with_reducible
    repeat' first
      | assumption | apply State.jRecount_keeps | apply State.jSettled_keeps | apply State.ckptComplete_keeps
      | apply Keeps.ite | intro _ | split | dsimp -iota only | dsimp only
      | ((fail_if_success apply Keeps.same); refine Keeps.mk ?_)

theorem State.logProgramDone_keeps {z0 : State} {s : State} {ok : Bool} (hK : Keeps z0 s) :
    Keeps z0 (State.logProgramDone s ok) := by
  unfold State.logProgramDone
  with_reducible
    repeat' first
      | assumption | apply State.setFld_keeps | apply State.setFlag_keeps | apply State.suspEnd_keeps
      | apply State.retireBlock_keeps | refine Keeps.foldl (fun _ _ _ => ?_) ?_
      | refine Keeps.foldlFst (fun _ _ _ => ?_) ?_ | refine Keeps.foldlSnd (fun _ _ _ => ?_) ?_ | apply Keeps.ite
      | intro _ | split | dsimp -iota only | dsimp only | ((fail_if_success apply Keeps.same); refine Keeps.mk ?_)

theorem State.quireProgram_keeps {z0 : State} {s : State} {quire pos : Nat} {ok : Bool} (hK : Keeps z0 s) :
    Keeps z0 (State.quireProgram s quire pos ok) := by
  unfold State.quireProgram
  with_reducible
    repeat' first
      | assumption | apply State.suspEnd_keeps | apply State.abandonQuire_keeps | apply State.retireBlock_keeps
      | apply State.putHeaders_keeps | apply State.quireHeld_keeps | apply Keeps.ite | intro _ | split
      | dsimp -iota only | dsimp only | ((fail_if_success apply Keeps.same); refine Keeps.mk ?_)

theorem State.journalProgram_keeps {z0 : State} {s : State} {index slot : Nat} {ok : Bool} (hK : Keeps z0 s) :
    Keeps z0 (State.journalProgram s index slot ok) := by
  unfold State.journalProgram
  with_reducible
    repeat' first
      | assumption | apply State.suspEnd_keeps | apply State.jReplace_keeps | apply State.retireBlock_keeps
      | apply State.journalGood_keeps | apply Keeps.ite | intro _ | split | dsimp -iota only | dsimp only
      | ((fail_if_success apply Keeps.same); refine Keeps.mk ?_)

theorem State.programDone_keeps {z0 : State} {s : State} {what : Program} {ok : Bool} (hK : Keeps z0 s) :
    Keeps z0 (State.programDone s what ok) := by
  unfold State.programDone
  with_reducible
    repeat' first
      | assumption | apply State.settle_keeps | apply State.flashRegs_keeps | apply State.logProgramDone_keeps
      | apply State.quireProgram_keeps | apply State.journalProgram_keeps | intro _ | split | dsimp -iota only
      | dsimp only

theorem execLeafProgramDone_keeps {z0 : State} {what : Program} {ok : Bool} {s : State} (hK : Keeps z0 s) :
    KeepsRes z0 (execLeafProgramDone what ok s) := by
  unfold execLeafProgramDone
  with_reducible
    repeat' first
      | assumption | apply KeepsRes.next | apply State.programDone_keeps | intro _ | split | dsimp -iota only
      | dsimp only

theorem State.programsEnd_keeps {z0 : State} {s : State} (hK : Keeps z0 s) :
    Keeps z0 (State.programsEnd s) := by
  unfold State.programsEnd
  with_reducible
    repeat' first
      | assumption | apply State.logProgramDone_keeps | apply State.quireProgram_keeps
      | apply State.journalProgram_keeps | refine Keeps.foldl (fun _ _ _ => ?_) ?_
      | refine Keeps.foldlFst (fun _ _ _ => ?_) ?_ | refine Keeps.foldlSnd (fun _ _ _ => ?_) ?_ | intro _ | split
      | dsimp -iota only | dsimp only

theorem State.groupGone_keeps {z0 : State} {s : State} (hK : Keeps z0 s) :
    Keeps z0 (State.groupGone s) := by
  unfold State.groupGone
  with_reducible
    repeat' first
      | assumption | intro _ | split | dsimp -iota only | dsimp only
      | ((fail_if_success apply Keeps.same); refine Keeps.mk ?_)

theorem execEraseDone_keeps {z0 : State} {block : Nat} {ok : Bool} {s : State} (hK : Keeps z0 s) :
    KeepsRes z0 (execEraseDone block ok s) := by
  unfold execEraseDone
  with_reducible
    repeat' first
      | assumption | apply KeepsRes.next | apply State.jAppend_keeps | apply State.settle_keeps
      | apply State.setDie_keeps | apply State.clearPermit_keeps | apply State.suspEnd_keeps
      | apply State.flashRegs_keeps | apply State.retireBlock_keeps | apply State.groupGone_keeps | apply Keeps.ite
      | intro _ | split | dsimp -iota only | dsimp only | ((fail_if_success apply Keeps.same); refine Keeps.mk ?_)

theorem execJournalFlush_keeps {z0 : State} {s : State} (hK : Keeps z0 s) :
    KeepsRes z0 (execJournalFlush s) := by
  unfold execJournalFlush
  with_reducible
    repeat' first
      | assumption | apply KeepsRes.next | apply State.jClose_keeps | apply State.maybeCheckpoint_keeps
      | apply State.settle_keeps | apply Keeps.ite | intro _ | split | dsimp -iota only | dsimp only

theorem State.readMove_keeps {z0 : State} {s : State} {f cls : Nat} (hK : Keeps z0 s) :
    Keeps z0 (State.readMove s f cls) := by
  unfold State.readMove
  with_reducible
    repeat' first
      | assumption | apply State.flashRead_keeps | apply Keeps.ite | intro _ | split | dsimp -iota only | dsimp only

theorem execReclaim_keeps {z0 : State} {room : Bool} {s : State} (hK : Keeps z0 s) :
    KeepsRes z0 (execReclaim room s) := by
  unfold execReclaim
  with_reducible
    repeat' first
      | assumption | apply KeepsRes.next | apply State.raiseD_keeps | apply State.flashRegs_keeps
      | apply State.releaseEmpty_keeps | apply State.readMove_keeps | refine Keeps.foldl (fun _ _ _ => ?_) ?_
      | refine Keeps.foldlFst (fun _ _ _ => ?_) ?_ | refine Keeps.foldlSnd (fun _ _ _ => ?_) ?_ | apply Keeps.ite
      | intro _ | split | dsimp -iota only | dsimp only | ((fail_if_success apply Keeps.same); refine Keeps.mk ?_)

theorem State.moveGroup_keeps {z0 : State} {s : State} {g : Group} {cls : Nat} (hK : Keeps z0 s) :
    Keeps z0 (State.moveGroup s g cls) := by
  unfold State.moveGroup
  with_reducible
    repeat' first
      | assumption | apply State.raiseD_keeps | apply State.allocFolio_keeps | apply State.folioCells_keeps
      | refine State.folioCells_keepsE (by assumption) ?_ | apply State.sendAhead_keeps | apply State.fetchFolio_keeps
      | apply State.markLost_keeps | apply State.setGroup_keeps | apply State.readMove_keeps
      | refine Keeps.foldl (fun _ _ _ => ?_) ?_ | refine Keeps.foldlFst (fun _ _ _ => ?_) ?_
      | refine Keeps.foldlSnd (fun _ _ _ => ?_) ?_ | apply Keeps.ite | intro _ | split | dsimp -iota only | dsimp only
      | ((fail_if_success apply Keeps.same); refine Keeps.mk ?_)

theorem State.closeFor_keeps {z0 : State} {s : State} {g : Group} (hK : Keeps z0 s) :
    Keeps z0 (State.closeFor s g) := by
  unfold State.closeFor
  with_reducible
    repeat' first
      | assumption | apply State.truncate_keeps | apply Keeps.ite | intro _ | split | dsimp -iota only | dsimp only

theorem execRebuild_keeps {z0 : State} {s : State} (hK : Keeps z0 s) :
    KeepsRes z0 (execRebuild s) := by
  unfold execRebuild
  with_reducible
    repeat' first
      | assumption | apply KeepsRes.next | apply State.settle_keeps | apply State.rebuildCheck_keeps
      | apply State.flashRegs_keeps | apply State.releaseEmpty_keeps | apply State.moveEnds_keeps
      | apply State.moveGroup_keeps | apply State.closeFor_keeps | apply Keeps.ite | intro _ | split
      | dsimp -iota only | dsimp only

theorem execReshape_keeps {z0 : State} {s : State} (hK : Keeps z0 s) :
    KeepsRes z0 (execReshape s) := by
  unfold execReshape
  with_reducible
    repeat' first
      | assumption | apply KeepsRes.next | apply State.settle_keeps | apply State.submitReshape_keeps
      | apply State.flashRegs_keeps | apply State.releaseEmpty_keeps | apply State.moveEnds_keeps
      | apply State.moveGroup_keeps | apply State.closeFor_keeps | apply Keeps.ite | intro _ | split
      | dsimp -iota only | dsimp only

theorem execReshapeDelayExpiry_keeps {z0 : State} {s : State} (hK : Keeps z0 s) :
    KeepsRes z0 (execReshapeDelayExpiry s) := by
  unfold execReshapeDelayExpiry
  with_reducible
    repeat' first
      | assumption | apply KeepsRes.next | apply State.submitReshape_keeps | apply State.flashRegs_keeps
      | apply Keeps.ite | intro _ | split | dsimp -iota only | dsimp only

end Sys2Proof.Machine
end

