-- ==== Sys2Proof/Laws/KeepPbLog.lean ====
section
/-! SUPPORT. What the operations of Machine/PbLog.lean keep. -/

set_option Elab.async false

namespace Sys2Proof.Machine

theorem State.logPlace_keepsE {z0 : State} {s : State} {uE wE} {tE : State} (hE : State.logPlace s = some (uE, wE, tE)) (hK : Keeps z0 s) :
    Keeps z0 tE := by
  unfold State.logPlace at hE
  repeat' (first | split at hE | dsimp only at hE)
  all_goals (first | cases hE | skip)
  with_reducible
    repeat' first
      | assumption | apply State.eraseNow_keeps | apply Keeps.ite | intro _ | split | dsimp -iota only | dsimp only
      | ((fail_if_success apply Keeps.same); refine Keeps.mk ?_)

theorem State.logIssue_keeps {z0 : State} {s : State} {rs rest : List PbRecord} (hK : Keeps z0 s) :
    Keeps z0 (State.logIssue s rs rest) := by
  unfold State.logIssue
  with_reducible
    repeat' first
      | assumption | apply State.setFlag_keeps | apply State.opBegin_keeps
      | refine State.logPlace_keepsE (by assumption) ?_ | apply Keeps.ite | intro _ | split | dsimp -iota only
      | dsimp only | ((fail_if_success apply Keeps.same); refine Keeps.mk ?_)

theorem State.pbFlush_keeps {z0 : State} {s : State} (hK : Keeps z0 s) :
    Keeps z0 (State.pbFlush s) := by
  unfold State.pbFlush
  with_reducible
    repeat' first
      | assumption | apply State.take_keeps | apply State.logIssue_keeps | apply Keeps.ite | intro _ | split
      | dsimp -iota only | dsimp only

theorem execPbookFlush_keeps {z0 : State} {s : State} (hK : Keeps z0 s) :
    KeepsRes z0 (execPbookFlush s) := by
  unfold execPbookFlush
  with_reducible
    repeat' first
      | assumption | apply KeepsRes.next | apply State.pbFlush_keeps | intro _ | split | dsimp -iota only | dsimp only

theorem State.strikeLog_keeps {z0 : State} {s : State} (hK : Keeps z0 s) :
    Keeps z0 (State.strikeLog s) := by
  unfold State.strikeLog
  with_reducible
    repeat' first
      | assumption | apply State.take_keeps | apply State.logProgramDone_keeps | apply State.logIssue_keeps
      | apply Keeps.ite | intro _ | split | dsimp -iota only | dsimp only

theorem State.pbRestore_keeps {z0 : State} {s : State} (hK : Keeps z0 s) :
    Keeps z0 (State.pbRestore s) := by
  unfold State.pbRestore
  with_reducible
    repeat' first
      | assumption | apply State.setFld_keeps | apply State.setPbSeq_keeps | apply State.pbCounts_keeps
      | refine Keeps.foldl (fun _ _ _ => ?_) ?_ | refine Keeps.foldlFst (fun _ _ _ => ?_) ?_
      | refine Keeps.foldlSnd (fun _ _ _ => ?_) ?_ | intro _ | split | dsimp -iota only | dsimp only
      | ((fail_if_success apply Keeps.same); refine Keeps.mk ?_)

end Sys2Proof.Machine
end

