-- ==== Sys2Proof/Laws/KeepMailbox.lean ====
section
/-! SUPPORT. What the operations of Machine/Mailbox.lean keep. -/

set_option Elab.async false

namespace Sys2Proof.Machine

theorem execIdentifyMemoryDevice_keeps {z0 : State} {mb : Nat} {input : List Byte} {s : State} (hK : Keeps z0 s) :
    KeepsRes z0 (execIdentifyMemoryDevice mb input s) := by
  unfold execIdentifyMemoryDevice
  with_reducible
    repeat' first
      | assumption | apply KeepsRes.next | apply State.standard_keeps | apply State.answerStd_keeps
      | apply State.freeBytes_keeps | refine State.freeBytes_keepsE (by assumption) ?_ | intro _ | split
      | dsimp -iota only | dsimp only

theorem execGetHealthInfo_keeps {z0 : State} {mb : Nat} {input : List Byte} {s : State} (hK : Keeps z0 s) :
    KeepsRes z0 (execGetHealthInfo mb input s) := by
  unfold execGetHealthInfo
  with_reducible
    repeat' first
      | assumption | apply KeepsRes.next | apply State.standard_keeps | apply State.answerStd_keeps
      | apply State.freeBytes_keeps | refine State.freeBytes_keepsE (by assumption) ?_ | intro _ | split
      | dsimp -iota only | dsimp only

theorem State.setMbox_keeps {z0 : State} {s : State} {mb : Nat} {m : MboxState} (hK : Keeps z0 s) :
    Keeps z0 (State.setMbox s mb m) := by
  unfold State.setMbox
  with_reducible
    repeat' first
      | assumption | intro _ | split | dsimp -iota only | dsimp only
      | ((fail_if_success apply Keeps.same); refine Keeps.mk ?_)

theorem execGetTimestamp_keeps {z0 : State} {mb : Nat} {input : List Byte} {s : State} (hK : Keeps z0 s) :
    KeepsRes z0 (execGetTimestamp mb input s) := by
  unfold execGetTimestamp
  with_reducible
    repeat' first
      | assumption | apply KeepsRes.next | apply State.standard_keeps | apply State.answerStd_keeps | intro _ | split
      | dsimp -iota only | dsimp only

theorem execSetTimestamp_keeps {z0 : State} {mb : Nat} {input : List Byte} {s : State} (hK : Keeps z0 s) :
    KeepsRes z0 (execSetTimestamp mb input s) := by
  unfold execSetTimestamp
  with_reducible
    repeat' first
      | assumption | apply KeepsRes.next | apply State.standard_keeps | apply State.answerStd_keeps
      | apply State.setMbox_keeps | intro _ | split | dsimp -iota only | dsimp only
      | ((fail_if_success apply Keeps.same); refine Keeps.mk ?_)

theorem execGetSupportedLogs_keeps {z0 : State} {mb : Nat} {input : List Byte} {s : State} (hK : Keeps z0 s) :
    KeepsRes z0 (execGetSupportedLogs mb input s) := by
  unfold execGetSupportedLogs
  with_reducible
    repeat' first
      | assumption | apply KeepsRes.next | apply State.standard_keeps | apply State.answerStd_keeps
      | apply State.freeBytes_keeps | refine State.freeBytes_keepsE (by assumption) ?_ | intro _ | split
      | dsimp -iota only | dsimp only

theorem execGetLog_keeps {z0 : State} {mb : Nat} {input : List Byte} {s : State} (hK : Keeps z0 s) :
    KeepsRes z0 (execGetLog mb input s) := by
  unfold execGetLog
  with_reducible
    repeat' first
      | assumption | apply KeepsRes.next | apply State.send_keeps | apply State.standard_keeps
      | apply State.answerStd_keeps | apply State.freeBytes_keeps | refine State.freeBytes_keepsE (by assumption) ?_
      | apply Keeps.ite | intro _ | split | dsimp -iota only | dsimp only

theorem execGetEventRecords_keeps {z0 : State} {mb : Nat} {input : List Byte} {s : State} (hK : Keeps z0 s) :
    KeepsRes z0 (execGetEventRecords mb input s) := by
  unfold execGetEventRecords
  with_reducible
    repeat' first
      | assumption | apply KeepsRes.next | apply State.send_keeps | apply State.take_keeps
      | apply State.standard_keeps | apply State.answerStd_keeps | refine Keeps.getD ?_ ?_ | apply Keeps.ite | intro _
      | split | dsimp -iota only | dsimp only

theorem execClearEventRecords_keeps {z0 : State} {mb : Nat} {input : List Byte} {s : State} (hK : Keeps z0 s) :
    KeepsRes z0 (execClearEventRecords mb input s) := by
  unfold execClearEventRecords
  with_reducible
    repeat' first
      | assumption | apply KeepsRes.next | apply State.send_keeps | apply State.holdMail_keeps
      | apply State.answerStd_keeps | refine Keeps.getD ?_ ?_ | apply Keeps.ite | intro _ | split | dsimp -iota only
      | dsimp only | ((fail_if_success apply Keeps.same); refine Keeps.mk ?_)

theorem execGetEventInterruptPolicy_keeps {z0 : State} {mb : Nat} {input : List Byte} {s : State} (hK : Keeps z0 s) :
    KeepsRes z0 (execGetEventInterruptPolicy mb input s) := by
  unfold execGetEventInterruptPolicy
  with_reducible
    repeat' first
      | assumption | apply KeepsRes.next | apply State.standard_keeps | apply State.answerStd_keeps | intro _ | split
      | dsimp -iota only | dsimp only

theorem execSetEventInterruptPolicy_keeps {z0 : State} {mb : Nat} {input : List Byte} {s : State} (hK : Keeps z0 s) :
    KeepsRes z0 (execSetEventInterruptPolicy mb input s) := by
  unfold execSetEventInterruptPolicy
  with_reducible
    repeat' first
      | assumption | apply KeepsRes.next | apply State.standard_keeps | apply State.answerStd_keeps
      | apply State.setMbox_keeps | intro _ | split | dsimp -iota only | dsimp only
      | ((fail_if_success apply Keeps.same); refine Keeps.mk ?_)

theorem execGetAlertConfiguration_keeps {z0 : State} {mb : Nat} {input : List Byte} {s : State} (hK : Keeps z0 s) :
    KeepsRes z0 (execGetAlertConfiguration mb input s) := by
  unfold execGetAlertConfiguration
  with_reducible
    repeat' first
      | assumption | apply KeepsRes.next | apply State.standard_keeps | apply State.answerStd_keeps | intro _ | split
      | dsimp -iota only | dsimp only

theorem execSetAlertConfiguration_keeps {z0 : State} {mb : Nat} {input : List Byte} {s : State} (hK : Keeps z0 s) :
    KeepsRes z0 (execSetAlertConfiguration mb input s) := by
  unfold execSetAlertConfiguration
  with_reducible
    repeat' first
      | assumption | apply KeepsRes.next | apply State.standard_keeps | apply State.answerStd_keeps
      | apply State.setMbox_keeps | intro _ | split | dsimp -iota only | dsimp only
      | ((fail_if_success apply Keeps.same); refine Keeps.mk ?_)

theorem execGetPartitionInfo_keeps {z0 : State} {mb : Nat} {input : List Byte} {s : State} (hK : Keeps z0 s) :
    KeepsRes z0 (execGetPartitionInfo mb input s) := by
  unfold execGetPartitionInfo
  with_reducible
    repeat' first
      | assumption | apply KeepsRes.next | apply State.standard_keeps | apply State.answerStd_keeps | intro _ | split
      | dsimp -iota only | dsimp only

theorem execGetLsa_keeps {z0 : State} {mb : Nat} {input : List Byte} {s : State} (hK : Keeps z0 s) :
    KeepsRes z0 (execGetLsa mb input s) := by
  unfold execGetLsa
  with_reducible
    repeat' first
      | assumption | apply KeepsRes.next | apply State.send_keeps | apply State.standard_keeps
      | apply State.answerStd_keeps | apply Keeps.ite | intro _ | split | dsimp -iota only | dsimp only

theorem execSetLsa_keeps {z0 : State} {mb : Nat} {input : List Byte} {s : State} (hK : Keeps z0 s) :
    KeepsRes z0 (execSetLsa mb input s) := by
  unfold execSetLsa
  repeat' first
    | with_reducible assumption
    | with_reducible exact Keeps.refl _
    | (with_reducible refine KeepsRes.next ?_)
    | (with_reducible refine State.send_keeps ?_)
    | (with_reducible refine State.holdMail_keeps ?_)
    | (with_reducible refine State.answerStd_keeps ?_)
    | (with_reducible refine Keeps.getD ?_ ?_)
    | (with_reducible refine Keeps.mapPair (by assumption) ?_)
    | (with_reducible refine Keeps.foldl (fun st x hst => ?_) ?_)
    | (with_reducible refine Keeps.foldlFst (fun st x hst => ?_) ?_)
    | (with_reducible refine Keeps.foldlSnd (fun st x hst => ?_) ?_)
    | (with_reducible refine Keeps.ite ?_ ?_)
    | intro _
    | split
    | dsimp -iota only
    | dsimp only
    | dsimp only [id]
    | exact memWf_nil _
    | (fail_if_success (with_reducible refine Keeps.same ?_)
       with_reducible refine Keeps.mk ?_ ?_ ?_ ?_ ?_ ?_ ?_ ?_ ?_ ?_ ?_ ?_ ?_ <;>
         first | with_reducible exact Nat.le_refl _ | with_reducible exact List.prefix_rfl | with_reducible exact fun hm => hm |
           with_reducible exact List.prefix_append _ _ | with_reducible exact Nat.le_succ _ | with_reducible exact memWriteN_wf | with_reducible exact memClear_wf |
           with_reducible exact memPaste_wf | with_reducible exact memWrite_wf | with_reducible exact memWriteLE_wf | with_reducible exact fun _ => rfl | exact fun _ => memWf_nil _ |
           with_reducible exact fun hm => memWriteN_wf (memWriteN_wf hm) | exact fun _ => rfl |
           exact fun hm => memFold_wf (fun m y hh => memWrite_wf hh) hm |
           exact fun _ => memFold_wf (fun m y hh => memWrite_wf hh) (memWf_nil _) | skip)

theorem execGetPoisonList_keeps {z0 : State} {mb : Nat} {input : List Byte} {s : State} (hK : Keeps z0 s) :
    KeepsRes z0 (execGetPoisonList mb input s) := by
  unfold execGetPoisonList
  with_reducible
    repeat' first
      | assumption | apply KeepsRes.next | apply State.take_keeps | apply State.standard_keeps
      | apply State.answerStd_keeps | intro _ | split | dsimp -iota only | dsimp only

theorem execMailboxUnsupported_keeps {z0 : State} {mb opcode : Nat} {s : State} (hK : Keeps z0 s) :
    KeepsRes z0 (execMailboxUnsupported mb opcode s) := by
  unfold execMailboxUnsupported
  with_reducible
    repeat' first
      | assumption | apply KeepsRes.next | apply State.send_keeps | apply State.holdMail_keeps | apply Keeps.ite
      | intro _ | split | dsimp -iota only | dsimp only

theorem execGetDeviceInfo_keeps {z0 : State} {mb : Nat} {input : List Byte} {s : State} (hK : Keeps z0 s) :
    KeepsRes z0 (execGetDeviceInfo mb input s) := by
  unfold execGetDeviceInfo
  with_reducible
    repeat' first
      | assumption | apply KeepsRes.next | apply State.answer_keeps | apply State.vendor_keeps | intro _ | split
      | dsimp -iota only | dsimp only

theorem execGetEpoch_keeps {z0 : State} {mb : Nat} {input : List Byte} {s : State} (hK : Keeps z0 s) :
    KeepsRes z0 (execGetEpoch mb input s) := by
  unfold execGetEpoch
  with_reducible
    repeat' first
      | assumption | apply KeepsRes.next | apply State.answer_keeps | apply State.vendor_keeps | intro _ | split
      | dsimp -iota only | dsimp only

theorem execRegionRead_keeps {z0 : State} {mb : Nat} {input : List Byte} {s : State} (hK : Keeps z0 s) :
    KeepsRes z0 (execRegionRead mb input s) := by
  unfold execRegionRead
  with_reducible
    repeat' first
      | assumption | apply KeepsRes.next | apply State.answer_keeps | apply State.vendor_keeps | apply Keeps.ite
      | intro _ | split | dsimp -iota only | dsimp only

theorem execRegionWrite_keeps {z0 : State} {mb : Nat} {input : List Byte} {s : State} (hK : Keeps z0 s) :
    KeepsRes z0 (execRegionWrite mb input s) := by
  unfold execRegionWrite
  with_reducible
    repeat' first
      | assumption | apply KeepsRes.next | apply State.answer_keeps | apply State.vendor_keeps
      | apply State.setTabEntry_keeps | apply Keeps.ite | intro _ | split | dsimp -iota only | dsimp only

theorem execAccessStage_keeps {z0 : State} {mb : Nat} {input : List Byte} {s : State} (hK : Keeps z0 s) :
    KeepsRes z0 (execAccessStage mb input s) := by
  unfold execAccessStage
  with_reducible
    repeat' first
      | assumption | apply KeepsRes.next | apply State.answer_keeps | apply State.vendor_keeps
      | apply State.setTabEntry_keeps | intro _ | split | dsimp -iota only | dsimp only

theorem execAccessCommit_keeps {z0 : State} {mb : Nat} {input : List Byte} {s : State} (hK : Keeps z0 s) :
    KeepsRes z0 (execAccessCommit mb input s) := by
  unfold execAccessCommit
  with_reducible
    repeat' first
      | assumption | apply KeepsRes.next | apply State.answer_keeps | apply State.settle_keeps
      | apply State.vendor_keeps | apply State.startCommit_keeps | apply Keeps.ite | intro _ | split
      | dsimp -iota only | dsimp only

theorem execAccCommit_keeps {z0 : State} {value : Nat} {s : State} (hK : Keeps z0 s) :
    KeepsRes z0 (execAccCommit value s) := by
  unfold execAccCommit
  with_reducible
    repeat' first
      | assumption | apply KeepsRes.next | apply State.settle_keeps | apply State.startCommit_keeps | apply Keeps.ite
      | intro _ | split | dsimp -iota only | dsimp only

theorem execCommitEdge_keeps {z0 : State} {s : State} (hK : Keeps z0 s) :
    KeepsRes z0 (execCommitEdge s) := by
  unfold execCommitEdge
  with_reducible
    repeat' first
      | assumption | apply KeepsRes.next | apply State.settle_keeps | apply State.commitEdge_keeps
      | apply State.nextCommit_keeps | intro _ | split | dsimp -iota only | dsimp only

theorem execPersistBarrier_keeps {z0 : State} {mb : Nat} {input : List Byte} {s : State} (hK : Keeps z0 s) :
    KeepsRes z0 (execPersistBarrier mb input s) := by
  unfold execPersistBarrier
  with_reducible
    repeat' first
      | assumption | apply KeepsRes.next | apply State.barriers_keeps | apply State.settle_keeps
      | apply State.vendor_keeps | intro _ | split | dsimp -iota only | dsimp only
      | ((fail_if_success apply Keeps.same); refine Keeps.mk ?_)

theorem execInkRead_keeps {z0 : State} {mb : Nat} {input : List Byte} {s : State} (hK : Keeps z0 s) :
    KeepsRes z0 (execInkRead mb input s) := by
  unfold execInkRead
  with_reducible
    repeat' first
      | assumption | apply KeepsRes.next | apply State.answer_keeps | apply State.vendor_keeps | intro _ | split
      | dsimp -iota only | dsimp only

theorem execInkLimitSet_keeps {z0 : State} {mb : Nat} {input : List Byte} {s : State} (hK : Keeps z0 s) :
    KeepsRes z0 (execInkLimitSet mb input s) := by
  unfold execInkLimitSet
  with_reducible
    repeat' first
      | assumption | apply KeepsRes.next | apply State.answer_keeps | apply State.setInkLimit_keeps
      | apply State.settle_keeps | apply State.vendor_keeps | intro _ | split | dsimp -iota only | dsimp only

theorem execInkLimitWrite_keeps {z0 : State} {value : Nat} {s : State} (hK : Keeps z0 s) :
    KeepsRes z0 (execInkLimitWrite value s) := by
  unfold execInkLimitWrite
  with_reducible
    repeat' first
      | assumption | apply KeepsRes.next | apply State.setInkLimit_keeps | apply State.settle_keeps | intro _ | split
      | dsimp -iota only | dsimp only

theorem execEnergyRead_keeps {z0 : State} {mb : Nat} {input : List Byte} {s : State} (hK : Keeps z0 s) :
    KeepsRes z0 (execEnergyRead mb input s) := by
  unfold execEnergyRead
  with_reducible
    repeat' first
      | assumption | apply KeepsRes.next | apply State.answer_keeps | apply State.vendor_keeps | intro _ | split
      | dsimp -iota only | dsimp only

theorem execPowerCapSet_keeps {z0 : State} {mb : Nat} {input : List Byte} {s : State} (hK : Keeps z0 s) :
    KeepsRes z0 (execPowerCapSet mb input s) := by
  unfold execPowerCapSet
  with_reducible
    repeat' first
      | assumption | apply KeepsRes.next | apply State.setRw_keeps | apply State.answer_keeps
      | apply State.vendor_keeps | intro _ | split | dsimp -iota only | dsimp only

theorem execSentPcap_keeps {z0 : State} {value : Nat} {s : State} (hK : Keeps z0 s) :
    KeepsRes z0 (execSentPcap value s) := by
  unfold execSentPcap
  with_reducible
    repeat' first
      | assumption | apply KeepsRes.next | apply State.setRw_keeps | intro _ | split | dsimp -iota only | dsimp only

theorem execTwinStatus_keeps {z0 : State} {mb : Nat} {input : List Byte} {s : State} (hK : Keeps z0 s) :
    KeepsRes z0 (execTwinStatus mb input s) := by
  unfold execTwinStatus
  with_reducible
    repeat' first
      | assumption | apply KeepsRes.next | apply State.answer_keeps | apply State.vendor_keeps | intro _ | split
      | dsimp -iota only | dsimp only

theorem execEventRoute_keeps {z0 : State} {mb : Nat} {input : List Byte} {s : State} (hK : Keeps z0 s) :
    KeepsRes z0 (execEventRoute mb input s) := by
  unfold execEventRoute
  with_reducible
    repeat' first
      | assumption | apply KeepsRes.next | apply State.answer_keeps | apply State.vendor_keeps | apply Keeps.ite
      | intro _ | split | dsimp -iota only | dsimp only | ((fail_if_success apply Keeps.same); refine Keeps.mk ?_)

theorem execMaintStatus_keeps {z0 : State} {mb : Nat} {input : List Byte} {s : State} (hK : Keeps z0 s) :
    KeepsRes z0 (execMaintStatus mb input s) := by
  unfold execMaintStatus
  with_reducible
    repeat' first
      | assumption | apply KeepsRes.next | apply State.answer_keeps | apply State.vendor_keeps | intro _ | split
      | dsimp -iota only | dsimp only

theorem State.pbMarkRead_keeps {z0 : State} {s : State} {seqs : List Nat} (hK : Keeps z0 s) :
    Keeps z0 (State.pbMarkRead s seqs) := by
  unfold State.pbMarkRead
  with_reducible
    repeat' first
      | assumption | apply Keeps.ite | intro _ | split | dsimp -iota only | dsimp only
      | ((fail_if_success apply Keeps.same); refine Keeps.mk ?_)

theorem execPbookRead_keeps {z0 : State} {mb : Nat} {input : List Byte} {s : State} (hK : Keeps z0 s) :
    KeepsRes z0 (execPbookRead mb input s) := by
  unfold execPbookRead
  with_reducible
    repeat' first
      | assumption | apply KeepsRes.next | apply State.answer_keeps | apply State.take_keeps
      | apply State.vendor_keeps | apply State.pbMarkRead_keeps | intro _ | split | dsimp -iota only | dsimp only

theorem State.pbAck_keeps {z0 : State} {s : State} {q : Nat} (hK : Keeps z0 s) :
    Keeps z0 (State.pbAck s q).2 := by
  unfold State.pbAck
  with_reducible
    repeat' first
      | assumption | apply State.pbCounts_keeps | apply State.raiseSev_keeps | apply Keeps.ite | intro _ | split
      | dsimp -iota only | dsimp only | ((fail_if_success apply Keeps.same); refine Keeps.mk ?_)

theorem State.pbAck_keepsE {z0 : State} {s : State} {q : Nat} {tE : State} {uE} (hE : State.pbAck s q = (uE, tE)) (hK : Keeps z0 s) :
    Keeps z0 tE := by
  have k := State.pbAck_keeps (z0 := z0) (s := s) (q := q)  hK
  rw [hE] at k
  exact k

theorem State.afterAck_keeps {z0 : State} {s : State} {q : Nat} (hK : Keeps z0 s) :
    Keeps z0 (State.afterAck s q) := by
  unfold State.afterAck
  with_reducible
    repeat' first
      | assumption | apply State.sceneChange_keeps | apply State.settle_keeps | apply Keeps.ite | intro _ | split
      | dsimp -iota only | dsimp only | ((fail_if_success apply Keeps.same); refine Keeps.mk ?_)

theorem execPbookAck_keeps {z0 : State} {mb : Nat} {input : List Byte} {s : State} (hK : Keeps z0 s) :
    KeepsRes z0 (execPbookAck mb input s) := by
  unfold execPbookAck
  with_reducible
    repeat' first
      | assumption | apply KeepsRes.next | apply State.answer_keeps | apply State.vendor_keeps
      | apply State.pbAck_keeps | refine State.pbAck_keepsE (by assumption) ?_ | apply State.afterAck_keeps
      | apply Keeps.ite | intro _ | split | dsimp -iota only | dsimp only

theorem execPbookAckHi_keeps {z0 : State} {value : Nat} {s : State} (hK : Keeps z0 s) :
    KeepsRes z0 (execPbookAckHi value s) := by
  unfold execPbookAckHi
  with_reducible
    repeat' first
      | assumption | apply KeepsRes.next | apply State.setLive_keeps | apply State.pbAck_keeps
      | refine State.pbAck_keepsE (by assumption) ?_ | apply State.afterAck_keeps | apply Keeps.ite | intro _ | split
      | dsimp -iota only | dsimp only

theorem State.tallySnap_keeps {z0 : State} {s : State} {i : Nat} (hK : Keeps z0 s) :
    Keeps z0 (State.tallySnap s i) := by
  unfold State.tallySnap
  with_reducible
    repeat' first
      | assumption | apply State.setLive_keeps | apply State.take_keeps | refine Keeps.foldl (fun _ _ _ => ?_) ?_
      | refine Keeps.foldlFst (fun _ _ _ => ?_) ?_ | refine Keeps.foldlSnd (fun _ _ _ => ?_) ?_ | intro _ | split
      | dsimp -iota only | dsimp only

theorem execTallyRead_keeps {z0 : State} {mb : Nat} {input : List Byte} {s : State} (hK : Keeps z0 s) :
    KeepsRes z0 (execTallyRead mb input s) := by
  unfold execTallyRead
  with_reducible
    repeat' first
      | assumption | apply KeepsRes.next | apply State.answer_keeps | apply State.vendor_keeps
      | apply State.tallySnap_keeps | apply Keeps.ite | intro _ | split | dsimp -iota only | dsimp only

theorem execTallySnap_keeps {z0 : State} {index : Nat} {s : State} (hK : Keeps z0 s) :
    KeepsRes z0 (execTallySnap index s) := by
  unfold execTallySnap
  with_reducible
    repeat' first
      | assumption | apply KeepsRes.next | apply State.tallySnap_keeps | intro _ | split | dsimp -iota only
      | dsimp only

theorem execTallyClear_keeps {z0 : State} {index : Nat} {snap : Bool} {s : State} (hK : Keeps z0 s) :
    KeepsRes z0 (execTallyClear index snap s) := by
  unfold execTallyClear
  with_reducible
    repeat' first
      | assumption | apply KeepsRes.next | apply State.tallySnap_keeps | apply Keeps.ite | intro _ | split
      | dsimp -iota only | dsimp only | ((fail_if_success apply Keeps.same); refine Keeps.mk ?_)

theorem execPbookFire_keeps {z0 : State} {value : Nat} {s : State} (hK : Keeps z0 s) :
    KeepsRes z0 (execPbookFire value s) := by
  unfold execPbookFire
  with_reducible
    repeat' first
      | assumption | apply KeepsRes.next | apply State.addSat_keeps | apply State.pbWrite_keeps
      | refine State.pbWrite_keepsE (by assumption) ?_ | apply State.toCore_keeps
      | refine State.toCore_keepsE (by assumption) ?_ | apply State.toHosts_keeps | apply State.raiseOverflow_keeps
      | apply State.raiseDropped_keeps | apply Keeps.ite | intro _ | split | dsimp -iota only | dsimp only

theorem execRingTailRead_keeps {z0 : State} {slot : Nat} {s : State} (hK : Keeps z0 s) :
    KeepsRes z0 (execRingTailRead slot s) := by
  unfold execRingTailRead
  with_reducible
    repeat' first
      | assumption | apply KeepsRes.next | apply State.send_keeps | apply State.pbMarkRead_keeps | intro _ | split
      | dsimp -iota only | dsimp only

end Sys2Proof.Machine
end

