-- ==== Sys2Proof/Laws/KeepTickets.lean ====
section
/-! SUPPORT. What the operations of Machine/Tickets.lean keep. -/

set_option Elab.async false

namespace Sys2Proof.Machine

theorem State.setQueue_keeps {z0 : State} {s : State} {ld id : Nat} {q : Queue} (hK : Keeps z0 s) :
    Keeps z0 (State.setQueue s ld id q) := by
  unfold State.setQueue
  with_reducible
    repeat' first
      | assumption | intro _ | split | dsimp -iota only | dsimp only
      | ((fail_if_success apply Keeps.same); refine Keeps.mk ?_)

theorem State.queueRegs_keeps {z0 : State} {s : State} {ld : Nat} (hK : Keeps z0 s) :
    Keeps z0 (State.queueRegs s ld) := by
  unfold State.queueRegs
  with_reducible
    repeat' first
      | assumption | apply State.setFld_keeps | refine Keeps.foldl (fun _ _ _ => ?_) ?_
      | refine Keeps.foldlFst (fun _ _ _ => ?_) ?_ | refine Keeps.foldlSnd (fun _ _ _ => ?_) ?_ | intro _ | split
      | dsimp -iota only | dsimp only

theorem State.coalesce_keeps {z0 : State} {s : State} {ld vec : Nat} (hK : Keeps z0 s) :
    Keeps z0 (State.coalesce s ld vec) := by
  unfold State.coalesce
  with_reducible
    repeat' first
      | assumption | apply State.send_keeps | apply Keeps.ite | intro _ | split | dsimp -iota only | dsimp only
      | ((fail_if_success apply Keeps.same); refine Keeps.mk ?_)

theorem State.ringWrite_keeps {z0 : State} {s : State} {ld at_ value slot gen status w12 phase : Nat} (hK : Keeps z0 s) :
    Keeps z0 (State.ringWrite s ld at_ value slot gen status w12 phase) := by
  unfold State.ringWrite
  repeat' first
    | with_reducible assumption
    | with_reducible exact Keeps.refl _
    | (with_reducible refine Keeps.getD ?_ ?_)
    | (with_reducible refine Keeps.mapPair (by assumption) ?_)
    | (with_reducible refine Keeps.foldl (fun st x hst => ?_) ?_)
    | (with_reducible refine Keeps.foldlFst (fun st x hst => ?_) ?_)
    | (with_reducible refine Keeps.foldlSnd (fun st x hst => ?_) ?_)
    | (with_reducible refine Keeps.ite ?_ ?_)
    | intro _
    | split
    | dsimp -iota only
    | dsimp only
    | dsimp only [id]
    | exact memWf_nil _
    | (fail_if_success (with_reducible refine Keeps.same ?_)
       with_reducible refine Keeps.mk ?_ ?_ ?_ ?_ ?_ ?_ ?_ ?_ ?_ ?_ ?_ ?_ ?_ <;>
         first | with_reducible exact Nat.le_refl _ | with_reducible exact List.prefix_rfl | with_reducible exact fun hm => hm |
           with_reducible exact List.prefix_append _ _ | with_reducible exact Nat.le_succ _ | with_reducible exact memWriteN_wf | with_reducible exact memClear_wf |
           with_reducible exact memPaste_wf | with_reducible exact memWrite_wf | with_reducible exact memWriteLE_wf | with_reducible exact fun _ => rfl | exact fun _ => memWf_nil _ |
           with_reducible exact fun hm => memWriteN_wf (memWriteN_wf hm) | exact fun _ => rfl |
           exact fun hm => memFold_wf (fun m y hh => memWrite_wf hh) hm |
           exact fun _ => memFold_wf (fun m y hh => memWrite_wf hh) (memWf_nil _) | skip)

theorem State.postCompletion_keeps {z0 : State} {s : State} {ld id slot result status : Nat} (hK : Keeps z0 s) :
    Keeps z0 (State.postCompletion s ld id slot result status) := by
  unfold State.postCompletion
  with_reducible
    repeat' first
      | assumption | apply State.setSlot_keeps | apply State.setQueue_keeps | apply State.queueRegs_keeps
      | apply State.coalesce_keeps | apply State.ringWrite_keeps | apply Keeps.ite | intro _ | split
      | dsimp -iota only | dsimp only | ((fail_if_success apply Keeps.same); refine Keeps.mk ?_)

theorem State.postNote_keeps {z0 : State} {s : State} {ld id slot gen value status kind : Nat} (hK : Keeps z0 s) :
    Keeps z0 (State.postNote s ld id slot gen value status kind) := by
  unfold State.postNote
  with_reducible
    repeat' first
      | assumption | apply State.setQueue_keeps | apply State.coalesce_keeps | apply State.ringWrite_keeps
      | apply Keeps.ite | intro _ | split | dsimp -iota only | dsimp only
      | ((fail_if_success apply Keeps.same); refine Keeps.mk ?_)

theorem State.abortNote_keeps {z0 : State} {s : State} {ld id slot gen status : Nat} (hK : Keeps z0 s) :
    Keeps z0 (State.abortNote s ld id slot gen status) := by
  unfold State.abortNote
  with_reducible
    repeat' first
      | assumption | apply State.raise_keeps | apply State.setSlot_keeps | apply State.setQueue_keeps
      | apply State.postNote_keeps | apply Keeps.ite | intro _ | split | dsimp -iota only | dsimp only
      | ((fail_if_success apply Keeps.same); refine Keeps.mk ?_)

theorem State.staleTicket_keeps {z0 : State} {s : State} (hK : Keeps z0 s) :
    Keeps z0 (State.staleTicket s) := by
  unfold State.staleTicket
  with_reducible
    repeat' first
      | assumption | apply State.addSat_keeps | apply State.raise_keeps | intro _ | split | dsimp -iota only
      | dsimp only

theorem State.setCtx_keeps {z0 : State} {s : State} {k : Nat} {c : Ctx} (hK : Keeps z0 s) :
    Keeps z0 (State.setCtx s k c) := by
  unfold State.setCtx
  with_reducible
    repeat' first
      | assumption | intro _ | split | dsimp -iota only | dsimp only
      | ((fail_if_success apply Keeps.same); refine Keeps.mk ?_)

theorem State.scribeRegs_keeps {z0 : State} {s : State} {e : Nat} (hK : Keeps z0 s) :
    Keeps z0 (State.scribeRegs s e) := by
  unfold State.scribeRegs
  with_reducible
    repeat' first
      | assumption | apply State.setFld_keeps | refine Keeps.foldl (fun _ _ _ => ?_) ?_
      | refine Keeps.foldlFst (fun _ _ _ => ?_) ?_ | refine Keeps.foldlSnd (fun _ _ _ => ?_) ?_ | intro _ | split
      | dsimp -iota only | dsimp only

theorem State.ctxRegs_keeps {z0 : State} {s : State} {k : Nat} (hK : Keeps z0 s) :
    Keeps z0 (State.ctxRegs s k) := by
  unfold State.ctxRegs
  with_reducible
    repeat' first
      | assumption | apply State.setLive_keeps | apply State.scribeRegs_keeps | intro _ | split | dsimp -iota only
      | dsimp only

theorem State.putCtx_keeps {z0 : State} {s : State} {k : Nat} {c : Ctx} (hK : Keeps z0 s) :
    Keeps z0 (State.putCtx s k c) := by
  unfold State.putCtx
  with_reducible
    repeat' first
      | assumption | apply State.setCtx_keeps | apply State.ctxRegs_keeps | intro _ | split | dsimp -iota only
      | dsimp only

theorem State.deleteDone_keeps {z0 : State} {s : State} {ld id : Nat} (hK : Keeps z0 s) :
    Keeps z0 (State.deleteDone s ld id) := by
  unfold State.deleteDone
  with_reducible
    repeat' first
      | assumption | apply State.answer_keeps | apply State.queueRegs_keeps | apply Keeps.ite | intro _ | split
      | dsimp -iota only | dsimp only | ((fail_if_success apply Keeps.same); refine Keeps.mk ?_)

theorem State.clusterRegs_keeps {z0 : State} {s : State} {k : Nat} (hK : Keeps z0 s) :
    Keeps z0 (State.clusterRegs s k) := by
  unfold State.clusterRegs
  with_reducible
    repeat' first
      | assumption | apply State.setFld_keeps | intro _ | split | dsimp -iota only | dsimp only

theorem State.mapReplace_keeps {z0 : State} {s : State} {k old i : Nat} (hK : Keeps z0 s) :
    Keeps z0 (State.mapReplace s k old i) := by
  unfold State.mapReplace
  with_reducible
    repeat' first
      | assumption | apply State.setLive_keeps | intro _ | split | dsimp -iota only | dsimp only

theorem State.zeroInk_keeps {z0 : State} {s : State} {e : Nat} (hK : Keeps z0 s) :
    Keeps z0 (State.zeroInk s e) := by
  unfold State.zeroInk
  repeat' first
    | with_reducible assumption
    | with_reducible exact Keeps.refl _
    | (with_reducible refine Keeps.getD ?_ ?_)
    | (with_reducible refine Keeps.mapPair (by assumption) ?_)
    | (with_reducible refine Keeps.foldl (fun st x hst => ?_) ?_)
    | (with_reducible refine Keeps.foldlFst (fun st x hst => ?_) ?_)
    | (with_reducible refine Keeps.foldlSnd (fun st x hst => ?_) ?_)
    | (with_reducible refine Keeps.ite ?_ ?_)
    | intro _
    | split
    | dsimp -iota only
    | dsimp only
    | dsimp only [id]
    | exact memWf_nil _
    | (fail_if_success (with_reducible refine Keeps.same ?_)
       with_reducible refine Keeps.mk ?_ ?_ ?_ ?_ ?_ ?_ ?_ ?_ ?_ ?_ ?_ ?_ ?_ <;>
         first | with_reducible exact Nat.le_refl _ | with_reducible exact List.prefix_rfl | with_reducible exact fun hm => hm |
           with_reducible exact List.prefix_append _ _ | with_reducible exact Nat.le_succ _ | with_reducible exact memWriteN_wf | with_reducible exact memClear_wf |
           with_reducible exact memPaste_wf | with_reducible exact memWrite_wf | with_reducible exact memWriteLE_wf | with_reducible exact fun _ => rfl | exact fun _ => memWf_nil _ |
           with_reducible exact fun hm => memWriteN_wf (memWriteN_wf hm) | exact fun _ => rfl |
           exact fun hm => memFold_wf (fun m y hh => memWrite_wf hh) hm |
           exact fun _ => memFold_wf (fun m y hh => memWrite_wf hh) (memWf_nil _) | skip)

theorem State.swapTested_keeps {z0 : State} {s : State} {e : Nat} {pass : Bool} (hK : Keeps z0 s) :
    Keeps z0 (State.swapTested s e pass) := by
  unfold State.swapTested
  with_reducible
    repeat' first
      | assumption | apply State.setFld_keeps | apply State.setRw_keeps | apply State.raiseD_keeps
      | apply State.endJob_keeps | apply State.clusterRegs_keeps | apply Keeps.ite | intro _ | split
      | dsimp -iota only | dsimp only

theorem State.swapCancel_keeps {z0 : State} {s : State} {status : Nat} (hK : Keeps z0 s) :
    Keeps z0 (State.swapCancel s status) := by
  unfold State.swapCancel
  with_reducible
    repeat' first
      | assumption | apply State.setRw_keeps | apply State.endJob_keeps | intro _ | split | dsimp -iota only
      | dsimp only | ((fail_if_success apply Keeps.same); refine Keeps.mk ?_)

theorem State.swapDone_keeps {z0 : State} {s : State} (hK : Keeps z0 s) :
    Keeps z0 (State.swapDone s) := by
  unfold State.swapDone
  with_reducible
    repeat' first
      | assumption | apply State.setFld_keeps | apply State.raiseD_keeps | apply State.mapReplace_keeps
      | apply State.zeroInk_keeps | apply State.swapTested_keeps | apply State.swapCancel_keeps | apply Keeps.ite
      | intro _ | split | dsimp -iota only | dsimp only | ((fail_if_success apply Keeps.same); refine Keeps.mk ?_)

theorem State.finishCtx_keeps {z0 : State} {s : State} {k : Nat} {status result : Nat} (hK : Keeps z0 s) :
    Keeps z0 (State.finishCtx s k status result) := by
  unfold State.finishCtx
  with_reducible
    repeat' first
      | assumption | apply State.closeRun_keeps | apply State.setSlot_keeps | apply State.setQueue_keeps
      | apply State.queueRegs_keeps | apply State.postCompletion_keeps | apply State.abortNote_keeps
      | apply State.ctxRegs_keeps | apply State.deleteDone_keeps | apply State.swapDone_keeps | apply Keeps.ite
      | intro _ | split | dsimp -iota only | dsimp only | ((fail_if_success apply Keeps.same); refine Keeps.mk ?_)

theorem State.tryFinish_keeps {z0 : State} {s : State} {k : Nat} (hK : Keeps z0 s) :
    Keeps z0 (State.tryFinish s k) := by
  unfold State.tryFinish
  with_reducible
    repeat' first
      | assumption | apply State.finishCtx_keeps | apply Keeps.ite | intro _ | split | dsimp -iota only | dsimp only

theorem State.endCtx_keeps {z0 : State} {s : State} {k status : Nat} {abort silent : Bool} (hK : Keeps z0 s) :
    Keeps z0 (State.endCtx s k status abort silent) := by
  unfold State.endCtx
  with_reducible
    repeat' first
      | assumption | apply Pass.store_keeps | apply State.closeRun_keeps | apply State.abortNote_keeps
      | apply State.putCtx_keeps | apply State.tryFinish_keeps | apply Keeps.ite | intro _ | split | dsimp -iota only
      | dsimp only | ((fail_if_success apply Keeps.same); refine Keeps.mk ?_)

theorem State.faultRecord_keeps {z0 : State} {s : State} {k cause status pc : Nat} (hK : Keeps z0 s) :
    Keeps z0 (State.faultRecord s k cause status pc) := by
  unfold State.faultRecord
  with_reducible
    repeat' first
      | assumption | apply State.setLive_keeps | apply State.raiseD_keeps | apply Keeps.ite | intro _ | split
      | dsimp -iota only | dsimp only | ((fail_if_success apply Keeps.same); refine Keeps.mk ?_)

theorem State.dropQueues_keeps {z0 : State} {s : State} {ldSel : Nat → Bool} (hK : Keeps z0 s) :
    Keeps z0 (State.dropQueues s ldSel) := by
  unfold State.dropQueues
  with_reducible
    repeat' first
      | assumption | apply State.queueRegs_keeps | apply State.endCtx_keeps | refine Keeps.foldl (fun _ _ _ => ?_) ?_
      | refine Keeps.foldlFst (fun _ _ _ => ?_) ?_ | refine Keeps.foldlSnd (fun _ _ _ => ?_) ?_ | intro _ | split
      | dsimp -iota only | dsimp only | ((fail_if_success apply Keeps.same); refine Keeps.mk ?_)

theorem execQueueCreate_keeps {z0 : State} {mb : Nat} {input : List Byte} {s : State} (hK : Keeps z0 s) :
    KeepsRes z0 (execQueueCreate mb input s) := by
  unfold execQueueCreate
  with_reducible
    repeat' first
      | assumption | apply KeepsRes.next | apply State.answer_keeps | apply State.vendor_keeps
      | apply State.setQueue_keeps | apply State.queueRegs_keeps | apply Keeps.ite | intro _ | split
      | dsimp -iota only | dsimp only

theorem execQueueDelete_keeps {z0 : State} {mb : Nat} {input : List Byte} {s : State} (hK : Keeps z0 s) :
    KeepsRes z0 (execQueueDelete mb input s) := by
  unfold execQueueDelete
  with_reducible
    repeat' first
      | assumption | apply KeepsRes.next | apply State.answer_keeps | apply State.vendor_keeps
      | apply State.setQueue_keeps | apply State.deleteDone_keeps | apply State.endCtx_keeps
      | refine Keeps.foldl (fun _ _ _ => ?_) ?_ | refine Keeps.foldlFst (fun _ _ _ => ?_) ?_
      | refine Keeps.foldlSnd (fun _ _ _ => ?_) ?_ | apply Keeps.ite | intro _ | split | dsimp -iota only | dsimp only
      | ((fail_if_success apply Keeps.same); refine Keeps.mk ?_)

theorem State.bellBad_keeps {z0 : State} {s : State} {ld : Nat} (hK : Keeps z0 s) :
    Keeps z0 (State.bellBad s ld) := by
  unfold State.bellBad
  with_reducible
    repeat' first
      | assumption | apply State.addSat_keeps | apply State.raiseD_keeps | intro _ | split | dsimp -iota only
      | dsimp only

theorem State.bellTail_keeps {z0 : State} {s : State} {ld id : Nat} {q : Queue} {idx : Nat} (hK : Keeps z0 s) :
    Keeps z0 (State.bellTail s ld id q idx) := by
  unfold State.bellTail
  with_reducible
    repeat' first
      | assumption | apply State.setQueue_keeps | apply State.bellBad_keeps | apply Keeps.ite | intro _ | split
      | dsimp -iota only | dsimp only | ((fail_if_success apply Keeps.same); refine Keeps.mk ?_)

theorem State.bellCpl_keeps {z0 : State} {s : State} {ld id : Nat} {q : Queue} {idx : Nat} (hK : Keeps z0 s) :
    Keeps z0 (State.bellCpl s ld id q idx) := by
  unfold State.bellCpl
  with_reducible
    repeat' first
      | assumption | apply State.setQueue_keeps | apply State.bellBad_keeps | apply Keeps.ite | intro _ | split
      | dsimp -iota only | dsimp only | ((fail_if_success apply Keeps.same); refine Keeps.mk ?_)

theorem State.bellNote_keeps {z0 : State} {s : State} {ld id : Nat} {q : Queue} {idx : Nat} (hK : Keeps z0 s) :
    Keeps z0 (State.bellNote s ld id q idx) := by
  unfold State.bellNote
  with_reducible
    repeat' first
      | assumption | apply State.raise_keeps | apply State.setSlot_keeps | apply State.setQueue_keeps
      | apply State.postNote_keeps | apply State.bellBad_keeps | refine Keeps.foldl (fun _ _ _ => ?_) ?_
      | refine Keeps.foldlFst (fun _ _ _ => ?_) ?_ | refine Keeps.foldlSnd (fun _ _ _ => ?_) ?_ | apply Keeps.ite
      | intro _ | split | dsimp -iota only | dsimp only | ((fail_if_success apply Keeps.same); refine Keeps.mk ?_)

theorem State.bellAbort_keeps {z0 : State} {s : State} {ld id : Nat} {q : Queue} {slot gen : Nat} (hK : Keeps z0 s) :
    Keeps z0 (State.bellAbort s ld id q slot gen) := by
  unfold State.bellAbort
  with_reducible
    repeat' first
      | assumption | apply State.setSlot_keeps | apply State.setQueue_keeps | apply State.postCompletion_keeps
      | apply State.abortNote_keeps | apply State.staleTicket_keeps | apply State.endCtx_keeps | apply Keeps.ite
      | intro _ | split | dsimp -iota only | dsimp only | ((fail_if_success apply Keeps.same); refine Keeps.mk ?_)

theorem State.bell_keeps {z0 : State} {s : State} {fetchAll : State → Nat → Nat → State} {b : Bell} (kfetchAll : ∀ y0 y1 y2, Keeps z0 y0 → Keeps z0 (fetchAll y0 y1 y2)) (hK : Keeps z0 s) :
    Keeps z0 (State.bell s fetchAll b) := by
  unfold State.bell
  with_reducible
    repeat' first
      | assumption | apply State.bellBad_keeps | apply State.bellTail_keeps | apply State.bellCpl_keeps
      | apply State.bellNote_keeps | apply State.bellAbort_keeps | refine kfetchAll _ _ _ ?_ | apply Keeps.ite
      | intro _ | split | dsimp -iota only | dsimp only

theorem State.fetchTicket_keeps {z0 : State} {s : State} {ld id : Nat} (hK : Keeps z0 s) :
    Keeps z0 (State.fetchTicket s ld id) := by
  unfold State.fetchTicket
  with_reducible
    repeat' first
      | assumption | apply State.setSlot_keeps | apply State.setQueue_keeps | apply State.queueRegs_keeps
      | apply State.postCompletion_keeps | apply State.staleTicket_keeps | apply Keeps.ite | intro _ | split
      | dsimp -iota only | dsimp only | ((fail_if_success apply Keeps.same); refine Keeps.mk ?_)

theorem State.fetchAll_keeps {z0 : State} {s : State} {ld id : Nat} (hK : Keeps z0 s) :
    Keeps z0 (State.fetchAll s ld id) := by
  unfold State.fetchAll
  with_reducible
    repeat' first
      | assumption | apply State.fetchTicket_keeps | refine Keeps.foldl (fun _ _ _ => ?_) ?_
      | refine Keeps.foldlFst (fun _ _ _ => ?_) ?_ | refine Keeps.foldlSnd (fun _ _ _ => ?_) ?_ | intro _ | split
      | dsimp -iota only | dsimp only

theorem State.runBells_keeps {z0 : State} {s : State} (hK : Keeps z0 s) :
    Keeps z0 (State.runBells s) := by
  unfold State.runBells
  with_reducible
    repeat' first
      | assumption | apply State.bell_keeps | apply State.fetchAll_keeps | refine Keeps.foldl (fun _ _ _ => ?_) ?_
      | refine Keeps.foldlFst (fun _ _ _ => ?_) ?_ | refine Keeps.foldlSnd (fun _ _ _ => ?_) ?_ | intro _ | split
      | dsimp -iota only | dsimp only | ((fail_if_success apply Keeps.same); refine Keeps.mk ?_)

theorem State.ring_keeps {z0 : State} {s : State} {ld off value : Nat} (hK : Keeps z0 s) :
    Keeps z0 (State.ring s ld off value) := by
  unfold State.ring
  with_reducible
    repeat' first
      | assumption | apply State.runBells_keeps | intro _ | split | dsimp -iota only | dsimp only
      | ((fail_if_success apply Keeps.same); refine Keeps.mk ?_)

theorem execSubmissionTail_keeps {z0 : State} {ld value : Nat} {s : State} (hK : Keeps z0 s) :
    KeepsRes z0 (execSubmissionTail ld value s) := by
  unfold execSubmissionTail
  with_reducible
    repeat' first
      | assumption | apply KeepsRes.next | apply State.ring_keeps | intro _ | split | dsimp -iota only | dsimp only

theorem execCompletionHead_keeps {z0 : State} {ld value : Nat} {s : State} (hK : Keeps z0 s) :
    KeepsRes z0 (execCompletionHead ld value s) := by
  unfold execCompletionHead
  with_reducible
    repeat' first
      | assumption | apply KeepsRes.next | apply State.ring_keeps | intro _ | split | dsimp -iota only | dsimp only

theorem execNoteHead_keeps {z0 : State} {ld value : Nat} {s : State} (hK : Keeps z0 s) :
    KeepsRes z0 (execNoteHead ld value s) := by
  unfold execNoteHead
  with_reducible
    repeat' first
      | assumption | apply KeepsRes.next | apply State.ring_keeps | intro _ | split | dsimp -iota only | dsimp only

theorem execAbort_keeps {z0 : State} {ld value : Nat} {s : State} (hK : Keeps z0 s) :
    KeepsRes z0 (execAbort ld value s) := by
  unfold execAbort
  with_reducible
    repeat' first
      | assumption | apply KeepsRes.next | apply State.settle_keeps | apply State.ring_keeps | intro _ | split
      | dsimp -iota only | dsimp only

theorem execTicketFetch_keeps {z0 : State} {s0 : State} (hK : Keeps z0 s0) :
    KeepsRes z0 (execTicketFetch s0) := by
  unfold execTicketFetch
  with_reducible
    repeat' first
      | assumption | apply KeepsRes.next | apply State.fetchTicket_keeps | apply State.runBells_keeps
      | refine Keeps.foldl (fun _ _ _ => ?_) ?_ | refine Keeps.foldlFst (fun _ _ _ => ?_) ?_
      | refine Keeps.foldlSnd (fun _ _ _ => ?_) ?_ | intro _ | split | dsimp -iota only | dsimp only
      | ((fail_if_success apply Keeps.same); refine Keeps.mk ?_)

theorem execCoalesceTimeout_keeps {z0 : State} {s : State} (hK : Keeps z0 s) :
    KeepsRes z0 (execCoalesceTimeout s) := by
  unfold execCoalesceTimeout
  with_reducible
    repeat' first
      | assumption | apply KeepsRes.next | apply State.send_keeps | refine Keeps.foldl (fun _ _ _ => ?_) ?_
      | refine Keeps.foldlFst (fun _ _ _ => ?_) ?_ | refine Keeps.foldlSnd (fun _ _ _ => ?_) ?_ | apply Keeps.ite
      | intro _ | split | dsimp -iota only | dsimp only | ((fail_if_success apply Keeps.same); refine Keeps.mk ?_)

theorem State.fillInk_keeps {z0 s : State} {e base : Nat} {x : Script} {share : Nat} (h : Keeps z0 s) :
    Keeps z0 (State.fillInk s e base x share) := by
  unfold State.fillInk
  refine Keeps.mk h (Nat.le_refl _) List.prefix_rfl (fun k => k) (fun k => k) (fun k => k) (fun k => k) (fun k => k) (fun k => k) (fun k => k) ?_
    (fun k => k) (fun k => k)
  exact fun k => memFold_wf (fun m y hm => memWriteN_wf hm) (memClear_wf k)

theorem State.startCtx_keeps {z0 : State} {s : State} {e ld id slot : Nat} {q : Queue} {x : Script} (hK : Keeps z0 s) :
    Keeps z0 (State.startCtx s e ld id slot q x) := by
  unfold State.startCtx
  with_reducible
    repeat' first
      | assumption | apply State.startRun_keeps | apply State.setSlot_keeps | apply State.setQueue_keeps
      | apply State.queueRegs_keeps | apply State.abortNote_keeps | apply State.putCtx_keeps
      | apply State.endCtx_keeps | apply State.fillInk_keeps | apply Keeps.ite | intro _ | split | dsimp -iota only
      | dsimp only | ((fail_if_success apply Keeps.same); refine Keeps.mk ?_)

theorem execContextStart_keeps {z0 : State} {s : State} (hK : Keeps z0 s) :
    KeepsRes z0 (execContextStart s) := by
  unfold execContextStart
  with_reducible
    repeat' first
      | assumption | apply KeepsRes.next | apply State.settle_keeps | apply State.startCtx_keeps | intro _ | split
      | dsimp -iota only | dsimp only

theorem execScribeFailed_keeps {z0 : State} {e : Nat} {s : State} (hK : Keeps z0 s) :
    KeepsRes z0 (execScribeFailed e s) := by
  unfold execScribeFailed
  with_reducible
    repeat' first
      | assumption | apply KeepsRes.next | apply State.setFld_keeps | apply State.raiseD_keeps
      | apply State.settle_keeps | apply State.clusterRegs_keeps | apply State.mapReplace_keeps
      | apply State.zeroInk_keeps | apply State.swapCancel_keeps | apply State.endCtx_keeps
      | apply State.faultRecord_keeps | refine Keeps.foldl (fun _ _ _ => ?_) ?_
      | refine Keeps.foldlFst (fun _ _ _ => ?_) ?_ | refine Keeps.foldlSnd (fun _ _ _ => ?_) ?_ | apply Keeps.ite
      | intro _ | split | dsimp -iota only | dsimp only

theorem State.reservoirRegs_keeps {z0 : State} {s : State} {k : Nat} (hK : Keeps z0 s) :
    Keeps z0 (State.reservoirRegs s k) := by
  unfold State.reservoirRegs
  with_reducible
    repeat' first
      | assumption | apply State.setFld_keeps | refine Keeps.foldl (fun _ _ _ => ?_) ?_
      | refine Keeps.foldlFst (fun _ _ _ => ?_) ?_ | refine Keeps.foldlSnd (fun _ _ _ => ?_) ?_ | intro _ | split
      | dsimp -iota only | dsimp only

theorem layImage_wf {m : List Host.Cell} {k base size : Nat} {img : List Byte} {raw placed : List Section}
    (h : memWf 0 m = true) : memWf 0 (layImage m k base size img raw placed) = true := by
  refine memFold_wf ?_ (memClear_wf h)
  intro n x hn
  dsimp only
  split
  · exact memWriteN_wf hn
  · split
    · exact memWriteN_wf hn
    · exact hn

theorem State.enterScript_keeps {z0 s : State} {ld id : Nat} {img : List Byte} {bases : List (Nat × Nat)}
    (h : Keeps z0 s) : Keeps z0 (State.enterScript s ld id img bases) := by
  refine Keeps.mk h (Nat.le_refl _) List.prefix_rfl (fun k => k) (fun k => k) (fun k => k) (fun k => k) (fun k => k)
    (fun k => k) (fun k => k) (fun k => k) ?_ (fun k => k)
  exact fun k => memFold_wf (fun m y hm => layImage_wf hm) k

theorem State.loadScript_keeps {z0 : State} {s : State} {mb ld : Nat} {input : List Byte} (hK : Keeps z0 s) :
    Keeps z0 (State.loadScript s mb ld input) := by
  unfold State.loadScript
  with_reducible
    repeat' first
      | assumption | apply State.raiseD_keeps | apply State.answer_keeps | apply State.reservoirRegs_keeps
      | apply State.enterScript_keeps | refine Keeps.getD ?_ ?_ | refine Keeps.foldl (fun _ _ _ => ?_) ?_
      | refine Keeps.foldlFst (fun _ _ _ => ?_) ?_ | refine Keeps.foldlSnd (fun _ _ _ => ?_) ?_ | apply Keeps.ite
      | intro _ | split | dsimp -iota only | dsimp only

theorem execScriptLoad_keeps {z0 : State} {mb : Nat} {input : List Byte} {s : State} (hK : Keeps z0 s) :
    KeepsRes z0 (execScriptLoad mb input s) := by
  unfold execScriptLoad
  with_reducible
    repeat' first
      | assumption | apply KeepsRes.next | apply State.answer_keeps | apply State.vendor_keeps
      | apply State.loadScript_keeps | intro _ | split | dsimp -iota only | dsimp only

theorem State.unloadScript_keeps {z0 : State} {s : State} {ld id : Nat} (hK : Keeps z0 s) :
    Keeps z0 (State.unloadScript s ld id) := by
  unfold State.unloadScript
  with_reducible
    repeat' first
      | assumption | apply State.reservoirRegs_keeps | refine Keeps.foldl (fun _ _ _ => ?_) ?_
      | refine Keeps.foldlFst (fun _ _ _ => ?_) ?_ | refine Keeps.foldlSnd (fun _ _ _ => ?_) ?_ | intro _ | split
      | dsimp -iota only | dsimp only | ((fail_if_success apply Keeps.same); refine Keeps.mk ?_)

theorem execScriptUnload_keeps {z0 : State} {mb : Nat} {input : List Byte} {s : State} (hK : Keeps z0 s) :
    KeepsRes z0 (execScriptUnload mb input s) := by
  unfold execScriptUnload
  with_reducible
    repeat' first
      | assumption | apply KeepsRes.next | apply State.raiseD_keeps | apply State.answer_keeps
      | apply State.vendor_keeps | apply State.unloadScript_keeps | apply Keeps.ite | intro _ | split
      | dsimp -iota only | dsimp only

end Sys2Proof.Machine
end

