-- ==== Sys2Proof/Laws/KeepReads.lean ====
section
/-! SUPPORT. What the operations of Machine/Reads.lean keep. -/

set_option Elab.async false

namespace Sys2Proof.Machine

theorem State.dropRead_keeps {z0 : State} {s : State} {r : ReadJob} (hK : Keeps z0 s) :
    Keeps z0 (State.dropRead s r) := by
  unfold State.dropRead
  with_reducible
    repeat' first
      | assumption | intro _ | split | dsimp -iota only | dsimp only
      | ((fail_if_success apply Keeps.same); refine Keeps.mk ?_)

theorem State.stageLost_keeps {z0 : State} {s : State} {f : Nat} (hK : Keeps z0 s) :
    Keeps z0 (State.stageLost s f) := by
  unfold State.stageLost
  with_reducible
    repeat' first
      | assumption | apply State.addSat_keeps | apply State.raiseD_keeps | apply State.setFolio_keeps
      | apply State.markLost_keeps | apply State.closeEntry_keeps | apply State.cueResult_keeps | intro _ | split
      | dsimp -iota only | dsimp only | ((fail_if_success apply Keeps.same); refine Keeps.mk ?_)

theorem State.stagePhase_keeps {z0 : State} {s : State} {f phase : Nat} (hK : Keeps z0 s) :
    Keeps z0 (State.stagePhase s f phase) := by
  unfold State.stagePhase
  with_reducible
    repeat' first
      | assumption | apply State.setEntry_keeps | intro _ | split | dsimp -iota only | dsimp only
      | ((fail_if_success apply Keeps.same); refine Keeps.mk ?_)

theorem State.readGood_keeps {z0 : State} {s : State} {r : ReadJob} {rebuilt : Bool} (hK : Keeps z0 s) :
    Keeps z0 (State.readGood s r rebuilt) := by
  unfold State.readGood
  with_reducible
    repeat' first
      | assumption | apply State.addSat_keeps | apply State.raiseD_keeps | apply State.fillFolio_keeps
      | apply Pass.store_keeps | apply State.finishReplace_keeps | apply State.stagePhase_keeps | apply Keeps.ite
      | intro _ | split | dsimp -iota only | dsimp only | ((fail_if_success apply Keeps.same); refine Keeps.mk ?_)

theorem State.readLost_keeps {z0 : State} {s : State} {r : ReadJob} (hK : Keeps z0 s) :
    Keeps z0 (State.readLost s r) := by
  unfold State.readLost
  with_reducible
    repeat' first
      | assumption | apply State.fetchFolio_keeps | apply State.markLost_keeps | apply State.loseInk_keeps
      | apply State.stageLost_keeps | apply State.stagePhase_keeps | apply Keeps.ite | intro _ | split
      | dsimp -iota only | dsimp only | ((fail_if_success apply Keeps.same); refine Keeps.mk ?_)

theorem State.readEvent_keeps {z0 : State} {s : State} {f : Nat} {e : ReadEnd} (hK : Keeps z0 s) :
    Keeps z0 (State.readEvent s f e) := by
  unfold State.readEvent
  with_reducible
    repeat' first
      | assumption | apply State.raiseD_keeps | intro _ | split | dsimp -iota only | dsimp only

theorem State.reconstruct_keeps {z0 : State} {s : State} {r : ReadJob} {recon : ReadEnd} (hK : Keeps z0 s) :
    Keeps z0 (State.reconstruct s r recon) := by
  unfold State.reconstruct
  with_reducible
    repeat' first
      | assumption | apply State.readGood_keeps | apply State.readLost_keeps | apply State.readEvent_keeps
      | apply Keeps.ite | intro _ | split | dsimp -iota only | dsimp only

theorem State.suspend_keeps {z0 : State} {s : State} {r : ReadJob} (hK : Keeps z0 s) :
    Keeps z0 (State.suspend s r) := by
  unfold State.suspend
  with_reducible
    repeat' first
      | assumption | apply State.raiseD_keeps | apply Keeps.ite | intro _ | split | dsimp -iota only | dsimp only
      | ((fail_if_success apply Keeps.same); refine Keeps.mk ?_)

theorem execLeafReadDone_keeps {z0 : State} {folio cls : Nat} {out recon : ReadEnd} {fixed : Nat} {suspended : Bool} {s : State} (hK : Keeps z0 s) :
    KeepsRes z0 (execLeafReadDone folio cls out recon fixed suspended s) := by
  unfold execLeafReadDone
  with_reducible
    repeat' first
      | assumption | apply KeepsRes.next | apply State.addSat_keeps | apply State.settle_keeps
      | apply State.flashRegs_keeps | apply State.slowEvent_keeps | apply State.dropRead_keeps
      | apply State.readGood_keeps | apply State.readEvent_keeps | apply State.reconstruct_keeps
      | apply State.suspend_keeps | apply Keeps.ite | intro _ | split | dsimp -iota only | dsimp only

theorem execSlowReadAbandon_keeps {z0 : State} {folio cls : Nat} {recon : ReadEnd} {s : State} (hK : Keeps z0 s) :
    KeepsRes z0 (execSlowReadAbandon folio cls recon s) := by
  unfold execSlowReadAbandon
  with_reducible
    repeat' first
      | assumption | apply KeepsRes.next | apply State.settle_keeps | apply State.flashRegs_keeps
      | apply State.slowEvent_keeps | apply State.dropRead_keeps | apply State.reconstruct_keeps | apply Keeps.ite
      | intro _ | split | dsimp -iota only | dsimp only

end Sys2Proof.Machine
end

