-- ==== Sys2Proof/Laws/KeepSlots.lean ====
section
/-! SUPPORT. What the operations of Machine/Slots.lean keep. -/

set_option Elab.async false

namespace Sys2Proof.Machine

theorem State.cartRefuse_keeps {z0 : State} {s : State} {slot : Nat} (hK : Keeps z0 s) :
    Keeps z0 (State.cartRefuse s slot) := by
  unfold State.cartRefuse
  with_reducible
    repeat' first
      | assumption | apply State.raiseD_keeps | apply State.setSlot_keeps | intro _ | split | dsimp -iota only
      | dsimp only

theorem State.fixPopulation_keeps {z0 : State} {s : State} {d : Nat} (hK : Keeps z0 s) :
    Keeps z0 (State.fixPopulation s d) := by
  unfold State.fixPopulation
  with_reducible
    repeat' first
      | assumption | apply State.setFld_keeps | intro _ | split | dsimp -iota only | dsimp only
      | ((fail_if_success apply Keeps.same); refine Keeps.mk ?_)

theorem State.insertPower_keeps {z0 : State} {s : State} {slot : Nat} (hK : Keeps z0 s) :
    Keeps z0 (State.insertPower s slot) := by
  unfold State.insertPower
  with_reducible
    repeat' first
      | assumption | apply State.slotPwr_keeps | intro _ | split | dsimp -iota only | dsimp only

theorem State.admitExamine_keeps {z0 : State} {s : State} {slot : Nat} (hK : Keeps z0 s) :
    Keeps z0 (State.admitExamine s slot) := by
  unfold State.admitExamine
  with_reducible
    repeat' first
      | assumption | apply State.endSlotJobs_keeps | apply State.cartRefuse_keeps | apply State.fixPopulation_keeps
      | apply State.insertPower_keeps | apply Keeps.ite | intro _ | split | dsimp -iota only | dsimp only

theorem execCartPresent_keeps {z0 : State} {slot dies cls serial mask : Nat} {recordGood : Bool} {s : State} (hK : Keeps z0 s) :
    KeepsRes z0 (execCartPresent slot dies cls serial mask recordGood s) := by
  unfold execCartPresent
  with_reducible
    repeat' first
      | assumption | apply KeepsRes.next | apply State.setFlag_keeps | apply State.raiseD_keeps
      | apply Pass.step_keeps | apply State.ownJob_keeps | apply State.markStarted_keeps | apply State.setSlot_keeps
      | apply State.setCart_keeps | apply State.admitExamine_keeps | apply Keeps.ite | intro _ | split
      | dsimp -iota only | dsimp only | ((fail_if_success apply Keeps.same); refine Keeps.mk ?_)

theorem State.slotControl_keeps {z0 : State} {s : State} {mb action : Nat} {input : List Byte} {body : State → Nat → State} (kbody : ∀ y0 y1, Keeps z0 y0 → Keeps z0 (body y0 y1)) (hK : Keeps z0 s) :
    Keeps z0 (State.slotControl s mb action input body) := by
  unfold State.slotControl
  with_reducible
    repeat' first
      | assumption | apply State.answer_keeps | apply State.vendor_keeps | refine kbody _ _ ?_ | apply Keeps.ite
      | intro _ | split | dsimp -iota only | dsimp only

theorem execSlotPowerOn_keeps {z0 : State} {mb : Nat} {input : List Byte} {s : State} (hK : Keeps z0 s) :
    KeepsRes z0 (execSlotPowerOn mb input s) := by
  unfold execSlotPowerOn
  with_reducible
    repeat' first
      | assumption | apply KeepsRes.next | apply State.answer_keeps | apply State.setCart_keeps
      | apply State.insertPower_keeps | apply State.slotControl_keeps | apply Keeps.ite | intro _ | split
      | dsimp -iota only | dsimp only | ((fail_if_success apply Keeps.same); refine Keeps.mk ?_)

theorem execLedLocate_keeps {z0 : State} {mb : Nat} {input : List Byte} {s : State} (hK : Keeps z0 s) :
    KeepsRes z0 (execLedLocate mb input s) := by
  unfold execLedLocate
  with_reducible
    repeat' first
      | assumption | apply KeepsRes.next | apply State.answer_keeps | apply State.slotLed_keeps
      | apply State.setCart_keeps | apply State.slotControl_keeps | intro _ | split | dsimp -iota only | dsimp only
      | ((fail_if_success apply Keeps.same); refine Keeps.mk ?_)

theorem execLocateExpiry_keeps {z0 : State} {slot : Nat} {s : State} (hK : Keeps z0 s) :
    KeepsRes z0 (execLocateExpiry slot s) := by
  unfold execLocateExpiry
  with_reducible
    repeat' first
      | assumption | apply KeepsRes.next | apply State.slotLed_keeps | apply Keeps.ite | intro _ | split
      | dsimp -iota only | dsimp only

theorem State.markDies_keeps {z0 : State} {s : State} {slot answered : Nat} (hK : Keeps z0 s) :
    Keeps z0 (State.markDies s slot answered) := by
  unfold State.markDies
  with_reducible
    repeat' first
      | assumption | apply State.setLive_keeps | apply State.setFld_keeps | refine Keeps.foldl (fun _ _ _ => ?_) ?_
      | refine Keeps.foldlFst (fun _ _ _ => ?_) ?_ | refine Keeps.foldlSnd (fun _ _ _ => ?_) ?_ | apply Keeps.ite
      | intro _ | split | dsimp -iota only | dsimp only

theorem State.initChannels_keeps {z0 : State} {s : State} {slot answered fail : Nat} (hK : Keeps z0 s) :
    Keeps z0 (State.initChannels s slot answered fail) := by
  unfold State.initChannels
  with_reducible
    repeat' first
      | assumption | apply State.setLive_keeps | apply State.raise_keeps | refine Keeps.foldl (fun _ _ _ => ?_) ?_
      | refine Keeps.foldlFst (fun _ _ _ => ?_) ?_ | refine Keeps.foldlSnd (fun _ _ _ => ?_) ?_ | apply Keeps.ite
      | intro _ | split | dsimp -iota only | dsimp only

theorem execSlotPgoodAsserted_keeps {z0 : State} {slot answered fail : Nat} {s : State} (hK : Keeps z0 s) :
    KeepsRes z0 (execSlotPgoodAsserted slot answered fail s) := by
  unfold execSlotPgoodAsserted
  with_reducible
    repeat' first
      | assumption | apply KeepsRes.next | apply State.setFlag_keeps | apply State.settle_keeps
      | apply State.setCart_keeps | apply State.cartFail_keeps | apply State.markDies_keeps
      | apply State.initChannels_keeps | apply Keeps.ite | intro _ | split | dsimp -iota only | dsimp only
      | ((fail_if_success apply Keeps.same); refine Keeps.mk ?_)

theorem State.formSlot_keeps {z0 : State} {s : State} {slot : Nat} (hK : Keeps z0 s) :
    Keeps z0 (State.formSlot s slot) := by
  unfold State.formSlot
  with_reducible
    repeat' first
      | assumption | apply State.setDie_keeps | apply State.setPermits_keeps | apply State.eraseNow_keeps
      | apply State.setGroup_keeps | refine Keeps.foldl (fun _ _ _ => ?_) ?_
      | refine Keeps.foldlFst (fun _ _ _ => ?_) ?_ | refine Keeps.foldlSnd (fun _ _ _ => ?_) ?_ | apply Keeps.ite
      | intro _ | split | dsimp -iota only | dsimp only | ((fail_if_success apply Keeps.same); refine Keeps.mk ?_)

theorem State.admitSlot_keeps {z0 : State} {s : State} {slot : Nat} (hK : Keeps z0 s) :
    Keeps z0 (State.admitSlot s slot) := by
  unfold State.admitSlot
  with_reducible
    repeat' first
      | assumption | apply State.raiseD_keeps | apply State.jReplace_keeps | apply State.jSettled_keeps
      | apply State.widthUpdate_keeps | apply State.setSlot_keeps | apply State.endSlotJobs_keeps
      | apply State.formSlot_keeps | intro _ | split | dsimp -iota only | dsimp only

theorem execCartAdmitted_keeps {z0 : State} {slot : Nat} {s : State} (hK : Keeps z0 s) :
    KeepsRes z0 (execCartAdmitted slot s) := by
  unfold execCartAdmitted
  with_reducible
    repeat' first
      | assumption | apply KeepsRes.next | apply State.settle_keeps | apply State.admitSlot_keeps | apply Keeps.ite
      | intro _ | split | dsimp -iota only | dsimp only

theorem execCartFailed_keeps {z0 : State} {slot cause : Nat} {s : State} (hK : Keeps z0 s) :
    KeepsRes z0 (execCartFailed slot cause s) := by
  unfold execCartFailed
  with_reducible
    repeat' first
      | assumption | apply KeepsRes.next | apply State.setFlag_keeps | apply State.raise_keeps
      | apply State.settle_keeps | apply State.cartFail_keeps | apply Keeps.ite | intro _ | split | dsimp -iota only
      | dsimp only

theorem State.prepare_keeps {z0 : State} {s : State} {slot : Nat} (hK : Keeps z0 s) :
    Keeps z0 (State.prepare s slot) := by
  unfold State.prepare
  with_reducible
    repeat' first
      | assumption | apply State.truncateIf_keeps | apply State.jLose_keeps | apply State.widthUpdate_keeps
      | apply State.setSlot_keeps | intro _ | split | dsimp -iota only | dsimp only

theorem State.prepareOff_keeps {z0 : State} {s : State} {slot : Nat} (hK : Keeps z0 s) :
    Keeps z0 (State.prepareOff s slot) := by
  unfold State.prepareOff
  with_reducible
    repeat' first
      | assumption | apply State.slotPwr_keeps | apply Keeps.ite | intro _ | split | dsimp -iota only | dsimp only

theorem State.slotRemovable_keeps {z0 : State} {s : State} {slot : Nat} (hK : Keeps z0 s) :
    Keeps z0 (State.slotRemovable s slot) := by
  unfold State.slotRemovable
  with_reducible
    repeat' first
      | assumption | apply State.setFlag_keeps | apply State.raiseD_keeps | apply State.setSlot_keeps
      | apply State.endSlotJobs_keeps | intro _ | split | dsimp -iota only | dsimp only

theorem State.removeStart_keeps {z0 : State} {s : State} {slot : Nat} (hK : Keeps z0 s) :
    Keeps z0 (State.removeStart s slot) := by
  unfold State.removeStart
  with_reducible
    repeat' first
      | assumption | apply State.flashRegs_keeps | apply State.endSlotJobs_keeps | apply State.prepare_keeps
      | apply State.prepareOff_keeps | apply State.slotRemovable_keeps | apply Keeps.ite | intro _ | split
      | dsimp -iota only | dsimp only

theorem execCartRemovable_keeps {z0 : State} {slot : Nat} {s : State} (hK : Keeps z0 s) :
    KeepsRes z0 (execCartRemovable slot s) := by
  unfold execCartRemovable
  with_reducible
    repeat' first
      | assumption | apply KeepsRes.next | apply State.diesAbsent_keeps | apply State.prepareOff_keeps
      | apply State.slotRemovable_keeps | apply Keeps.ite | intro _ | split | dsimp -iota only | dsimp only

theorem execCartRemoved_keeps {z0 : State} {slot : Nat} {s : State} (hK : Keeps z0 s) :
    KeepsRes z0 (execCartRemoved slot s) := by
  unfold execCartRemoved
  with_reducible
    repeat' first
      | assumption | apply KeepsRes.next | apply State.setFlag_keeps | apply State.raiseD_keeps
      | apply State.setSlot_keeps | apply State.diesAbsent_keeps | apply Keeps.ite | intro _ | split
      | dsimp -iota only | dsimp only | ((fail_if_success apply Keeps.same); refine Keeps.mk ?_)

theorem execSlotPwrFail_keeps {z0 : State} {slot : Nat} {s : State} (hK : Keeps z0 s) :
    KeepsRes z0 (execSlotPwrFail slot s) := by
  unfold execSlotPwrFail
  with_reducible
    repeat' first
      | assumption | apply KeepsRes.next | apply State.raiseD_keeps | apply State.setSlot_keeps
      | apply State.setCart_keeps | apply State.slotPwr_keeps | apply State.endSlotJobs_keeps | apply Keeps.ite
      | intro _ | split | dsimp -iota only | dsimp only | ((fail_if_success apply Keeps.same); refine Keeps.mk ?_)

end Sys2Proof.Machine
end

