-- ==== Sys2Proof/Laws/KeepDram.lean ====
section
/-! SUPPORT. What the operations of Machine/Dram.lean keep. -/

set_option Elab.async false

namespace Sys2Proof.Machine

theorem State.retrain_keeps {z0 : State} {s : State} {c temp owed : Nat} (hK : Keeps z0 s) :
    Keeps z0 (State.retrain s c temp owed) := by
  unfold State.retrain
  with_reducible
    repeat' first
      | assumption | apply State.setFld_keeps | apply State.setChan_keeps | apply Keeps.ite | intro _ | split
      | dsimp -iota only | dsimp only | ((fail_if_success apply Keeps.same); refine Keeps.mk ?_)

theorem execRetrainPause_keeps {z0 : State} {c temp owed : Nat} {s : State} (hK : Keeps z0 s) :
    KeepsRes z0 (execRetrainPause c temp owed s) := by
  unfold execRetrainPause
  with_reducible
    repeat' first
      | assumption | apply KeepsRes.next | apply State.setFld_keeps | apply State.setChan_keeps
      | apply State.ownJob_keeps | apply State.markStarted_keeps | apply State.endJob_keeps
      | apply State.retrain_keeps | refine Keeps.getD ?_ ?_ | apply Keeps.ite | intro _ | split | dsimp -iota only
      | dsimp only | ((fail_if_success apply Keeps.same); refine Keeps.mk ?_)

theorem execRetrainLate_keeps {z0 : State} {c : Nat} {s : State} (hK : Keeps z0 s) :
    KeepsRes z0 (execRetrainLate c s) := by
  unfold execRetrainLate
  with_reducible
    repeat' first
      | assumption | apply KeepsRes.next | apply State.raiseD_keeps | apply State.setChan_keeps | apply Keeps.ite
      | intro _ | split | dsimp -iota only | dsimp only | ((fail_if_success apply Keeps.same); refine Keeps.mk ?_)

theorem execRefresh_keeps {z0 : State} {c : Nat} {busy : Bool} {s : State} (hK : Keeps z0 s) :
    KeepsRes z0 (execRefresh c busy s) := by
  unfold execRefresh
  with_reducible
    repeat' first
      | assumption | apply KeepsRes.next | apply State.setFld_keeps | apply Keeps.ite | intro _ | split
      | dsimp -iota only | dsimp only

theorem execMakeUpBurst_keeps {z0 : State} {c : Nat} {empty : Bool} {s : State} (hK : Keeps z0 s) :
    KeepsRes z0 (execMakeUpBurst c empty s) := by
  unfold execMakeUpBurst
  with_reducible
    repeat' first
      | assumption | apply KeepsRes.next | apply State.setFld_keeps | apply Keeps.ite | intro _ | split
      | dsimp -iota only | dsimp only

theorem execMergeEntryWrite_keeps {z0 : State} {line : Nat} {s : State} (hK : Keeps z0 s) :
    KeepsRes z0 (execMergeEntryWrite line s) := by
  unfold execMergeEntryWrite
  with_reducible
    repeat' first
      | assumption | apply KeepsRes.next | apply State.mergeOut_keeps | apply Keeps.ite | intro _ | split
      | dsimp -iota only | dsimp only

theorem execSelfRefreshEntry_keeps {z0 : State} {c : Nat} {s : State} (hK : Keeps z0 s) :
    KeepsRes z0 (execSelfRefreshEntry c s) := by
  unfold execSelfRefreshEntry
  with_reducible
    repeat' first
      | assumption | apply KeepsRes.next | apply State.setFld_keeps | apply State.setFlag_keeps
      | apply State.idle_keeps | apply Keeps.ite | intro _ | split | dsimp -iota only | dsimp only

theorem State.folioRewritten_keeps {z0 : State} {s : State} {f : Nat} (hK : Keeps z0 s) :
    Keeps z0 (State.folioRewritten s f) := by
  unfold State.folioRewritten
  with_reducible
    repeat' first
      | assumption | intro _ | split | dsimp -iota only | dsimp only
      | ((fail_if_success apply Keeps.same); refine Keeps.mk ?_)

theorem State.moveOwn_keepsE {z0 : State} {s : State} {c f : Nat} {tE : State} (hE : State.moveOwn s c f = some tE) (hK : Keeps z0 s) :
    Keeps z0 tE := by
  unfold State.moveOwn at hE
  repeat' (first | split at hE | dsimp only at hE)
  all_goals (first | cases hE | skip)
  with_reducible
    repeat' first
      | assumption | apply State.setFolio_keeps | apply State.mergeFolio_keeps
      | refine State.replaceFrameOf_keepsE (by assumption) ?_ | apply State.folioRewritten_keeps | apply Keeps.ite
      | intro _ | split | dsimp -iota only | dsimp only | ((fail_if_success apply Keeps.same); refine Keeps.mk ?_)

theorem State.frameForPair_keepsE {z0 : State} {s : State} {c : Nat} {x : Folio} {uE} {tE : State} (hE : State.frameForPair s c x = some (uE, tE)) (hK : Keeps z0 s) :
    Keeps z0 tE := by
  unfold State.frameForPair at hE
  repeat' (first | split at hE | dsimp only at hE)
  all_goals (first | cases hE | skip)
  with_reducible
    repeat' first
      | assumption | refine State.replaceFrameOf_keepsE (by assumption) ?_ | intro _ | split | dsimp -iota only
      | dsimp only

theorem State.movePair_keepsE {z0 : State} {s : State} {c f : Nat} {tE : State} (hE : State.movePair s c f = some tE) (hK : Keeps z0 s) :
    Keeps z0 tE := by
  unfold State.movePair at hE
  repeat' (first | split at hE | dsimp only at hE)
  all_goals (first | cases hE | skip)
  with_reducible
    repeat' first
      | assumption | apply State.setFolio_keeps | refine State.frameForPair_keepsE (by assumption) ?_ | intro _
      | split | dsimp -iota only | dsimp only | ((fail_if_success apply Keeps.same); refine Keeps.mk ?_)

theorem State.movePage_keepsE {z0 : State} {s : State} {c fr g : Nat} {fs : List Nat} {tE : State} (hE : State.movePage s c fr g fs = some tE) (hK : Keeps z0 s) :
    Keeps z0 tE := by
  unfold State.movePage at hE
  repeat' (first | split at hE | dsimp only at hE)
  all_goals (first | cases hE | skip)
  with_reducible
    repeat' first
      | assumption | refine State.replaceFrameOf_keepsE (by assumption) ?_ | apply Keeps.ite | intro _ | split
      | dsimp -iota only | dsimp only | ((fail_if_success apply Keeps.same); refine Keeps.mk ?_)

theorem State.moveArea_keepsE {z0 : State} {s : State} {c area : Nat} {tE : State} (hE : State.moveArea s c area = some tE) (hK : Keeps z0 s) :
    Keeps z0 tE := by
  unfold State.moveArea at hE
  repeat' (first | split at hE | dsimp only at hE)
  all_goals (first | cases hE | skip)
  with_reducible
    repeat' first
      | assumption | apply State.areaMove_keeps | apply Keeps.ite | intro _ | split | dsimp -iota only | dsimp only

theorem State.moveFrame_keepsE {z0 : State} {s : State} {c fr : Nat} {tE : State}
    (hE : State.moveFrame s c fr = some tE) (hK : Keeps z0 s) : Keeps z0 tE := by
  unfold State.moveFrame at hE
  repeat' split at hE
  · exact State.moveOwn_keepsE hE hK
  · exact State.movePair_keepsE hE hK
  · exact State.movePage_keepsE hE hK
  · exact State.moveArea_keepsE hE hK
  · cases hE; exact hK

theorem State.moveFrames_keepsE {z0 : State} {s : State} {c : Nat} {a0 : List Nat} {tE : State}
    (hE : State.moveFrames s c a0 = some tE) (hK : Keeps z0 s) : Keeps z0 tE := by
  induction a0 generalizing s with
  | nil => cases hE; exact hK
  | cons fr rest ih =>
    unfold State.moveFrames at hE
    split at hE
    · split at hE
      · rename_i h
        exact ih hE (State.moveFrame_keepsE h hK)
      · cases hE
    · exact ih hE hK

theorem State.moveRow_keepsE {z0 : State} {s : State} {c word1 : Nat} {tE : State}
    (hE : State.moveRow s c word1 = some tE) (hK : Keeps z0 s) : Keeps z0 tE := State.moveFrames_keepsE hE hK

theorem State.scrubRetire_keeps {z0 : State} {s : State} {c word1 : Nat} (hK : Keeps z0 s) :
    Keeps z0 (State.scrubRetire s c word1) := by
  unfold State.scrubRetire
  with_reducible
    repeat' first
      | assumption | apply State.retireRow_keeps | refine State.retireRow_keepsE (by assumption) ?_
      | apply State.replaceShort_keeps | refine State.moveRow_keepsE (by assumption) ?_ | intro _ | split
      | dsimp -iota only | dsimp only

theorem State.scrubbed_keeps {z0 : State} {s : State} {fr line : Nat} {points words : List Nat} (hK : Keeps z0 s) :
    Keeps z0 (State.scrubbed s fr line points words) := by
  unfold State.scrubbed
  with_reducible
    repeat' first
      | assumption | apply State.allocLine_keeps | refine State.allocLine_keepsE (by assumption) ?_
      | apply State.eccFound_keeps | refine State.eccFound_keepsE (by assumption) ?_ | apply State.scrubRetire_keeps
      | apply Keeps.ite | intro _ | split | dsimp -iota only | dsimp only
      | ((fail_if_success apply Keeps.same); refine Keeps.mk ?_)

theorem execPatrolScrub_keeps {z0 : State} {c frame line : Nat} {points : List Nat} {progress : Nat} {pass : Bool} {words : List Nat} {s : State} (hK : Keeps z0 s) :
    KeepsRes z0 (execPatrolScrub c frame line points progress pass words s) := by
  unfold execPatrolScrub
  with_reducible
    repeat' first
      | assumption | apply KeepsRes.next | apply State.setFld_keeps | apply State.settle_keeps
      | apply State.scrubbed_keeps | apply Keeps.ite | intro _ | split | dsimp -iota only | dsimp only

theorem execDmcFrozen_keeps {z0 : State} {c cause cls : Nat} {dpa : Option Nat} {words : List Nat} {s : State} (hK : Keeps z0 s) :
    KeepsRes z0 (execDmcFrozen c cause cls dpa words s) := by
  unfold execDmcFrozen
  with_reducible
    repeat' first
      | assumption | apply KeepsRes.next | apply State.settle_keeps | apply State.freezeNow_keeps | apply Keeps.ite
      | intro _ | split | dsimp -iota only | dsimp only

theorem State.snapRead_keeps {z0 : State} {s : State} {c : Nat} (hK : Keeps z0 s) :
    Keeps z0 (State.snapRead s c) := by
  unfold State.snapRead
  with_reducible
    repeat' first
      | assumption | apply State.setFlag_keeps | apply Keeps.ite | intro _ | split | dsimp -iota only | dsimp only

theorem execFreezeSnapshot_keeps {z0 : State} {mb : Nat} {input : List Byte} {s : State} (hK : Keeps z0 s) :
    KeepsRes z0 (execFreezeSnapshot mb input s) := by
  unfold execFreezeSnapshot
  with_reducible
    repeat' first
      | assumption | apply KeepsRes.next | apply State.answer_keeps | apply State.vendor_keeps
      | apply State.snapRead_keeps | apply Keeps.ite | intro _ | split | dsimp -iota only | dsimp only

theorem execFreezeSnapRead_keeps {z0 : State} {c : Nat} {s : State} (hK : Keeps z0 s) :
    KeepsRes z0 (execFreezeSnapRead c s) := by
  unfold execFreezeSnapRead
  with_reducible
    repeat' first
      | assumption | apply KeepsRes.next | apply State.send_keeps | apply State.snapRead_keeps | apply Keeps.ite
      | intro _ | split | dsimp -iota only | dsimp only

theorem State.dramRepair_keeps {z0 : State} {s : State} {c word1 dev : Nat} {soft : Bool} (hK : Keeps z0 s) :
    Keeps z0 (State.dramRepair s c word1 dev soft).1 := by
  unfold State.dramRepair
  with_reducible
    repeat' first
      | assumption | apply State.addSat_keeps | apply State.setChan_keeps | apply State.jAppend_keeps
      | apply State.retireRow_keeps | refine State.retireRow_keepsE (by assumption) ?_
      | refine State.moveRow_keepsE (by assumption) ?_ | apply Keeps.ite | intro _ | split | dsimp -iota only
      | dsimp only | ((fail_if_success apply Keeps.same); refine Keeps.mk ?_)

theorem State.dramRepair_keepsE {z0 : State} {s : State} {c word1 dev : Nat} {soft : Bool} {tE : State} {uE} (hE : State.dramRepair s c word1 dev soft = (tE, uE)) (hK : Keeps z0 s) :
    Keeps z0 tE := by
  have k := State.dramRepair_keeps (z0 := z0) (s := s) (c := c) (word1 := word1) (dev := dev) (soft := soft)  hK
  rw [hE] at k
  exact k

theorem State.dramRelease_keeps {z0 : State} {s : State} {c : Nat} {pass : Bool} {words : List Nat} (hK : Keeps z0 s) :
    Keeps z0 (State.dramRelease s c pass words).1 := by
  unfold State.dramRelease
  with_reducible
    repeat' first
      | assumption | apply State.setLive_keeps | apply State.setFld_keeps | apply State.setFlag_keeps
      | apply State.raiseD_keeps | apply State.raise_keeps | apply State.setChan_keeps | apply State.retireRow_keeps
      | refine State.retireRow_keepsE (by assumption) ?_ | apply State.replaceAll_keeps | apply State.snapshot_keeps
      | apply State.ownJob_keeps | apply State.withdrawDegraded_keeps | refine Keeps.getD ?_ ?_ | apply Keeps.ite
      | intro _ | split | dsimp -iota only | dsimp only | ((fail_if_success apply Keeps.same); refine Keeps.mk ?_)

theorem State.dramRelease_keepsE {z0 : State} {s : State} {c : Nat} {pass : Bool} {words : List Nat} {tE : State} {uE} (hE : State.dramRelease s c pass words = (tE, uE)) (hK : Keeps z0 s) :
    Keeps z0 tE := by
  have k := State.dramRelease_keeps (z0 := z0) (s := s) (c := c) (pass := pass) (words := words)  hK
  rw [hE] at k
  exact k

end Sys2Proof.Machine
end

