-- ==== Sys2Proof/Laws/KeepTwin.lean ====
section
/-! SUPPORT. What the operations of Machine/Twin.lean keep. -/

set_option Elab.async false

namespace Sys2Proof.Machine

theorem State.setTwinLink_keeps {z0 : State} {s : State} {v : Nat} (hK : Keeps z0 s) :
    Keeps z0 (State.setTwinLink s v) := by
  unfold State.setTwinLink
  with_reducible
    repeat' first
      | assumption | apply State.setFld_keeps | intro _ | split | dsimp -iota only | dsimp only

theorem State.resyncStop_keeps {z0 : State} {s : State} (hK : Keeps z0 s) :
    Keeps z0 (State.resyncStop s) := by
  unfold State.resyncStop
  with_reducible
    repeat' first
      | assumption | apply State.setFld_keeps | apply State.endJob_keeps | intro _ | split | dsimp -iota only
      | dsimp only | ((fail_if_success apply Keeps.same); refine Keeps.mk ?_)

theorem State.endHandover_keeps {z0 : State} {s : State} {status : Nat} (hK : Keeps z0 s) :
    Keeps z0 (State.endHandover s status) := by
  unfold State.endHandover
  with_reducible
    repeat' first
      | assumption | apply State.endJob_keeps | intro _ | split | dsimp -iota only | dsimp only

theorem State.twinFall_keeps {z0 : State} {s : State} {st : Nat} (hK : Keeps z0 s) :
    Keeps z0 (State.twinFall s st) := by
  unfold State.twinFall
  with_reducible
    repeat' first
      | assumption | apply State.setFlag_keeps | apply State.raise_keeps | apply State.setTwinLink_keeps
      | apply State.resyncStop_keeps | apply State.endHandover_keeps | refine Keeps.foldl (fun _ _ _ => ?_) ?_
      | refine Keeps.foldlFst (fun _ _ _ => ?_) ?_ | refine Keeps.foldlSnd (fun _ _ _ => ?_) ?_ | apply Keeps.ite
      | intro _ | split | dsimp -iota only | dsimp only | ((fail_if_success apply Keeps.same); refine Keeps.mk ?_)

theorem State.sendHello_keeps {z0 : State} {s : State} (hK : Keeps z0 s) :
    Keeps z0 (State.sendHello s) := by
  unfold State.sendHello
  with_reducible
    repeat' first
      | assumption | apply State.send_keeps | intro _ | split | dsimp -iota only | dsimp only
      | ((fail_if_success apply Keeps.same); refine Keeps.mk ?_)

theorem State.twinTrained_keeps {z0 : State} {s : State} {w0 w1 : Nat} {session : Bool} (hK : Keeps z0 s) :
    Keeps z0 (State.twinTrained s w0 w1 session) := by
  unfold State.twinTrained
  with_reducible
    repeat' first
      | assumption | apply State.setFld_keeps | apply State.raise_keeps | apply State.setKeySlot_keeps
      | apply State.setTwinLink_keeps | apply State.sendHello_keeps | refine Keeps.foldl (fun _ _ _ => ?_) ?_
      | refine Keeps.foldlFst (fun _ _ _ => ?_) ?_ | refine Keeps.foldlSnd (fun _ _ _ => ?_) ?_ | apply Keeps.ite
      | intro _ | split | dsimp -iota only | dsimp only | ((fail_if_success apply Keeps.same); refine Keeps.mk ?_)

theorem execTwinLinkTrained_keeps {z0 : State} {w0 w1 : Nat} {session : Bool} {s : State} (hK : Keeps z0 s) :
    KeepsRes z0 (execTwinLinkTrained w0 w1 session s) := by
  unfold execTwinLinkTrained
  with_reducible
    repeat' first
      | assumption | apply KeepsRes.next | apply State.settle_keeps | apply State.twinTrained_keeps | intro _ | split
      | dsimp -iota only | dsimp only

theorem State.twinLose_keeps {z0 : State} {s : State} {link : Nat} (hK : Keeps z0 s) :
    Keeps z0 (State.twinLose s link) := by
  unfold State.twinLose
  with_reducible
    repeat' first
      | assumption | apply State.raise_keeps | apply State.setTwinLink_keeps | apply State.twinFall_keeps
      | apply Keeps.ite | intro _ | split | dsimp -iota only | dsimp only
      | ((fail_if_success apply Keeps.same); refine Keeps.mk ?_)

theorem execTwinLinkDown_keeps {z0 : State} {link : Nat} {s : State} (hK : Keeps z0 s) :
    KeepsRes z0 (execTwinLinkDown link s) := by
  unfold execTwinLinkDown
  with_reducible
    repeat' first
      | assumption | apply KeepsRes.next | apply State.settle_keeps | apply State.twinLose_keeps | intro _ | split
      | dsimp -iota only | dsimp only

theorem State.twinBothDown_keeps {z0 : State} {s : State} (hK : Keeps z0 s) :
    Keeps z0 (State.twinBothDown s) := by
  unfold State.twinBothDown
  with_reducible
    repeat' first
      | assumption | apply State.twinFall_keeps | intro _ | split | dsimp -iota only | dsimp only
      | ((fail_if_success apply Keeps.same); refine Keeps.mk ?_)

theorem State.integrityFrame_keeps {z0 : State} {s : State} {link : Nat} {good : Bool} (hK : Keeps z0 s) :
    Keeps z0 (State.integrityFrame s link good) := by
  unfold State.integrityFrame
  with_reducible
    repeat' first
      | assumption | apply State.raise_keeps | apply State.countNonce_keeps
      | refine State.countNonce_keepsE (by assumption) ?_ | apply State.twinLose_keeps
      | apply State.twinBothDown_keeps | apply Keeps.ite | intro _ | split | dsimp -iota only | dsimp only

theorem execIntegrityFrame_keeps {z0 : State} {link : Nat} {good : Bool} {s : State} (hK : Keeps z0 s) :
    KeepsRes z0 (execIntegrityFrame link good s) := by
  unfold execIntegrityFrame
  with_reducible
    repeat' first
      | assumption | apply KeepsRes.next | apply State.settle_keeps | apply State.integrityFrame_keeps | intro _
      | split | dsimp -iota only | dsimp only

theorem State.resyncJob_keeps {z0 : State} {s : State} (hK : Keeps z0 s) :
    Keeps z0 (State.resyncJob s) := by
  unfold State.resyncJob
  with_reducible
    repeat' first
      | assumption | apply State.raise_keeps | apply State.ownJob_keeps | apply State.markStarted_keeps
      | apply Keeps.ite | intro _ | split | dsimp -iota only | dsimp only

theorem State.resyncBegin_keeps {z0 : State} {s : State} {p : Peer} (hK : Keeps z0 s) :
    Keeps z0 (State.resyncBegin s p) := by
  unfold State.resyncBegin
  with_reducible
    repeat' first
      | assumption | apply State.setFld_keeps | apply State.setFlag_keeps | apply State.raise_keeps
      | apply State.sendTables_keeps | apply State.resyncJob_keeps | apply Keeps.ite | intro _ | split
      | dsimp -iota only | dsimp only | ((fail_if_success apply Keeps.same); refine Keeps.mk ?_)

theorem State.clearShadow_keeps {z0 : State} {s : State} (hK : Keeps z0 s) :
    Keeps z0 (State.clearShadow s) := by
  unfold State.clearShadow
  with_reducible
    repeat' first
      | assumption | intro _ | split | dsimp -iota only | dsimp only
      | ((fail_if_success apply Keeps.same); refine Keeps.mk ?_)

theorem State.resyncJoin_keeps {z0 : State} {s : State} {p : Peer} (hK : Keeps z0 s) :
    Keeps z0 (State.resyncJoin s p) := by
  unfold State.resyncJoin
  with_reducible
    repeat' first
      | assumption | apply State.setFld_keeps | apply State.setFlag_keeps | apply State.raiseSev_keeps
      | apply State.raise_keeps | apply State.twinSend_keeps | apply State.resyncJob_keeps
      | apply State.clearShadow_keeps | refine Keeps.foldl (fun _ _ _ => ?_) ?_
      | refine Keeps.foldlFst (fun _ _ _ => ?_) ?_ | refine Keeps.foldlSnd (fun _ _ _ => ?_) ?_ | apply Keeps.ite
      | intro _ | split | dsimp -iota only | dsimp only | ((fail_if_success apply Keeps.same); refine Keeps.mk ?_)

theorem State.keepSolo_keeps {z0 : State} {s : State} (hK : Keeps z0 s) :
    Keeps z0 (State.keepSolo s) := by
  unfold State.keepSolo
  with_reducible
    repeat' first
      | assumption | apply State.takeRole_keeps | apply Keeps.ite | intro _ | split | dsimp -iota only | dsimp only

theorem State.settleRoles_keeps {z0 : State} {s0 : State} (hK : Keeps z0 s0) :
    Keeps z0 (State.settleRoles s0) := by
  unfold State.settleRoles
  with_reducible
    repeat' first
      | assumption | apply State.setFlag_keeps | apply State.raise_keeps | apply State.takeRole_keeps
      | apply State.twinFall_keeps | apply State.resyncBegin_keeps | apply State.resyncJoin_keeps
      | apply State.keepSolo_keeps | apply Keeps.ite | intro _ | split | dsimp -iota only | dsimp only
      | ((fail_if_success apply Keeps.same); refine Keeps.mk ?_)

theorem State.helloNote_keeps {z0 : State} {s : State} {p : Peer} (hK : Keeps z0 s) :
    Keeps z0 (State.helloNote s p) := by
  unfold State.helloNote
  with_reducible
    repeat' first
      | assumption | intro _ | split | dsimp -iota only | dsimp only
      | ((fail_if_success apply Keeps.same); refine Keeps.mk ?_)

theorem State.helloId_keeps {z0 : State} {s : State} {id : Nat} (hK : Keeps z0 s) :
    Keeps z0 (State.helloId s id) := by
  unfold State.helloId
  with_reducible
    repeat' first
      | assumption | apply State.setFld_keeps | intro _ | split | dsimp -iota only | dsimp only

theorem State.helloUp_keeps {z0 : State} {s : State} (hK : Keeps z0 s) :
    Keeps z0 (State.helloUp s) := by
  unfold State.helloUp
  with_reducible
    repeat' first
      | assumption | apply State.raise_keeps | apply State.setTwinLink_keeps | apply State.endHandover_keeps
      | apply Keeps.ite | intro _ | split | dsimp -iota only | dsimp only

theorem State.hello_keeps {z0 : State} {s : State} {p : Peer} (hK : Keeps z0 s) :
    Keeps z0 (State.hello s p) := by
  unfold State.hello
  with_reducible
    repeat' first
      | assumption | apply State.twinFall_keeps | apply State.sendHello_keeps | apply State.settleRoles_keeps
      | apply State.helloNote_keeps | apply State.helloId_keeps | apply State.helloUp_keeps | apply Keeps.ite
      | intro _ | split | dsimp -iota only | dsimp only

theorem execHello_keeps {z0 : State} {id epoch role : Nat} {divValid synced : Bool} {divEpoch granules : Nat} {prefer : Bool} {held : Nat} {s : State} (hK : Keeps z0 s) :
    KeepsRes z0 (execHello id epoch role divValid synced divEpoch granules prefer held s) := by
  unfold execHello
  with_reducible
    repeat' first
      | assumption | apply KeepsRes.next | apply State.settle_keeps | apply State.hello_keeps | intro _ | split
      | dsimp -iota only | dsimp only

theorem State.fetchAgain_keeps {z0 : State} {s : State} (hK : Keeps z0 s) :
    Keeps z0 (State.fetchAgain s) := by
  unfold State.fetchAgain
  with_reducible
    repeat' first
      | assumption | apply State.fetchFolio_keeps | refine Keeps.foldl (fun _ _ _ => ?_) ?_
      | refine Keeps.foldlFst (fun _ _ _ => ?_) ?_ | refine Keeps.foldlSnd (fun _ _ _ => ?_) ?_ | apply Keeps.ite
      | intro _ | split | dsimp -iota only | dsimp only | ((fail_if_success apply Keeps.same); refine Keeps.mk ?_)

theorem State.resyncCleared_keeps {z0 : State} {s : State} (hK : Keeps z0 s) :
    Keeps z0 (State.resyncCleared s) := by
  unfold State.resyncCleared
  repeat' first
    | with_reducible assumption
    | with_reducible exact Keeps.refl _
    | (with_reducible refine State.setFld_keeps ?_)
    | (with_reducible refine State.setFlag_keeps ?_)
    | (with_reducible refine State.raise_keeps ?_)
    | (with_reducible refine State.endJob_keeps ?_)
    | (with_reducible refine Keeps.getD ?_ ?_)
    | (with_reducible refine Keeps.mapPair (by assumption) ?_)
    | (with_reducible refine Keeps.foldl (fun st x hst => ?_) ?_)
    | (with_reducible refine Keeps.foldlFst (fun st x hst => ?_) ?_)
    | (with_reducible refine Keeps.foldlSnd (fun st x hst => ?_) ?_)
    | (with_reducible refine Keeps.ite ?_ ?_)
    | intro _
    | split
    | dsimp -iota only
    | dsimp only
    | dsimp only [id]
    | exact memWf_nil _
    | (fail_if_success (with_reducible refine Keeps.same ?_)
       with_reducible refine Keeps.mk ?_ ?_ ?_ ?_ ?_ ?_ ?_ ?_ ?_ ?_ ?_ ?_ ?_ <;>
         first | with_reducible exact Nat.le_refl _ | with_reducible exact List.prefix_rfl | with_reducible exact fun hm => hm |
           with_reducible exact List.prefix_append _ _ | with_reducible exact Nat.le_succ _ | with_reducible exact memWriteN_wf | with_reducible exact memClear_wf |
           with_reducible exact memPaste_wf | with_reducible exact memWrite_wf | with_reducible exact memWriteLE_wf | with_reducible exact fun _ => rfl | exact fun _ => memWf_nil _ |
           with_reducible exact fun hm => memWriteN_wf (memWriteN_wf hm) | exact fun _ => rfl |
           exact fun hm => memFold_wf (fun m y hh => memWrite_wf hh) hm |
           exact fun _ => memFold_wf (fun m y hh => memWrite_wf hh) (memWf_nil _) | skip)

theorem State.resyncAcked_keeps {z0 : State} {s : State} (hK : Keeps z0 s) :
    Keeps z0 (State.resyncAcked s) := by
  unfold State.resyncAcked
  with_reducible
    repeat' first
      | assumption | apply State.takeRole_keeps | apply State.fetchAgain_keeps | apply State.resyncCleared_keeps
      | apply Keeps.ite | intro _ | split | dsimp -iota only | dsimp only

theorem State.mirrorReady_keeps {z0 : State} {s : State} {r : Nat} (hK : Keeps z0 s) :
    Keeps z0 (State.mirrorReady s r) := by
  unfold State.mirrorReady
  with_reducible
    repeat' first
      | assumption | apply State.raiseD_keeps | apply State.setMirrorPending_keeps | apply Keeps.ite | intro _ | split
      | dsimp -iota only | dsimp only | ((fail_if_success apply Keeps.same); refine Keeps.mk ?_)

theorem State.leaseRenew_keeps {z0 : State} {s : State} {at_ : Option Nat} (hK : Keeps z0 s) :
    Keeps z0 (State.leaseRenew s at_) := by
  unfold State.leaseRenew
  with_reducible
    repeat' first
      | assumption | apply State.setFlag_keeps | apply State.raise_keeps | apply Keeps.ite | intro _ | split
      | dsimp -iota only | dsimp only | ((fail_if_success apply Keeps.same); refine Keeps.mk ?_)

theorem State.twinAcked_keeps {z0 : State} {s : State} {a : Nat} (hK : Keeps z0 s) :
    Keeps z0 (State.twinAcked s a) := by
  unfold State.twinAcked
  with_reducible
    repeat' first
      | assumption | apply State.resyncAcked_keeps | apply State.mirrorReady_keeps | apply State.leaseRenew_keeps
      | refine Keeps.foldl (fun _ _ _ => ?_) ?_ | refine Keeps.foldlFst (fun _ _ _ => ?_) ?_
      | refine Keeps.foldlSnd (fun _ _ _ => ?_) ?_ | apply Keeps.ite | intro _ | split | dsimp -iota only | dsimp only
      | ((fail_if_success apply Keeps.same); refine Keeps.mk ?_)

theorem State.outdated_keeps {z0 : State} {s : State} (hK : Keeps z0 s) :
    Keeps z0 (State.outdated s) := by
  unfold State.outdated
  with_reducible
    repeat' first
      | assumption | apply State.setFlag_keeps | apply State.twinFall_keeps | apply State.sendHello_keeps | intro _
      | split | dsimp -iota only | dsimp only

theorem State.receive_keeps {z0 : State} {s : State} {h : TwinHead} {type : Nat} {body : State → State} (kbody : ∀ y0, Keeps z0 y0 → Keeps z0 (body y0)) (hK : Keeps z0 s) :
    Keeps z0 (State.receive s h type body) := by
  unfold State.receive
  with_reducible
    repeat' first
      | assumption | apply State.addSat_keeps | apply State.raise_keeps | apply State.twinBothDown_keeps
      | apply State.twinAcked_keeps | apply State.outdated_keeps | refine kbody _ ?_ | apply Keeps.ite | intro _
      | split | dsimp -iota only | dsimp only | ((fail_if_success apply Keeps.same); refine Keeps.mk ?_)

theorem execHeartbeat_keeps {z0 : State} {h : TwinHead} {ink : Nat} {s : State} (hK : Keeps z0 s) :
    KeepsRes z0 (execHeartbeat h ink s) := by
  unfold execHeartbeat
  with_reducible
    repeat' first
      | assumption | apply KeepsRes.next | apply State.settle_keeps | apply State.receive_keeps | intro _ | split
      | dsimp -iota only | dsimp only

theorem execAck_keeps {z0 : State} {h : TwinHead} {s : State} (hK : Keeps z0 s) :
    KeepsRes z0 (execAck h s) := by
  unfold execAck
  with_reducible
    repeat' first
      | assumption | apply KeepsRes.next | apply State.settle_keeps | apply State.receive_keeps | intro _ | split
      | dsimp -iota only | dsimp only

theorem State.heartbeatSend_keeps {z0 : State} {s : State} (hK : Keeps z0 s) :
    Keeps z0 (State.heartbeatSend s) := by
  unfold State.heartbeatSend
  with_reducible
    repeat' first
      | assumption | apply State.twinSend_keeps | apply Keeps.ite | intro _ | split | dsimp -iota only | dsimp only
      | ((fail_if_success apply Keeps.same); refine Keeps.mk ?_)

theorem execHeartbeatSend_keeps {z0 : State} {s : State} (hK : Keeps z0 s) :
    KeepsRes z0 (execHeartbeatSend s) := by
  unfold execHeartbeatSend
  with_reducible
    repeat' first
      | assumption | apply KeepsRes.next | apply State.heartbeatSend_keeps | intro _ | split | dsimp -iota only
      | dsimp only

theorem State.twinStore_keeps {z0 : State} {s : State} {seq : Nat} {isSeal : Bool} {recs : List LineWrite} (hK : Keeps z0 s) :
    Keeps z0 (State.twinStore s seq isSeal recs) := by
  unfold State.twinStore
  with_reducible
    repeat' first
      | assumption | apply State.acceptInner_keeps | refine Keeps.foldl (fun _ _ _ => ?_) ?_
      | refine Keeps.foldlFst (fun _ _ _ => ?_) ?_ | refine Keeps.foldlSnd (fun _ _ _ => ?_) ?_ | apply Keeps.ite
      | intro _ | split | dsimp -iota only | dsimp only

theorem execStore_keeps {z0 : State} {h : TwinHead} {recs : List LineWrite} {s : State} (hK : Keeps z0 s) :
    KeepsRes z0 (execStore h recs s) := by
  unfold execStore
  with_reducible
    repeat' first
      | assumption | apply KeepsRes.next | apply State.take_keeps | apply State.settle_keeps
      | apply State.receive_keeps | apply State.twinStore_keeps | intro _ | split | dsimp -iota only | dsimp only

theorem execSeal_keeps {z0 : State} {h : TwinHead} {recs : List LineWrite} {s : State} (hK : Keeps z0 s) :
    KeepsRes z0 (execSeal h recs s) := by
  unfold execSeal
  with_reducible
    repeat' first
      | assumption | apply KeepsRes.next | apply State.take_keeps | apply State.settle_keeps
      | apply State.receive_keeps | apply State.twinStore_keeps | intro _ | split | dsimp -iota only | dsimp only

theorem State.takeTable_keeps {z0 : State} {s : State} {seq table index : Nat} {ws : List Nat} {last : Bool} (hK : Keeps z0 s) :
    Keeps z0 (State.takeTable s seq table index ws last) := by
  unfold State.takeTable
  with_reducible
    repeat' first
      | assumption | apply State.take_keeps | apply State.setTabEntry_keeps | apply State.ownCommit_keeps
      | apply Keeps.ite | intro _ | split | dsimp -iota only | dsimp only
      | ((fail_if_success apply Keeps.same); refine Keeps.mk ?_)

theorem execTableSync_keeps {z0 : State} {h : TwinHead} {table index : Nat} {ws : List Nat} {last : Bool} {s : State} (hK : Keeps z0 s) :
    KeepsRes z0 (execTableSync h table index ws last s) := by
  unfold execTableSync
  with_reducible
    repeat' first
      | assumption | apply KeepsRes.next | apply State.settle_keeps | apply State.receive_keeps
      | apply State.takeTable_keeps | intro _ | split | dsimp -iota only | dsimp only

theorem State.tableResult_keeps {z0 : State} {s : State} {seq status : Nat} (hK : Keeps z0 s) :
    Keeps z0 (State.tableResult s seq status) := by
  unfold State.tableResult
  with_reducible
    repeat' first
      | assumption | apply State.raise_keeps | apply State.commitStat_keeps | apply State.commitTell_keeps
      | apply Keeps.ite | intro _ | split | dsimp -iota only | dsimp only
      | ((fail_if_success apply Keeps.same); refine Keeps.mk ?_)

theorem execTableResult_keeps {z0 : State} {h : TwinHead} {seq status : Nat} {s : State} (hK : Keeps z0 s) :
    KeepsRes z0 (execTableResult h seq status s) := by
  unfold execTableResult
  with_reducible
    repeat' first
      | assumption | apply KeepsRes.next | apply State.settle_keeps | apply State.receive_keeps
      | apply State.tableResult_keeps | intro _ | split | dsimp -iota only | dsimp only

theorem State.takeBitmap_keeps {z0 : State} {s : State} {first : Nat} {marks : List Bool} (hK : Keeps z0 s) :
    Keeps z0 (State.takeBitmap s first marks) := by
  unfold State.takeBitmap
  with_reducible
    repeat' first
      | assumption | refine Keeps.getD ?_ ?_ | refine Keeps.foldl (fun _ _ _ => ?_) ?_
      | refine Keeps.foldlFst (fun _ _ _ => ?_) ?_ | refine Keeps.foldlSnd (fun _ _ _ => ?_) ?_ | apply Keeps.ite
      | intro _ | split | dsimp -iota only | dsimp only | ((fail_if_success apply Keeps.same); refine Keeps.mk ?_)

theorem execBitmap_keeps {z0 : State} {h : TwinHead} {first : Nat} {marks : List Bool} {s : State} (hK : Keeps z0 s) :
    KeepsRes z0 (execBitmap h first marks s) := by
  unfold execBitmap
  with_reducible
    repeat' first
      | assumption | apply KeepsRes.next | apply State.settle_keeps | apply State.receive_keeps
      | apply State.takeBitmap_keeps | intro _ | split | dsimp -iota only | dsimp only

theorem execResyncFolio_keeps {z0 : State} {h : TwinHead} {folio : Nat} {zero : Bool} {cells : List Host.Cell} {s : State} (hK : Keeps z0 s) :
    KeepsRes z0 (execResyncFolio h folio zero cells s) := by
  unfold execResyncFolio
  repeat' first
    | with_reducible assumption
    | with_reducible exact Keeps.refl _
    | (with_reducible refine KeepsRes.next ?_)
    | (with_reducible refine State.takeWhole_keeps ?_)
    | (with_reducible refine State.settle_keeps ?_)
    | (with_reducible refine State.receive_keeps ?_ ?_)
    | (with_reducible refine Keeps.getD ?_ ?_)
    | (with_reducible refine Keeps.mapPair (by assumption) ?_)
    | (with_reducible refine Keeps.foldl (fun st x hst => ?_) ?_)
    | (with_reducible refine Keeps.foldlFst (fun st x hst => ?_) ?_)
    | (with_reducible refine Keeps.foldlSnd (fun st x hst => ?_) ?_)
    | (with_reducible refine Keeps.ite ?_ ?_)
    | intro _
    | split
    | dsimp -iota only
    | dsimp only
    | dsimp only [id]
    | exact memWf_nil _
    | (fail_if_success (with_reducible refine Keeps.same ?_)
       with_reducible refine Keeps.mk ?_ ?_ ?_ ?_ ?_ ?_ ?_ ?_ ?_ ?_ ?_ ?_ ?_ <;>
         first | with_reducible exact Nat.le_refl _ | with_reducible exact List.prefix_rfl | with_reducible exact fun hm => hm |
           with_reducible exact List.prefix_append _ _ | with_reducible exact Nat.le_succ _ | with_reducible exact memWriteN_wf | with_reducible exact memClear_wf |
           with_reducible exact memPaste_wf | with_reducible exact memWrite_wf | with_reducible exact memWriteLE_wf | with_reducible exact fun _ => rfl | exact fun _ => memWf_nil _ |
           with_reducible exact fun hm => memWriteN_wf (memWriteN_wf hm) | exact fun _ => rfl |
           exact fun hm => memFold_wf (fun m y hh => memWrite_wf hh) hm |
           exact fun _ => memFold_wf (fun m y hh => memWrite_wf hh) (memWf_nil _) | skip)

theorem execHandbackFolio_keeps {z0 : State} {h : TwinHead} {folio : Nat} {zero : Bool} {cells : List Host.Cell} {s : State} (hK : Keeps z0 s) :
    KeepsRes z0 (execHandbackFolio h folio zero cells s) := by
  unfold execHandbackFolio
  with_reducible
    repeat' first
      | assumption | apply KeepsRes.next | apply State.takeWhole_keeps | apply State.settle_keeps
      | apply State.receive_keeps | apply Keeps.ite | intro _ | split | dsimp -iota only | dsimp only

theorem State.handbackBegin_keeps {z0 : State} {s : State} {regions : List Nat} (hK : Keeps z0 s) :
    Keeps z0 (State.handbackBegin s regions) := by
  unfold State.handbackBegin
  with_reducible
    repeat' first
      | assumption | apply State.setFld_keeps | apply Keeps.ite | intro _ | split | dsimp -iota only | dsimp only
      | ((fail_if_success apply Keeps.same); refine Keeps.mk ?_)

theorem State.resyncDone_keeps {z0 : State} {s : State} {part : Nat} {absent : List Nat} (hK : Keeps z0 s) :
    Keeps z0 (State.resyncDone s part absent) := by
  unfold State.resyncDone
  with_reducible
    repeat' first
      | assumption | apply State.fetchAgain_keeps | apply State.resyncCleared_keeps | apply State.mirrorReady_keeps
      | apply State.handbackBegin_keeps | refine Keeps.foldl (fun _ _ _ => ?_) ?_
      | refine Keeps.foldlFst (fun _ _ _ => ?_) ?_ | refine Keeps.foldlSnd (fun _ _ _ => ?_) ?_ | apply Keeps.ite
      | intro _ | split | dsimp -iota only | dsimp only | ((fail_if_success apply Keeps.same); refine Keeps.mk ?_)

theorem execResyncDone_keeps {z0 : State} {h : TwinHead} {part : Nat} {absent : List Nat} {s : State} (hK : Keeps z0 s) :
    KeepsRes z0 (execResyncDone h part absent s) := by
  unfold execResyncDone
  with_reducible
    repeat' first
      | assumption | apply KeepsRes.next | apply State.settle_keeps | apply State.receive_keeps
      | apply State.resyncDone_keeps | intro _ | split | dsimp -iota only | dsimp only

theorem execMirrorReady_keeps {z0 : State} {h : TwinHead} {region : Nat} {s : State} (hK : Keeps z0 s) :
    KeepsRes z0 (execMirrorReady h region s) := by
  unfold execMirrorReady
  with_reducible
    repeat' first
      | assumption | apply KeepsRes.next | apply State.settle_keeps | apply State.mirrorReady_keeps
      | apply State.receive_keeps | intro _ | split | dsimp -iota only | dsimp only

theorem State.resyncProgress_keeps {z0 : State} {s : State} (hK : Keeps z0 s) :
    Keeps z0 (State.resyncProgress s) := by
  unfold State.resyncProgress
  with_reducible
    repeat' first
      | assumption | apply State.setFld_keeps | apply State.jobProgress_keeps | apply Keeps.ite | intro _ | split
      | dsimp -iota only | dsimp only

theorem State.resyncStep_keeps {z0 : State} {s : State} (hK : Keeps z0 s) :
    Keeps z0 (State.resyncStep s) := by
  unfold State.resyncStep
  with_reducible
    repeat' first
      | assumption | apply State.setFld_keeps | apply State.twinSend_keeps | apply State.sendWhole_keeps
      | apply State.resyncDone_keeps | apply State.resyncProgress_keeps | apply Keeps.ite | intro _ | split
      | dsimp -iota only | dsimp only | ((fail_if_success apply Keeps.same); refine Keeps.mk ?_)

theorem State.twinResync_keeps {z0 : State} {s : State} (hK : Keeps z0 s) :
    Keeps z0 (State.twinResync s) := by
  unfold State.twinResync
  with_reducible
    repeat' first
      | assumption | apply State.markStarted_keeps | apply State.resyncStep_keeps | apply Keeps.ite | intro _ | split
      | dsimp -iota only | dsimp only

theorem execTwinResync_keeps {z0 : State} {s : State} (hK : Keeps z0 s) :
    KeepsRes z0 (execTwinResync s) := by
  unfold execTwinResync
  with_reducible
    repeat' first
      | assumption | apply KeepsRes.next | apply State.settle_keeps | apply State.twinResync_keeps | intro _ | split
      | dsimp -iota only | dsimp only

theorem State.fetchReq_keeps {z0 : State} {s : State} {folio id : Nat} (hK : Keeps z0 s) :
    Keeps z0 (State.fetchReq s folio id) := by
  unfold State.fetchReq
  with_reducible
    repeat' first
      | assumption | apply State.twinSend_keeps | apply State.openEntry_keeps | apply Keeps.ite | intro _ | split
      | dsimp -iota only | dsimp only | ((fail_if_success apply Keeps.same); refine Keeps.mk ?_)

theorem execFetchReq_keeps {z0 : State} {h : TwinHead} {folio id : Nat} {s : State} (hK : Keeps z0 s) :
    KeepsRes z0 (execFetchReq h folio id s) := by
  unfold execFetchReq
  with_reducible
    repeat' first
      | assumption | apply KeepsRes.next | apply State.settle_keeps | apply State.receive_keeps
      | apply State.fetchReq_keeps | intro _ | split | dsimp -iota only | dsimp only

theorem State.fetchLost_keeps {z0 : State} {s : State} {j : FetchJob} (hK : Keeps z0 s) :
    Keeps z0 (State.fetchLost s j) := by
  unfold State.fetchLost
  with_reducible
    repeat' first
      | assumption | apply State.loseInk_keeps | apply State.stageLost_keeps | apply Keeps.ite | intro _ | split
      | dsimp -iota only | dsimp only | ((fail_if_success apply Keeps.same); refine Keeps.mk ?_)

theorem State.dropFetch_keeps {z0 : State} {s : State} {id : Nat} (hK : Keeps z0 s) :
    Keeps z0 (State.dropFetch s id) := by
  unfold State.dropFetch
  with_reducible
    repeat' first
      | assumption | intro _ | split | dsimp -iota only | dsimp only
      | ((fail_if_success apply Keeps.same); refine Keeps.mk ?_)

theorem State.lineRecover_keeps {z0 : State} {s : State} {j : FetchJob} {line : Nat} {cells : List Host.Cell} (hK : Keeps z0 s) :
    Keeps z0 (State.lineRecover s j line cells) := by
  unfold State.lineRecover
  with_reducible
    repeat' first
      | assumption | apply State.raiseD_keeps | apply State.applyLine_keeps | apply Keeps.ite | intro _ | split
      | dsimp -iota only | dsimp only

theorem State.fetchData_keeps {z0 : State} {s : State} {id : Nat} {good : Bool} {cells : List Host.Cell} (hK : Keeps z0 s) :
    Keeps z0 (State.fetchData s id good cells) := by
  unfold State.fetchData
  with_reducible
    repeat' first
      | assumption | apply State.raiseD_keeps | apply State.finishWhole_keeps | apply State.fetchLost_keeps
      | apply State.dropFetch_keeps | apply State.lineRecover_keeps | apply Keeps.ite | intro _ | split
      | dsimp -iota only | dsimp only | ((fail_if_success apply Keeps.same); refine Keeps.mk ?_)

theorem execFetchData_keeps {z0 : State} {h : TwinHead} {id : Nat} {good : Bool} {cells : List Host.Cell} {s : State} (hK : Keeps z0 s) :
    KeepsRes z0 (execFetchData h id good cells s) := by
  unfold execFetchData
  with_reducible
    repeat' first
      | assumption | apply KeepsRes.next | apply State.settle_keeps | apply State.receive_keeps
      | apply State.fetchData_keeps | intro _ | split | dsimp -iota only | dsimp only

theorem State.fetchNak_keeps {z0 : State} {s : State} {id status : Nat} (hK : Keeps z0 s) :
    Keeps z0 (State.fetchNak s id status) := by
  unfold State.fetchNak
  with_reducible
    repeat' first
      | assumption | apply State.raiseD_keeps | apply State.fetchLost_keeps | apply State.dropFetch_keeps
      | apply Keeps.ite | intro _ | split | dsimp -iota only | dsimp only
      | ((fail_if_success apply Keeps.same); refine Keeps.mk ?_)

theorem State.fetchTimeout_keeps {z0 : State} {s : State} {id : Nat} (hK : Keeps z0 s) :
    Keeps z0 (State.fetchTimeout s id) := by
  unfold State.fetchTimeout
  with_reducible
    repeat' first
      | assumption | apply State.raiseD_keeps | apply State.fetchLost_keeps | apply State.dropFetch_keeps
      | apply Keeps.ite | intro _ | split | dsimp -iota only | dsimp only

theorem execTwinFetchFail_keeps {z0 : State} {id : Nat} {s : State} (hK : Keeps z0 s) :
    KeepsRes z0 (execTwinFetchFail id s) := by
  unfold execTwinFetchFail
  with_reducible
    repeat' first
      | assumption | apply KeepsRes.next | apply State.settle_keeps | apply State.fetchTimeout_keeps | intro _ | split
      | dsimp -iota only | dsimp only

theorem State.journalCopy_keeps {z0 : State} {s : State} {index first : Nat} {recs : List JRec} (hK : Keeps z0 s) :
    Keeps z0 (State.journalCopy s index first recs) := by
  unfold State.journalCopy
  with_reducible
    repeat' first
      | assumption | apply State.setFolio_keeps | apply State.addInk_keeps | refine Keeps.foldl (fun _ _ _ => ?_) ?_
      | refine Keeps.foldlFst (fun _ _ _ => ?_) ?_ | refine Keeps.foldlSnd (fun _ _ _ => ?_) ?_ | apply Keeps.ite
      | intro _ | split | dsimp -iota only | dsimp only | ((fail_if_success apply Keeps.same); refine Keeps.mk ?_)

theorem State.journalReq_keeps {z0 : State} {s : State} {index : Nat} (hK : Keeps z0 s) :
    Keeps z0 (State.journalReq s index) := by
  unfold State.journalReq
  with_reducible
    repeat' first
      | assumption | apply State.twinSend_keeps | apply State.fetchNak_keeps | apply State.journalCopy_keeps | intro _
      | split | dsimp -iota only | dsimp only

theorem execJournalReq_keeps {z0 : State} {h : TwinHead} {index : Nat} {s : State} (hK : Keeps z0 s) :
    KeepsRes z0 (execJournalReq h index s) := by
  unfold execJournalReq
  with_reducible
    repeat' first
      | assumption | apply KeepsRes.next | apply State.settle_keeps | apply State.receive_keeps
      | apply State.journalReq_keeps | intro _ | split | dsimp -iota only | dsimp only

theorem State.checkpointNote_keeps {z0 : State} {s : State} {first : Nat} (hK : Keeps z0 s) :
    Keeps z0 (State.checkpointNote s first) := by
  unfold State.checkpointNote
  with_reducible
    repeat' first
      | assumption | intro _ | split | dsimp -iota only | dsimp only
      | ((fail_if_success apply Keeps.same); refine Keeps.mk ?_)

theorem execCheckpointNote_keeps {z0 : State} {h : TwinHead} {number first : Nat} {s : State} (hK : Keeps z0 s) :
    KeepsRes z0 (execCheckpointNote h number first s) := by
  unfold execCheckpointNote
  with_reducible
    repeat' first
      | assumption | apply KeepsRes.next | apply State.settle_keeps | apply State.receive_keeps
      | apply State.checkpointNote_keeps | intro _ | split | dsimp -iota only | dsimp only

theorem execHandover_keeps {z0 : State} {h : TwinHead} {final : Nat} {s : State} (hK : Keeps z0 s) :
    KeepsRes z0 (execHandover h final s) := by
  unfold execHandover
  repeat' first
    | with_reducible assumption
    | with_reducible exact Keeps.refl _
    | (with_reducible refine KeepsRes.next ?_)
    | (with_reducible refine State.settle_keeps ?_)
    | (with_reducible refine State.receive_keeps ?_ ?_)
    | (with_reducible refine Keeps.getD ?_ ?_)
    | (with_reducible refine Keeps.mapPair (by assumption) ?_)
    | (with_reducible refine Keeps.foldl (fun st x hst => ?_) ?_)
    | (with_reducible refine Keeps.foldlFst (fun st x hst => ?_) ?_)
    | (with_reducible refine Keeps.foldlSnd (fun st x hst => ?_) ?_)
    | (with_reducible refine Keeps.ite ?_ ?_)
    | intro _
    | split
    | dsimp -iota only
    | dsimp only
    | dsimp only [id]
    | exact memWf_nil _
    | (fail_if_success (with_reducible refine Keeps.same ?_)
       with_reducible refine Keeps.mk ?_ ?_ ?_ ?_ ?_ ?_ ?_ ?_ ?_ ?_ ?_ ?_ ?_ <;>
         first | with_reducible exact Nat.le_refl _ | with_reducible exact List.prefix_rfl | with_reducible exact fun hm => hm |
           with_reducible exact List.prefix_append _ _ | with_reducible exact Nat.le_succ _ | with_reducible exact memWriteN_wf | with_reducible exact memClear_wf |
           with_reducible exact memPaste_wf | with_reducible exact memWrite_wf | with_reducible exact memWriteLE_wf | with_reducible exact fun _ => rfl | exact fun _ => memWf_nil _ |
           with_reducible exact fun hm => memWriteN_wf (memWriteN_wf hm) | exact fun _ => rfl |
           exact fun hm => memFold_wf (fun m y hh => memWrite_wf hh) hm |
           exact fun _ => memFold_wf (fun m y hh => memWrite_wf hh) (memWf_nil _) | skip)

theorem State.handoverAck_keeps {z0 : State} {s : State} {epoch : Nat} (hK : Keeps z0 s) :
    Keeps z0 (State.handoverAck s epoch) := by
  unfold State.handoverAck
  with_reducible
    repeat' first
      | assumption | apply State.takeRole_keeps | apply State.endHandover_keeps | apply State.handbackBegin_keeps
      | apply Keeps.ite | intro _ | split | dsimp -iota only | dsimp only
      | ((fail_if_success apply Keeps.same); refine Keeps.mk ?_)

theorem execHandoverAck_keeps {z0 : State} {h : TwinHead} {s : State} (hK : Keeps z0 s) :
    KeepsRes z0 (execHandoverAck h s) := by
  unfold execHandoverAck
  with_reducible
    repeat' first
      | assumption | apply KeepsRes.next | apply State.settle_keeps | apply State.receive_keeps
      | apply State.handoverAck_keeps | intro _ | split | dsimp -iota only | dsimp only

theorem State.handoverTimeout_keeps {z0 : State} {s : State} (hK : Keeps z0 s) :
    Keeps z0 (State.handoverTimeout s) := by
  unfold State.handoverTimeout
  with_reducible
    repeat' first
      | assumption | apply State.takeRole_keeps | apply Keeps.ite | intro _ | split | dsimp -iota only | dsimp only
      | ((fail_if_success apply Keeps.same); refine Keeps.mk ?_)

theorem execHandoverAckTimeout_keeps {z0 : State} {s : State} (hK : Keeps z0 s) :
    KeepsRes z0 (execHandoverAckTimeout s) := by
  unfold execHandoverAckTimeout
  with_reducible
    repeat' first
      | assumption | apply KeepsRes.next | apply State.settle_keeps | apply State.handoverTimeout_keeps | intro _
      | split | dsimp -iota only | dsimp only

theorem State.leaseExpired_keeps {z0 : State} {s : State} (hK : Keeps z0 s) :
    Keeps z0 (State.leaseExpired s) := by
  unfold State.leaseExpired
  with_reducible
    repeat' first
      | assumption | apply State.setFlag_keeps | apply State.raise_keeps | apply Keeps.ite | intro _ | split
      | dsimp -iota only | dsimp only | ((fail_if_success apply Keeps.same); refine Keeps.mk ?_)

theorem execLeaseExpired_keeps {z0 : State} {s : State} (hK : Keeps z0 s) :
    KeepsRes z0 (execLeaseExpired s) := by
  unfold execLeaseExpired
  with_reducible
    repeat' first
      | assumption | apply KeepsRes.next | apply State.settle_keeps | apply State.leaseExpired_keeps | intro _ | split
      | dsimp -iota only | dsimp only

theorem State.promote_keeps {z0 : State} {s : State} (hK : Keeps z0 s) :
    Keeps z0 (State.promote s) := by
  unfold State.promote
  with_reducible
    repeat' first
      | assumption | apply State.raise_keeps | apply State.takeRole_keeps | apply State.tookOver_keeps
      | apply Keeps.ite | intro _ | split | dsimp -iota only | dsimp only
      | ((fail_if_success apply Keeps.same); refine Keeps.mk ?_)

theorem execPromoted_keeps {z0 : State} {s : State} (hK : Keeps z0 s) :
    KeepsRes z0 (execPromoted s) := by
  unfold execPromoted
  with_reducible
    repeat' first
      | assumption | apply KeepsRes.next | apply State.settle_keeps | apply State.promote_keeps | intro _ | split
      | dsimp -iota only | dsimp only

theorem State.solo_keeps {z0 : State} {s : State} (hK : Keeps z0 s) :
    Keeps z0 (State.solo s) := by
  unfold State.solo
  with_reducible
    repeat' first
      | assumption | apply State.takeRole_keeps | apply State.tookOver_keeps | apply Keeps.ite | intro _ | split
      | dsimp -iota only | dsimp only

theorem execSoloDeclaration_keeps {z0 : State} {s : State} (hK : Keeps z0 s) :
    KeepsRes z0 (execSoloDeclaration s) := by
  unfold execSoloDeclaration
  with_reducible
    repeat' first
      | assumption | apply KeepsRes.next | apply State.settle_keeps | apply State.solo_keeps | intro _ | split
      | dsimp -iota only | dsimp only

theorem State.yieldNow_keeps {z0 : State} {s : State} (hK : Keeps z0 s) :
    Keeps z0 (State.yieldNow s) := by
  unfold State.yieldNow
  with_reducible
    repeat' first
      | assumption | apply State.epochWrite_keeps | apply State.setTwinLink_keeps | apply State.sendHello_keeps
      | intro _ | split | dsimp -iota only | dsimp only | ((fail_if_success apply Keeps.same); refine Keeps.mk ?_)

theorem execTwinYield_keeps {z0 : State} {s : State} (hK : Keeps z0 s) :
    KeepsRes z0 (execTwinYield s) := by
  unfold execTwinYield
  with_reducible
    repeat' first
      | assumption | apply KeepsRes.next | apply State.settle_keeps | apply State.yieldNow_keeps | apply Keeps.ite
      | intro _ | split | dsimp -iota only | dsimp only

theorem State.secondBuilt_keeps {z0 : State} {s : State} {f : Nat} (hK : Keeps z0 s) :
    Keeps z0 (State.secondBuilt s f) := by
  unfold State.secondBuilt
  with_reducible
    repeat' first
      | assumption | apply State.setFlag_keeps | apply State.buildSecond_keeps | apply Keeps.ite | intro _ | split
      | dsimp -iota only | dsimp only | ((fail_if_success apply Keeps.same); refine Keeps.mk ?_)

theorem execSecondCopyBuilt_keeps {z0 : State} {f : Nat} {s : State} (hK : Keeps z0 s) :
    KeepsRes z0 (execSecondCopyBuilt f s) := by
  unfold execSecondCopyBuilt
  with_reducible
    repeat' first
      | assumption | apply KeepsRes.next | apply State.settle_keeps | apply State.secondBuilt_keeps | intro _ | split
      | dsimp -iota only | dsimp only

end Sys2Proof.Machine
end

