-- ==== Sys2Proof/Laws/KeepQuiesce.lean ====
section
/-! SUPPORT. What the operations of Machine/Quiesce.lean keep. -/

set_option Elab.async false

namespace Sys2Proof.Machine

theorem State.freezeLinks_keeps {z0 : State} {s : State} (hK : Keeps z0 s) :
    Keeps z0 (State.freezeLinks s) := by
  unfold State.freezeLinks
  with_reducible
    repeat' first
      | assumption | apply State.setFlag_keeps | apply State.setLink_keeps | refine Keeps.foldl (fun _ _ _ => ?_) ?_
      | refine Keeps.foldlFst (fun _ _ _ => ?_) ?_ | refine Keeps.foldlSnd (fun _ _ _ => ?_) ?_ | intro _ | split
      | dsimp -iota only | dsimp only | ((fail_if_success apply Keeps.same); refine Keeps.mk ?_)

theorem State.pathClear_keeps {z0 : State} {s : State} (hK : Keeps z0 s) :
    Keeps z0 (State.pathClear s) := by
  unfold State.pathClear
  with_reducible
    repeat' first
      | assumption | apply State.barriers_keeps | intro _ | split | dsimp -iota only | dsimp only
      | ((fail_if_success apply Keeps.same); refine Keeps.mk ?_)

theorem State.stageEnd_keeps {z0 : State} {s : State} (hK : Keeps z0 s) :
    Keeps z0 (State.stageEnd s) := by
  unfold State.stageEnd
  with_reducible
    repeat' first
      | assumption | apply State.entryCount_keeps | apply State.closeRun_keeps
      | refine Keeps.foldl (fun _ _ _ => ?_) ?_ | refine Keeps.foldlFst (fun _ _ _ => ?_) ?_
      | refine Keeps.foldlSnd (fun _ _ _ => ?_) ?_ | apply Keeps.ite | intro _ | split | dsimp -iota only | dsimp only
      | ((fail_if_success apply Keeps.same); refine Keeps.mk ?_)

theorem State.fetchEnd_keeps {z0 : State} {s : State} (hK : Keeps z0 s) :
    Keeps z0 (State.fetchEnd s) := by
  unfold State.fetchEnd
  with_reducible
    repeat' first
      | assumption | intro _ | split | dsimp -iota only | dsimp only
      | ((fail_if_success apply Keeps.same); refine Keeps.mk ?_)

theorem State.jobsEnd_keeps {z0 : State} {s : State} (hK : Keeps z0 s) :
    Keeps z0 (State.jobsEnd s) := by
  unfold State.jobsEnd
  with_reducible
    repeat' first
      | assumption | apply State.endJob_keeps | apply State.swapCancel_keeps | refine Keeps.foldl (fun _ _ _ => ?_) ?_
      | refine Keeps.foldlFst (fun _ _ _ => ?_) ?_ | refine Keeps.foldlSnd (fun _ _ _ => ?_) ?_ | intro _ | split
      | dsimp -iota only | dsimp only

theorem State.prepareEnd_keeps {z0 : State} {s : State} (hK : Keeps z0 s) :
    Keeps z0 (State.prepareEnd s) := by
  unfold State.prepareEnd
  with_reducible
    repeat' first
      | assumption | apply State.setSlot_keeps | refine Keeps.foldl (fun _ _ _ => ?_) ?_
      | refine Keeps.foldlFst (fun _ _ _ => ?_) ?_ | refine Keeps.foldlSnd (fun _ _ _ => ?_) ?_ | intro _ | split
      | dsimp -iota only | dsimp only

theorem State.wakeAll_keeps {z0 : State} {s : State} (hK : Keeps z0 s) :
    Keeps z0 (State.wakeAll s) := by
  unfold State.wakeAll
  with_reducible
    repeat' first
      | assumption | apply State.setFlag_keeps | refine Keeps.foldl (fun _ _ _ => ?_) ?_
      | refine Keeps.foldlFst (fun _ _ _ => ?_) ?_ | refine Keeps.foldlSnd (fun _ _ _ => ?_) ?_ | intro _ | split
      | dsimp -iota only | dsimp only

theorem State.ctxsEnd_keeps {z0 : State} {s : State} (hK : Keeps z0 s) :
    Keeps z0 (State.ctxsEnd s) := by
  unfold State.ctxsEnd
  with_reducible
    repeat' first
      | assumption | apply State.finishCtx_keeps | refine Keeps.foldl (fun _ _ _ => ?_) ?_
      | refine Keeps.foldlFst (fun _ _ _ => ?_) ?_ | refine Keeps.foldlSnd (fun _ _ _ => ?_) ?_ | intro _ | split
      | dsimp -iota only | dsimp only

theorem State.quiesce_keeps {z0 : State} {s : State} (hK : Keeps z0 s) :
    Keeps z0 (State.quiesce s) := by
  unfold State.quiesce
  with_reducible
    repeat' first
      | assumption | apply State.rollEnd_keeps | apply State.mergeDrain_keeps | apply State.cacheStrike_keeps
      | apply State.twinBothDown_keeps | apply State.dropQueues_keeps | apply State.freezeLinks_keeps
      | apply State.pathClear_keeps | apply State.stageEnd_keeps | apply State.fetchEnd_keeps
      | apply State.jobsEnd_keeps | apply State.ctxsEnd_keeps | intro _ | split | dsimp -iota only | dsimp only

end Sys2Proof.Machine
end

