-- ==== Sys2Proof/Laws/KeepStrike.lean ====
section
/-! SUPPORT. What the operations of Machine/Strike.lean keep. -/

set_option Elab.async false

namespace Sys2Proof.Machine

theorem State.chgEn_keeps {z0 : State} {s : State} {on : Bool} (hK : Keeps z0 s) :
    Keeps z0 (State.chgEn s on) := by
  unfold State.chgEn
  with_reducible
    repeat' first
      | assumption | apply State.setFlag_keeps | apply State.send_keeps | apply Keeps.ite | intro _ | split
      | dsimp -iota only | dsimp only

theorem State.holdupEn_keeps {z0 : State} {s : State} {on : Bool} (hK : Keeps z0 s) :
    Keeps z0 (State.holdupEn s on) := by
  unfold State.holdupEn
  with_reducible
    repeat' first
      | assumption | apply State.setFlag_keeps | apply State.send_keeps | apply Keeps.ite | intro _ | split
      | dsimp -iota only | dsimp only

theorem State.testEn_keeps {z0 : State} {s : State} {on : Bool} (hK : Keeps z0 s) :
    Keeps z0 (State.testEn s on) := by
  unfold State.testEn
  with_reducible
    repeat' first
      | assumption | apply State.setFlag_keeps | apply State.send_keeps | apply Keeps.ite | intro _ | split
      | dsimp -iota only | dsimp only

theorem State.setSent_keeps {z0 : State} {s : State} {v : Nat} (hK : Keeps z0 s) :
    Keeps z0 (State.setSent s v) := by
  unfold State.setSent
  with_reducible
    repeat' first
      | assumption | apply State.setFld_keeps | intro _ | split | dsimp -iota only | dsimp only

theorem State.sentNormal_keeps {z0 : State} {s : State} (hK : Keeps z0 s) :
    Keeps z0 (State.sentNormal s) := by
  unfold State.sentNormal
  with_reducible
    repeat' first
      | assumption | apply State.setSent_keeps | apply Keeps.ite | intro _ | split | dsimp -iota only | dsimp only

theorem State.railsDown_keeps {z0 : State} {s : State} (hK : Keeps z0 s) :
    Keeps z0 (State.railsDown s) := by
  unfold State.railsDown
  with_reducible
    repeat' first
      | assumption | apply State.setFlag_keeps | apply State.send_keeps | refine Keeps.foldl (fun _ _ _ => ?_) ?_
      | refine Keeps.foldlFst (fun _ _ _ => ?_) ?_ | refine Keeps.foldlSnd (fun _ _ _ => ?_) ?_ | intro _ | split
      | dsimp -iota only | dsimp only | ((fail_if_success apply Keeps.same); refine Keeps.mk ?_)

theorem State.disarm_keeps {z0 : State} {s : State} (hK : Keeps z0 s) :
    Keeps z0 (State.disarm s) := by
  unfold State.disarm
  with_reducible
    repeat' first
      | assumption | intro _ | split | dsimp -iota only | dsimp only
      | ((fail_if_success apply Keeps.same); refine Keeps.mk ?_)

theorem State.powerCycle_keeps {z0 : State} {s : State} (hK : Keeps z0 s) :
    Keeps z0 (State.powerCycle s) := by
  unfold State.powerCycle
  with_reducible
    repeat' first
      | assumption | apply State.send_keeps | apply State.disarm_keeps | intro _ | split | dsimp -iota only
      | dsimp only

theorem State.abortStart_keeps {z0 : State} {s : State} (hK : Keeps z0 s) :
    Keeps z0 (State.abortStart s) := by
  unfold State.abortStart
  with_reducible
    repeat' first
      | assumption | apply Pass.step_keeps | apply State.railsDown_keeps | apply State.disarm_keeps
      | apply State.powerCycle_keeps | intro _ | split | dsimp -iota only | dsimp only
      | ((fail_if_success apply Keeps.same); refine Keeps.mk ?_)

theorem State.distEnd_keeps {z0 : State} {s : State} (hK : Keeps z0 s) :
    Keeps z0 (State.distEnd s) := by
  unfold State.distEnd
  with_reducible
    repeat' first
      | assumption | apply State.sample_keeps | apply Keeps.ite | intro _ | split | dsimp -iota only | dsimp only
      | ((fail_if_success apply Keeps.same); refine Keeps.mk ?_)

theorem State.sagStop_keeps {z0 : State} {s : State} (hK : Keeps z0 s) :
    Keeps z0 (State.sagStop s) := by
  unfold State.sagStop
  with_reducible
    repeat' first
      | assumption | apply State.setFlag_keeps | apply State.sample_keeps | apply State.setCeiling_keeps
      | apply Keeps.ite | intro _ | split | dsimp -iota only | dsimp only
      | ((fail_if_success apply Keeps.same); refine Keeps.mk ?_)

theorem State.strikeStart_keeps {z0 : State} {s : State} {cause : Nat} (hK : Keeps z0 s) :
    Keeps z0 (State.strikeStart s cause) := by
  unfold State.strikeStart
  with_reducible
    repeat' first
      | assumption | apply State.setFld_keeps | apply State.raise_keeps | apply State.strikeBegin_keeps
      | apply State.sceneStrike_keeps | apply State.chgEn_keeps | apply State.holdupEn_keeps
      | apply State.testEn_keeps | apply State.setSent_keeps | apply State.distEnd_keeps | apply State.sagStop_keeps
      | apply Keeps.ite | intro _ | split | dsimp -iota only | dsimp only
      | ((fail_if_success apply Keeps.same); refine Keeps.mk ?_)

theorem State.strike_keeps {z0 : State} {s : State} {cause : Nat} (hK : Keeps z0 s) :
    Keeps z0 (State.strike s cause) := by
  unfold State.strike
  with_reducible
    repeat' first
      | assumption | apply Pass.step_keeps | apply State.prepareEnd_keeps | apply State.wakeAll_keeps
      | apply State.quiesce_keeps | apply State.abortStart_keeps | apply State.strikeStart_keeps | apply Keeps.ite
      | intro _ | split | dsimp -iota only | dsimp only | ((fail_if_success apply Keeps.same); refine Keeps.mk ?_)

theorem State.strikeHold_keeps {z0 : State} {s : State} {quire i : Nat} {fs : FolioSlot} (hK : Keeps z0 s) :
    Keeps z0 (State.strikeHold s quire i fs) := by
  unfold State.strikeHold
  with_reducible
    repeat' first
      | assumption | apply State.setFolio_keeps | apply State.holdSlot_keeps | apply Keeps.ite | intro _ | split
      | dsimp -iota only | dsimp only | ((fail_if_success apply Keeps.same); refine Keeps.mk ?_)

theorem State.strikeHolds_keeps {z0 : State} {s : State} {quire : Nat} {a0 : Nat} {a1 : List FolioSlot} (hK : Keeps z0 s) :
    Keeps z0 (State.strikeHolds s quire a0 a1) := by
  fun_induction State.strikeHolds s quire a0 a1
  all_goals
    with_reducible
      repeat' first
        | assumption | apply State.strikeHold_keeps | apply_assumption | intro _ | split | dsimp -iota only | dsimp only
  
theorem State.strikeQuire_keeps {z0 : State} {s : State} {g : Group} {line : Nat} {fs : List Nat} (hK : Keeps z0 s) :
    Keeps z0 (State.strikeQuire s g line fs) := by
  unfold State.strikeQuire
  with_reducible
    repeat' first
      | assumption | apply State.setFld_keeps | apply State.jAppend_keeps | apply State.putHeaders_keeps
      | apply State.strike_keeps | apply State.strikeHolds_keeps | intro _ | split | dsimp -iota only | dsimp only

theorem State.strikeQuires_keeps {z0 : State} {s : State} {g : Group} {line : Nat} {left : List Nat} {a0 : Nat} (hK : Keeps z0 s) :
    Keeps z0 (State.strikeQuires s g line left a0).1 := by
  fun_induction State.strikeQuires s g line left a0
  all_goals
    with_reducible
      repeat' first
        | assumption | apply State.take_keeps | apply State.strikeQuire_keeps | apply_assumption | intro _ | split
        | dsimp -iota only | dsimp only
  
theorem State.strikeQuires_keepsE {z0 : State} {s : State} {g : Group} {line : Nat} {left : List Nat} {a0 : Nat} {tE : State} {uE} (hE : State.strikeQuires s g line left a0 = (tE, uE)) (hK : Keeps z0 s) :
    Keeps z0 tE := by
  have k := State.strikeQuires_keeps (z0 := z0) (s := s) (g := g) (line := line) (left := left) (a0 := a0)  hK
  rw [hE] at k
  exact k

theorem State.strikeGroup_keeps {z0 : State} {s : State} {g : Group} {left : List Nat} (hK : Keeps z0 s) :
    Keeps z0 (State.strikeGroup s g left).1 := by
  unfold State.strikeGroup
  with_reducible
    repeat' first
      | assumption | apply State.jAppend_keeps | apply State.setGroup_keeps | apply State.strikeQuires_keeps
      | refine State.strikeQuires_keepsE (by assumption) ?_ | apply Keeps.ite | intro _ | split | dsimp -iota only
      | dsimp only | ((fail_if_success apply Keeps.same); refine Keeps.mk ?_)

theorem State.strikeGroup_keepsE {z0 : State} {s : State} {g : Group} {left : List Nat} {tE : State} {uE} (hE : State.strikeGroup s g left = (tE, uE)) (hK : Keeps z0 s) :
    Keeps z0 tE := by
  have k := State.strikeGroup_keeps (z0 := z0) (s := s) (g := g) (left := left)  hK
  rw [hE] at k
  exact k

theorem State.strikeGroups_keeps {z0 : State} {s : State} {a0 : List Group} {a1 : List Nat} (hK : Keeps z0 s) :
    Keeps z0 (State.strikeGroups s a0 a1) := by
  fun_induction State.strikeGroups s a0 a1
  all_goals
    with_reducible
      repeat' first
        | assumption | apply State.strikeGroup_keeps | refine State.strikeGroup_keepsE (by assumption) ?_
        | apply_assumption | intro _ | split | dsimp -iota only | dsimp only
  
theorem State.strikeWrite_keeps {z0 : State} {s : State} (hK : Keeps z0 s) :
    Keeps z0 (State.strikeWrite s) := by
  unfold State.strikeWrite
  with_reducible
    repeat' first
      | assumption | apply State.strikeGroups_keeps | refine Keeps.foldl (fun _ _ _ => ?_) ?_
      | refine Keeps.foldlFst (fun _ _ _ => ?_) ?_ | refine Keeps.foldlSnd (fun _ _ _ => ?_) ?_ | apply Keeps.ite
      | intro _ | split | dsimp -iota only | dsimp only | ((fail_if_success apply Keeps.same); refine Keeps.mk ?_)

theorem State.strikeJournal_keeps {z0 : State} {s : State} (hK : Keeps z0 s) :
    Keeps z0 (State.strikeJournal s) := by
  unfold State.strikeJournal
  with_reducible
    repeat' first
      | assumption | apply State.jClose_keeps | apply State.jReplace_keeps | apply State.journalGood_keeps
      | refine Keeps.foldl (fun _ _ _ => ?_) ?_ | refine Keeps.foldlFst (fun _ _ _ => ?_) ?_
      | refine Keeps.foldlSnd (fun _ _ _ => ?_) ?_ | intro _ | split | dsimp -iota only | dsimp only
      | ((fail_if_success apply Keeps.same); refine Keeps.mk ?_)

theorem State.volatileLost_keeps {z0 : State} {s : State} (hK : Keeps z0 s) :
    Keeps z0 (State.volatileLost s) := by
  unfold State.volatileLost
  repeat' first
    | with_reducible assumption
    | with_reducible exact Keeps.refl _
    | (with_reducible refine Keeps.getD ?_ ?_)
    | (with_reducible refine Keeps.mapPair (by assumption) ?_)
    | (with_reducible refine Keeps.foldl (fun st x hst => ?_) ?_)
    | (with_reducible refine Keeps.foldlFst (fun st x hst => ?_) ?_)
    | (with_reducible refine Keeps.foldlSnd (fun st x hst => ?_) ?_)
    | (with_reducible refine Keeps.ite ?_ ?_)
    | intro _
    | split
    | dsimp -iota only
    | dsimp only
    | dsimp only [id]
    | exact memWf_nil _
    | (fail_if_success (with_reducible refine Keeps.same ?_)
       with_reducible refine Keeps.mk ?_ ?_ ?_ ?_ ?_ ?_ ?_ ?_ ?_ ?_ ?_ ?_ ?_ <;>
         first | with_reducible exact Nat.le_refl _ | with_reducible exact List.prefix_rfl | with_reducible exact fun hm => hm |
           with_reducible exact List.prefix_append _ _ | with_reducible exact Nat.le_succ _ | with_reducible exact memWriteN_wf | with_reducible exact memClear_wf |
           with_reducible exact memPaste_wf | with_reducible exact memWrite_wf | with_reducible exact memWriteLE_wf | with_reducible exact fun _ => rfl | exact fun _ => memWf_nil _ |
           with_reducible exact fun hm => memWriteN_wf (memWriteN_wf hm) | exact fun _ => rfl |
           exact fun hm => memFold_wf (fun m y hh => memWrite_wf hh) hm |
           exact fun _ => memFold_wf (fun m y hh => memWrite_wf hh) (memWf_nil _) | skip)

theorem State.releasePlace_keeps {z0 : State} {s : State} (hK : Keeps z0 s) :
    Keeps z0 (State.releasePlace s) := by
  unfold State.releasePlace
  with_reducible
    repeat' first
      | assumption | apply State.setFlag_keeps | apply Pass.step_keeps | apply State.sceneNow_keeps
      | apply State.holdupEn_keeps | apply State.setSent_keeps | apply State.sentNormal_keeps
      | apply State.volatileLost_keeps | refine Keeps.foldl (fun _ _ _ => ?_) ?_
      | refine Keeps.foldlFst (fun _ _ _ => ?_) ?_ | refine Keeps.foldlSnd (fun _ _ _ => ?_) ?_ | apply Keeps.ite
      | intro _ | split | dsimp -iota only | dsimp only | ((fail_if_success apply Keeps.same); refine Keeps.mk ?_)

theorem State.releaseCycle_keeps {z0 : State} {s : State} {cause : Nat} (hK : Keeps z0 s) :
    Keeps z0 (State.releaseCycle s cause) := by
  unfold State.releaseCycle
  with_reducible
    repeat' first
      | assumption | apply State.holdupEn_keeps | apply State.powerCycle_keeps | apply Keeps.ite | intro _ | split
      | dsimp -iota only | dsimp only | ((fail_if_success apply Keeps.same); refine Keeps.mk ?_)

theorem State.strikeFinish_keeps {z0 : State} {s : State} {energy : Nat} (hK : Keeps z0 s) :
    Keeps z0 (State.strikeFinish s energy) := by
  unfold State.strikeFinish
  with_reducible
    repeat' first
      | assumption | apply State.setFld_keeps | apply State.raise_keeps | apply State.sample_keeps
      | apply State.strikeEnd_keeps | apply State.releasePlace_keeps | apply State.releaseCycle_keeps
      | apply Keeps.ite | intro _ | split | dsimp -iota only | dsimp only
      | ((fail_if_success apply Keeps.same); refine Keeps.mk ?_)

theorem State.strikeDone_keeps {z0 : State} {s : State} {energy : Nat} (hK : Keeps z0 s) :
    Keeps z0 (State.strikeDone s energy) := by
  unfold State.strikeDone
  with_reducible
    repeat' first
      | assumption | apply State.flashRegs_keeps | apply State.strikeLog_keeps | apply State.strikeWrite_keeps
      | apply State.strikeJournal_keeps | apply State.strikeFinish_keeps | apply Keeps.ite | intro _ | split
      | dsimp -iota only | dsimp only

theorem execStrikeDone_keeps {z0 : State} {energy : Nat} {s : State} (hK : Keeps z0 s) :
    KeepsRes z0 (execStrikeDone energy s) := by
  unfold execStrikeDone
  with_reducible
    repeat' first
      | assumption | apply KeepsRes.next | apply State.settle_keeps | apply State.strikeDone_keeps | intro _ | split
      | dsimp -iota only | dsimp only

end Sys2Proof.Machine
end

