-- ==== Sys2Proof/Laws/KeepSentinel.lean ====
section
/-! SUPPORT. What the operations of Machine/Sentinel.lean keep. -/

set_option Elab.async false

namespace Sys2Proof.Machine

theorem State.senseBulk_keeps {z0 : State} {s : State} {m : Mains} (hK : Keeps z0 s) :
    Keeps z0 (State.senseBulk s m) := by
  unfold State.senseBulk
  with_reducible
    repeat' first
      | assumption | apply State.setFld_keeps | apply State.setFlag_keeps | apply State.disarm_keeps | apply Keeps.ite
      | intro _ | split | dsimp -iota only | dsimp only | ((fail_if_success apply Keeps.same); refine Keeps.mk ?_)

theorem State.busyNow_keeps {z0 : State} {s : State} (hK : Keeps z0 s) :
    Keeps z0 (State.busyNow s) := by
  unfold State.busyNow
  with_reducible
    repeat' first
      | assumption | intro _ | split | dsimp -iota only | dsimp only
      | ((fail_if_success apply Keeps.same); refine Keeps.mk ?_)

theorem State.sentFollow_keeps {z0 : State} {s : State} (hK : Keeps z0 s) :
    Keeps z0 (State.sentFollow s) := by
  unfold State.sentFollow
  with_reducible
    repeat' first
      | assumption | apply State.sentNormal_keeps | apply Keeps.ite | intro _ | split | dsimp -iota only | dsimp only

theorem State.disturbance_keeps {z0 : State} {s : State} {m : Mains} (hK : Keeps z0 s) :
    Keeps z0 (State.disturbance s m) := by
  unfold State.disturbance
  with_reducible
    repeat' first
      | assumption | apply State.senseBulk_keeps | apply State.busyNow_keeps | apply State.sentFollow_keeps
      | apply Keeps.ite | intro _ | split | dsimp -iota only | dsimp only
      | ((fail_if_success apply Keeps.same); refine Keeps.mk ?_)

theorem execDisturbance_keeps {z0 : State} {m : Mains} {s : State} (hK : Keeps z0 s) :
    KeepsRes z0 (execDisturbance m s) := by
  unfold execDisturbance
  with_reducible
    repeat' first
      | assumption | apply KeepsRes.next | apply State.disturbance_keeps | intro _ | split | dsimp -iota only
      | dsimp only

theorem State.blip_keeps {z0 : State} {s : State} {m : Mains} (hK : Keeps z0 s) :
    Keeps z0 (State.blip s m) := by
  unfold State.blip
  with_reducible
    repeat' first
      | assumption | apply State.sample_keeps | apply State.distEnd_keeps | apply State.senseBulk_keeps
      | apply State.busyNow_keeps | apply State.sentFollow_keeps | apply Keeps.ite | intro _ | split
      | dsimp -iota only | dsimp only

theorem execBlip_keeps {z0 : State} {m : Mains} {s : State} (hK : Keeps z0 s) :
    KeepsRes z0 (execBlip m s) := by
  unfold execBlip
  with_reducible
    repeat' first
      | assumption | apply KeepsRes.next | apply State.blip_keeps | intro _ | split | dsimp -iota only | dsimp only

theorem State.sagEnter_keeps {z0 : State} {s : State} {m : Mains} (hK : Keeps z0 s) :
    Keeps z0 (State.sagEnter s m) := by
  unfold State.sagEnter
  with_reducible
    repeat' first
      | assumption | apply State.setFlag_keeps | apply State.raise_keeps | apply State.setCeiling_keeps
      | apply State.senseBulk_keeps | apply State.busyNow_keeps | apply State.sentFollow_keeps
      | refine Keeps.getD ?_ ?_ | apply Keeps.ite | intro _ | split | dsimp -iota only | dsimp only
      | ((fail_if_success apply Keeps.same); refine Keeps.mk ?_)

theorem execSagEnter_keeps {z0 : State} {m : Mains} {s : State} (hK : Keeps z0 s) :
    KeepsRes z0 (execSagEnter m s) := by
  unfold execSagEnter
  with_reducible
    repeat' first
      | assumption | apply KeepsRes.next | apply State.settle_keeps | apply State.sagEnter_keeps | intro _ | split
      | dsimp -iota only | dsimp only

theorem State.sagExit_keeps {z0 : State} {s : State} {m : Mains} (hK : Keeps z0 s) :
    Keeps z0 (State.sagExit s m) := by
  unfold State.sagExit
  with_reducible
    repeat' first
      | assumption | apply State.setFlag_keeps | apply State.raise_keeps | apply State.sample_keeps
      | apply State.setCeiling_keeps | apply State.distEnd_keeps | apply State.senseBulk_keeps
      | apply State.busyNow_keeps | apply State.sentFollow_keeps | apply Keeps.ite | intro _ | split
      | dsimp -iota only | dsimp only | ((fail_if_success apply Keeps.same); refine Keeps.mk ?_)

theorem execSagExit_keeps {z0 : State} {m : Mains} {s : State} (hK : Keeps z0 s) :
    KeepsRes z0 (execSagExit m s) := by
  unfold execSagExit
  with_reducible
    repeat' first
      | assumption | apply KeepsRes.next | apply State.settle_keeps | apply State.sagExit_keeps | intro _ | split
      | dsimp -iota only | dsimp only

theorem State.sagHoldEnd_keeps {z0 : State} {s : State} (hK : Keeps z0 s) :
    Keeps z0 (State.sagHoldEnd s) := by
  unfold State.sagHoldEnd
  with_reducible
    repeat' first
      | assumption | apply State.setFlag_keeps | apply State.setCeiling_keeps | apply State.busyNow_keeps
      | apply Keeps.ite | intro _ | split | dsimp -iota only | dsimp only
      | ((fail_if_success apply Keeps.same); refine Keeps.mk ?_)

theorem execSagHoldEnd_keeps {z0 : State} {s : State} (hK : Keeps z0 s) :
    KeepsRes z0 (execSagHoldEnd s) := by
  unfold execSagHoldEnd
  with_reducible
    repeat' first
      | assumption | apply KeepsRes.next | apply State.settle_keeps | apply State.sagHoldEnd_keeps | intro _ | split
      | dsimp -iota only | dsimp only

theorem State.drop_keeps {z0 : State} {s : State} {m : Mains} (hK : Keeps z0 s) :
    Keeps z0 (State.drop s m) := by
  unfold State.drop
  with_reducible
    repeat' first
      | assumption | apply State.raise_keeps | apply State.strike_keeps | apply State.senseBulk_keeps
      | apply Keeps.ite | intro _ | split | dsimp -iota only | dsimp only

theorem execDrop_keeps {z0 : State} {m : Mains} {s : State} (hK : Keeps z0 s) :
    KeepsRes z0 (execDrop m s) := by
  unfold execDrop
  with_reducible
    repeat' first
      | assumption | apply KeepsRes.next | apply State.settle_keeps | apply State.drop_keeps | intro _ | split
      | dsimp -iota only | dsimp only

theorem execRearm_keeps {z0 : State} {value : Nat} {s : State} (hK : Keeps z0 s) :
    KeepsRes z0 (execRearm value s) := by
  unfold execRearm
  with_reducible
    repeat' first
      | assumption | apply KeepsRes.next | apply State.setFld_keeps | apply Keeps.ite | intro _ | split
      | dsimp -iota only | dsimp only

theorem State.charge_keeps {z0 : State} {s : State} (hK : Keeps z0 s) :
    Keeps z0 (State.charge s) := by
  unfold State.charge
  with_reducible
    repeat' first
      | assumption | apply State.chgEn_keeps | apply Keeps.ite | intro _ | split | dsimp -iota only | dsimp only

theorem State.senseBank_keeps {z0 : State} {s : State} {count : Nat} (hK : Keeps z0 s) :
    Keeps z0 (State.senseBank s count) := by
  unfold State.senseBank
  with_reducible
    repeat' first
      | assumption | apply State.setFld_keeps | apply State.disarm_keeps | apply State.charge_keeps | apply Keeps.ite
      | intro _ | split | dsimp -iota only | dsimp only | ((fail_if_success apply Keeps.same); refine Keeps.mk ?_)

theorem State.holdupTest_keeps {z0 : State} {s : State} {go : Bool} (hK : Keeps z0 s) :
    Keeps z0 (State.holdupTest s go) := by
  unfold State.holdupTest
  with_reducible
    repeat' first
      | assumption | apply State.rehearsalEnd_keeps | apply State.chgEn_keeps | apply State.testEn_keeps
      | refine Keeps.getD ?_ ?_ | apply Keeps.ite | intro _ | split | dsimp -iota only | dsimp only
      | ((fail_if_success apply Keeps.same); refine Keeps.mk ?_)

theorem execHoldupTest_keeps {z0 : State} {go : Bool} {s : State} (hK : Keeps z0 s) :
    KeepsRes z0 (execHoldupTest go s) := by
  unfold execHoldupTest
  with_reducible
    repeat' first
      | assumption | apply KeepsRes.next | apply State.holdupTest_keeps | intro _ | split | dsimp -iota only
      | dsimp only

theorem State.testLate_keeps {z0 : State} {s : State} (hK : Keeps z0 s) :
    Keeps z0 (State.testLate s) := by
  unfold State.testLate
  with_reducible
    repeat' first
      | assumption | apply State.raise_keeps | apply Keeps.ite | intro _ | split | dsimp -iota only | dsimp only
      | ((fail_if_success apply Keeps.same); refine Keeps.mk ?_)

theorem execHoldupTestLate_keeps {z0 : State} {s : State} (hK : Keeps z0 s) :
    KeepsRes z0 (execHoldupTestLate s) := by
  unfold execHoldupTestLate
  with_reducible
    repeat' first
      | assumption | apply KeepsRes.next | apply State.testLate_keeps | intro _ | split | dsimp -iota only
      | dsimp only

theorem State.publishE_keeps {z0 : State} {s : State} {mJ : Nat} (hK : Keeps z0 s) :
    Keeps z0 (State.publishE s mJ) := by
  unfold State.publishE
  with_reducible
    repeat' first
      | assumption | apply State.setFld_keeps | apply State.setFlag_keeps | apply State.setCurtain_keeps | intro _
      | split | dsimp -iota only | dsimp only | ((fail_if_success apply Keeps.same); refine Keeps.mk ?_)

theorem State.takeEsave_keeps {z0 : State} {s : State} (hK : Keeps z0 s) :
    Keeps z0 (State.takeEsave s) := by
  unfold State.takeEsave
  with_reducible
    repeat' first
      | assumption | apply State.setFld_keeps | apply Keeps.ite | intro _ | split | dsimp -iota only | dsimp only
      | ((fail_if_success apply Keeps.same); refine Keeps.mk ?_)

theorem State.testResult_keeps {z0 : State} {s : State} {esr cap : Nat} (hK : Keeps z0 s) :
    Keeps z0 (State.testResult s esr cap) := by
  unfold State.testResult
  with_reducible
    repeat' first
      | assumption | apply State.setFld_keeps | apply State.nextFresh_keeps | apply State.raise_keeps
      | apply State.testEn_keeps | apply State.charge_keeps | apply State.testLate_keeps | apply State.publishE_keeps
      | apply State.takeEsave_keeps | apply Keeps.ite | intro _ | split | dsimp -iota only | dsimp only
      | ((fail_if_success apply Keeps.same); refine Keeps.mk ?_)

theorem State.holdupTested_keeps {z0 : State} {s : State} {sum0 v1 qsum sum2 : Nat} (hK : Keeps z0 s) :
    Keeps z0 (State.holdupTested s sum0 v1 qsum sum2) := by
  unfold State.holdupTested
  with_reducible
    repeat' first
      | assumption | apply State.raise_keeps | apply Pass.step_keeps | apply State.rehearsalEnd_keeps
      | apply State.publishE_keeps | apply State.testResult_keeps | apply Keeps.ite | intro _ | split
      | dsimp -iota only | dsimp only

theorem execHoldupTested_keeps {z0 : State} {sum0 v1 qsum sum2 : Nat} {s : State} (hK : Keeps z0 s) :
    KeepsRes z0 (execHoldupTested sum0 v1 qsum sum2 s) := by
  unfold execHoldupTested
  with_reducible
    repeat' first
      | assumption | apply KeepsRes.next | apply State.settle_keeps | apply State.holdupTested_keeps | intro _ | split
      | dsimp -iota only | dsimp only

theorem State.pmbDenied_keeps {z0 : State} {s : State} {e : Nat} (hK : Keeps z0 s) :
    Keeps z0 (State.pmbDenied s e) := by
  unfold State.pmbDenied
  with_reducible
    repeat' first
      | assumption | apply State.setFld_keeps | apply State.raiseD_keeps | intro _ | split | dsimp -iota only
      | dsimp only

theorem State.pmbSend_keeps {z0 : State} {s : State} {e code : Nat} {data : Option Nat} (hK : Keeps z0 s) :
    Keeps z0 (State.pmbSend s e code data) := by
  unfold State.pmbSend
  with_reducible
    repeat' first
      | assumption | apply State.send_keeps | intro _ | split | dsimp -iota only | dsimp only

theorem State.pmbus_keeps {z0 : State} {s : State} {e : Nat} {ok : Bool} {run : State → State} (krun : ∀ y0, Keeps z0 y0 → Keeps z0 (run y0)) (hK : Keeps z0 s) :
    Keeps z0 (State.pmbus s e ok run) := by
  unfold State.pmbus
  with_reducible
    repeat' first
      | assumption | apply State.setFld_keeps | apply State.pmbDenied_keeps | refine krun _ ?_ | apply Keeps.ite
      | intro _ | split | dsimp -iota only | dsimp only

theorem State.pmbRead_keeps {z0 : State} {s : State} {e code value : Nat} (hK : Keeps z0 s) :
    Keeps z0 (State.pmbRead s e code value) := by
  unfold State.pmbRead
  with_reducible
    repeat' first
      | assumption | apply State.setRw_keeps | apply State.pmbSend_keeps | apply State.pmbus_keeps | intro _ | split
      | dsimp -iota only | dsimp only

theorem execOperation_keeps {z0 : State} {entry : Nat} {on : Bool} {s : State} (hK : Keeps z0 s) :
    KeepsRes z0 (execOperation entry on s) := by
  unfold execOperation
  with_reducible
    repeat' first
      | assumption | apply KeepsRes.next | apply State.pmbSend_keeps | apply State.pmbus_keeps | apply Keeps.ite
      | intro _ | split | dsimp -iota only | dsimp only | ((fail_if_success apply Keeps.same); refine Keeps.mk ?_)

theorem execClearFaults_keeps {z0 : State} {entry : Nat} {s : State} (hK : Keeps z0 s) :
    KeepsRes z0 (execClearFaults entry s) := by
  unfold execClearFaults
  with_reducible
    repeat' first
      | assumption | apply KeepsRes.next | apply State.pmbSend_keeps | apply State.pmbus_keeps | intro _ | split
      | dsimp -iota only | dsimp only

theorem execVoutCommand_keeps {z0 : State} {entry data : Nat} {s : State} (hK : Keeps z0 s) :
    KeepsRes z0 (execVoutCommand entry data s) := by
  unfold execVoutCommand
  with_reducible
    repeat' first
      | assumption | apply KeepsRes.next | apply State.pmbSend_keeps | apply State.pmbus_keeps | intro _ | split
      | dsimp -iota only | dsimp only

theorem execStatusWord_keeps {z0 : State} {entry value : Nat} {s : State} (hK : Keeps z0 s) :
    KeepsRes z0 (execStatusWord entry value s) := by
  unfold execStatusWord
  with_reducible
    repeat' first
      | assumption | apply KeepsRes.next | apply State.pmbRead_keeps | intro _ | split | dsimp -iota only | dsimp only

theorem execReadVin_keeps {z0 : State} {entry value : Nat} {s : State} (hK : Keeps z0 s) :
    KeepsRes z0 (execReadVin entry value s) := by
  unfold execReadVin
  with_reducible
    repeat' first
      | assumption | apply KeepsRes.next | apply State.pmbRead_keeps | intro _ | split | dsimp -iota only | dsimp only

theorem execReadIin_keeps {z0 : State} {entry value : Nat} {s : State} (hK : Keeps z0 s) :
    KeepsRes z0 (execReadIin entry value s) := by
  unfold execReadIin
  with_reducible
    repeat' first
      | assumption | apply KeepsRes.next | apply State.pmbRead_keeps | intro _ | split | dsimp -iota only | dsimp only

theorem execReadVout_keeps {z0 : State} {entry value : Nat} {s : State} (hK : Keeps z0 s) :
    KeepsRes z0 (execReadVout entry value s) := by
  unfold execReadVout
  with_reducible
    repeat' first
      | assumption | apply KeepsRes.next | apply State.pmbRead_keeps | intro _ | split | dsimp -iota only | dsimp only

theorem execReadIout_keeps {z0 : State} {entry value : Nat} {s : State} (hK : Keeps z0 s) :
    KeepsRes z0 (execReadIout entry value s) := by
  unfold execReadIout
  with_reducible
    repeat' first
      | assumption | apply KeepsRes.next | apply State.pmbRead_keeps | intro _ | split | dsimp -iota only | dsimp only

theorem execReadTemperature1_keeps {z0 : State} {entry value : Nat} {s : State} (hK : Keeps z0 s) :
    KeepsRes z0 (execReadTemperature1 entry value s) := by
  unfold execReadTemperature1
  with_reducible
    repeat' first
      | assumption | apply KeepsRes.next | apply State.pmbRead_keeps | intro _ | split | dsimp -iota only | dsimp only

theorem execReadPout_keeps {z0 : State} {entry value : Nat} {s : State} (hK : Keeps z0 s) :
    KeepsRes z0 (execReadPout entry value s) := by
  unfold execReadPout
  with_reducible
    repeat' first
      | assumption | apply KeepsRes.next | apply State.pmbRead_keeps | intro _ | split | dsimp -iota only | dsimp only

theorem execReadPin_keeps {z0 : State} {entry value : Nat} {s : State} (hK : Keeps z0 s) :
    KeepsRes z0 (execReadPin entry value s) := by
  unfold execReadPin
  with_reducible
    repeat' first
      | assumption | apply KeepsRes.next | apply State.pmbRead_keeps | intro _ | split | dsimp -iota only | dsimp only

theorem State.pollOne_keeps {z0 : State} {s : State} {e : Nat} {ok : Bool} (hK : Keeps z0 s) :
    Keeps z0 (State.pollOne s e ok) := by
  unfold State.pollOne
  with_reducible
    repeat' first
      | assumption | apply State.raiseD_keeps | apply State.pmbSend_keeps | apply Keeps.ite | intro _ | split
      | dsimp -iota only | dsimp only | ((fail_if_success apply Keeps.same); refine Keeps.mk ?_)

theorem State.pmbusPoll_keeps {z0 : State} {s : State} {answered ms bytes mw : Nat} (hK : Keeps z0 s) :
    Keeps z0 (State.pmbusPoll s answered ms bytes mw) := by
  unfold State.pmbusPoll
  with_reducible
    repeat' first
      | assumption | apply State.pollOne_keeps | refine Keeps.foldl (fun _ _ _ => ?_) ?_
      | refine Keeps.foldlFst (fun _ _ _ => ?_) ?_ | refine Keeps.foldlSnd (fun _ _ _ => ?_) ?_ | intro _ | split
      | dsimp -iota only | dsimp only | ((fail_if_success apply Keeps.same); refine Keeps.mk ?_)

theorem execPmbusPoll_keeps {z0 : State} {answered ms bytes mw : Nat} {s : State} (hK : Keeps z0 s) :
    KeepsRes z0 (execPmbusPoll answered ms bytes mw s) := by
  unfold execPmbusPoll
  with_reducible
    repeat' first
      | assumption | apply KeepsRes.next | apply State.pmbusPoll_keeps | intro _ | split | dsimp -iota only
      | dsimp only

theorem State.throttleFlag_keeps {z0 : State} {s : State} (hK : Keeps z0 s) :
    Keeps z0 (State.throttleFlag s) := by
  unfold State.throttleFlag
  with_reducible
    repeat' first
      | assumption | apply State.setFlag_keeps | intro _ | split | dsimp -iota only | dsimp only

theorem State.pcapStep_keeps {z0 : State} {s : State} (hK : Keeps z0 s) :
    Keeps z0 (State.pcapStep s) := by
  unfold State.pcapStep
  with_reducible
    repeat' first
      | assumption | apply State.raise_keeps | apply State.throttleFlag_keeps | refine Keeps.getD ?_ ?_
      | apply Keeps.ite | intro _ | split | dsimp -iota only | dsimp only
      | ((fail_if_success apply Keeps.same); refine Keeps.mk ?_)

theorem State.pcapEstimate_keeps {z0 : State} {s : State} {mw : Nat} (hK : Keeps z0 s) :
    Keeps z0 (State.pcapEstimate s mw) := by
  unfold State.pcapEstimate
  with_reducible
    repeat' first
      | assumption | apply State.setFld_keeps | apply State.sample_keeps | apply State.take_keeps
      | apply State.pcapStep_keeps | apply Keeps.ite | intro _ | split | dsimp -iota only | dsimp only
      | ((fail_if_success apply Keeps.same); refine Keeps.mk ?_)

theorem execPcapEstimate_keeps {z0 : State} {mw : Nat} {s : State} (hK : Keeps z0 s) :
    KeepsRes z0 (execPcapEstimate mw s) := by
  unfold execPcapEstimate
  with_reducible
    repeat' first
      | assumption | apply KeepsRes.next | apply State.pcapEstimate_keeps | intro _ | split | dsimp -iota only
      | dsimp only

theorem State.chargeMeter_keeps {z0 : State} {s : State} {i u : Nat} (hK : Keeps z0 s) :
    Keeps z0 (State.chargeMeter s i u) := by
  unfold State.chargeMeter
  with_reducible
    repeat' first
      | assumption | apply State.setLive_keeps | apply Keeps.ite | intro _ | split | dsimp -iota only | dsimp only
      | ((fail_if_success apply Keeps.same); refine Keeps.mk ?_)

theorem State.meterUpdate_keeps {z0 : State} {s : State} {counts : List (Nat × MeterCounts)} {static : Nat} (hK : Keeps z0 s) :
    Keeps z0 (State.meterUpdate s counts static) := by
  unfold State.meterUpdate
  with_reducible
    repeat' first
      | assumption | apply State.chargeMeter_keeps | refine Keeps.foldl (fun _ _ _ => ?_) ?_
      | refine Keeps.foldlFst (fun _ _ _ => ?_) ?_ | refine Keeps.foldlSnd (fun _ _ _ => ?_) ?_ | intro _ | split
      | dsimp -iota only | dsimp only

theorem execMeterUpdate_keeps {z0 : State} {counts : List (Nat × MeterCounts)} {static : Nat} {s : State} (hK : Keeps z0 s) :
    KeepsRes z0 (execMeterUpdate counts static s) := by
  unfold execMeterUpdate
  with_reducible
    repeat' first
      | assumption | apply KeepsRes.next | apply State.meterUpdate_keeps | intro _ | split | dsimp -iota only
      | dsimp only

theorem execDvfsRaise_keeps {z0 : State} {value : Nat} {s : State} (hK : Keeps z0 s) :
    KeepsRes z0 (execDvfsRaise value s) := by
  unfold execDvfsRaise
  with_reducible
    repeat' first
      | assumption | apply KeepsRes.next | apply State.setRw_keeps | intro _ | split | dsimp -iota only | dsimp only

theorem execDvfsReady_keeps {z0 : State} {s : State} (hK : Keeps z0 s) :
    KeepsRes z0 (execDvfsReady s) := by
  unfold execDvfsReady
  with_reducible
    repeat' first
      | assumption | apply KeepsRes.next | apply State.setFld_keeps | apply State.setFlag_keeps
      | apply State.sceneJobGo_keeps | apply Keeps.ite | intro _ | split | dsimp -iota only | dsimp only

end Sys2Proof.Machine
end

