-- ==== Sys2Proof/Laws/KeepCores.lean ====
section
/-! SUPPORT. What the operations of Machine/Cores.lean keep. -/

set_option Elab.async false

namespace Sys2Proof.Machine

theorem State.measure_keeps {z0 : State} {s : State} {k : Nat} {bs : List Byte} (hK : Keeps z0 s) :
    Keeps z0 (State.measure s k bs) := by
  unfold State.measure
  with_reducible
    repeat' first
      | assumption | apply State.setLive_keeps | refine Keeps.foldl (fun _ _ _ => ?_) ?_
      | refine Keeps.foldlFst (fun _ _ _ => ?_) ?_ | refine Keeps.foldlSnd (fun _ _ _ => ?_) ?_ | intro _ | split
      | dsimp -iota only | dsimp only

theorem State.pageProg_keeps {z0 : State} {s : State} {a : Nat} {bs : List Byte} (hK : Keeps z0 s) :
    Keeps z0 (State.pageProg s a bs) := by
  unfold State.pageProg
  with_reducible
    repeat' first
      | assumption | apply State.fwProg_keeps | intro _ | split | dsimp -iota only | dsimp only
      | ((fail_if_success apply Keeps.same); refine Keeps.mk ?_)

theorem State.swapWrite_keeps {z0 : State} {s : State} {slot : Nat} {digest : List Byte} (hK : Keeps z0 s) :
    Keeps z0 (State.swapWrite s slot digest) := by
  unfold State.swapWrite
  with_reducible
    repeat' first
      | assumption | apply State.setFld_keeps | apply State.raiseD_keeps | apply State.fwEraseWhole_keeps
      | apply State.pageProg_keeps | intro _ | split | dsimp -iota only | dsimp only

theorem State.slotWrite_keeps {z0 : State} {s : State} {slot : Nat} (hK : Keeps z0 s) :
    Keeps z0 (State.slotWrite s slot) := by
  unfold State.slotWrite
  with_reducible
    repeat' first
      | assumption | apply State.setFlag_keeps | apply State.fwProg_keeps | apply State.fwEraseWhole_keeps
      | apply State.swapWrite_keeps | refine Keeps.foldl (fun _ _ _ => ?_) ?_
      | refine Keeps.foldlFst (fun _ _ _ => ?_) ?_ | refine Keeps.foldlSnd (fun _ _ _ => ?_) ?_ | intro _ | split
      | dsimp -iota only | dsimp only | ((fail_if_success apply Keeps.same); refine Keeps.mk ?_)

theorem State.rollNext_keeps {z0 : State} {s : State} {r : Roll} (hK : Keeps z0 s) :
    Keeps z0 (State.rollNext s r) := by
  unfold State.rollNext
  with_reducible
    repeat' first
      | assumption | apply State.setRw_keeps | apply State.coresFollow_keeps | apply State.raise_keeps
      | apply State.endJob_keeps | intro _ | split | dsimp -iota only | dsimp only
      | ((fail_if_success apply Keeps.same); refine Keeps.mk ?_)

theorem State.rollOn_keeps {z0 : State} {s : State} {k : Nat} (hK : Keeps z0 s) :
    Keeps z0 (State.rollOn s k) := by
  unfold State.rollOn
  with_reducible
    repeat' first
      | assumption | apply State.rollNext_keeps | apply Keeps.ite | intro _ | split | dsimp -iota only | dsimp only
      | ((fail_if_success apply Keeps.same); refine Keeps.mk ?_)

theorem State.coreRun_keeps {z0 : State} {s : State} {k : Nat} (hK : Keeps z0 s) :
    Keeps z0 (State.coreRun s k) := by
  unfold State.coreRun
  with_reducible
    repeat' first
      | assumption | apply State.setFld_keeps | apply State.setRw_keeps | apply State.dutiesNow_keeps | intro _
      | split | dsimp -iota only | dsimp only | ((fail_if_success apply Keeps.same); refine Keeps.mk ?_)

theorem State.fwTell_keeps {z0 : State} {s : State} {j : Job} {ret : CxlRet} (hK : Keeps z0 s) :
    Keeps z0 (State.fwTell s j ret) := by
  unfold State.fwTell
  with_reducible
    repeat' first
      | assumption | apply State.send_keeps | apply State.setJob_keeps | intro _ | split | dsimp -iota only
      | dsimp only | ((fail_if_success apply Keeps.same); refine Keeps.mk ?_)

theorem State.fwOnline_keeps {z0 : State} {s : State} {j : Job} {signed : Bool} (hK : Keeps z0 s) :
    Keeps z0 (State.fwOnline s j signed) := by
  unfold State.fwOnline
  with_reducible
    repeat' first
      | assumption | apply State.setFlag_keeps | apply State.raise_keeps | apply State.endJob_keeps
      | apply State.measure_keeps | apply State.slotWrite_keeps | apply State.rollNext_keeps
      | apply State.fwTell_keeps | apply Keeps.ite | intro _ | split | dsimp -iota only | dsimp only

theorem State.fwLater_keeps {z0 : State} {s : State} {mb : Nat} {signed : Bool} (hK : Keeps z0 s) :
    Keeps z0 (State.fwLater s mb signed) := by
  unfold State.fwLater
  with_reducible
    repeat' first
      | assumption | apply State.send_keeps | apply State.raise_keeps | apply State.slotWrite_keeps | apply Keeps.ite
      | intro _ | split | dsimp -iota only | dsimp only

theorem State.fwUpdate_keeps {z0 : State} {s : State} {j : Job} {signed : Bool} (hK : Keeps z0 s) :
    Keeps z0 (State.fwUpdate s j signed) := by
  unfold State.fwUpdate
  with_reducible
    repeat' first
      | assumption | apply State.markStarted_keeps | apply State.fwOnline_keeps | intro _ | split | dsimp -iota only
      | dsimp only

theorem State.fwInfo_keeps {z0 : State} {s : State} {mb : Nat} (hK : Keeps z0 s) :
    Keeps z0 (State.fwInfo s mb) := by
  unfold State.fwInfo
  with_reducible
    repeat' first
      | assumption | apply State.answerStd_keeps | apply State.freeBytes_keeps
      | refine State.freeBytes_keepsE (by assumption) ?_ | intro _ | split | dsimp -iota only | dsimp only

theorem execGetFwInfo_keeps {z0 : State} {mb : Nat} {input : List Byte} {s : State} (hK : Keeps z0 s) :
    KeepsRes z0 (execGetFwInfo mb input s) := by
  unfold execGetFwInfo
  with_reducible
    repeat' first
      | assumption | apply KeepsRes.next | apply State.standard_keeps | apply State.fwInfo_keeps | intro _ | split
      | dsimp -iota only | dsimp only

theorem State.transferFw_keeps {z0 : State} {s : State} {mb : Nat} {input : List Byte} (hK : Keeps z0 s) :
    Keeps z0 (State.transferFw s mb input) := by
  unfold State.transferFw
  with_reducible
    repeat' first
      | assumption | apply State.send_keeps | apply State.raise_keeps | apply State.fwProg_keeps
      | apply State.drop_keeps | refine Keeps.foldl (fun _ _ _ => ?_) ?_ | refine Keeps.foldlFst (fun _ _ _ => ?_) ?_
      | refine Keeps.foldlSnd (fun _ _ _ => ?_) ?_ | apply Keeps.ite | intro _ | split | dsimp -iota only | dsimp only
      | ((fail_if_success apply Keeps.same); refine Keeps.mk ?_)

theorem execTransferFw_keeps {z0 : State} {mb : Nat} {input : List Byte} {s : State} (hK : Keeps z0 s) :
    KeepsRes z0 (execTransferFw mb input s) := by
  unfold execTransferFw
  with_reducible
    repeat' first
      | assumption | apply KeepsRes.next | apply State.send_keeps | apply State.holdMail_keeps
      | apply State.transferFw_keeps | apply Keeps.ite | intro _ | split | dsimp -iota only | dsimp only

theorem State.activateFw_keeps {z0 : State} {s : State} {mb : Nat} {input : List Byte} {signed : Bool} (hK : Keeps z0 s) :
    Keeps z0 (State.activateFw s mb input signed) := by
  unfold State.activateFw
  with_reducible
    repeat' first
      | assumption | apply State.send_keeps | apply State.setJob_keeps | apply State.submit_keeps
      | refine State.submit_keepsE (by assumption) ?_ | apply State.fwLater_keeps | apply State.fwUpdate_keeps
      | apply Keeps.ite | intro _ | split | dsimp -iota only | dsimp only
      | ((fail_if_success apply Keeps.same); refine Keeps.mk ?_)

theorem execActivateFw_keeps {z0 : State} {mb : Nat} {input : List Byte} {signed : Bool} {s : State} (hK : Keeps z0 s) :
    KeepsRes z0 (execActivateFw mb input signed s) := by
  unfold execActivateFw
  with_reducible
    repeat' first
      | assumption | apply KeepsRes.next | apply State.send_keeps | apply State.settle_keeps
      | apply State.holdMailOut_keeps | apply State.activateFw_keeps | apply Keeps.ite | intro _ | split
      | dsimp -iota only | dsimp only

theorem State.svnCommit_keeps {z0 : State} {s : State} (hK : Keeps z0 s) :
    Keeps z0 (State.svnCommit s) := by
  unfold State.svnCommit
  with_reducible
    repeat' first
      | assumption | apply State.setFld_keeps | apply State.raiseD_keeps | apply Keeps.ite | intro _ | split
      | dsimp -iota only | dsimp only | ((fail_if_success apply Keeps.same); refine Keeps.mk ?_)

theorem State.watchdogKick_keeps {z0 : State} {s : State} {core : Nat} (hK : Keeps z0 s) :
    Keeps z0 (State.watchdogKick s core) := by
  unfold State.watchdogKick
  with_reducible
    repeat' first
      | assumption | apply State.svnCommit_keeps | apply Keeps.ite | intro _ | split | dsimp -iota only | dsimp only
      | ((fail_if_success apply Keeps.same); refine Keeps.mk ?_)

theorem execStcWdog_keeps {z0 : State} {core : Nat} {s : State} (hK : Keeps z0 s) :
    KeepsRes z0 (execStcWdog core s) := by
  unfold execStcWdog
  with_reducible
    repeat' first
      | assumption | apply KeepsRes.next | apply State.watchdogKick_keeps | intro _ | split | dsimp -iota only
      | dsimp only

theorem State.watchdogOver_keeps {z0 : State} {s : State} {core : Nat} (hK : Keeps z0 s) :
    Keeps z0 (State.watchdogOver s core) := by
  unfold State.watchdogOver
  with_reducible
    repeat' first
      | assumption | apply State.setFld_keeps | apply State.dutiesNow_keeps | apply State.raiseD_keeps
      | apply Keeps.ite | intro _ | split | dsimp -iota only | dsimp only

theorem execStcWatchdog_keeps {z0 : State} {core : Nat} {s : State} (hK : Keeps z0 s) :
    KeepsRes z0 (execStcWatchdog core s) := by
  unfold execStcWatchdog
  with_reducible
    repeat' first
      | assumption | apply KeepsRes.next | apply State.watchdogOver_keeps | intro _ | split | dsimp -iota only
      | dsimp only

theorem State.cycleNow_keeps {z0 : State} {s : State} (hK : Keeps z0 s) :
    Keeps z0 (State.cycleNow s) := by
  unfold State.cycleNow
  with_reducible
    repeat' first
      | assumption | apply State.submit_keeps | refine State.submit_keepsE (by assumption) ?_
      | apply State.markStarted_keeps | apply State.strike_keeps | apply Keeps.ite | intro _ | split
      | dsimp -iota only | dsimp only

theorem State.thermSample_keeps {z0 : State} {s : State} {hot : Int} (hK : Keeps z0 s) :
    Keeps z0 (State.thermSample s hot) := by
  unfold State.thermSample
  with_reducible
    repeat' first
      | assumption | apply State.setFld_keeps | apply State.setFlag_keeps | apply State.raise_keeps
      | apply State.strike_keeps | apply State.throttleFlag_keeps | apply State.cycleNow_keeps
      | refine Keeps.getD ?_ ?_ | apply Keeps.ite | intro _ | split | dsimp -iota only | dsimp only
      | ((fail_if_success apply Keeps.same); refine Keeps.mk ?_)

theorem execThermSample_keeps {z0 : State} {hot : Int} {s : State} (hK : Keeps z0 s) :
    KeepsRes z0 (execThermSample hot s) := by
  unfold execThermSample
  with_reducible
    repeat' first
      | assumption | apply KeepsRes.next | apply Pass.step_keeps | apply State.settle_keeps
      | apply State.thermSample_keeps | apply Keeps.ite | intro _ | split | dsimp -iota only | dsimp only

end Sys2Proof.Machine
end

