-- ==== Sys2Proof/Laws/KeepHostTraffic.lean ====
section
/-! SUPPORT. What the operations of Machine/HostTraffic.lean keep. -/

set_option Elab.async false

namespace Sys2Proof.Machine

theorem State.hostArrives_keeps {z0 : State} {s : State} {q : Ingress} {err : PathErr} (hK : Keeps z0 s) :
    Keeps z0 (State.hostArrives s q err) := by
  unfold State.hostArrives
  with_reducible
    repeat' first
      | assumption | apply State.ideUse_keeps | refine State.ideUse_keepsE (by assumption) ?_
      | apply State.settle_keeps | apply State.meetError_keeps | apply State.runBells_keeps | refine Keeps.getD ?_ ?_
      | apply Keeps.ite | intro _ | split | dsimp -iota only | dsimp only
      | ((fail_if_success apply Keeps.same); refine Keeps.mk ?_)

theorem execHostLoad_keeps {z0 : State} {link key hpa tag : Nat} {own : Bool} {err : PathErr} {s : State} (hK : Keeps z0 s) :
    KeepsRes z0 (execHostLoad link key hpa tag own err s) := by
  unfold execHostLoad
  with_reducible
    repeat' first
      | assumption | apply KeepsRes.next | apply State.hostArrives_keeps | intro _ | split | dsimp -iota only
      | dsimp only

theorem execHostStore_keeps {z0 : State} {link key hpa tag mask : Nat} {data : Line} {err : PathErr} {s : State} (hK : Keeps z0 s) :
    KeepsRes z0 (execHostStore link key hpa tag mask data err s) := by
  unfold execHostStore
  with_reducible
    repeat' first
      | assumption | apply KeepsRes.next | apply State.hostArrives_keeps | intro _ | split | dsimp -iota only
      | dsimp only

end Sys2Proof.Machine
end

