-- ==== Sys2Proof/Laws/KeepScribes.lean ====
section
/-! SUPPORT. What the operations of Machine/Scribes.lean keep. -/

set_option Elab.async false

namespace Sys2Proof.Machine

theorem State.takeTrap_keeps {z0 : State} {s0 : State} {k : Nat} {c : Ctx} {t : Trap} (hK : Keeps z0 s0) :
    Keeps z0 (State.takeTrap s0 k c t) := by
  unfold State.takeTrap
  with_reducible
    repeat' first
      | assumption | apply State.raiseD_keeps | apply State.putCtx_keeps | apply State.endCtx_keeps
      | apply State.faultRecord_keeps | apply Keeps.ite | intro _ | split | dsimp -iota only | dsimp only
      | ((fail_if_success apply Keeps.same); refine Keeps.mk ?_)

theorem State.endByEvent_keeps {z0 : State} {s : State} {k : Nat} {c : Ctx} {status : Nat} (hK : Keeps z0 s) :
    Keeps z0 (State.endByEvent s k c status) := by
  unfold State.endByEvent
  with_reducible
    repeat' first
      | assumption | apply State.endCtx_keeps | apply State.faultRecord_keeps | intro _ | split | dsimp -iota only
      | dsimp only

theorem State.localWrite_keeps {z0 : State} {s : State} {k : Nat} {c : Ctx} {a : Nat} {bs : List Byte} (hK : Keeps z0 s) :
    Keeps z0 (State.localWrite s k c a bs).1 := by
  unfold State.localWrite
  repeat' first
    | with_reducible assumption
    | with_reducible exact Keeps.refl _
    | (with_reducible refine Keeps.getD ?_ ?_)
    | (with_reducible refine Keeps.mapPair (by assumption) ?_)
    | (with_reducible refine Keeps.foldl (fun st x hst => ?_) ?_)
    | (with_reducible refine Keeps.foldlFst (fun st x hst => ?_) ?_)
    | (with_reducible refine Keeps.foldlSnd (fun st x hst => ?_) ?_)
    | (with_reducible refine Keeps.ite ?_ ?_)
    | intro _
    | split
    | dsimp -iota only
    | dsimp only
    | dsimp only [id]
    | exact memWf_nil _
    | (fail_if_success (with_reducible refine Keeps.same ?_)
       with_reducible refine Keeps.mk ?_ ?_ ?_ ?_ ?_ ?_ ?_ ?_ ?_ ?_ ?_ ?_ ?_ <;>
         first | with_reducible exact Nat.le_refl _ | with_reducible exact List.prefix_rfl | with_reducible exact fun hm => hm |
           with_reducible exact List.prefix_append _ _ | with_reducible exact Nat.le_succ _ | with_reducible exact memWriteN_wf | with_reducible exact memClear_wf |
           with_reducible exact memPaste_wf | with_reducible exact memWrite_wf | with_reducible exact memWriteLE_wf | with_reducible exact fun _ => rfl | exact fun _ => memWf_nil _ |
           with_reducible exact fun hm => memWriteN_wf (memWriteN_wf hm) | exact fun _ => rfl |
           exact fun hm => memFold_wf (fun m y hh => memWrite_wf hh) hm |
           exact fun _ => memFold_wf (fun m y hh => memWrite_wf hh) (memWf_nil _) | skip)

theorem State.localWrite_keepsE {z0 : State} {s : State} {k : Nat} {c : Ctx} {a : Nat} {bs : List Byte} {tE : State} {uE} (hE : State.localWrite s k c a bs = (tE, uE)) (hK : Keeps z0 s) :
    Keeps z0 tE := by
  have k := State.localWrite_keeps (z0 := z0) (s := s) (k := k) (c := c) (a := a) (bs := bs)  hK
  rw [hE] at k
  exact k

theorem State.dpaLoad_keeps {z0 : State} {s : State} {k slot : Nat} {c : Ctx} {dest : OpDest} {line : Nat} (hK : Keeps z0 s) :
    Keeps z0 (State.dpaLoad s k slot c dest line) := by
  unfold State.dpaLoad
  with_reducible
    repeat' first
      | assumption | apply State.accept_keeps | apply State.cueAuto_keeps | apply State.putCtx_keeps | intro _ | split
      | dsimp -iota only | dsimp only | ((fail_if_success apply Keeps.same); refine Keeps.mk ?_)

theorem State.dpaStore_keeps {z0 : State} {s : State} {k slot : Nat} {c : Ctx} {line mask : Nat} {data : Line} {rmw : Option Rmw} {dest : OpDest} {dpa : Nat} (hK : Keeps z0 s) :
    Keeps z0 (State.dpaStore s k slot c line mask data rmw dest dpa) := by
  unfold State.dpaStore
  with_reducible
    repeat' first
      | assumption | apply State.accept_keeps | apply State.cueAuto_keeps | apply State.putCtx_keeps | apply Keeps.ite
      | intro _ | split | dsimp -iota only | dsimp only | ((fail_if_success apply Keeps.same); refine Keeps.mk ?_)

theorem State.storeBytes_keepsE {z0 : State} {s : State} {k : Nat} {c : Ctx} {a n mask : Nat} {v : Nat} {tE : State} (hE : State.storeBytes s k c a n mask v = some tE) (hK : Keeps z0 s) :
    Keeps z0 tE := by
  unfold State.storeBytes at hE
  repeat' (first | split at hE | dsimp only at hE)
  all_goals (first | cases hE | skip)
  with_reducible
    repeat' first
      | assumption | apply Pass.store_keeps | apply State.settle_keeps | apply State.putCtx_keeps
      | apply State.localWrite_keeps | refine State.localWrite_keepsE (by assumption) ?_ | apply State.dpaStore_keeps
      | apply Keeps.ite | intro _ | split | dsimp -iota only | dsimp only

theorem State.dmaAdvance_keeps {z0 : State} {s : State} {k : Nat} {a0 : Nat} (hK : Keeps z0 s) :
    Keeps z0 (State.dmaAdvance s k a0) := by
  fun_induction State.dmaAdvance s k a0
  all_goals
    with_reducible
      repeat' first
        | assumption | apply State.take_keeps | apply State.settle_keeps | apply State.putCtx_keeps
        | apply State.drop_keeps | apply State.localWrite_keeps | refine State.localWrite_keepsE (by assumption) ?_
        | apply State.dpaLoad_keeps | apply State.dpaStore_keeps | apply_assumption | apply Keeps.ite | intro _ | split
        | dsimp -iota only | dsimp only | ((fail_if_success apply Keeps.same); refine Keeps.mk ?_)
  
theorem State.dpaAnswer_keeps {z0 : State} {s : State} {k : Nat} {c : Ctx} {o : DpaOp} {r : ScriptResult} (hK : Keeps z0 s) :
    Keeps z0 (State.dpaAnswer s k c o r) := by
  unfold State.dpaAnswer
  with_reducible
    repeat' first
      | assumption | apply Pass.store_keeps | apply State.settle_keeps | apply State.putCtx_keeps
      | apply State.tryFinish_keeps | apply State.endByEvent_keeps | apply State.dpaLoad_keeps
      | apply State.dmaAdvance_keeps | apply Keeps.ite | intro _ | split | dsimp -iota only | dsimp only
      | ((fail_if_success apply Keeps.same); refine Keeps.mk ?_)

theorem execDpaOpResponse_keeps {z0 : State} {e cx : Nat} {s : State} (hK : Keeps z0 s) :
    KeepsRes z0 (execDpaOpResponse e cx s) := by
  unfold execDpaOpResponse
  with_reducible
    repeat' first
      | assumption | apply KeepsRes.next | apply State.staleTicket_keeps | apply State.dpaAnswer_keeps | intro _
      | split | dsimp -iota only | dsimp only | ((fail_if_success apply Keeps.same); refine Keeps.mk ?_)

end Sys2Proof.Machine
end

