-- ==== Sys2Proof/Laws/KeepInteger.lean ====
section
/-! SUPPORT. What the operations of Machine/Integer.lean keep. -/

set_option Elab.async false

namespace Sys2Proof.Machine

theorem State.alu_keeps {z0 : State} {s : State} {e cx func : Nat} {unary : Bool} {f : W64 → W64 → W64} (hK : Keeps z0 s) :
    Keeps z0 (State.alu s e cx func unary f) := by
  unfold State.alu
  with_reducible
    repeat' first
      | assumption | apply State.setCtx_keeps | apply State.takeTrap_keeps | apply Keeps.ite | intro _ | split
      | dsimp -iota only | dsimp only

theorem State.aluI_keeps {z0 : State} {s : State} {e cx major : Nat} {legal : Nat → Bool} {f : W64 → Nat → W64} (hK : Keeps z0 s) :
    Keeps z0 (State.aluI s e cx major legal f) := by
  unfold State.aluI
  with_reducible
    repeat' first
      | assumption | apply State.setCtx_keeps | apply State.takeTrap_keeps | apply Keeps.ite | intro _ | split
      | dsimp -iota only | dsimp only

theorem State.branch_keeps {z0 : State} {s : State} {e cx major : Nat} {cond : W64 → Bool} (hK : Keeps z0 s) :
    Keeps z0 (State.branch s e cx major cond) := by
  unfold State.branch
  with_reducible
    repeat' first
      | assumption | apply State.setCtx_keeps | apply State.takeTrap_keeps | apply Keeps.ite | intro _ | split
      | dsimp -iota only | dsimp only | ((fail_if_success apply Keeps.same); refine Keeps.mk ?_)

theorem execAdd_keeps {z0 : State} {e cx : Nat} {s : State} (hK : Keeps z0 s) :
    KeepsRes z0 (execAdd e cx s) := by
  unfold execAdd
  with_reducible
    repeat' first
      | assumption | apply KeepsRes.next | apply State.alu_keeps | intro _ | split | dsimp -iota only | dsimp only

theorem execSub_keeps {z0 : State} {e cx : Nat} {s : State} (hK : Keeps z0 s) :
    KeepsRes z0 (execSub e cx s) := by
  unfold execSub
  with_reducible
    repeat' first
      | assumption | apply KeepsRes.next | apply State.alu_keeps | intro _ | split | dsimp -iota only | dsimp only

theorem execNeg_keeps {z0 : State} {e cx : Nat} {s : State} (hK : Keeps z0 s) :
    KeepsRes z0 (execNeg e cx s) := by
  unfold execNeg
  with_reducible
    repeat' first
      | assumption | apply KeepsRes.next | apply State.alu_keeps | intro _ | split | dsimp -iota only | dsimp only

theorem execAnd_keeps {z0 : State} {e cx : Nat} {s : State} (hK : Keeps z0 s) :
    KeepsRes z0 (execAnd e cx s) := by
  unfold execAnd
  with_reducible
    repeat' first
      | assumption | apply KeepsRes.next | apply State.alu_keeps | intro _ | split | dsimp -iota only | dsimp only

theorem execOr_keeps {z0 : State} {e cx : Nat} {s : State} (hK : Keeps z0 s) :
    KeepsRes z0 (execOr e cx s) := by
  unfold execOr
  with_reducible
    repeat' first
      | assumption | apply KeepsRes.next | apply State.alu_keeps | intro _ | split | dsimp -iota only | dsimp only

theorem execXor_keeps {z0 : State} {e cx : Nat} {s : State} (hK : Keeps z0 s) :
    KeepsRes z0 (execXor e cx s) := by
  unfold execXor
  with_reducible
    repeat' first
      | assumption | apply KeepsRes.next | apply State.alu_keeps | intro _ | split | dsimp -iota only | dsimp only

theorem execAndn_keeps {z0 : State} {e cx : Nat} {s : State} (hK : Keeps z0 s) :
    KeepsRes z0 (execAndn e cx s) := by
  unfold execAndn
  with_reducible
    repeat' first
      | assumption | apply KeepsRes.next | apply State.alu_keeps | intro _ | split | dsimp -iota only | dsimp only

theorem execOrn_keeps {z0 : State} {e cx : Nat} {s : State} (hK : Keeps z0 s) :
    KeepsRes z0 (execOrn e cx s) := by
  unfold execOrn
  with_reducible
    repeat' first
      | assumption | apply KeepsRes.next | apply State.alu_keeps | intro _ | split | dsimp -iota only | dsimp only

theorem execShl_keeps {z0 : State} {e cx : Nat} {s : State} (hK : Keeps z0 s) :
    KeepsRes z0 (execShl e cx s) := by
  unfold execShl
  with_reducible
    repeat' first
      | assumption | apply KeepsRes.next | apply State.alu_keeps | intro _ | split | dsimp -iota only | dsimp only

theorem execShr_keeps {z0 : State} {e cx : Nat} {s : State} (hK : Keeps z0 s) :
    KeepsRes z0 (execShr e cx s) := by
  unfold execShr
  with_reducible
    repeat' first
      | assumption | apply KeepsRes.next | apply State.alu_keeps | intro _ | split | dsimp -iota only | dsimp only

theorem execSar_keeps {z0 : State} {e cx : Nat} {s : State} (hK : Keeps z0 s) :
    KeepsRes z0 (execSar e cx s) := by
  unfold execSar
  with_reducible
    repeat' first
      | assumption | apply KeepsRes.next | apply State.alu_keeps | intro _ | split | dsimp -iota only | dsimp only

theorem execRor_keeps {z0 : State} {e cx : Nat} {s : State} (hK : Keeps z0 s) :
    KeepsRes z0 (execRor e cx s) := by
  unfold execRor
  with_reducible
    repeat' first
      | assumption | apply KeepsRes.next | apply State.alu_keeps | intro _ | split | dsimp -iota only | dsimp only

theorem execCmpEq_keeps {z0 : State} {e cx : Nat} {s : State} (hK : Keeps z0 s) :
    KeepsRes z0 (execCmpEq e cx s) := by
  unfold execCmpEq
  with_reducible
    repeat' first
      | assumption | apply KeepsRes.next | apply State.alu_keeps | intro _ | split | dsimp -iota only | dsimp only

theorem execCmpNe_keeps {z0 : State} {e cx : Nat} {s : State} (hK : Keeps z0 s) :
    KeepsRes z0 (execCmpNe e cx s) := by
  unfold execCmpNe
  with_reducible
    repeat' first
      | assumption | apply KeepsRes.next | apply State.alu_keeps | intro _ | split | dsimp -iota only | dsimp only

theorem execCmpLt_keeps {z0 : State} {e cx : Nat} {s : State} (hK : Keeps z0 s) :
    KeepsRes z0 (execCmpLt e cx s) := by
  unfold execCmpLt
  with_reducible
    repeat' first
      | assumption | apply KeepsRes.next | apply State.alu_keeps | intro _ | split | dsimp -iota only | dsimp only

theorem execCmpLe_keeps {z0 : State} {e cx : Nat} {s : State} (hK : Keeps z0 s) :
    KeepsRes z0 (execCmpLe e cx s) := by
  unfold execCmpLe
  with_reducible
    repeat' first
      | assumption | apply KeepsRes.next | apply State.alu_keeps | intro _ | split | dsimp -iota only | dsimp only

theorem execCmpLtu_keeps {z0 : State} {e cx : Nat} {s : State} (hK : Keeps z0 s) :
    KeepsRes z0 (execCmpLtu e cx s) := by
  unfold execCmpLtu
  with_reducible
    repeat' first
      | assumption | apply KeepsRes.next | apply State.alu_keeps | intro _ | split | dsimp -iota only | dsimp only

theorem execCmpLeu_keeps {z0 : State} {e cx : Nat} {s : State} (hK : Keeps z0 s) :
    KeepsRes z0 (execCmpLeu e cx s) := by
  unfold execCmpLeu
  with_reducible
    repeat' first
      | assumption | apply KeepsRes.next | apply State.alu_keeps | intro _ | split | dsimp -iota only | dsimp only

theorem execMin_keeps {z0 : State} {e cx : Nat} {s : State} (hK : Keeps z0 s) :
    KeepsRes z0 (execMin e cx s) := by
  unfold execMin
  with_reducible
    repeat' first
      | assumption | apply KeepsRes.next | apply State.alu_keeps | apply Keeps.ite | intro _ | split
      | dsimp -iota only | dsimp only

theorem execMax_keeps {z0 : State} {e cx : Nat} {s : State} (hK : Keeps z0 s) :
    KeepsRes z0 (execMax e cx s) := by
  unfold execMax
  with_reducible
    repeat' first
      | assumption | apply KeepsRes.next | apply State.alu_keeps | apply Keeps.ite | intro _ | split
      | dsimp -iota only | dsimp only

theorem execMinu_keeps {z0 : State} {e cx : Nat} {s : State} (hK : Keeps z0 s) :
    KeepsRes z0 (execMinu e cx s) := by
  unfold execMinu
  with_reducible
    repeat' first
      | assumption | apply KeepsRes.next | apply State.alu_keeps | apply Keeps.ite | intro _ | split
      | dsimp -iota only | dsimp only

theorem execMaxu_keeps {z0 : State} {e cx : Nat} {s : State} (hK : Keeps z0 s) :
    KeepsRes z0 (execMaxu e cx s) := by
  unfold execMaxu
  with_reducible
    repeat' first
      | assumption | apply KeepsRes.next | apply State.alu_keeps | apply Keeps.ite | intro _ | split
      | dsimp -iota only | dsimp only

theorem execMul_keeps {z0 : State} {e cx : Nat} {s : State} (hK : Keeps z0 s) :
    KeepsRes z0 (execMul e cx s) := by
  unfold execMul
  with_reducible
    repeat' first
      | assumption | apply KeepsRes.next | apply State.alu_keeps | intro _ | split | dsimp -iota only | dsimp only

theorem execMulhiS_keeps {z0 : State} {e cx : Nat} {s : State} (hK : Keeps z0 s) :
    KeepsRes z0 (execMulhiS e cx s) := by
  unfold execMulhiS
  with_reducible
    repeat' first
      | assumption | apply KeepsRes.next | apply State.alu_keeps | intro _ | split | dsimp -iota only | dsimp only

theorem execMulhiU_keeps {z0 : State} {e cx : Nat} {s : State} (hK : Keeps z0 s) :
    KeepsRes z0 (execMulhiU e cx s) := by
  unfold execMulhiU
  with_reducible
    repeat' first
      | assumption | apply KeepsRes.next | apply State.alu_keeps | intro _ | split | dsimp -iota only | dsimp only

theorem execDiv_keeps {z0 : State} {e cx : Nat} {s : State} (hK : Keeps z0 s) :
    KeepsRes z0 (execDiv e cx s) := by
  unfold execDiv
  with_reducible
    repeat' first
      | assumption | apply KeepsRes.next | apply State.alu_keeps | intro _ | split | dsimp -iota only | dsimp only

theorem execDivu_keeps {z0 : State} {e cx : Nat} {s : State} (hK : Keeps z0 s) :
    KeepsRes z0 (execDivu e cx s) := by
  unfold execDivu
  with_reducible
    repeat' first
      | assumption | apply KeepsRes.next | apply State.alu_keeps | intro _ | split | dsimp -iota only | dsimp only

theorem execRem_keeps {z0 : State} {e cx : Nat} {s : State} (hK : Keeps z0 s) :
    KeepsRes z0 (execRem e cx s) := by
  unfold execRem
  with_reducible
    repeat' first
      | assumption | apply KeepsRes.next | apply State.alu_keeps | intro _ | split | dsimp -iota only | dsimp only

theorem execRemu_keeps {z0 : State} {e cx : Nat} {s : State} (hK : Keeps z0 s) :
    KeepsRes z0 (execRemu e cx s) := by
  unfold execRemu
  with_reducible
    repeat' first
      | assumption | apply KeepsRes.next | apply State.alu_keeps | intro _ | split | dsimp -iota only | dsimp only

theorem execLzc_keeps {z0 : State} {e cx : Nat} {s : State} (hK : Keeps z0 s) :
    KeepsRes z0 (execLzc e cx s) := by
  unfold execLzc
  with_reducible
    repeat' first
      | assumption | apply KeepsRes.next | apply State.alu_keeps | intro _ | split | dsimp -iota only | dsimp only

theorem execTzc_keeps {z0 : State} {e cx : Nat} {s : State} (hK : Keeps z0 s) :
    KeepsRes z0 (execTzc e cx s) := by
  unfold execTzc
  with_reducible
    repeat' first
      | assumption | apply KeepsRes.next | apply State.alu_keeps | refine Keeps.getD ?_ ?_ | intro _ | split
      | dsimp -iota only | dsimp only

theorem execOnes_keeps {z0 : State} {e cx : Nat} {s : State} (hK : Keeps z0 s) :
    KeepsRes z0 (execOnes e cx s) := by
  unfold execOnes
  with_reducible
    repeat' first
      | assumption | apply KeepsRes.next | apply State.alu_keeps | intro _ | split | dsimp -iota only | dsimp only

theorem execRevb_keeps {z0 : State} {e cx : Nat} {s : State} (hK : Keeps z0 s) :
    KeepsRes z0 (execRevb e cx s) := by
  unfold execRevb
  with_reducible
    repeat' first
      | assumption | apply KeepsRes.next | apply State.alu_keeps | intro _ | split | dsimp -iota only | dsimp only

theorem execAddI_keeps {z0 : State} {e cx : Nat} {s : State} (hK : Keeps z0 s) :
    KeepsRes z0 (execAddI e cx s) := by
  unfold execAddI
  with_reducible
    repeat' first
      | assumption | apply KeepsRes.next | apply State.aluI_keeps | intro _ | split | dsimp -iota only | dsimp only

theorem execAndI_keeps {z0 : State} {e cx : Nat} {s : State} (hK : Keeps z0 s) :
    KeepsRes z0 (execAndI e cx s) := by
  unfold execAndI
  with_reducible
    repeat' first
      | assumption | apply KeepsRes.next | apply State.aluI_keeps | intro _ | split | dsimp -iota only | dsimp only

theorem execOrI_keeps {z0 : State} {e cx : Nat} {s : State} (hK : Keeps z0 s) :
    KeepsRes z0 (execOrI e cx s) := by
  unfold execOrI
  with_reducible
    repeat' first
      | assumption | apply KeepsRes.next | apply State.aluI_keeps | intro _ | split | dsimp -iota only | dsimp only

theorem execXorI_keeps {z0 : State} {e cx : Nat} {s : State} (hK : Keeps z0 s) :
    KeepsRes z0 (execXorI e cx s) := by
  unfold execXorI
  with_reducible
    repeat' first
      | assumption | apply KeepsRes.next | apply State.aluI_keeps | intro _ | split | dsimp -iota only | dsimp only

theorem execCmpEqI_keeps {z0 : State} {e cx : Nat} {s : State} (hK : Keeps z0 s) :
    KeepsRes z0 (execCmpEqI e cx s) := by
  unfold execCmpEqI
  with_reducible
    repeat' first
      | assumption | apply KeepsRes.next | apply State.aluI_keeps | intro _ | split | dsimp -iota only | dsimp only

theorem execCmpLtI_keeps {z0 : State} {e cx : Nat} {s : State} (hK : Keeps z0 s) :
    KeepsRes z0 (execCmpLtI e cx s) := by
  unfold execCmpLtI
  with_reducible
    repeat' first
      | assumption | apply KeepsRes.next | apply State.aluI_keeps | intro _ | split | dsimp -iota only | dsimp only

theorem execShlI_keeps {z0 : State} {e cx : Nat} {s : State} (hK : Keeps z0 s) :
    KeepsRes z0 (execShlI e cx s) := by
  unfold execShlI
  with_reducible
    repeat' first
      | assumption | apply KeepsRes.next | apply State.aluI_keeps | intro _ | split | dsimp -iota only | dsimp only

theorem execShrI_keeps {z0 : State} {e cx : Nat} {s : State} (hK : Keeps z0 s) :
    KeepsRes z0 (execShrI e cx s) := by
  unfold execShrI
  with_reducible
    repeat' first
      | assumption | apply KeepsRes.next | apply State.aluI_keeps | intro _ | split | dsimp -iota only | dsimp only

theorem execSarI_keeps {z0 : State} {e cx : Nat} {s : State} (hK : Keeps z0 s) :
    KeepsRes z0 (execSarI e cx s) := by
  unfold execSarI
  with_reducible
    repeat' first
      | assumption | apply KeepsRes.next | apply State.aluI_keeps | intro _ | split | dsimp -iota only | dsimp only

theorem execHigh_keeps {z0 : State} {e cx : Nat} {s : State} (hK : Keeps z0 s) :
    KeepsRes z0 (execHigh e cx s) := by
  unfold execHigh
  with_reducible
    repeat' first
      | assumption | apply KeepsRes.next | apply State.aluI_keeps | intro _ | split | dsimp -iota only | dsimp only

theorem execBz_keeps {z0 : State} {e cx : Nat} {s : State} (hK : Keeps z0 s) :
    KeepsRes z0 (execBz e cx s) := by
  unfold execBz
  with_reducible
    repeat' first
      | assumption | apply KeepsRes.next | apply State.branch_keeps | intro _ | split | dsimp -iota only | dsimp only

theorem execBnz_keeps {z0 : State} {e cx : Nat} {s : State} (hK : Keeps z0 s) :
    KeepsRes z0 (execBnz e cx s) := by
  unfold execBnz
  with_reducible
    repeat' first
      | assumption | apply KeepsRes.next | apply State.branch_keeps | intro _ | split | dsimp -iota only | dsimp only

theorem execBneg_keeps {z0 : State} {e cx : Nat} {s : State} (hK : Keeps z0 s) :
    KeepsRes z0 (execBneg e cx s) := by
  unfold execBneg
  with_reducible
    repeat' first
      | assumption | apply KeepsRes.next | apply State.branch_keeps | intro _ | split | dsimp -iota only | dsimp only

theorem execBnneg_keeps {z0 : State} {e cx : Nat} {s : State} (hK : Keeps z0 s) :
    KeepsRes z0 (execBnneg e cx s) := by
  unfold execBnneg
  with_reducible
    repeat' first
      | assumption | apply KeepsRes.next | apply State.branch_keeps | intro _ | split | dsimp -iota only | dsimp only

theorem execDbnz_keeps {z0 : State} {e cx : Nat} {s : State} (hK : Keeps z0 s) :
    KeepsRes z0 (execDbnz e cx s) := by
  unfold execDbnz
  with_reducible
    repeat' first
      | assumption | apply KeepsRes.next | apply State.setCtx_keeps | apply State.takeTrap_keeps | apply Keeps.ite
      | intro _ | split | dsimp -iota only | dsimp only | ((fail_if_success apply Keeps.same); refine Keeps.mk ?_)

theorem execBpany_keeps {z0 : State} {e cx : Nat} {s : State} (hK : Keeps z0 s) :
    KeepsRes z0 (execBpany e cx s) := by
  unfold execBpany
  with_reducible
    repeat' first
      | assumption | apply KeepsRes.next | apply State.setCtx_keeps | apply State.takeTrap_keeps | apply Keeps.ite
      | intro _ | split | dsimp -iota only | dsimp only | ((fail_if_success apply Keeps.same); refine Keeps.mk ?_)

theorem execCall_keeps {z0 : State} {e cx : Nat} {s : State} (hK : Keeps z0 s) :
    KeepsRes z0 (execCall e cx s) := by
  unfold execCall
  with_reducible
    repeat' first
      | assumption | apply KeepsRes.next | apply State.setCtx_keeps | apply State.takeTrap_keeps | apply Keeps.ite
      | intro _ | split | dsimp -iota only | dsimp only | ((fail_if_success apply Keeps.same); refine Keeps.mk ?_)

theorem execJump_keeps {z0 : State} {e cx : Nat} {s : State} (hK : Keeps z0 s) :
    KeepsRes z0 (execJump e cx s) := by
  unfold execJump
  with_reducible
    repeat' first
      | assumption | apply KeepsRes.next | apply State.setCtx_keeps | apply State.takeTrap_keeps | apply Keeps.ite
      | intro _ | split | dsimp -iota only | dsimp only | ((fail_if_success apply Keeps.same); refine Keeps.mk ?_)

theorem execHash_keeps {z0 : State} {e cx : Nat} {s : State} (hK : Keeps z0 s) :
    KeepsRes z0 (execHash e cx s) := by
  unfold execHash
  with_reducible
    repeat' first
      | assumption | apply KeepsRes.next | apply State.setCtx_keeps | apply State.takeTrap_keeps | apply Keeps.ite
      | intro _ | split | dsimp -iota only | dsimp only

theorem execRdsr_keeps {z0 : State} {e cx : Nat} {s : State} (hK : Keeps z0 s) :
    KeepsRes z0 (execRdsr e cx s) := by
  unfold execRdsr
  with_reducible
    repeat' first
      | assumption | apply KeepsRes.next | apply State.setCtx_keeps | apply State.takeTrap_keeps | apply Keeps.ite
      | intro _ | split | dsimp -iota only | dsimp only

theorem execWrsr_keeps {z0 : State} {e cx : Nat} {s : State} (hK : Keeps z0 s) :
    KeepsRes z0 (execWrsr e cx s) := by
  unfold execWrsr
  with_reducible
    repeat' first
      | assumption | apply KeepsRes.next | apply State.putCtx_keeps | apply State.takeTrap_keeps | apply Keeps.ite
      | intro _ | split | dsimp -iota only | dsimp only | ((fail_if_success apply Keeps.same); refine Keeps.mk ?_)

theorem execYield_keeps {z0 : State} {e cx : Nat} {s : State} (hK : Keeps z0 s) :
    KeepsRes z0 (execYield e cx s) := by
  unfold execYield
  with_reducible
    repeat' first
      | assumption | apply KeepsRes.next | apply State.setCtx_keeps | apply State.takeTrap_keeps | apply Keeps.ite
      | intro _ | split | dsimp -iota only | dsimp only | ((fail_if_success apply Keeps.same); refine Keeps.mk ?_)

theorem execHalt_keeps {z0 : State} {e cx : Nat} {s : State} (hK : Keeps z0 s) :
    KeepsRes z0 (execHalt e cx s) := by
  unfold execHalt
  with_reducible
    repeat' first
      | assumption | apply KeepsRes.next | apply State.settle_keeps | apply State.setCtx_keeps
      | apply State.tryFinish_keeps | apply State.takeTrap_keeps | apply Keeps.ite | intro _ | split
      | dsimp -iota only | dsimp only | ((fail_if_success apply Keeps.same); refine Keeps.mk ?_)

theorem execTrap_keeps {z0 : State} {e cx : Nat} {fetchUe : Bool} {s : State} (hK : Keeps z0 s) :
    KeepsRes z0 (execTrap e cx fetchUe s) := by
  unfold execTrap
  with_reducible
    repeat' first
      | assumption | apply KeepsRes.next | apply State.raiseD_keeps | apply State.settle_keeps
      | apply State.takeTrap_keeps | apply Keeps.ite | intro _ | split | dsimp -iota only | dsimp only
      | ((fail_if_success apply Keeps.same); refine Keeps.mk ?_)

end Sys2Proof.Machine
end

