-- ==== Sys2Proof/Laws/KeepIntegrity.lean ====
section
/-! SUPPORT. What the operations of Machine/Integrity.lean keep. -/

set_option Elab.async false

namespace Sys2Proof.Machine

theorem State.sramPatrol_keeps {z0 : State} {s : State} {f : PatrolFind} (hK : Keeps z0 s) :
    Keeps z0 (State.sramPatrol s f) := by
  unfold State.sramPatrol
  with_reducible
    repeat' first
      | assumption | apply State.addSat_keeps | apply State.pbCounts_keeps | apply State.raiseDropped_keeps
      | apply State.raiseD_keeps | apply State.sramCe_keeps | apply State.wayCe_keeps | apply State.meetError_keeps
      | apply State.ring_keeps | intro _ | split | dsimp -iota only | dsimp only
      | ((fail_if_success apply Keeps.same); refine Keeps.mk ?_)

theorem execSramPatrol_keeps {z0 : State} {f : PatrolFind} {s : State} (hK : Keeps z0 s) :
    KeepsRes z0 (execSramPatrol f s) := by
  unfold execSramPatrol
  with_reducible
    repeat' first
      | assumption | apply KeepsRes.next | apply State.settle_keeps | apply State.sramPatrol_keeps | intro _ | split
      | dsimp -iota only | dsimp only

theorem State.unitBusy_keeps {z0 : State} {s : State} {u : Nat} (hK : Keeps z0 s) :
    Keeps z0 (State.unitBusy s u) := by
  unfold State.unitBusy
  with_reducible
    repeat' first
      | assumption | apply State.setFlag_keeps | intro _ | split | dsimp -iota only | dsimp only

theorem State.descPut_keeps {z0 : State} {s : State} {u st crc flags : Nat} (hK : Keeps z0 s) :
    Keeps z0 (State.descPut s u st crc flags) := by
  unfold State.descPut
  repeat' first
    | with_reducible assumption
    | with_reducible exact Keeps.refl _
    | (with_reducible refine State.setFld_keeps ?_)
    | (with_reducible refine Keeps.getD ?_ ?_)
    | (with_reducible refine Keeps.mapPair (by assumption) ?_)
    | (with_reducible refine Keeps.foldl (fun st x hst => ?_) ?_)
    | (with_reducible refine Keeps.foldlFst (fun st x hst => ?_) ?_)
    | (with_reducible refine Keeps.foldlSnd (fun st x hst => ?_) ?_)
    | (with_reducible refine Keeps.ite ?_ ?_)
    | intro _
    | split
    | dsimp -iota only
    | dsimp only
    | dsimp only [id]
    | exact memWf_nil _
    | (fail_if_success (with_reducible refine Keeps.same ?_)
       with_reducible refine Keeps.mk ?_ ?_ ?_ ?_ ?_ ?_ ?_ ?_ ?_ ?_ ?_ ?_ ?_ <;>
         first | with_reducible exact Nat.le_refl _ | with_reducible exact List.prefix_rfl | with_reducible exact fun hm => hm |
           with_reducible exact List.prefix_append _ _ | with_reducible exact Nat.le_succ _ | with_reducible exact memWriteN_wf | with_reducible exact memClear_wf |
           with_reducible exact memPaste_wf | with_reducible exact memWrite_wf | with_reducible exact memWriteLE_wf | with_reducible exact fun _ => rfl | exact fun _ => memWf_nil _ |
           with_reducible exact fun hm => memWriteN_wf (memWriteN_wf hm) | exact fun _ => rfl |
           exact fun hm => memFold_wf (fun m y hh => memWrite_wf hh) hm |
           exact fun _ => memFold_wf (fun m y hh => memWrite_wf hh) (memWf_nil _) | skip)

theorem State.descTell_keeps {z0 : State} {s : State} {u st head : Nat} {missed tell : Bool} (hK : Keeps z0 s) :
    Keeps z0 (State.descTell s u st head missed tell) := by
  unfold State.descTell
  with_reducible
    repeat' first
      | assumption | apply State.send_keeps | apply State.raiseD_keeps | apply Keeps.ite | intro _ | split
      | dsimp -iota only | dsimp only

theorem State.descDone_keeps {z0 : State} {s : State} {u : Nat} {ue : Bool} (hK : Keeps z0 s) :
    Keeps z0 (State.descDone s u ue) := by
  unfold State.descDone
  with_reducible
    repeat' first
      | assumption | apply State.setFld_keeps | apply State.setFlag_keeps | apply State.descPut_keeps
      | apply State.descTell_keeps | apply Keeps.ite | intro _ | split | dsimp -iota only | dsimp only

theorem State.skipBad_keeps {z0 : State} {s : State} {u : Nat} {a0 : Nat} (hK : Keeps z0 s) :
    Keeps z0 (State.skipBad s u a0) := by
  fun_induction State.skipBad s u a0
  all_goals
    with_reducible
      repeat' first
        | assumption | apply State.unitBusy_keeps | apply State.descDone_keeps | apply_assumption | apply Keeps.ite
        | intro _ | split | dsimp -iota only | dsimp only
  
theorem execChkRingTail_keeps {z0 : State} {unit tail : Nat} {sram area : List Host.Cell} {s : State} (hK : Keeps z0 s) :
    KeepsRes z0 (execChkRingTail unit tail sram area s) := by
  unfold execChkRingTail
  repeat' first
    | with_reducible assumption
    | with_reducible exact Keeps.refl _
    | (with_reducible refine KeepsRes.next ?_)
    | (with_reducible refine State.setRw_keeps ?_)
    | (with_reducible refine State.skipBad_keeps ?_)
    | (with_reducible refine Keeps.getD ?_ ?_)
    | (with_reducible refine Keeps.mapPair (by assumption) ?_)
    | (with_reducible refine Keeps.foldl (fun st x hst => ?_) ?_)
    | (with_reducible refine Keeps.foldlFst (fun st x hst => ?_) ?_)
    | (with_reducible refine Keeps.foldlSnd (fun st x hst => ?_) ?_)
    | (with_reducible refine Keeps.ite ?_ ?_)
    | intro _
    | split
    | dsimp -iota only
    | dsimp only
    | dsimp only [id]
    | exact memWf_nil _
    | (fail_if_success (with_reducible refine Keeps.same ?_)
       with_reducible refine Keeps.mk ?_ ?_ ?_ ?_ ?_ ?_ ?_ ?_ ?_ ?_ ?_ ?_ ?_ <;>
         first | with_reducible exact Nat.le_refl _ | with_reducible exact List.prefix_rfl | with_reducible exact fun hm => hm |
           with_reducible exact List.prefix_append _ _ | with_reducible exact Nat.le_succ _ | with_reducible exact memWriteN_wf | with_reducible exact memClear_wf |
           with_reducible exact memPaste_wf | with_reducible exact memWrite_wf | with_reducible exact memWriteLE_wf | with_reducible exact fun _ => rfl | exact fun _ => memWf_nil _ |
           with_reducible exact fun hm => memWriteN_wf (memWriteN_wf hm) | exact fun _ => rfl |
           exact fun hm => memFold_wf (fun m y hh => memWrite_wf hh) hm |
           exact fun _ => memFold_wf (fun m y hh => memWrite_wf hh) (memWf_nil _) | skip)

theorem State.cvDone_keeps {z0 : State} {s : State} {u : Nat} {bad : Bool} (hK : Keeps z0 s) :
    Keeps z0 (State.cvDone s u bad) := by
  unfold State.cvDone
  with_reducible
    repeat' first
      | assumption | apply State.setFld_keeps | apply State.setFlag_keeps | apply State.raiseD_keeps
      | apply State.descDone_keeps | apply State.skipBad_keeps | apply Keeps.ite | intro _ | split | dsimp -iota only
      | dsimp only | ((fail_if_success apply Keeps.same); refine Keeps.mk ?_)

theorem execCvDescriptorDone_keeps {z0 : State} {unit : Nat} {bad : Bool} {s : State} (hK : Keeps z0 s) :
    KeepsRes z0 (execCvDescriptorDone unit bad s) := by
  unfold execCvDescriptorDone
  with_reducible
    repeat' first
      | assumption | apply KeepsRes.next | apply State.cvDone_keeps | apply Keeps.ite | intro _ | split
      | dsimp -iota only | dsimp only

theorem execUnitReset_keeps {z0 : State} {unit : Nat} {s : State} (hK : Keeps z0 s) :
    KeepsRes z0 (execUnitReset unit s) := by
  unfold execUnitReset
  with_reducible
    repeat' first
      | assumption | apply KeepsRes.next | apply State.setFld_keeps | apply State.setFlag_keeps | apply Keeps.ite
      | intro _ | split | dsimp -iota only | dsimp only

end Sys2Proof.Machine
end

