-- ==== Sys2Proof/Laws/KeepLoadIn.lean ====
section
/-! SUPPORT. What the operations of Machine/LoadIn.lean keep. -/

set_option Elab.async false

namespace Sys2Proof.Machine

theorem State.putGroup_keeps {z0 : State} {s : State} {g : Group} (hK : Keeps z0 s) :
    Keeps z0 (State.putGroup s g) := by
  unfold State.putGroup
  with_reducible
    repeat' first
      | assumption | intro _ | split | dsimp -iota only | dsimp only
      | ((fail_if_success apply Keeps.same); refine Keeps.mk ?_)

theorem State.replayTable_keeps {z0 : State} {s : State} {old : List Group} {r : JRec} (hK : Keeps z0 s) :
    Keeps z0 (State.replayTable s old r) := by
  unfold State.replayTable
  with_reducible
    repeat' first
      | assumption | apply State.take_keeps | apply State.setTabEntry_keeps | apply State.setGroup_keeps
      | apply State.drop_keeps | apply State.putGroup_keeps | refine Keeps.getD ?_ ?_ | apply Keeps.ite | intro _
      | split | dsimp -iota only | dsimp only | ((fail_if_success apply Keeps.same); refine Keeps.mk ?_)

theorem State.loadTables_keeps {z0 : State} {s : State} {old : List Group} {recs : List JRec} (hK : Keeps z0 s) :
    Keeps z0 (State.loadTables s old recs) := by
  unfold State.loadTables
  with_reducible
    repeat' first
      | assumption | apply State.setTab_keeps | apply State.setTabEntry_keeps | apply State.clearShadow_keeps
      | apply State.replayTable_keeps | refine Keeps.foldl (fun _ _ _ => ?_) ?_
      | refine Keeps.foldlFst (fun _ _ _ => ?_) ?_ | refine Keeps.foldlSnd (fun _ _ _ => ?_) ?_ | intro _ | split
      | dsimp -iota only | dsimp only | ((fail_if_success apply Keeps.same); refine Keeps.mk ?_)

theorem State.loadMap_keeps {z0 : State} {s : State} {recs : List JRec} (hK : Keeps z0 s) :
    Keeps z0 (State.loadMap s recs) := by
  unfold State.loadMap
  repeat' first
    | with_reducible assumption
    | with_reducible exact Keeps.refl _
    | (with_reducible refine State.setFld_keeps ?_)
    | (with_reducible refine State.cacheCount_keeps ?_)
    | (with_reducible refine State.jRecount_keeps ?_)
    | (with_reducible refine Keeps.getD ?_ ?_)
    | (with_reducible refine Keeps.mapPair (by assumption) ?_)
    | (with_reducible refine Keeps.foldl (fun st x hst => ?_) ?_)
    | (with_reducible refine Keeps.foldlFst (fun st x hst => ?_) ?_)
    | (with_reducible refine Keeps.foldlSnd (fun st x hst => ?_) ?_)
    | (with_reducible refine Keeps.ite ?_ ?_)
    | intro _
    | split
    | dsimp -iota only
    | dsimp only
    | dsimp only [id]
    | exact memWf_nil _
    | (fail_if_success (with_reducible refine Keeps.same ?_)
       with_reducible refine Keeps.mk ?_ ?_ ?_ ?_ ?_ ?_ ?_ ?_ ?_ ?_ ?_ ?_ ?_ <;>
         first | with_reducible exact Nat.le_refl _ | with_reducible exact List.prefix_rfl | with_reducible exact fun hm => hm |
           with_reducible exact List.prefix_append _ _ | with_reducible exact Nat.le_succ _ | with_reducible exact memWriteN_wf | with_reducible exact memClear_wf |
           with_reducible exact memPaste_wf | with_reducible exact memWrite_wf | with_reducible exact memWriteLE_wf | with_reducible exact fun _ => rfl | exact fun _ => memWf_nil _ |
           with_reducible exact fun hm => memWriteN_wf (memWriteN_wf hm) | exact fun _ => rfl |
           exact fun hm => memFold_wf (fun m y hh => memWrite_wf hh) hm |
           exact fun _ => memFold_wf (fun m y hh => memWrite_wf hh) (memWf_nil _) | skip)

theorem State.replay_keeps {z0 : State} {s : State} (hK : Keeps z0 s) :
    Keeps z0 (State.replay s) := by
  unfold State.replay
  with_reducible
    repeat' first
      | assumption | apply State.journal3_keeps | apply State.jReplace_keeps | apply State.loadTables_keeps
      | apply State.loadMap_keeps | intro _ | split | dsimp -iota only | dsimp only

theorem State.redoErase_keeps {z0 : State} {s : State} {a : Nat} (hK : Keeps z0 s) :
    Keeps z0 (State.redoErase s a) := by
  unfold State.redoErase
  with_reducible
    repeat' first
      | assumption | apply State.raiseD_keeps | apply State.jAppend_keeps | apply State.setDie_keeps
      | apply State.setPermits_keeps | apply State.clearPermit_keeps | apply Keeps.ite | intro _ | split
      | dsimp -iota only | dsimp only | ((fail_if_success apply Keeps.same); refine Keeps.mk ?_)

theorem State.redoErases_keeps {z0 : State} {s : State} (hK : Keeps z0 s) :
    Keeps z0 (State.redoErases s) := by
  unfold State.redoErases
  with_reducible
    repeat' first
      | assumption | apply State.groupGone_keeps | apply State.redoErase_keeps
      | refine Keeps.foldl (fun _ _ _ => ?_) ?_ | refine Keeps.foldlFst (fun _ _ _ => ?_) ?_
      | refine Keeps.foldlSnd (fun _ _ _ => ?_) ?_ | intro _ | split | dsimp -iota only | dsimp only
      | ((fail_if_success apply Keeps.same); refine Keeps.mk ?_)

theorem State.residentLoad_keeps {z0 : State} {s : State} {e : Rgn} {f : Nat} (hK : Keeps z0 s) :
    Keeps z0 (State.residentLoad s e f) := by
  unfold State.residentLoad
  with_reducible
    repeat' first
      | assumption | apply State.setFolio_keeps | apply State.touch_keeps | apply State.residentIn_keeps
      | apply Keeps.ite | intro _ | split | dsimp -iota only | dsimp only
      | ((fail_if_success apply Keeps.same); refine Keeps.mk ?_)

theorem State.fillResident_keeps {z0 : State} {s : State} (hK : Keeps z0 s) :
    Keeps z0 (State.fillResident s) := by
  unfold State.fillResident
  with_reducible
    repeat' first
      | assumption | apply State.setStagePool_keeps | apply State.mapRegion_keeps | apply State.residentLoad_keeps
      | refine Keeps.foldl (fun _ _ _ => ?_) ?_ | refine Keeps.foldlFst (fun _ _ _ => ?_) ?_
      | refine Keeps.foldlSnd (fun _ _ _ => ?_) ?_ | apply Keeps.ite | intro _ | split | dsimp -iota only | dsimp only

theorem State.reserveBlock_keepsE {z0 s tE : State} {slot k uE : Nat} (hE : State.reserveBlock s slot k = some (uE, tE))
    (h : Keeps z0 s) : Keeps z0 tE := by
  refine Keeps.findSome hE ?_
  intro x b u hx
  exact State.takeBlock_keepsE hx h

theorem State.reserveOne_keeps {z0 : State} {s : State} {k : Nat} (hK : Keeps z0 s) :
    Keeps z0 (State.reserveOne s k) := by
  unfold State.reserveOne
  with_reducible
    repeat' first
      | assumption | apply State.eraseNow_keeps | refine State.reserveBlock_keepsE (by assumption) ?_
      | refine Keeps.foldl (fun _ _ _ => ?_) ?_ | refine Keeps.foldlFst (fun _ _ _ => ?_) ?_
      | refine Keeps.foldlSnd (fun _ _ _ => ?_) ?_ | apply Keeps.ite | intro _ | split | dsimp -iota only | dsimp only
      | ((fail_if_success apply Keeps.same); refine Keeps.mk ?_)

theorem State.reserveForm_keeps {z0 : State} {s : State} (hK : Keeps z0 s) :
    Keeps z0 (State.reserveForm s) := by
  unfold State.reserveForm
  with_reducible
    repeat' first
      | assumption | apply State.reserveOne_keeps | refine Keeps.foldl (fun _ _ _ => ?_) ?_
      | refine Keeps.foldlFst (fun _ _ _ => ?_) ?_ | refine Keeps.foldlSnd (fun _ _ _ => ?_) ?_ | intro _ | split
      | dsimp -iota only | dsimp only

theorem State.loadFail_keeps {z0 : State} {s : State} (hK : Keeps z0 s) :
    Keeps z0 (State.loadFail s) := by
  unfold State.loadFail
  with_reducible
    repeat' first
      | assumption | apply State.raise_keeps | apply State.sceneChange_keeps | intro _ | split | dsimp -iota only
      | dsimp only | ((fail_if_success apply Keeps.same); refine Keeps.mk ?_)

theorem State.loadInGo_keeps {z0 : State} {s : State} (hK : Keeps z0 s) :
    Keeps z0 (State.loadInGo s) := by
  unfold State.loadInGo
  with_reducible
    repeat' first
      | assumption | apply State.setCeiling_keeps | apply State.twinSend_keeps | apply State.flashRegs_keeps
      | apply State.journalReq_keeps | apply State.replay_keeps | apply State.redoErases_keeps
      | apply State.fillResident_keeps | apply State.reserveForm_keeps | apply State.loadFail_keeps | apply Keeps.ite
      | intro _ | split | dsimp -iota only | dsimp only | ((fail_if_success apply Keeps.same); refine Keeps.mk ?_)

theorem State.strikeMissing_keeps {z0 : State} {s : State} (hK : Keeps z0 s) :
    Keeps z0 (State.strikeMissing s) := by
  unfold State.strikeMissing
  with_reducible
    repeat' first
      | assumption | apply State.raise_keeps | apply State.sceneChange_keeps | apply State.epochWrite_keeps
      | apply State.twinFall_keeps | apply State.sendHello_keeps | apply Keeps.ite | intro _ | split
      | dsimp -iota only | dsimp only | ((fail_if_success apply Keeps.same); refine Keeps.mk ?_)

theorem State.strikeSeqLoad_keeps {z0 : State} {s : State} (hK : Keeps z0 s) :
    Keeps z0 (State.strikeSeqLoad s) := by
  unfold State.strikeSeqLoad
  with_reducible
    repeat' first
      | assumption | apply State.setFld_keeps | intro _ | split | dsimp -iota only | dsimp only

theorem State.loadInStart_keeps {z0 : State} {s : State} (hK : Keeps z0 s) :
    Keeps z0 (State.loadInStart s) := by
  unfold State.loadInStart
  with_reducible
    repeat' first
      | assumption | apply State.raise_keeps | apply State.loadInGo_keeps | apply State.strikeMissing_keeps
      | apply State.strikeSeqLoad_keeps | apply Keeps.ite | intro _ | split | dsimp -iota only | dsimp only
      | ((fail_if_success apply Keeps.same); refine Keeps.mk ?_)

theorem execLoadInStart_keeps {z0 : State} {s : State} (hK : Keeps z0 s) :
    KeepsRes z0 (execLoadInStart s) := by
  unfold execLoadInStart
  with_reducible
    repeat' first
      | assumption | apply KeepsRes.next | apply State.settle_keeps | apply State.loadInStart_keeps | intro _ | split
      | dsimp -iota only | dsimp only

theorem State.reserveShort_keeps {z0 : State} {s : State} (hK : Keeps z0 s) :
    Keeps z0 (State.reserveShort s) := by
  unfold State.reserveShort
  with_reducible
    repeat' first
      | assumption | apply State.raise_keeps | apply Keeps.ite | intro _ | split | dsimp -iota only | dsimp only
      | ((fail_if_success apply Keeps.same); refine Keeps.mk ?_)

theorem execReserveShort_keeps {z0 : State} {s : State} (hK : Keeps z0 s) :
    KeepsRes z0 (execReserveShort s) := by
  unfold execReserveShort
  with_reducible
    repeat' first
      | assumption | apply KeepsRes.next | apply State.reserveShort_keeps | intro _ | split | dsimp -iota only
      | dsimp only

theorem execHoldupSenseSample_keeps {z0 : State} {count : Nat} {s : State} (hK : Keeps z0 s) :
    KeepsRes z0 (execHoldupSenseSample count s) := by
  unfold execHoldupSenseSample
  with_reducible
    repeat' first
      | assumption | apply KeepsRes.next | apply State.settle_keeps | apply State.senseBank_keeps
      | apply State.loadInGo_keeps | intro _ | split | dsimp -iota only | dsimp only

theorem State.loadLeaf_keeps {z0 : State} {s : State} {index : Nat} {good : Bool} (hK : Keeps z0 s) :
    Keeps z0 (State.loadLeaf s index good) := by
  unfold State.loadLeaf
  with_reducible
    repeat' first
      | assumption | apply State.loadFail_keeps | apply State.loadInGo_keeps | apply Keeps.ite | intro _ | split
      | dsimp -iota only | dsimp only | ((fail_if_success apply Keeps.same); refine Keeps.mk ?_)

theorem execJournalCopy_keeps {z0 : State} {h : TwinHead} {index first : Nat} {recs : List JRec} {good : Bool} {s : State} (hK : Keeps z0 s) :
    KeepsRes z0 (execJournalCopy h index first recs good s) := by
  unfold execJournalCopy
  with_reducible
    repeat' first
      | assumption | apply KeepsRes.next | apply State.settle_keeps | apply State.receive_keeps
      | apply State.journalCopy_keeps | apply State.loadLeaf_keeps | apply Keeps.ite | intro _ | split
      | dsimp -iota only | dsimp only

theorem execFetchNak_keeps {z0 : State} {h : TwinHead} {id status : Nat} {s : State} (hK : Keeps z0 s) :
    KeepsRes z0 (execFetchNak h id status s) := by
  unfold execFetchNak
  with_reducible
    repeat' first
      | assumption | apply KeepsRes.next | apply State.settle_keeps | apply State.receive_keeps
      | apply State.fetchNak_keeps | apply State.loadFail_keeps | apply Keeps.ite | intro _ | split | dsimp -iota only
      | dsimp only

theorem State.loadRole_keeps {z0 : State} {s : State} (hK : Keeps z0 s) :
    Keeps z0 (State.loadRole s) := by
  unfold State.loadRole
  with_reducible
    repeat' first
      | assumption | apply State.takeRole_keeps | apply State.settleRoles_keeps | apply Keeps.ite | intro _ | split
      | dsimp -iota only | dsimp only

theorem State.loadInDone_keeps {z0 : State} {s : State} (hK : Keeps z0 s) :
    Keeps z0 (State.loadInDone s) := by
  unfold State.loadInDone
  with_reducible
    repeat' first
      | assumption | apply State.raise_keeps | apply State.submitReshape_keeps | apply State.flashRegs_keeps
      | apply State.widthUpdate_keeps | apply State.sentNormal_keeps | apply State.reserveForm_keeps
      | apply State.loadRole_keeps | apply Keeps.ite | intro _ | split | dsimp -iota only | dsimp only
      | ((fail_if_success apply Keeps.same); refine Keeps.mk ?_)

end Sys2Proof.Machine
end

