-- ==== Sys2Proof/Laws/KeepMaint.lean ====
section
/-! SUPPORT. What the operations of Machine/Maint.lean keep. -/

set_option Elab.async false

namespace Sys2Proof.Machine

theorem State.swapStart_keeps {z0 : State} {s : State} {j : Job} {pass : Bool} (hK : Keeps z0 s) :
    Keeps z0 (State.swapStart s j pass) := by
  unfold State.swapStart
  with_reducible
    repeat' first
      | assumption | apply State.setRw_keeps | apply State.endJob_keeps | apply State.swapTested_keeps
      | apply State.swapDone_keeps | apply Keeps.ite | intro _ | split | dsimp -iota only | dsimp only
      | ((fail_if_success apply Keeps.same); refine Keeps.mk ?_)

theorem State.handoverStart_keeps {z0 : State} {s : State} {j : Job} (hK : Keeps z0 s) :
    Keeps z0 (State.handoverStart s j) := by
  unfold State.handoverStart
  with_reducible
    repeat' first
      | assumption | apply State.endJob_keeps | apply Keeps.ite | intro _ | split | dsimp -iota only | dsimp only
      | ((fail_if_success apply Keeps.same); refine Keeps.mk ?_)

theorem State.sceneStart_keeps {z0 : State} {s : State} {j : Job} (hK : Keeps z0 s) :
    Keeps z0 (State.sceneStart s j) := by
  unfold State.sceneStart
  with_reducible
    repeat' first
      | assumption | apply State.raise_keeps | apply State.takeImages_keeps | apply State.reloadBase_keeps
      | apply State.endJob_keeps | apply State.sceneJobGo_keeps | apply Keeps.ite | intro _ | split | dsimp -iota only
      | dsimp only

theorem State.rehearsalStart_keeps {z0 : State} {s : State} {j : Job} {fail : Nat} (hK : Keeps z0 s) :
    Keeps z0 (State.rehearsalStart s j fail) := by
  unfold State.rehearsalStart
  with_reducible
    repeat' first
      | assumption | apply State.setJob_keeps | apply State.endJob_keeps | apply State.holdupTest_keeps
      | apply Keeps.ite | intro _ | split | dsimp -iota only | dsimp only
      | ((fail_if_success apply Keeps.same); refine Keeps.mk ?_)

theorem State.runJob_keeps {z0 : State} {s : State} {j : Job} {o : JobOut} (hK : Keeps z0 s) :
    Keeps z0 (State.runJob s j o) := by
  unfold State.runJob
  with_reducible
    repeat' first
      | assumption | apply State.raise_keeps | apply State.endJob_keeps | apply State.admitExamine_keeps
      | apply State.removeStart_keeps | apply State.retrain_keeps | apply State.dramRepair_keeps
      | refine State.dramRepair_keepsE (by assumption) ?_ | apply State.dramRelease_keeps
      | refine State.dramRelease_keepsE (by assumption) ?_ | apply State.strike_keeps | apply State.fwOnline_keeps
      | apply State.swapStart_keeps | apply State.handoverStart_keeps | apply State.sceneStart_keeps
      | apply State.rehearsalStart_keeps | intro _ | split | dsimp -iota only | dsimp only

theorem State.startJob_keeps {z0 : State} {s : State} {j : Job} {o : JobOut} (hK : Keeps z0 s) :
    Keeps z0 (State.startJob s j o) := by
  unfold State.startJob
  with_reducible
    repeat' first
      | assumption | apply State.markStarted_keeps | apply State.runJob_keeps | intro _ | split | dsimp -iota only
      | dsimp only

theorem State.tryStart_keeps {z0 : State} {s : State} {id : Nat} {o : JobOut} (hK : Keeps z0 s) :
    Keeps z0 (State.tryStart s id o) := by
  unfold State.tryStart
  with_reducible
    repeat' first
      | assumption | apply State.startJob_keeps | apply Keeps.ite | intro _ | split | dsimp -iota only | dsimp only

theorem State.submitMail_keeps {z0 : State} {s : State} {mb : Nat} {input : List Byte} {go : Option JobOut} (hK : Keeps z0 s) :
    Keeps z0 (State.submitMail s mb input go) := by
  unfold State.submitMail
  with_reducible
    repeat' first
      | assumption | apply State.vendor_keeps | apply State.submit_keeps
      | refine State.submit_keepsE (by assumption) ?_ | apply State.submitTell_keeps | apply State.tryStart_keeps
      | apply Keeps.ite | intro _ | split | dsimp -iota only | dsimp only

theorem State.submitRun_keeps {z0 : State} {s : State} {fr : JobFrom} {queue : Bool} {act target p0 p1 p2 : Nat} {o : JobOut} (hK : Keeps z0 s) :
    Keeps z0 (State.submitRun s fr queue act target p0 p1 p2 o) := by
  unfold State.submitRun
  with_reducible
    repeat' first
      | assumption | apply State.submit_keeps | refine State.submit_keepsE (by assumption) ?_
      | apply State.submitTell_keeps | apply State.tryStart_keeps | apply State.submitMail_keeps | apply Keeps.ite
      | intro _ | split | dsimp -iota only | dsimp only

theorem execDramRepair_keeps {z0 : State} {fr : JobFrom} {queue : Bool} {channel row device : Nat} {soft : Bool} {s : State} (hK : Keeps z0 s) :
    KeepsRes z0 (execDramRepair fr queue channel row device soft s) := by
  unfold execDramRepair
  with_reducible
    repeat' first
      | assumption | apply KeepsRes.next | apply State.settle_keeps | apply State.submitRun_keeps | intro _ | split
      | dsimp -iota only | dsimp only | ((fail_if_success apply Keeps.same); refine Keeps.mk ?_)

theorem execDramRetrain_keeps {z0 : State} {fr : JobFrom} {queue : Bool} {channel temp owed : Nat} {s : State} (hK : Keeps z0 s) :
    KeepsRes z0 (execDramRetrain fr queue channel temp owed s) := by
  unfold execDramRetrain
  with_reducible
    repeat' first
      | assumption | apply KeepsRes.next | apply State.settle_keeps | apply State.submitRun_keeps | intro _ | split
      | dsimp -iota only | dsimp only | ((fail_if_success apply Keeps.same); refine Keeps.mk ?_)

theorem execDramRelease_keeps {z0 : State} {fr : JobFrom} {queue : Bool} {channel : Nat} {pass : Bool} {words : List Nat} {s : State} (hK : Keeps z0 s) :
    KeepsRes z0 (execDramRelease fr queue channel pass words s) := by
  unfold execDramRelease
  with_reducible
    repeat' first
      | assumption | apply KeepsRes.next | apply State.settle_keeps | apply State.submitRun_keeps | intro _ | split
      | dsimp -iota only | dsimp only | ((fail_if_success apply Keeps.same); refine Keeps.mk ?_)

theorem execSlotRemove_keeps {z0 : State} {fr : JobFrom} {queue : Bool} {slot : Nat} {s : State} (hK : Keeps z0 s) :
    KeepsRes z0 (execSlotRemove fr queue slot s) := by
  unfold execSlotRemove
  with_reducible
    repeat' first
      | assumption | apply KeepsRes.next | apply State.settle_keeps | apply State.submitRun_keeps | intro _ | split
      | dsimp -iota only | dsimp only

theorem execSlotAdmit_keeps {z0 : State} {fr : JobFrom} {queue : Bool} {slot : Nat} {s : State} (hK : Keeps z0 s) :
    KeepsRes z0 (execSlotAdmit fr queue slot s) := by
  unfold execSlotAdmit
  with_reducible
    repeat' first
      | assumption | apply KeepsRes.next | apply State.settle_keeps | apply State.submitRun_keeps | intro _ | split
      | dsimp -iota only | dsimp only

theorem execFwUpdate_keeps {z0 : State} {fr : JobFrom} {queue signed : Bool} {s : State} (hK : Keeps z0 s) :
    KeepsRes z0 (execFwUpdate fr queue signed s) := by
  unfold execFwUpdate
  with_reducible
    repeat' first
      | assumption | apply KeepsRes.next | apply State.settle_keeps | apply State.submitRun_keeps | intro _ | split
      | dsimp -iota only | dsimp only | ((fail_if_success apply Keeps.same); refine Keeps.mk ?_)

theorem execPlannedHandover_keeps {z0 : State} {fr : JobFrom} {queue : Bool} {s : State} (hK : Keeps z0 s) :
    KeepsRes z0 (execPlannedHandover fr queue s) := by
  unfold execPlannedHandover
  with_reducible
    repeat' first
      | assumption | apply KeepsRes.next | apply State.settle_keeps | apply State.submitRun_keeps | intro _ | split
      | dsimp -iota only | dsimp only

theorem execScribeSwap_keeps {z0 : State} {fr : JobFrom} {queue : Bool} {scribe timeout : Nat} {pass : Bool} {s : State} (hK : Keeps z0 s) :
    KeepsRes z0 (execScribeSwap fr queue scribe timeout pass s) := by
  unfold execScribeSwap
  with_reducible
    repeat' first
      | assumption | apply KeepsRes.next | apply State.settle_keeps | apply State.submitRun_keeps | intro _ | split
      | dsimp -iota only | dsimp only | ((fail_if_success apply Keeps.same); refine Keeps.mk ?_)

theorem execSceneChange_keeps {z0 : State} {fr : JobFrom} {queue : Bool} {p0 : Nat} {s : State} (hK : Keeps z0 s) :
    KeepsRes z0 (execSceneChange fr queue p0 s) := by
  unfold execSceneChange
  with_reducible
    repeat' first
      | assumption | apply KeepsRes.next | apply State.submitRun_keeps | intro _ | split | dsimp -iota only
      | dsimp only

theorem execRehearsal_keeps {z0 : State} {fr : JobFrom} {queue : Bool} {mask fail : Nat} {s : State} (hK : Keeps z0 s) :
    KeepsRes z0 (execRehearsal fr queue mask fail s) := by
  unfold execRehearsal
  with_reducible
    repeat' first
      | assumption | apply KeepsRes.next | apply State.submitRun_keeps | intro _ | split | dsimp -iota only
      | dsimp only | ((fail_if_success apply Keeps.same); refine Keeps.mk ?_)

theorem execPowerCycle_keeps {z0 : State} {fr : JobFrom} {queue : Bool} {confirm : Nat} {s : State} (hK : Keeps z0 s) :
    KeepsRes z0 (execPowerCycle fr queue confirm s) := by
  unfold execPowerCycle
  with_reducible
    repeat' first
      | assumption | apply KeepsRes.next | apply State.settle_keeps | apply State.cycleNow_keeps
      | apply State.submitRun_keeps | intro _ | split | dsimp -iota only | dsimp only

theorem State.maintStart_keeps {z0 : State} {s : State} {o : JobOut} (hK : Keeps z0 s) :
    Keeps z0 (State.maintStart s o) := by
  unfold State.maintStart
  with_reducible
    repeat' first
      | assumption | apply State.startJob_keeps | intro _ | split | dsimp -iota only | dsimp only

theorem execMaintStart_keeps {z0 : State} {o : JobOut} {s : State} (hK : Keeps z0 s) :
    KeepsRes z0 (execMaintStart o s) := by
  unfold execMaintStart
  with_reducible
    repeat' first
      | assumption | apply KeepsRes.next | apply State.settle_keeps | apply State.maintStart_keeps | intro _ | split
      | dsimp -iota only | dsimp only

theorem State.drainTimeout_keeps {z0 : State} {s : State} (hK : Keeps z0 s) :
    Keeps z0 (State.drainTimeout s) := by
  unfold State.drainTimeout
  with_reducible
    repeat' first
      | assumption | apply State.endCtx_keeps | refine Keeps.foldl (fun _ _ _ => ?_) ?_
      | refine Keeps.foldlFst (fun _ _ _ => ?_) ?_ | refine Keeps.foldlSnd (fun _ _ _ => ?_) ?_ | apply Keeps.ite
      | intro _ | split | dsimp -iota only | dsimp only

theorem execDrainTimeout_keeps {z0 : State} {s : State} (hK : Keeps z0 s) :
    KeepsRes z0 (execDrainTimeout s) := by
  unfold execDrainTimeout
  with_reducible
    repeat' first
      | assumption | apply KeepsRes.next | apply State.settle_keeps | apply State.drainTimeout_keeps | intro _ | split
      | dsimp -iota only | dsimp only

theorem State.prepareCancel_keeps {z0 : State} {s : State} {slot : Nat} (hK : Keeps z0 s) :
    Keeps z0 (State.prepareCancel s slot) := by
  unfold State.prepareCancel
  with_reducible
    repeat' first
      | assumption | apply State.flashRegs_keeps | apply State.widthUpdate_keeps | apply State.slotLed_keeps
      | apply State.setSlot_keeps | intro _ | split | dsimp -iota only | dsimp only

theorem State.cancelJob_keeps {z0 : State} {s : State} {id : Nat} (hK : Keeps z0 s) :
    Keeps z0 (State.cancelJob s id).1 := by
  unfold State.cancelJob
  with_reducible
    repeat' first
      | assumption | apply State.endJob_keeps | apply State.cartRefuse_keeps | apply State.swapCancel_keeps
      | apply State.prepareCancel_keeps | apply Keeps.ite | intro _ | split | dsimp -iota only | dsimp only
      | ((fail_if_success apply Keeps.same); refine Keeps.mk ?_)

theorem State.cancelJob_keepsE {z0 : State} {s : State} {id : Nat} {tE : State} {uE} (hE : State.cancelJob s id = (tE, uE)) (hK : Keeps z0 s) :
    Keeps z0 tE := by
  have k := State.cancelJob_keeps (z0 := z0) (s := s) (id := id)  hK
  rw [hE] at k
  exact k

theorem execMaintCancel_keeps {z0 : State} {mb : Nat} {input : List Byte} {s : State} (hK : Keeps z0 s) :
    KeepsRes z0 (execMaintCancel mb input s) := by
  unfold execMaintCancel
  with_reducible
    repeat' first
      | assumption | apply KeepsRes.next | apply State.answer_keeps | apply State.settle_keeps
      | apply State.vendor_keeps | apply State.cancelJob_keeps | refine State.cancelJob_keepsE (by assumption) ?_
      | intro _ | split | dsimp -iota only | dsimp only

theorem execMaintQry_keeps {z0 : State} {id : Nat} {s : State} (hK : Keeps z0 s) :
    KeepsRes z0 (execMaintQry id s) := by
  unfold execMaintQry
  with_reducible
    repeat' first
      | assumption | apply KeepsRes.next | apply State.setLive_keeps | intro _ | split | dsimp -iota only | dsimp only

theorem State.submitFor_keeps {z0 : State} {s : State} {mb op : Nat} {queue : Bool} {act target p0 : Nat} {late : Bool} {o : JobOut} (hK : Keeps z0 s) :
    Keeps z0 (State.submitFor s mb op queue act target p0 late o) := by
  unfold State.submitFor
  with_reducible
    repeat' first
      | assumption | apply State.answer_keeps | apply State.setJob_keeps | apply State.submit_keeps
      | refine State.submit_keepsE (by assumption) ?_ | apply State.tryStart_keeps | apply Keeps.ite | intro _ | split
      | dsimp -iota only | dsimp only | ((fail_if_success apply Keeps.same); refine Keeps.mk ?_)

theorem execSceneSet_keeps {z0 : State} {mb : Nat} {input : List Byte} {s : State} (hK : Keeps z0 s) :
    KeepsRes z0 (execSceneSet mb input s) := by
  unfold execSceneSet
  with_reducible
    repeat' first
      | assumption | apply KeepsRes.next | apply State.answer_keeps | apply State.vendor_keeps
      | apply State.submitFor_keeps | apply Keeps.ite | intro _ | split | dsimp -iota only | dsimp only

theorem execPrepareRemoval_keeps {z0 : State} {mb : Nat} {input : List Byte} {s : State} (hK : Keeps z0 s) :
    KeepsRes z0 (execPrepareRemoval mb input s) := by
  unfold execPrepareRemoval
  with_reducible
    repeat' first
      | assumption | apply KeepsRes.next | apply State.answer_keeps | apply State.settle_keeps
      | apply State.slotControl_keeps | apply State.submitFor_keeps | apply Keeps.ite | intro _ | split
      | dsimp -iota only | dsimp only

theorem State.freezeRelease_keeps {z0 : State} {s : State} {mb c : Nat} {pass : Bool} {words : List Nat} (hK : Keeps z0 s) :
    Keeps z0 (State.freezeRelease s mb c pass words) := by
  unfold State.freezeRelease
  with_reducible
    repeat' first
      | assumption | apply State.answer_keeps | apply State.submitFor_keeps | apply Keeps.ite | intro _ | split
      | dsimp -iota only | dsimp only | ((fail_if_success apply Keeps.same); refine Keeps.mk ?_)

theorem execFreezeRelease_keeps {z0 : State} {mb : Nat} {input : List Byte} {pass : Bool} {words : List Nat} {s : State} (hK : Keeps z0 s) :
    KeepsRes z0 (execFreezeRelease mb input pass words s) := by
  unfold execFreezeRelease
  with_reducible
    repeat' first
      | assumption | apply KeepsRes.next | apply State.settle_keeps | apply State.holdMailOut_keeps
      | apply State.vendor_keeps | apply State.freezeRelease_keeps | apply Keeps.ite | intro _ | split
      | dsimp -iota only | dsimp only

theorem execRehearsalRun_keeps {z0 : State} {mb : Nat} {input : List Byte} {fail : Nat} {s : State} (hK : Keeps z0 s) :
    KeepsRes z0 (execRehearsalRun mb input fail s) := by
  unfold execRehearsalRun
  with_reducible
    repeat' first
      | assumption | apply KeepsRes.next | apply State.holdMailOut_keeps | apply State.vendor_keeps
      | apply State.submitFor_keeps | apply Keeps.ite | intro _ | split | dsimp -iota only | dsimp only
      | ((fail_if_success apply Keeps.same); refine Keeps.mk ?_)

end Sys2Proof.Machine
end

