-- ==== Sys2Proof/Laws/KeepSecure.lean ====
section
/-! SUPPORT. What the operations of Machine/Secure.lean keep. -/

set_option Elab.async false

namespace Sys2Proof.Machine

theorem State.storeWrite_keeps {z0 : State} {s : State} {slot kind : Nat} {blob : List Byte} (hK : Keeps z0 s) :
    Keeps z0 (State.storeWrite s slot kind blob) := by
  unfold State.storeWrite
  with_reducible
    repeat' first
      | assumption | apply State.fwEraseWhole_keeps | apply State.pageProg_keeps
      | refine Keeps.foldl (fun _ _ _ => ?_) ?_ | refine Keeps.foldlFst (fun _ _ _ => ?_) ?_
      | refine Keeps.foldlSnd (fun _ _ _ => ?_) ?_ | intro _ | split | dsimp -iota only | dsimp only

theorem State.fuseRegs_keeps {z0 : State} {s : State} (hK : Keeps z0 s) :
    Keeps z0 (State.fuseRegs s) := by
  unfold State.fuseRegs
  with_reducible
    repeat' first
      | assumption | apply State.setFld_keeps | intro _ | split | dsimp -iota only | dsimp only

theorem State.setKeyId_keeps {z0 : State} {s : State} {k id : Nat} (hK : Keeps z0 s) :
    Keeps z0 (State.setKeyId s k id) := by
  unfold State.setKeyId
  with_reducible
    repeat' first
      | assumption | apply State.setLive_keeps | intro _ | split | dsimp -iota only | dsimp only

theorem State.loadStrike_keeps {z0 : State} {s : State} (hK : Keeps z0 s) :
    Keeps z0 (State.loadStrike s) := by
  unfold State.loadStrike
  with_reducible
    repeat' first
      | assumption | apply State.setKeySlot_keeps | intro _ | split | dsimp -iota only | dsimp only
      | ((fail_if_success apply Keeps.same); refine Keeps.mk ?_)

theorem State.deriveKek_keeps {z0 : State} {s : State} (hK : Keeps z0 s) :
    Keeps z0 (State.deriveKek s) := by
  unfold State.deriveKek
  with_reducible
    repeat' first
      | assumption | apply State.setFlag_keeps | apply State.freeBytes_keeps
      | refine State.freeBytes_keepsE (by assumption) ?_ | apply State.storeWrite_keeps | apply Keeps.ite | intro _
      | split | dsimp -iota only | dsimp only

theorem State.loadStored_keeps {z0 : State} {s : State} (hK : Keeps z0 s) :
    Keeps z0 (State.loadStored s) := by
  unfold State.loadStored
  with_reducible
    repeat' first
      | assumption | apply State.setKeySlot_keeps | apply State.setKeyId_keeps | apply State.loadStrike_keeps
      | refine Keeps.foldl (fun _ _ _ => ?_) ?_ | refine Keeps.foldlFst (fun _ _ _ => ?_) ?_
      | refine Keeps.foldlSnd (fun _ _ _ => ?_) ?_ | apply Keeps.ite | intro _ | split | dsimp -iota only | dsimp only

theorem State.bootKeys_keeps {z0 : State} {s : State} (hK : Keeps z0 s) :
    Keeps z0 (State.bootKeys s) := by
  unfold State.bootKeys
  with_reducible
    repeat' first
      | assumption | apply State.setFlag_keeps | apply State.setKeySlot_keeps | apply State.fuseRegs_keeps
      | apply State.deriveKek_keeps | apply State.loadStored_keeps | apply Keeps.ite | intro _ | split
      | dsimp -iota only | dsimp only

theorem State.retag_keeps {z0 : State} {s : State} (hK : Keeps z0 s) :
    Keeps z0 (State.retag s) := by
  unfold State.retag
  with_reducible
    repeat' first
      | assumption | apply State.folioCells_keeps | refine State.folioCells_keepsE (by assumption) ?_
      | apply Pass.store_keeps | apply State.readMove_keeps | refine Keeps.foldl (fun _ _ _ => ?_) ?_
      | refine Keeps.foldlFst (fun _ _ _ => ?_) ?_ | refine Keeps.foldlSnd (fun _ _ _ => ?_) ?_ | apply Keeps.ite
      | intro _ | split | dsimp -iota only | dsimp only | ((fail_if_success apply Keeps.same); refine Keeps.mk ?_)

theorem State.keyPut_keeps {z0 : State} {s : State} {l : KeyLoad} (hK : Keeps z0 s) :
    Keeps z0 (State.keyPut s l) := by
  unfold State.keyPut
  with_reducible
    repeat' first
      | assumption | apply State.raiseD_keeps | apply State.answer_keeps | apply State.setKeySlot_keeps
      | apply State.storeWrite_keeps | apply State.setKeyId_keeps | apply State.retag_keeps | apply Keeps.ite
      | intro _ | split | dsimp -iota only | dsimp only

theorem State.keyWait_keeps {z0 : State} {s : State} {l : KeyLoad} (hK : Keeps z0 s) :
    Keeps z0 (State.keyWait s l) := by
  unfold State.keyWait
  with_reducible
    repeat' first
      | assumption | apply State.raiseD_keeps | apply State.setKeySlot_keeps | intro _ | split | dsimp -iota only
      | dsimp only | ((fail_if_success apply Keeps.same); refine Keeps.mk ?_)

theorem State.keyBegin_keeps {z0 : State} {s : State} {l : KeyLoad} {busy : Bool} (hK : Keeps z0 s) :
    Keeps z0 (State.keyBegin s l busy) := by
  unfold State.keyBegin
  with_reducible
    repeat' first
      | assumption | apply State.keyPut_keeps | apply State.keyWait_keeps | apply Keeps.ite | intro _ | split
      | dsimp -iota only | dsimp only

theorem State.keyDecide_keeps {z0 : State} {s : State} {mb slot gen id : Nat} {blob : List Byte} {good : Bool} (hK : Keeps z0 s) :
    Keeps z0 (State.keyDecide s mb slot gen id blob good) := by
  unfold State.keyDecide
  with_reducible
    repeat' first
      | assumption | apply State.raiseD_keeps | apply State.answer_keeps | apply State.keyBegin_keeps
      | apply Keeps.ite | intro _ | split | dsimp -iota only | dsimp only

theorem State.keyLoad_keeps {z0 : State} {s : State} {mb : Nat} {input : List Byte} {good : Bool} (hK : Keeps z0 s) :
    Keeps z0 (State.keyLoad s mb input good) := by
  unfold State.keyLoad
  with_reducible
    repeat' first
      | assumption | apply State.answer_keeps | apply State.drop_keeps | apply State.keyDecide_keeps | apply Keeps.ite
      | intro _ | split | dsimp -iota only | dsimp only

theorem execKeyLoad_keeps {z0 : State} {mb : Nat} {input : List Byte} {good : Bool} {s : State} (hK : Keeps z0 s) :
    KeepsRes z0 (execKeyLoad mb input good s) := by
  unfold execKeyLoad
  with_reducible
    repeat' first
      | assumption | apply KeepsRes.next | apply State.send_keeps | apply State.answer_keeps
      | apply State.settle_keeps | apply State.holdMailOut_keeps | apply State.keyLoad_keeps | apply Keeps.ite
      | intro _ | split | dsimp -iota only | dsimp only

theorem State.ideReady_keeps {z0 : State} {s : State} {link : Nat} (hK : Keeps z0 s) :
    Keeps z0 (State.ideReady s link) := by
  unfold State.ideReady
  with_reducible
    repeat' first
      | assumption | apply State.setLive_keeps | apply State.setFlag_keeps | apply State.setLink_keeps
      | apply Keeps.ite | intro _ | split | dsimp -iota only | dsimp only
      | ((fail_if_success apply Keeps.same); refine Keeps.mk ?_)

theorem State.keyLoaded__keeps {z0 : State} {s : State} {slot : Nat} (hK : Keeps z0 s) :
    Keeps z0 (State.keyLoaded_ s slot) := by
  unfold State.keyLoaded_
  with_reducible
    repeat' first
      | assumption | apply State.keyPut_keeps | apply State.keyWait_keeps | apply State.ideReady_keeps
      | refine Keeps.foldl (fun _ _ _ => ?_) ?_ | refine Keeps.foldlFst (fun _ _ _ => ?_) ?_
      | refine Keeps.foldlSnd (fun _ _ _ => ?_) ?_ | apply Keeps.ite | intro _ | split | dsimp -iota only | dsimp only
      | ((fail_if_success apply Keeps.same); refine Keeps.mk ?_)

theorem execKeyLoaded_keeps {z0 : State} {slot : Nat} {s : State} (hK : Keeps z0 s) :
    KeepsRes z0 (execKeyLoaded slot s) := by
  unfold execKeyLoaded
  with_reducible
    repeat' first
      | assumption | apply KeepsRes.next | apply State.settle_keeps | apply State.keyLoaded__keeps | intro _ | split
      | dsimp -iota only | dsimp only

theorem State.keyProg_keeps {z0 : State} {s : State} {link : Nat} {busy : Bool} (hK : Keeps z0 s) :
    Keeps z0 (State.keyProg s link busy) := by
  unfold State.keyProg
  with_reducible
    repeat' first
      | assumption | apply State.keyBegin_keeps | apply State.ideReady_keeps | refine Keeps.foldl (fun _ _ _ => ?_) ?_
      | refine Keeps.foldlFst (fun _ _ _ => ?_) ?_ | refine Keeps.foldlSnd (fun _ _ _ => ?_) ?_ | apply Keeps.ite
      | intro _ | split | dsimp -iota only | dsimp only

theorem execKeyProg_keeps {z0 : State} {link : Nat} {busy : Bool} {s : State} (hK : Keeps z0 s) :
    KeepsRes z0 (execKeyProg link busy s) := by
  unfold execKeyProg
  with_reducible
    repeat' first
      | assumption | apply KeepsRes.next | apply State.settle_keeps | apply State.keyProg_keeps | intro _ | split
      | dsimp -iota only | dsimp only

theorem execKeyStatus_keeps {z0 : State} {mb : Nat} {input : List Byte} {s : State} (hK : Keeps z0 s) :
    KeepsRes z0 (execKeyStatus mb input s) := by
  unfold execKeyStatus
  with_reducible
    repeat' first
      | assumption | apply KeepsRes.next | apply State.answer_keeps | apply State.vendor_keeps | intro _ | split
      | dsimp -iota only | dsimp only

theorem State.zeroize_keeps {z0 : State} {s : State} {ok : Nat → Bool} (hK : Keeps z0 s) :
    Keeps z0 (State.zeroize s ok) := by
  unfold State.zeroize
  with_reducible
    repeat' first
      | assumption | apply State.setFld_keeps | apply State.setFlag_keeps | apply State.answer_keeps
      | apply State.setFolio_keeps | apply State.keyCount_keeps | apply State.setKeyId_keeps
      | refine Keeps.foldl (fun _ _ _ => ?_) ?_ | refine Keeps.foldlFst (fun _ _ _ => ?_) ?_
      | refine Keeps.foldlSnd (fun _ _ _ => ?_) ?_ | apply Keeps.ite | intro _ | split | dsimp -iota only | dsimp only
      | ((fail_if_success apply Keeps.same); refine Keeps.mk ?_)

theorem State.ideLost_keeps {z0 : State} {s : State} (hK : Keeps z0 s) :
    Keeps z0 (State.ideLost s) := by
  unfold State.ideLost
  with_reducible
    repeat' first
      | assumption | apply State.setFlag_keeps | apply State.setLink_keeps | refine Keeps.foldl (fun _ _ _ => ?_) ?_
      | refine Keeps.foldlFst (fun _ _ _ => ?_) ?_ | refine Keeps.foldlSnd (fun _ _ _ => ?_) ?_ | apply Keeps.ite
      | intro _ | split | dsimp -iota only | dsimp only | ((fail_if_success apply Keeps.same); refine Keeps.mk ?_)

theorem State.keyAlarm_keeps {z0 : State} {s : State} {source : Nat} (hK : Keeps z0 s) :
    Keeps z0 (State.keyAlarm s source) := by
  unfold State.keyAlarm
  with_reducible
    repeat' first
      | assumption | apply State.setFld_keeps | apply State.setFlag_keeps | apply State.addSat_keeps
      | apply State.raiseD_keeps | apply State.zeroize_keeps | apply State.ideLost_keeps | apply Keeps.ite | intro _
      | split | dsimp -iota only | dsimp only

theorem execKeyAlarm_keeps {z0 : State} {source : Nat} {s : State} (hK : Keeps z0 s) :
    KeepsRes z0 (execKeyAlarm source s) := by
  unfold execKeyAlarm
  with_reducible
    repeat' first
      | assumption | apply KeepsRes.next | apply State.settle_keeps | apply State.keyAlarm_keeps | intro _ | split
      | dsimp -iota only | dsimp only

theorem State.latchProgram_keeps {z0 : State} {s : State} (hK : Keeps z0 s) :
    Keeps z0 (State.latchProgram s) := by
  unfold State.latchProgram
  with_reducible
    repeat' first
      | assumption | apply State.storeWrite_keeps | apply Keeps.ite | intro _ | split | dsimp -iota only | dsimp only
      | ((fail_if_success apply Keeps.same); refine Keeps.mk ?_)

theorem execLatchProgram_keeps {z0 : State} {s : State} (hK : Keeps z0 s) :
    KeepsRes z0 (execLatchProgram s) := by
  unfold execLatchProgram
  with_reducible
    repeat' first
      | assumption | apply KeepsRes.next | apply State.latchProgram_keeps | intro _ | split | dsimp -iota only
      | dsimp only

theorem State.reunwrap_keeps {z0 : State} {s : State} (hK : Keeps z0 s) :
    Keeps z0 (State.reunwrap s) := by
  unfold State.reunwrap
  with_reducible
    repeat' first
      | assumption | apply State.setFlag_keeps | apply State.raise_keeps | apply State.storeWrite_keeps
      | apply State.deriveKek_keeps | apply State.loadStored_keeps | apply State.retag_keeps | apply Keeps.ite
      | intro _ | split | dsimp -iota only | dsimp only | ((fail_if_success apply Keeps.same); refine Keeps.mk ?_)

theorem State.debugJudge_keeps {z0 : State} {s : State} {cert : List Byte} {good : Bool} (hK : Keeps z0 s) :
    Keeps z0 (State.debugJudge s cert good).1 := by
  unfold State.debugJudge
  with_reducible
    repeat' first
      | assumption | apply State.setFld_keeps | apply State.setFlag_keeps | apply State.raiseD_keeps
      | apply State.raise_keeps | apply State.measure_keeps | apply State.zeroize_keeps | apply Keeps.ite | intro _
      | split | dsimp -iota only | dsimp only

theorem State.debugJudge_keepsE {z0 : State} {s : State} {cert : List Byte} {good : Bool} {tE : State} {uE} (hE : State.debugJudge s cert good = (tE, uE)) (hK : Keeps z0 s) :
    Keeps z0 tE := by
  have k := State.debugJudge_keeps (z0 := z0) (s := s) (cert := cert) (good := good)  hK
  rw [hE] at k
  exact k

theorem execDbgcert_keeps {z0 : State} {cert : List Byte} {good : Bool} {s : State} (hK : Keeps z0 s) :
    KeepsRes z0 (execDbgcert cert good s) := by
  unfold execDbgcert
  with_reducible
    repeat' first
      | assumption | apply KeepsRes.next | apply State.settle_keeps | apply State.debugJudge_keeps
      | refine State.debugJudge_keepsE (by assumption) ?_ | apply Keeps.ite | intro _ | split | dsimp -iota only
      | dsimp only

end Sys2Proof.Machine
end

