-- ==== Sys2Proof/Laws/KeepSpdm.lean ====
section
/-! SUPPORT. What the operations of Machine/Spdm.lean keep. -/

set_option Elab.async false

namespace Sys2Proof.Machine

theorem State.spdm_keeps {z0 : State} {s : State} {chan code : Nat} {payload : List Byte} (hK : Keeps z0 s) :
    Keeps z0 (State.spdm s chan code payload) := by
  unfold State.spdm
  with_reducible
    repeat' first
      | assumption | apply State.send_keeps | intro _ | split | dsimp -iota only | dsimp only

theorem State.spdmError_keeps {z0 : State} {s : State} {chan code : Nat} (hK : Keeps z0 s) :
    Keeps z0 (State.spdmError s chan code) := by
  unfold State.spdmError
  with_reducible
    repeat' first
      | assumption | apply State.spdm_keeps | intro _ | split | dsimp -iota only | dsimp only

theorem State.setConn_keeps {z0 : State} {s : State} {chan v : Nat} (hK : Keeps z0 s) :
    Keeps z0 (State.setConn s chan v) := by
  unfold State.setConn
  with_reducible
    repeat' first
      | assumption | intro _ | split | dsimp -iota only | dsimp only
      | ((fail_if_success apply Keeps.same); refine Keeps.mk ?_)

theorem State.spdmReq_keeps {z0 : State} {s : State} {chan need : Nat} {body : State → State} (kbody : ∀ y0, Keeps z0 y0 → Keeps z0 (body y0)) (hK : Keeps z0 s) :
    Keeps z0 (State.spdmReq s chan need body) := by
  unfold State.spdmReq
  with_reducible
    repeat' first
      | assumption | apply State.spdmError_keeps | refine kbody _ ?_ | apply Keeps.ite | intro _ | split
      | dsimp -iota only | dsimp only

theorem State.spdmFree_keeps {z0 : State} {s : State} {chan code n : Nat} (hK : Keeps z0 s) :
    Keeps z0 (State.spdmFree s chan code n) := by
  unfold State.spdmFree
  with_reducible
    repeat' first
      | assumption | apply State.freeBytes_keeps | refine State.freeBytes_keepsE (by assumption) ?_
      | apply State.spdm_keeps | intro _ | split | dsimp -iota only | dsimp only

theorem execGetVersion_keeps {z0 : State} {chan : Nat} {s : State} (hK : Keeps z0 s) :
    KeepsRes z0 (execGetVersion chan s) := by
  unfold execGetVersion
  with_reducible
    repeat' first
      | assumption | apply KeepsRes.next | apply State.spdm_keeps | apply State.setConn_keeps
      | apply State.spdmReq_keeps | intro _ | split | dsimp -iota only | dsimp only
      | ((fail_if_success apply Keeps.same); refine Keeps.mk ?_)

theorem execGetCapabilities_keeps {z0 : State} {chan : Nat} {s : State} (hK : Keeps z0 s) :
    KeepsRes z0 (execGetCapabilities chan s) := by
  unfold execGetCapabilities
  with_reducible
    repeat' first
      | assumption | apply KeepsRes.next | apply State.freeBytes_keeps
      | refine State.freeBytes_keepsE (by assumption) ?_ | apply State.spdm_keeps | apply State.setConn_keeps
      | apply State.spdmReq_keeps | intro _ | split | dsimp -iota only | dsimp only

theorem execNegotiateAlgorithms_keeps {z0 : State} {chan : Nat} {ok : Bool} {s : State} (hK : Keeps z0 s) :
    KeepsRes z0 (execNegotiateAlgorithms chan ok s) := by
  unfold execNegotiateAlgorithms
  with_reducible
    repeat' first
      | assumption | apply KeepsRes.next | apply State.spdmError_keeps | apply State.setConn_keeps
      | apply State.spdmReq_keeps | apply State.spdmFree_keeps | apply Keeps.ite | intro _ | split | dsimp -iota only
      | dsimp only

theorem execGetDigests_keeps {z0 : State} {chan : Nat} {s : State} (hK : Keeps z0 s) :
    KeepsRes z0 (execGetDigests chan s) := by
  unfold execGetDigests
  with_reducible
    repeat' first
      | assumption | apply KeepsRes.next | apply State.spdmReq_keeps | apply State.spdmFree_keeps | intro _ | split
      | dsimp -iota only | dsimp only

theorem execGetCertificate_keeps {z0 : State} {chan slot offset length : Nat} {s : State} (hK : Keeps z0 s) :
    KeepsRes z0 (execGetCertificate chan slot offset length s) := by
  unfold execGetCertificate
  with_reducible
    repeat' first
      | assumption | apply KeepsRes.next | apply State.spdmError_keeps | apply State.spdmReq_keeps
      | apply State.spdmFree_keeps | apply Keeps.ite | intro _ | split | dsimp -iota only | dsimp only

theorem execChallenge_keeps {z0 : State} {chan slot : Nat} {s : State} (hK : Keeps z0 s) :
    KeepsRes z0 (execChallenge chan slot s) := by
  unfold execChallenge
  with_reducible
    repeat' first
      | assumption | apply KeepsRes.next | apply State.spdmError_keeps | apply State.spdmReq_keeps
      | apply State.spdmFree_keeps | apply Keeps.ite | intro _ | split | dsimp -iota only | dsimp only

theorem execGetMeasurements_keeps {z0 : State} {chan index : Nat} {sign : Bool} {s : State} (hK : Keeps z0 s) :
    KeepsRes z0 (execGetMeasurements chan index sign s) := by
  unfold execGetMeasurements
  with_reducible
    repeat' first
      | assumption | apply KeepsRes.next | apply State.freeBytes_keeps
      | refine State.freeBytes_keepsE (by assumption) ?_ | apply State.spdm_keeps | apply State.spdmError_keeps
      | apply State.spdmReq_keeps | apply Keeps.ite | intro _ | split | dsimp -iota only | dsimp only

theorem execKeyExchange_keeps {z0 : State} {chan : Nat} {ok : Bool} {s : State} (hK : Keeps z0 s) :
    KeepsRes z0 (execKeyExchange chan ok s) := by
  unfold execKeyExchange
  with_reducible
    repeat' first
      | assumption | apply KeepsRes.next | apply State.freeBytes_keeps
      | refine State.freeBytes_keepsE (by assumption) ?_ | apply State.spdm_keeps | apply State.spdmError_keeps
      | apply State.spdmReq_keeps | apply Keeps.ite | intro _ | split | dsimp -iota only | dsimp only
      | ((fail_if_success apply Keeps.same); refine Keeps.mk ?_)

theorem State.endSession_keeps {z0 : State} {s : State} {id : Nat} (hK : Keeps z0 s) :
    Keeps z0 (State.endSession s id) := by
  unfold State.endSession
  with_reducible
    repeat' first
      | assumption | intro _ | split | dsimp -iota only | dsimp only
      | ((fail_if_success apply Keeps.same); refine Keeps.mk ?_)

theorem execFinish_keeps {z0 : State} {chan id : Nat} {ok : Bool} {who : Requester} {s : State} (hK : Keeps z0 s) :
    KeepsRes z0 (execFinish chan id ok who s) := by
  unfold execFinish
  with_reducible
    repeat' first
      | assumption | apply KeepsRes.next | apply State.raise_keeps | apply State.spdmError_keeps
      | apply State.spdmReq_keeps | apply State.spdmFree_keeps | apply State.endSession_keeps | apply Keeps.ite
      | intro _ | split | dsimp -iota only | dsimp only | ((fail_if_success apply Keeps.same); refine Keeps.mk ?_)

theorem State.inSession_keeps {z0 : State} {s : State} {chan id : Nat} {body : State → SpdmSession → State} (kbody : ∀ y0 y1, Keeps z0 y0 → Keeps z0 (body y0 y1)) (hK : Keeps z0 s) :
    Keeps z0 (State.inSession s chan id body) := by
  unfold State.inSession
  with_reducible
    repeat' first
      | assumption | apply State.send_keeps | apply State.raiseD_keeps | apply State.spdmError_keeps
      | apply State.spdmReq_keeps | refine kbody _ _ ?_ | apply Keeps.ite | intro _ | split | dsimp -iota only
      | dsimp only | ((fail_if_success apply Keeps.same); refine Keeps.mk ?_)

theorem execSpdmHeartbeat_keeps {z0 : State} {chan id : Nat} {s : State} (hK : Keeps z0 s) :
    KeepsRes z0 (execSpdmHeartbeat chan id s) := by
  unfold execSpdmHeartbeat
  with_reducible
    repeat' first
      | assumption | apply KeepsRes.next | apply State.spdm_keeps | apply State.inSession_keeps | intro _ | split
      | dsimp -iota only | dsimp only

theorem execKeyUpdate_keeps {z0 : State} {chan id : Nat} {s : State} (hK : Keeps z0 s) :
    KeepsRes z0 (execKeyUpdate chan id s) := by
  unfold execKeyUpdate
  with_reducible
    repeat' first
      | assumption | apply KeepsRes.next | apply State.spdm_keeps | apply State.inSession_keeps | intro _ | split
      | dsimp -iota only | dsimp only | ((fail_if_success apply Keeps.same); refine Keeps.mk ?_)

theorem execEndSession_keeps {z0 : State} {chan id : Nat} {s : State} (hK : Keeps z0 s) :
    KeepsRes z0 (execEndSession chan id s) := by
  unfold execEndSession
  with_reducible
    repeat' first
      | assumption | apply KeepsRes.next | apply State.spdm_keeps | apply State.endSession_keeps
      | apply State.inSession_keeps | intro _ | split | dsimp -iota only | dsimp only

theorem execSpdmUnsupported_keeps {z0 : State} {chan : Nat} {s : State} (hK : Keeps z0 s) :
    KeepsRes z0 (execSpdmUnsupported chan s) := by
  unfold execSpdmUnsupported
  with_reducible
    repeat' first
      | assumption | apply KeepsRes.next | apply State.spdmError_keeps | apply Keeps.ite | intro _ | split
      | dsimp -iota only | dsimp only

theorem State.vendorTell_keeps {z0 : State} {s : State} {chan status : Nat} {data : List Byte} (hK : Keeps z0 s) :
    Keeps z0 (State.vendorTell s chan status data) := by
  unfold State.vendorTell
  with_reducible
    repeat' first
      | assumption | apply State.spdm_keeps | intro _ | split | dsimp -iota only | dsimp only

theorem State.vendorReq_keeps {z0 : State} {s : State} {chan id : Nat} {owner : State → Option Nat} {body : State → State} (kbody : ∀ y0, Keeps z0 y0 → Keeps z0 (body y0)) (hK : Keeps z0 s) :
    Keeps z0 (State.vendorReq s chan id owner body) := by
  unfold State.vendorReq
  with_reducible
    repeat' first
      | assumption | apply State.raise_keeps | apply State.spdmError_keeps | apply State.inSession_keeps
      | apply State.vendorTell_keeps | refine kbody _ ?_ | apply Keeps.ite | intro _ | split | dsimp -iota only
      | dsimp only

theorem State.seedProgram_keeps {z0 : State} {s : State} {chan hash : Nat} (hK : Keeps z0 s) :
    Keeps z0 (State.seedProgram s chan hash) := by
  unfold State.seedProgram
  repeat' first
    | with_reducible assumption
    | with_reducible exact Keeps.refl _
    | (with_reducible refine State.raiseD_keeps ?_)
    | (with_reducible refine State.fuseRegs_keeps ?_)
    | (with_reducible refine State.loadStrike_keeps ?_)
    | (with_reducible refine State.deriveKek_keeps ?_)
    | (with_reducible refine State.vendorTell_keeps ?_)
    | (with_reducible refine Keeps.getD ?_ ?_)
    | (with_reducible refine Keeps.mapPair (by assumption) ?_)
    | (with_reducible refine Keeps.foldl (fun st x hst => ?_) ?_)
    | (with_reducible refine Keeps.foldlFst (fun st x hst => ?_) ?_)
    | (with_reducible refine Keeps.foldlSnd (fun st x hst => ?_) ?_)
    | (with_reducible refine Keeps.ite ?_ ?_)
    | intro _
    | split
    | dsimp -iota only
    | dsimp only
    | dsimp only [id]
    | exact memWf_nil _
    | (fail_if_success (with_reducible refine Keeps.same ?_)
       with_reducible refine Keeps.mk ?_ ?_ ?_ ?_ ?_ ?_ ?_ ?_ ?_ ?_ ?_ ?_ ?_ <;>
         first | with_reducible exact Nat.le_refl _ | with_reducible exact List.prefix_rfl | with_reducible exact fun hm => hm |
           with_reducible exact List.prefix_append _ _ | with_reducible exact Nat.le_succ _ | with_reducible exact memWriteN_wf | with_reducible exact memClear_wf |
           with_reducible exact memPaste_wf | with_reducible exact memWrite_wf | with_reducible exact memWriteLE_wf | with_reducible exact fun _ => rfl | exact fun _ => memWf_nil _ |
           with_reducible exact fun hm => memWriteN_wf (memWriteN_wf hm) | exact fun _ => rfl |
           exact fun hm => memFold_wf (fun m y hh => memWrite_wf hh) hm |
           exact fun _ => memFold_wf (fun m y hh => memWrite_wf hh) (memWf_nil _) | skip)

theorem execSeedProgram_keeps {z0 : State} {chan id hash : Nat} {s : State} (hK : Keeps z0 s) :
    KeepsRes z0 (execSeedProgram chan id hash s) := by
  unfold execSeedProgram
  with_reducible
    repeat' first
      | assumption | apply KeepsRes.next | apply State.settle_keeps | apply State.vendorReq_keeps
      | apply State.seedProgram_keeps | intro _ | split | dsimp -iota only | dsimp only

theorem State.keyWrap_keeps {z0 : State} {s : State} {chan : Nat} {record : List Byte} (hK : Keeps z0 s) :
    Keeps z0 (State.keyWrap s chan record) := by
  unfold State.keyWrap
  with_reducible
    repeat' first
      | assumption | apply State.take_keeps | apply State.freeBytes_keeps
      | refine State.freeBytes_keepsE (by assumption) ?_ | apply State.drop_keeps | apply State.vendorTell_keeps
      | refine Keeps.getD ?_ ?_ | apply Keeps.ite | intro _ | split | dsimp -iota only | dsimp only

theorem execKeyWrap_keeps {z0 : State} {chan id : Nat} {record : List Byte} {s : State} (hK : Keeps z0 s) :
    KeepsRes z0 (execKeyWrap chan id record s) := by
  unfold execKeyWrap
  with_reducible
    repeat' first
      | assumption | apply KeepsRes.next | apply State.vendorReq_keeps | apply State.keyWrap_keeps | intro _ | split
      | dsimp -iota only | dsimp only

theorem execReunwrap_keeps {z0 : State} {chan id : Nat} {s : State} (hK : Keeps z0 s) :
    KeepsRes z0 (execReunwrap chan id s) := by
  unfold execReunwrap
  with_reducible
    repeat' first
      | assumption | apply KeepsRes.next | apply State.settle_keeps | apply State.reunwrap_keeps
      | apply State.vendorTell_keeps | apply State.vendorReq_keeps | intro _ | split | dsimp -iota only | dsimp only

theorem execDebugUnlock_keeps {z0 : State} {chan id : Nat} {cert : List Byte} {good : Bool} {s : State} (hK : Keeps z0 s) :
    KeepsRes z0 (execDebugUnlock chan id cert good s) := by
  unfold execDebugUnlock
  with_reducible
    repeat' first
      | assumption | apply KeepsRes.next | apply State.settle_keeps | apply State.debugJudge_keeps
      | refine State.debugJudge_keepsE (by assumption) ?_ | apply State.vendorTell_keeps | apply State.vendorReq_keeps
      | apply Keeps.ite | intro _ | split | dsimp -iota only | dsimp only

end Sys2Proof.Machine
end

