-- ==== Sys2Proof/Laws/KeepResets.lean ====
section
/-! SUPPORT. What the operations of Machine/Resets.lean keep. -/

set_option Elab.async false

namespace Sys2Proof.Machine

theorem State.dropHolders_keeps {z0 : State} {s : State} {sel : Holder → Bool} (hK : Keeps z0 s) :
    Keeps z0 (State.dropHolders s sel) := by
  unfold State.dropHolders
  with_reducible
    repeat' first
      | assumption | intro _ | split | dsimp -iota only | dsimp only
      | ((fail_if_success apply Keeps.same); refine Keeps.mk ?_)

theorem State.fencedEnd_keeps {z0 : State} {s : State} {n : Nat} (hK : Keeps z0 s) :
    Keeps z0 (State.fencedEnd s n) := by
  unfold State.fencedEnd
  with_reducible
    repeat' first
      | assumption | intro _ | split | dsimp -iota only | dsimp only
      | ((fail_if_success apply Keeps.same); refine Keeps.mk ?_)

theorem State.ldClear_keeps {z0 : State} {s : State} {n : Nat} (hK : Keeps z0 s) :
    Keeps z0 (State.ldClear s n) := by
  unfold State.ldClear
  with_reducible
    repeat' first
      | assumption | apply State.raiseD_keeps | apply State.dropQueues_keeps | apply State.unloadScript_keeps
      | apply State.dropHolders_keeps | apply State.fencedEnd_keeps | refine Keeps.foldl (fun _ _ _ => ?_) ?_
      | refine Keeps.foldlFst (fun _ _ _ => ?_) ?_ | refine Keeps.foldlSnd (fun _ _ _ => ?_) ?_ | intro _ | split
      | dsimp -iota only | dsimp only | ((fail_if_success apply Keeps.same); refine Keeps.mk ?_)

theorem execLdReset_keeps {z0 : State} {mb : Nat} {input : List Byte} {s : State} (hK : Keeps z0 s) :
    KeepsRes z0 (execLdReset mb input s) := by
  unfold execLdReset
  with_reducible
    repeat' first
      | assumption | apply KeepsRes.next | apply State.answer_keeps | apply State.settle_keeps
      | apply State.vendor_keeps | apply State.ldClear_keeps | apply Keeps.ite | intro _ | split | dsimp -iota only
      | dsimp only

theorem State.linkBlank_keeps {z0 : State} {s : State} {n : Nat} {split : Bool} (hK : Keeps z0 s) :
    Keeps z0 (State.linkBlank s n split) := by
  unfold State.linkBlank
  with_reducible
    repeat' first
      | assumption | apply State.setLive_keeps | apply State.setFlag_keeps | apply State.setLink_keeps | intro _
      | split | dsimp -iota only | dsimp only

theorem State.linkDrop_keeps {z0 : State} {s : State} {n : Nat} (hK : Keeps z0 s) :
    Keeps z0 (State.linkDrop s n) := by
  unfold State.linkDrop
  with_reducible
    repeat' first
      | assumption | apply Keeps.ite | intro _ | split | dsimp -iota only | dsimp only
      | ((fail_if_success apply Keeps.same); refine Keeps.mk ?_)

theorem State.ideEmpty_keeps {z0 : State} {s : State} {n : Nat} (hK : Keeps z0 s) :
    Keeps z0 (State.ideEmpty s n) := by
  unfold State.ideEmpty
  with_reducible
    repeat' first
      | assumption | apply State.setKeySlot_keeps | intro _ | split | dsimp -iota only | dsimp only
      | ((fail_if_success apply Keeps.same); refine Keeps.mk ?_)

theorem State.linkReset_keeps {z0 : State} {s : State} {n : Nat} (hK : Keeps z0 s) :
    Keeps z0 (State.linkReset s n) := by
  unfold State.linkReset
  with_reducible
    repeat' first
      | assumption | apply State.raise_keeps | apply State.setMode_keeps | apply State.dropHolders_keeps
      | apply State.ldClear_keeps | apply State.linkBlank_keeps | apply State.linkDrop_keeps
      | apply State.ideEmpty_keeps | refine Keeps.foldl (fun _ _ _ => ?_) ?_
      | refine Keeps.foldlFst (fun _ _ _ => ?_) ?_ | refine Keeps.foldlSnd (fun _ _ _ => ?_) ?_ | apply Keeps.ite
      | intro _ | split | dsimp -iota only | dsimp only

theorem State.perst_keeps {z0 : State} {s : State} {link : Nat} {low : Bool} (hK : Keeps z0 s) :
    Keeps z0 (State.perst s link low) := by
  unfold State.perst
  with_reducible
    repeat' first
      | assumption | apply State.linkReset_keeps | apply Keeps.ite | intro _ | split | dsimp -iota only | dsimp only
      | ((fail_if_success apply Keeps.same); refine Keeps.mk ?_)

theorem execPerstN_keeps {z0 : State} {link : Nat} {low : Bool} {s : State} (hK : Keeps z0 s) :
    KeepsRes z0 (execPerstN link low s) := by
  unfold execPerstN
  with_reducible
    repeat' first
      | assumption | apply KeepsRes.next | apply State.settle_keeps | apply State.perst_keeps | apply Keeps.ite
      | intro _ | split | dsimp -iota only | dsimp only

theorem State.flashQuiet_keeps {z0 : State} {s : State} (hK : Keeps z0 s) :
    Keeps z0 (State.flashQuiet s) := by
  unfold State.flashQuiet
  with_reducible
    repeat' first
      | assumption | apply State.programsEnd_keeps | intro _ | split | dsimp -iota only | dsimp only
      | ((fail_if_success apply Keeps.same); refine Keeps.mk ?_)

theorem State.resetPrepare_keeps {z0 : State} {s : State} (hK : Keeps z0 s) :
    Keeps z0 (State.resetPrepare s) := by
  unfold State.resetPrepare
  with_reducible
    repeat' first
      | assumption | apply State.setFld_keeps | apply State.setFlag_keeps | apply State.cleanWays_keeps
      | apply State.trackerRegs_keeps | apply State.quiesce_keeps | apply State.flashQuiet_keeps
      | refine Keeps.foldl (fun _ _ _ => ?_) ?_ | refine Keeps.foldlFst (fun _ _ _ => ?_) ?_
      | refine Keeps.foldlSnd (fun _ _ _ => ?_) ?_ | apply Keeps.ite | intro _ | split | dsimp -iota only | dsimp only
      | ((fail_if_success apply Keeps.same); refine Keeps.mk ?_)

theorem State.regsReset_keeps {z0 : State} {s : State} (hK : Keeps z0 s) :
    Keeps z0 (State.regsReset s) := by
  unfold State.regsReset
  with_reducible
    repeat' first
      | assumption | apply State.setFld_keeps | apply State.setFlag_keeps | apply State.keyCount_keeps
      | refine Keeps.foldl (fun _ _ _ => ?_) ?_ | refine Keeps.foldlFst (fun _ _ _ => ?_) ?_
      | refine Keeps.foldlSnd (fun _ _ _ => ?_) ?_ | intro _ | split | dsimp -iota only | dsimp only
      | ((fail_if_success apply Keeps.same); refine Keeps.mk ?_)

theorem State.hostReset_keeps {z0 : State} {s : State} (hK : Keeps z0 s) :
    Keeps z0 (State.hostReset s) := by
  unfold State.hostReset
  with_reducible
    repeat' first
      | assumption | intro _ | split | dsimp -iota only | dsimp only
      | ((fail_if_success apply Keeps.same); refine Keeps.mk ?_)

theorem State.shadowFresh_keeps {z0 : State} {s : State} (hK : Keeps z0 s) :
    Keeps z0 (State.shadowFresh s) := by
  unfold State.shadowFresh
  with_reducible
    repeat' first
      | assumption | apply State.setTabEntry_keeps | apply State.clearShadow_keeps
      | refine Keeps.foldl (fun _ _ _ => ?_) ?_ | refine Keeps.foldlFst (fun _ _ _ => ?_) ?_
      | refine Keeps.foldlSnd (fun _ _ _ => ?_) ?_ | intro _ | split | dsimp -iota only | dsimp only
      | ((fail_if_success apply Keeps.same); refine Keeps.mk ?_)

theorem State.unitsReset_keeps {z0 : State} {s : State} (hK : Keeps z0 s) :
    Keeps z0 (State.unitsReset s) := by
  unfold State.unitsReset
  repeat' first
    | with_reducible assumption
    | with_reducible exact Keeps.refl _
    | (with_reducible refine Keeps.getD ?_ ?_)
    | (with_reducible refine Keeps.mapPair (by assumption) ?_)
    | (with_reducible refine Keeps.foldl (fun st x hst => ?_) ?_)
    | (with_reducible refine Keeps.foldlFst (fun st x hst => ?_) ?_)
    | (with_reducible refine Keeps.foldlSnd (fun st x hst => ?_) ?_)
    | (with_reducible refine Keeps.ite ?_ ?_)
    | intro _
    | split
    | dsimp -iota only
    | dsimp only
    | dsimp only [id]
    | exact memWf_nil _
    | (fail_if_success (with_reducible refine Keeps.same ?_)
       with_reducible refine Keeps.mk ?_ ?_ ?_ ?_ ?_ ?_ ?_ ?_ ?_ ?_ ?_ ?_ ?_ <;>
         first | with_reducible exact Nat.le_refl _ | with_reducible exact List.prefix_rfl | with_reducible exact fun hm => hm |
           with_reducible exact List.prefix_append _ _ | with_reducible exact Nat.le_succ _ | with_reducible exact memWriteN_wf | with_reducible exact memClear_wf |
           with_reducible exact memPaste_wf | with_reducible exact memWrite_wf | with_reducible exact memWriteLE_wf | with_reducible exact fun _ => rfl | exact fun _ => memWf_nil _ |
           with_reducible exact fun hm => memWriteN_wf (memWriteN_wf hm) | exact fun _ => rfl |
           exact fun hm => memFold_wf (fun m y hh => memWrite_wf hh) hm |
           exact fun _ => memFold_wf (fun m y hh => memWrite_wf hh) (memWf_nil _) | skip)

theorem State.areasReset_keeps {z0 : State} {s : State} (hK : Keeps z0 s) :
    Keeps z0 (State.areasReset s) := by
  unfold State.areasReset
  with_reducible
    repeat' first
      | assumption | apply State.drop_keeps | intro _ | split | dsimp -iota only | dsimp only
      | ((fail_if_success apply Keeps.same); refine Keeps.mk ?_)

theorem State.domainsReset_keeps {z0 : State} {s : State} (hK : Keeps z0 s) :
    Keeps z0 (State.domainsReset s) := by
  unfold State.domainsReset
  with_reducible
    repeat' first
      | assumption | apply State.regsReset_keeps | apply State.hostReset_keeps | apply State.shadowFresh_keeps
      | apply State.unitsReset_keeps | intro _ | split | dsimp -iota only | dsimp only

theorem State.startGoes_keeps {z0 : State} {s : State} (hK : Keeps z0 s) :
    Keeps z0 (State.startGoes s) := by
  unfold State.startGoes
  with_reducible
    repeat' first
      | assumption | apply State.setFlag_keeps | apply State.raise_keeps | apply Keeps.ite | intro _ | split
      | dsimp -iota only | dsimp only | ((fail_if_success apply Keeps.same); refine Keeps.mk ?_)

theorem State.resetNow_keeps {z0 : State} {s : State} {causes : Nat} (hK : Keeps z0 s) :
    Keeps z0 (State.resetNow s causes) := by
  unfold State.resetNow
  with_reducible
    repeat' first
      | assumption | apply State.setLive_keeps | apply State.linkLeave_keeps | apply Pass.step_keeps
      | apply State.resetPrepare_keeps | apply State.areasReset_keeps | apply State.domainsReset_keeps
      | apply State.startGoes_keeps | refine Keeps.foldl (fun _ _ _ => ?_) ?_
      | refine Keeps.foldlFst (fun _ _ _ => ?_) ?_ | refine Keeps.foldlSnd (fun _ _ _ => ?_) ?_ | apply Keeps.ite
      | intro _ | split | dsimp -iota only | dsimp only | ((fail_if_success apply Keeps.same); refine Keeps.mk ?_)

theorem State.deviceReset_keeps {z0 : State} {s : State} {cause : Nat} (hK : Keeps z0 s) :
    Keeps z0 (State.deviceReset s cause) := by
  unfold State.deviceReset
  with_reducible
    repeat' first
      | assumption | apply State.resetNow_keeps | refine Keeps.getD ?_ ?_ | apply Keeps.ite | intro _ | split
      | dsimp -iota only | dsimp only | ((fail_if_success apply Keeps.same); refine Keeps.mk ?_)

theorem State.sysReset_keeps {z0 : State} {s : State} (hK : Keeps z0 s) :
    Keeps z0 (State.sysReset s) := by
  unfold State.sysReset
  with_reducible
    repeat' first
      | assumption | apply Pass.step_keeps | apply State.deviceReset_keeps | apply Keeps.ite | intro _ | split
      | dsimp -iota only | dsimp only | ((fail_if_success apply Keeps.same); refine Keeps.mk ?_)

theorem execSysResetN_keeps {z0 : State} {s : State} (hK : Keeps z0 s) :
    KeepsRes z0 (execSysResetN s) := by
  unfold execSysResetN
  with_reducible
    repeat' first
      | assumption | apply KeepsRes.next | apply State.sysReset_keeps | intro _ | split | dsimp -iota only
      | dsimp only

theorem State.sysRelease_keeps {z0 : State} {s : State} (hK : Keeps z0 s) :
    Keeps z0 (State.sysRelease s) := by
  unfold State.sysRelease
  with_reducible
    repeat' first
      | assumption | apply Pass.step_keeps | apply State.startGoes_keeps | apply Keeps.ite | intro _ | split
      | dsimp -iota only | dsimp only | ((fail_if_success apply Keeps.same); refine Keeps.mk ?_)

theorem execSysResetNRelease_keeps {z0 : State} {s : State} (hK : Keeps z0 s) :
    KeepsRes z0 (execSysResetNRelease s) := by
  unfold execSysResetNRelease
  with_reducible
    repeat' first
      | assumption | apply KeepsRes.next | apply State.sysRelease_keeps | intro _ | split | dsimp -iota only
      | dsimp only

theorem execSecFault_keeps {z0 : State} {s : State} (hK : Keeps z0 s) :
    KeepsRes z0 (execSecFault s) := by
  unfold execSecFault
  with_reducible
    repeat' first
      | assumption | apply KeepsRes.next | apply Pass.step_keeps | apply State.deviceReset_keeps | apply Keeps.ite
      | intro _ | split | dsimp -iota only | dsimp only

theorem execCxlReset_keeps {z0 : State} {link : Nat} {s : State} (hK : Keeps z0 s) :
    KeepsRes z0 (execCxlReset link s) := by
  unfold execCxlReset
  with_reducible
    repeat' first
      | assumption | apply KeepsRes.next | apply State.settle_keeps | apply State.linkReset_keeps
      | apply State.deviceReset_keeps | apply Keeps.ite | intro _ | split | dsimp -iota only | dsimp only

theorem execDeviceReset_keeps {z0 : State} {mb : Nat} {input : List Byte} {s : State} (hK : Keeps z0 s) :
    KeepsRes z0 (execDeviceReset mb input s) := by
  unfold execDeviceReset
  with_reducible
    repeat' first
      | assumption | apply KeepsRes.next | apply State.answer_keeps | apply State.vendor_keeps
      | apply State.deviceReset_keeps | apply Keeps.ite | intro _ | split | dsimp -iota only | dsimp only

theorem State.loadInOver_keeps {z0 : State} {s : State} (hK : Keeps z0 s) :
    Keeps z0 (State.loadInOver s) := by
  unfold State.loadInOver
  with_reducible
    repeat' first
      | assumption | apply State.settle_keeps | apply State.loadInDone_keeps | apply State.retag_keeps
      | apply State.resetNow_keeps | apply Keeps.ite | intro _ | split | dsimp -iota only | dsimp only

theorem execLoadInDone_keeps {z0 : State} {s : State} (hK : Keeps z0 s) :
    KeepsRes z0 (execLoadInDone s) := by
  unfold execLoadInDone
  with_reducible
    repeat' first
      | assumption | apply KeepsRes.next | apply State.loadInOver_keeps | intro _ | split | dsimp -iota only
      | dsimp only

end Sys2Proof.Machine
end

