-- ==== Sys2Proof/Laws/KeepMail.lean ====
section
/-! SUPPORT. What the operations of Machine/Mail.lean keep. -/

set_option Elab.async false

namespace Sys2Proof.Machine

theorem stateOf_keeps {z0 s : State} {r : Res} (hr : KeepsRes z0 r) (hK : Keeps z0 s) : Keeps z0 (stateOf s r) := by
  unfold stateOf
  split
  · exact hr
  · exact hK

theorem mailSubmit_keeps {z0 : State} {mb : Nat} {input : List Byte} {s : State} (hK : Keeps z0 s) :
    KeepsRes z0 (mailSubmit mb input s) := by
  unfold mailSubmit
  with_reducible
    repeat' first
      | assumption | apply KeepsRes.next | apply State.settle_keeps | apply State.submitMail_keeps | intro _ | split
      | dsimp -iota only | dsimp only

theorem mailSlotControl_keeps {z0 : State} {mb : Nat} {input : List Byte} {s : State} (hK : Keeps z0 s) :
    KeepsRes z0 (mailSlotControl mb input s) := by
  unfold mailSlotControl
  with_reducible
    repeat' first
      | assumption | apply KeepsRes.next | apply execSlotPowerOn_keeps | apply execLedLocate_keeps
      | apply execPrepareRemoval_keeps | intro _ | split | dsimp -iota only | dsimp only

theorem mailStandard_keeps {z0 : State} {mb op : Nat} {input : List Byte} {out : List Nat} {s : State} (hK : Keeps z0 s) :
    KeepsRes z0 (mailStandard mb op input out s) := by
  unfold mailStandard
  with_reducible
    repeat' first
      | assumption | apply KeepsRes.next | apply execIdentifyMemoryDevice_keeps | apply execGetHealthInfo_keeps
      | apply execGetTimestamp_keeps | apply execSetTimestamp_keeps | apply execGetSupportedLogs_keeps
      | apply execGetLog_keeps | apply execGetEventRecords_keeps | apply execClearEventRecords_keeps
      | apply execGetEventInterruptPolicy_keeps | apply execSetEventInterruptPolicy_keeps
      | apply execGetAlertConfiguration_keeps | apply execSetAlertConfiguration_keeps
      | apply execGetPartitionInfo_keeps | apply execGetLsa_keeps | apply execSetLsa_keeps
      | apply execGetPoisonList_keeps | apply execMailboxUnsupported_keeps | apply execGetFwInfo_keeps
      | apply execTransferFw_keeps | apply execActivateFw_keeps | intro _ | split | dsimp -iota only | dsimp only

theorem mailVendor_keeps {z0 : State} {mb op : Nat} {input : List Byte} {out : List Nat} {s : State} (hK : Keeps z0 s) :
    KeepsRes z0 (mailVendor mb op input out s) := by
  unfold mailVendor
  with_reducible
    repeat' first
      | assumption | apply KeepsRes.next | apply execFreezeSnapshot_keeps | apply execMailboxUnsupported_keeps
      | apply execGetDeviceInfo_keeps | apply execGetEpoch_keeps | apply execRegionRead_keeps
      | apply execRegionWrite_keeps | apply execAccessStage_keeps | apply execAccessCommit_keeps
      | apply execPersistBarrier_keeps | apply execInkRead_keeps | apply execInkLimitSet_keeps
      | apply execEnergyRead_keeps | apply execPowerCapSet_keeps | apply execTwinStatus_keeps
      | apply execEventRoute_keeps | apply execMaintStatus_keeps | apply execPbookRead_keeps
      | apply execPbookAck_keeps | apply execTallyRead_keeps | apply execQueueCreate_keeps
      | apply execQueueDelete_keeps | apply execScriptLoad_keeps | apply execScriptUnload_keeps
      | apply State.drop_keeps | apply execMaintCancel_keeps | apply execSceneSet_keeps
      | apply execFreezeRelease_keeps | apply execRehearsalRun_keeps | apply execKeyLoad_keeps
      | apply execKeyStatus_keeps | apply execLdReset_keeps | apply execDeviceReset_keeps | apply mailSubmit_keeps
      | apply mailSlotControl_keeps | intro _ | split | dsimp -iota only | dsimp only

theorem State.mailRun_keeps {z0 s : State} {l : List (Nat × Nat × List Byte × List Nat)} (h : Keeps z0 s) :
    Keeps z0 (State.mailRun s l) := by
  induction l generalizing s with
  | nil => exact h
  | cons a t ih =>
    obtain ⟨mb, op, input, out⟩ := a
    unfold State.mailRun
    split
    · refine ih (stateOf_keeps ?_ h)
      split
      · exact mailStandard_keeps h
      · exact mailVendor_keeps h
    · exact h

theorem State.runMail_keeps {z0 : State} {s : State} (hK : Keeps z0 s) :
    Keeps z0 (State.runMail s) := by
  unfold State.runMail
  with_reducible
    repeat' first
      | assumption | apply State.mailRun_keeps | apply Keeps.ite | intro _ | split | dsimp -iota only | dsimp only
      | ((fail_if_success apply Keeps.same); refine Keeps.mk ?_)

theorem State.coreReloaded_keeps {z0 : State} {s : State} {core : Nat} (hK : Keeps z0 s) :
    Keeps z0 (State.coreReloaded s core) := by
  unfold State.coreReloaded
  with_reducible
    repeat' first
      | assumption | apply State.raiseD_keeps | apply State.rollOn_keeps | apply State.coreRun_keeps
      | apply State.runMail_keeps | apply Keeps.ite | intro _ | split | dsimp -iota only | dsimp only

theorem execStcReloaded_keeps {z0 : State} {core : Nat} {s : State} (hK : Keeps z0 s) :
    KeepsRes z0 (execStcReloaded core s) := by
  unfold execStcReloaded
  with_reducible
    repeat' first
      | assumption | apply KeepsRes.next | apply State.settle_keeps | apply State.coreReloaded_keeps | intro _ | split
      | dsimp -iota only | dsimp only

theorem State.coreQuiesced_keeps {z0 : State} {s : State} {core : Nat} (hK : Keeps z0 s) :
    Keeps z0 (State.coreQuiesced s core) := by
  unfold State.coreQuiesced
  with_reducible
    repeat' first
      | assumption | apply State.rollOn_keeps | apply State.coreRun_keeps | apply State.runMail_keeps
      | apply Keeps.ite | intro _ | split | dsimp -iota only | dsimp only

theorem execCoreQuiesce_keeps {z0 : State} {core : Nat} {s : State} (hK : Keeps z0 s) :
    KeepsRes z0 (execCoreQuiesce core s) := by
  unfold execCoreQuiesce
  with_reducible
    repeat' first
      | assumption | apply KeepsRes.next | apply State.settle_keeps | apply State.coreQuiesced_keeps | intro _ | split
      | dsimp -iota only | dsimp only

end Sys2Proof.Machine
end

