-- ==== Sys2Proof/Laws/KeepStart.lean ====
section
/-! SUPPORT. What the operations of Machine/Start.lean keep. -/

set_option Elab.async false

namespace Sys2Proof.Machine

theorem State.cold_keeps {z0 : State} {s : State} (hK : Keeps z0 s) :
    Keeps z0 (State.cold s) := by
  unfold State.cold
  repeat' first
    | with_reducible assumption
    | with_reducible exact Keeps.refl _
    | (with_reducible refine State.setFld_keeps ?_)
    | (with_reducible refine State.pbRestore_keeps ?_)
    | (with_reducible refine State.fuseRegs_keeps ?_)
    | (with_reducible refine Keeps.getD ?_ ?_)
    | (with_reducible refine Keeps.mapPair (by assumption) ?_)
    | (with_reducible refine Keeps.foldl (fun st x hst => ?_) ?_)
    | (with_reducible refine Keeps.foldlFst (fun st x hst => ?_) ?_)
    | (with_reducible refine Keeps.foldlSnd (fun st x hst => ?_) ?_)
    | (with_reducible refine Keeps.ite ?_ ?_)
    | intro _
    | split
    | dsimp -iota only
    | dsimp only
    | dsimp only [id]
    | exact memWf_nil _
    | (fail_if_success (with_reducible refine Keeps.same ?_)
       with_reducible refine Keeps.mk ?_ ?_ ?_ ?_ ?_ ?_ ?_ ?_ ?_ ?_ ?_ ?_ ?_ <;>
         first | with_reducible exact Nat.le_refl _ | with_reducible exact List.prefix_rfl | with_reducible exact fun hm => hm |
           with_reducible exact List.prefix_append _ _ | with_reducible exact Nat.le_succ _ | with_reducible exact memWriteN_wf | with_reducible exact memClear_wf |
           with_reducible exact memPaste_wf | with_reducible exact memWrite_wf | with_reducible exact memWriteLE_wf | with_reducible exact fun _ => rfl | exact fun _ => memWf_nil _ |
           with_reducible exact fun hm => memWriteN_wf (memWriteN_wf hm) | exact fun _ => rfl |
           exact fun hm => memFold_wf (fun m y hh => memWrite_wf hh) hm |
           exact fun _ => memFold_wf (fun m y hh => memWrite_wf hh) (memWf_nil _) | skip)

theorem State.powerLost_keeps {z0 : State} {s : State} (hK : Keeps z0 s) :
    Keeps z0 (State.powerLost s) := by
  unfold State.powerLost
  with_reducible
    repeat' first
      | assumption | apply State.cold_keeps | apply Keeps.ite | intro _ | split | dsimp -iota only | dsimp only

theorem execVddAonFall_keeps {z0 : State} {s : State} (hK : Keeps z0 s) :
    KeepsRes z0 (execVddAonFall s) := by
  unfold execVddAonFall
  with_reducible
    repeat' first
      | assumption | apply KeepsRes.next | apply State.powerLost_keeps | intro _ | split | dsimp -iota only
      | dsimp only

theorem State.deliver_keeps {z0 : State} {s : State} {cells : List Host.Cell} (hK : Keeps z0 s) :
    Keeps z0 (State.deliver s cells) := by
  unfold State.deliver
  repeat' first
    | with_reducible assumption
    | with_reducible exact Keeps.refl _
    | (with_reducible refine Keeps.getD ?_ ?_)
    | (with_reducible refine Keeps.mapPair (by assumption) ?_)
    | (with_reducible refine Keeps.foldl (fun st x hst => ?_) ?_)
    | (with_reducible refine Keeps.foldlFst (fun st x hst => ?_) ?_)
    | (with_reducible refine Keeps.foldlSnd (fun st x hst => ?_) ?_)
    | (with_reducible refine Keeps.ite ?_ ?_)
    | intro _
    | split
    | dsimp -iota only
    | dsimp only
    | dsimp only [id]
    | exact memWf_nil _
    | (fail_if_success (with_reducible refine Keeps.same ?_)
       with_reducible refine Keeps.mk ?_ ?_ ?_ ?_ ?_ ?_ ?_ ?_ ?_ ?_ ?_ ?_ ?_ <;>
         first | with_reducible exact Nat.le_refl _ | with_reducible exact List.prefix_rfl | with_reducible exact fun hm => hm |
           with_reducible exact List.prefix_append _ _ | with_reducible exact Nat.le_succ _ | with_reducible exact memWriteN_wf | with_reducible exact memClear_wf |
           with_reducible exact memPaste_wf | with_reducible exact memWrite_wf | with_reducible exact memWriteLE_wf | with_reducible exact fun _ => rfl | exact fun _ => memWf_nil _ |
           with_reducible exact fun hm => memWriteN_wf (memWriteN_wf hm) | exact fun _ => rfl |
           exact fun hm => memFold_wf (fun m y hh => memWrite_wf hh) hm |
           exact fun _ => memFold_wf (fun m y hh => memWrite_wf hh) (memWf_nil _) | skip)

theorem State.powerOn_keeps {z0 : State} {s : State} {m : Mains} {delivered : List Host.Cell} (hK : Keeps z0 s) :
    Keeps z0 (State.powerOn s m delivered) := by
  unfold State.powerOn
  with_reducible
    repeat' first
      | assumption | apply State.setFlag_keeps | apply Pass.step_keeps | apply State.senseBulk_keeps
      | apply State.fuseRegs_keeps | apply State.powerLost_keeps | apply State.deliver_keeps | intro _ | split
      | dsimp -iota only | dsimp only | ((fail_if_success apply Keeps.same); refine Keeps.mk ?_)

theorem execPowerOnReset_keeps {z0 : State} {m : Mains} {delivered : List Host.Cell} {s : State} (hK : Keeps z0 s) :
    KeepsRes z0 (execPowerOnReset m delivered s) := by
  unfold execPowerOnReset
  with_reducible
    repeat' first
      | assumption | apply KeepsRes.next | apply State.powerOn_keeps | intro _ | split | dsimp -iota only | dsimp only

theorem State.raiseGroup_keeps {z0 : State} {s : State} {g : Nat} (hK : Keeps z0 s) :
    Keeps z0 (State.raiseGroup s g) := by
  unfold State.raiseGroup
  with_reducible
    repeat' first
      | assumption | apply State.send_keeps | intro _ | split | dsimp -iota only | dsimp only
      | ((fail_if_success apply Keeps.same); refine Keeps.mk ?_)

theorem State.nextGroup_keeps {z0 : State} {s : State} (hK : Keeps z0 s) :
    Keeps z0 (State.nextGroup s) := by
  unfold State.nextGroup
  with_reducible
    repeat' first
      | assumption | apply State.raiseGroup_keeps | apply Keeps.ite | intro _ | split | dsimp -iota only | dsimp only

theorem State.refclkHere_keeps {z0 : State} {s : State} (hK : Keeps z0 s) :
    Keeps z0 (State.refclkHere s) := by
  unfold State.refclkHere
  with_reducible
    repeat' first
      | assumption | apply State.setFlag_keeps | apply Pass.step_keeps | apply State.nextGroup_keeps | apply Keeps.ite
      | intro _ | split | dsimp -iota only | dsimp only | ((fail_if_success apply Keeps.same); refine Keeps.mk ?_)

theorem execRefclkPresent_keeps {z0 : State} {s : State} (hK : Keeps z0 s) :
    KeepsRes z0 (execRefclkPresent s) := by
  unfold execRefclkPresent
  with_reducible
    repeat' first
      | assumption | apply KeepsRes.next | apply State.refclkHere_keeps | intro _ | split | dsimp -iota only
      | dsimp only

theorem State.railsUp_keeps {z0 : State} {s : State} {strap : Nat} (hK : Keeps z0 s) :
    Keeps z0 (State.railsUp s strap) := by
  unfold State.railsUp
  with_reducible
    repeat' first
      | assumption | apply State.setFld_keeps | apply State.setLink_keeps | apply Pass.step_keeps
      | refine Keeps.foldl (fun _ _ _ => ?_) ?_ | refine Keeps.foldlFst (fun _ _ _ => ?_) ?_
      | refine Keeps.foldlSnd (fun _ _ _ => ?_) ?_ | intro _ | split | dsimp -iota only | dsimp only
      | ((fail_if_success apply Keeps.same); refine Keeps.mk ?_)

theorem State.railGood_keeps {z0 : State} {s : State} {strap : Nat} (hK : Keeps z0 s) :
    Keeps z0 (State.railGood s strap) := by
  unfold State.railGood
  with_reducible
    repeat' first
      | assumption | apply Pass.step_keeps | apply State.nextGroup_keeps | apply State.railsUp_keeps | apply Keeps.ite
      | intro _ | split | dsimp -iota only | dsimp only

theorem execRailGroupWithinTolerance_keeps {z0 : State} {strap : Nat} {s : State} (hK : Keeps z0 s) :
    KeepsRes z0 (execRailGroupWithinTolerance strap s) := by
  unfold execRailGroupWithinTolerance
  with_reducible
    repeat' first
      | assumption | apply KeepsRes.next | apply State.railGood_keeps | intro _ | split | dsimp -iota only
      | dsimp only

theorem State.railFail_keeps {z0 : State} {s : State} (hK : Keeps z0 s) :
    Keeps z0 (State.railFail s) := by
  unfold State.railFail
  with_reducible
    repeat' first
      | assumption | apply State.raise_keeps | apply Pass.step_keeps | apply State.railsDown_keeps
      | apply State.disarm_keeps | apply State.powerCycle_keeps | apply Keeps.ite | intro _ | split | dsimp -iota only
      | dsimp only | ((fail_if_success apply Keeps.same); refine Keeps.mk ?_)

theorem execRailStartFail_keeps {z0 : State} {s : State} (hK : Keeps z0 s) :
    KeepsRes z0 (execRailStartFail s) := by
  unfold execRailStartFail
  with_reducible
    repeat' first
      | assumption | apply KeepsRes.next | apply State.railFail_keeps | intro _ | split | dsimp -iota only
      | dsimp only

theorem State.pllLock_keeps {z0 : State} {s : State} (hK : Keeps z0 s) :
    Keeps z0 (State.pllLock s) := by
  unfold State.pllLock
  with_reducible
    repeat' first
      | assumption | apply State.setFlag_keeps | apply Pass.step_keeps | apply Keeps.ite | intro _ | split
      | dsimp -iota only | dsimp only | ((fail_if_success apply Keeps.same); refine Keeps.mk ?_)

theorem execRootPllLock_keeps {z0 : State} {s : State} (hK : Keeps z0 s) :
    KeepsRes z0 (execRootPllLock s) := by
  unfold execRootPllLock
  with_reducible
    repeat' first
      | assumption | apply KeepsRes.next | apply State.pllLock_keeps | intro _ | split | dsimp -iota only | dsimp only

theorem State.holdover_keeps {z0 : State} {s : State} (hK : Keeps z0 s) :
    Keeps z0 (State.holdover s) := by
  unfold State.holdover
  with_reducible
    repeat' first
      | assumption | apply State.setFlag_keeps | apply Keeps.ite | intro _ | split | dsimp -iota only | dsimp only

theorem State.refclkLost_keeps {z0 : State} {s : State} (hK : Keeps z0 s) :
    Keeps z0 (State.refclkLost s) := by
  unfold State.refclkLost
  with_reducible
    repeat' first
      | assumption | apply State.setFlag_keeps | apply State.raise_keeps | apply State.strike_keeps
      | apply State.holdover_keeps | apply Keeps.ite | intro _ | split | dsimp -iota only | dsimp only
      | ((fail_if_success apply Keeps.same); refine Keeps.mk ?_)

theorem execRefclkLost_keeps {z0 : State} {s : State} (hK : Keeps z0 s) :
    KeepsRes z0 (execRefclkLost s) := by
  unfold execRefclkLost
  with_reducible
    repeat' first
      | assumption | apply KeepsRes.next | apply State.settle_keeps | apply State.refclkLost_keeps | intro _ | split
      | dsimp -iota only | dsimp only

theorem State.pllUnlock_keeps {z0 : State} {s : State} (hK : Keeps z0 s) :
    Keeps z0 (State.pllUnlock s) := by
  unfold State.pllUnlock
  with_reducible
    repeat' first
      | assumption | apply State.raise_keeps | apply State.strike_keeps | apply State.holdover_keeps | apply Keeps.ite
      | intro _ | split | dsimp -iota only | dsimp only

theorem execPllUnlock_keeps {z0 : State} {s : State} (hK : Keeps z0 s) :
    KeepsRes z0 (execPllUnlock s) := by
  unfold execPllUnlock
  with_reducible
    repeat' first
      | assumption | apply KeepsRes.next | apply State.settle_keeps | apply State.pllUnlock_keeps | intro _ | split
      | dsimp -iota only | dsimp only

theorem State.holdoverFail_keeps {z0 : State} {s : State} (hK : Keeps z0 s) :
    Keeps z0 (State.holdoverFail s) := by
  unfold State.holdoverFail
  with_reducible
    repeat' first
      | assumption | apply State.raise_keeps | apply State.powerCycle_keeps | apply Keeps.ite | intro _ | split
      | dsimp -iota only | dsimp only | ((fail_if_success apply Keeps.same); refine Keeps.mk ?_)

theorem execClkHoldoverFail_keeps {z0 : State} {s : State} (hK : Keeps z0 s) :
    KeepsRes z0 (execClkHoldoverFail s) := by
  unfold execClkHoldoverFail
  with_reducible
    repeat' first
      | assumption | apply KeepsRes.next | apply State.holdoverFail_keeps | intro _ | split | dsimp -iota only
      | dsimp only

theorem State.refclkRestored_keeps {z0 : State} {s : State} (hK : Keeps z0 s) :
    Keeps z0 (State.refclkRestored s) := by
  unfold State.refclkRestored
  with_reducible
    repeat' first
      | assumption | apply State.raise_keeps | apply State.powerCycle_keeps | apply Keeps.ite | intro _ | split
      | dsimp -iota only | dsimp only | ((fail_if_success apply Keeps.same); refine Keeps.mk ?_)

theorem execRefclkRestored_keeps {z0 : State} {s : State} (hK : Keeps z0 s) :
    KeepsRes z0 (execRefclkRestored s) := by
  unfold execRefclkRestored
  with_reducible
    repeat' first
      | assumption | apply KeepsRes.next | apply State.refclkRestored_keeps | intro _ | split | dsimp -iota only
      | dsimp only

theorem State.fwRedo_keeps {z0 : State} {s : State} {i : Nat} (hK : Keeps z0 s) :
    Keeps z0 (State.fwRedo s i) := by
  unfold State.fwRedo
  with_reducible
    repeat' first
      | assumption | apply State.raiseD_keeps | apply State.fwBlank_keeps | apply State.fwClearBit_keeps
      | apply Keeps.ite | intro _ | split | dsimp -iota only | dsimp only

theorem State.fwRedoAll_keeps {z0 : State} {s : State} (hK : Keeps z0 s) :
    Keeps z0 (State.fwRedoAll s) := by
  unfold State.fwRedoAll
  with_reducible
    repeat' first
      | assumption | apply State.fwRedo_keeps | refine Keeps.foldl (fun _ _ _ => ?_) ?_
      | refine Keeps.foldlFst (fun _ _ _ => ?_) ?_ | refine Keeps.foldlSnd (fun _ _ _ => ?_) ?_ | intro _ | split
      | dsimp -iota only | dsimp only

theorem State.bootPick_keeps {z0 : State} {s : State} {matched signed : List Nat} {a0 : List (Nat × Nat × Nat)} (hK : Keeps z0 s) :
    Keeps z0 (State.bootPick s matched signed a0).1 := by
  fun_induction State.bootPick s matched signed a0
  all_goals
    with_reducible
      repeat' first
        | assumption | apply State.raise_keeps | apply_assumption | apply Keeps.ite | intro _ | split | dsimp -iota only
        | dsimp only
  
theorem State.bootPick_keepsE {z0 : State} {s : State} {matched signed : List Nat} {a0 : List (Nat × Nat × Nat)} {tE : State} {uE} (hE : State.bootPick s matched signed a0 = (tE, uE)) (hK : Keeps z0 s) :
    Keeps z0 tE := by
  have k := State.bootPick_keeps (z0 := z0) (s := s) (matched := matched) (signed := signed) (a0 := a0)  hK
  rw [hE] at k
  exact k

theorem State.pmbusLoad_keeps {z0 : State} {s : State} {a : Nat} {vout : List (Nat × Nat)} (hK : Keeps z0 s) :
    Keeps z0 (State.pmbusLoad s a vout) := by
  unfold State.pmbusLoad
  with_reducible
    repeat' first
      | assumption | apply State.setLive_keeps | refine Keeps.foldl (fun _ _ _ => ?_) ?_
      | refine Keeps.foldlFst (fun _ _ _ => ?_) ?_ | refine Keeps.foldlSnd (fun _ _ _ => ?_) ?_ | intro _ | split
      | dsimp -iota only | dsimp only | ((fail_if_success apply Keeps.same); refine Keeps.mk ?_)

theorem State.bootMeasure_keeps {z0 : State} {s : State} {a : Nat} (hK : Keeps z0 s) :
    Keeps z0 (State.bootMeasure s a) := by
  unfold State.bootMeasure
  with_reducible
    repeat' first
      | assumption | apply State.measure_keeps | intro _ | split | dsimp -iota only | dsimp only

theorem State.bootImage_keeps {z0 : State} {s : State} {a : Nat} (hK : Keeps z0 s) :
    Keeps z0 (State.bootImage s a) := by
  unfold State.bootImage
  with_reducible
    repeat' first
      | assumption | apply Keeps.ite | intro _ | split | dsimp -iota only | dsimp only
      | ((fail_if_success apply Keeps.same); refine Keeps.mk ?_)

theorem State.coresGo_keeps {z0 : State} {s : State} (hK : Keeps z0 s) :
    Keeps z0 (State.coresGo s) := by
  unfold State.coresGo
  repeat' first
    | with_reducible assumption
    | with_reducible exact Keeps.refl _
    | (with_reducible refine State.setLive_keeps ?_)
    | (with_reducible refine State.setFld_keeps ?_)
    | (with_reducible refine State.dutiesNow_keeps ?_)
    | (with_reducible refine Pass.step_keeps ?_)
    | (with_reducible refine State.epochTake_keeps ?_)
    | (with_reducible refine State.strikeSeqLoad_keeps ?_)
    | (with_reducible refine Keeps.getD ?_ ?_)
    | (with_reducible refine Keeps.mapPair (by assumption) ?_)
    | (with_reducible refine Keeps.foldl (fun st x hst => ?_) ?_)
    | (with_reducible refine Keeps.foldlFst (fun st x hst => ?_) ?_)
    | (with_reducible refine Keeps.foldlSnd (fun st x hst => ?_) ?_)
    | (with_reducible refine Keeps.ite ?_ ?_)
    | intro _
    | split
    | dsimp -iota only
    | dsimp only
    | dsimp only [id]
    | exact memWf_nil _
    | (fail_if_success (with_reducible refine Keeps.same ?_)
       with_reducible refine Keeps.mk ?_ ?_ ?_ ?_ ?_ ?_ ?_ ?_ ?_ ?_ ?_ ?_ ?_ <;>
         first | with_reducible exact Nat.le_refl _ | with_reducible exact List.prefix_rfl | with_reducible exact fun hm => hm |
           with_reducible exact List.prefix_append _ _ | with_reducible exact Nat.le_succ _ | with_reducible exact memWriteN_wf | with_reducible exact memClear_wf |
           with_reducible exact memPaste_wf | with_reducible exact memWrite_wf | with_reducible exact memWriteLE_wf | with_reducible exact fun _ => rfl | exact fun _ => memWf_nil _ |
           with_reducible exact fun hm => memWriteN_wf (memWriteN_wf hm) | exact fun _ => rfl |
           exact fun hm => memFold_wf (fun m y hh => memWrite_wf hh) hm |
           exact fun _ => memFold_wf (fun m y hh => memWrite_wf hh) (memWf_nil _) | skip)

theorem State.bootFrom_keeps {z0 : State} {s : State} {newest : Option Nat} {vout : List (Nat × Nat)} {pick : Option (Nat × Nat)} (hK : Keeps z0 s) :
    Keeps z0 (State.bootFrom s newest vout pick) := by
  unfold State.bootFrom
  with_reducible
    repeat' first
      | assumption | apply State.setFld_keeps | apply State.setFlag_keeps | apply State.raise_keeps
      | apply State.bootKeys_keeps | apply State.runMail_keeps | apply State.pmbusLoad_keeps
      | apply State.bootMeasure_keeps | apply State.bootImage_keeps | apply State.coresGo_keeps | apply Keeps.ite
      | intro _ | split | dsimp -iota only | dsimp only

theorem State.bootVerified_keeps {z0 : State} {s : State} {matched signed : List Nat} {vout : List (Nat × Nat)} (hK : Keeps z0 s) :
    Keeps z0 (State.bootVerified s matched signed vout) := by
  unfold State.bootVerified
  with_reducible
    repeat' first
      | assumption | apply Pass.step_keeps | apply State.fwRedoAll_keeps | apply State.bootPick_keeps
      | refine State.bootPick_keepsE (by assumption) ?_ | apply State.bootFrom_keeps | apply Keeps.ite | intro _
      | split | dsimp -iota only | dsimp only

theorem execBootVerified_keeps {z0 : State} {matched signed : List Nat} {vout : List (Nat × Nat)} {s : State} (hK : Keeps z0 s) :
    KeepsRes z0 (execBootVerified matched signed vout s) := by
  unfold execBootVerified
  with_reducible
    repeat' first
      | assumption | apply KeepsRes.next | apply State.bootVerified_keeps | intro _ | split | dsimp -iota only
      | dsimp only

theorem State.firstScene_keeps {z0 : State} {s : State} (hK : Keeps z0 s) :
    Keeps z0 (State.firstScene s) := by
  unfold State.firstScene
  with_reducible
    repeat' first
      | assumption | apply State.setFld_keeps | apply State.setFlag_keeps | apply State.setMode_keeps
      | apply State.setCeiling_keeps | apply State.setStagePool_keeps | apply State.pairGrow_keeps
      | apply State.setLink_keeps | refine Keeps.foldl (fun _ _ _ => ?_) ?_
      | refine Keeps.foldlFst (fun _ _ _ => ?_) ?_ | refine Keeps.foldlSnd (fun _ _ _ => ?_) ?_ | apply Keeps.ite
      | intro _ | split | dsimp -iota only | dsimp only | ((fail_if_success apply Keeps.same); refine Keeps.mk ?_)

theorem State.startService_keeps {z0 : State} {s : State} (hK : Keeps z0 s) :
    Keeps z0 (State.startService s) := by
  unfold State.startService
  with_reducible
    repeat' first
      | assumption | apply State.applySet_keeps | apply State.firstScene_keeps | intro _ | split | dsimp -iota only
      | dsimp only | ((fail_if_success apply Keeps.same); refine Keeps.mk ?_)

theorem State.configLoad_keeps {z0 : State} {s : State} (hK : Keeps z0 s) :
    Keeps z0 (State.configLoad s) := by
  unfold State.configLoad
  with_reducible
    repeat' first
      | assumption | apply State.raise_keeps | apply Pass.step_keeps | apply State.takeImages_keeps
      | apply State.freshBase_keeps | apply State.measure_keeps | apply State.startService_keeps | apply Keeps.ite
      | intro _ | split | dsimp -iota only | dsimp only | ((fail_if_success apply Keeps.same); refine Keeps.mk ?_)

theorem execConfigSetLoad_keeps {z0 : State} {s : State} (hK : Keeps z0 s) :
    KeepsRes z0 (execConfigSetLoad s) := by
  unfold execConfigSetLoad
  with_reducible
    repeat' first
      | assumption | apply KeepsRes.next | apply State.configLoad_keeps | intro _ | split | dsimp -iota only
      | dsimp only

theorem State.arraysTest_keeps {z0 : State} {s : State} {r : Rehearsed} (hK : Keeps z0 s) :
    Keeps z0 (State.arraysTest s r) := by
  unfold State.arraysTest
  with_reducible
    repeat' first
      | assumption | apply State.setFld_keeps | apply State.addSat_keeps | apply State.raiseD_keeps
      | apply State.sramCe_keeps | apply State.wayCe_keeps | refine Keeps.foldl (fun _ _ _ => ?_) ?_
      | refine Keeps.foldlFst (fun _ _ _ => ?_) ?_ | refine Keeps.foldlSnd (fun _ _ _ => ?_) ?_ | intro _ | split
      | dsimp -iota only | dsimp only | ((fail_if_success apply Keeps.same); refine Keeps.mk ?_)

theorem State.waysFail_keeps {z0 : State} {s : State} {r : Rehearsed} (hK : Keeps z0 s) :
    Keeps z0 (State.waysFail s r) := by
  unfold State.waysFail
  with_reducible
    repeat' first
      | assumption | apply State.setFld_keeps | apply State.raiseD_keeps | refine Keeps.foldl (fun _ _ _ => ?_) ?_
      | refine Keeps.foldlFst (fun _ _ _ => ?_) ?_ | refine Keeps.foldlSnd (fun _ _ _ => ?_) ?_ | intro _ | split
      | dsimp -iota only | dsimp only

theorem State.scribesFill_keeps {z0 : State} {s : State} {r : Rehearsed} (hK : Keeps z0 s) :
    Keeps z0 (State.scribesFill s r) := by
  unfold State.scribesFill
  with_reducible
    repeat' first
      | assumption | apply State.setLive_keeps | apply State.setFld_keeps | apply State.raiseD_keeps
      | apply State.take_keeps | apply State.scribeRegs_keeps | apply State.clusterRegs_keeps
      | apply State.reservoirRegs_keeps | refine Keeps.getD ?_ ?_ | refine Keeps.foldl (fun _ _ _ => ?_) ?_
      | refine Keeps.foldlFst (fun _ _ _ => ?_) ?_ | refine Keeps.foldlSnd (fun _ _ _ => ?_) ?_ | apply Keeps.ite
      | intro _ | split | dsimp -iota only | dsimp only

theorem State.channelsGo_keeps {z0 : State} {s : State} {r : Rehearsed} {warm : Bool} (hK : Keeps z0 s) :
    Keeps z0 (State.channelsGo s r warm) := by
  unfold State.channelsGo
  with_reducible
    repeat' first
      | assumption | apply State.setLive_keeps | apply State.setFld_keeps | apply State.setFlag_keeps
      | apply State.setChan_keeps | refine Keeps.getD ?_ ?_ | refine Keeps.foldl (fun _ _ _ => ?_) ?_
      | refine Keeps.foldlFst (fun _ _ _ => ?_) ?_ | refine Keeps.foldlSnd (fun _ _ _ => ?_) ?_ | apply Keeps.ite
      | intro _ | split | dsimp -iota only | dsimp only | ((fail_if_success apply Keeps.same); refine Keeps.mk ?_)

theorem State.cartUp_keeps {z0 : State} {s : State} {c : FoundCart} {form : Bool} (hK : Keeps z0 s) :
    Keeps z0 (State.cartUp s c form) := by
  unfold State.cartUp
  with_reducible
    repeat' first
      | assumption | apply State.setFlag_keeps | apply State.raiseD_keeps | apply State.setSlot_keeps
      | apply State.setCart_keeps | apply State.slotPwr_keeps | apply State.cartFail_keeps
      | apply State.markDies_keeps | apply State.initChannels_keeps | apply State.formSlot_keeps | apply Keeps.ite
      | intro _ | split | dsimp -iota only | dsimp only | ((fail_if_success apply Keeps.same); refine Keeps.mk ?_)

theorem State.cartFound_keeps {z0 : State} {s : State} {fresh : Bool} {c : FoundCart} (hK : Keeps z0 s) :
    Keeps z0 (State.cartFound s fresh c) := by
  unfold State.cartFound
  with_reducible
    repeat' first
      | assumption | apply State.setFlag_keeps | apply State.raiseD_keeps | apply State.ownJob_keeps
      | apply State.setSlot_keeps | apply State.setCart_keeps | apply State.cartRefuse_keeps
      | apply State.cartUp_keeps | apply Keeps.ite | intro _ | split | dsimp -iota only | dsimp only
      | ((fail_if_success apply Keeps.same); refine Keeps.mk ?_)

theorem State.cartsFound_keeps {z0 : State} {s : State} {r : Rehearsed} (hK : Keeps z0 s) :
    Keeps z0 (State.cartsFound s r) := by
  unfold State.cartsFound
  with_reducible
    repeat' first
      | assumption | apply State.setFld_keeps | apply State.setFlag_keeps | apply State.raise_keeps
      | apply State.askDegraded_keeps | apply State.flashRegs_keeps | apply State.fixPopulation_keeps
      | apply State.cartFound_keeps | refine Keeps.foldl (fun _ _ _ => ?_) ?_
      | refine Keeps.foldlFst (fun _ _ _ => ?_) ?_ | refine Keeps.foldlSnd (fun _ _ _ => ?_) ?_ | apply Keeps.ite
      | intro _ | split | dsimp -iota only | dsimp only

theorem State.askLoadIn_keeps {z0 : State} {s : State} {faulty : Bool} (hK : Keeps z0 s) :
    Keeps z0 (State.askLoadIn s faulty) := by
  unfold State.askLoadIn
  with_reducible
    repeat' first
      | assumption | apply State.setFlag_keeps | apply Keeps.ite | intro _ | split | dsimp -iota only | dsimp only
      | ((fail_if_success apply Keeps.same); refine Keeps.mk ?_)

theorem State.arraysFail_keeps {z0 : State} {s : State} {r : Rehearsed} (hK : Keeps z0 s) :
    Keeps z0 (State.arraysFail s r) := by
  unfold State.arraysFail
  with_reducible
    repeat' first
      | assumption | apply State.raiseD_keeps | refine Keeps.foldl (fun _ _ _ => ?_) ?_
      | refine Keeps.foldlFst (fun _ _ _ => ?_) ?_ | refine Keeps.foldlSnd (fun _ _ _ => ?_) ?_ | apply Keeps.ite
      | intro _ | split | dsimp -iota only | dsimp only | ((fail_if_success apply Keeps.same); refine Keeps.mk ?_)

theorem State.popMismatch_keeps {z0 : State} {s : State} {c : Nat} (hK : Keeps z0 s) :
    Keeps z0 (State.popMismatch s c) := by
  unfold State.popMismatch
  with_reducible
    repeat' first
      | assumption | apply State.raiseD_keeps | apply State.startService_keeps | intro _ | split | dsimp -iota only
      | dsimp only

theorem State.warmAreas_keeps {z0 : State} {s : State} (hK : Keeps z0 s) :
    Keeps z0 (State.warmAreas s) := by
  unfold State.warmAreas
  with_reducible
    repeat' first
      | assumption | intro _ | split | dsimp -iota only | dsimp only
      | ((fail_if_success apply Keeps.same); refine Keeps.mk ?_)

theorem State.rehearseOn_keeps {z0 : State} {s : State} {r : Rehearsed} {warm : Bool} (hK : Keeps z0 s) :
    Keeps z0 (State.rehearseOn s r warm) := by
  unfold State.rehearseOn
  with_reducible
    repeat' first
      | assumption | apply State.setCurtain_keeps | apply Pass.step_keeps | apply State.renewals_keeps
      | apply State.scribesFill_keeps | apply State.channelsGo_keeps | apply State.cartsFound_keeps
      | apply State.askLoadIn_keeps | apply State.arraysFail_keeps | apply State.warmAreas_keeps | apply Keeps.ite
      | intro _ | split | dsimp -iota only | dsimp only | ((fail_if_success apply Keeps.same); refine Keeps.mk ?_)

theorem State.rehearse_keeps {z0 : State} {s : State} {r : Rehearsed} (hK : Keeps z0 s) :
    Keeps z0 (State.rehearse s r) := by
  unfold State.rehearse
  with_reducible
    repeat' first
      | assumption | apply State.raiseD_keeps | apply Pass.step_keeps | apply State.arraysTest_keeps
      | apply State.waysFail_keeps | apply State.popMismatch_keeps | apply State.rehearseOn_keeps
      | refine Keeps.foldl (fun _ _ _ => ?_) ?_ | refine Keeps.foldlFst (fun _ _ _ => ?_) ?_
      | refine Keeps.foldlSnd (fun _ _ _ => ?_) ?_ | apply Keeps.ite | intro _ | split | dsimp -iota only | dsimp only

theorem execPowerOnRehearsal_keeps {z0 : State} {r : Rehearsed} {s : State} (hK : Keeps z0 s) :
    KeepsRes z0 (execPowerOnRehearsal r s) := by
  unfold execPowerOnRehearsal
  with_reducible
    repeat' first
      | assumption | apply KeepsRes.next | apply State.rehearse_keeps | intro _ | split | dsimp -iota only
      | dsimp only

theorem State.degradedAgain_keeps {z0 : State} {s : State} (hK : Keeps z0 s) :
    Keeps z0 (State.degradedAgain s) := by
  unfold State.degradedAgain
  with_reducible
    repeat' first
      | assumption | apply State.sceneChange_keeps | apply Keeps.ite | intro _ | split | dsimp -iota only | dsimp only

theorem State.warmGo_keeps {z0 : State} {s : State} (hK : Keeps z0 s) :
    Keeps z0 (State.warmGo s) := by
  unfold State.warmGo
  with_reducible
    repeat' first
      | assumption | apply State.sceneChange_keeps | apply State.setCeiling_keeps | apply State.jReplace_keeps
      | apply State.releaseEmpty_keeps | apply State.ringErase_keeps | apply State.redoErases_keeps
      | apply State.loadRole_keeps | apply State.degradedAgain_keeps | refine Keeps.foldl (fun _ _ _ => ?_) ?_
      | refine Keeps.foldlFst (fun _ _ _ => ?_) ?_ | refine Keeps.foldlSnd (fun _ _ _ => ?_) ?_ | apply Keeps.ite
      | intro _ | split | dsimp -iota only | dsimp only | ((fail_if_success apply Keeps.same); refine Keeps.mk ?_)

theorem State.coldGo_keeps {z0 : State} {s : State} (hK : Keeps z0 s) :
    Keeps z0 (State.coldGo s) := by
  unfold State.coldGo
  with_reducible
    repeat' first
      | assumption | apply State.setSent_keeps | intro _ | split | dsimp -iota only | dsimp only
      | ((fail_if_success apply Keeps.same); refine Keeps.mk ?_)

theorem State.boundary_keeps {z0 : State} {s : State} (hK : Keeps z0 s) :
    Keeps z0 (State.boundary s) := by
  unfold State.boundary
  with_reducible
    repeat' first
      | assumption | apply Pass.step_keeps | apply State.nextBoundary_keeps | apply State.sceneJobGo_keeps
      | apply State.sceneJobEnd_keeps | apply State.runMail_keeps | apply State.firstScene_keeps
      | apply State.warmGo_keeps | apply State.coldGo_keeps | apply Keeps.ite | intro _ | split | dsimp -iota only
      | dsimp only | ((fail_if_success apply Keeps.same); refine Keeps.mk ?_)

theorem execSceneBoundary_keeps {z0 : State} {s : State} (hK : Keeps z0 s) :
    KeepsRes z0 (execSceneBoundary s) := by
  unfold execSceneBoundary
  with_reducible
    repeat' first
      | assumption | apply KeepsRes.next | apply State.settle_keeps | apply State.boundary_keeps | intro _ | split
      | dsimp -iota only | dsimp only

theorem execSceneReq_keeps {z0 : State} {value : Nat} {s : State} (hK : Keeps z0 s) :
    KeepsRes z0 (execSceneReq value s) := by
  unfold execSceneReq
  with_reducible
    repeat' first
      | assumption | apply KeepsRes.next | apply State.requestSet_keeps | apply Keeps.ite | intro _ | split
      | dsimp -iota only | dsimp only

end Sys2Proof.Machine
end

