-- ==== Sys2Proof/Laws/KeepRegWrite.lean ====
section
/-! SUPPORT. What the operations of Machine/RegWrite.lean keep. -/

set_option Elab.async false

namespace Sys2Proof.Machine

theorem State.ctlAccess_keeps {z0 : State} {s : State} {off : Nat} {write : Bool} (hK : Keeps z0 s) :
    Keeps z0 (State.ctlAccess s off write) := by
  unfold State.ctlAccess
  with_reducible
    repeat' first
      | assumption | apply State.send_keeps | apply State.raiseD_keeps | apply Keeps.ite | intro _ | split
      | dsimp -iota only | dsimp only

theorem execCtlUnmapped_keeps {z0 : State} {off : Nat} {write : Bool} {s : State} (hK : Keeps z0 s) :
    KeepsRes z0 (execCtlUnmapped off write s) := by
  unfold execCtlUnmapped
  with_reducible
    repeat' first
      | assumption | apply KeepsRes.next | apply State.ctlAccess_keeps | intro _ | split | dsimp -iota only
      | dsimp only

theorem State.shadowWrite_keeps {z0 : State} {s : State} {off v : Nat} (hK : Keeps z0 s) :
    Keeps z0 (State.shadowWrite s off v) := by
  unfold State.shadowWrite
  with_reducible
    repeat' first
      | assumption | apply State.setTab_keeps | apply Keeps.ite | intro _ | split | dsimp -iota only | dsimp only

theorem maintOp_keeps {z0 : State} {v : Nat} {s : State} (hK : Keeps z0 s) :
    KeepsRes z0 (maintOp v s) := by
  unfold maintOp
  repeat' first
    | with_reducible assumption
    | with_reducible exact Keeps.refl _
    | (with_reducible refine KeepsRes.next ?_)
    | (with_reducible refine State.startMaint_keeps ?_ ?_)
    | (with_reducible refine execClean_keeps ?_)
    | (with_reducible refine execInvalidate_keeps ?_)
    | (with_reducible refine execFlush_keeps ?_)
    | (with_reducible refine execCleanSet_keeps ?_)
    | (with_reducible refine execInvalidateSet_keeps ?_)
    | (with_reducible refine execFlushSet_keeps ?_)
    | (with_reducible refine execCleanAll_keeps ?_)
    | (with_reducible refine execInvalidateAll_keeps ?_)
    | (with_reducible refine execFlushAll_keeps ?_)
    | (with_reducible refine execDisable_keeps ?_)
    | (with_reducible refine execEnable_keeps ?_)
    | (with_reducible refine execWayDisable_keeps ?_)
    | (with_reducible refine execWayEnable_keeps ?_)
    | (with_reducible refine Keeps.getD ?_ ?_)
    | (with_reducible refine Keeps.mapPair (by assumption) ?_)
    | (with_reducible refine Keeps.foldl (fun st x hst => ?_) ?_)
    | (with_reducible refine Keeps.foldlFst (fun st x hst => ?_) ?_)
    | (with_reducible refine Keeps.foldlSnd (fun st x hst => ?_) ?_)
    | (with_reducible refine Keeps.ite ?_ ?_)
    | intro _
    | split
    | dsimp -iota only
    | dsimp only
    | dsimp only [id]
    | exact memWf_nil _
    | (fail_if_success (with_reducible refine Keeps.same ?_)
       with_reducible refine Keeps.mk ?_ ?_ ?_ ?_ ?_ ?_ ?_ ?_ ?_ ?_ ?_ ?_ ?_ <;>
         first | with_reducible exact Nat.le_refl _ | with_reducible exact List.prefix_rfl | with_reducible exact fun hm => hm |
           with_reducible exact List.prefix_append _ _ | with_reducible exact Nat.le_succ _ | with_reducible exact memWriteN_wf | with_reducible exact memClear_wf |
           with_reducible exact memPaste_wf | with_reducible exact memWrite_wf | with_reducible exact memWriteLE_wf | with_reducible exact fun _ => rfl | exact fun _ => memWf_nil _ |
           with_reducible exact fun hm => memWriteN_wf (memWriteN_wf hm) | exact fun _ => rfl |
           exact fun hm => memFold_wf (fun m y hh => memWrite_wf hh) hm |
           exact fun _ => memFold_wf (fun m y hh => memWrite_wf hh) (memWf_nil _) | skip)

theorem fwfOp_keeps {z0 : State} {p v : Nat} {s : State} (hK : Keeps z0 s) :
    KeepsRes z0 (fwfOp p v s) := by
  unfold fwfOp
  with_reducible
    repeat' first
      | assumption | apply KeepsRes.next | apply State.fwStatus_keeps | apply State.fwCmd_keeps
      | apply execReadPage_keeps | apply execProgramPage_keeps | apply execEraseSector_keeps | apply execSuspend_keeps
      | apply execResume_keeps | apply execProtSet_keeps | apply execProtClear_keeps | apply execLock_keeps
      | apply execPwdSet_keeps | intro _ | split | dsimp -iota only | dsimp only

theorem pmbOp_keeps {z0 : State} {v : Nat} {s : State} (hK : Keeps z0 s) :
    KeepsRes z0 (pmbOp v s) := by
  unfold pmbOp
  with_reducible
    repeat' first
      | assumption | apply KeepsRes.next | apply State.freeBytes_keeps
      | refine State.freeBytes_keepsE (by assumption) ?_ | apply State.pmbDenied_keeps | apply execOperation_keeps
      | apply execClearFaults_keeps | apply execVoutCommand_keeps | apply execStatusWord_keeps
      | apply execReadVin_keeps | apply execReadIin_keeps | apply execReadVout_keeps | apply execReadIout_keeps
      | apply execReadTemperature1_keeps | apply execReadPout_keeps | apply execReadPin_keeps | intro _ | split
      | dsimp -iota only | dsimp only

theorem State.maintReq_keeps {z0 : State} {s : State} {v : Nat} (hK : Keeps z0 s) :
    Keeps z0 (State.maintReq s v) := by
  unfold State.maintReq
  with_reducible
    repeat' first
      | assumption | apply State.submit_keeps | refine State.submit_keepsE (by assumption) ?_
      | apply State.submitTell_keeps | apply Keeps.ite | intro _ | split | dsimp -iota only | dsimp only

theorem State.releaseWrite_keeps {z0 : State} {s : State} {c : Nat} (hK : Keeps z0 s) :
    Keeps z0 (State.releaseWrite s c) := by
  unfold State.releaseWrite
  with_reducible
    repeat' first
      | assumption | apply State.setFld_keeps | apply State.submit_keeps
      | refine State.submit_keepsE (by assumption) ?_ | apply Keeps.ite | intro _ | split | dsimp -iota only
      | dsimp only

theorem State.twinCtl_keeps {z0 : State} {s : State} {v : Nat} (hK : Keeps z0 s) :
    Keeps z0 (State.twinCtl s v) := by
  unfold State.twinCtl
  with_reducible
    repeat' first
      | assumption | apply State.submit_keeps | refine State.submit_keepsE (by assumption) ?_
      | apply State.submitTell_keeps | apply execSoloDeclaration_keeps | apply execTwinYield_keeps
      | apply stateOf_keeps | apply Keeps.ite | intro _ | split | dsimp -iota only | dsimp only

theorem startWrite_keeps {z0 s : State} {r : RegId} {i v : Nat} {x : Res} (hE : startWrite r i v s = some x)
    (h : Keeps z0 s) : KeepsRes z0 x := by
  have n : KeepsRes z0 (.next s) := h
  unfold startWrite at hE
  dsimp only at hE
  split at hE
  · cases hE; exact execSceneReq_keeps h
  · cases hE; exact execInkLimitWrite_keeps h
  · cases hE; exact execAccCommit_keeps h
  · cases hE; exact KeepsRes.ite (maintOp_keeps h) n
  · cases hE; exact execSentPcap_keeps h
  · cases hE; exact execRearm_keeps h
  · cases hE; exact execDvfsRaise_keeps h
  · cases hE; exact KeepsRes.ite (execHoldupTest_keeps h) n
  · cases hE; exact KeepsRes.ite (pmbOp_keeps h) n
  · cases hE; exact execStcWdog_keeps h
  · cases hE; exact KeepsRes.ite (fwfOp_keeps h) n
  · cases hE; exact execFwfPwdKey_keeps h
  · cases hE; exact execFwfPwdData_keeps h
  · cases hE; exact State.settle_keeps (State.twinCtl_keeps h)
  · cases hE; exact KeepsRes.ite (execUnitReset_keeps h) n
  · cases hE; exact execChkRingTail_keeps h
  · cases hE; exact execPbookFire_keeps h
  · cases hE; exact execPbookAckHi_keeps h
  · cases hE; exact KeepsRes.ite (execTallyClear_keeps h) (KeepsRes.ite (execTallySnap_keeps h) n)
  · cases hE; exact KeepsRes.ite (State.maintReq_keeps h) n
  · cases hE; exact execMaintQry_keeps h
  · cases hE

theorem State.afterWrite_keeps {z0 : State} {s : State} {r : RegId} {i v : Nat} (hK : Keeps z0 s) :
    Keeps z0 (State.afterWrite s r i v) := by
  unfold State.afterWrite
  with_reducible
    repeat' first
      | assumption | apply State.dutiesNow_keeps | apply State.coresFollow_keeps | apply State.linksIdle_keeps
      | apply State.settle_keeps | apply State.runMail_keeps | apply State.releaseWrite_keeps | apply Keeps.ite
      | intro _ | split | dsimp -iota only | dsimp only

theorem State.plainWrite_keeps {z0 : State} {s : State} {r : RegId} {i v : Nat} (hK : Keeps z0 s) :
    Keeps z0 (State.plainWrite s r i v) := by
  unfold State.plainWrite
  with_reducible
    repeat' first
      | assumption | apply State.setLive_keeps | apply State.regWrite_keeps | apply Keeps.ite | intro _ | split
      | dsimp -iota only | dsimp only

theorem State.ctlWrite_keeps {z0 : State} {s : State} {off value : Nat} (hK : Keeps z0 s) :
    Keeps z0 (State.ctlWrite s off value) := by
  unfold State.ctlWrite
  with_reducible
    repeat' first
      | assumption | refine stateOf_keeps (startWrite_keeps (by assumption) ?_) ?_ | apply State.raiseD_keeps
      | apply stateOf_keeps | apply State.shadowWrite_keeps | apply startWrite_keeps | apply State.afterWrite_keeps
      | apply State.plainWrite_keeps | apply Keeps.ite | intro _ | split | dsimp -iota only | dsimp only

theorem execRegisterWrite_keeps {z0 : State} {off value : Nat} {s : State} (hK : Keeps z0 s) :
    KeepsRes z0 (execRegisterWrite off value s) := by
  unfold execRegisterWrite
  with_reducible
    repeat' first
      | assumption | apply KeepsRes.next | apply State.ctlWrite_keeps | intro _ | split | dsimp -iota only
      | dsimp only

end Sys2Proof.Machine
end

