-- ==== Sys2Proof/Laws/KeepTransfer.lean ====
section
/-! SUPPORT. What the operations of Machine/Transfer.lean keep. -/

set_option Elab.async false

namespace Sys2Proof.Machine

theorem execLd_keeps {z0 : State} {e cx : Nat} {ue : Bool} {s : State} (hK : Keeps z0 s) :
    KeepsRes z0 (execLd e cx ue s) := by
  unfold execLd
  with_reducible
    repeat' first
      | assumption | apply KeepsRes.next | apply State.settle_keeps | apply State.setCtx_keeps
      | apply State.takeTrap_keeps | apply State.dpaLoad_keeps | apply Keeps.ite | intro _ | split | dsimp -iota only
      | dsimp only

theorem execSt_keeps {z0 : State} {e cx : Nat} {s : State} (hK : Keeps z0 s) :
    KeepsRes z0 (execSt e cx s) := by
  unfold execSt
  with_reducible
    repeat' first
      | assumption | apply KeepsRes.next | apply State.takeTrap_keeps
      | refine State.storeBytes_keepsE (by assumption) ?_ | refine Keeps.getD ?_ ?_ | apply Keeps.ite | intro _
      | split | dsimp -iota only | dsimp only

theorem State.atomicOp_keeps {z0 : State} {s : State} {e cx major op : Nat} {ue : Bool} (hK : Keeps z0 s) :
    Keeps z0 (State.atomicOp s e cx major op ue) := by
  unfold State.atomicOp
  with_reducible
    repeat' first
      | assumption | apply State.settle_keeps | apply State.setCtx_keeps | apply State.takeTrap_keeps
      | apply State.localWrite_keeps | refine State.localWrite_keepsE (by assumption) ?_ | apply State.dpaStore_keeps
      | apply Keeps.ite | intro _ | split | dsimp -iota only | dsimp only
      | ((fail_if_success apply Keeps.same); refine Keeps.mk ?_)

theorem execCas_keeps {z0 : State} {e cx : Nat} {ue : Bool} {s : State} (hK : Keeps z0 s) :
    KeepsRes z0 (execCas e cx ue s) := by
  unfold execCas
  with_reducible
    repeat' first
      | assumption | apply KeepsRes.next | apply State.atomicOp_keeps | intro _ | split | dsimp -iota only
      | dsimp only

theorem execFadd_keeps {z0 : State} {e cx : Nat} {ue : Bool} {s : State} (hK : Keeps z0 s) :
    KeepsRes z0 (execFadd e cx ue s) := by
  unfold execFadd
  with_reducible
    repeat' first
      | assumption | apply KeepsRes.next | apply State.atomicOp_keeps | intro _ | split | dsimp -iota only
      | dsimp only

theorem execVld_keeps {z0 : State} {e cx : Nat} {ue : Bool} {s : State} (hK : Keeps z0 s) :
    KeepsRes z0 (execVld e cx ue s) := by
  unfold execVld
  with_reducible
    repeat' first
      | assumption | apply KeepsRes.next | apply State.settle_keeps | apply State.setCtx_keeps
      | apply State.takeTrap_keeps | apply State.dpaLoad_keeps | apply Keeps.ite | intro _ | split | dsimp -iota only
      | dsimp only

theorem execVldBc_keeps {z0 : State} {e cx : Nat} {ue : Bool} {s : State} (hK : Keeps z0 s) :
    KeepsRes z0 (execVldBc e cx ue s) := by
  unfold execVldBc
  with_reducible
    repeat' first
      | assumption | apply KeepsRes.next | apply State.settle_keeps | apply State.setCtx_keeps
      | apply State.takeTrap_keeps | apply State.dpaLoad_keeps | apply Keeps.ite | intro _ | split | dsimp -iota only
      | dsimp only

theorem execVst_keeps {z0 : State} {e cx : Nat} {s : State} (hK : Keeps z0 s) :
    KeepsRes z0 (execVst e cx s) := by
  unfold execVst
  with_reducible
    repeat' first
      | assumption | apply KeepsRes.next | apply State.takeTrap_keeps
      | refine State.storeBytes_keepsE (by assumption) ?_ | refine Keeps.getD ?_ ?_ | apply Keeps.ite | intro _
      | split | dsimp -iota only | dsimp only

theorem execVcmp_keeps {z0 : State} {e cx : Nat} {s : State} (hK : Keeps z0 s) :
    KeepsRes z0 (execVcmp e cx s) := by
  unfold execVcmp
  with_reducible
    repeat' first
      | assumption | apply KeepsRes.next | apply State.setCtx_keeps | apply State.takeTrap_keeps
      | refine Keeps.foldl (fun _ _ _ => ?_) ?_ | refine Keeps.foldlFst (fun _ _ _ => ?_) ?_
      | refine Keeps.foldlSnd (fun _ _ _ => ?_) ?_ | apply Keeps.ite | intro _ | split | dsimp -iota only | dsimp only

theorem execVsel_keeps {z0 : State} {e cx : Nat} {s : State} (hK : Keeps z0 s) :
    KeepsRes z0 (execVsel e cx s) := by
  unfold execVsel
  with_reducible
    repeat' first
      | assumption | apply KeepsRes.next | apply State.setCtx_keeps | apply State.takeTrap_keeps | apply Keeps.ite
      | intro _ | split | dsimp -iota only | dsimp only

theorem execVsum_keeps {z0 : State} {e cx : Nat} {s : State} (hK : Keeps z0 s) :
    KeepsRes z0 (execVsum e cx s) := by
  unfold execVsum
  with_reducible
    repeat' first
      | assumption | apply KeepsRes.next | apply State.setCtx_keeps | apply State.takeTrap_keeps
      | refine Keeps.foldl (fun _ _ _ => ?_) ?_ | refine Keeps.foldlFst (fun _ _ _ => ?_) ?_
      | refine Keeps.foldlSnd (fun _ _ _ => ?_) ?_ | apply Keeps.ite | intro _ | split | dsimp -iota only | dsimp only

theorem State.velem_keeps {z0 : State} {s : State} {e cx major : Nat} {greatest : Bool} (hK : Keeps z0 s) :
    Keeps z0 (State.velem s e cx major greatest) := by
  unfold State.velem
  with_reducible
    repeat' first
      | assumption | apply State.setCtx_keeps | apply State.takeTrap_keeps | refine Keeps.foldl (fun _ _ _ => ?_) ?_
      | refine Keeps.foldlFst (fun _ _ _ => ?_) ?_ | refine Keeps.foldlSnd (fun _ _ _ => ?_) ?_ | apply Keeps.ite
      | intro _ | split | dsimp -iota only | dsimp only

theorem State.vreduce_keeps {z0 : State} {s : State} {e cx major : Nat} {greatest : Bool} (hK : Keeps z0 s) :
    Keeps z0 (State.vreduce s e cx major greatest) := by
  unfold State.vreduce
  with_reducible
    repeat' first
      | assumption | apply State.setCtx_keeps | apply State.takeTrap_keeps | refine Keeps.foldl (fun _ _ _ => ?_) ?_
      | refine Keeps.foldlFst (fun _ _ _ => ?_) ?_ | refine Keeps.foldlSnd (fun _ _ _ => ?_) ?_ | apply Keeps.ite
      | intro _ | split | dsimp -iota only | dsimp only

theorem execVmin_keeps {z0 : State} {e cx : Nat} {s : State} (hK : Keeps z0 s) :
    KeepsRes z0 (execVmin e cx s) := by
  unfold execVmin
  with_reducible
    repeat' first
      | assumption | apply KeepsRes.next | apply State.velem_keeps | intro _ | split | dsimp -iota only | dsimp only

theorem execVminr_keeps {z0 : State} {e cx : Nat} {s : State} (hK : Keeps z0 s) :
    KeepsRes z0 (execVminr e cx s) := by
  unfold execVminr
  with_reducible
    repeat' first
      | assumption | apply KeepsRes.next | apply State.vreduce_keeps | intro _ | split | dsimp -iota only | dsimp only

theorem execVmax_keeps {z0 : State} {e cx : Nat} {s : State} (hK : Keeps z0 s) :
    KeepsRes z0 (execVmax e cx s) := by
  unfold execVmax
  with_reducible
    repeat' first
      | assumption | apply KeepsRes.next | apply State.velem_keeps | intro _ | split | dsimp -iota only | dsimp only

theorem execVmaxr_keeps {z0 : State} {e cx : Nat} {s : State} (hK : Keeps z0 s) :
    KeepsRes z0 (execVmaxr e cx s) := by
  unfold execVmaxr
  with_reducible
    repeat' first
      | assumption | apply KeepsRes.next | apply State.vreduce_keeps | intro _ | split | dsimp -iota only | dsimp only

theorem execSealOpen_keeps {z0 : State} {e cx : Nat} {s : State} (hK : Keeps z0 s) :
    KeepsRes z0 (execSealOpen e cx s) := by
  unfold execSealOpen
  with_reducible
    repeat' first
      | assumption | apply KeepsRes.next | apply State.putCtx_keeps | apply State.takeTrap_keeps | apply Keeps.ite
      | intro _ | split | dsimp -iota only | dsimp only | ((fail_if_success apply Keeps.same); refine Keeps.mk ?_)

theorem execSealAdd_keeps {z0 : State} {e cx : Nat} {s : State} (hK : Keeps z0 s) :
    KeepsRes z0 (execSealAdd e cx s) := by
  unfold execSealAdd
  with_reducible
    repeat' first
      | assumption | apply KeepsRes.next | apply State.setCtx_keeps | apply State.putCtx_keeps
      | apply State.takeTrap_keeps | apply Keeps.ite | intro _ | split | dsimp -iota only | dsimp only
      | ((fail_if_success apply Keeps.same); refine Keeps.mk ?_)

theorem execSealCommit_keeps {z0 : State} {e cx : Nat} {s : State} (hK : Keeps z0 s) :
    KeepsRes z0 (execSealCommit e cx s) := by
  unfold execSealCommit
  with_reducible
    repeat' first
      | assumption | apply KeepsRes.next | apply Pass.store_keeps | apply State.accept_keeps
      | apply State.settle_keeps | apply State.putCtx_keeps | apply State.takeTrap_keeps | apply Keeps.ite | intro _
      | split | dsimp -iota only | dsimp only | ((fail_if_success apply Keeps.same); refine Keeps.mk ?_)

theorem State.pbar_keeps {z0 : State} {s : State} {e cx sub : Nat} {twin : Bool} (hK : Keeps z0 s) :
    Keeps z0 (State.pbar s e cx sub twin) := by
  unfold State.pbar
  with_reducible
    repeat' first
      | assumption | apply State.setCtx_keeps | apply State.takeTrap_keeps | apply Keeps.ite | intro _ | split
      | dsimp -iota only | dsimp only | ((fail_if_success apply Keeps.same); refine Keeps.mk ?_)

theorem execPbarLocal_keeps {z0 : State} {e cx : Nat} {s : State} (hK : Keeps z0 s) :
    KeepsRes z0 (execPbarLocal e cx s) := by
  unfold execPbarLocal
  with_reducible
    repeat' first
      | assumption | apply KeepsRes.next | apply State.pbar_keeps | intro _ | split | dsimp -iota only | dsimp only

theorem execPbarTwin_keeps {z0 : State} {e cx : Nat} {s : State} (hK : Keeps z0 s) :
    KeepsRes z0 (execPbarTwin e cx s) := by
  unfold execPbarTwin
  with_reducible
    repeat' first
      | assumption | apply KeepsRes.next | apply State.pbar_keeps | intro _ | split | dsimp -iota only | dsimp only

theorem State.startDma_keeps {z0 : State} {s : State} {e cx : Nat} {c : Ctx} {err : DmaErr} {j : DmaJob} (hK : Keeps z0 s) :
    Keeps z0 (State.startDma s e cx c err j) := by
  unfold State.startDma
  with_reducible
    repeat' first
      | assumption | apply State.raiseD_keeps | apply State.settle_keeps | apply State.putCtx_keeps
      | apply State.endByEvent_keeps | apply State.dmaAdvance_keeps | apply Keeps.ite | intro _ | split
      | dsimp -iota only | dsimp only | ((fail_if_success apply Keeps.same); refine Keeps.mk ?_)

theorem execCopy_keeps {z0 : State} {e cx : Nat} {err : DmaErr} {s : State} (hK : Keeps z0 s) :
    KeepsRes z0 (execCopy e cx err s) := by
  unfold execCopy
  with_reducible
    repeat' first
      | assumption | apply KeepsRes.next | apply State.takeTrap_keeps | apply State.startDma_keeps | apply Keeps.ite
      | intro _ | split | dsimp -iota only | dsimp only

theorem execCopyL_keeps {z0 : State} {e cx : Nat} {err : DmaErr} {s : State} (hK : Keeps z0 s) :
    KeepsRes z0 (execCopyL e cx err s) := by
  unfold execCopyL
  with_reducible
    repeat' first
      | assumption | apply KeepsRes.next | apply State.setCtx_keeps | apply State.takeTrap_keeps
      | apply State.startDma_keeps | apply Keeps.ite | intro _ | split | dsimp -iota only | dsimp only

theorem execCrc_keeps {z0 : State} {e cx : Nat} {err : DmaErr} {s : State} (hK : Keeps z0 s) :
    KeepsRes z0 (execCrc e cx err s) := by
  unfold execCrc
  with_reducible
    repeat' first
      | assumption | apply KeepsRes.next | apply State.setCtx_keeps | apply State.takeTrap_keeps
      | apply State.startDma_keeps | apply Keeps.ite | intro _ | split | dsimp -iota only | dsimp only

theorem execProbe_keeps {z0 : State} {e cx : Nat} {ue : Bool} {s : State} (hK : Keeps z0 s) :
    KeepsRes z0 (execProbe e cx ue s) := by
  unfold execProbe
  with_reducible
    repeat' first
      | assumption | apply KeepsRes.next | apply State.take_keeps | apply State.settle_keeps
      | apply State.setCtx_keeps | apply State.drop_keeps | apply State.takeTrap_keeps | apply State.dpaLoad_keeps
      | apply Keeps.ite | intro _ | split | dsimp -iota only | dsimp only

theorem State.cueOp_keeps {z0 : State} {s : State} {e cx func : Nat} (hK : Keeps z0 s) :
    Keeps z0 (State.cueOp s e cx func) := by
  unfold State.cueOp
  with_reducible
    repeat' first
      | assumption | apply State.moveCursor_keeps | apply State.settle_keeps | apply State.setCtx_keeps
      | apply State.takeTrap_keeps | apply Keeps.ite | intro _ | split | dsimp -iota only | dsimp only

theorem execCue_keeps {z0 : State} {e cx : Nat} {s : State} (hK : Keeps z0 s) :
    KeepsRes z0 (execCue e cx s) := by
  unfold execCue
  with_reducible
    repeat' first
      | assumption | apply KeepsRes.next | apply State.cueOp_keeps | intro _ | split | dsimp -iota only | dsimp only

theorem execCueR_keeps {z0 : State} {e cx : Nat} {s : State} (hK : Keeps z0 s) :
    KeepsRes z0 (execCueR e cx s) := by
  unfold execCueR
  with_reducible
    repeat' first
      | assumption | apply KeepsRes.next | apply State.cueOp_keeps | intro _ | split | dsimp -iota only | dsimp only

theorem execWaitc_keeps {z0 : State} {e cx : Nat} {s : State} (hK : Keeps z0 s) :
    KeepsRes z0 (execWaitc e cx s) := by
  unfold execWaitc
  with_reducible
    repeat' first
      | assumption | apply KeepsRes.next | apply State.setCueRun_keeps | apply State.settle_keeps
      | apply State.setCtx_keeps | apply State.takeTrap_keeps | apply Keeps.ite | intro _ | split | dsimp -iota only
      | dsimp only | ((fail_if_success apply Keeps.same); refine Keeps.mk ?_)

theorem execNotify_keeps {z0 : State} {e cx : Nat} {s : State} (hK : Keeps z0 s) :
    KeepsRes z0 (execNotify e cx s) := by
  unfold execNotify
  with_reducible
    repeat' first
      | assumption | apply KeepsRes.next | apply State.setCtx_keeps | apply State.takeTrap_keeps | apply Keeps.ite
      | intro _ | split | dsimp -iota only | dsimp only | ((fail_if_success apply Keeps.same); refine Keeps.mk ?_)

theorem State.retireNotify_keeps {z0 : State} {s : State} {k : Nat} {c : Ctx} {rd v : Nat} (hK : Keeps z0 s) :
    Keeps z0 (State.retireNotify s k c rd v) := by
  unfold State.retireNotify
  with_reducible
    repeat' first
      | assumption | apply State.raise_keeps | apply State.postNote_keeps | apply State.setCtx_keeps | apply Keeps.ite
      | intro _ | split | dsimp -iota only | dsimp only | ((fail_if_success apply Keeps.same); refine Keeps.mk ?_)

theorem execBlockingRetire_keeps {z0 : State} {e cx : Nat} {s : State} (hK : Keeps z0 s) :
    KeepsRes z0 (execBlockingRetire e cx s) := by
  unfold execBlockingRetire
  with_reducible
    repeat' first
      | assumption | apply KeepsRes.next | apply State.settle_keeps | apply State.setCtx_keeps
      | apply State.putCtx_keeps | apply State.tryFinish_keeps | apply State.dmaAdvance_keeps | apply State.pbar_keeps
      | apply State.retireNotify_keeps | apply Keeps.ite | intro _ | split | dsimp -iota only | dsimp only
      | ((fail_if_success apply Keeps.same); refine Keeps.mk ?_)

end Sys2Proof.Machine
end

