-- ==== Sys2Proof/Laws/Payloads.lean ====
section
/-! SUPPORT. What a command's payload reads at an offset: little-endian numbers, and the payload of MAINT_SUBMIT. -/

set_option Elab.async false

namespace Sys2Proof.Machine

/-- A number that stands in a payload behind other bytes is read at its offset. -/
theorem leAt_mid (a c : List Byte) (n v : Nat) : leAt (a ++ leBytes n v ++ c) a.length n = v % 256 ^ n := by
  simp [leAt, leNat_leBytes]

/-- The payload of MAINT_SUBMIT has 16 bytes, and its fields read as they were put (R128). -/
theorem submitBytes_fields (q : Bool) (a t x y z : Nat) : (submitBytes q a t x y z).length = 16 ∧
    leAt (submitBytes q a t x y z) 0 1 = a % 256 ∧ leAt (submitBytes q a t x y z) 1 1 = b2n q ∧
    leAt (submitBytes q a t x y z) 2 2 = t % 65536 ∧ leAt (submitBytes q a t x y z) 4 4 = x % 2 ^ 32 ∧
    leAt (submitBytes q a t x y z) 8 4 = y % 2 ^ 32 ∧ leAt (submitBytes q a t x y z) 12 4 = z % 2 ^ 32 := by
  have A := fun b n v c => leAt_mid b c n v
  refine ⟨by simp [submitBytes], ?_, ?_, ?_, ?_, ?_, ?_⟩
  · simpa [submitBytes] using A [] 1 a (leBytes 1 (b2n q) ++ leBytes 2 t ++ leBytes 4 x ++ leBytes 4 y ++ leBytes 4 z)
  · have e : b2n q % 256 = b2n q := by cases q <;> rfl
    simpa [submitBytes, e] using A (leBytes 1 a) 1 (b2n q) (leBytes 2 t ++ leBytes 4 x ++ leBytes 4 y ++ leBytes 4 z)
  · simpa [submitBytes] using A (leBytes 1 a ++ leBytes 1 (b2n q)) 2 t (leBytes 4 x ++ leBytes 4 y ++ leBytes 4 z)
  · simpa [submitBytes] using A (leBytes 1 a ++ leBytes 1 (b2n q) ++ leBytes 2 t) 4 x (leBytes 4 y ++ leBytes 4 z)
  · simpa [submitBytes] using A (leBytes 1 a ++ leBytes 1 (b2n q) ++ leBytes 2 t ++ leBytes 4 x) 4 y (leBytes 4 z)
  · simpa [submitBytes] using A (leBytes 1 a ++ leBytes 1 (b2n q) ++ leBytes 2 t ++ leBytes 4 x ++ leBytes 4 y) 4 z []

end Sys2Proof.Machine
end

