-- ==== Sys2Proof/Laws/PerInstr.lean ====
section
/-! SUPPORT. One fact of every command as syntax: the check of operands admits a form of its row, and no table word spells it. -/

set_option Elab.async false

open Sys2Proof

/-- A row is admissible: some command of the row is well-formed, so that no check shuts the row out, and no word of the
table spells a command of it (log entry 5). -/
def Sys2Proof.Laws.Admissible.Statement (i : Sys2Proof.Instr) : Prop :=
  (∃ j : Sys2Proof.Instr, j.ctorIdx = i.ctorIdx ∧ j.wellFormed = true) ∧
    ∀ nbits w, Sys2Proof.decodeTableWord nbits w ≠ some i

theorem Sys2Proof.Laws.Admissible.powerOnReset (m : Mains) (delivered : List Host.Cell) :
    Statement (.powerOnReset m delivered) :=
  ⟨⟨.powerOnReset ⟨false, false, 0⟩ [], rfl, rfl⟩, nofun⟩

theorem Sys2Proof.Laws.Admissible.rootPllLock :
    Statement (.rootPllLock) :=
  ⟨⟨.rootPllLock, rfl, rfl⟩, nofun⟩

theorem Sys2Proof.Laws.Admissible.bootVerified (matched : List Nat) (signed : List Nat) (vout : List (Nat × Nat)) :
    Statement (.bootVerified matched signed vout) :=
  ⟨⟨.bootVerified [] [] [], rfl, rfl⟩, nofun⟩

theorem Sys2Proof.Laws.Admissible.configSetLoad :
    Statement (.configSetLoad) :=
  ⟨⟨.configSetLoad, rfl, rfl⟩, nofun⟩

theorem Sys2Proof.Laws.Admissible.powerOnRehearsal (r : Rehearsed) :
    Statement (.powerOnRehearsal r) :=
  ⟨⟨.powerOnRehearsal ⟨[], [], [], [], [], [], [], [], [], [], [], [], []⟩, rfl, rfl⟩, nofun⟩

theorem Sys2Proof.Laws.Admissible.railStartFail :
    Statement (.railStartFail) :=
  ⟨⟨.railStartFail, rfl, rfl⟩, nofun⟩

theorem Sys2Proof.Laws.Admissible.refclkLost :
    Statement (.refclkLost) :=
  ⟨⟨.refclkLost, rfl, rfl⟩, nofun⟩

theorem Sys2Proof.Laws.Admissible.pllUnlock :
    Statement (.pllUnlock) :=
  ⟨⟨.pllUnlock, rfl, rfl⟩, nofun⟩

theorem Sys2Proof.Laws.Admissible.clkHoldoverFail :
    Statement (.clkHoldoverFail) :=
  ⟨⟨.clkHoldoverFail, rfl, rfl⟩, nofun⟩

theorem Sys2Proof.Laws.Admissible.refclkRestored :
    Statement (.refclkRestored) :=
  ⟨⟨.refclkRestored, rfl, rfl⟩, nofun⟩

theorem Sys2Proof.Laws.Admissible.sysResetN :
    Statement (.sysResetN) :=
  ⟨⟨.sysResetN, rfl, rfl⟩, nofun⟩

theorem Sys2Proof.Laws.Admissible.sysResetNRelease :
    Statement (.sysResetNRelease) :=
  ⟨⟨.sysResetNRelease, rfl, rfl⟩, nofun⟩

theorem Sys2Proof.Laws.Admissible.perstN (link : Nat) (low : Bool) :
    Statement (.perstN link low) :=
  ⟨⟨.perstN 0 false, rfl, rfl⟩, nofun⟩

theorem Sys2Proof.Laws.Admissible.cxlReset (link : Nat) :
    Statement (.cxlReset link) :=
  ⟨⟨.cxlReset 0, rfl, rfl⟩, nofun⟩

theorem Sys2Proof.Laws.Admissible.secFault :
    Statement (.secFault) :=
  ⟨⟨.secFault, rfl, rfl⟩, nofun⟩

theorem Sys2Proof.Laws.Admissible.sceneReq (value : Nat) :
    Statement (.sceneReq value) :=
  ⟨⟨.sceneReq 0, rfl, rfl⟩, nofun⟩

theorem Sys2Proof.Laws.Admissible.sceneBoundary :
    Statement (.sceneBoundary) :=
  ⟨⟨.sceneBoundary, rfl, rfl⟩, nofun⟩

theorem Sys2Proof.Laws.Admissible.ctlUnmapped (off : Nat) (write : Bool) :
    Statement (.ctlUnmapped off write) :=
  ⟨⟨.ctlUnmapped 0 false, rfl, rfl⟩, nofun⟩

theorem Sys2Proof.Laws.Admissible.registerWrite (off : Nat) (value : Nat) :
    Statement (.registerWrite off value) :=
  ⟨⟨.registerWrite 0 0, rfl, rfl⟩, nofun⟩

theorem Sys2Proof.Laws.Admissible.linkUp (link : Nat) (width : Nat) (speed : Nat) (flitLo : Bool) (cxl : Bool) :
    Statement (.linkUp link width speed flitLo cxl) :=
  ⟨⟨.linkUp 0 0 0 false false, rfl, rfl⟩, nofun⟩

theorem Sys2Proof.Laws.Admissible.linkDown (link : Nat) :
    Statement (.linkDown link) :=
  ⟨⟨.linkDown 0, rfl, rfl⟩, nofun⟩

theorem Sys2Proof.Laws.Admissible.hostLoad (link : Nat) (key : Nat) (hpa : Nat) (tag : Nat) (own : Bool) (err : PathErr) :
    Statement (.hostLoad link key hpa tag own err) :=
  ⟨⟨.hostLoad 0 0 0 0 false .none, rfl, rfl⟩, nofun⟩

theorem Sys2Proof.Laws.Admissible.hostStore (link : Nat) (key : Nat) (hpa : Nat) (tag : Nat) (mask : Nat) (data : Line) (err : PathErr) :
    Statement (.hostStore link key hpa tag mask data err) :=
  ⟨⟨.hostStore 0 0 0 0 0 0 .none, rfl, rfl⟩, nofun⟩

theorem Sys2Proof.Laws.Admissible.birsp (link : Nat) (key : Nat) (line : Nat) :
    Statement (.birsp link key line) :=
  ⟨⟨.birsp 0 0 0, rfl, rfl⟩, nofun⟩

theorem Sys2Proof.Laws.Admissible.biSlow :
    Statement (.biSlow) :=
  ⟨⟨.biSlow, rfl, rfl⟩, nofun⟩

theorem Sys2Proof.Laws.Admissible.ideIntegrityFail (link : Nat) :
    Statement (.ideIntegrityFail link) :=
  ⟨⟨.ideIntegrityFail 0, rfl, rfl⟩, nofun⟩

theorem Sys2Proof.Laws.Admissible.keyProg (link : Nat) (busy : Bool) :
    Statement (.keyProg link busy) :=
  ⟨⟨.keyProg 0 false, rfl, rfl⟩, nofun⟩

theorem Sys2Proof.Laws.Admissible.doeRequest (link : Nat) (protocol : Nat) (done : Bool) :
    Statement (.doeRequest link protocol done) :=
  ⟨⟨.doeRequest 0 0 false, rfl, rfl⟩, nofun⟩

theorem Sys2Proof.Laws.Admissible.hdmCommit (dev : Nat) (index : Nat) (base : Nat) (size : Nat) (skip : Nat) (ways : Nat) (granularity : Nat) (lock : Bool) :
    Statement (.hdmCommit dev index base size skip ways granularity lock) :=
  ⟨⟨.hdmCommit 0 0 0 0 0 0 0 false, rfl, rfl⟩, nofun⟩

theorem Sys2Proof.Laws.Admissible.hdmUncommit (dev : Nat) (index : Nat) :
    Statement (.hdmUncommit dev index) :=
  ⟨⟨.hdmUncommit 0 0, rfl, rfl⟩, nofun⟩

theorem Sys2Proof.Laws.Admissible.addCapacity (dev : Nat) (base : Nat) (limit : Nat) (rights : Nat) :
    Statement (.addCapacity dev base limit rights) :=
  ⟨⟨.addCapacity 0 0 0 0, rfl, rfl⟩, nofun⟩

theorem Sys2Proof.Laws.Admissible.releaseCapacity (dev : Nat) (base : Nat) (limit : Nat) :
    Statement (.releaseCapacity dev base limit) :=
  ⟨⟨.releaseCapacity 0 0 0, rfl, rfl⟩, nofun⟩

theorem Sys2Proof.Laws.Admissible.gpfPhase1 (link : Nat) :
    Statement (.gpfPhase1 link) :=
  ⟨⟨.gpfPhase1 0, rfl, rfl⟩, nofun⟩

theorem Sys2Proof.Laws.Admissible.gpfPhase2 (link : Nat) :
    Statement (.gpfPhase2 link) :=
  ⟨⟨.gpfPhase2 0, rfl, rfl⟩, nofun⟩

theorem Sys2Proof.Laws.Admissible.identifyMemoryDevice (mb : Nat) (input : List Byte) :
    Statement (.identifyMemoryDevice mb input) :=
  ⟨⟨.identifyMemoryDevice 0 [], rfl, rfl⟩, nofun⟩

theorem Sys2Proof.Laws.Admissible.getHealthInfo (mb : Nat) (input : List Byte) :
    Statement (.getHealthInfo mb input) :=
  ⟨⟨.getHealthInfo 0 [], rfl, rfl⟩, nofun⟩

theorem Sys2Proof.Laws.Admissible.getTimestamp (mb : Nat) (input : List Byte) :
    Statement (.getTimestamp mb input) :=
  ⟨⟨.getTimestamp 0 [], rfl, rfl⟩, nofun⟩

theorem Sys2Proof.Laws.Admissible.setTimestamp (mb : Nat) (input : List Byte) :
    Statement (.setTimestamp mb input) :=
  ⟨⟨.setTimestamp 0 [], rfl, rfl⟩, nofun⟩

theorem Sys2Proof.Laws.Admissible.getSupportedLogs (mb : Nat) (input : List Byte) :
    Statement (.getSupportedLogs mb input) :=
  ⟨⟨.getSupportedLogs 0 [], rfl, rfl⟩, nofun⟩

theorem Sys2Proof.Laws.Admissible.getLog (mb : Nat) (input : List Byte) :
    Statement (.getLog mb input) :=
  ⟨⟨.getLog 0 [], rfl, rfl⟩, nofun⟩

theorem Sys2Proof.Laws.Admissible.getEventRecords (mb : Nat) (input : List Byte) :
    Statement (.getEventRecords mb input) :=
  ⟨⟨.getEventRecords 0 [], rfl, rfl⟩, nofun⟩

theorem Sys2Proof.Laws.Admissible.clearEventRecords (mb : Nat) (input : List Byte) :
    Statement (.clearEventRecords mb input) :=
  ⟨⟨.clearEventRecords 0 [], rfl, rfl⟩, nofun⟩

theorem Sys2Proof.Laws.Admissible.getEventInterruptPolicy (mb : Nat) (input : List Byte) :
    Statement (.getEventInterruptPolicy mb input) :=
  ⟨⟨.getEventInterruptPolicy 0 [], rfl, rfl⟩, nofun⟩

theorem Sys2Proof.Laws.Admissible.setEventInterruptPolicy (mb : Nat) (input : List Byte) :
    Statement (.setEventInterruptPolicy mb input) :=
  ⟨⟨.setEventInterruptPolicy 0 [], rfl, rfl⟩, nofun⟩

theorem Sys2Proof.Laws.Admissible.getAlertConfiguration (mb : Nat) (input : List Byte) :
    Statement (.getAlertConfiguration mb input) :=
  ⟨⟨.getAlertConfiguration 0 [], rfl, rfl⟩, nofun⟩

theorem Sys2Proof.Laws.Admissible.setAlertConfiguration (mb : Nat) (input : List Byte) :
    Statement (.setAlertConfiguration mb input) :=
  ⟨⟨.setAlertConfiguration 0 [], rfl, rfl⟩, nofun⟩

theorem Sys2Proof.Laws.Admissible.getPartitionInfo (mb : Nat) (input : List Byte) :
    Statement (.getPartitionInfo mb input) :=
  ⟨⟨.getPartitionInfo 0 [], rfl, rfl⟩, nofun⟩

theorem Sys2Proof.Laws.Admissible.getLsa (mb : Nat) (input : List Byte) :
    Statement (.getLsa mb input) :=
  ⟨⟨.getLsa 0 [], rfl, rfl⟩, nofun⟩

theorem Sys2Proof.Laws.Admissible.setLsa (mb : Nat) (input : List Byte) :
    Statement (.setLsa mb input) :=
  ⟨⟨.setLsa 0 [], rfl, rfl⟩, nofun⟩

theorem Sys2Proof.Laws.Admissible.getPoisonList (mb : Nat) (input : List Byte) :
    Statement (.getPoisonList mb input) :=
  ⟨⟨.getPoisonList 0 [], rfl, rfl⟩, nofun⟩

theorem Sys2Proof.Laws.Admissible.getFwInfo (mb : Nat) (input : List Byte) :
    Statement (.getFwInfo mb input) :=
  ⟨⟨.getFwInfo 0 [], rfl, rfl⟩, nofun⟩

theorem Sys2Proof.Laws.Admissible.transferFw (mb : Nat) (input : List Byte) :
    Statement (.transferFw mb input) :=
  ⟨⟨.transferFw 0 [], rfl, rfl⟩, nofun⟩

theorem Sys2Proof.Laws.Admissible.activateFw (mb : Nat) (input : List Byte) (signed : Bool) :
    Statement (.activateFw mb input signed) :=
  ⟨⟨.activateFw 0 [] false, rfl, rfl⟩, nofun⟩

theorem Sys2Proof.Laws.Admissible.mailboxUnsupported (mb : Nat) (opcode : Nat) :
    Statement (.mailboxUnsupported mb opcode) :=
  ⟨⟨.mailboxUnsupported 0 0, rfl, rfl⟩, nofun⟩

theorem Sys2Proof.Laws.Admissible.getDeviceInfo (mb : Nat) (input : List Byte) :
    Statement (.getDeviceInfo mb input) :=
  ⟨⟨.getDeviceInfo 0 [], rfl, rfl⟩, nofun⟩

theorem Sys2Proof.Laws.Admissible.getEpoch (mb : Nat) (input : List Byte) :
    Statement (.getEpoch mb input) :=
  ⟨⟨.getEpoch 0 [], rfl, rfl⟩, nofun⟩

theorem Sys2Proof.Laws.Admissible.deviceReset (mb : Nat) (input : List Byte) :
    Statement (.deviceReset mb input) :=
  ⟨⟨.deviceReset 0 [], rfl, rfl⟩, nofun⟩

theorem Sys2Proof.Laws.Admissible.ldReset (mb : Nat) (input : List Byte) :
    Statement (.ldReset mb input) :=
  ⟨⟨.ldReset 0 [], rfl, rfl⟩, nofun⟩

theorem Sys2Proof.Laws.Admissible.regionRead (mb : Nat) (input : List Byte) :
    Statement (.regionRead mb input) :=
  ⟨⟨.regionRead 0 [], rfl, rfl⟩, nofun⟩

theorem Sys2Proof.Laws.Admissible.regionWrite (mb : Nat) (input : List Byte) :
    Statement (.regionWrite mb input) :=
  ⟨⟨.regionWrite 0 [], rfl, rfl⟩, nofun⟩

theorem Sys2Proof.Laws.Admissible.accessStage (mb : Nat) (input : List Byte) :
    Statement (.accessStage mb input) :=
  ⟨⟨.accessStage 0 [], rfl, rfl⟩, nofun⟩

theorem Sys2Proof.Laws.Admissible.accessCommit (mb : Nat) (input : List Byte) :
    Statement (.accessCommit mb input) :=
  ⟨⟨.accessCommit 0 [], rfl, rfl⟩, nofun⟩

theorem Sys2Proof.Laws.Admissible.accCommit (value : Nat) :
    Statement (.accCommit value) :=
  ⟨⟨.accCommit 0, rfl, rfl⟩, nofun⟩

theorem Sys2Proof.Laws.Admissible.commitEdge :
    Statement (.commitEdge) :=
  ⟨⟨.commitEdge, rfl, rfl⟩, nofun⟩

theorem Sys2Proof.Laws.Admissible.persistBarrier (mb : Nat) (input : List Byte) :
    Statement (.persistBarrier mb input) :=
  ⟨⟨.persistBarrier 0 [], rfl, rfl⟩, nofun⟩

theorem Sys2Proof.Laws.Admissible.inkRead (mb : Nat) (input : List Byte) :
    Statement (.inkRead mb input) :=
  ⟨⟨.inkRead 0 [], rfl, rfl⟩, nofun⟩

theorem Sys2Proof.Laws.Admissible.inkLimitSet (mb : Nat) (input : List Byte) :
    Statement (.inkLimitSet mb input) :=
  ⟨⟨.inkLimitSet 0 [], rfl, rfl⟩, nofun⟩

theorem Sys2Proof.Laws.Admissible.inkLimitWrite (value : Nat) :
    Statement (.inkLimitWrite value) :=
  ⟨⟨.inkLimitWrite 0, rfl, rfl⟩, nofun⟩

theorem Sys2Proof.Laws.Admissible.sceneSet (mb : Nat) (input : List Byte) :
    Statement (.sceneSet mb input) :=
  ⟨⟨.sceneSet 0 [], rfl, rfl⟩, nofun⟩

theorem Sys2Proof.Laws.Admissible.maintStatus (mb : Nat) (input : List Byte) :
    Statement (.maintStatus mb input) :=
  ⟨⟨.maintStatus 0 [], rfl, rfl⟩, nofun⟩

theorem Sys2Proof.Laws.Admissible.maintCancel (mb : Nat) (input : List Byte) :
    Statement (.maintCancel mb input) :=
  ⟨⟨.maintCancel 0 [], rfl, rfl⟩, nofun⟩

theorem Sys2Proof.Laws.Admissible.prepareRemoval (mb : Nat) (input : List Byte) :
    Statement (.prepareRemoval mb input) :=
  ⟨⟨.prepareRemoval 0 [], rfl, rfl⟩, nofun⟩

theorem Sys2Proof.Laws.Admissible.slotPowerOn (mb : Nat) (input : List Byte) :
    Statement (.slotPowerOn mb input) :=
  ⟨⟨.slotPowerOn 0 [], rfl, rfl⟩, nofun⟩

theorem Sys2Proof.Laws.Admissible.ledLocate (mb : Nat) (input : List Byte) :
    Statement (.ledLocate mb input) :=
  ⟨⟨.ledLocate 0 [], rfl, rfl⟩, nofun⟩

theorem Sys2Proof.Laws.Admissible.freezeSnapshot (mb : Nat) (input : List Byte) :
    Statement (.freezeSnapshot mb input) :=
  ⟨⟨.freezeSnapshot 0 [], rfl, rfl⟩, nofun⟩

theorem Sys2Proof.Laws.Admissible.freezeRelease (mb : Nat) (input : List Byte) (pass : Bool) (words : List Nat) :
    Statement (.freezeRelease mb input pass words) :=
  ⟨⟨.freezeRelease 0 [] false [], rfl, rfl⟩, nofun⟩

theorem Sys2Proof.Laws.Admissible.freezeSnapRead (c : Nat) :
    Statement (.freezeSnapRead c) :=
  ⟨⟨.freezeSnapRead 0, rfl, rfl⟩, nofun⟩

theorem Sys2Proof.Laws.Admissible.pbookRead (mb : Nat) (input : List Byte) :
    Statement (.pbookRead mb input) :=
  ⟨⟨.pbookRead 0 [], rfl, rfl⟩, nofun⟩

theorem Sys2Proof.Laws.Admissible.pbookAck (mb : Nat) (input : List Byte) :
    Statement (.pbookAck mb input) :=
  ⟨⟨.pbookAck 0 [], rfl, rfl⟩, nofun⟩

theorem Sys2Proof.Laws.Admissible.tallyRead (mb : Nat) (input : List Byte) :
    Statement (.tallyRead mb input) :=
  ⟨⟨.tallyRead 0 [], rfl, rfl⟩, nofun⟩

theorem Sys2Proof.Laws.Admissible.energyRead (mb : Nat) (input : List Byte) :
    Statement (.energyRead mb input) :=
  ⟨⟨.energyRead 0 [], rfl, rfl⟩, nofun⟩

theorem Sys2Proof.Laws.Admissible.powerCapSet (mb : Nat) (input : List Byte) :
    Statement (.powerCapSet mb input) :=
  ⟨⟨.powerCapSet 0 [], rfl, rfl⟩, nofun⟩

theorem Sys2Proof.Laws.Admissible.sentPcap (value : Nat) :
    Statement (.sentPcap value) :=
  ⟨⟨.sentPcap 0, rfl, rfl⟩, nofun⟩

theorem Sys2Proof.Laws.Admissible.keyLoad (mb : Nat) (input : List Byte) (good : Bool) :
    Statement (.keyLoad mb input good) :=
  ⟨⟨.keyLoad 0 [] false, rfl, rfl⟩, nofun⟩

theorem Sys2Proof.Laws.Admissible.keyLoaded (slot : Nat) :
    Statement (.keyLoaded slot) :=
  ⟨⟨.keyLoaded 0, rfl, rfl⟩, nofun⟩

theorem Sys2Proof.Laws.Admissible.keyStatus (mb : Nat) (input : List Byte) :
    Statement (.keyStatus mb input) :=
  ⟨⟨.keyStatus 0 [], rfl, rfl⟩, nofun⟩

theorem Sys2Proof.Laws.Admissible.rehearsalRun (mb : Nat) (input : List Byte) (fail : Nat) :
    Statement (.rehearsalRun mb input fail) :=
  ⟨⟨.rehearsalRun 0 [] 0, rfl, rfl⟩, nofun⟩

theorem Sys2Proof.Laws.Admissible.twinStatus (mb : Nat) (input : List Byte) :
    Statement (.twinStatus mb input) :=
  ⟨⟨.twinStatus 0 [], rfl, rfl⟩, nofun⟩

theorem Sys2Proof.Laws.Admissible.queueCreate (mb : Nat) (input : List Byte) :
    Statement (.queueCreate mb input) :=
  ⟨⟨.queueCreate 0 [], rfl, rfl⟩, nofun⟩

theorem Sys2Proof.Laws.Admissible.queueDelete (mb : Nat) (input : List Byte) :
    Statement (.queueDelete mb input) :=
  ⟨⟨.queueDelete 0 [], rfl, rfl⟩, nofun⟩

theorem Sys2Proof.Laws.Admissible.scriptLoad (mb : Nat) (input : List Byte) :
    Statement (.scriptLoad mb input) :=
  ⟨⟨.scriptLoad 0 [], rfl, rfl⟩, nofun⟩

theorem Sys2Proof.Laws.Admissible.scriptUnload (mb : Nat) (input : List Byte) :
    Statement (.scriptUnload mb input) :=
  ⟨⟨.scriptUnload 0 [], rfl, rfl⟩, nofun⟩

theorem Sys2Proof.Laws.Admissible.eventRoute (mb : Nat) (input : List Byte) :
    Statement (.eventRoute mb input) :=
  ⟨⟨.eventRoute 0 [], rfl, rfl⟩, nofun⟩

theorem Sys2Proof.Laws.Admissible.classStarved (cls : Nat) (stage : Nat) :
    Statement (.classStarved cls stage) :=
  ⟨⟨.classStarved 0 0, rfl, rfl⟩, nofun⟩

theorem Sys2Proof.Laws.Admissible.boundedGateClosed :
    Statement (.boundedGateClosed) :=
  ⟨⟨.boundedGateClosed, rfl, rfl⟩, nofun⟩

theorem Sys2Proof.Laws.Admissible.holdPoison :
    Statement (.holdPoison) :=
  ⟨⟨.holdPoison, rfl, rfl⟩, nofun⟩

theorem Sys2Proof.Laws.Admissible.stallBoundPoison :
    Statement (.stallBoundPoison) :=
  ⟨⟨.stallBoundPoison, rfl, rfl⟩, nofun⟩

theorem Sys2Proof.Laws.Admissible.secondCopyBuilt (f : Nat) :
    Statement (.secondCopyBuilt f) :=
  ⟨⟨.secondCopyBuilt 0, rfl, rfl⟩, nofun⟩

theorem Sys2Proof.Laws.Admissible.clean :
    Statement (.clean) :=
  ⟨⟨.clean, rfl, rfl⟩, nofun⟩

theorem Sys2Proof.Laws.Admissible.invalidate :
    Statement (.invalidate) :=
  ⟨⟨.invalidate, rfl, rfl⟩, nofun⟩

theorem Sys2Proof.Laws.Admissible.flush :
    Statement (.flush) :=
  ⟨⟨.flush, rfl, rfl⟩, nofun⟩

theorem Sys2Proof.Laws.Admissible.cleanSet (slice : Nat) (set : Nat) :
    Statement (.cleanSet slice set) :=
  ⟨⟨.cleanSet 0 0, rfl, rfl⟩, nofun⟩

theorem Sys2Proof.Laws.Admissible.invalidateSet (slice : Nat) (set : Nat) :
    Statement (.invalidateSet slice set) :=
  ⟨⟨.invalidateSet 0 0, rfl, rfl⟩, nofun⟩

theorem Sys2Proof.Laws.Admissible.flushSet (slice : Nat) (set : Nat) :
    Statement (.flushSet slice set) :=
  ⟨⟨.flushSet 0 0, rfl, rfl⟩, nofun⟩

theorem Sys2Proof.Laws.Admissible.cleanAll :
    Statement (.cleanAll) :=
  ⟨⟨.cleanAll, rfl, rfl⟩, nofun⟩

theorem Sys2Proof.Laws.Admissible.invalidateAll :
    Statement (.invalidateAll) :=
  ⟨⟨.invalidateAll, rfl, rfl⟩, nofun⟩

theorem Sys2Proof.Laws.Admissible.flushAll :
    Statement (.flushAll) :=
  ⟨⟨.flushAll, rfl, rfl⟩, nofun⟩

theorem Sys2Proof.Laws.Admissible.disable :
    Statement (.disable) :=
  ⟨⟨.disable, rfl, rfl⟩, nofun⟩

theorem Sys2Proof.Laws.Admissible.enable :
    Statement (.enable) :=
  ⟨⟨.enable, rfl, rfl⟩, nofun⟩

theorem Sys2Proof.Laws.Admissible.wayDisable (slice : Nat) (way : Nat) :
    Statement (.wayDisable slice way) :=
  ⟨⟨.wayDisable 0 0, rfl, rfl⟩, nofun⟩

theorem Sys2Proof.Laws.Admissible.wayEnable (slice : Nat) (way : Nat) :
    Statement (.wayEnable slice way) :=
  ⟨⟨.wayEnable 0 0, rfl, rfl⟩, nofun⟩

theorem Sys2Proof.Laws.Admissible.scacheMaintDone :
    Statement (.scacheMaintDone) :=
  ⟨⟨.scacheMaintDone, rfl, rfl⟩, nofun⟩

theorem Sys2Proof.Laws.Admissible.retrainPause (c : Nat) (temp : Nat) (owed : Nat) :
    Statement (.retrainPause c temp owed) :=
  ⟨⟨.retrainPause 0 0 0, rfl, rfl⟩, nofun⟩

theorem Sys2Proof.Laws.Admissible.retrainLate (c : Nat) :
    Statement (.retrainLate c) :=
  ⟨⟨.retrainLate 0, rfl, rfl⟩, nofun⟩

theorem Sys2Proof.Laws.Admissible.refresh (c : Nat) (busy : Bool) :
    Statement (.refresh c busy) :=
  ⟨⟨.refresh 0 false, rfl, rfl⟩, nofun⟩

theorem Sys2Proof.Laws.Admissible.makeUpBurst (c : Nat) (empty : Bool) :
    Statement (.makeUpBurst c empty) :=
  ⟨⟨.makeUpBurst 0 false, rfl, rfl⟩, nofun⟩

theorem Sys2Proof.Laws.Admissible.mergeEntryWrite (line : Nat) :
    Statement (.mergeEntryWrite line) :=
  ⟨⟨.mergeEntryWrite 0, rfl, rfl⟩, nofun⟩

theorem Sys2Proof.Laws.Admissible.selfRefreshEntry (c : Nat) :
    Statement (.selfRefreshEntry c) :=
  ⟨⟨.selfRefreshEntry 0, rfl, rfl⟩, nofun⟩

theorem Sys2Proof.Laws.Admissible.patrolScrub (c : Nat) (frame : Nat) (line : Nat) (points : List Nat) (progress : Nat) (pass : Bool) (words : List Nat) :
    Statement (.patrolScrub c frame line points progress pass words) :=
  ⟨⟨.patrolScrub 0 0 0 (List.replicate 8 10) 0 false [], rfl, rfl⟩, nofun⟩

theorem Sys2Proof.Laws.Admissible.dmcFrozen (c : Nat) (cause : Nat) (cls : Nat) (dpa : Option Nat) (words : List Nat) :
    Statement (.dmcFrozen c cause cls dpa words) :=
  ⟨⟨.dmcFrozen 0 0 0 none [], rfl, rfl⟩, nofun⟩

theorem Sys2Proof.Laws.Admissible.leafReadDone (folio : Nat) (cls : Nat) (out : ReadEnd) (recon : ReadEnd) (fixed : Nat) (suspended : Bool) :
    Statement (.leafReadDone folio cls out recon fixed suspended) :=
  ⟨⟨.leafReadDone 0 0 .good .good 0 false, rfl, rfl⟩, nofun⟩

theorem Sys2Proof.Laws.Admissible.slowReadAbandon (folio : Nat) (cls : Nat) (recon : ReadEnd) :
    Statement (.slowReadAbandon folio cls recon) :=
  ⟨⟨.slowReadAbandon 0 0 .good, rfl, rfl⟩, nofun⟩

theorem Sys2Proof.Laws.Admissible.quireOpen (redo : List Nat) (halt : Bool) :
    Statement (.quireOpen redo halt) :=
  ⟨⟨.quireOpen [] false, rfl, rfl⟩, nofun⟩

theorem Sys2Proof.Laws.Admissible.leafProgramDone (what : Program) (ok : Bool) :
    Statement (.leafProgramDone what ok) :=
  ⟨⟨.leafProgramDone .log false, rfl, rfl⟩, nofun⟩

theorem Sys2Proof.Laws.Admissible.eraseDone (block : Nat) (ok : Bool) :
    Statement (.eraseDone block ok) :=
  ⟨⟨.eraseDone 0 false, rfl, rfl⟩, nofun⟩

theorem Sys2Proof.Laws.Admissible.journalFlush :
    Statement (.journalFlush) :=
  ⟨⟨.journalFlush, rfl, rfl⟩, nofun⟩

theorem Sys2Proof.Laws.Admissible.reclaim (room : Bool) :
    Statement (.reclaim room) :=
  ⟨⟨.reclaim false, rfl, rfl⟩, nofun⟩

theorem Sys2Proof.Laws.Admissible.cartFailed (slot : Nat) (cause : Nat) :
    Statement (.cartFailed slot cause) :=
  ⟨⟨.cartFailed 0 0, rfl, rfl⟩, nofun⟩

theorem Sys2Proof.Laws.Admissible.reshapeDelayExpiry :
    Statement (.reshapeDelayExpiry) :=
  ⟨⟨.reshapeDelayExpiry, rfl, rfl⟩, nofun⟩

theorem Sys2Proof.Laws.Admissible.cartPresent (slot : Nat) (dies : Nat) (cls : Nat) (serial : Nat) (mask : Nat) (recordGood : Bool) :
    Statement (.cartPresent slot dies cls serial mask recordGood) :=
  ⟨⟨.cartPresent 0 0 0 0 0 false, rfl, rfl⟩, nofun⟩

theorem Sys2Proof.Laws.Admissible.cartAdmitted (slot : Nat) :
    Statement (.cartAdmitted slot) :=
  ⟨⟨.cartAdmitted 0, rfl, rfl⟩, nofun⟩

theorem Sys2Proof.Laws.Admissible.slotPwrFail (slot : Nat) :
    Statement (.slotPwrFail slot) :=
  ⟨⟨.slotPwrFail 0, rfl, rfl⟩, nofun⟩

theorem Sys2Proof.Laws.Admissible.cartRemovable (slot : Nat) :
    Statement (.cartRemovable slot) :=
  ⟨⟨.cartRemovable 0, rfl, rfl⟩, nofun⟩

theorem Sys2Proof.Laws.Admissible.cartRemoved (slot : Nat) :
    Statement (.cartRemoved slot) :=
  ⟨⟨.cartRemoved 0, rfl, rfl⟩, nofun⟩

theorem Sys2Proof.Laws.Admissible.contextStart :
    Statement (.contextStart) :=
  ⟨⟨.contextStart, rfl, rfl⟩, nofun⟩

theorem Sys2Proof.Laws.Admissible.scribeFailed (e : Nat) :
    Statement (.scribeFailed e) :=
  ⟨⟨.scribeFailed 0, rfl, rfl⟩, nofun⟩

theorem Sys2Proof.Laws.Admissible.dpaOpResponse (e : Nat) (cx : Nat) :
    Statement (.dpaOpResponse e cx) :=
  ⟨⟨.dpaOpResponse 0 0, rfl, rfl⟩, nofun⟩

theorem Sys2Proof.Laws.Admissible.blockingRetire (e : Nat) (cx : Nat) :
    Statement (.blockingRetire e cx) :=
  ⟨⟨.blockingRetire 0 0, rfl, rfl⟩, nofun⟩

theorem Sys2Proof.Laws.Admissible.add (e : Nat) (cx : Nat) :
    Statement (.add e cx) :=
  ⟨⟨.add 0 0, rfl, rfl⟩, nofun⟩

theorem Sys2Proof.Laws.Admissible.sub (e : Nat) (cx : Nat) :
    Statement (.sub e cx) :=
  ⟨⟨.sub 0 0, rfl, rfl⟩, nofun⟩

theorem Sys2Proof.Laws.Admissible.neg (e : Nat) (cx : Nat) :
    Statement (.neg e cx) :=
  ⟨⟨.neg 0 0, rfl, rfl⟩, nofun⟩

theorem Sys2Proof.Laws.Admissible.and (e : Nat) (cx : Nat) :
    Statement (.and e cx) :=
  ⟨⟨.and 0 0, rfl, rfl⟩, nofun⟩

theorem Sys2Proof.Laws.Admissible.or (e : Nat) (cx : Nat) :
    Statement (.or e cx) :=
  ⟨⟨.or 0 0, rfl, rfl⟩, nofun⟩

theorem Sys2Proof.Laws.Admissible.xor (e : Nat) (cx : Nat) :
    Statement (.xor e cx) :=
  ⟨⟨.xor 0 0, rfl, rfl⟩, nofun⟩

theorem Sys2Proof.Laws.Admissible.andn (e : Nat) (cx : Nat) :
    Statement (.andn e cx) :=
  ⟨⟨.andn 0 0, rfl, rfl⟩, nofun⟩

theorem Sys2Proof.Laws.Admissible.orn (e : Nat) (cx : Nat) :
    Statement (.orn e cx) :=
  ⟨⟨.orn 0 0, rfl, rfl⟩, nofun⟩

theorem Sys2Proof.Laws.Admissible.shl (e : Nat) (cx : Nat) :
    Statement (.shl e cx) :=
  ⟨⟨.shl 0 0, rfl, rfl⟩, nofun⟩

theorem Sys2Proof.Laws.Admissible.shr (e : Nat) (cx : Nat) :
    Statement (.shr e cx) :=
  ⟨⟨.shr 0 0, rfl, rfl⟩, nofun⟩

theorem Sys2Proof.Laws.Admissible.sar (e : Nat) (cx : Nat) :
    Statement (.sar e cx) :=
  ⟨⟨.sar 0 0, rfl, rfl⟩, nofun⟩

theorem Sys2Proof.Laws.Admissible.ror (e : Nat) (cx : Nat) :
    Statement (.ror e cx) :=
  ⟨⟨.ror 0 0, rfl, rfl⟩, nofun⟩

theorem Sys2Proof.Laws.Admissible.cmpEq (e : Nat) (cx : Nat) :
    Statement (.cmpEq e cx) :=
  ⟨⟨.cmpEq 0 0, rfl, rfl⟩, nofun⟩

theorem Sys2Proof.Laws.Admissible.cmpNe (e : Nat) (cx : Nat) :
    Statement (.cmpNe e cx) :=
  ⟨⟨.cmpNe 0 0, rfl, rfl⟩, nofun⟩

theorem Sys2Proof.Laws.Admissible.cmpLt (e : Nat) (cx : Nat) :
    Statement (.cmpLt e cx) :=
  ⟨⟨.cmpLt 0 0, rfl, rfl⟩, nofun⟩

theorem Sys2Proof.Laws.Admissible.cmpLe (e : Nat) (cx : Nat) :
    Statement (.cmpLe e cx) :=
  ⟨⟨.cmpLe 0 0, rfl, rfl⟩, nofun⟩

theorem Sys2Proof.Laws.Admissible.cmpLtu (e : Nat) (cx : Nat) :
    Statement (.cmpLtu e cx) :=
  ⟨⟨.cmpLtu 0 0, rfl, rfl⟩, nofun⟩

theorem Sys2Proof.Laws.Admissible.cmpLeu (e : Nat) (cx : Nat) :
    Statement (.cmpLeu e cx) :=
  ⟨⟨.cmpLeu 0 0, rfl, rfl⟩, nofun⟩

theorem Sys2Proof.Laws.Admissible.min (e : Nat) (cx : Nat) :
    Statement (.min e cx) :=
  ⟨⟨.min 0 0, rfl, rfl⟩, nofun⟩

theorem Sys2Proof.Laws.Admissible.max (e : Nat) (cx : Nat) :
    Statement (.max e cx) :=
  ⟨⟨.max 0 0, rfl, rfl⟩, nofun⟩

theorem Sys2Proof.Laws.Admissible.minu (e : Nat) (cx : Nat) :
    Statement (.minu e cx) :=
  ⟨⟨.minu 0 0, rfl, rfl⟩, nofun⟩

theorem Sys2Proof.Laws.Admissible.maxu (e : Nat) (cx : Nat) :
    Statement (.maxu e cx) :=
  ⟨⟨.maxu 0 0, rfl, rfl⟩, nofun⟩

theorem Sys2Proof.Laws.Admissible.mul (e : Nat) (cx : Nat) :
    Statement (.mul e cx) :=
  ⟨⟨.mul 0 0, rfl, rfl⟩, nofun⟩

theorem Sys2Proof.Laws.Admissible.mulhiS (e : Nat) (cx : Nat) :
    Statement (.mulhiS e cx) :=
  ⟨⟨.mulhiS 0 0, rfl, rfl⟩, nofun⟩

theorem Sys2Proof.Laws.Admissible.mulhiU (e : Nat) (cx : Nat) :
    Statement (.mulhiU e cx) :=
  ⟨⟨.mulhiU 0 0, rfl, rfl⟩, nofun⟩

theorem Sys2Proof.Laws.Admissible.div (e : Nat) (cx : Nat) :
    Statement (.div e cx) :=
  ⟨⟨.div 0 0, rfl, rfl⟩, nofun⟩

theorem Sys2Proof.Laws.Admissible.divu (e : Nat) (cx : Nat) :
    Statement (.divu e cx) :=
  ⟨⟨.divu 0 0, rfl, rfl⟩, nofun⟩

theorem Sys2Proof.Laws.Admissible.rem (e : Nat) (cx : Nat) :
    Statement (.rem e cx) :=
  ⟨⟨.rem 0 0, rfl, rfl⟩, nofun⟩

theorem Sys2Proof.Laws.Admissible.remu (e : Nat) (cx : Nat) :
    Statement (.remu e cx) :=
  ⟨⟨.remu 0 0, rfl, rfl⟩, nofun⟩

theorem Sys2Proof.Laws.Admissible.lzc (e : Nat) (cx : Nat) :
    Statement (.lzc e cx) :=
  ⟨⟨.lzc 0 0, rfl, rfl⟩, nofun⟩

theorem Sys2Proof.Laws.Admissible.tzc (e : Nat) (cx : Nat) :
    Statement (.tzc e cx) :=
  ⟨⟨.tzc 0 0, rfl, rfl⟩, nofun⟩

theorem Sys2Proof.Laws.Admissible.ones (e : Nat) (cx : Nat) :
    Statement (.ones e cx) :=
  ⟨⟨.ones 0 0, rfl, rfl⟩, nofun⟩

theorem Sys2Proof.Laws.Admissible.revb (e : Nat) (cx : Nat) :
    Statement (.revb e cx) :=
  ⟨⟨.revb 0 0, rfl, rfl⟩, nofun⟩

theorem Sys2Proof.Laws.Admissible.addI (e : Nat) (cx : Nat) :
    Statement (.addI e cx) :=
  ⟨⟨.addI 0 0, rfl, rfl⟩, nofun⟩

theorem Sys2Proof.Laws.Admissible.andI (e : Nat) (cx : Nat) :
    Statement (.andI e cx) :=
  ⟨⟨.andI 0 0, rfl, rfl⟩, nofun⟩

theorem Sys2Proof.Laws.Admissible.orI (e : Nat) (cx : Nat) :
    Statement (.orI e cx) :=
  ⟨⟨.orI 0 0, rfl, rfl⟩, nofun⟩

theorem Sys2Proof.Laws.Admissible.xorI (e : Nat) (cx : Nat) :
    Statement (.xorI e cx) :=
  ⟨⟨.xorI 0 0, rfl, rfl⟩, nofun⟩

theorem Sys2Proof.Laws.Admissible.cmpEqI (e : Nat) (cx : Nat) :
    Statement (.cmpEqI e cx) :=
  ⟨⟨.cmpEqI 0 0, rfl, rfl⟩, nofun⟩

theorem Sys2Proof.Laws.Admissible.cmpLtI (e : Nat) (cx : Nat) :
    Statement (.cmpLtI e cx) :=
  ⟨⟨.cmpLtI 0 0, rfl, rfl⟩, nofun⟩

theorem Sys2Proof.Laws.Admissible.shlI (e : Nat) (cx : Nat) :
    Statement (.shlI e cx) :=
  ⟨⟨.shlI 0 0, rfl, rfl⟩, nofun⟩

theorem Sys2Proof.Laws.Admissible.shrI (e : Nat) (cx : Nat) :
    Statement (.shrI e cx) :=
  ⟨⟨.shrI 0 0, rfl, rfl⟩, nofun⟩

theorem Sys2Proof.Laws.Admissible.sarI (e : Nat) (cx : Nat) :
    Statement (.sarI e cx) :=
  ⟨⟨.sarI 0 0, rfl, rfl⟩, nofun⟩

theorem Sys2Proof.Laws.Admissible.high (e : Nat) (cx : Nat) :
    Statement (.high e cx) :=
  ⟨⟨.high 0 0, rfl, rfl⟩, nofun⟩

theorem Sys2Proof.Laws.Admissible.bz (e : Nat) (cx : Nat) :
    Statement (.bz e cx) :=
  ⟨⟨.bz 0 0, rfl, rfl⟩, nofun⟩

theorem Sys2Proof.Laws.Admissible.bnz (e : Nat) (cx : Nat) :
    Statement (.bnz e cx) :=
  ⟨⟨.bnz 0 0, rfl, rfl⟩, nofun⟩

theorem Sys2Proof.Laws.Admissible.bneg (e : Nat) (cx : Nat) :
    Statement (.bneg e cx) :=
  ⟨⟨.bneg 0 0, rfl, rfl⟩, nofun⟩

theorem Sys2Proof.Laws.Admissible.bnneg (e : Nat) (cx : Nat) :
    Statement (.bnneg e cx) :=
  ⟨⟨.bnneg 0 0, rfl, rfl⟩, nofun⟩

theorem Sys2Proof.Laws.Admissible.dbnz (e : Nat) (cx : Nat) :
    Statement (.dbnz e cx) :=
  ⟨⟨.dbnz 0 0, rfl, rfl⟩, nofun⟩

theorem Sys2Proof.Laws.Admissible.bpany (e : Nat) (cx : Nat) :
    Statement (.bpany e cx) :=
  ⟨⟨.bpany 0 0, rfl, rfl⟩, nofun⟩

theorem Sys2Proof.Laws.Admissible.call (e : Nat) (cx : Nat) :
    Statement (.call e cx) :=
  ⟨⟨.call 0 0, rfl, rfl⟩, nofun⟩

theorem Sys2Proof.Laws.Admissible.jump (e : Nat) (cx : Nat) :
    Statement (.jump e cx) :=
  ⟨⟨.jump 0 0, rfl, rfl⟩, nofun⟩

theorem Sys2Proof.Laws.Admissible.ld (e : Nat) (cx : Nat) (ue : Bool) :
    Statement (.ld e cx ue) :=
  ⟨⟨.ld 0 0 false, rfl, rfl⟩, nofun⟩

theorem Sys2Proof.Laws.Admissible.st (e : Nat) (cx : Nat) :
    Statement (.st e cx) :=
  ⟨⟨.st 0 0, rfl, rfl⟩, nofun⟩

theorem Sys2Proof.Laws.Admissible.cas (e : Nat) (cx : Nat) (ue : Bool) :
    Statement (.cas e cx ue) :=
  ⟨⟨.cas 0 0 false, rfl, rfl⟩, nofun⟩

theorem Sys2Proof.Laws.Admissible.fadd (e : Nat) (cx : Nat) (ue : Bool) :
    Statement (.fadd e cx ue) :=
  ⟨⟨.fadd 0 0 false, rfl, rfl⟩, nofun⟩

theorem Sys2Proof.Laws.Admissible.vld (e : Nat) (cx : Nat) (ue : Bool) :
    Statement (.vld e cx ue) :=
  ⟨⟨.vld 0 0 false, rfl, rfl⟩, nofun⟩

theorem Sys2Proof.Laws.Admissible.vldBc (e : Nat) (cx : Nat) (ue : Bool) :
    Statement (.vldBc e cx ue) :=
  ⟨⟨.vldBc 0 0 false, rfl, rfl⟩, nofun⟩

theorem Sys2Proof.Laws.Admissible.vst (e : Nat) (cx : Nat) :
    Statement (.vst e cx) :=
  ⟨⟨.vst 0 0, rfl, rfl⟩, nofun⟩

theorem Sys2Proof.Laws.Admissible.vcmp (e : Nat) (cx : Nat) :
    Statement (.vcmp e cx) :=
  ⟨⟨.vcmp 0 0, rfl, rfl⟩, nofun⟩

theorem Sys2Proof.Laws.Admissible.vsel (e : Nat) (cx : Nat) :
    Statement (.vsel e cx) :=
  ⟨⟨.vsel 0 0, rfl, rfl⟩, nofun⟩

theorem Sys2Proof.Laws.Admissible.vsum (e : Nat) (cx : Nat) :
    Statement (.vsum e cx) :=
  ⟨⟨.vsum 0 0, rfl, rfl⟩, nofun⟩

theorem Sys2Proof.Laws.Admissible.vmin (e : Nat) (cx : Nat) :
    Statement (.vmin e cx) :=
  ⟨⟨.vmin 0 0, rfl, rfl⟩, nofun⟩

theorem Sys2Proof.Laws.Admissible.vminr (e : Nat) (cx : Nat) :
    Statement (.vminr e cx) :=
  ⟨⟨.vminr 0 0, rfl, rfl⟩, nofun⟩

theorem Sys2Proof.Laws.Admissible.vmax (e : Nat) (cx : Nat) :
    Statement (.vmax e cx) :=
  ⟨⟨.vmax 0 0, rfl, rfl⟩, nofun⟩

theorem Sys2Proof.Laws.Admissible.vmaxr (e : Nat) (cx : Nat) :
    Statement (.vmaxr e cx) :=
  ⟨⟨.vmaxr 0 0, rfl, rfl⟩, nofun⟩

theorem Sys2Proof.Laws.Admissible.sealOpen (e : Nat) (cx : Nat) :
    Statement (.sealOpen e cx) :=
  ⟨⟨.sealOpen 0 0, rfl, rfl⟩, nofun⟩

theorem Sys2Proof.Laws.Admissible.sealAdd (e : Nat) (cx : Nat) :
    Statement (.sealAdd e cx) :=
  ⟨⟨.sealAdd 0 0, rfl, rfl⟩, nofun⟩

theorem Sys2Proof.Laws.Admissible.sealCommit (e : Nat) (cx : Nat) :
    Statement (.sealCommit e cx) :=
  ⟨⟨.sealCommit 0 0, rfl, rfl⟩, nofun⟩

theorem Sys2Proof.Laws.Admissible.pbarLocal (e : Nat) (cx : Nat) :
    Statement (.pbarLocal e cx) :=
  ⟨⟨.pbarLocal 0 0, rfl, rfl⟩, nofun⟩

theorem Sys2Proof.Laws.Admissible.pbarTwin (e : Nat) (cx : Nat) :
    Statement (.pbarTwin e cx) :=
  ⟨⟨.pbarTwin 0 0, rfl, rfl⟩, nofun⟩

theorem Sys2Proof.Laws.Admissible.copy (e : Nat) (cx : Nat) (err : DmaErr) :
    Statement (.copy e cx err) :=
  ⟨⟨.copy 0 0 .none, rfl, rfl⟩, nofun⟩

theorem Sys2Proof.Laws.Admissible.copyL (e : Nat) (cx : Nat) (err : DmaErr) :
    Statement (.copyL e cx err) :=
  ⟨⟨.copyL 0 0 .none, rfl, rfl⟩, nofun⟩

theorem Sys2Proof.Laws.Admissible.crc (e : Nat) (cx : Nat) (err : DmaErr) :
    Statement (.crc e cx err) :=
  ⟨⟨.crc 0 0 .none, rfl, rfl⟩, nofun⟩

theorem Sys2Proof.Laws.Admissible.hash (e : Nat) (cx : Nat) :
    Statement (.hash e cx) :=
  ⟨⟨.hash 0 0, rfl, rfl⟩, nofun⟩

theorem Sys2Proof.Laws.Admissible.probe (e : Nat) (cx : Nat) (ue : Bool) :
    Statement (.probe e cx ue) :=
  ⟨⟨.probe 0 0 false, rfl, rfl⟩, nofun⟩

theorem Sys2Proof.Laws.Admissible.cue (e : Nat) (cx : Nat) :
    Statement (.cue e cx) :=
  ⟨⟨.cue 0 0, rfl, rfl⟩, nofun⟩

theorem Sys2Proof.Laws.Admissible.cueR (e : Nat) (cx : Nat) :
    Statement (.cueR e cx) :=
  ⟨⟨.cueR 0 0, rfl, rfl⟩, nofun⟩

theorem Sys2Proof.Laws.Admissible.waitc (e : Nat) (cx : Nat) :
    Statement (.waitc e cx) :=
  ⟨⟨.waitc 0 0, rfl, rfl⟩, nofun⟩

theorem Sys2Proof.Laws.Admissible.notify (e : Nat) (cx : Nat) :
    Statement (.notify e cx) :=
  ⟨⟨.notify 0 0, rfl, rfl⟩, nofun⟩

theorem Sys2Proof.Laws.Admissible.yield (e : Nat) (cx : Nat) :
    Statement (.yield e cx) :=
  ⟨⟨.yield 0 0, rfl, rfl⟩, nofun⟩

theorem Sys2Proof.Laws.Admissible.halt (e : Nat) (cx : Nat) :
    Statement (.halt e cx) :=
  ⟨⟨.halt 0 0, rfl, rfl⟩, nofun⟩

theorem Sys2Proof.Laws.Admissible.trap (e : Nat) (cx : Nat) (fetchUe : Bool) :
    Statement (.trap e cx fetchUe) :=
  ⟨⟨.trap 0 0 false, rfl, rfl⟩, nofun⟩

theorem Sys2Proof.Laws.Admissible.rdsr (e : Nat) (cx : Nat) :
    Statement (.rdsr e cx) :=
  ⟨⟨.rdsr 0 0, rfl, rfl⟩, nofun⟩

theorem Sys2Proof.Laws.Admissible.wrsr (e : Nat) (cx : Nat) :
    Statement (.wrsr e cx) :=
  ⟨⟨.wrsr 0 0, rfl, rfl⟩, nofun⟩

theorem Sys2Proof.Laws.Admissible.submissionTail (ld : Nat) (value : Nat) :
    Statement (.submissionTail ld value) :=
  ⟨⟨.submissionTail 0 0, rfl, rfl⟩, nofun⟩

theorem Sys2Proof.Laws.Admissible.completionHead (ld : Nat) (value : Nat) :
    Statement (.completionHead ld value) :=
  ⟨⟨.completionHead 0 0, rfl, rfl⟩, nofun⟩

theorem Sys2Proof.Laws.Admissible.noteHead (ld : Nat) (value : Nat) :
    Statement (.noteHead ld value) :=
  ⟨⟨.noteHead 0 0, rfl, rfl⟩, nofun⟩

theorem Sys2Proof.Laws.Admissible.abort (ld : Nat) (value : Nat) :
    Statement (.abort ld value) :=
  ⟨⟨.abort 0 0, rfl, rfl⟩, nofun⟩

theorem Sys2Proof.Laws.Admissible.ticketFetch :
    Statement (.ticketFetch) :=
  ⟨⟨.ticketFetch, rfl, rfl⟩, nofun⟩

theorem Sys2Proof.Laws.Admissible.coalesceTimeout :
    Statement (.coalesceTimeout) :=
  ⟨⟨.coalesceTimeout, rfl, rfl⟩, nofun⟩

theorem Sys2Proof.Laws.Admissible.integrityFrame (link : Nat) (good : Bool) :
    Statement (.integrityFrame link good) :=
  ⟨⟨.integrityFrame 0 false, rfl, rfl⟩, nofun⟩

theorem Sys2Proof.Laws.Admissible.twinLinkDown (link : Nat) :
    Statement (.twinLinkDown link) :=
  ⟨⟨.twinLinkDown 0, rfl, rfl⟩, nofun⟩

theorem Sys2Proof.Laws.Admissible.hello (id : Nat) (epoch : Nat) (role : Nat) (divValid : Bool) (synced : Bool) (divEpoch : Nat) (granules : Nat) (prefer : Bool) (held : Nat) :
    Statement (.hello id epoch role divValid synced divEpoch granules prefer held) :=
  ⟨⟨.hello 0 0 0 false false 0 0 false 0, rfl, rfl⟩, nofun⟩

theorem Sys2Proof.Laws.Admissible.heartbeat (h : TwinHead) (ink : Nat) :
    Statement (.heartbeat h ink) :=
  ⟨⟨.heartbeat ⟨0, 0, 0⟩ 0, rfl, rfl⟩, nofun⟩

theorem Sys2Proof.Laws.Admissible.heartbeatSend :
    Statement (.heartbeatSend) :=
  ⟨⟨.heartbeatSend, rfl, rfl⟩, nofun⟩

theorem Sys2Proof.Laws.Admissible.ack (h : TwinHead) :
    Statement (.ack h) :=
  ⟨⟨.ack ⟨0, 0, 0⟩, rfl, rfl⟩, nofun⟩

theorem Sys2Proof.Laws.Admissible.store (h : TwinHead) (recs : List LineWrite) :
    Statement (.store h recs) :=
  ⟨⟨.store ⟨0, 0, 0⟩ [], rfl, rfl⟩, nofun⟩

theorem Sys2Proof.Laws.Admissible.sealMsg (h : TwinHead) (recs : List LineWrite) :
    Statement (.sealMsg h recs) :=
  ⟨⟨.sealMsg ⟨0, 0, 0⟩ [], rfl, rfl⟩, nofun⟩

theorem Sys2Proof.Laws.Admissible.tableSync (h : TwinHead) (table : Nat) (index : Nat) (ws : List Nat) (last : Bool) :
    Statement (.tableSync h table index ws last) :=
  ⟨⟨.tableSync ⟨0, 0, 0⟩ 0 0 [] false, rfl, rfl⟩, nofun⟩

theorem Sys2Proof.Laws.Admissible.tableResult (h : TwinHead) (seq : Nat) (status : Nat) :
    Statement (.tableResult h seq status) :=
  ⟨⟨.tableResult ⟨0, 0, 0⟩ 0 0, rfl, rfl⟩, nofun⟩

theorem Sys2Proof.Laws.Admissible.fetchReq (h : TwinHead) (folio : Nat) (id : Nat) :
    Statement (.fetchReq h folio id) :=
  ⟨⟨.fetchReq ⟨0, 0, 0⟩ 0 0, rfl, rfl⟩, nofun⟩

theorem Sys2Proof.Laws.Admissible.fetchData (h : TwinHead) (id : Nat) (good : Bool) (cells : List Host.Cell) :
    Statement (.fetchData h id good cells) :=
  ⟨⟨.fetchData ⟨0, 0, 0⟩ 0 false [], rfl, rfl⟩, nofun⟩

theorem Sys2Proof.Laws.Admissible.fetchNak (h : TwinHead) (id : Nat) (status : Nat) :
    Statement (.fetchNak h id status) :=
  ⟨⟨.fetchNak ⟨0, 0, 0⟩ 0 0, rfl, rfl⟩, nofun⟩

theorem Sys2Proof.Laws.Admissible.twinFetchFail (id : Nat) :
    Statement (.twinFetchFail id) :=
  ⟨⟨.twinFetchFail 0, rfl, rfl⟩, nofun⟩

theorem Sys2Proof.Laws.Admissible.journalCopy (h : TwinHead) (index : Nat) (first : Nat) (recs : List JRec) (good : Bool) :
    Statement (.journalCopy h index first recs good) :=
  ⟨⟨.journalCopy ⟨0, 0, 0⟩ 0 0 [] false, rfl, rfl⟩, nofun⟩

theorem Sys2Proof.Laws.Admissible.journalReq (h : TwinHead) (index : Nat) :
    Statement (.journalReq h index) :=
  ⟨⟨.journalReq ⟨0, 0, 0⟩ 0, rfl, rfl⟩, nofun⟩

theorem Sys2Proof.Laws.Admissible.checkpointNote (h : TwinHead) (number : Nat) (first : Nat) :
    Statement (.checkpointNote h number first) :=
  ⟨⟨.checkpointNote ⟨0, 0, 0⟩ 0 0, rfl, rfl⟩, nofun⟩

theorem Sys2Proof.Laws.Admissible.bitmap (h : TwinHead) (first : Nat) (marks : List Bool) :
    Statement (.bitmap h first marks) :=
  ⟨⟨.bitmap ⟨0, 0, 0⟩ 0 [], rfl, rfl⟩, nofun⟩

theorem Sys2Proof.Laws.Admissible.resyncFolio (h : TwinHead) (folio : Nat) (zero : Bool) (cells : List Host.Cell) :
    Statement (.resyncFolio h folio zero cells) :=
  ⟨⟨.resyncFolio ⟨0, 0, 0⟩ 0 false [], rfl, rfl⟩, nofun⟩

theorem Sys2Proof.Laws.Admissible.handbackFolio (h : TwinHead) (folio : Nat) (zero : Bool) (cells : List Host.Cell) :
    Statement (.handbackFolio h folio zero cells) :=
  ⟨⟨.handbackFolio ⟨0, 0, 0⟩ 0 false [], rfl, rfl⟩, nofun⟩

theorem Sys2Proof.Laws.Admissible.resyncDone (h : TwinHead) (part : Nat) (absent : List Nat) :
    Statement (.resyncDone h part absent) :=
  ⟨⟨.resyncDone ⟨0, 0, 0⟩ 0 [], rfl, rfl⟩, nofun⟩

theorem Sys2Proof.Laws.Admissible.mirrorReady (h : TwinHead) (region : Nat) :
    Statement (.mirrorReady h region) :=
  ⟨⟨.mirrorReady ⟨0, 0, 0⟩ 0, rfl, rfl⟩, nofun⟩

theorem Sys2Proof.Laws.Admissible.handover (h : TwinHead) (final : Nat) :
    Statement (.handover h final) :=
  ⟨⟨.handover ⟨0, 0, 0⟩ 0, rfl, rfl⟩, nofun⟩

theorem Sys2Proof.Laws.Admissible.handoverAck (h : TwinHead) :
    Statement (.handoverAck h) :=
  ⟨⟨.handoverAck ⟨0, 0, 0⟩, rfl, rfl⟩, nofun⟩

theorem Sys2Proof.Laws.Admissible.handoverAckTimeout :
    Statement (.handoverAckTimeout) :=
  ⟨⟨.handoverAckTimeout, rfl, rfl⟩, nofun⟩

theorem Sys2Proof.Laws.Admissible.leaseExpired :
    Statement (.leaseExpired) :=
  ⟨⟨.leaseExpired, rfl, rfl⟩, nofun⟩

theorem Sys2Proof.Laws.Admissible.promoted :
    Statement (.promoted) :=
  ⟨⟨.promoted, rfl, rfl⟩, nofun⟩

theorem Sys2Proof.Laws.Admissible.soloDeclaration :
    Statement (.soloDeclaration) :=
  ⟨⟨.soloDeclaration, rfl, rfl⟩, nofun⟩

theorem Sys2Proof.Laws.Admissible.twinYield :
    Statement (.twinYield) :=
  ⟨⟨.twinYield, rfl, rfl⟩, nofun⟩

theorem Sys2Proof.Laws.Admissible.disturbance (m : Mains) :
    Statement (.disturbance m) :=
  ⟨⟨.disturbance ⟨false, false, 0⟩, rfl, rfl⟩, nofun⟩

theorem Sys2Proof.Laws.Admissible.blip (m : Mains) :
    Statement (.blip m) :=
  ⟨⟨.blip ⟨false, false, 0⟩, rfl, rfl⟩, nofun⟩

theorem Sys2Proof.Laws.Admissible.sagEnter (m : Mains) :
    Statement (.sagEnter m) :=
  ⟨⟨.sagEnter ⟨false, false, 0⟩, rfl, rfl⟩, nofun⟩

theorem Sys2Proof.Laws.Admissible.sagExit (m : Mains) :
    Statement (.sagExit m) :=
  ⟨⟨.sagExit ⟨false, false, 0⟩, rfl, rfl⟩, nofun⟩

theorem Sys2Proof.Laws.Admissible.sagHoldEnd :
    Statement (.sagHoldEnd) :=
  ⟨⟨.sagHoldEnd, rfl, rfl⟩, nofun⟩

theorem Sys2Proof.Laws.Admissible.drop (m : Mains) :
    Statement (.drop m) :=
  ⟨⟨.drop ⟨false, false, 0⟩, rfl, rfl⟩, nofun⟩

theorem Sys2Proof.Laws.Admissible.strikeDone (energy : Nat) :
    Statement (.strikeDone energy) :=
  ⟨⟨.strikeDone 0, rfl, rfl⟩, nofun⟩

theorem Sys2Proof.Laws.Admissible.loadInStart :
    Statement (.loadInStart) :=
  ⟨⟨.loadInStart, rfl, rfl⟩, nofun⟩

theorem Sys2Proof.Laws.Admissible.reserveShort :
    Statement (.reserveShort) :=
  ⟨⟨.reserveShort, rfl, rfl⟩, nofun⟩

theorem Sys2Proof.Laws.Admissible.loadInDone :
    Statement (.loadInDone) :=
  ⟨⟨.loadInDone, rfl, rfl⟩, nofun⟩

theorem Sys2Proof.Laws.Admissible.holdupTest (go : Bool) :
    Statement (.holdupTest go) :=
  ⟨⟨.holdupTest false, rfl, rfl⟩, nofun⟩

theorem Sys2Proof.Laws.Admissible.holdupTested (sum0 : Nat) (v1 : Nat) (qsum : Nat) (sum2 : Nat) :
    Statement (.holdupTested sum0 v1 qsum sum2) :=
  ⟨⟨.holdupTested 0 0 0 0, rfl, rfl⟩, nofun⟩

theorem Sys2Proof.Laws.Admissible.holdupTestLate :
    Statement (.holdupTestLate) :=
  ⟨⟨.holdupTestLate, rfl, rfl⟩, nofun⟩

theorem Sys2Proof.Laws.Admissible.operation (entry : Nat) (on : Bool) :
    Statement (.operation entry on) :=
  ⟨⟨.operation 0 false, rfl, rfl⟩, nofun⟩

theorem Sys2Proof.Laws.Admissible.clearFaults (entry : Nat) :
    Statement (.clearFaults entry) :=
  ⟨⟨.clearFaults 0, rfl, rfl⟩, nofun⟩

theorem Sys2Proof.Laws.Admissible.voutCommand (entry : Nat) (data : Nat) :
    Statement (.voutCommand entry data) :=
  ⟨⟨.voutCommand 0 0, rfl, rfl⟩, nofun⟩

theorem Sys2Proof.Laws.Admissible.statusWord (entry : Nat) (value : Nat) :
    Statement (.statusWord entry value) :=
  ⟨⟨.statusWord 0 0, rfl, rfl⟩, nofun⟩

theorem Sys2Proof.Laws.Admissible.readVin (entry : Nat) (value : Nat) :
    Statement (.readVin entry value) :=
  ⟨⟨.readVin 0 0, rfl, rfl⟩, nofun⟩

theorem Sys2Proof.Laws.Admissible.readIin (entry : Nat) (value : Nat) :
    Statement (.readIin entry value) :=
  ⟨⟨.readIin 0 0, rfl, rfl⟩, nofun⟩

theorem Sys2Proof.Laws.Admissible.readVout (entry : Nat) (value : Nat) :
    Statement (.readVout entry value) :=
  ⟨⟨.readVout 0 0, rfl, rfl⟩, nofun⟩

theorem Sys2Proof.Laws.Admissible.readIout (entry : Nat) (value : Nat) :
    Statement (.readIout entry value) :=
  ⟨⟨.readIout 0 0, rfl, rfl⟩, nofun⟩

theorem Sys2Proof.Laws.Admissible.readTemperature1 (entry : Nat) (value : Nat) :
    Statement (.readTemperature1 entry value) :=
  ⟨⟨.readTemperature1 0 0, rfl, rfl⟩, nofun⟩

theorem Sys2Proof.Laws.Admissible.readPout (entry : Nat) (value : Nat) :
    Statement (.readPout entry value) :=
  ⟨⟨.readPout 0 0, rfl, rfl⟩, nofun⟩

theorem Sys2Proof.Laws.Admissible.readPin (entry : Nat) (value : Nat) :
    Statement (.readPin entry value) :=
  ⟨⟨.readPin 0 0, rfl, rfl⟩, nofun⟩

theorem Sys2Proof.Laws.Admissible.pmbusPoll (answered : Nat) (ms : Nat) (bytes : Nat) (mw : Nat) :
    Statement (.pmbusPoll answered ms bytes mw) :=
  ⟨⟨.pmbusPoll 0 0 0 0, rfl, rfl⟩, nofun⟩

theorem Sys2Proof.Laws.Admissible.pcapEstimate (mw : Nat) :
    Statement (.pcapEstimate mw) :=
  ⟨⟨.pcapEstimate 0, rfl, rfl⟩, nofun⟩

theorem Sys2Proof.Laws.Admissible.meterUpdate (counts : List (Nat × MeterCounts)) (static : Nat) :
    Statement (.meterUpdate counts static) :=
  ⟨⟨.meterUpdate [] 0, rfl, rfl⟩, nofun⟩

theorem Sys2Proof.Laws.Admissible.rearm (value : Nat) :
    Statement (.rearm value) :=
  ⟨⟨.rearm 0, rfl, rfl⟩, nofun⟩

theorem Sys2Proof.Laws.Admissible.dvfsRaise (value : Nat) :
    Statement (.dvfsRaise value) :=
  ⟨⟨.dvfsRaise 0, rfl, rfl⟩, nofun⟩

theorem Sys2Proof.Laws.Admissible.dvfsReady :
    Statement (.dvfsReady) :=
  ⟨⟨.dvfsReady, rfl, rfl⟩, nofun⟩

theorem Sys2Proof.Laws.Admissible.stcWdog (core : Nat) :
    Statement (.stcWdog core) :=
  ⟨⟨.stcWdog 0, rfl, rfl⟩, nofun⟩

theorem Sys2Proof.Laws.Admissible.stcWatchdog (core : Nat) :
    Statement (.stcWatchdog core) :=
  ⟨⟨.stcWatchdog 0, rfl, rfl⟩, nofun⟩

theorem Sys2Proof.Laws.Admissible.stcReloaded (core : Nat) :
    Statement (.stcReloaded core) :=
  ⟨⟨.stcReloaded 0, rfl, rfl⟩, nofun⟩

theorem Sys2Proof.Laws.Admissible.coreQuiesce (core : Nat) :
    Statement (.coreQuiesce core) :=
  ⟨⟨.coreQuiesce 0, rfl, rfl⟩, nofun⟩

theorem Sys2Proof.Laws.Admissible.readPage (port : Nat) (ecc : Nat) :
    Statement (.readPage port ecc) :=
  ⟨⟨.readPage 0 0, rfl, rfl⟩, nofun⟩

theorem Sys2Proof.Laws.Admissible.programPage (port : Nat) (fetch : Nat) :
    Statement (.programPage port fetch) :=
  ⟨⟨.programPage 0 0, rfl, rfl⟩, nofun⟩

theorem Sys2Proof.Laws.Admissible.eraseSector (port : Nat) (fetch : Nat) :
    Statement (.eraseSector port fetch) :=
  ⟨⟨.eraseSector 0 0, rfl, rfl⟩, nofun⟩

theorem Sys2Proof.Laws.Admissible.suspend (port : Nat) :
    Statement (.suspend port) :=
  ⟨⟨.suspend 0, rfl, rfl⟩, nofun⟩

theorem Sys2Proof.Laws.Admissible.resume (port : Nat) :
    Statement (.resume port) :=
  ⟨⟨.resume 0, rfl, rfl⟩, nofun⟩

theorem Sys2Proof.Laws.Admissible.protSet (port : Nat) :
    Statement (.protSet port) :=
  ⟨⟨.protSet 0, rfl, rfl⟩, nofun⟩

theorem Sys2Proof.Laws.Admissible.protClear (port : Nat) :
    Statement (.protClear port) :=
  ⟨⟨.protClear 0, rfl, rfl⟩, nofun⟩

theorem Sys2Proof.Laws.Admissible.lock (port : Nat) :
    Statement (.lock port) :=
  ⟨⟨.lock 0, rfl, rfl⟩, nofun⟩

theorem Sys2Proof.Laws.Admissible.pwdSet (port : Nat) :
    Statement (.pwdSet port) :=
  ⟨⟨.pwdSet 0, rfl, rfl⟩, nofun⟩

theorem Sys2Proof.Laws.Admissible.fwfOperationEnd (bank : Nat) :
    Statement (.fwfOperationEnd bank) :=
  ⟨⟨.fwfOperationEnd 0, rfl, rfl⟩, nofun⟩

theorem Sys2Proof.Laws.Admissible.fwfPwdKey (port : Nat) (value : Nat) :
    Statement (.fwfPwdKey port value) :=
  ⟨⟨.fwfPwdKey 0 0, rfl, rfl⟩, nofun⟩

theorem Sys2Proof.Laws.Admissible.fwfPwdData (port : Nat) (value : Nat) :
    Statement (.fwfPwdData port value) :=
  ⟨⟨.fwfPwdData 0 0, rfl, rfl⟩, nofun⟩

theorem Sys2Proof.Laws.Admissible.thermSample (hot : Int) :
    Statement (.thermSample hot) :=
  ⟨⟨.thermSample 0, rfl, rfl⟩, nofun⟩

theorem Sys2Proof.Laws.Admissible.getVersion (chan : Nat) :
    Statement (.getVersion chan) :=
  ⟨⟨.getVersion 0, rfl, rfl⟩, nofun⟩

theorem Sys2Proof.Laws.Admissible.getCapabilities (chan : Nat) :
    Statement (.getCapabilities chan) :=
  ⟨⟨.getCapabilities 0, rfl, rfl⟩, nofun⟩

theorem Sys2Proof.Laws.Admissible.negotiateAlgorithms (chan : Nat) (ok : Bool) :
    Statement (.negotiateAlgorithms chan ok) :=
  ⟨⟨.negotiateAlgorithms 0 false, rfl, rfl⟩, nofun⟩

theorem Sys2Proof.Laws.Admissible.getDigests (chan : Nat) :
    Statement (.getDigests chan) :=
  ⟨⟨.getDigests 0, rfl, rfl⟩, nofun⟩

theorem Sys2Proof.Laws.Admissible.getCertificate (chan : Nat) (slot : Nat) (offset : Nat) (length : Nat) :
    Statement (.getCertificate chan slot offset length) :=
  ⟨⟨.getCertificate 0 0 0 0, rfl, rfl⟩, nofun⟩

theorem Sys2Proof.Laws.Admissible.challenge (chan : Nat) (slot : Nat) :
    Statement (.challenge chan slot) :=
  ⟨⟨.challenge 0 0, rfl, rfl⟩, nofun⟩

theorem Sys2Proof.Laws.Admissible.getMeasurements (chan : Nat) (index : Nat) (sign : Bool) :
    Statement (.getMeasurements chan index sign) :=
  ⟨⟨.getMeasurements 0 0 false, rfl, rfl⟩, nofun⟩

theorem Sys2Proof.Laws.Admissible.keyExchange (chan : Nat) (ok : Bool) :
    Statement (.keyExchange chan ok) :=
  ⟨⟨.keyExchange 0 false, rfl, rfl⟩, nofun⟩

theorem Sys2Proof.Laws.Admissible.finish (chan : Nat) (id : Nat) (ok : Bool) (who : Requester) :
    Statement (.finish chan id ok who) :=
  ⟨⟨.finish 0 0 false .failed, rfl, rfl⟩, nofun⟩

theorem Sys2Proof.Laws.Admissible.spdmHeartbeat (chan : Nat) (id : Nat) :
    Statement (.spdmHeartbeat chan id) :=
  ⟨⟨.spdmHeartbeat 0 0, rfl, rfl⟩, nofun⟩

theorem Sys2Proof.Laws.Admissible.keyUpdate (chan : Nat) (id : Nat) :
    Statement (.keyUpdate chan id) :=
  ⟨⟨.keyUpdate 0 0, rfl, rfl⟩, nofun⟩

theorem Sys2Proof.Laws.Admissible.endSession (chan : Nat) (id : Nat) :
    Statement (.endSession chan id) :=
  ⟨⟨.endSession 0 0, rfl, rfl⟩, nofun⟩

theorem Sys2Proof.Laws.Admissible.spdmUnsupported (chan : Nat) :
    Statement (.spdmUnsupported chan) :=
  ⟨⟨.spdmUnsupported 0, rfl, rfl⟩, nofun⟩

theorem Sys2Proof.Laws.Admissible.seedProgram (chan : Nat) (id : Nat) (hash : Nat) :
    Statement (.seedProgram chan id hash) :=
  ⟨⟨.seedProgram 0 0 0, rfl, rfl⟩, nofun⟩

theorem Sys2Proof.Laws.Admissible.keyWrap (chan : Nat) (id : Nat) (record : List Byte) :
    Statement (.keyWrap chan id record) :=
  ⟨⟨.keyWrap 0 0 [], rfl, rfl⟩, nofun⟩

theorem Sys2Proof.Laws.Admissible.reunwrap (chan : Nat) (id : Nat) :
    Statement (.reunwrap chan id) :=
  ⟨⟨.reunwrap 0 0, rfl, rfl⟩, nofun⟩

theorem Sys2Proof.Laws.Admissible.debugUnlock (chan : Nat) (id : Nat) (cert : List Byte) (good : Bool) :
    Statement (.debugUnlock chan id cert good) :=
  ⟨⟨.debugUnlock 0 0 [] false, rfl, rfl⟩, nofun⟩

theorem Sys2Proof.Laws.Admissible.dbgcert (cert : List Byte) (good : Bool) :
    Statement (.dbgcert cert good) :=
  ⟨⟨.dbgcert [] false, rfl, rfl⟩, nofun⟩

theorem Sys2Proof.Laws.Admissible.keyAlarm (source : Nat) :
    Statement (.keyAlarm source) :=
  ⟨⟨.keyAlarm 0, rfl, rfl⟩, nofun⟩

theorem Sys2Proof.Laws.Admissible.latchProgram :
    Statement (.latchProgram) :=
  ⟨⟨.latchProgram, rfl, rfl⟩, nofun⟩

theorem Sys2Proof.Laws.Admissible.sramPatrol (f : PatrolFind) :
    Statement (.sramPatrol f) :=
  ⟨⟨.sramPatrol .good, rfl, rfl⟩, nofun⟩

theorem Sys2Proof.Laws.Admissible.chkRingTail (unit : Nat) (tail : Nat) (sram : List Host.Cell) (area : List Host.Cell) :
    Statement (.chkRingTail unit tail sram area) :=
  ⟨⟨.chkRingTail 0 0 [] [], rfl, rfl⟩, nofun⟩

theorem Sys2Proof.Laws.Admissible.cvDescriptorDone (unit : Nat) (bad : Bool) :
    Statement (.cvDescriptorDone unit bad) :=
  ⟨⟨.cvDescriptorDone 0 false, rfl, rfl⟩, nofun⟩

theorem Sys2Proof.Laws.Admissible.unitReset (unit : Nat) :
    Statement (.unitReset unit) :=
  ⟨⟨.unitReset 0, rfl, rfl⟩, nofun⟩

theorem Sys2Proof.Laws.Admissible.pbookFire (value : Nat) :
    Statement (.pbookFire value) :=
  ⟨⟨.pbookFire 0, rfl, rfl⟩, nofun⟩

theorem Sys2Proof.Laws.Admissible.pbookAckHi (value : Nat) :
    Statement (.pbookAckHi value) :=
  ⟨⟨.pbookAckHi 0, rfl, rfl⟩, nofun⟩

theorem Sys2Proof.Laws.Admissible.ringTailRead (slot : Nat) :
    Statement (.ringTailRead slot) :=
  ⟨⟨.ringTailRead 0, rfl, rfl⟩, nofun⟩

theorem Sys2Proof.Laws.Admissible.pbookFlush :
    Statement (.pbookFlush) :=
  ⟨⟨.pbookFlush, rfl, rfl⟩, nofun⟩

theorem Sys2Proof.Laws.Admissible.tallySnap (index : Nat) :
    Statement (.tallySnap index) :=
  ⟨⟨.tallySnap 0, rfl, rfl⟩, nofun⟩

theorem Sys2Proof.Laws.Admissible.tallyClear (index : Nat) (snap : Bool) :
    Statement (.tallyClear index snap) :=
  ⟨⟨.tallyClear 0 false, rfl, rfl⟩, nofun⟩

theorem Sys2Proof.Laws.Admissible.dramRepair (fr : JobFrom) (queue : Bool) (channel : Nat) (row : Nat) (device : Nat) (soft : Bool) :
    Statement (.dramRepair fr queue channel row device soft) :=
  ⟨⟨.dramRepair .firmware false 0 0 0 false, rfl, rfl⟩, nofun⟩

theorem Sys2Proof.Laws.Admissible.dramRetrain (fr : JobFrom) (queue : Bool) (channel : Nat) (temp : Nat) (owed : Nat) :
    Statement (.dramRetrain fr queue channel temp owed) :=
  ⟨⟨.dramRetrain .firmware false 0 0 0, rfl, rfl⟩, nofun⟩

theorem Sys2Proof.Laws.Admissible.dramRelease (fr : JobFrom) (queue : Bool) (channel : Nat) (pass : Bool) (words : List Nat) :
    Statement (.dramRelease fr queue channel pass words) :=
  ⟨⟨.dramRelease .firmware false 0 false [], rfl, rfl⟩, nofun⟩

theorem Sys2Proof.Laws.Admissible.rebuild :
    Statement (.rebuild) :=
  ⟨⟨.rebuild, rfl, rfl⟩, nofun⟩

theorem Sys2Proof.Laws.Admissible.reshape :
    Statement (.reshape) :=
  ⟨⟨.reshape, rfl, rfl⟩, nofun⟩

theorem Sys2Proof.Laws.Admissible.slotRemove (fr : JobFrom) (queue : Bool) (slot : Nat) :
    Statement (.slotRemove fr queue slot) :=
  ⟨⟨.slotRemove .firmware false 0, rfl, rfl⟩, nofun⟩

theorem Sys2Proof.Laws.Admissible.slotAdmit (fr : JobFrom) (queue : Bool) (slot : Nat) :
    Statement (.slotAdmit fr queue slot) :=
  ⟨⟨.slotAdmit .firmware false 0, rfl, rfl⟩, nofun⟩

theorem Sys2Proof.Laws.Admissible.fwUpdate (fr : JobFrom) (queue : Bool) (signed : Bool) :
    Statement (.fwUpdate fr queue signed) :=
  ⟨⟨.fwUpdate .firmware false false, rfl, rfl⟩, nofun⟩

theorem Sys2Proof.Laws.Admissible.twinResync :
    Statement (.twinResync) :=
  ⟨⟨.twinResync, rfl, rfl⟩, nofun⟩

theorem Sys2Proof.Laws.Admissible.plannedHandover (fr : JobFrom) (queue : Bool) :
    Statement (.plannedHandover fr queue) :=
  ⟨⟨.plannedHandover .firmware false, rfl, rfl⟩, nofun⟩

theorem Sys2Proof.Laws.Admissible.scribeSwap (fr : JobFrom) (queue : Bool) (scribe : Nat) (timeout : Nat) (pass : Bool) :
    Statement (.scribeSwap fr queue scribe timeout pass) :=
  ⟨⟨.scribeSwap .firmware false 0 0 false, rfl, rfl⟩, nofun⟩

theorem Sys2Proof.Laws.Admissible.drainTimeout :
    Statement (.drainTimeout) :=
  ⟨⟨.drainTimeout, rfl, rfl⟩, nofun⟩

theorem Sys2Proof.Laws.Admissible.sceneChange (fr : JobFrom) (queue : Bool) (p0 : Nat) :
    Statement (.sceneChange fr queue p0) :=
  ⟨⟨.sceneChange .firmware false 0, rfl, rfl⟩, nofun⟩

theorem Sys2Proof.Laws.Admissible.rehearsal (fr : JobFrom) (queue : Bool) (mask : Nat) (fail : Nat) :
    Statement (.rehearsal fr queue mask fail) :=
  ⟨⟨.rehearsal .firmware false 0 0, rfl, rfl⟩, nofun⟩

theorem Sys2Proof.Laws.Admissible.powerCycle (fr : JobFrom) (queue : Bool) (confirm : Nat) :
    Statement (.powerCycle fr queue confirm) :=
  ⟨⟨.powerCycle .firmware false 0, rfl, rfl⟩, nofun⟩

theorem Sys2Proof.Laws.Admissible.maintStart (o : JobOut) :
    Statement (.maintStart o) :=
  ⟨⟨.maintStart ⟨true, 0, 0, [], 0⟩, rfl, rfl⟩, nofun⟩

theorem Sys2Proof.Laws.Admissible.maintQry (id : Nat) :
    Statement (.maintQry id) :=
  ⟨⟨.maintQry 0, rfl, rfl⟩, nofun⟩

theorem Sys2Proof.Laws.Admissible.refclkPresent :
    Statement (.refclkPresent) :=
  ⟨⟨.refclkPresent, rfl, rfl⟩, nofun⟩

theorem Sys2Proof.Laws.Admissible.railGroupWithinTolerance (strap : Nat) :
    Statement (.railGroupWithinTolerance strap) :=
  ⟨⟨.railGroupWithinTolerance 0, rfl, rfl⟩, nofun⟩

theorem Sys2Proof.Laws.Admissible.vddAonFall :
    Statement (.vddAonFall) :=
  ⟨⟨.vddAonFall, rfl, rfl⟩, nofun⟩

theorem Sys2Proof.Laws.Admissible.holdupSenseSample (count : Nat) :
    Statement (.holdupSenseSample count) :=
  ⟨⟨.holdupSenseSample 0, rfl, rfl⟩, nofun⟩

theorem Sys2Proof.Laws.Admissible.s2mCreditReturn (link : Nat) (ndr : Nat) (drs : Nat) :
    Statement (.s2mCreditReturn link ndr drs) :=
  ⟨⟨.s2mCreditReturn 0 0 0, rfl, rfl⟩, nofun⟩

theorem Sys2Proof.Laws.Admissible.twinLinkTrained (w0 : Nat) (w1 : Nat) (session : Bool) :
    Statement (.twinLinkTrained w0 w1 session) :=
  ⟨⟨.twinLinkTrained 0 0 false, rfl, rfl⟩, nofun⟩

theorem Sys2Proof.Laws.Admissible.slotPgoodAsserted (slot : Nat) (answered : Nat) (fail : Nat) :
    Statement (.slotPgoodAsserted slot answered fail) :=
  ⟨⟨.slotPgoodAsserted 0 0 0, rfl, rfl⟩, nofun⟩

theorem Sys2Proof.Laws.Admissible.locateExpiry (slot : Nat) :
    Statement (.locateExpiry slot) :=
  ⟨⟨.locateExpiry 0, rfl, rfl⟩, nofun⟩
end

