-- ==== Sys2Proof/Tests/Slice0.lean ====
section
/-! SUPPORT. Tests: ill-formed commands, worked figures of the spec, and one state for each statement's hypotheses. -/

open Sys2Proof Sys2Proof.Machine Sys2Proof.Claims

namespace Sys2Proof.Tests

set_option Elab.async false

/-- A state after a start, with every domain up. -/
def up : State :=
  { State.reset with pwr := { State.reset.pwr with step := 8, aonUp := true, secUp := true, ctlUp := true, fabUp := true } }

/-- The same with one field of a register set. -/
def upWith (f : Fld) (i v : Nat) : State := up.setFld f i v
/-! ### One state for the hypotheses of each clause of the statements -/

/-- A start that has reached a step and a rail group, at a time. -/
def starting (step group clock : Nat) : State :=
  { up with clock := clock, pwr := { up.pwr with step := step, railGroup := group } }

/-- A strike runs, with this cause. -/
def striking (cause : Nat) : State := (upWith F.SENT_STAT_state 0 3).setFld F.CURT_STRIKE_cause 0 cause

/-- Load-in runs. -/
def loadingIn : State := upWith F.SENT_STAT_state 0 4

/-- The BMC mailbox, which needs no access entry. -/
def bmc : Nat := 512

/-- Bytes of zero. -/
def zeros (n : Nat) : List Byte := List.replicate n 0

theorem wit_EveryStepKeepsTheMemoryForm : ∃ t, up.mems.wf = true ∧ step up = .next t := ⟨_, by decide, rfl⟩

theorem wit_CommandsTakeNothingBack : ∃ t, exec .vddAonFall up = .next t := ⟨_, rfl⟩

theorem wit_ResetLeavesTheTableValues : RegId.INK_LIMIT.special 0 = 0 ∧
    RegId.INK_LIMIT.fields ≠ [] ∧ (4095 : Nat) < 4096 := by decide +kernel

theorem wit_RaisingAnEventTouchesOnlyTheRecord : 0xF21 < 4096 ∧ 0xF21 ≠ Ev.EVT_OVERFLOW ∧ 0xF21 ≠ Ev.PBOOK_DROPPED := by
  decide +kernel

theorem wit_PowerAndRailSequence :
    up.pwr.aonUp = true ∧ (starting 1 0 0).pwr.step = 1 ∧ (starting 2 4 7000).pwr.railSince = 0 ∧
    (starting 2 1 0).pwr.railGroup = 1 ∧
    ((starting 2 4 7000).setLive .CURT_SEQ 5 7).fld F.CURT_SEQ_interval 5 * 1000 = 7000 ∧
    (starting 2 5 0).pwr.railGroup = 5 ∧ (starting 2 4 20000).pwr.railGroup ≠ 0 ∧ (starting 2 4 20000).pwr.railSince + 20000 ≤ (starting 2 4 20000).clock ∧
    (starting 3 5 0).pwr.step = 3 := by decide +kernel

theorem wit_ClockLossSequence :
    (upWith F.CLK_STAT_refclk_ok 0 1).pwr.aonUp = true ∧ (upWith F.CLK_STAT_refclk_ok 0 1).fld F.CLK_STAT_refclk_ok 0 = 1 ∧
    ((upWith F.CLK_STAT_refclk_ok 0 1).setFld F.CLK_STAT_root_lock 0 1).fld F.CLK_STAT_refclk_ok 0 = 1 ∧
    ((upWith F.CLK_STAT_refclk_ok 0 1).setFld F.CLK_STAT_root_lock 0 1).fld F.CLK_STAT_root_lock 0 = 1 ∧
    ((striking 3).setFld F.CLK_STAT_refclk_ok 0 1).inStrike = true ∧ (striking 3).sen.strikeOver = false ∧
    ((striking 3).setFld F.CLK_STAT_refclk_ok 0 1).fld F.CURT_STRIKE_cause 0 = 3 ∧ (striking 2).fld F.CURT_STRIKE_cause 0 = 2 ∧
    { (striking 2) with sen := { up.sen with strikeOver := true }, clock := 10000 }.inStrike = true ∧
    { up.pwr with refclkBack := some 0 }.refclkBack = some 0 ∧
    (starting 7 5 0).inStrike = false ∧ (starting 7 5 0).pwr.warmValid = false := by decide +kernel

/-- One DIMM of 64 GiB. -/
def dimm : DimmSet := ⟨1, 64, 2, 16, true, 4, 10, 6400⟩

theorem wit_StartFromBootToFirstScene :
    popBad ⟨List.replicate 12 dimm, upto 12, [], [], [], [], [], [], [], [], [], [], []⟩ = none ∧
    (∀ c, c < 12 → (upto 12).contains c = true) ∧
    (∀ set ∈ [1, 9], { up with scene := { up.scene with images := [(0, []), (3, [])] } }.requestStatus set = St.DONE) ∧
    up.requestStatus 2 = St.ILLEGAL ∧
    (starting 4 5 0).pwr.step = 4 ∧ (starting 4 5 0).pwr.resetLow = false ∧ (starting 5 5 0).pwr.step = 5 ∧
    (starting 5 5 0).newestSet = none ∧ (starting 6 5 0).pwr.noMem = false ∧
    { (starting 6 5 0) with sen := { up.sen with measured := true } }.sen.measured = true ∧
    { up with scene := { up.scene with waiting := [.request 1] } }.scene.waiting = .request 1 :: [] ∧
    bitB 0x80000001 31 = true ∧ up.fld F.SCENE_STAT_busy 0 = 0 ∧ bitB 1 31 = false ∧
    (upWith F.SCENE_STAT_busy 0 1).fld F.SCENE_STAT_busy 0 = 1 := by decide +kernel

/-! ### A bootable flash: the witness of `StartFromBootToFirstScene` for its first clause -/

/-- Bytes from address `a` upwards. -/
def place (a : Nat) : List Byte → List Host.Cell
  | [] => []
  | b :: t => (a, b) :: place (a + 1) t

theorem mapGet?_place_out {a j : Nat} (bs : List Byte) (r : List Host.Cell) (h : j < a ∨ a + bs.length ≤ j) :
    mapGet? (place a bs ++ r) j = mapGet? r j := by
  induction bs generalizing a with
  | nil => rfl
  | cons b t ih =>
    simp only [List.length_cons] at h
    simp only [place, List.cons_append, mapGet?, show a ≠ j by omega, if_false]
    exact ih (by omega)

theorem readN_out {a j n : Nat} (bs : List Byte) (r : List Host.Cell) (h : j + n ≤ a ∨ a + bs.length ≤ j) :
    memReadN fwErased (place a bs ++ r) j n = memReadN fwErased r j n := by
  induction n generalizing j with
  | zero => rfl
  | succ n ih =>
    rw [memReadN, memReadN, memRead, memRead, mapGet, mapGet, mapGet?_place_out bs r (by omega), ih (by omega)]

theorem read_in {a : Nat} (bs : List Byte) (r : List Host.Cell) (i : Nat) (h : i < bs.length) :
    memRead fwErased (place a bs ++ r) (a + i) = bs[i] := by
  induction bs generalizing a i with
  | nil => simp at h
  | cons b t ih =>
    simp only [List.length_cons] at h
    cases i with
    | zero => simp [place, memRead, mapGet, mapGet?]
    | succ i =>
      have := @ih (a + 1) i (by omega)
      simp only [memRead, mapGet, place, List.cons_append, mapGet?, show a ≠ a + (i + 1) by omega, if_false] at this ⊢
      rw [show a + (i + 1) = a + 1 + i by omega]; exact this

theorem readN_in {a n : Nat} (bs : List Byte) (r : List Host.Cell) (i : Nat) (h : i + n ≤ bs.length) :
    memReadN fwErased (place a bs ++ r) (a + i) n = (bs.drop i).take n := by
  induction n generalizing i with
  | zero => simp [memReadN]
  | succ n ih =>
    rw [memReadN, read_in bs r i (by omega), show a + i + 1 = a + (i + 1) by omega, ih (i + 1) (by omega),
      List.drop_eq_getElem_cons (i := i) (by omega)]
    rfl

theorem readN_nil (j n : Nat) : memReadN fwErased [] j n = List.replicate n fwErased := by
  induction n generalizing j with
  | zero => rfl
  | succ n ih => rw [memReadN, ih]; rfl

/-- A swap entry of sequence 7 for slot A, and an image header with sections 1, 2 and 3. -/
def bootEntry : List Byte :=
  [0x53, 0x50, 0x57, 0x50, 7] ++ List.replicate 247 0 ++ [0x67, 0xBF, 0x40, 0x08]
def bootHeader : List Byte :=
  [0x50, 0x51, 0x49, 0x4D, 1] ++ List.replicate 15 0 ++ [3] ++ List.replicate 107 0 ++ [1] ++ List.replicate 15 0 ++ [2] ++
    List.replicate 15 0 ++ [3] ++ List.replicate 351 0
def bootable : State :=
  { (starting 4 5 0) with
    regs := (up.setLive .SEC_SVN 0 0).regs
    core := { up.core with array := place 0 bootEntry ++ (place 0x1000000 bootHeader ++ []) } }

theorem bootEntry_length : bootEntry.length = 256 := by decide +kernel
theorem bootHeader_length : bootHeader.length = 512 := by decide +kernel

theorem bootable_blank (j n : Nat) (h : 256 ≤ j) (k : j + n ≤ 0x1000000) : bootable.fwRead j n = List.replicate n fwErased := by
  have e := bootEntry_length
  rw [State.fwRead, show bootable.core.array = place 0 bootEntry ++ (place 0x1000000 bootHeader ++ []) from rfl,
    readN_out _ _ (by omega), readN_out _ _ (by omega), readN_nil]

theorem bootable_header (i n : Nat) (h : i + n ≤ 512) : bootable.fwRead (0x1000000 + i) n = (bootHeader.drop i).take n := by
  have e := bootEntry_length
  have f := bootHeader_length
  rw [State.fwRead, show bootable.core.array = place 0 bootEntry ++ (place 0x1000000 bootHeader ++ []) from rfl,
    readN_out _ _ (by omega), readN_in _ _ _ (by omega)]

theorem bootable_entry (i n : Nat) (h : i + n ≤ 256) : bootable.fwRead i n = (bootEntry.drop i).take n := by
  have e := bootEntry_length
  have := readN_in (a := 0) bootEntry (place 0x1000000 bootHeader ++ []) i (n := n) (by omega)
  simpa [State.fwRead, bootable] using this

theorem bootable_redo : bootable.fwRedoAll = bootable := by
  have one : ∀ i ∈ redoOrder, bootable.fwRedo i = bootable := by
    intro i m
    have hi : i < 542 := by revert i; decide +kernel
    have hv : bootable.fwIntent i = leNat (List.replicate 8 fwErased) := by
      rw [State.fwIntent, State.fwLE, bootable_blank] <;> unfold fwIntentAt <;> split <;> omega
    have : bootable.fwInterrupted i = false := by
      rw [State.fwInterrupted, State.fwIntentLeft, hv]; decide
    rw [State.fwRedo, this]; rfl
  unfold State.fwRedoAll
  revert one
  generalize redoOrder = l
  intro one
  induction l with
  | nil => rfl
  | cons i t ih =>
    rw [List.foldl_cons, one i (by simp)]
    exact ih (fun j m => one j (by simp [m]))

theorem bootable_entries : bootable.swapEntries = [(7, 0, 16)] := by
  have blank : ∀ k ∈ (upto 64).tail, bootable.swapEntry (swapAt (k / 32) (k % 32)) = none := by
    intro k m
    have hk : 1 ≤ k ∧ k < 64 := by revert k; decide +kernel
    have : bootable.fwLE (swapAt (k / 32) (k % 32)) 4 = leNat (List.replicate 4 fwErased) := by
      rw [State.fwLE, bootable_blank] <;> unfold swapAt <;> omega
    have magic : leNat (List.replicate 4 fwErased) ≠ 0x50575053 := by decide +kernel
    rw [State.swapEntry, if_neg (fun h => magic (this ▸ h.1))]
  have first : bootable.swapEntry 0 = some (7, 0, 16) := by
    have le : ∀ i n, i + n ≤ 256 → bootable.fwLE i n = leNat ((bootEntry.drop i).take n) := fun i n h => by
      rw [State.fwLE, bootable_entry i n h]
    have crc : crc32c (bootable.fwRead 0 252) = bootable.fwLE (0 + 252) 4 := by
      rw [le _ _ (by decide), bootable_entry 0 252 (by decide)]; decide +kernel
    have m : bootable.fwLE 0 4 = 0x50575053 := by rw [le _ _ (by decide)]; decide +kernel
    have q : bootable.fwLE (0 + 4) 4 = 7 := by rw [le _ _ (by decide)]; decide +kernel
    have l : bootable.fwLE (0 + 8) 1 = 0 := by rw [le _ _ (by decide)]; decide +kernel
    rw [State.swapEntry, if_pos ⟨m, crc, by omega⟩, q, l]
  have e : upto 64 = 0 :: (upto 64).tail := by decide +kernel
  rw [State.swapEntries, e, List.filterMap_cons, show bootable.swapEntry (swapAt (0 / 32) (0 % 32)) = _ from first,
    List.filterMap_eq_nil_iff.2 blank]
  rfl

theorem bootable_image : bootable.imageOk 0x1000000 true = true := by
  have le : ∀ i n, i + n ≤ 512 → bootable.fwLE (0x1000000 + i) n = leNat ((bootHeader.drop i).take n) := fun i n h => by
    rw [State.fwLE, bootable_header i n h]
  have le0 : bootable.fwLE 0x1000000 4 = _ := le 0 4 (by decide)
  have kind : (upto 3).map (fun k => bootable.fwLE (0x1000000 + 128 + 16 * k) 4) = [1, 2, 3] := by
    have k0 : bootable.fwLE (0x1000000 + 128 + 16 * 0) 4 = _ := le 128 4 (by decide)
    have k1 : bootable.fwLE (0x1000000 + 128 + 16 * 1) 4 = _ := le 144 4 (by decide)
    have k2 : bootable.fwLE (0x1000000 + 128 + 16 * 2) 4 = _ := le 160 4 (by decide)
    rw [show upto 3 = [0, 1, 2] by decide, List.map_cons, List.map_cons, List.map_cons, List.map_nil, k0, k1, k2]
    decide +kernel
  have svn : bootable.fld F.SEC_SVN_svn 0 = 0 := by decide +kernel
  rw [State.imageOk, State.imageForm, State.imageFits, kind, le0, le 4 2 (by decide), le 16 4 (by decide), le 20 4 (by decide),
    le 12 4 (by decide), le 176 336 (by decide), le 8 4 (by decide), le 24 8 (by decide), svn]
  generalize Config.deviceId.toNat = d
  have dev : leNat ((bootHeader.drop 24).take 8) = 0 := by decide +kernel
  rw [dev]
  have : ((0 : Nat) == 0 || (0 : Nat) == d) = true := by simp
  rw [this]
  decide +kernel

theorem wit_StartFromBootToFirstScene_boot :
    (bootable.fwRedoAll.bootPick [7] [7] bootable.fwRedoAll.swapEntries).2 = some (7, 0) := by
  have slot : slotBase 0 = 0x1000000 := by decide +kernel
  have seven : ([7] : List Nat).contains 7 = true := by decide
  rw [bootable_redo, bootable_entries, State.bootPick, slot, seven, bootable_image]
  rfl

/-- A state in which link 0 is up with CXL. -/
def linked : State := (upWith F.HPORT_STAT_up 0 1).setFld F.HPORT_STAT_cxl 0 1

theorem wit_ResetsOfDeviceLinkAndLogicalDevice :
    up.pwr.resetLow = false ∧ (starting 4 5 0).pwr.step = 4 ∧ up.inStrike = false ∧ up.inLoadIn = false ∧
    { up.pwr with resetLow := true, step := 3 }.resetLow = true ∧
    (loadingIn.setFld F.RST_CTL_cxl_reset_dev 0 1).inLoadIn = true ∧ loadingIn.inStrike = false ∧
    (loadingIn.setFld F.RST_CTL_cxl_reset_dev 0 1).fld F.RST_CTL_cxl_reset_dev 0 = 1 ∧
    (∀ link ∈ [0, 2, 6], up.linkExists link = true) ∧ (striking 1).inStrike = true ∧ up.mailUp = true ∧ up.mbAdmin bmc = true ∧
    (let s := (striking 1).setFld F.RST_CTL_cxl_reset_dev 0 1; s.inStrike && decide (4 < s.pwr.step) && (s.fld F.RST_CTL_cxl_reset_dev 0 == 1) && !s.pwr.resetLow) = true ∧
    (leBytes 2 0x5253).length = 2 ∧ leAt (leBytes 2 0x5253) 0 2 = 0x5253 ∧ up.fld F.RST_CTL_cxl_reset_dev 0 = 0 ∧
    up.linkExists (leAt (zeros 2) 0 1) = true ∧ leAt (zeros 2) 1 1 < up.linkLds (leAt (zeros 2) 0 1) := by decide +kernel

theorem wit_MailboxCommandsAreHeldMeasuredAndAdmitted :
    mailStandardRows.length = 15 ∧ mailVendorRows.length = 28 ∧ State.reset.mailUp = false ∧ up.mailUp = true ∧
    up.mbAdmin 0 = false ∧ up.mbAdmin bmc = true ∧ ((upWith F.TWIN_STAT_fenced 0 1).setFld F.TWIN_STAT_role 0 1).cmdFenced = true ∧
    ((upWith F.TWIN_STAT_fenced 0 1).setFld F.TWIN_STAT_role 0 1).mailUp = true ∧ (zeros 40).length = 40 := by decide +kernel

theorem wit_StandardMailboxCommandsAnswer :
    up.mailUp = true ∧ (zeros 8).length = 8 ∧ (zeros 24).length = 24 ∧ leAt (zeros 20 ++ leBytes 4 4096) 20 4 = 4096 ∧
    leAt ([3] : List Byte) 0 1 = 3 ∧ ([3, 1, 0, 0, 0, 0] : List Byte).length = 6 + 2 * leAt ([3, 1, 0, 0, 0, 0] : List Byte) 2 1 ∧
    bitB (leAt ([3, 1, 0, 0, 0, 0] : List Byte) 1 1) 0 = true ∧ (zeros 5).length = 5 ∧ (zeros 12).length = 12 ∧
    leAt (leBytes 4 0x1F000 ++ leBytes 4 4096) 0 4 + leAt (leBytes 4 0x1F000 ++ leBytes 4 4096) 4 4 = 0x20000 ∧
    leAt (leBytes 4 0x1FFFF ++ leBytes 4 0 ++ [7]) 0 4 + ((leBytes 4 0x1FFFF ++ leBytes 4 0 ++ [7]).length - 8) = 0x20000 ∧
    (zeros 16).length = 16 := by decide +kernel

theorem wit_VendorReportsAnswerDone :
    up.mailUp = true ∧ leAt (leBytes 2 4095) 0 2 < 4096 ∧ (zeros 1).length = 1 ∧ leAt ([11] : List Byte) 0 1 < 12 ∧
    up.mbAdmin bmc = true ∧ (zeros 10).length = 10 ∧ leAt (leBytes 2 0x1FF) 0 2 ≤ 0x1FF ∧ up.job 0 = none := by decide +kernel

theorem wit_MailboxTablesInkRecordsAndRouting :
    up.mailUp = true ∧ up.mbAdmin bmc = true ∧ up.cmdFenced = false ∧ leAt (leBytes 2 4095 ++ zeros 38) 0 2 < 4096 ∧
    (zeros 144).length = 144 ∧ up.region.commit = none ∧ up.region.queued = [] ∧
    leAt (leBytes 2 0x303 ++ [63, 1]) 0 2 < 4096 ∧ leAt (leBytes 2 0x303 ++ [63, 1]) 2 1 < 64 ∧ evIsAssigned 0x303 = true ∧
    bitB 5 31 = false ∧ bitB 0x80000005 31 = true ∧ up.pb.ring.length < 8192 ∧ (upWith F.EVT_SRC_core Ev.PBOOK_FIRED 0).fld F.EVT_SRC_core Ev.PBOOK_FIRED = 0 ∧
    up.evt.routes = [] ∧ up.pb.writer.length < 64 ∧ up.mbLd 127 = some 127 ∧ (2047 : Nat) < 2048 := by decide +kernel

theorem wit_UnassignedApertureOffsets : up.pwr.ctlUp = true ∧ offAssigned 0x2E00000 = false := by decide +kernel

theorem wit_RegisterFieldsFollowTheirAccessCodes :
    offAssigned (RegId.HPORT_CFG.off 0) = true ∧ shadowAt (RegId.HPORT_CFG.off 0) = none ∧
    regAt (RegId.HPORT_CFG.off 0 / 4 * 4) = some (.HPORT_CFG, 0) ∧ up.writeShut .HPORT_CFG 0 = false ∧
    (startWrite .HPORT_CFG 0 1 up).isNone = true ∧
    ([true, false].all fun b => allRegs.any fun r => r.w1cWhole == b && r.fields.any fun f => f.acc == .w1c) = true ∧
    ([Access.rw, .ro, .roc, .wo, .rws, .w1c].all fun a => allRegs.any fun r => r.fields.any fun f => f.acc == a) = true := by
  decide +kernel

theorem wit_HostLinksComeUpAndGoDown :
    ((upWith F.HPORT_CFG_enable 0 1).linkExists 0 = true ∧ (upWith F.HPORT_CFG_enable 0 1).fld F.HPORT_CFG_enable 0 = 1 ∧
      (upWith F.HPORT_CFG_enable 0 1).fld F.HPORT_STAT_frozen 0 = 0 ∧ 0 ∉ up.pwr.linksInReset ∧ up.share 0 = 16384) ∧
    linked.fld F.HPORT_STAT_up 0 = 1 ∧ up.inStrike = false ∧ up.linkExists 1 = false ∧
    (up.link 7).doe = none ∧ (∀ p ∈ [0, 3], { up.link 7 with doe := some p }.doe = some p) := by decide +kernel

/-- A load that waits in the tracker. -/
def waiting (g : Gate) : Req :=
  { acc := 0, src := .host 0 0 0 0, isStore := false, dpa := 0, writes := [], cls := 0, t0 := 0, bound := 10, poisonMiss := false,
    wayMask := 0, bad := false, own := false, isSeal := false, rmw := none, gate := g, gateAt := 0, inkHeld := false }

theorem wit_HostRequestsAndTheirEnds :
    linked.linkServes 0 = true ∧ (∀ w ∈ [true, false], linked.ingressRoom 0 w = true) ∧ linked.dram.erroneous = [] ∧ linked.fld F.HPORT_STAT_ide_secure 0 = 0 ∧ linked.linkServes 1 = false ∧
    (∀ g ∈ [Gate.applied, .staging],
      { up with clock := 10, path := { up.path with held := [waiting g] } }.path.held = [waiting g] ∧ (waiting g).bound = 10) ∧
    up.path.held = [] ∧
    { up with host := { up.host with biWaits := [⟨3, [], 0, 0⟩] } }.host.biWaits = [⟨3, [], 0, 0⟩] ∧
    up.readOf 5 2 = none := by decide +kernel

/-- Folio 5 is being read from quire 1024, leaf 2, slot 3. -/
def reading : State :=
  { up with
    ink := { up.ink with folios := [(5, { Folio.init true with state := .staging,  quire := 1024, leaf := 2, slot := 3 })] }
    flash := { up.flash with reads := [⟨5, 1024, 2, 3, 7, true, 0, 3, false⟩],
                             store := [((1024 * 16 + 2) * 4 + 3, ⟨5, 1, 0, []⟩)] } }

theorem wit_HostRequestsAndTheirEnds_read :
    reading.readOf 5 7 = some ⟨5, 1024, 2, 3, 7, true, 0, 3, false⟩ ∧ reading.leafMissing 1024 2 = false ∧ reading.inRepair 5 = false ∧
    (reading.folio 5).state = .staging ∧ (mapGet? reading.flash.store ((1024 * 16 + 2) * 4 + 3)).isSome = true ∧
    { reading with clock := 3000 }.readOf 5 7 = some ⟨5, 1024, 2, 3, 7, true, 0, 3, false⟩ ∧
    { reading with clock := 3000 }.clock = 3000 := by decide +kernel

theorem wit_HdmDecodersAndDynamicCapacity :
    (∀ lock ∈ [true, false], mapGet? [(383 * 8 + 7, (⟨true, lock, 0, 0, 0, 1, 256⟩ : Hdm))] (383 * 8 + 7) =
      some ⟨true, lock, 0, 0, 0, 1, 256⟩) ∧
    up.dcRoom 383 0 0xFFFFFFF = true ∧ up.dcRegions (up.dcOut 383) = [] ∧ up.region.commit = none ∧
    (383, 0, 0xFFFFFFF) ∉ up.host.extents ∧
    (4096 ≤ ({ up with host := { up.host with extents := List.replicate 4096 (383, 0, 0) } }.dcOut 383).length) := by decide +kernel

/-- A channel that has negotiated, with one session. -/
def speaking (x : SpdmSession) : State := { up with sec := { up.sec with conn := [(8, 3)], sessions := [x], seeds := [77] } }

theorem wit_SpdmNegotiationAndSessions :
    up.spdmUp 8 = true ∧ up.connStage 8 < 1 ∧ (speaking ⟨8, 1, false, false, 0⟩).connStage 8 = 3 ∧
    (speaking ⟨8, 1, false, false, 0⟩).spdmUp 8 = true ∧
    (speaking ⟨8, 1, false, false, 0⟩).session 8 1 = some ⟨8, 1, false, false, 0⟩ ∧
    (speaking ⟨8, 1, true, true, 77⟩).session 8 1 = some ⟨8, 1, true, true, 77⟩ ∧
    ((speaking ⟨8, 1, false, false, 0⟩).sec.sessions.filter (fun x => x.chan == 8)).length < 4 ∧
    { (speaking ⟨8, 1, false, false, 0⟩) with twin := { up.twin with width0 := 1 } }.spdmUp 9 = true ∧
    mapGet 0 up.sec.counters 1025 + 1 < 2 ^ 64 - 2 ^ 20 := by decide +kernel

theorem wit_VendorSpdmRequestsNeedTheirOwner :
    ((speaking ⟨8, 1, true, true, 77⟩).vendorChan 8 = true ∧ (speaking ⟨8, 1, true, true, 77⟩).spdmUp 8 = true ∧
      (speaking ⟨8, 1, true, true, 77⟩).connStage 8 = 3 ∧ up.vendorChan 9 = false ∧ up.vendorChan 0 = false) ∧
    (speaking ⟨8, 1, true, true, 77⟩).owners.getLast? = some 77 ∧ (zeros 79).length ≠ 80 ∧
    (∀ good, up.certOk (zeros 79) good = false) := by
  refine ⟨by decide +kernel, by simp [State.owners, speaking], by decide, fun good => ?_⟩
  simp [State.certOk, zeros]

theorem wit_VendorSpdmRequestsNeedTheirOwner_fuses (h : bits Config.fuseSecStat.toNat 29 28 ≠ 2) :
    up.owners.length < 4 ∧ { up with sec := { up.sec with seeds := [1, 2, 3, 4] } }.owners.length = 4 := by
  simp [State.owners, up, State.reset, h]

/-- A blob of key generation 0. -/
def blob : List Byte := leBytes 4 0x424B5150 ++ zeros 100

theorem wit_KeySlotsLoadAndAlarm :
    up.mailUp = true ∧ up.mbAdmin bmc = true ∧ ([223, 0, 0, 0] : List Byte).length = 4 + leAt ([223, 0, 0, 0] : List Byte) 2 2 ∧
    leAt ([223, 0, 104, 0] ++ blob) 2 2 = 104 ∧ ([223, 0, 104, 0] ++ blob).length = 4 + 104 ∧
    (up.setLive .SEC_STAT 0 (2 ^ F.SEC_STAT_latch.lo)).fld F.SEC_STAT_latch 0 = 1 ∧ (up.setLive .SEC_STAT 0 0).fld F.SEC_STAT_latch 0 = 0 ∧
    (up.setLive .SEC_STAT 0 (2 ^ F.SEC_STAT_kek.lo)).fld F.SEC_STAT_kek 0 = 1 ∧
    (upWith F.SEC_SLOT_state 223 1).keyLoaded 223 = true ∧ (upWith F.SEC_SLOT_state 223 1).keyId 223 = 0 ∧
    (upWith F.SEC_SLOT_state 223 1).keyLoaded 222 = false ∧ up.sec.loads = [] ∧
    { up with sec := { up.sec with loads := [⟨223, 1, 9, [], none⟩] } }.sec.loads = [⟨223, 1, 9, [], none⟩] ∧
    linked.fld F.HPORT_STAT_up 0 = 1 ∧ (7 : Nat) < 8 ∧
    (∀ m ∈ [0, 0x7F], ((up.setLive .SEC_ALARM 0 (m * 0x10000)).fld F.SEC_ALARM_mask 0) = m) ∧
    { up with sec := { up.sec with latchDue := true } }.sec.latchDue = true := by decide +kernel

theorem wit_FirmwareFlashPortCommands :
    (4 : Nat) < 5 ∧ up.portBusy 4 = false ∧ up.core.reads = [] ∧ up.fwRunning 3 = none ∧ up.fwAddr 4 % 256 = 0 ∧
    (upWith F.FWF_ADDR_offset 4 1).fwAddr 4 % 256 = 1 ∧ fwSector 0x2000 ≠ 2 ∧ fwSector 0x2000 ≠ 3 ∧
    { up with core := { up.core with ops := [(3, [⟨4, true, 0x3000000, [], false⟩])] } }.portBusy 4 = true ∧
    (fwBase (fwSector 0x3000000) = 0x3000000 ∧ up.fwProtected (fwSector 0x3000000) = false ∧
      (up.fwFetch 4 4).fwSelf 4 3 = false ∧ (up.fwFetch 0 3).fwSelf 0 3 = true ∧ (up.fwFetch 4 4).fwBarred 0 0 = true ∧
      up.fwBarred 4 (fwSector 0x3000000) = false ∧ up.fwRoom true 0x3000000 = true ∧ 0x30000 ∉ up.core.pages) ∧
    (upWith F.FWF_PROT_prot 16 0xFFFFFFFF).fwProtected 512 = true ∧
    ({ up with core := { up.core with ops := [(0, [⟨4, true, 0, [], true⟩])] } }.fwOps 0 =
      [⟨4, true, 0, [], true⟩]) ∧
    (upWith F.FWF_PWD_STAT_locked 0 1).fld F.FWF_PWD_STAT_locked 0 = 1 ∧
    (upWith F.FWF_PWD_STAT_locked 0 0).fld F.FWF_PWD_STAT_locked 0 = 0 := by decide +kernel

theorem wit_FirmwarePasswordSequence :
    (∀ n ∈ [0, 1, 2, 5, 6], { up with core := { up.core with seqPlace := n } }.core.seqPlace = n) ∧
    { up with core := { up.core with words := [1, 2, 3, 4] } }.core.words = [1, 2, 3, 4] ∧ up.pwdRefused = false ∧
    { (upWith F.FWF_PWD_STAT_fails 0 1) with core := { up.core with failedAt := some 0 } }.pwdRefused = true := by decide +kernel

theorem wit_StageCoresWatchdogsAndTemperature :
    (3 : Nat) < 4 ∧ up.pwr.ctlUp = true ∧
    { up with core := { up.core with kicked := [0, 1, 2, 3], svnPending := some 5 } }.core.svnPending = some 5 ∧
    ([0, 1, 2, 3] : List Nat).length = 4 ∧ up.fld F.STC_STAT_state 3 = 0 ∧ (upWith F.STC_STAT_state 3 2).fld F.STC_STAT_state 3 = 2 ∧
    (upWith F.STC_STAT_state 3 3).fld F.STC_STAT_state 3 = 3 ∧ (upWith F.STC_STAT_state 3 1).fld F.STC_STAT_state 3 = 1 ∧
    up.running 0x08 = none ∧ (starting 2 1 0).pwr.step < 3 ∧ (starting 3 5 0).pwr.step = 3 ∧ up.fld F.CURT_THERM_throttle 0 = 0 ∧
    { up with sen := { up.sen with hotSamples := 2 }, pwr := { up.pwr with ctlUp := false } }.pwr.ctlUp = false := by
  decide +kernel

theorem wit_FirmwareUpdateOverTheMailbox :
    up.mailUp = true ∧ (zeros 129).length = 129 ∧ leAt (zeros 129) 0 1 ≤ 3 ∧ up.fwOps 3 = [] ∧ up.core.pages = [] ∧
    up.fwProtected (fwSector 0x3000000) = false ∧ leAt ([0, 0, 0, 0, 1] ++ zeros 124) 4 4 * 128 % 256 ≠ 0 ∧
    { up with core := { up.core with ops := [(3, [⟨4, true, 0x3000000, [], false⟩])] } }.fwOps 3 ≠ [] ∧
    (∀ s ∈ [0, 1], ∃ b ∈ [1, 2], b = (upWith F.CURT_BOOT_slot 0 s).idleSlot + 1) ∧ up.fwOps (up.idleSlot + 1) = [] ∧
    up.slotShut up.idleSlot = none := by decide +kernel

theorem wit_CheckUnitsPatrolAndLogFlush :
    up.pwr.ctlUp = true ∧ up.fld F.CHK_STAT_busy 7 = 0 ∧
    (up.ceTimes up.integ.rowCe (wide32 7 0)).length ≠ (upWith F.INT_CE_CFG_row_limit 0 9).fld F.INT_CE_CFG_row_limit 0 ∧
    (mapGet? (up.raiseD Ev.SRAM_UE 0).pb.ring 0).isSome = true ∧ up.flushDue = false ∧ up.pb.flushing = none ∧
    { (up.raiseD Ev.SRAM_UE 0) with clock := 1000, pb := { (up.raiseD Ev.SRAM_UE 0).pb with urgentAt := some 0 } }.flushDue
      = true ∧ (up.raiseD Ev.SRAM_UE 0).pbUnflushed ≠ [] ∧ up.inLoadIn = false := by decide +kernel

theorem wit_CacheMaintenanceOperations :
    (upWith F.SCACHE_MAINT_STAT_busy 0 1).fld F.SCACHE_MAINT_STAT_busy 0 = 1 ∧ up.fld F.SCACHE_MAINT_STAT_busy 0 = 0 ∧
    up.maintInside = true ∧ (upWith F.SCACHE_MAINT_ADDR_HI_dpa_hi 0 0xFFFF).maintInside = true ∧
    ((up.setLive .SCACHE_MAINT_ADDR_HI 0 0x1FFFF).setFld F.SCACHE_MAINT_ADDR_LO_dpa_lo 0 0x3FFFFFF).maintInside = false ∧
    bitB (up.fld F.SCACHE_WAYSTAT_soft 31) 15 = false ∧ up.cache.maint = none ∧
    up.cache.maintAt = none ∧ up.path.held = [] ∧
    { up with cache := { up.cache with maint := some 1, maintAt := some (9, 0, 64) } }.cache.maintAt = some (9, 0, 64) ∧
    (∀ w ∈ [0xA, 0xB, 7], { up with cache := { up.cache with maint := some w } }.cache.maint = some w) := by decide +kernel

/-- Channel 11 is frozen. -/
def frozen : State := upWith F.DMC_STAT_frozen 11 1

/-- A job of this activity and target, in this state. -/
def job (act target state : Nat) : Job := ⟨1, act, target, 0, 0, 0, .controller, state, 0, 0, 0, 0, none⟩

/-- One job in the scheduler. -/
def withJob (s : State) (j : Job) : State := { s with maint := { s.maint with jobs := [j] } }

theorem wit_DramChannelsInService :
    frozen.chanLive 11 = false ∧ up.chanLive 11 = true ∧ up.chanFrozen 11 = false ∧ frozen.chanFrozen 11 = true ∧
    (up.setFld F.DMC_STAT_temp 11 0).pauseDue 11 0 = false ∧
    { (up.setFld F.DMC_STAT_temp 11 90) with clock := 100000000 }.pauseDue 11 90 = true ∧
    (up.setChan 11 { Chan.init with trained := true }).chan 11 = { Chan.init with trained := true } ∧
    (withJob up (job 2 11 0)).mayStart (job 2 11 0) = true ∧ up.pauseHeld 11 = false ∧
    (up.setChan 11 { Chan.init with pauseDue := some 0 }).chan 11 = { Chan.init with pauseDue := some 0 } ∧
    Chan.init.lateRaised = false ∧ up.mergeFor 5 = none ∧
    { up with dram := { up.dram with merge := [⟨0, 5, 1, 0, 0⟩] } }.mergeFor 5 = some ⟨0, 5, 1, 0, 0⟩ ∧
    up.sceneOn 5 = false ∧ ((upWith F.SCENE_ACTIVE_set 0 0x21).setFld F.DMC_CTL_idle_sr 11 1).sceneOn 5 = true ∧
    ((upWith F.SCENE_ACTIVE_set 0 0x21).setFld F.DMC_CTL_idle_sr 11 1).fld F.DMC_CTL_idle_sr 11 ≠ 0 ∧ up.dram.merge = [] ∧
    (upWith F.DMC_SCRUB_CFG_enable 11 1).fld F.DMC_SCRUB_CFG_enable 11 = 1 ∧ chanOf 11 = 11 ∧ up.folioIn 11 = none := by
  decide +kernel

/-- A retraining of channel 11 is due, and its job waits. -/
def retraining : State :=
  withJob (((up.setFld F.DMC_STAT_temp 11 90).setChan 11 { Chan.init with trained := true })) (job 2 11 0)

theorem wit_DramChannelsInService_pause :
    let s : State := { retraining with clock := 100000000 }
    let u := s.setFld F.DMC_STAT_temp 11 90
    let v := u.setChan 11 { u.chan 11 with pauseDue := some ((u.chan 11).pauseDue.getD u.clock) }
    u.pauseDue 11 90 = true ∧ (u.chan 11).trained = true ∧ v.maint.jobs = [job 2 11 0] ∧ (job 2 11 0).act = 2 ∧
    v.pauseHeld 11 = false ∧ (v.chan 11).lastPause + 20000 ≤ v.clock ∧ v.mayStart (job 2 11 0) = true ∧
    (up.setChan 11 { Chan.init with pauseDue := some 0 }).chan 11 = { Chan.init with pauseDue := some 0 } := by decide +kernel

theorem wit_DramChannelsInService_scrub : eccVerdict [9, 10, 10, 10, 10, 10, 10, 10] = .corrected 9 ∧
    eccVerdict [0, 1, 10, 10, 10, 10, 10, 10] = .uncorrectable := by decide +kernel

theorem wit_MaintenanceJobsAreSubmittedAndStarted :
    up.pwr.ctlUp = true ∧ State.reset.pwr.ctlUp = false ∧ up.mailUp = true ∧ up.mbAdmin bmc = true ∧ up.mbAdmin 0 = false ∧
    submitIll .firmware 2 12 0 0 0 = true ∧
    (withJob up (job 6 0 1)).submitStatus .controller false 7 0 0 0 0 = St.CONFLICT ∧
    up.submitStatus .firmware false 2 11 0 0 0 = St.DONE ∧ (withJob up (job 2 11 0)).job 1 = some (job 2 11 0) ∧
    (withJob { up with clock := 20000 } (job 2 11 0)).startable (job 2 11 0) = true ∧ (withJob up (job 2 11 1)).startable (job 2 11 1) = false ∧
    up.job 1 = none ∧ (withJob { up with clock := 20000 } (job 2 11 0)).maint.jobs.find? (withJob { up with clock := 20000 } (job 2 11 0)).startable = some (job 2 11 0) ∧
    up.maint.jobs.find? up.startable = none ∧
    (upWith F.TWIN_STAT_role 0 1).role = 1 ∧ (upWith F.TWIN_STAT_synced 0 1).synced = true ∧ up.role ≠ 1 ∧
    up.fld F.SCR_STAT_state 35 ≠ 1 ∧ (upWith F.SCR_STAT_state 35 1).fld F.SCR_STAT_state 35 = 1 ∧
    (up.setFld F.SCL_STAT_spare 3 15).fld F.SCL_STAT_spare 3 = 15 ∧ bitB 0 16 = false ∧ bitB 2 0 = false := by decide +kernel

theorem wit_JobsEndByTheirWorkOrByCancel :
    up.mailUp = true ∧ up.mbAdmin bmc = true ∧ up.mbAdmin 0 = false ∧ leAt (leBytes 4 1) 0 4 = 1 ∧ up.job 1 = none ∧
    (∀ st ∈ [0, 1, 2], ∀ act ∈ [1, 13], (withJob up (job act 0 st)).job 1 = some (job act 0 st)) ∧
    (job 1 0 0).waiter = none ∧ leAt ([15, 0] : List Byte) 1 1 = 0 ∧ leAt ([15, 0] : List Byte) 0 1 < 16 ∧
    up.removeStatus 15 = St.DONE ∧ (upWith F.QUIRE_SLOT_STAT_state 15 3).removeStatus 15 ≠ St.DONE ∧
    up.submitStatus (.mailbox bmc) false 6 15 0 0 0 = St.DONE ∧ leAt ([12] : List Byte) 0 1 = 12 ∧
    (frozen.setFld F.DMC_STAT_snap_read 11 1).chanFrozen 11 = true ∧
    (frozen.setFld F.DMC_STAT_snap_read 11 1).flag F.DMC_STAT_snap_read 11 = true ∧
    (frozen.setFld F.DMC_STAT_snap_read 11 1).submitStatus (.mailbox bmc) false 3 11 0 0 0 = St.DONE ∧
    up.submitStatus (.mailbox bmc) false 13 0xFFFF 2 0 0 = St.DONE ∧
    (withJob up (job 13 0xFFFF 1)).submitStatus (.mailbox bmc) false 13 0xFFFF 2 0 0 ≠ St.DONE ∧ up.scr.swap = none ∧
    { up with scr := { up.scr with swap := some (3, 0, true) } }.scr.swap = some (3, 0, true) := by decide +kernel

/-- Slot 15 in a state. -/
def slotIn (state : Nat) : State := upWith F.QUIRE_SLOT_STAT_state 15 state

theorem wit_CartridgesComeAndGo :
    (slotIn 0).slotState 15 = 0 ∧ (slotIn 1).slotState 15 = 1 ∧ (slotIn 4).slotState 15 = 4 ∧ (slotIn 5).slotState 15 = 5 ∧
    8 ≤ up.pwr.step ∧ up.maint.jobs.find? (fun j => j.act == 7 && j.target == 15 && j.state == 0) = none ∧
    (withJob up (job 7 15 0)).mayStart (job 7 15 0) = true ∧
    (((slotIn 1).setFld F.QUIRE_SLOT_STAT_pwr_en 15 1).flag F.QUIRE_SLOT_STAT_pwr_en 15 = true ∧
      (slotIn 1).flag F.QUIRE_SLOT_STAT_pgood 15 = false ∧ (1 : Nat) % 4 ≠ 0) ∧
    ((slotIn 1).setFld F.QUIRE_SLOT_STAT_pgood 15 1).flag F.QUIRE_SLOT_STAT_pgood 15 = true ∧ (up.cart 15).pwrSince = none ∧
    (up.setCart 15 { Cart.init with pwrSince := some 0 }).cart 15 = { Cart.init with pwrSince := some 0 } ∧
    (up.cart 15).locateUntil ≤ up.clock ∧
    up.clock < ((up.setCart 15 { Cart.init with locateUntil := 1 }).cart 15).locateUntil := by decide +kernel

/-- A group of this number and state, of width 1. -/
def group (num state : Nat) : Group :=
  { num := num, state := state, width := 1, layout := 0, members := [], serials := [], next := 0, first := num, reserve := false,
    lostQuires := [] }

/-- All sixteen slots serve, key slot 254 is loaded, three folios are due, and there is one group. -/
def writing (g : Group) : State :=
  let s := (upto 16).foldl (fun st k => st.setFld F.QUIRE_SLOT_STAT_state k 3) (upWith F.SEC_SLOT_state 254 1)
  { s with ink := { s.ink with folios := [0, 1, 2].map (fun k =>
             (k, { Folio.init true with state := .dirty, ahead := some k })) }
           flash := { s.flash with groups := [g] } }

theorem wit_QuiresAreOpenedProgrammedAndErased :
    up.mayWrite = false ∧ (writing (group 7 1)).mayWrite = true ∧ (writing (group 7 2)).quireGroup [] = none ∧
    (writing (group 7 1)).quireGroup [] = some (group 7 1, writing (group 7 1)) ∧
    (writing (group 7 1)).flash.journal.ckptQueue = [] ∧ (writing (group 7 1)).flash.relocating = [] ∧
    ((writing (group 7 1)).dueFolios.take 3).length = 3 ∧ (writing (group 7 1)).quireRoom (group 7 1) 3 0 = true := by
  decide +kernel

theorem wit_QuiresAreOpenedProgrammedAndErased_programs :
    let q : QuireJob := ⟨7 * 1024, 1, 1, [], [0, 1], false⟩
    let l : JLeaf := ⟨9, 0, [], [], [15], false, false, []⟩
    ({ (writing (group 7 1)) with flash := { (writing (group 7 1)).flash with quires := [q] } }.flash.quires.find?
      (fun q => q.quire == 7 * 1024)) = some q ∧ (writing (group 7 1)).groupOf (7 * 1024 / 1024) = some (group 7 1) ∧
    1 ∈ q.done ∧ 2 ∉ q.done ∧ q.width + 2 = 3 ∧ (setIns q.done 2).length = 3 ∧
    [l].find? (fun l => l.index == 9) = some l ∧ 15 ∈ l.programming ∧ 14 ∉ l.programming ∧
    (∃ e ∈ [(⟨5⟩ : EraseJob)], e.block = 5) ∧ up.flash.journal.openSince = none := by decide +kernel

theorem wit_ReclaimRebuildAndReshapeMoveFolios :
    up.mayWrite = false ∧ (writing (group 7 2)).mayWrite = true ∧
    (upWith F.QUIRE_FREE_free 0 99).fld F.QUIRE_FREE_free 0 = 99 ∧
    up.fld F.QUIRE_FREE_free 0 < (upWith F.QUIRE_RECLAIM_CFG_free_low 0 4).fld F.QUIRE_RECLAIM_CFG_free_low 0 / 4 ∧
    (writing (group 7 2)).victimGroup = some (group 7 2) ∧ up.flash.urgentAt = none ∧ up.flash.groups = [] ∧
    up.flash.victim = none ∧ (upWith F.SEC_SLOT_state 254 1).keyLoaded (up.flashKey 5) = true ∧ up.keyLoaded (up.flashKey 5) = false ∧
    up.innerRoom 8 = true ∧
    up.rebuildCheck.running 4 = none ∧ (withJob up (job 4 0xFFFF 1)).running 4 = some (job 4 0xFFFF 1) ∧
    up.rebuildNext = none ∧ (withJob up (job 5 0xFFFF 1)).running 5 = some (job 5 0xFFFF 1) ∧ up.reshapeNext = none ∧
    (writing (group 7 2)).reshapeNext = some (group 7 2) ∧ (writing (group 7 2)).running 4 = none ∧
    (group 7 2).state ≠ 1 ∧ up.flash.reshapeAt = none := by decide +kernel

/-- A state with another sentinel unit. -/
def withSen (s : State) (n : SentUnit) : State := { s with sen := n }

/-- The twin link is up, and its role is 1. -/
def twinned : State := (upWith F.TWIN_STAT_link 0 4).setFld F.TWIN_STAT_role 0 1

theorem wit_LoadInBeginsAndTheStrikeEnds :
    up.inLoadIn = false ∧ loadingIn.inLoadIn = true ∧ loadingIn.sen.loadStep = 0 ∧
    { loadingIn.sen with loadStep := 1 }.loadStep = 1 ∧ loadingIn.sen.reserveRaised = false ∧
    loadingIn.reserveOk = false ∧ up.inStrike = false ∧ up.flag F.SENT_STAT_testing 0 = false ∧
    ((up.setLive .SENT_BANK_FUSE 0 0xFF).fld F.SENT_BANK_FUSE_v_chg 0 = 255 ∨
      (up.setLive .SENT_BANK_FUSE 0 0xFFFFFFFF).fld F.SENT_BANK_FUSE_v_chg 0 = 255) ∧
    (striking 1).inStrike = true ∧ (striking 1).sen.strikeOver = false ∧ (striking 1).flash.quires = [] ∧
    (striking 2).fld F.CURT_STRIKE_cause 0 ≠ 1 := by decide +kernel

theorem wit_LoadInBeginsAndTheStrikeEnds_leaf :
    InOrder twinned ⟨0, 1, 0⟩ ∧ (taken (withSen twinned { up.sen with loadNeed := some 9 }) ⟨0, 1, 0⟩).sen.loadNeed = some 9 ∧
    (taken twinned ⟨0, 1, 0⟩).sen.loadNeed = none ∧ (taken (twinned.setFld F.TWIN_STAT_role 0 2) ⟨0, 1, 0⟩).role = 2 := by
  unfold InOrder; decide +kernel

theorem wit_MainsDisturbancesAreClassed :
    bitB 0x80000000 31 = true ∧ mainsTrouble ⟨true, true, 4095⟩ = true ∧ mainsTrouble ⟨false, true, 2432⟩ = false ∧
    mainsTrouble ⟨false, true, 2431⟩ = true ∧ up.sen.distSince = none ∧ up.inStrike = false ∧ up.pwr.aonUp = true ∧
    (withSen up { up.sen with distSince := some 0 }).sen.distSince = some 0 ∧ up.sen.sagSince = none ∧
    up.sagMet = false ∧ up.dropMet = false ∧
    { (withSen up { up.sen with lowSince := some 0 }) with clock := 200 }.sagMet = true ∧
    { (withSen up { up.sen with lowSince := some 0 }) with clock := 199 }.sagMet = false ∧
    ({ (withSen up { up.sen with goodSince := some 0, sagSince := some 0 }) with clock := 500000 }.senseBulk
      ⟨false, true, 2475⟩).heldFor ({ (withSen up { up.sen with goodSince := some 0, sagSince := some 0 }) with
        clock := 500000 }.senseBulk ⟨false, true, 2475⟩).sen.goodSince 500000 = true ∧
    (up.senseBulk ⟨true, true, 2475⟩).heldFor (up.senseBulk ⟨true, true, 2475⟩).sen.goodSince 500000 = false ∧
    (withSen up { up.sen with holdUntil := some 0 }).sen.holdUntil = some 0 := by decide +kernel

theorem wit_HoldupTestsMeasureTheBank :
    up.testDueSince = none ∧ (withSen up { up.sen with atCharge := true }).testMay = true ∧ up.testMay = false ∧
    up.running 0x0D = none ∧ (withSen up { up.sen with testDue := some 0 }).testDueSince = some 0 ∧ up.sen.testLate = false ∧
    up.flag F.SENT_STAT_testing 0 = false ∧ (upWith F.SENT_STAT_testing 0 1).flag F.SENT_STAT_testing 0 = true ∧
    (starting 6 5 60000000).sen.bankSince + 60000000 ≤ (starting 6 5 60000000).clock ∧
    (starting 6 5 0).sen.measured = false ∧ (starting 6 5 0).sen.atCharge = false := by decide +kernel

theorem wit_HoldupTestsMeasureTheBank_esr (h : Config.fuseEsrMax.toNat < 65535) :
    (up.setLive .SENT_BANK_FUSE 0 0xFFFFFFFF).testEsr 64 1 ≤ Config.fuseEsrMax.toNat ∧
    Config.fuseEsrMax.toNat < (up.setLive .SENT_BANK_FUSE 0 0xFFFFFFFF).testEsr (2 ^ 40) 1 := by
  have low : (up.setLive .SENT_BANK_FUSE 0 0xFFFFFFFF).testEsr 64 1 = 0 := by decide +kernel
  have high : (up.setLive .SENT_BANK_FUSE 0 0xFFFFFFFF).testEsr (2 ^ 40) 1 = 65535 := by decide +kernel
  omega

/-- Entry 31 of the PMBus table is valid, for group 0 and band 0; the band has no bounds and the group no interval. -/
def bus : State :=
  (((upWith F.SENT_PMB_TAB_valid 31 1).setLive .CURT_BAND 0 0xFFFF0000).setLive .CURT_SEQ 0 0)

theorem wit_ThePmbusFilterPassesItsTable :
    bus.inStrike = false ∧ bus.pmbValid 31 = true ∧ up.pmbValid 31 = false ∧ (striking 1).inStrike = true ∧
    (bus.inBand 31 0 = true ∨ (bus.setLive .CURT_BAND 0 0xFFFF).inBand 31 0 = true) ∧
    (bus.inBand 31 0xFFFF = false ∨ (bus.setLive .CURT_BAND 0 0).inBand 31 0xFFFF = false) ∧
    (bus.setFld F.SENT_PMB_TAB_self 31 1).flag F.SENT_PMB_TAB_self 31 = true ∧ bus.flag F.SENT_PMB_TAB_self 31 = false ∧
    bus.fld F.SENT_PMB_TAB_group 31 = 0 ∧ mapGet? bus.sen.railOps 0 = none ∧
    (bus.clock < 0 + ((bus.setFld F.CURT_SEQ_interval 0 1).fld F.CURT_SEQ_interval 0) * 1000) ∧
    bus.fld F.CURT_SEQ_interval 0 = 0 ∧ (upWith F.SENT_DVFS_raise 0 1).flag F.SENT_DVFS_raise 0 = true ∧
    (upWith F.SENT_DVFS_ready 0 0).flag F.SENT_DVFS_ready 0 = false ∧ up.flag F.SENT_DVFS_raise 0 = false := by decide +kernel

theorem wit_PowerCapAndEnergyMeters :
    up.inStrike = false ∧ up.powerCap * 1000 < (withSen up { up.sen with power := [110001] }).powerMean ∧ up.sen.steps = 0 ∧
    up.powerMean + 2000 ≤ up.powerCap * 1000 ∧
    (withSen up { up.sen with coolSince := some 0 }).sen.coolSince = some 0 ∧
    (∀ p ∈ [up.powerCap * 1000, up.powerCap * 1000 - 1999],
      (withSen up { up.sen with power := [p] }).powerMean ≤ up.powerCap * 1000 ∧
      up.powerCap * 1000 < (withSen up { up.sen with power := [p] }).powerMean + 2000) ∧
    up.meter 255 + (mapGet 0 up.sen.meterFrac 255 + 0) / unitsPerMj < 2 ^ 64 := by decide +kernel

theorem wit_TwinMessagesAreCheckedBeforeTheyAreTaken :
    TwinMessage ⟨5, 1, 0⟩ (.ack ⟨5, 1, 0⟩) ∧ up.twinUp = false ∧ twinned.twinUp = true ∧ twinned.fld F.SEC_SLOT_state 240 ≠ 2 ∧
    (twinned.setFld F.SEC_SLOT_state 240 2).fld F.SEC_SLOT_state 240 = 2 ∧ twinned.twin.toSettle = false ∧ twinned.epoch = 0 ∧
    (twinned.setFld F.CURT_EPOCH_epoch 0 0xFFFFFFFF).epoch = 0xFFFFFFFF ∧ (0 : Nat) ≠ (twinned.twin.recvSeq + 1) % 2 ^ 32 ∧
    twinned.twin.handover = none := by
  refine ⟨Or.inr (Or.inl rfl), ?_⟩
  decide +kernel

/-- The twin link of an understudy, with region 3 persistent, mirrored SYNC, over granule 0. -/
def understudy : State :=
  (((twinned.setFld F.TWIN_STAT_role 0 2).setFld F.TWIN_STAT_synced 0 1).setTab (0x840000 + 3 * 32) (2 ^ 63)).setTab
    (0x840000 + 3 * 32 + 8) (2 ^ 14 + 2 * 2 ^ 12)

/-- A state with another twin unit. -/
def withTwin (s : State) (t : TwinUnit) : State := { s with twin := t }

theorem wit_TwinMessagesDoWhatTheirTypeSays :
    InOrder understudy ⟨0, 1, 0⟩ ∧ (taken understudy ⟨0, 1, 0⟩).role = 2 ∧ (taken twinned ⟨0, 1, 0⟩).role = 1 ∧
    understudy.twin.ackedSeq = understudy.twin.recvSeq ∧
    (withTwin understudy { up.twin with ackedSeq := 7 }).twin.ackedSeq ≠ understudy.twin.recvSeq ∧
    ([⟨0, 1, 0⟩] : List LineWrite).take 64 = ⟨0, 1, 0⟩ :: [] ∧
    (taken { understudy with region := { understudy.region with tableSync := [9], commit := some .core } } ⟨0, 1, 0⟩).region.commit
      = some .core ∧ 9 ∈ ([9] : List Nat) ∧ St.FENCED ≠ St.DONE ∧
    (taken (withTwin understudy { up.twin with resyncSends := true, bitmapDue := true }) ⟨0, 1, 0⟩).twin.bitmapDue = true ∧
    ((taken understudy ⟨0, 1, 0⟩).regionAt (4095 * 65536)).map (fun e => (e.idx, e.persistent, e.mirror)) = some (3, true, 2) ∧
    ((taken understudy ⟨0, 1, 0⟩).regionAt (4096 * 65536)).isNone = true ∧
    (taken understudy ⟨0, 1, 0⟩).synced = true ∧ (taken twinned ⟨0, 1, 0⟩).synced = false ∧
    (taken understudy ⟨0, 1, 0⟩).fld F.TWIN_STAT_resync 0 = 0 ∧ ((taken understudy ⟨0, 1, 0⟩).folio 5).state ≠ .absent ∧
    (taken (withTwin understudy { up.twin with fetches := [⟨4, 5, .staging, 0, false⟩] }) ⟨0, 1, 0⟩).twin.fetches.find?
      (fun j => j.id == 4) = some ⟨4, 5, .staging, 0, false⟩ ∧
    (taken { understudy with flash := { up.flash with twinCopies := [(4, (0, []))] } } ⟨0, 1, 0⟩).flash.twinCopies = [(4, (0, []))] ∧
    (taken (withTwin twinned { up.twin with handover := some 3 }) ⟨0, 1, 0⟩).twin.handover ≠ none := by
  unfold InOrder; decide +kernel

/-- The twin link is enabled and has not said HELLO. -/
def enabled (link : Nat) : State := (upWith F.TWIN_CFG_enable 0 1).setFld F.TWIN_STAT_link 0 link

theorem wit_TwinRolesLeasesAndTimers :
    ((enabled 2).twinUp = false ∧ (enabled 2).pairs = true ∧ (enabled 2).fld F.TWIN_STAT_link 0 < 3 ∧ (enabled 3).pairs = true ∧
      up.pairs = false ∧ (enabled 7).fld F.TWIN_STAT_link 0 = 7 ∧ (enabled 6).fld F.TWIN_STAT_link 0 = 6) ∧
    up.twin.width0 = 0 ∧ up.twin.width1 = 0 ∧ twinned.twinUp = true ∧ twinned.fld F.TWIN_STAT_link 0 ≠ 5 ∧
    (withTwin twinned { up.twin with width1 := 8 }).twin.width1 ≠ 0 ∧
    (up.countNonce 9).2 = true ∧ up.fld F.SEC_SLOT_state 242 ≠ 2 ∧
    ((((enabled 3).helloNote ⟨1, 0, 0, false, false, 0, 0, false, 0⟩).helloId 1).helloUp.mayTakeRole = true) ∧
    (((({ (enabled 3) with pwr := { up.pwr with step := 7 } }).helloNote ⟨1, 0, 0, false, false, 0, 0, false, 0⟩).helloId 1).helloUp.mayTakeRole
      = false) ∧
    { twinned with clock := 2000 }.twin.lastBeat + 2000 ≤ { twinned with clock := 2000 }.clock ∧
    twinned.clock < twinned.twin.lastBeat + 2000 ∧ twinned.twin.heartbeatStopped = false ∧
    (withTwin twinned { up.twin with leaseEnd := some 0 }).twin.leaseEnd = some 0 ∧
    { understudy with clock := 6000 }.twin.lastHeard + 6000 ≤ 6000 ∧ understudy.synced = true ∧ up.twin.lostRaised = false ∧
    understudy.epoch < 0xFFFFFFFF ∧ understudy.epochRoom = true ∧ (twinned.setFld F.TWIN_STAT_fenced 0 1).fenced = true ∧
    (withTwin twinned { up.twin with newLeadSince := some 0 }).twin.newLeadSince = some 0 ∧ up.maint.jobs = [] ∧
    (withTwin twinned { up.twin with resyncSends := true, resyncLeft := [5] }).twin.resyncLeft = 5 :: [] ∧
    (withTwin up { up.twin with fetches := [⟨4, 5, .staging, 0, false⟩] }).twin.fetches.find? (fun j => j.id == 4) =
      some ⟨4, 5, .staging, 0, false⟩ ∧ up.clock < 0 + (upWith F.TWIN_CFG_fetch_ms 0 1).fld F.TWIN_CFG_fetch_ms 0 * 1000 ∧
    up.ink.building = false := by decide +kernel

/-- Two ink folios, one of which has its second copy. -/
def copying (n : Nat) : State :=
  { (upWith F.TWIN_STAT_role 0 3) with
    ink := { up.ink with building := true, folios := (upto n).map (fun k =>
      (k, { Folio.init true with state := .dirty, frame := k, dramLines := 1, pairFrame := some (k + 6) })) } }

theorem wit_TwinRolesLeasesAndTimers_copies :
    ((copying 2).buildSecond 1).lacking ≠ [] ∧ ((copying 1).buildSecond 0).lacking = [] ∧
    ((copying 1).folio 0).isInk = true ∧ ((copying 1).folio 0).covered = false ∧ ((copying 1).folio 0).state ≠ .absent ∧
    (copying 1).chanFrozen (chanOf ((copying 1).folio 0).frame) = false ∧
    ((((copying 1).folioCells 0).2.takePair 0).folio 0).pairFrame ≠ none := by
  decide +kernel

/-- A queue pair of depth 4,096 with these slots. -/
def pair (subTail : Nat) (slots : List (Nat × QSlot)) : Queue :=
  { depth := 4096, vector := 0, prio := 3, sub := 0, cpl := 0, subHead := 0, subTail := subTail, cplHead := 0, cplTail := 0,
    cplPhase := 0, noteHead := 0, noteTail := 0, notePhase := 0, noteCount := 0, slots := slots, deleting := none }

/-- Queue 4095 of logical device 127. -/
def queued (q : Queue) : State := { up with que := { up.que with pairs := [(127 * 4096 + 4095, q)] } }

theorem wit_TicketsAreFetchedAdmittedAndCompleted :
    up.que.bells = [] ∧ up.que.pairs = [] ∧ up.queue 127 (bits (4095 * 2 ^ 32) 47 32) = none ∧
    Claims.Bell (queued (pair 4095 [])) 127 4095 (pair 4095 []) ∧ (pair 0 []).depth ≤ 4096 ∧
    ((pair 0 []).subTail + 4096 - (pair 0 []).subHead) % 4096 + (4095 + 4096 - 0) % 4096 = 4095 ∧
    ((pair 4095 []).subTail + 4096 - 0) % 4096 + (0 + 4096 - 4095) % 4096 = 4096 ∧
    (0 + 4096 - 0) % 4096 ≤ (pair 0 []).count .written ∧ (pair 0 []).count .written < (1 + 4096 - 0) % 4096 ∧
    (pair 0 []).noteCount < (1 + 4096 - 0) % 4096 ∧ 0 < (pair 1 []).waiting ∧ (queued (pair 1 [])).allLive < 2048 ∧
    (queued (pair 1 [])).ldLive 127 < ((queued (pair 1 [])).setFld F.QUEUE_ADMIT_CFG_ld_max 0 1).fld F.QUEUE_ADMIT_CFG_ld_max 0 ∧
    tk ((queued (pair 1 [])).headTicket 127 (pair 1 [])) 6 1 = ((pair 1 []).slot 0).gen ∧
    tk ((queued (pair 1 [(0, { QSlot.init with gen := 1 })])).headTicket 127 (pair 1 [])) 6 1 ≠
      ((pair 1 [(0, { QSlot.init with gen := 1 })]).slot 0).gen ∧
    ((pair 1 []).slot 0).state = .free ∧ up.script 127 0 = none ∧ up.que.coal = [] := by
  unfold Claims.Bell; decide +kernel

theorem wit_AbortsEndTicketsInEveryState :
    (∀ st ∈ [SlotState.free, .admitted, .running, .written], ∀ a ∈ [true, false],
      Claims.Bell (queued (pair 0 [(4095, { QSlot.init with state := st, aborted := a })])) 127 4095
        (pair 0 [(4095, { QSlot.init with state := st, aborted := a })])) ∧
    (pair 0 []).waiting = 0 ∧ ((pair 0 []).slot 4095).gen = 0 ∧ (255 : Nat) ≠ 0 ∧ (pair 0 []).noteCount < (pair 0 []).depth ∧
    { pair 0 [] with noteCount := 4096 }.depth ≤ { pair 0 [] with noteCount := 4096 }.noteCount := by
  unfold Claims.Bell; decide +kernel

/-- A script in cluster 0 with one TEXT section of one instruction at offset 64, and a handler at offset 128. -/
def script (handler : Nat) : Script :=
  { ld := 0, id := 0, bases := [(0, 0)], size := 4096, resFoot := 4096, inkFoot := 4096, entry := 64, handler := handler,
    sections := [⟨1, 64, 4, 0⟩], damaged := [] }

/-- A context of that script at its entry. -/
def context : Ctx :=
  { x := [], v := [], p := [], pc := 2 ^ 60 + 64, win := 0, cause := 0, epc := 0, handler := false, sealOpen := false,
    sealLines := [], sealBuf := [], ops := [], stores := [], block := .none, inkBase := 0, script := 0, ld := 0, queue := 0,
    slot := 0, gen := 0, ticket := 0, ident := 0, desc := [], abortNote := false, silent := false }

/-- Context 15 of scribe 0 stands in front of the word. -/
def running (w : Nat) (c : Ctx) : State :=
  { up with scr := { up.scr with ctxs := [(15, c)], scripts := [script 128],
                                 reservoir := memWriteN 0 [] 64 (leBytes 4 w) } }

theorem wit_ContextsStartFailAndTakeAnswers :
    (let q := pair 0 [(4095, { QSlot.init with state := .admitted })]
     let s : State := { (queued q) with scr := { up.scr with scripts := [{ script 0 with ld := 127 }] } }
     s.admittedOrder = [(127 * 4096 + 4095, 4095)] ∧ s.script 127 (tk (q.slot 4095).ticket 8 2) = some { script 0 with ld := 127 } ∧
       s.chooseScribe { script 0 with ld := 127 } = none ∧
       ((s.setFld F.SCR_STAT_state 0 1).setLive .SCL_MAP 0 0xFFFFFFF0).chooseScribe { script 0 with ld := 127 } = some 0) ∧
    (upto 16).find? (fun c => (up.ctx (35 * 16 + c)).isNone) = some 0 ∧ firstFit (up.inkGaps 35) ((script 0).inkFoot / 4096) = some 0 ∧
    bitB (tk (QSlot.init).ticket 1 1) 1 = false ∧ up.fld F.SCR_STAT_state 35 ≠ 1 ∧
    (upWith F.SCR_STAT_state 35 1).fld F.SCR_STAT_state 35 = 1 ∧ (upWith F.SCR_STAT_state 35 1).ctxsOf 35 = [] ∧
    (upWith F.SCL_STAT_spare 3 8).fld F.SCL_STAT_spare 3 < 9 ∧ 9 ≤ up.fld F.SCL_STAT_spare 3 ∧
    up.path.results.find? (fun r => r.scribe == 35 && r.ctx == 15) = none ∧
    ([⟨35, 15, 63, 0, 0⟩] : List ScriptResult).find? (fun r => r.scribe == 35 && r.ctx == 15) = some ⟨35, 15, 63, 0, 0⟩ ∧
    up.ctx (35 * 16 + 15) = none ∧ (running 0 context).ctx 15 = some context := by decide +kernel

/-- One word of every row of the instruction table, with registers at the top of their ranges. -/
def words : List Nat :=
  ([0, 1, 2, 0x10, 0x11, 0x12, 0x13, 0x14, 0x20, 0x21, 0x22, 0x23, 0x30, 0x31, 0x32, 0x33, 0x34, 0x35, 0x38, 0x39, 0x3A,
      0x3B, 0x40, 0x41, 0x42, 0x48, 0x49, 0x4A, 0x4B, 0x50, 0x51, 0x52, 0x53, 0x7FF].flatMap
        (fun f => [fA 1 31 31 31 f, fA 1 31 31 0 f])) ++
    ((upto 18).flatMap (fun k => [fI (k + 2) 31 31 65535, fI (k + 2) 0 0 63, fI (k + 2) 0 31 64])) ++
    [fM 0x18 31 31 3 0 4095, fM 0x18 31 31 3 1 0, fM 0x18 31 0 0 1 2048, fM 0x19 31 31 3 0 2047, fM 0x19 0 0 0 1 0,
      fA 0x1C 31 31 31 3, fA 0x1D 31 0 31 2, fA 0x1C 0 0 0 4] ++
    [fV 0x20 7 0 0 3 3 31 63, fV 0x20 7 7 0 0 0 0 0, fV 0x20 7 0 0 3 0 31 127, fV 0x21 7 0 0 3 2 31 32, fV 0x22 3 7 7 3 3 0 13,
      fV 0x22 7 7 7 3 3 0 13, fV 0x23 7 7 7 3 3 0 0, fV 0x24 0 7 0 3 3 31 1, fV 0x25 7 7 7 3 0 0 2, fV 0x25 0 7 0 3 0 31 3,
      fV 0x26 7 7 7 3 0 0 2, fV 0x26 0 7 0 3 0 31 3] ++
    [fS 0x28 0 0 0 0 0, fS 0x28 0 31 0 0 1, fS 0x28 0 0 0 0 2, fS 0x29 0 0 0 0 0, fS 0x29 0 0 0 0 1, fA 0x2A 31 31 31 0,
      fA 0x2A 0 31 31 1, fA 0x2B 31 31 31 7, fA 0x2B 31 31 31 8, fA 0x2C 31 31 31 0, fA 0x2D 31 31 31 0, fA 0x2E 31 31 0 0,
      fA 0x2E 31 31 0 1, fA 0x2F 31 31 0 0, fS 0x30 31 31 0 0 0, fS 0x3C 0 0 0 0 0, fS 0x3C 0 31 31 0 1, fS 0x3C 0 31 0 31 2,
      fS 0x3D 31 0 0 5 0, fS 0x3D 0 31 0 31 1]

/-- The hypothesis of every statement of an instruction: the context may issue its word. -/
theorem wit_Issues : ∀ w ∈ words, Issues (running w context) 0 15 context w := by
  unfold Issues; decide +kernel

/-- Each row of the table in turn is not the word that the context may issue. -/
theorem wit_InstructionsActOnlyWhenTheirWordMayIssue : ∀ c w, Issues up 0 15 c w →
    ¬ (w / 2 ^ 26 % 64 = 1 ∧ w &&& 0x7FF = 0) := by
  intro c w h
  have : up.ctx (0 * 16 + 15) = none := by decide +kernel
  exact absurd (h.2.1.symm.trans this) (by simp)

theorem wit_TrapsGoToTheHandlerOrEndTheTicket :
    context.loadsInFlight = false ∧
    { context with ops := [⟨0, .reg 1 8 false 0, 0, 0, 0⟩] }.loadsInFlight = true ∧
    (running 0 context).ctxScript context = some (script 128) ∧ context.handler = false ∧ (script 128).handler ≠ 0 ∧
    { (running 0 context) with scr := { up.scr with scripts := [script 0] } }.ctxScript context = some (script 0) ∧
    { context with handler := true }.handler = true ∧ mapGet? up.scr.faultAt 0 = none := by decide +kernel

theorem wit_HashAndSystemInstructions :
    { context with handler := true }.handler = true ∧ { context with sealOpen := true }.sealOpen = true ∧
    (running 0 { context with pc := 2 ^ 60 + 68 }).fetchWord 15 { context with pc := 2 ^ 60 + 68 } = none ∧
    fA 1 0 0 0 0 / 2 ^ 26 % 64 ≠ 0x3C ∧ (fA 1 0 0 0 0 / 2 ^ 26 % 64, 0x7FF, 0) ∈ rowWords := by decide +kernel

/-- A context that holds address `a` in every register, with window 0 of identity 0 open over granule 0, region 3 persistent. -/
def pointing (a : Nat) : Ctx := { context with x := (upto 31).map (fun k => (k + 1, BitVec.ofNat 64 a)), win := 1 }
def opened (w a : Nat) : State :=
  (((running w (pointing a)).setTab (0x910000 + 8) (15 * 2 ^ 60)).setTab (0x840000 + 3 * 32) (2 ^ 63)).setTab
    (0x840000 + 3 * 32 + 8) (2 ^ 14)

theorem wit_LoadsStoresAndAtomicsReachTheirSpaces :
    (∀ a ∈ [0, 4088, 2 ^ 60 + 4088, 2 * 2 ^ 60, 2 * 2 ^ 60 + 2 ^ 28 - 8, 3 * 2 ^ 60 + 4088],
      (opened (fM 0x18 31 31 3 0 0) a).addrCheck (pointing a) a 8 true false = none) ∧
    (∀ a ∈ [4096, 4 * 2 ^ 60, 2 * 2 ^ 60 + 2 ^ 28],
      ((opened (fM 0x18 31 31 3 0 0) a).addrCheck (pointing a) a 8 true false).isSome = true) ∧
    (opened (fA 0x1C 31 31 31 3) (2 * 2 ^ 60)).freeSlot 0 = some 0 ∧
    (opened (fA 0x1C 31 31 31 3) 0).storesApplied (pointing 0) = true ∧ (pointing 0).inGroup 0 8 = false ∧
    { pointing (2 * 2 ^ 60) with sealOpen := true, sealLines := [0] }.inGroup (2 * 2 ^ 60) 8 = true := by decide +kernel

theorem wit_SealGroupsBarriersAndBlockedContexts :
    (opened (fS 0x28 0 31 0 0 1) (2 * 2 ^ 60)).sealCheck (pointing (2 * 2 ^ 60)) (2 * 2 ^ 60) = none ∧
    (opened (fS 0x28 0 31 0 0 1) 0).sealCheck (pointing 0) 0 = some .sealState ∧ (pointing 0).sealOpen = false ∧
    { pointing 0 with sealLines := upto 64 }.sealLines.length = 64 ∧ up.ctx 15 = none ∧
    (∀ b ∈ [Block.none, .yield, .atomic, .pbar true 5, .pbar false 5, .commit (some 5), .waitc 31 5, .notify 31 5],
      (running 0 { context with block := b }).ctx 15 = some { context with block := b }) ∧
    up.fenced = false ∧ (upWith F.TWIN_STAT_fenced 0 1).fenced = true ∧ up.path.held = [] ∧ up.path.applied = [] ∧
    up.storesApplied context = true ∧
    (queued (pair 0 [])).queue 127 4095 = some (pair 0 []) := by decide +kernel

theorem wit_CopyCrcProbeAndCues :
    (opened (fA 0x2A 31 31 31 0) 0).storesApplied (pointing 0) = true ∧
    ((opened (fA 0x2A 31 31 31 0) 0).ctxsOf 0).length = 1 ∧ (opened (fA 0x2A 31 31 31 0) 0).rangeTrap (pointing 0) ⟨0, 0, 0⟩ false = none ∧
    (opened (fA 0x2A 31 31 31 0) 4096).rangeTrap (pointing 4096) ⟨4096, 4096, 4096⟩ false = some .addrBounds ∧
    (pointing 0).xr 31 = 0 ∧ (pointing 128).xr 31 = 128 ∧ up.cueRun 15 = none := by decide +kernel

/-- An image of one TEXT section of one instruction, 84 bytes long. -/
def image : List Byte :=
  let head := leBytes 4 0x534C4F42 ++ [1, 1, 0, 0] ++ leBytes 4 4096 ++ leBytes 4 4096 ++ leBytes 4 64 ++ leBytes 4 0 ++ zeros 32 ++
    leBytes 4 84
  let tail := [1, 0, 0, 0] ++ leBytes 4 64 ++ leBytes 4 4 ++ leBytes 4 80 ++ zeros 4
  head ++ leBytes 4 (crc32c (head ++ leBytes 4 0 ++ tail)) ++ tail

/-- Identity 0 answers for logical device 0 and may read granule 0, where a VOLATILE region holds the image. -/
def imaged : State :=
  let s := (((up.setTab 0x910000 (2 ^ 63 + 2 ^ 40)).setTab (0x910000 + 8) (15 * 2 ^ 60)).setTab (0x840000 + 3 * 32) (2 ^ 63))
  { s with dram := { s.dram with cells := memWriteN 0 [] 0 image } }

theorem wit_VendorCommandsCompleteWithTheirEffect :
    up.mailUp = true ∧ up.mbAdmin bmc = true ∧ up.cmdFenced = false ∧ leAt (leBytes 2 4095 ++ zeros 38) 0 2 < 4096 ∧
    (withJob up (job 2 11 0)).job (leAt (leBytes 4 1) 0 4) = some (job 2 11 0) ∧ leAt (leBytes 2 0x1FF) 0 2 ≤ 0x1FF ∧
    leAt ([11] : List Byte) 0 1 < 12 ∧ up.region.commit = none ∧ leAt (leBytes 2 0x303 ++ [63, 1]) 0 2 < 4096 ∧
    evIsAssigned 0x303 = true ∧ leAt (leBytes 2 0x100) 0 2 &&& 0xFEDF = 0 ∧
    up.submitStatus (.mailbox bmc) true 0x0C 0xFFFF 0 0 0 = St.DONE ∧
    (slotIn 1).slotState 15 = 1 ∧ (slotIn 1).runningOn 7 15 = none ∧ leAt ([15, 1] : List Byte) 1 1 = 1 ∧
    leAt ([15, 2] : List Byte) 0 1 < 16 := by decide +kernel

theorem wit_VendorCommandsCompleteWithTheirEffect_queues :
    (∀ d ∈ [2, 4096], let i := leBytes 2 4095 ++ leBytes 2 d ++ leBytes 4 0 ++ leBytes 4 (64 * d / 4096 * 4096 + 4096) ++ [63, 3]
      i.length = 14 ∧ leAt i 0 2 ≤ 4095 ∧ 2 ≤ leAt i 2 2 ∧ leAt i 2 2 ≤ 4096 ∧ leAt i 12 1 < 64 ∧ leAt i 13 1 < 4 ∧
      up.areasOk 127 (leAt i 2 2) (leAt i 4 4) (leAt i 8 4) = true) ∧
    up.mbLd 127 = some 127 ∧ up.queue 127 4095 = none ∧ up.que.pairs.length < 65536 ∧
    (queued (pair 0 [])).queue 127 4095 = some (pair 0 []) ∧ (pair 0 []).slots = [] ∧ (queued (pair 0 [])).scr.ctxs = [] ∧
    ((running 0 context).script 0 0).isSome = true ∧
    { running 0 context with scr := { (running 0 context).scr with ctxs := [] } }.scriptUsed 0 0 = false ∧
    (let r : PbRecord := ⟨9, 0, 3, 1, 0, true, false, false, false, 0, 0, []⟩
     ({ up with pb := { up.pb with ring := [(0, r)] } }).pb.ring.find? (fun p => p.2.seq == 9) = some (0, r) ∧
       r.severity = 3 ∧ r.read = true ∧ r.acked = false) := by
  decide +kernel

theorem wit_VendorCommandsCompleteWithTheirEffect_script :
    imaged.mailUp = true ∧ imaged.cmdFenced = false ∧ imaged.mbLd 0 = some 0 ∧ image.length = 84 ∧
    imaged.dpaBytes 0 84 = image ∧ scriptFormOk image 84 1 = true ∧ imaged.script 0 0 = none ∧
    (firstFit (imaged.resGaps 0) (scriptSize image / 4096)).isSome = true ∧ imaged.fld F.SCL_SCRIPTS_loaded 0 < 64 ∧
    (∀ a, a < 84 → (imaged.windowFor ((imaged.mbIdentity 0).getD 256) a 62).isSome = true ∧
      (imaged.regionAt a).isSome = true) := by decide +kernel

/-- One word for each clause, with the fields at the top of their ranges. -/
theorem wit_IntegerAndBranchInstructionsComplete :
    ∀ w ∈ (([0x00, 0x01, 0x10, 0x11, 0x12, 0x13, 0x14, 0x20, 0x21, 0x22, 0x23, 0x30, 0x31, 0x32, 0x33, 0x34, 0x35, 0x38, 0x39,
        0x3A, 0x3B, 0x40, 0x41, 0x42, 0x48, 0x49, 0x4A, 0x4B].map (fun f => fA 1 31 31 31 f)) ++
      ([2, 0x50, 0x51, 0x52, 0x53].map (fun f => fA 1 31 31 0 f)) ++ ([2, 3, 4, 5, 6, 7].map (fun k => fI k 31 31 65535)) ++
      ([8, 9, 10].map (fun k => fI k 31 31 63)) ++ ([12, 13, 14, 15].map (fun k => fI k 0 31 65535))),
    Issues (running w context) 0 15 context w := by
  unfold Issues; decide +kernel

/-- The same for the clauses of this statement, and their hypotheses on an atomic's address. -/
theorem wit_AtomicVectorAndWaitingInstructionsComplete :
    (∀ w ∈ [fV 0x25 7 7 7 3 3 0 0, fV 0x25 7 7 7 3 3 0 2, fV 0x26 7 7 7 3 3 0 0, fV 0x26 7 7 7 3 3 0 2, fV 0x25 0 7 0 3 3 31 1,
        fV 0x25 0 7 0 3 3 31 3, fV 0x26 0 7 0 3 3 31 1, fV 0x26 0 7 0 3 3 31 3, fS 0x29 0 0 0 0 0, fS 0x29 0 0 0 0 1,
        fS 0x30 31 31 0 0 0, fS 0x3C 0 0 0 0 0, fA 0x2E 31 31 0 0, fA 0x2E 31 31 0 1],
      Issues (running w context) 0 15 context w) ∧
    (∀ w ∈ [fA 0x1C 31 31 31 2, fA 0x1C 31 31 31 3, fA 0x1D 31 31 31 2, fA 0x1D 31 31 31 3],
      Issues (opened w 4088) 0 15 (pointing 4088) w ∧ ((pointing 4088).xr 31).toNat = 4088 ∧
      (opened w 4088).addrCheck (pointing 4088) 4088 8 true true = none ∧
      (opened w 4088).addrCheck (pointing 4088) 4088 4 true true = none ∧
      (pointing 4088).inGroup 4088 8 = false ∧ (pointing 4088).inGroup 4088 4 = false) ∧ up.cueRun 15 = none := by
  unfold Issues; decide +kernel

/-- A cue run of context 15, before or after its sheet is open. -/
def run (isOpen : Bool) : CueRun :=
  { ctx := 15, base := 0, count := 8, lead := 1, auto := false, isOpen := isOpen, cursor := 0, next := 0, results := [],
    pinned := [], entries := [], due := 0, times := [], reached := [], ident := 0, win := 0, bad := none, capRaised := false }
def cued (w : Nat) (isOpen : Bool) : State :=
  let s := running w context
  { s with stage := { s.stage with runs := [run isOpen] } }

theorem wit_CopyCrcProbeAndCues_run : ∀ o ∈ [true, false], ∀ f ∈ [0, 1],
    Issues (cued (fA 0x2E 31 31 0 f) o) 0 15 context (fA 0x2E 31 31 0 f) ∧ (cued (fA 0x2E 31 31 0 f) o).cueRun 15 = some (run o) ∧
    (((cued (fA 0x2E 31 31 0 f) o).moveCursor (run o) 0).cueRun 15).isSome = true := by
  unfold Issues; decide +kernel

/-- The controller of a pair, at 20 ms, with scribe 35 in service. -/
def working : State :=
  { ((twinned.setFld F.SCR_STAT_state 35 1).setFld F.TWIN_STAT_synced 0 1) with clock := 20000 }

theorem wit_JobsBusAndKeyCommandsComplete_jobs :
    working.pwr.ctlUp = true ∧ working.maint.jobs = [] ∧
    (∀ r ∈ [(1, 11, 65535, 9), (2, 11, 0, 0), (6, 15, 0, 0), (8, 0xFFFF, 0, 0), (10, 0xFFFF, 0, 0), (12, 0xFFFF, 0x100, 0),
        (13, 0xFFFF, 2, 0), (11, 35, 1, 0)],
      working.submitStatus .firmware true r.1 r.2.1 r.2.2.1 r.2.2.2 0 = St.DONE) ∧
    ((working.setFld F.DMC_STAT_frozen 11 1).setFld F.DMC_STAT_snap_read 11 1).submitStatus .firmware true 3 11 0 0 0 = St.DONE ∧
    working.submitStatus .controller true 7 15 0 0 0 = St.DONE := by decide +kernel

theorem wit_JobsBusAndKeyCommandsComplete :
    bus.inStrike = false ∧ bus.pmbValid 31 = true ∧ (∀ on ∈ [true, false], bus.railMay 31 on = true) ∧
    (bus.inBand 31 0 = true ∨ (bus.setLive .CURT_BAND 0 0xFFFF).inBand 31 0 = true) ∧
    up.pwr.aonUp = true ∧ (⟨false, false, 4095⟩ : Mains).ok = false ∧ linked.fld F.HPORT_STAT_up 0 = 1 ∧
    { up with sec := { up.sec with loads := [⟨223, 1, 0, [], none⟩] } }.slotUses 223 = 0 ∧
    (up.setLive .SEC_ALARM 0 0).fld F.SEC_ALARM_mask 0 = 0 ∧ { up.sen with glitchArmed := true }.glitchArmed = true ∧
    up.region.commit = none ∧
    (let s : State := { (upWith F.DMC_GEOM_cap_gib 0 128) with region := { up.region with commit := some .core } }
     s.commitReady = true ∧ s.commitCheck .core = none) ∧
    up.pb.ring.length < 8192 ∧ up.pb.writer.length < 64 ∧ (upWith F.EVT_SRC_core Ev.PBOOK_FIRED 0).fld F.EVT_SRC_core Ev.PBOOK_FIRED = 0 ∧
    up.evt.routes = [] ∧
    (let r : PbRecord := ⟨9, 0, 0, 1, 0, false, false, false, false, 0, 0, []⟩
     mapGet? [(0 + 2047, r)] (up.fld F.PBOOK_WIN_page 0 * 2048 + 2047) = some r) := by decide +kernel

/-- A KEY_LOAD of slot 223, with a blob of generation 0. -/
def keyInput : List Byte := [223, 0, 104, 0] ++ leBytes 4 0x424B5150 ++ [1, 1, 0, 0] ++ zeros 96

theorem wit_JobsBusAndKeyCommandsComplete_key (h : bits Config.fuseSecStat.toNat 29 28 ≠ 2) :
    let s : State := { up.setLive .SEC_STAT 0 0 with sec := { up.sec with seeds := [77] } }.setFld F.SEC_STAT_kek 0 1
    s.mailUp = true ∧ s.mbAdmin bmc = true ∧ keyInput.length = 108 ∧ leAt keyInput 2 2 = 104 ∧ leAt keyInput 0 1 ≤ 223 ∧
    blobForm (keyInput.drop 4) = true ∧ s.fld F.SEC_STAT_latch 0 = 0 ∧ s.fld F.SEC_STAT_kek 0 = 1 ∧
    s.genNow = some (leAt (keyInput.drop 4) 6 1) ∧ s.keyLoaded 223 = false := by
  refine ⟨by decide +kernel, by decide +kernel, by decide +kernel, by decide +kernel, by decide +kernel, by decide +kernel,
    by decide +kernel, by decide +kernel, ?_, by decide +kernel⟩
  have : leAt (keyInput.drop 4) 6 1 = 0 := by decide +kernel
  have gen : ∀ s : State, s.sec.seeds = [77] → s.genNow = some 0 := by
    intro s hs; simp [State.genNow, State.owners, hs, h]
  rw [this]
  exact gen _ rfl

/-- A pointing context of an opened window may issue every word, for every kind of address the statements name. -/
theorem wit_IssuesOpened : ∀ w ∈ words, ∀ a ∈ [0, 2 ^ 60 + 4088, 2 * 2 ^ 60, 4 * 2 ^ 60],
    Issues (opened w a) 0 15 (pointing a) w := by
  unfold Issues; decide +kernel

/-- The hypotheses of the integer, immediate, branch and vector statements are those of `wit_Issues` alone. -/
theorem wit_IntegerInstructions : Issues (running (fA 1 31 31 31 0) context) 0 15 context (fA 1 31 31 31 0) ∧
    Issues (running (fA 1 0 31 31 0x10) context) 0 15 context (fA 1 0 31 31 0x10) := by
  unfold Issues; decide +kernel

theorem wit_DivisionNeverTraps : Issues (running (fA 1 31 31 31 0x48) context) 0 15 context (fA 1 31 31 31 0x48) ∧
    Issues (running (fA 1 31 31 31 0x4A) context) 0 15 context (fA 1 31 31 31 0x4A) := by
  unfold Issues; decide +kernel

theorem wit_ImmediateInstructions : Issues (running (fI 2 31 31 65535) context) 0 15 context (fI 2 31 31 65535) ∧
    Issues (running (fI 6 31 31 63) context) 0 15 context (fI 6 31 31 63) := by
  unfold Issues; decide +kernel

theorem wit_BranchesAndJumps : Issues (running (fI 12 31 31 65535) context) 0 15 context (fI 12 31 31 65535) ∧
    Issues (running (fI 16 31 0 0) context) 0 15 context (fI 16 31 0 0) := by
  unfold Issues; decide +kernel

theorem wit_VectorInstructions : Issues (running (fV 0x20 7 0 0 3 3 31 63) context) 0 15 context (fV 0x20 7 0 0 3 3 31 63) ∧
    Issues (running (fV 0x22 3 7 7 3 3 0 13) context) 0 15 context (fV 0x22 3 7 7 3 3 0 13) := by
  unfold Issues; decide +kernel
/-! ### Ill-formed commands: one term for each check of `Instr.wellFormed` -/

theorem test_illFormed_1 : (([
    .powerOnReset ⟨false, false, 4096⟩ [], .perstN 8 false, .cxlReset 8, .sceneReq (2 ^ 32), .ctlUnmapped 0x10000000 false,
    .registerWrite 0x10000000 0, .registerWrite 0 (2 ^ 32), .linkUp 8 0 0 false false, .linkUp 0 17 0 false false,
    .linkDown 8, .hostLoad 8 0 0 0 false .none, .hostLoad 0 4096 0 0 false .none, .hostLoad 0 0 (2 ^ 64) 0 false .none,
    .hostLoad 0 0 0 65536 false .none, .hostStore 8 0 0 0 0 0 .none, .hostStore 0 4096 0 0 0 0 .none,
    .hostStore 0 0 (2 ^ 64) 0 0 0 .none, .hostStore 0 0 0 65536 0 0 .none, .hostStore 0 0 0 0 (2 ^ 64) 0 .none,
    .birsp 8 0 0, .birsp 0 4096 0, .ideIntegrityFail 8, .keyProg 8 false, .doeRequest 8 0 false,
    .hdmCommit 384 0 0 0 0 0 0 false, .hdmCommit 0 8 0 0 0 0 0 false, .hdmUncommit 384 0, .hdmUncommit 0 8,
    .addCapacity 384 0 0 0, .releaseCapacity 384 0 0, .gpfPhase1 8, .gpfPhase2 8, .identifyMemoryDevice 384 [],
    .identifyMemoryDevice 0 (List.replicate 4097 0), .getHealthInfo 384 [], .getHealthInfo 0 (List.replicate 4097 0),
    .getTimestamp 384 [], .getTimestamp 0 (List.replicate 4097 0), .setTimestamp 384 [],
    .setTimestamp 0 (List.replicate 4097 0), .getSupportedLogs 384 [], .getSupportedLogs 0 (List.replicate 4097 0),
    .getLog 384 [], .getLog 0 (List.replicate 4097 0), .getEventRecords 384 [], .getEventRecords 0 (List.replicate 4097 0),
    .clearEventRecords 384 [], .clearEventRecords 0 (List.replicate 4097 0)] : List Instr).all fun i => !i.wellFormed) = true := by decide +kernel

theorem test_illFormed_2 : (([
    .getEventInterruptPolicy 384 [], .getEventInterruptPolicy 0 (List.replicate 4097 0), .setEventInterruptPolicy 384 [],
    .setEventInterruptPolicy 0 (List.replicate 4097 0), .getAlertConfiguration 384 [],
    .getAlertConfiguration 0 (List.replicate 4097 0), .setAlertConfiguration 384 [],
    .setAlertConfiguration 0 (List.replicate 4097 0), .getPartitionInfo 384 [], .getPartitionInfo 0 (List.replicate 4097 0),
    .getLsa 384 [], .getLsa 0 (List.replicate 4097 0), .setLsa 384 [], .setLsa 0 (List.replicate 4097 0),
    .getPoisonList 384 [], .getPoisonList 0 (List.replicate 4097 0), .getFwInfo 384 [],
    .getFwInfo 0 (List.replicate 4097 0), .transferFw 384 [], .transferFw 0 (List.replicate 4097 0),
    .activateFw 384 [] false, .activateFw 0 (List.replicate 4097 0) false, .mailboxUnsupported 384 0,
    .mailboxUnsupported 0 65536, .getDeviceInfo 384 [], .getDeviceInfo 0 (List.replicate 4097 0), .getEpoch 384 [],
    .getEpoch 0 (List.replicate 4097 0), .deviceReset 384 [], .deviceReset 0 (List.replicate 4097 0), .ldReset 384 [],
    .ldReset 0 (List.replicate 4097 0), .regionRead 384 [], .regionRead 0 (List.replicate 4097 0), .regionWrite 384 [],
    .regionWrite 0 (List.replicate 4097 0), .accessStage 384 [], .accessStage 0 (List.replicate 4097 0),
    .accessCommit 384 [], .accessCommit 0 (List.replicate 4097 0), .accCommit (2 ^ 32), .persistBarrier 384 [],
    .persistBarrier 0 (List.replicate 4097 0), .inkRead 384 [], .inkRead 0 (List.replicate 4097 0), .inkLimitSet 384 [],
    .inkLimitSet 0 (List.replicate 4097 0), .inkLimitWrite (2 ^ 32)] : List Instr).all fun i => !i.wellFormed) = true := by decide +kernel

theorem test_illFormed_3 : (([
    .sceneSet 384 [], .sceneSet 0 (List.replicate 4097 0), .maintStatus 384 [], .maintStatus 0 (List.replicate 4097 0),
    .maintCancel 384 [], .maintCancel 0 (List.replicate 4097 0), .prepareRemoval 384 [],
    .prepareRemoval 0 (List.replicate 4097 0), .slotPowerOn 384 [], .slotPowerOn 0 (List.replicate 4097 0),
    .ledLocate 384 [], .ledLocate 0 (List.replicate 4097 0), .freezeSnapshot 384 [],
    .freezeSnapshot 0 (List.replicate 4097 0), .freezeRelease 384 [] false [],
    .freezeRelease 0 (List.replicate 4097 0) false [], .freezeSnapRead 12, .pbookRead 384 [],
    .pbookRead 0 (List.replicate 4097 0), .pbookAck 384 [], .pbookAck 0 (List.replicate 4097 0), .tallyRead 384 [],
    .tallyRead 0 (List.replicate 4097 0), .energyRead 384 [], .energyRead 0 (List.replicate 4097 0), .powerCapSet 384 [],
    .powerCapSet 0 (List.replicate 4097 0), .sentPcap (2 ^ 32), .keyLoad 384 [] false,
    .keyLoad 0 (List.replicate 4097 0) false, .keyLoaded 256, .keyStatus 384 [], .keyStatus 0 (List.replicate 4097 0),
    .rehearsalRun 384 [] 0, .rehearsalRun 0 (List.replicate 4097 0) 0, .twinStatus 384 [],
    .twinStatus 0 (List.replicate 4097 0), .queueCreate 384 [], .queueCreate 0 (List.replicate 4097 0), .queueDelete 384 [],
    .queueDelete 0 (List.replicate 4097 0), .scriptLoad 384 [], .scriptLoad 0 (List.replicate 4097 0), .scriptUnload 384 [],
    .scriptUnload 0 (List.replicate 4097 0), .eventRoute 384 [], .eventRoute 0 (List.replicate 4097 0), .classStarved 16 0] : List Instr).all fun i => !i.wellFormed) = true := by decide +kernel

theorem test_illFormed_4 : (([
    .classStarved 0 8, .cleanSet 32 0, .invalidateSet 32 0, .flushSet 32 0, .wayDisable 32 0, .wayEnable 32 0,
    .retrainPause 12 0 0, .retrainLate 12, .refresh 12 false, .makeUpBurst 12 false, .selfRefreshEntry 12,
    .patrolScrub 12 0 0 (List.replicate 8 10) 0 false [], .patrolScrub 0 0 1024 (List.replicate 8 10) 0 false [], .patrolScrub 0 0 0 [] 0 false [], .dmcFrozen 12 0 0 none [],
    .leafReadDone (2 ^ 32) 0 .good .good 0 false, .slowReadAbandon (2 ^ 32) 0 .good, .cartFailed 16 0,
    .cartPresent 16 0 0 0 0 false, .cartPresent 0 0 0 0 (2 ^ 32) false, .cartAdmitted 16, .slotPwrFail 16,
    .cartRemovable 16, .cartRemoved 16, .scribeFailed 36, .dpaOpResponse 36 0, .dpaOpResponse 0 16, .blockingRetire 36 0,
    .blockingRetire 0 16, .add 36 0, .add 0 16, .sub 36 0, .sub 0 16, .neg 36 0, .neg 0 16, .and 36 0, .and 0 16, .or 36 0,
    .or 0 16, .xor 36 0, .xor 0 16, .andn 36 0, .andn 0 16, .orn 36 0, .orn 0 16, .shl 36 0, .shl 0 16, .shr 36 0, .shr 0 16] : List Instr).all fun i => !i.wellFormed) = true := by decide +kernel

theorem test_illFormed_5 : (([
    .sar 36 0, .sar 0 16, .ror 36 0, .ror 0 16, .cmpEq 36 0, .cmpEq 0 16, .cmpNe 36 0, .cmpNe 0 16, .cmpLt 36 0,
    .cmpLt 0 16, .cmpLe 36 0, .cmpLe 0 16, .cmpLtu 36 0, .cmpLtu 0 16, .cmpLeu 36 0, .cmpLeu 0 16, .min 36 0, .min 0 16,
    .max 36 0, .max 0 16, .minu 36 0, .minu 0 16, .maxu 36 0, .maxu 0 16, .mul 36 0, .mul 0 16, .mulhiS 36 0, .mulhiS 0 16,
    .mulhiU 36 0, .mulhiU 0 16, .div 36 0, .div 0 16, .divu 36 0, .divu 0 16, .rem 36 0, .rem 0 16, .remu 36 0, .remu 0 16,
    .lzc 36 0, .lzc 0 16, .tzc 36 0, .tzc 0 16, .ones 36 0, .ones 0 16, .revb 36 0, .revb 0 16, .addI 36 0, .addI 0 16] : List Instr).all fun i => !i.wellFormed) = true := by decide +kernel

theorem test_illFormed_6 : (([
    .andI 36 0, .andI 0 16, .orI 36 0, .orI 0 16, .xorI 36 0, .xorI 0 16, .cmpEqI 36 0, .cmpEqI 0 16, .cmpLtI 36 0,
    .cmpLtI 0 16, .shlI 36 0, .shlI 0 16, .shrI 36 0, .shrI 0 16, .sarI 36 0, .sarI 0 16, .high 36 0, .high 0 16, .bz 36 0,
    .bz 0 16, .bnz 36 0, .bnz 0 16, .bneg 36 0, .bneg 0 16, .bnneg 36 0, .bnneg 0 16, .dbnz 36 0, .dbnz 0 16, .bpany 36 0,
    .bpany 0 16, .call 36 0, .call 0 16, .jump 36 0, .jump 0 16, .ld 36 0 false, .ld 0 16 false, .st 36 0, .st 0 16,
    .cas 36 0 false, .cas 0 16 false, .fadd 36 0 false, .fadd 0 16 false, .vld 36 0 false, .vld 0 16 false,
    .vldBc 36 0 false, .vldBc 0 16 false, .vst 36 0, .vst 0 16] : List Instr).all fun i => !i.wellFormed) = true := by decide +kernel

theorem test_illFormed_7 : (([
    .vcmp 36 0, .vcmp 0 16, .vsel 36 0, .vsel 0 16, .vsum 36 0, .vsum 0 16, .vmin 36 0, .vmin 0 16, .vminr 36 0,
    .vminr 0 16, .vmax 36 0, .vmax 0 16, .vmaxr 36 0, .vmaxr 0 16, .sealOpen 36 0, .sealOpen 0 16, .sealAdd 36 0,
    .sealAdd 0 16, .sealCommit 36 0, .sealCommit 0 16, .pbarLocal 36 0, .pbarLocal 0 16, .pbarTwin 36 0, .pbarTwin 0 16,
    .copy 36 0 .none, .copy 0 16 .none, .copyL 36 0 .none, .copyL 0 16 .none, .crc 36 0 .none, .crc 0 16 .none, .hash 36 0,
    .hash 0 16, .probe 36 0 false, .probe 0 16 false, .cue 36 0, .cue 0 16, .cueR 36 0, .cueR 0 16, .waitc 36 0,
    .waitc 0 16, .notify 36 0, .notify 0 16, .yield 36 0, .yield 0 16, .halt 36 0, .halt 0 16, .trap 36 0 false,
    .trap 0 16 false] : List Instr).all fun i => !i.wellFormed) = true := by decide +kernel

theorem test_illFormed_8 : (([
    .rdsr 36 0, .rdsr 0 16, .wrsr 36 0, .wrsr 0 16, .submissionTail 384 0, .submissionTail 0 (2 ^ 32),
    .completionHead 384 0, .completionHead 0 (2 ^ 32), .noteHead 384 0, .noteHead 0 (2 ^ 32), .abort 384 0,
    .abort 0 (2 ^ 32), .integrityFrame 2 false, .twinLinkDown 2, .hello (2 ^ 64) 0 0 false false 0 0 false 0,
    .heartbeat ⟨2 ^ 32, 0, 0⟩ 0, .ack ⟨2 ^ 32, 0, 0⟩, .ack ⟨0, 2 ^ 32, 0⟩, .ack ⟨0, 0, 2 ^ 32⟩, .store ⟨2 ^ 32, 0, 0⟩ [],
    .store ⟨0, 0, 0⟩ [⟨2 ^ 58, 0, 0⟩], .store ⟨0, 0, 0⟩ [⟨0, 2 ^ 64, 0⟩], .sealMsg ⟨2 ^ 32, 0, 0⟩ [],
    .sealMsg ⟨0, 0, 0⟩ [⟨2 ^ 58, 0, 0⟩], .tableSync ⟨2 ^ 32, 0, 0⟩ 0 0 [] false, .tableResult ⟨2 ^ 32, 0, 0⟩ 0 0,
    .tableResult ⟨0, 0, 0⟩ (2 ^ 32) 0, .fetchReq ⟨2 ^ 32, 0, 0⟩ 0 0, .fetchReq ⟨0, 0, 0⟩ (2 ^ 32) 0,
    .fetchReq ⟨0, 0, 0⟩ 0 (2 ^ 64), .fetchData ⟨2 ^ 32, 0, 0⟩ 0 false [], .fetchData ⟨0, 0, 0⟩ (2 ^ 64) false [],
    .fetchNak ⟨2 ^ 32, 0, 0⟩ 0 0, .fetchNak ⟨0, 0, 0⟩ (2 ^ 64) 0, .twinFetchFail (2 ^ 32),
    .journalCopy ⟨2 ^ 32, 0, 0⟩ 0 0 [] false, .journalReq ⟨2 ^ 32, 0, 0⟩ 0, .checkpointNote ⟨2 ^ 32, 0, 0⟩ 0 0,
    .bitmap ⟨2 ^ 32, 0, 0⟩ 0 [], .resyncFolio ⟨2 ^ 32, 0, 0⟩ 0 false [], .resyncFolio ⟨0, 0, 0⟩ (2 ^ 32) false [],
    .handbackFolio ⟨2 ^ 32, 0, 0⟩ 0 false [], .handbackFolio ⟨0, 0, 0⟩ (2 ^ 32) false [], .resyncDone ⟨2 ^ 32, 0, 0⟩ 0 [],
    .mirrorReady ⟨2 ^ 32, 0, 0⟩ 0, .mirrorReady ⟨0, 0, 0⟩ 4096, .handover ⟨2 ^ 32, 0, 0⟩ 0, .handoverAck ⟨2 ^ 32, 0, 0⟩] : List Instr).all fun i => !i.wellFormed) = true := by decide +kernel

theorem test_illFormed_9 : (([
    .disturbance ⟨false, false, 4096⟩, .blip ⟨false, false, 4096⟩, .sagEnter ⟨false, false, 4096⟩,
    .sagExit ⟨false, false, 4096⟩, .drop ⟨false, false, 4096⟩, .operation 32 false, .clearFaults 32, .voutCommand 32 0,
    .voutCommand 0 65536, .statusWord 32 0, .statusWord 0 (2 ^ 32), .readVin 32 0, .readVin 0 (2 ^ 32), .readIin 32 0,
    .readIin 0 (2 ^ 32), .readVout 32 0, .readVout 0 (2 ^ 32), .readIout 32 0, .readIout 0 (2 ^ 32), .readTemperature1 32 0,
    .readTemperature1 0 (2 ^ 32), .readPout 32 0, .readPout 0 (2 ^ 32), .readPin 32 0, .readPin 0 (2 ^ 32), .rearm (2 ^ 32),
    .dvfsRaise (2 ^ 32), .stcWdog 4, .stcWatchdog 4, .stcReloaded 4, .coreQuiesce 4, .readPage 5 0, .programPage 5 0,
    .eraseSector 5 0, .suspend 5, .resume 5, .protSet 5, .protClear 5, .lock 5, .pwdSet 5, .fwfOperationEnd 4,
    .fwfPwdKey 5 0, .fwfPwdKey 0 (2 ^ 32), .fwfPwdData 5 0, .fwfPwdData 0 (2 ^ 32), .getCertificate 0 8 0 0, .challenge 0 8,
    .finish 0 (2 ^ 32) false .failed] : List Instr).all fun i => !i.wellFormed) = true := by decide +kernel

theorem test_illFormed_10 : (([
    .spdmHeartbeat 0 (2 ^ 32), .keyUpdate 0 (2 ^ 32), .endSession 0 (2 ^ 32), .seedProgram 0 (2 ^ 32) 0,
    .keyWrap 0 (2 ^ 32) [], .reunwrap 0 (2 ^ 32), .debugUnlock 0 (2 ^ 32) [] false, .keyAlarm 8, .chkRingTail 4 0 [] [],
    .cvDescriptorDone 4 false, .unitReset 4, .pbookFire (2 ^ 32), .pbookAckHi (2 ^ 32), .tallySnap 4096,
    .tallyClear 4096 false, .dramRepair .firmware false 12 0 0 false, .dramRepair .firmware false 0 0 256 false,
    .dramRetrain .firmware false 12 0 0, .dramRelease .firmware false 12 false [], .slotRemove .firmware false 16,
    .slotAdmit .firmware false 16, .scribeSwap .firmware false 36 0 false, .sceneChange .firmware false (2 ^ 32),
    .rehearsal .firmware false (2 ^ 32) 0, .powerCycle .firmware false (2 ^ 32), .maintQry (2 ^ 32),
    .railGroupWithinTolerance 16, .holdupSenseSample 4096, .s2mCreditReturn 8 0 0, .slotPgoodAsserted 16 0 0,
    .locateExpiry 16] : List Instr).all fun i => !i.wellFormed) = true := by decide +kernel

theorem test_wellFormed : (([.hostLoad 7 4095 (2 ^ 64 - 1) 65535 true .none, .slotRemove .controller true 15, .ack ⟨2 ^ 32 - 1, 7, 7⟩,
    .registerWrite 0x0FFFFFFC 0xFFFFFFFF, .getLsa 512 (zeros 8), .rootPllLock] : List Instr).all fun i => i.wellFormed) = true := by
  decide +kernel

/-! ### Worked figures of the manual -/

/-- The state after a command. -/
def after (i : Instr) (s : State) : State :=
  match exec i s with
  | .next t => t
  | _ => s

/-- A value of a register of the context after an instruction. -/
def regAfter (i : Instr) (w : Nat) (c : Ctx) (r : Nat) : Option W64 := ((after i (running w c)).ctx 15).map fun d => d.xr r

/-- The words that chapters 11 and 12 assemble in their examples. -/
theorem test_assembled_words : fI 2 5 0 42 = 0x08A0002A ∧ fI 0x10 0 12 0xFFFA = 0x400CFFFA ∧
    fA 0x1C 18 13 15 3 = 0x724D7803 ∧ fV 0x22 2 0 2 1 3 0 3 = 0x8904E003 := by decide +kernel

/-- `add.i x5, x0, 42` (R435's example), and a negative immediate (R466). -/
theorem test_addI : regAfter (.addI 0 15) 0x08A0002A context 5 = some 42 ∧
    regAfter (.addI 0 15) (fI 2 5 0 0xFFFF) context 5 = some 0xFFFFFFFFFFFFFFFF := by decide +kernel

/-- DBNZ of the example branches six words back while x12 is not zero (R468). -/
theorem test_dbnz : ((after (.dbnz 0 15) (running 0x400CFFFA { context with x := [(12, 2)] })).ctx 15).map
    (fun d => (d.pc, d.xr 12)) = some (2 ^ 60 + 64 - 24, 1) ∧
    ((after (.dbnz 0 15) (running 0x400CFFFA { context with x := [(12, 1)] })).ctx 15).map (fun d => d.pc) =
      some (2 ^ 60 + 68) := by decide +kernel

/-- Division by zero and the one overflow (R465). -/
theorem test_division : regAfter (.div 0 15) (fA 1 3 1 2 0x48) { context with x := [(1, 7)] } 3 = some 0 ∧
    regAfter (.rem 0 15) (fA 1 3 1 2 0x4A) { context with x := [(1, 7)] } 3 = some 7 ∧
    regAfter (.div 0 15) (fA 1 3 1 2 0x48) { context with x := [(1, 0x8000000000000000), (2, 0xFFFFFFFFFFFFFFFF)] } 3 =
      some 0x8000000000000000 := by decide +kernel

/-- A write of x0 is discarded (R424). -/
theorem test_x0 : regAfter (.addI 0 15) (fI 2 0 0 42) context 0 = some 0 := by decide +kernel

/-- A reserved function traps to the handler with cause 0x01 and status ILLEGAL (R436, R437, R439). -/
theorem test_illegal : ((after (.trap 0 15 false) (running (fA 1 3 1 2 0x7FF) context)).ctx 15).map
    (fun d => (d.cause, d.epc, d.pc)) = some (1 + 256 * St.ILLEGAL, 2 ^ 60 + 64, 2 ^ 60 + 128) := by decide +kernel

/-- The ASCII string "123456789". -/
def digits : List Byte := [0x31, 0x32, 0x33, 0x34, 0x35, 0x36, 0x37, 0x38, 0x39]

/-- The check values of R487, whole and continued over two pieces as in the example. -/
theorem test_crc : crc32c digits = 0xE3069283 ∧ crc64n digits = 0xAE8B14860A799888 ∧
    crcMore 0 (crcMore 0 0 (digits.take 4)) (digits.drop 4) = 0xE3069283 := by decide +kernel

/-- The curtain limits of the ageing example of R197. -/
theorem test_curtainLimit : [150000, 126000, 121000, 94000].map (fun e => curtainLimit e 1000) =
    [1464843, 1464843, 1388549, 976562] := by decide +kernel

/-- The ceiling of that example's last row, at a SAG, and the default limit of R209. -/
theorem test_ceiling : { ((upWith F.INK_LIMIT_limit 0 1464843).setFld F.PAIR_STAT_frames 0 1464843).setLive .CURT_INK 0 976562 with
      ink := { up.ink with sag := true } }.ceilingNow = 244140 ∧ State.reset.fld F.INK_LIMIT_limit 0 = 732421 := by decide +kernel

/-- The hold-up example of R596: V_eff 13.154 V and E_measured 150.4 J. -/
theorem test_holdup : let s := up.setLive .SENT_BANK_FUSE 0 0
    let s1 := (((s.setFld F.SENT_BANK_FUSE_v_chg 0 130).setFld F.SENT_BANK_FUSE_v_min 0 65).setFld F.SENT_BANK_FUSE_eta 0 92)
    s1.testVe 400 = 13153 ∧ s1.eta * 650 * (s1.vChg ^ 2 - s1.testVe 400 ^ 2) / 200000000 / 100 = 1503 := by decide +kernel

/-- The metering example of R609: 1 GB read costs 185 mJ, and 1 GB of lines made dirty 1,100 mJ more. -/
theorem test_meters : countsPj ⟨1000000000, 15625000, 15625000, 0, 0, 0⟩ / 10 ^ 9 = 185 ∧
    countsPj ⟨1000000000, 15625000, 15625000, 0, 15625000, 0⟩ / 10 ^ 9 = 1285 := by decide +kernel

/-- The scene request of the example of R89: BASE, SOLO and INTERMISSION, taken where all three images are available. -/
theorem test_sceneReq : let s : State := { up with scene := { up.scene with images := [(0, []), (3, []), (5, [])] } }
    (after (.sceneReq 0x80000029) s).scene.waiting = [.request 0x29] ∧
    (after (.sceneReq 0x80000029) s).fld F.SCENE_STAT_busy 0 = 1 ∧
    (after (.sceneReq 0x80000029) up).fld F.SCENE_STAT_status 0 = St.ILLEGAL := by decide +kernel

/-- Reset words that the field tables state (R64, R209, R99). -/
theorem test_reset : State.reset.liveWord .RST_CAUSE 0 = 1 ∧ State.reset.liveWord .INK_LIMIT 0 = 732421 ∧
    State.reset.liveWord .HPORT_STAT 7 = 0 := by decide +kernel

/-- A read of an unassigned offset returns zero and raises CTL_UNMAPPED with the offset (R36). -/
theorem test_unmapped : (after (.ctlUnmapped 0x2E00000 false) up).sent.getLast? = some (.ctlRead 0x2E00000 0) ∧
    (after (.ctlUnmapped 0x2E00000 false) up).fld F.EVT_SRC_count 0x010 = 1 := by decide +kernel

/-- A stale generation (R509): the second attempt in a slot with the same generation completes nothing. -/
theorem test_stale : (after .ticketFetch (queued (pair 1 []))).fld F.QUEUE_STALE_CNT_count 0 = 1 := by decide +kernel

/-- The first command of the queue runs, and an idle step is one microsecond. -/
theorem test_step : (match step { up with pending := [.sysResetNRelease, .rootPllLock] } with
    | .next t => t.pending
    | _ => []) = [.rootPllLock] ∧
    (match step up with
     | .next t => t.clock
     | _ => 0) = 1 := by decide +kernel

end Sys2Proof.Tests
end

namespace Sys2Proof.Machine

/-! The register write by access codes (R2, R72), bit by bit. -/

/-- Bit `j` lies in the field. -/
def FieldDef.covers (f : FieldDef) (j : Nat) : Prop := f.lo ≤ j ∧ j ≤ f.hi

/-! ### Bits -/

theorem bitB_eq_testBit (v j : Nat) : bitB v j = v.testBit j := by
  rw [bitB, Nat.testBit_eq_decide_div_mod_eq, Nat.shiftRight_eq_div_pow]

theorem testBit_maskOf (hi lo j : Nat) : (maskOf hi lo).testBit j = decide (lo ≤ j ∧ j ≤ hi) := by
  rw [maskOf, Nat.testBit_mul_two_pow, Nat.testBit_two_pow_sub_one, ← Bool.decide_and]
  exact decide_eq_decide.mpr (by omega)

/-- Inside a word, `mixBits` takes each bit of the mask from the new value and every other from the old. -/
theorem testBit_mixBits (m old new : Nat) {j : Nat} (hj : j < 32) :
    (mixBits m old new).testBit j = if m.testBit j then new.testBit j else old.testBit j := by
  have ones : (0xFFFFFFFF : Nat).testBit j = true := by
    rw [show (0xFFFFFFFF : Nat) = 2 ^ 32 - 1 from rfl, Nat.testBit_two_pow_sub_one]; exact decide_eq_true hj
  simp only [mixBits, Nat.testBit_or, Nat.testBit_and, Nat.testBit_xor, ones]
  cases m.testBit j <;> simp

theorem testBit_toNat_ofNat (v : Nat) {j : Nat} (hj : j < 32) : (BitVec.ofNat 32 v).toNat.testBit j = v.testBit j := by
  rw [BitVec.toNat_ofNat, Nat.testBit_mod_two_pow, decide_eq_true hj, Bool.true_and]

/-- A field is its bits. -/
theorem bits_congr {a b hi lo : Nat} (h : ∀ j, lo ≤ j → j ≤ hi → a.testBit j = b.testBit j) :
    bits a hi lo = bits b hi lo := by
  refine Nat.eq_of_testBit_eq fun i => ?_
  rw [testBit_bits, testBit_bits]
  by_cases hi' : i < hi + 1 - lo
  · rw [h (lo + i) (by omega) (by omega)]
  · rw [decide_eq_false hi', Bool.false_and, Bool.false_and]

theorem bits_eq_zero {a hi lo : Nat} (h : ∀ j, lo ≤ j → j ≤ hi → a.testBit j = false) : bits a hi lo = 0 := by
  rw [bits_congr (b := 0) fun j h₁ h₂ => (h j h₁ h₂).trans (Nat.zero_testBit j).symm]
  simp [bits]

theorem bits_ne_zero {a hi lo j : Nat} (h₁ : lo ≤ j) (h₂ : j ≤ hi) (h : a.testBit j = true) : bits a hi lo ≠ 0 := by
  intro h0
  have e := testBit_bits a hi lo (j - lo)
  rw [h0, Nat.zero_testBit, Nat.add_sub_cancel' h₁, h, decide_eq_true (by omega : j - lo < hi + 1 - lo)] at e
  exact Bool.false_ne_true e

/-! ### The fields of a register -/

/-- The field tables keep their fields inside the word and apart from each other. -/
theorem RegId.fields_apart (r : RegId) :
    ∀ f ∈ r.fields, f.hi < 32 ∧ ∀ g ∈ r.fields, g = f ∨ g.hi < f.lo ∨ f.hi < g.lo := by
  cases r <;> decide +kernel

theorem RegId.eq_of_covers {r : RegId} {f g : FieldDef} {j : Nat} (hf : f ∈ r.fields) (hg : g ∈ r.fields)
    (hfj : f.covers j) (hgj : g.covers j) : g = f := by
  obtain ⟨h₁, h₂⟩ := hfj
  obtain ⟨h₃, h₄⟩ := hgj
  rcases (r.fields_apart f hf).2 g hg with e | e | e
  · exact e
  · omega
  · omega

theorem RegId.covers_lt {r : RegId} {f : FieldDef} {j : Nat} (hf : f ∈ r.fields) (hj : f.covers j) : j < 32 :=
  Nat.lt_of_le_of_lt hj.2 (r.fields_apart f hf).1

/-! ### Masks of a register -/

/-- A bit of a mask that is gathered over a list. -/
theorem testBit_foldl_or {α : Type} (l : List α) (p : α → Prop) [DecidablePred p] (g : α → Nat) (m j : Nat) :
    (l.foldl (fun m a => if p a then m ||| g a else m) m).testBit j =
      (m.testBit j || l.any fun a => decide (p a) && (g a).testBit j) := by
  induction l generalizing m with
  | nil => simp
  | cons a t ih =>
    rw [List.foldl_cons, ih, List.any_cons]
    by_cases h : p a <;> simp [h, Bool.or_assoc]

/-- In a field, a mask gathered over the fields of the register (each adding bits of its own) is what that field added. -/
theorem RegId.testBit_fieldMask {r : RegId} {f : FieldDef} {j : Nat} (hf : f ∈ r.fields) (hj : f.covers j)
    (p : FieldDef → Prop) [DecidablePred p] (g : FieldDef → Nat) (own : ∀ a, (g a).testBit j = true → a.covers j) :
    (r.fields.foldl (fun m a => if p a then m ||| g a else m) 0).testBit j = (decide (p f) && (g f).testBit j) := by
  rw [testBit_foldl_or, Nat.zero_testBit, Bool.false_or, Bool.eq_iff_iff, List.any_eq_true]
  constructor
  · rintro ⟨a, ha, hb⟩
    have e : a = f := RegId.eq_of_covers hf ha hj (own a (Bool.and_eq_true_iff.mp hb).2)
    exact e ▸ hb
  · exact fun hb => ⟨f, hf, hb⟩

theorem RegId.testBit_accMask {r : RegId} {f : FieldDef} {j : Nat} (hf : f ∈ r.fields) (hj : f.covers j)
    (as : List Access) : (r.accMask as).testBit j = as.contains f.acc := by
  rw [RegId.accMask, RegId.testBit_fieldMask hf hj (fun f => as.contains f.acc = true) fun f => maskOf f.hi f.lo]
  · rw [testBit_maskOf, decide_eq_true (p := f.lo ≤ j ∧ j ≤ f.hi) hj, Bool.and_true, Bool.decide_eq_true]
  · exact fun a ha => of_decide_eq_true (p := a.lo ≤ j ∧ j ≤ a.hi) (testBit_maskOf a.hi a.lo j ▸ ha)

theorem RegId.testBit_w1cMask {r : RegId} {f : FieldDef} {j : Nat} (hf : f ∈ r.fields) (hj : f.covers j) (v : Nat) :
    (r.w1cMask v).testBit j =
      (decide (f.acc = .w1c ∧ bits v f.hi f.lo ≠ 0) && (r.w1cWhole || v.testBit j)) := by
  have part (a : FieldDef) : (if r.w1cWhole then maskOf a.hi a.lo else maskOf a.hi a.lo &&& v).testBit j =
      (decide (a.lo ≤ j ∧ j ≤ a.hi) && (r.w1cWhole || v.testBit j)) := by
    cases r.w1cWhole <;> simp [testBit_maskOf]
  rw [RegId.w1cMask, RegId.testBit_fieldMask hf hj (fun f => f.acc = .w1c ∧ bits v f.hi f.lo ≠ 0)
    fun a => if r.w1cWhole then maskOf a.hi a.lo else maskOf a.hi a.lo &&& v]
  · rw [part, decide_eq_true (p := f.lo ≤ j ∧ j ≤ f.hi) hj, Bool.true_and]
  · exact fun a ha => of_decide_eq_true (p := a.lo ≤ j ∧ j ≤ a.hi) (Bool.and_eq_true_iff.mp (part a ▸ ha)).1

/-! ### The write -/

section
variable (s : State) (r : RegId) (i v : Nat)

theorem State.regWrite_frame : { s.regWrite r i v with regs := s.regs } = s := by
  unfold State.regWrite
  dsimp only
  split <;> rfl

theorem State.regWrite_live : (s.regWrite r i v).regs.live = mapSet s.regs.live (r.off i)
    (BitVec.ofNat 32 (mixBits (r.w1cMask v) (mixBits (r.accMask [.rw]) (s.liveWord r i).toNat v) 0)) := by
  unfold State.regWrite
  dsimp only
  split <;> rfl

theorem State.regWrite_base : (s.regWrite r i v).regs.base = mapSet s.regs.base (r.off i)
    (BitVec.ofNat 32 (mixBits (r.accMask [.rw] |||
      if s.regs.rwsTaken.contains (r.off i) then 0 else r.accMask [.rws]) (s.baseWord r i).toNat v)) := by
  unfold State.regWrite
  dsimp only
  split <;> rfl

/-- The live words after a write: the one of the register written, and no other. -/
theorem State.liveWord_regWrite (q : RegId) (j : Nat) : (s.regWrite r i v).liveWord q j =
    if q.off j = r.off i then
      BitVec.ofNat 32 (mixBits (r.w1cMask v) (mixBits (r.accMask [.rw]) (s.liveWord r i).toNat v) 0)
    else s.liveWord q j := by
  rw [State.liveWord, State.regWrite_live, mapGet_set]
  rfl

/-- The base words after a write: the one of the register written, and no other. -/
theorem State.baseWord_regWrite (q : RegId) (j : Nat) : (s.regWrite r i v).baseWord q j =
    if q.off j = r.off i then
      BitVec.ofNat 32 (mixBits (r.accMask [.rw] |||
        if s.regs.rwsTaken.contains (r.off i) then 0 else r.accMask [.rws]) (s.baseWord r i).toNat v)
    else s.baseWord q j := by
  rw [State.baseWord, State.regWrite_base, mapGet_set]
  rfl

variable {r} {f : FieldDef} {j : Nat} (hf : f ∈ r.fields) (hj : f.covers j)
include hf hj

theorem State.testBit_liveWord_regWrite : ((s.regWrite r i v).liveWord r i).toNat.testBit j =
    if (f.acc = .w1c ∧ bits v f.hi f.lo ≠ 0) ∧ (r.w1cWhole = true ∨ v.testBit j = true) then false
    else if f.acc = .rw then v.testBit j else (s.liveWord r i).toNat.testBit j := by
  have h32 := RegId.covers_lt hf hj
  rw [State.liveWord_regWrite, if_pos rfl, testBit_toNat_ofNat _ h32, testBit_mixBits _ _ _ h32, testBit_mixBits _ _ _ h32,
    RegId.testBit_w1cMask hf hj, RegId.testBit_accMask hf hj]
  simp

theorem State.testBit_baseWord_regWrite : ((s.regWrite r i v).baseWord r i).toNat.testBit j =
    if f.acc = .rw ∨ f.acc = .rws ∧ s.regs.rwsTaken.contains (r.off i) = false then v.testBit j
    else (s.baseWord r i).toNat.testBit j := by
  have h32 := RegId.covers_lt hf hj
  rw [State.baseWord_regWrite, if_pos rfl, testBit_toNat_ofNat _ h32, testBit_mixBits _ _ _ h32, Nat.testBit_or,
    RegId.testBit_accMask hf hj]
  cases s.regs.rwsTaken.contains (r.off i)
  · simp [RegId.testBit_accMask hf hj]
  · simp

end

/-! ### A field after the write, by its access code -/

section
variable (s : State) {r : RegId} (i v : Nat) {f : FieldDef} (hf : f ∈ r.fields)
include hf

theorem State.regWrite_rw_live (ha : f.acc = .rw) :
    bits ((s.regWrite r i v).liveWord r i).toNat f.hi f.lo = bits v f.hi f.lo :=
  bits_congr fun j h₁ h₂ => by simp [State.testBit_liveWord_regWrite s i v hf ⟨h₁, h₂⟩, ha]

theorem State.regWrite_rw_base (ha : f.acc = .rw) :
    bits ((s.regWrite r i v).baseWord r i).toNat f.hi f.lo = bits v f.hi f.lo :=
  bits_congr fun j h₁ h₂ => by simp [State.testBit_baseWord_regWrite s i v hf ⟨h₁, h₂⟩, ha]

/-- A field that is neither RW nor W1C takes nothing live. -/
theorem State.regWrite_keeps_live (hrw : f.acc ≠ .rw) (hw1c : f.acc ≠ .w1c) :
    bits ((s.regWrite r i v).liveWord r i).toNat f.hi f.lo = bits (s.liveWord r i).toNat f.hi f.lo :=
  bits_congr fun j h₁ h₂ => by simp [State.testBit_liveWord_regWrite s i v hf ⟨h₁, h₂⟩, hrw, hw1c]

theorem State.regWrite_w1c_whole (ha : f.acc = .w1c) (hw : r.w1cWhole = true) :
    bits ((s.regWrite r i v).liveWord r i).toNat f.hi f.lo =
      if bits v f.hi f.lo = 0 then bits (s.liveWord r i).toNat f.hi f.lo else 0 := by
  split
  · next h => exact bits_congr fun j h₁ h₂ => by simp [State.testBit_liveWord_regWrite s i v hf ⟨h₁, h₂⟩, ha, h]
  · next h => exact bits_eq_zero fun j h₁ h₂ => by simp [State.testBit_liveWord_regWrite s i v hf ⟨h₁, h₂⟩, ha, hw, h]

theorem State.regWrite_w1c_bit {j : Nat} (ha : f.acc = .w1c) (hw : r.w1cWhole = false) (hj : f.covers j) :
    bitB ((s.regWrite r i v).liveWord r i).toNat j = (bitB (s.liveWord r i).toNat j && !bitB v j) := by
  simp only [bitB_eq_testBit, State.testBit_liveWord_regWrite s i v hf hj, ha, hw]
  by_cases hv : v.testBit j = true
  · simp [hv, bits_ne_zero hj.1 hj.2 hv]
  · simp [hv]

theorem State.regWrite_rws_base (ha : f.acc = .rws) : bits ((s.regWrite r i v).baseWord r i).toNat f.hi f.lo =
    if s.regs.rwsTaken.contains (r.off i) = true then bits (s.baseWord r i).toNat f.hi f.lo else bits v f.hi f.lo := by
  split
  · next h =>
    exact bits_congr fun j h₁ h₂ => by rw [State.testBit_baseWord_regWrite s i v hf ⟨h₁, h₂⟩, ha, h]; simp
  · next h =>
    exact bits_congr fun j h₁ h₂ => by
      rw [State.testBit_baseWord_regWrite s i v hf ⟨h₁, h₂⟩, ha, Bool.eq_false_iff.mpr h]; simp

end

/-! ### REGISTER_WRITE -/

/-- Five registers have something follow a plain write; nothing follows it in the others. -/
theorem State.afterWrite_eq_self {s : State} {r : RegId} (i v : Nat) (hctl : r ≠ .STC_CTL) (hduty : r ≠ .STC_DUTY)
    (hdmc : r ≠ .DMC_CTL) (hcache : r ≠ .SCACHE_CTL) (hport : r ≠ .HPORT_CFG) : s.afterWrite r i v = s := by
  unfold State.afterWrite
  split
  case h_6 => rfl
  all_goals contradiction

/-- REGISTER_WRITE of a register that starts nothing is the plain write and what follows it. -/
theorem exec_registerWrite_plain {s : State} {off v : Nat} {r : RegId} {i : Nat} (hup : s.pwr.ctlUp = true)
    (hoff : offAssigned off = true) (hsh : shadowAt off = none) (hreg : regAt (off / 4 * 4) = some (r, i))
    (hshut : s.writeShut r i = false) (hst : startWrite r i (v % 2 ^ 32) s = none) :
    exec (.registerWrite off v) s = .next ((s.plainWrite r i (v % 2 ^ 32)).afterWrite r i (v % 2 ^ 32)) := by
  change execRegisterWrite off v s = _
  simp only [execRegisterWrite, State.ctlWrite, hup, hoff, hsh, hreg, hshut, hst, Bool.not_true, Option.isSome_none,
    Bool.false_eq_true, if_false]

/-- Settles O16: each access code is read off the bits that `State.regWrite` takes from the value written. -/
theorem registerFieldsFollowTheirAccessCodes : Obligations.RegisterFieldsFollowTheirAccessCodes := by
  unfold Obligations.RegisterFieldsFollowTheirAccessCodes
  constructor
  · intro s off v r i hup hoff hsh hreg hshut hst hack hctl hduty hdmc hcache hport
    rw [exec_registerWrite_plain hup hoff hsh hreg hshut hst, State.afterWrite_eq_self _ _ hctl hduty hdmc hcache hport,
      State.plainWrite, if_neg hack]
  · intro s r i v f hf
    refine ⟨s.regWrite_frame r i v, fun q j hq => ⟨?_, ?_⟩,
      fun ha => ⟨s.regWrite_rw_live i v hf ha, s.regWrite_rw_base i v hf ha⟩, fun ha => ?_,
      s.regWrite_w1c_whole i v hf, fun ha hw j h₁ h₂ => s.regWrite_w1c_bit i v hf ha hw ⟨h₁, h₂⟩, s.regWrite_rws_base i v hf⟩
    · rw [State.liveWord_regWrite, if_neg hq]
    · rw [State.baseWord_regWrite, if_neg hq]
    · exact s.regWrite_keeps_live i v hf (fun h => by simp [h] at ha) fun h => by simp [h] at ha

end Sys2Proof.Machine

namespace Sys2Proof.Machine

/-! Stage-core accesses of unassigned offsets (R36). -/

theorem State.ctlAccess_unassigned {s : State} {off : Nat} (hup : s.pwr.ctlUp = true) (hoff : offAssigned off = false)
    (write : Bool) : s.ctlAccess off write =
      if write then s.raiseD Ev.CTL_UNMAPPED off else (s.raiseD Ev.CTL_UNMAPPED off).send (.ctlRead off 0) := by
  simp [State.ctlAccess, hup, hoff]

theorem State.ctlWrite_unassigned {s : State} {off : Nat} (hup : s.pwr.ctlUp = true) (hoff : offAssigned off = false)
    (value : Nat) : s.ctlWrite off value = s.raiseD Ev.CTL_UNMAPPED off := by
  simp [State.ctlWrite, hup, hoff]

/-- Settles O15: an unassigned offset passes the guard of each access and leaves the event, with the zero for a read. -/
theorem unassignedApertureOffsets : Obligations.UnassignedApertureOffsets := by
  unfold Obligations.UnassignedApertureOffsets
  exact ⟨rfl, fun s off value hup hoff =>
    ⟨congrArg Host.Outcome.next (State.ctlAccess_unassigned hup hoff false),
      congrArg Host.Outcome.next (State.ctlAccess_unassigned hup hoff true),
      congrArg Host.Outcome.next (State.ctlWrite_unassigned hup hoff value)⟩⟩

end Sys2Proof.Machine

namespace Sys2Proof.Machine

/-! Requests of the hosts and what ends them (R25, R105, R106, R115 to R117, R154, R311, R314, R315, R388). -/

/-! ### Arrival at port ingress -/

theorem State.flag_eq_false {s : State} {f : Fld} {i : Nat} (h : s.fld f i = 0) : s.flag f i = false := by
  simp [State.flag, h]

/-- A stream that is not secure uses up nothing (R118). -/
theorem State.ideUse_insecure {s : State} {link : Nat} (h : s.fld F.HPORT_STAT_ide_secure link = 0) (out : Bool) :
    s.ideUse link out = (s, true) := by
  simp [State.ideUse, State.flag_eq_false h]

theorem State.meetError_none {s : State} {line : Nat} (h : mapGet? s.dram.erroneous line = none) (cls : Nat) :
    s.meetError .none line cls = s := by
  simp [State.meetError, State.dramAgain, h]

theorem State.hostArrives_unserved {s : State} {q : Ingress} (h : s.linkServes q.link = false) (err : PathErr) :
    s.hostArrives q err = s := by
  simp [State.hostArrives, h]

/-- A load as it comes over a link. -/
def Ingress.load (link key hpa tag : Nat) (own : Bool) : Ingress := ⟨link, key, hpa, tag, false, own, 0, 0, 0, false, false⟩

/-- A store as it comes over a link. -/
def Ingress.store (link key hpa tag mask : Nat) (data : Line) : Ingress :=
  ⟨link, key, hpa, tag, true, false, mask % 2 ^ 64, data, 0, false, false⟩

theorem exec_hostLoad (link key hpa tag : Nat) (own : Bool) (err : PathErr) (s : State) :
    exec (.hostLoad link key hpa tag own err) s = .next (s.hostArrives (.load link key hpa tag own) err) := rfl

theorem exec_hostStore (link key hpa tag mask : Nat) (data : Line) (err : PathErr) (s : State) :
    exec (.hostStore link key hpa tag mask data err) s = .next (s.hostArrives (.store link key hpa tag mask data) err) := rfl

/-- The request as port ingress marks it where the link's stream is not secure (R105, R170, R681). -/
def State.marked (s : State) (q : Ingress) (bad : Bool) : Ingress :=
  { q with t0 := s.clock, insecure := s.flag F.HPORT_CFG_ide_req q.link, bad := bad }

section
variable {s : State} {q : Ingress} (hserves : s.linkServes q.link = true) (hroom : s.ingressRoom q.link q.isStore = true)
  (hide : s.fld F.HPORT_STAT_ide_secure q.link = 0)
include hserves hroom hide

/-- A request that has a credit meets its error, if it passes the check or its buffer is damaged, and stands last at ingress. -/
theorem State.hostArrives_insecure (err : PathErr) :
    let q1 := s.marked q (err == .bufferUe)
    let k := s.checkHost q1
    s.hostArrives q err = ((if k.bad q1 = 0 ∨ err = .bufferUe then s.meetError err (k.dpa.getD q.hpa / 64) k.cls
      else s).atIngress q1).settle.runBells := by
  simp only [State.hostArrives, hserves, hroom, State.ideUse_insecure hide, State.flag_eq_false hide, Bool.not_true,
    Bool.not_false, Bool.or_self, Bool.and_true, Bool.false_eq_true, if_false]
  rfl

theorem State.hostArrives_clean
    (hclean : mapGet? s.dram.erroneous ((s.hdmTranslate (s.hdmDevice q.link q.key) q.hpa).getD q.hpa / 64) = none) :
    s.hostArrives q .none = (s.atIngress (s.marked q false)).settle.runBells := by
  have hmeet : ∀ cls, s.meetError .none ((s.checkHost (s.marked q false)).dpa.getD q.hpa / 64) cls = s :=
    State.meetError_none hclean
  refine (State.hostArrives_insecure hserves hroom hide .none).trans ?_
  rw [show ((PathErr.none == .bufferUe) = false) from rfl, hmeet, ite_self]

theorem State.hostArrives_bufferUe : s.hostArrives q .bufferUe =
    ((s.raiseD Ev.SRAM_UE ((s.hdmTranslate (s.hdmDevice q.link q.key) q.hpa).getD q.hpa / 64 * 64)).atIngress
      (s.marked q true)).settle.runBells := by
  refine (State.hostArrives_insecure hserves hroom hide .bufferUe).trans ?_
  rw [if_pos (Or.inr rfl)]
  rfl

end

/-! ### Loads whose stall bound has expired -/

section
variable {s : State} {r : Req} {link key hpa tag : Nat} (hheld : s.path.held = [r]) (hsrc : r.src = .host link key hpa tag)
  (hbound : r.bound ≤ s.clock)
include hheld hsrc hbound

theorem execHoldPoison_expired (hgate : r.gate = .applied) :
    execHoldPoison s = .next ((s.poisonLoad r 0).raiseD Ev.HOLD_POISON r.dpa).settle := by
  simp [execHoldPoison, hheld, hsrc, hbound, hgate]

theorem execStallBoundPoison_expired (hload : r.isStore = false) (hgate : r.gate = .staging) :
    execStallBoundPoison s = .next ((s.poisonLoad r 0).raiseD Ev.STALL_BOUND_POISON r.dpa).settle := by
  simp [execStallBoundPoison, hheld, hsrc, hbound, hgate, hload]

end

section
variable {s : State} (hbound : ∀ r ∈ s.path.held, s.clock < r.bound)
include hbound

theorem execHoldPoison_unexpired : execHoldPoison s = .next s.settle := by
  unfold execHoldPoison
  rw [List.filter_eq_nil_iff.mpr fun r hr => by
    simp only [decide_eq_false (Nat.not_le.mpr (hbound r hr)), Bool.and_false, Bool.false_and, Bool.false_eq_true,
      not_false_eq_true]]
  rfl

theorem execStallBoundPoison_unexpired : execStallBoundPoison s = .next s.settle := by
  unfold execStallBoundPoison
  rw [List.filter_eq_nil_iff.mpr fun r hr => by
    simp only [decide_eq_false (Nat.not_le.mpr (hbound r hr)), Bool.and_false, Bool.false_and, Bool.false_eq_true,
      not_false_eq_true]]
  rfl

end

/-! ### Back-Invalidate -/

/-- The wait after an answer of a holder for a line. -/
def BiWait.answered (w : BiWait) (h : Holder) (line : Nat) : BiWait :=
  if w.line == line then { w with left := w.left.filter (· != h) } else w

/-- An applied store after the waits `ws` have ended. -/
def Applied.freed (a : Applied) (ws : List BiWait) : Applied :=
  { a with bi := a.bi.filter fun l => ws.all (l != ·.line) }

theorem Applied.freed_nil (a : Applied) : a.freed [] = a :=
  congrArg (fun bi => { a with bi := bi }) (List.filter_eq_self.mpr fun _ _ => rfl)

/-- The applied stores wait no longer for the line of a wait that has ended (R116). -/
def State.endBi (s : State) (w : BiWait) : State :=
  { s with path := { s.path with applied := s.path.applied.map fun a => { a with bi := a.bi.filter (· != w.line) } } }

theorem State.foldl_endBi (ws : List BiWait) (s : State) : ws.foldl State.endBi s =
    { s with path := { s.path with applied := s.path.applied.map (·.freed ws) } } := by
  induction ws generalizing s with
  | nil => simp only [List.foldl_nil, Applied.freed_nil, List.map_id_fun', id]
  | cons w ws ih => simp [ih, State.endBi, Applied.freed, Function.comp_def, List.filter_filter, Bool.and_comm]

/-- The waits of every line after an answer, the ended ones among them. -/
def State.answeredWaits (s : State) (h : Holder) (line : Nat) : List BiWait := s.host.biWaits.map (·.answered h line)

/-- The holders that the snoop filter keeps after an answer. -/
def State.answeredSnoop (s : State) (h : Holder) (line : Nat) : List (Nat × List Holder) :=
  let left := (mapGet [] s.host.snoop line).filter (· != h)
  if left.isEmpty then mapDel s.host.snoop line else mapSet s.host.snoop line left

/-- The state after an answer, before what waited goes on (R115, R116). -/
def State.afterBirsp (s : State) (h : Holder) (line : Nat) : State :=
  { s with
    host := { s.host with biWaits := (s.answeredWaits h line).filter (!·.left.isEmpty)
                          snoop := s.answeredSnoop h line }
    path := { s.path with
      applied := s.path.applied.map (·.freed ((s.answeredWaits h line).filter (·.left.isEmpty))) } }

theorem execBirsp_eq (link key line : Nat) (s : State) :
    execBirsp link key line s = .next (s.afterBirsp { link := link, key := key } line).settle :=
  congrArg (fun t : State => Host.Outcome.next t.settle) (State.foldl_endBi _ _)

theorem BiWait.not_mem_left_answered {w : BiWait} {h : Holder} {line : Nat} (hl : (w.answered h line).line = line) :
    h ∉ (w.answered h line).left := by
  unfold BiWait.answered at hl
  by_cases h0 : w.line = line
  · simp [BiWait.answered, h0]
  · rw [if_neg (by simpa using h0)] at hl
    exact absurd hl h0

theorem BiWait.answered_last {w : BiWait} {h : Holder} {line : Nat} (hl : w.line = line) (hh : ∀ x ∈ w.left, x = h) :
    w.answered h line = { w with left := [] } := by
  rw [BiWait.answered, if_pos (beq_iff_eq.mpr hl), List.filter_eq_nil_iff.mpr fun x hx => by simp [hh x hx]]

theorem State.afterBirsp_waits {s : State} {h : Holder} {line : Nat} {w : BiWait}
    (hw : w ∈ (s.afterBirsp h line).host.biWaits) : w.left ≠ [] ∧ (w.line = line → h ∉ w.left) := by
  obtain ⟨hmem, hleft⟩ := List.mem_filter.mp hw
  obtain ⟨v, -, rfl⟩ := List.mem_map.mp hmem
  exact ⟨by simpa using hleft, BiWait.not_mem_left_answered⟩

/-- The last answer for a line ends its wait at every applied store. -/
theorem State.afterBirsp_applied {s : State} {h : Holder} {line : Nat} {a : Applied} {w : BiWait}
    (ha : a ∈ (s.afterBirsp h line).path.applied) (hw : w ∈ s.host.biWaits) (hl : w.line = line)
    (hh : ∀ x ∈ w.left, x = h) : line ∉ a.bi := by
  have hdone : { w with left := [] } ∈ (s.answeredWaits h line).filter (·.left.isEmpty) :=
    List.mem_filter.mpr ⟨List.mem_map.mpr ⟨w, hw, BiWait.answered_last hl hh⟩, rfl⟩
  obtain ⟨b, -, rfl⟩ := List.mem_map.mp ha
  intro hmem
  have := List.all_eq_true.mp (List.mem_filter.mp hmem).2 _ hdone
  simp [hl] at this

theorem biWarn_pos : 0 < biWarn := by decide

theorem execBiSlow_one {s : State} {w : BiWait} (hw : s.host.biWaits = [w]) :
    execBiSlow s = .next (if w.warned + biWarn ≤ s.clock then
      ({ s with host := { s.host with biWaits := [{ w with warned := w.warned + biWarn }] } }).raiseD Ev.BI_SLOW (w.line * 64)
      else s) := by
  by_cases h : w.warned + biWarn ≤ s.clock
  · simp [execBiSlow, hw, h, biWarn_pos]
  · simp [execBiSlow, hw, h]

/-! ### The ends of folio reads -/

/-- The contents of a folio in STAGING fill its frame (R388). -/
theorem State.readGood_staging {s : State} {r : ReadJob} {ff : FlashFolio} (hcls : r.cls < 8)
    (hrep : s.inRepair r.folio = false) (hst : (s.folio r.folio).state = .staging)
    (hff : mapGet? s.flash.store ((r.quire * 16 + r.leaf) * 4 + r.slot) = some ff) :
    s.readGood r false = s.fillFolio r.folio ff.cells := by
  simp [State.readGood, hff, hrep, hst, Nat.not_le.mpr hcls]

section
variable {s : State} {r : ReadJob} (hr : s.readOf r.folio r.cls = some r)
include hr

theorem execLeafReadDone_good (recon : ReadEnd) (fixed : Nat) (hm : r.missing = false)
    (hl : s.leafMissing r.quire r.leaf = false) :
    execLeafReadDone r.folio r.cls .good recon fixed false s =
      .next (((s.dropRead r).addSat F.FLASH_LDPC_CNT_corrected
        (2 * adSlot (s.readLeaf r) + bits (s.readLeaf r) 27 27) fixed).readGood r false).settle := by
  simp [execLeafReadDone, hr, hm, hl, State.readEvent, readEndEvent]

theorem execSlowReadAbandon_due (recon : ReadEnd) (hcls : r.cls < 9) (hdue : r.since + r.slowMs * 1000 ≤ s.clock) :
    execSlowReadAbandon r.folio r.cls recon s =
      .next ((((s.dropRead r).slowEvent (s.readLeaf r)).reconstruct r recon).flashRegs).settle := by
  have hown : ¬ (r.cls = 9 ∨ r.cls = 10) := by omega
  simp [execSlowReadAbandon, hr, hown, State.due, hdue]

end

section
variable {s : State} {folio cls : Nat} (hnone : s.readOf folio cls = none)
include hnone

theorem execLeafReadDone_none (out recon : ReadEnd) (fixed : Nat) (suspended : Bool) :
    execLeafReadDone folio cls out recon fixed suspended s = .next s := by
  simp [execLeafReadDone, hnone]

theorem execSlowReadAbandon_none (recon : ReadEnd) : execSlowReadAbandon folio cls recon s = .next s := by
  simp [execSlowReadAbandon, hnone]

end

/-- Settles O18: each clause is the rule above of its command. -/
theorem hostRequestsAndTheirEnds : Obligations.HostRequestsAndTheirEnds := by
  unfold Obligations.HostRequestsAndTheirEnds
  refine ⟨?load, ?store, ?unserved, ?expired, ?unexpired, ?birsp, ?slow, ?read, ?abandon, ?noRead⟩
  case load =>
    intro s link key hpa tag own hserves hroom hide hclean
    rw [exec_hostLoad, exec_hostLoad, State.hostArrives_clean (q := .load link key hpa tag own) hserves hroom hide hclean,
      State.hostArrives_bufferUe (q := .load link key hpa tag own) hserves hroom hide]
    exact ⟨rfl, rfl⟩
  case store =>
    intro s link key hpa tag mask data hserves hroom hide hclean
    rw [exec_hostStore, State.hostArrives_clean (q := .store link key hpa tag mask data) hserves hroom hide hclean]
    rfl
  case unserved =>
    intro s link key hpa tag mask own data e h
    rw [exec_hostLoad, exec_hostStore, State.hostArrives_unserved (q := .load link key hpa tag own) h,
      State.hostArrives_unserved (q := .store link key hpa tag mask data) h]
    exact ⟨rfl, rfl⟩
  case expired =>
    intro s r link key hpa tag hheld hsrc hload hbound
    exact ⟨execHoldPoison_expired hheld hsrc hbound, execStallBoundPoison_expired hheld hsrc hbound hload⟩
  case unexpired => exact fun s hbound => ⟨execHoldPoison_unexpired hbound, execStallBoundPoison_unexpired hbound⟩
  case birsp =>
    intro s link key line
    exact ⟨s.afterBirsp { link := link, key := key } line, execBirsp_eq link key line s, fun w => State.afterBirsp_waits,
      fun a ha w => State.afterBirsp_applied ha, rfl, rfl⟩
  case slow => exact fun s w => execBiSlow_one
  case read =>
    intro s r fixed ff hr hm hl hcls hrep hst hff
    refine (execLeafReadDone_good hr .good fixed hm hl).trans ?_
    rw [State.readGood_staging (s := (s.dropRead r).addSat _ _ _) hcls hrep hst hff]
  case abandon => exact fun s r recon hr => execSlowReadAbandon_due hr recon
  case noRead =>
    intro s folio cls out recon fixed b hnone
    exact ⟨execLeafReadDone_none hnone out recon fixed b, execSlowReadAbandon_none hnone recon⟩

end Sys2Proof.Machine

namespace Sys2Proof.Machine

/-! What the operations of a reset leave of the power unit (R57 to R63): the start's step, SYS_RESET_N, the warm-start record
and the links in reset lie in it, and none of these operations writes them. -/

section
variable {s : State}

/-- What every operation of a fold leaves, the fold leaves. -/
theorem State.foldl_proj {α β : Type} (π : State → β) {f : State → α → State} (h : ∀ st a, π (f st a) = π st)
    (l : List α) : π (l.foldl f s) = π s := by
  induction l generalizing s with
  | nil => rfl
  | cons a t ih => exact ih.trans (h s a)

theorem State.foldl_pwr {α : Type} {f : State → α → State} (h : ∀ st a, (f st a).pwr = st.pwr) (l : List α) :
    (l.foldl f s).pwr = s.pwr := foldl_proj State.pwr h l

/-! ### Stage cores, scenes and links -/

@[simp] theorem State.dutiesNow_pwr : s.dutiesNow.pwr = s.pwr := rfl

@[simp] theorem State.coresFollow_pwr : s.coresFollow.pwr = s.pwr := by simp [coresFollow, foldl_pwr, apply_ite pwr]

@[simp] theorem State.rollEnd_pwr : s.rollEnd.pwr = s.pwr := by
  unfold rollEnd
  split
  · rfl
  · dsimp only
    split
    · rfl
    · simp

@[simp] theorem State.sceneChange_pwr (setBits clearBits : Nat) : (s.sceneChange setBits clearBits).pwr = s.pwr := by
  simp [sceneChange, apply_ite pwr]

@[simp] theorem State.linkLeave_pwr (link : Nat) : (s.linkLeave link).pwr = s.pwr := by simp [linkLeave, apply_ite pwr]

@[simp] theorem State.setMode_pwr (link : Nat) : (s.setMode link).pwr = s.pwr := rfl

/-! ### DRAM, the cache and the folios -/

@[simp] theorem State.setFolio_pwr (f : Nat) (x : Folio) : (s.setFolio f x).pwr = s.pwr := rfl

@[simp] theorem State.setChan_pwr (c : Nat) (x : Chan) : (s.setChan c x).pwr = s.pwr := rfl

@[simp] theorem State.wakeChan_pwr (dpa : Nat) : (s.wakeChan dpa).pwr = s.pwr := rfl

@[simp] theorem State.dramPut_pwr (line mask : Nat) (data : Line) : (s.dramPut line mask data).pwr = s.pwr := rfl

@[simp] theorem State.mergeOut_pwr (m : MergeEntry) : (s.mergeOut m).pwr = s.pwr := rfl

@[simp] theorem State.mergeDrain_pwr : s.mergeDrain.pwr = s.pwr := foldl_pwr (fun _ m => mergeOut_pwr m) _

@[simp] theorem State.dramWrite_pwr (line mask : Nat) (data : Line) : (s.dramWrite line mask data).pwr = s.pwr := by
  unfold dramWrite
  dsimp only
  split
  · simp
  · split
    · rfl
    · split
      · simp [apply_ite State.pwr]
      · split
        · simp [apply_ite State.pwr]
        · rfl

theorem State.takeFrameOf_pwr {ok : Nat → Bool} {f : Nat} {t : State} (h : s.takeFrameOf ok = some (f, t)) :
    t.pwr = s.pwr := by
  unfold takeFrameOf at h
  dsimp only at h
  split at h <;> cases h
  rfl

theorem State.pairFrameFor_pwr {x : Folio} {f : Nat} {t : State} (h : s.pairFrameFor x = some (f, t)) :
    t.pwr = s.pwr := by
  unfold pairFrameFor takeFrame frameBeside at h
  split at h
  · exact takeFrameOf_pwr h
  · split at h
    · next hbeside => exact takeFrameOf_pwr (hbeside.trans h)
    · exact takeFrameOf_pwr h

@[simp] theorem State.takePair_pwr (f : Nat) : (s.takePair f).pwr = s.pwr := by
  unfold takePair
  dsimp only
  split
  · rfl
  · split
    · next hfor => exact (pairFrameFor_pwr hfor :)
    · rfl

@[simp] theorem State.wakePair_pwr (f : Nat) : (s.wakePair f).pwr = s.pwr := by
  unfold wakePair
  split <;> simp

@[simp] theorem State.secondWrite_pwr (line mask : Nat) (data : Line) : (s.secondWrite line mask data).pwr = s.pwr := by
  simp [secondWrite]

@[simp] theorem State.markLine_pwr (line : Nat) : (s.markLine line).pwr = s.pwr := by simp [markLine, apply_ite pwr]

@[simp] theorem State.dramStore_pwr (e : Rgn) (line mask : Nat) (data : Line) :
    (s.dramStore e line mask data).pwr = s.pwr := by simp [dramStore, apply_ite pwr]

@[simp] theorem State.cacheCount_pwr : s.cacheCount.pwr = s.pwr := rfl

@[simp] theorem State.writeBack_pwr (k : Nat) (c : CLine) : (s.writeBack k c).pwr = s.pwr := by
  unfold writeBack
  dsimp only
  split
  · cases s.regionAt (c.line * 64) <;> simp
  · rfl

@[simp] theorem State.cleanWays_pwr (sel : Nat → CLine → Bool) : (s.cleanWays sel).pwr = s.pwr := by
  simp [cleanWays, foldl_pwr]

@[simp] theorem State.sendAhead_pwr (f : Nat) : (s.sendAhead f).pwr = s.pwr := by simp [sendAhead, apply_ite pwr]

@[simp] theorem State.jRecount_pwr : s.jRecount.pwr = s.pwr := rfl

@[simp] theorem State.subInk_pwr (r : Option Nat) (n : Nat) : (s.subInk r n).pwr = s.pwr := by cases r <;> rfl

@[simp] theorem State.setStagePool_pwr : s.setStagePool.pwr = s.pwr := rfl

@[simp] theorem State.pairShrink_pwr : s.pairShrink.pwr = s.pwr := by
  simp [pairShrink, apply_ite State.pwr]

@[simp] theorem State.folioClean_pwr (f : Nat) : (s.folioClean f).pwr = s.pwr := by
  simp [folioClean, apply_ite State.pwr]

/-! ### The journal -/

@[simp] theorem State.twinSend_pwr (type : Nat) (body : TwinBody) (bounded : Option Nat) (accs : List Nat) :
    (s.twinSend type body bounded accs).pwr = s.pwr := rfl

@[simp] theorem State.twinSendUp_pwr (type : Nat) (body : TwinBody) : (s.twinSendUp type body).pwr = s.pwr := by
  simp [twinSendUp, apply_ite pwr]

@[simp] theorem State.opBegin_pwr (die : Nat) : (s.opBegin die).pwr = s.pwr := by
  unfold opBegin
  split <;> simp

@[simp] theorem State.journal3_pwr : s.journal3.pwr = s.pwr := rfl

@[simp] theorem State.jProgram_pwr (index : Nat) (slots : List Nat) : (s.jProgram index slots).pwr = s.pwr := by
  simp [jProgram, foldl_pwr]

@[simp] theorem State.jIssue_pwr (l : JLeaf) : (s.jIssue l).pwr = s.pwr := by simp [jIssue, apply_ite pwr]

@[simp] theorem State.jClose_pwr : s.jClose.pwr = s.pwr := by
  unfold jClose
  dsimp only
  split <;> simp

@[simp] theorem State.jAppend_pwr (r : JRec) : (s.jAppend r).pwr = s.pwr := by simp [jAppend, apply_ite pwr]

@[simp] theorem State.markLost_pwr (f : Nat) (set : Bool) : (s.markLost f set).pwr = s.pwr := by
  simp [markLost, apply_ite pwr]

/-! ### The tracker and cue runs -/

@[simp] theorem State.entryCount_pwr : s.entryCount.pwr = s.pwr := rfl

@[simp] theorem State.peakUp_pwr (link : Nat) : (s.peakUp link).pwr = s.pwr := by simp [peakUp, apply_ite pwr]

@[simp] theorem State.trackerRegs_pwr : s.trackerRegs.pwr = s.pwr := by simp [trackerRegs, foldl_pwr, apply_ite pwr]

@[simp] theorem State.setCueRun_pwr (r : CueRun) : (s.setCueRun r).pwr = s.pwr := rfl

@[simp] theorem State.runCount_pwr : s.runCount.pwr = s.pwr := rfl

@[simp] theorem State.openRun_pwr (r : CueRun) : (s.openRun r).pwr = s.pwr := by simp [openRun, apply_ite pwr]

@[simp] theorem State.openRuns_pwr : s.openRuns.pwr = s.pwr := by simp [openRuns, foldl_pwr, apply_ite pwr]

@[simp] theorem State.unpinFolio_pwr (f : Nat) : (s.unpinFolio f).pwr = s.pwr := by simp [unpinFolio, apply_ite pwr]

@[simp] theorem State.closeRun_pwr (k : Nat) : (s.closeRun k).pwr = s.pwr := by
  unfold closeRun
  split <;> simp [foldl_pwr]

/-! ### Jobs, and the end of a cache operation -/

@[simp] theorem State.maintRegs_pwr : s.maintRegs.pwr = s.pwr := rfl

@[simp] theorem State.setJob_pwr (j : Job) : (s.setJob j).pwr = s.pwr := rfl

@[simp] theorem State.submit_pwr (fr : JobFrom) (queue : Bool) (act target p0 p1 p2 : Nat) :
    (s.submit fr queue act target p0 p1 p2).1.pwr = s.pwr := by
  unfold submit
  dsimp only
  split
  · simp
  · split <;> simp

@[simp] theorem State.ownJob_pwr (act target p0 p1 : Nat) : (s.ownJob act target p0 p1).pwr = s.pwr := by simp [ownJob]

@[simp] theorem State.markStarted_pwr (j : Job) : (s.markStarted j).pwr = s.pwr := by simp [markStarted]

@[simp] theorem State.endJob_pwr (id status : Nat) : (s.endJob id status).pwr = s.pwr := by
  unfold endJob
  split
  · rfl
  · next j _ =>
    dsimp only
    split
    · rfl
    · cases j.waiter <;> simp [apply_ite pwr]

@[simp] theorem State.maintEnd_pwr (st : Nat) : (s.maintEnd st).pwr = s.pwr := by simp [maintEnd]

@[simp] theorem State.cacheStrike_pwr : s.cacheStrike.pwr = s.pwr := by simp [cacheStrike, apply_ite pwr]

/-! ### Blocks, groups and quires -/

@[simp] theorem State.setDie_pwr (slot i : Nat) (d : DieBlocks) : (s.setDie slot i d).pwr = s.pwr := rfl

@[simp] theorem State.setPermits_pwr (lo n : Nat) : (s.setPermits lo n).pwr = s.pwr := rfl

@[simp] theorem State.clearPermit_pwr (a : Nat) : (s.clearPermit a).pwr = s.pwr := rfl

@[simp] theorem State.suspEnd_pwr (a : Nat) : (s.suspEnd a).pwr = s.pwr := rfl

@[simp] theorem State.eraseBlock_pwr (a : Nat) : (s.eraseBlock a).pwr = s.pwr := by simp [eraseBlock, apply_ite pwr]

@[simp] theorem State.eraseNow_pwr (a : Nat) : (s.eraseNow a).pwr = s.pwr := by simp [eraseNow]

@[simp] theorem State.setGroup_pwr (g : Group) : (s.setGroup g).pwr = s.pwr := rfl

@[simp] theorem State.truncate_pwr (g : Group) : (s.truncate g).pwr = s.pwr := by simp [truncate]

@[simp] theorem State.truncateIf_pwr (sel : Group → Bool) : (s.truncateIf sel).pwr = s.pwr := by
  simp [truncateIf, foldl_pwr]

@[simp] theorem State.jReplace_pwr : s.jReplace.pwr = s.pwr := by simp [jReplace, foldl_pwr, apply_ite pwr]

@[simp] theorem State.jLose_pwr (gone : Nat → Nat → Bool) : (s.jLose gone).pwr = s.pwr := by simp [jLose, apply_ite pwr]

@[simp] theorem State.jSettled_pwr : s.jSettled.pwr = s.pwr := by simp [jSettled, apply_ite pwr]

@[simp] theorem State.dropQuire_pwr (q : QuireJob) : (s.dropQuire q).pwr = s.pwr := by
  unfold dropQuire
  refine (foldl_pwr (fun st fs => ?_) _).trans ?_
  · cases fs.kind <;> simp [apply_ite pwr]
  · cases s.groupOf (q.quire / 1024) with
    | none => rfl
    | some g => exact foldl_pwr (fun _ _ => by split <;> rfl) _

@[simp] theorem State.abandonQuire_pwr (q : QuireJob) (pos : Nat) : (s.abandonQuire q pos).pwr = s.pwr := by
  unfold abandonQuire
  dsimp only
  split <;> simp [apply_ite pwr]

@[simp] theorem State.abandonOn_pwr (sel : Nat → Bool) : (s.abandonOn sel).pwr = s.pwr := by
  refine foldl_pwr (fun st q => ?_) _
  split
  · split <;> simp
  · rfl

@[simp] theorem State.readsMissing_pwr (sel : Nat → Bool) : (s.readsMissing sel).pwr = s.pwr := rfl

@[simp] theorem State.erasesEnd_pwr (sel : Nat → Bool) : (s.erasesEnd sel).pwr = s.pwr := by
  unfold erasesEnd
  refine foldl_pwr (fun st e => ?_) _
  rfl

@[simp] theorem State.startOwn_pwr (act : Nat) (started : EvId) : (s.startOwn act started).pwr = s.pwr := by
  unfold startOwn
  dsimp only
  split <;> simp [apply_ite pwr]

@[simp] theorem State.rebuildCheck_pwr : s.rebuildCheck.pwr = s.pwr := by simp [rebuildCheck, apply_ite pwr]

@[simp] theorem State.submitReshape_pwr : s.submitReshape.pwr = s.pwr := by simp [submitReshape, apply_ite pwr]

@[simp] theorem State.withdrawDegraded_pwr : s.withdrawDegraded.pwr = s.pwr := by simp [withdrawDegraded, apply_ite pwr]

@[simp] theorem State.askDegraded_pwr : s.askDegraded.pwr = s.pwr := by simp [askDegraded]

@[simp] theorem State.flashRegs_pwr : s.flashRegs.pwr = s.pwr := by simp [flashRegs]

@[simp] theorem State.widthUpdate_pwr : s.widthUpdate.pwr = s.pwr := by simp [widthUpdate, apply_ite pwr]

/-! ### Slots, cartridges and dies -/

@[simp] theorem State.slotLed_pwr (slot : Nat) : (s.slotLed slot).pwr = s.pwr := by simp [slotLed, apply_ite pwr]

@[simp] theorem State.setSlot_pwr (slot st : Nat) : (s.setSlot slot st).pwr = s.pwr := by simp [setSlot]

@[simp] theorem State.setCart_pwr (slot : Nat) (c : Cart) : (s.setCart slot c).pwr = s.pwr := rfl

@[simp] theorem State.slotPwr_pwr (slot : Nat) (on : Bool) : (s.slotPwr slot on).pwr = s.pwr := rfl

@[simp] theorem State.diesAbsent_pwr (slot : Nat) : (s.diesAbsent slot).pwr = s.pwr := by
  unfold diesAbsent
  exact foldl_pwr (fun st i => State.setLive_pwr st _ _ _) _

@[simp] theorem State.endSlotJobs_pwr (slot status : Nat) : (s.endSlotJobs slot status).pwr = s.pwr := by
  simp [endSlotJobs, foldl_pwr]

@[simp] theorem State.cartFail_pwr (slot : Nat) : (s.cartFail slot).pwr = s.pwr := by simp [cartFail]

theorem State.takeBlock_pwr {slot i b : Nat} {t : State} (h : s.takeBlock slot i = some (b, t)) : t.pwr = s.pwr := by
  unfold takeBlock at h
  dsimp only at h
  split at h
  · cases h
  · split at h
    · cases h
      rfl
    · split at h <;> cases h
      rfl

theorem State.takeBlockBut_pwr {slot i b : Nat} {t : State} (h : s.takeBlockBut slot i = some (b, t)) :
    t.pwr = s.pwr := by
  obtain ⟨j, -, hj⟩ := List.exists_of_findSome?_eq_some h
  split at hj
  · cases hj
  · exact takeBlock_pwr hj

@[simp] theorem State.reserveReplace_pwr (slot i : Nat) : (s.reserveReplace slot i).pwr = s.pwr := by
  refine foldl_pwr (fun st g => ?_) _
  split
  · rfl
  · split
    · next htake => simp [takeBlockBut_pwr htake]
    · rfl

@[simp] theorem State.retireDie_pwr (slot i cause : Nat) : (s.retireDie slot i cause).pwr = s.pwr := by
  unfold retireDie
  dsimp only
  split
  · rfl
  · simp only [apply_ite pwr, cartFail_pwr, flashRegs_pwr, rebuildCheck_pwr, ite_self, raiseD_pwr, setFld_pwr, send_pwr,
      setCart_pwr]
    refine (foldl_pwr (fun st k => ?_) _).trans ?_
    · split <;> rfl
    · simp

@[simp] theorem State.retireBlock_pwr (a cause : Nat) : (s.retireBlock a cause).pwr = s.pwr := by
  simp [retireBlock, apply_ite pwr]

/-! ### The ends of programs -/

@[simp] theorem State.releaseGroup_pwr (g : Group) : (s.releaseGroup g).pwr = s.pwr := by simp [releaseGroup, foldl_pwr]

@[simp] theorem State.releaseEmpty_pwr : s.releaseEmpty.pwr = s.pwr := by simp [releaseEmpty, foldl_pwr, apply_ite pwr]

@[simp] theorem State.moveEnds_pwr : s.moveEnds.pwr = s.pwr := by
  unfold moveEnds
  dsimp only
  cases s.running 4 with
  | none => split <;> simp [apply_ite pwr]
  | some j => split <;> simp [apply_ite pwr]

@[simp] theorem State.putHeaders_pwr (q : QuireJob) (ps : List Nat) : (s.putHeaders q ps).pwr = s.pwr := by
  unfold putHeaders
  split <;> simp

@[simp] theorem State.holdSlot_pwr (quire i : Nat) (fs : FolioSlot) : (s.holdSlot quire i fs).pwr = s.pwr := by
  unfold holdSlot
  dsimp only
  split <;> simp [apply_ite pwr]

@[simp] theorem State.ckptAppend_pwr : s.ckptAppend.pwr = s.pwr := by simp [ckptAppend, apply_ite pwr]

@[simp] theorem State.holdSlots_pwr (quire i : Nat) (l : List FolioSlot) : (s.holdSlots quire i l).pwr = s.pwr := by
  induction l generalizing s i with
  | nil => rfl
  | cons fs t ih => exact (ih _).trans (by simp)

@[simp] theorem State.quireHeld_pwr (q : QuireJob) : (s.quireHeld q).pwr = s.pwr := by
  unfold quireHeld
  dsimp only
  split <;> simp [apply_ite pwr]

@[simp] theorem State.ringErase_pwr (slot : Nat) : (s.ringErase slot).pwr = s.pwr := by
  simp [ringErase, foldl_pwr, apply_ite pwr]

@[simp] theorem State.ckptComplete_pwr : s.ckptComplete.pwr = s.pwr := by simp [ckptComplete, foldl_pwr]

@[simp] theorem State.journalGood_pwr (index slot : Nat) : (s.journalGood index slot).pwr = s.pwr := by
  simp [journalGood, apply_ite pwr]

@[simp] theorem State.logProgramDone_pwr (ok : Bool) : (s.logProgramDone ok).pwr = s.pwr := by
  unfold logProgramDone
  split
  · rfl
  · cases ok <;> simp

@[simp] theorem State.quireProgram_pwr (quire pos : Nat) (ok : Bool) : (s.quireProgram quire pos ok).pwr = s.pwr := by
  unfold quireProgram
  split <;> simp [apply_ite pwr]

@[simp] theorem State.journalProgram_pwr (index slot : Nat) (ok : Bool) :
    (s.journalProgram index slot ok).pwr = s.pwr := by
  unfold journalProgram
  split <;> simp [apply_ite pwr]

@[simp] theorem State.programsEnd_pwr : s.programsEnd.pwr = s.pwr := by
  unfold programsEnd
  dsimp only
  generalize hq : List.foldl _ s s.flash.quires = t
  generalize hj : List.foldl _ t _ = u
  have ht : t.pwr = s.pwr := hq ▸ foldl_pwr (fun st q => by
    split
    · exact foldl_pwr (fun _ _ => quireProgram_pwr ..) _
    · rfl) _
  have hu : u.pwr = t.pwr := hj ▸ foldl_pwr (fun _ _ => journalProgram_pwr ..) _
  split <;> simp [hu, ht]

/-! ### Queues and contexts -/

@[simp] theorem State.setQueue_pwr (ld id : Nat) (q : Queue) : (s.setQueue ld id q).pwr = s.pwr := rfl

@[simp] theorem State.queueRegs_pwr (ld : Nat) : (s.queueRegs ld).pwr = s.pwr := rfl

@[simp] theorem State.coalesce_pwr (ld vec : Nat) : (s.coalesce ld vec).pwr = s.pwr := by simp [coalesce, apply_ite pwr]

@[simp] theorem State.ringWrite_pwr (ld at_ value slot gen status w12 phase : Nat) :
    (s.ringWrite ld at_ value slot gen status w12 phase).pwr = s.pwr := by simp [ringWrite]

@[simp] theorem State.postCompletion_pwr (ld id slot result status : Nat) :
    (s.postCompletion ld id slot result status).pwr = s.pwr := by
  unfold postCompletion
  split <;> simp [apply_ite pwr]

@[simp] theorem State.postNote_pwr (ld id slot gen value status kind : Nat) :
    (s.postNote ld id slot gen value status kind).pwr = s.pwr := by
  unfold postNote
  split <;> simp

@[simp] theorem State.abortNote_pwr (ld id slot gen status : Nat) :
    (s.abortNote ld id slot gen status).pwr = s.pwr := by
  unfold abortNote
  split <;> simp [apply_ite pwr]

@[simp] theorem State.setCtx_pwr (k : Nat) (c : Ctx) : (s.setCtx k c).pwr = s.pwr := rfl

@[simp] theorem State.scribeRegs_pwr (e : Nat) : (s.scribeRegs e).pwr = s.pwr := rfl

@[simp] theorem State.ctxRegs_pwr (k : Nat) : (s.ctxRegs k).pwr = s.pwr := by
  unfold ctxRegs
  split <;> simp

@[simp] theorem State.putCtx_pwr (k : Nat) (c : Ctx) : (s.putCtx k c).pwr = s.pwr := by simp [putCtx]

@[simp] theorem State.deleteDone_pwr (ld id : Nat) : (s.deleteDone ld id).pwr = s.pwr := by
  unfold deleteDone
  split
  · split
    · simp [apply_ite pwr]
    · rfl
  · rfl

@[simp] theorem State.clusterRegs_pwr (k : Nat) : (s.clusterRegs k).pwr = s.pwr := rfl

@[simp] theorem State.mapReplace_pwr (k old i : Nat) : (s.mapReplace k old i).pwr = s.pwr := by
  unfold mapReplace
  split <;> simp

@[simp] theorem State.zeroInk_pwr (e : Nat) : (s.zeroInk e).pwr = s.pwr := rfl

@[simp] theorem State.swapTested_pwr (e : Nat) (pass : Bool) : (s.swapTested e pass).pwr = s.pwr := by
  unfold swapTested
  dsimp only
  split <;> simp [apply_ite pwr]

@[simp] theorem State.swapCancel_pwr (status : Nat) : (s.swapCancel status).pwr = s.pwr := by
  unfold swapCancel
  split
  · rfl
  · dsimp only
    split <;> simp

@[simp] theorem State.swapDone_pwr : s.swapDone.pwr = s.pwr := by
  unfold swapDone
  split <;> simp [apply_ite pwr]

@[simp] theorem State.finishCtx_pwr (k : Nat) (status result : Nat) : (s.finishCtx k status result).pwr = s.pwr := by
  unfold finishCtx
  split
  · rfl
  · next c _ =>
    cases c.silent
    · simp [apply_ite pwr]
    · simp only [if_true, Bool.not_true, Bool.and_false, Bool.false_eq_true, if_false, swapDone_pwr, deleteDone_pwr]
      split <;> simp

@[simp] theorem State.tryFinish_pwr (k : Nat) : (s.tryFinish k).pwr = s.pwr := by
  unfold tryFinish
  split
  · rfl
  · split
    · simp [apply_ite pwr]
    · simp [apply_ite pwr]
    · rfl

@[simp] theorem State.endCtx_pwr (k status : Nat) (abort silent : Bool) :
    (s.endCtx k status abort silent).pwr = s.pwr := by
  unfold endCtx
  split <;> simp

@[simp] theorem State.dropQueues_pwr (ldSel : Nat → Bool) : (s.dropQueues ldSel).pwr = s.pwr :=
  (foldl_pwr (fun _ ld => queueRegs_pwr ld) _).trans (foldl_pwr (fun _ _ => endCtx_pwr ..) _)

@[simp] theorem State.reservoirRegs_pwr (k : Nat) : (s.reservoirRegs k).pwr = s.pwr := rfl

@[simp] theorem State.unloadScript_pwr (ld id : Nat) : (s.unloadScript ld id).pwr = s.pwr :=
  foldl_pwr (fun _ k => reservoirRegs_pwr k) _

/-! ### The twin link -/

@[simp] theorem State.setTwinLink_pwr (v : Nat) : (s.setTwinLink v).pwr = s.pwr := rfl

@[simp] theorem State.resyncStop_pwr : s.resyncStop.pwr = s.pwr := by
  unfold resyncStop
  dsimp only
  split
  · simp
  · split <;> simp

@[simp] theorem State.endHandover_pwr (status : Nat) : (s.endHandover status).pwr = s.pwr := by
  unfold endHandover
  split <;> simp

@[simp] theorem State.twinFall_pwr (st : Nat) : (s.twinFall st).pwr = s.pwr := by simp [twinFall, apply_ite pwr]

@[simp] theorem State.twinBothDown_pwr : s.twinBothDown.pwr = s.pwr := by simp [twinBothDown]

/-! ### The preparation of a strike or a reset -/

@[simp] theorem State.freezeLinks_pwr : s.freezeLinks.pwr = s.pwr := by
  unfold freezeLinks
  refine foldl_pwr (fun st k => ?_) _
  rfl

@[simp] theorem State.pathClear_pwr : s.pathClear.pwr = s.pwr := rfl

@[simp] theorem State.stageEnd_pwr : s.stageEnd.pwr = s.pwr := by simp [stageEnd, foldl_pwr]

@[simp] theorem State.fetchEnd_pwr : s.fetchEnd.pwr = s.pwr := rfl

@[simp] theorem State.jobsEnd_pwr : s.jobsEnd.pwr = s.pwr := by simp [jobsEnd, foldl_pwr]

@[simp] theorem State.ctxsEnd_pwr : s.ctxsEnd.pwr = s.pwr := by simp [ctxsEnd, foldl_pwr]

@[simp] theorem State.quiesce_pwr : s.quiesce.pwr = s.pwr := by simp [quiesce]

/-! ### A logical device and a link -/

@[simp] theorem State.dropHolders_pwr (sel : Holder → Bool) : (s.dropHolders sel).pwr = s.pwr := rfl

@[simp] theorem State.fencedEnd_pwr (n : Nat) : (s.fencedEnd n).pwr = s.pwr := rfl

@[simp] theorem State.ldClear_pwr (n : Nat) : (s.ldClear n).pwr = s.pwr := by simp [ldClear, foldl_pwr]

@[simp] theorem State.linkBlank_pwr (n : Nat) (split : Bool) : (s.linkBlank n split).pwr = s.pwr := rfl

@[simp] theorem State.linkDrop_pwr (n : Nat) : (s.linkDrop n).pwr = s.pwr := rfl

@[simp] theorem State.ideEmpty_pwr (n : Nat) : (s.ideEmpty n).pwr = s.pwr := rfl

@[simp] theorem State.linkReset_pwr (n : Nat) : (s.linkReset n).pwr = s.pwr := by
  simp [linkReset, foldl_pwr, apply_ite pwr]

@[simp] theorem State.flashQuiet_pwr : s.flashQuiet.pwr = s.pwr := by simp [flashQuiet]

end

end Sys2Proof.Machine

namespace Sys2Proof.Machine

/-! Resets of the device, of a link and of a logical device (R58 to R63, R131, R726, R727, R749). -/

/-! ### A link -/

section
variable (s : State) (n : Nat)

/-- A link reset ends with the requests of the link, its keys and its status; after that comes at most an event. -/
theorem State.linkReset_ends : ∃ (t : State) (split : Bool),
    OnlyEvents ((((t.linkDrop n).ideEmpty n).linkBlank n split).setMode n) (s.linkReset n) := by
  unfold linkReset
  exact ⟨_, _, OnlyEvents.ite (raise_only (.refl _) _) (.refl _)⟩

theorem State.linkReset_path : ∃ t : State, (s.linkReset n).path = (t.linkDrop n).path := by
  obtain ⟨t, split, h⟩ := s.linkReset_ends n
  exact ⟨t, (congrArg State.path h.core :)⟩

theorem State.linkReset_ingress {q : Ingress} (hq : q ∈ (s.linkReset n).path.ingress) : q.link ≠ n := by
  obtain ⟨t, ht⟩ := s.linkReset_path n
  rw [ht] at hq
  simpa using (List.mem_filter.mp hq).2

theorem State.linkReset_compl {q : Compl} (hq : q ∈ (s.linkReset n).path.compl) : q.link ≠ n := by
  obtain ⟨t, ht⟩ := s.linkReset_path n
  rw [ht] at hq
  simpa using (List.mem_filter.mp hq).2

/-- A field of `HPORT_STAT` that shows neither the split nor the freeze. -/
def Fld.ofLinkState (f : Fld) : Prop :=
  f.reg = .HPORT_STAT ∧ (F.HPORT_STAT_split.hi < f.lo ∨ f.hi < F.HPORT_STAT_split.lo) ∧
    (F.HPORT_STAT_frozen.hi < f.lo ∨ f.hi < F.HPORT_STAT_frozen.lo)

/-- The status of a link in reset shows the split and the freeze alone. -/
theorem State.linkBlank_fld {f : Fld} (hf : f.ofLinkState) (split : Bool) : (s.linkBlank n split).fld f n = 0 := by
  obtain ⟨hreg, hsplit, hfrozen⟩ := hf
  change (((s.regs.put .HPORT_STAT n 0).set F.HPORT_STAT_split n _).set F.HPORT_STAT_frozen n _).fld f n = 0
  rw [Regs.fld_set_other _ _ _ (by decide) hreg hfrozen, Regs.fld_set_other _ _ _ (by decide) hreg hsplit, Regs.fld, hreg,
    Regs.word_put_self]
  simp [bits]

variable {n} (hn : n < 8)
include hn

theorem off_hportStat : RegId.HPORT_STAT.off n < 0x2700000 := by
  simp [RegId.off, RegId.place]
  omega

theorem State.linkReset_fld {f : Fld} (hf : f.ofLinkState) : (s.linkReset n).fld f n = 0 := by
  obtain ⟨t, split, h⟩ := s.linkReset_ends n
  exact (h.fld (hf.1 ▸ off_hportStat hn)).trans (linkBlank_fld ((t.linkDrop n).ideEmpty n) n hf split)

theorem State.linkReset_up : (s.linkReset n).fld F.HPORT_STAT_up n = 0 :=
  s.linkReset_fld hn ⟨rfl, by decide, by decide⟩

theorem State.linkReset_ideSecure : (s.linkReset n).fld F.HPORT_STAT_ide_secure n = 0 :=
  s.linkReset_fld hn ⟨rfl, by decide, by decide⟩

end

/-! ### PERST_N -/

theorem mem_setIns_self (l : List Nat) (k : Nat) : k ∈ setIns l k := by
  induction l with
  | nil => exact List.mem_singleton_self k
  | cons a t ih =>
    unfold setIns
    split
    · exact List.mem_cons_self
    · split
      · next heq => exact heq ▸ List.mem_cons_self
      · exact List.mem_cons_of_mem a ih

/-- PERST_N of a link as the block samples it while it is low (R58). -/
def State.linkHeld (s : State) (n : Nat) : State :=
  { s with pwr := { s.pwr with linksInReset := setIns s.pwr.linksInReset n } }

theorem State.perst_low {s : State} {n : Nat} (hexists : s.linkExists n = true) (haon : s.pwr.aonUp = true) :
    s.perst n true = (s.linkHeld n).linkReset n := by
  simp [perst, linkHeld, hexists, haon]

/-! ### A logical device -/

section
variable (s : State) (n : Nat)

theorem State.dropHolders_waits (sel : Holder → Bool) {x : BiWait} (hx : x ∈ (s.dropHolders sel).host.biWaits) :
    x.left ≠ [] := by
  simpa using (List.mem_filter.mp hx).2

theorem State.ldClear_host : ∃ t u : State, (s.ldClear n).host = (t.dropHolders (t.holderOf n)).host ∧
    t.host.decoders = u.host.decoders.filter (fun p => p.1 / 8 != n) := by
  unfold ldClear
  exact ⟨_, _, raiseD_host _ _ _, rfl⟩

theorem State.ldClear_decoders {p : Nat × Hdm} (hp : p ∈ (s.ldClear n).host.decoders) : p.1 / 8 ≠ n := by
  obtain ⟨t, u, ht, hu⟩ := s.ldClear_host n
  rw [ht, show (t.dropHolders (t.holderOf n)).host.decoders = t.host.decoders from rfl, hu] at hp
  simpa using (List.mem_filter.mp hp).2

theorem State.ldClear_waits {x : BiWait} (hx : x ∈ (s.ldClear n).host.biWaits) : x.left ≠ [] := by
  obtain ⟨t, u, ht, -⟩ := s.ldClear_host n
  exact t.dropHolders_waits _ (ht ▸ hx)

end

/-! ### The domains of a device reset -/

section
variable (s : State)

/-- What a write of a register leaves, the reset of the register file leaves. -/
theorem State.regsReset_proj {β : Type} (π : State → β) (hregs : ∀ t x, π { t with regs := x } = π t) :
    π s.regsReset = π s := by
  unfold regsReset
  dsimp only
  refine (hregs _ _).trans <| (hregs _ _).trans <| (hregs _ _).trans ?_
  refine (foldl_proj π (fun t c => hregs t _) _).trans <| (foldl_proj π (fun t c => hregs t _) _).trans <|
    (foldl_proj π (fun t c => hregs t _) _).trans ?_
  exact (hregs _ _).trans <| (hregs _ _).trans <| (hregs _ _).trans <| hregs _ _

/-- What a write of a table leaves, the copy of the live tables to the shadow leaves. -/
theorem State.shadowFresh_proj {β : Type} (π : State → β) (hregion : ∀ t x, π { t with region := x } = π t) :
    π s.shadowFresh = π s := by
  unfold shadowFresh
  refine (foldl_proj π (fun t e => ?_) _).trans <| (hregion _ _).trans (hregion _ _)
  exact foldl_proj π (fun u p => hregion u _) _

@[simp] theorem State.domainsReset_pwr : s.domainsReset.pwr =
    { s.pwr with secUp := false, ctlUp := false, fabUp := false, noMem := false, heldReset := none } := by
  unfold domainsReset
  rw [shadowFresh_proj _ State.pwr fun _ _ => rfl, ← regsReset_proj s State.pwr fun _ _ => rfl]
  rfl

@[simp] theorem State.domainsReset_path : s.domainsReset.path = { State.reset.path with nextAcc := s.path.nextAcc } := by
  unfold domainsReset
  rw [shadowFresh_proj _ State.path fun _ _ => rfl, ← regsReset_proj s State.path fun _ _ => rfl]
  rfl

@[simp] theorem State.domainsReset_cache : s.domainsReset.cache = State.reset.cache := by
  unfold domainsReset
  rw [shadowFresh_proj _ State.cache fun _ _ => rfl]
  rfl

/-- The power unit before the domains are reset: it has a warm-start record (R59). -/
theorem State.resetPrepare_pwr : ∃ trained mapBase journalBase, s.resetPrepare.pwr = { s.pwr with
    warmValid := true, warmTrained := trained, warmMapBase := mapBase, warmJournalBase := journalBase } := by
  unfold resetPrepare
  dsimp only
  generalize hu : List.foldl _ _ _ = u
  have hpwr : u.pwr = s.pwr := by
    subst hu
    refine (foldl_pwr (fun _ _ => ?_) _).trans ?_
    · rfl
    · simp [apply_ite pwr]
  exact ⟨_, _, _, by rw [hpwr]⟩

/-- A device reset before the start goes on from its security-core step. -/
def State.resetHeld (s : State) (causes : Nat) : State :=
  let s0 := (upto 8).foldl (fun st n => st.linkLeave n) (if s.dramHolds then s.resetPrepare.areasReset else s)
  let s1 := s0.domainsReset
  let s2 := s1.setLive .RST_CAUSE 0 ((s1.liveWord .RST_CAUSE 0).toNat ||| causes)
  { s2 with pwr := { s2.pwr with step := min s2.pwr.step 4, secUePending := s2.pwr.secUePending || bitB causes 5 } }

theorem State.resetNow_eq (causes : Nat) : s.resetNow causes =
    if (s.resetHeld causes).pwr.step = 4 ∧ (s.resetHeld causes).pwr.resetLow = false then (s.resetHeld causes).startGoes
    else s.resetHeld causes := rfl

/-- SEC, CTL and FAB are down, the path and the cache are empty. -/
structure State.DomainsDown (s : State) : Prop where
  sec : s.pwr.secUp = false
  ctl : s.pwr.ctlUp = false
  fab : s.pwr.fabUp = false
  held : s.path.held = []
  ingress : s.path.ingress = []
  lines : s.cache.lines = []

theorem State.startGoes_pwr : s.startGoes.pwr = s.pwr ∨ s.startGoes.pwr = { s.pwr with secUePending := false } := by
  unfold startGoes
  dsimp only
  generalize hw : (if s.pwr.warmValid then s.setFlag F.RST_CAUSE_warm 0 true else s) = w
  have hpwr : w.pwr = s.pwr := by simp [← hw, apply_ite pwr]
  rw [← hpwr]
  split
  · exact .inr (raise_pwr _ _)
  · exact .inl rfl

theorem State.startGoes_path : s.startGoes.path = s.path := by
  unfold startGoes
  simp [apply_ite path]

theorem State.startGoes_cache : s.startGoes.cache = s.cache := by
  unfold startGoes
  simp [apply_ite cache]

theorem State.DomainsDown.startGoes {s : State} (h : s.DomainsDown) : s.startGoes.DomainsDown := by
  obtain ⟨hsec, hctl, hfab, hheld, hingress, hlines⟩ := h
  refine ⟨?_, ?_, ?_, s.startGoes_path ▸ hheld, s.startGoes_path ▸ hingress, s.startGoes_cache ▸ hlines⟩ <;>
    rcases s.startGoes_pwr with h | h <;> rw [h] <;> assumption

theorem State.resetHeld_down (causes : Nat) : (s.resetHeld causes).DomainsDown := by
  constructor <;> simp [resetHeld] <;> rfl

theorem State.resetNow_down (causes : Nat) : (s.resetNow causes).DomainsDown := by
  rw [resetNow_eq]
  split
  · exact (s.resetHeld_down causes).startGoes
  · exact s.resetHeld_down causes

/-- The power unit after a device reset, before the start goes on. -/
theorem State.resetHeld_pwr (causes : Nat) {p : PowerUnit}
    (hp : (if s.dramHolds then s.resetPrepare.areasReset else s).pwr = p) :
    (s.resetHeld causes).pwr.step = min p.step 4 ∧ (s.resetHeld causes).pwr.resetLow = p.resetLow ∧
      (s.resetHeld causes).pwr.warmValid = p.warmValid := by
  simp [resetHeld, foldl_pwr, hp]

/-- With SYS_RESET_N low a reset of the device in service waits at step 4 with a warm-start record (R59, R749). -/
theorem State.resetNow_low (causes : Nat) (hlow : s.pwr.resetLow = true) (hstep : s.pwr.step = 8) :
    (s.resetNow causes).pwr.resetLow = true ∧ (s.resetNow causes).pwr.step = 4 ∧
      (s.resetNow causes).pwr.warmValid = true := by
  obtain ⟨trained, mapBase, journalBase, hprep⟩ := s.resetPrepare_pwr
  have hdram : s.dramHolds = true := by simp [dramHolds, hstep]
  obtain ⟨h4, hheld, hwarm⟩ := s.resetHeld_pwr causes ((congrArg State.pwr (if_pos hdram)).trans hprep)
  rw [resetNow_eq, if_neg (by simp [hheld, hlow])]
  exact ⟨hheld.trans hlow, by simp [h4, hstep], hwarm⟩

end

/-! ### Requests for a device reset -/

section
variable {s : State}

theorem State.deviceReset_strike (h : s.inStrike = true) (cause : Nat) : s.deviceReset cause = s := if_pos h

theorem State.deviceReset_loadIn (h : s.inStrike = false) (hin : s.inLoadIn = true) (cause : Nat) :
    s.deviceReset cause = { s with pwr := { s.pwr with heldReset := some (s.pwr.heldReset.getD 0 ||| 2 ^ cause) } } := by
  simp [deviceReset, h, hin]

theorem State.deviceReset_now (h : s.inStrike = false) (hin : s.inLoadIn = false) (cause : Nat) :
    s.deviceReset cause = s.resetNow (2 ^ cause) := by
  simp [deviceReset, h, hin]

/-- SYS_RESET_N as the block samples it while it is low (R749). -/
def State.pinLow (s : State) : State := { s with pwr := { s.pwr with resetLow := true } }

theorem State.sysReset_start (hlow : s.pwr.resetLow = false) (hstep : s.pwr.step ≤ 4) :
    s.sysReset = s.pinLow := by
  simp [sysReset, pinLow, hlow, hstep]

theorem State.sysReset_device (hlow : s.pwr.resetLow = false) (hstep : 4 < s.pwr.step) :
    s.sysReset = s.pinLow.deviceReset 3 := by
  simp [sysReset, pinLow, hlow, Nat.not_le.mpr hstep]

theorem execSysResetNRelease_start (hlow : s.pwr.resetLow = true) (hstep : s.pwr.step < 4) :
    execSysResetNRelease s = .next { s with pwr := { s.pwr with resetLow := false } } := by
  simp [execSysResetNRelease, State.sysRelease, hlow, Nat.ne_of_lt hstep]

theorem execSecFault_clocked (hstep : 4 ≤ s.pwr.step) : execSecFault s = .next (s.deviceReset 5) := by
  simp [execSecFault, Nat.not_lt.mpr hstep]

variable {link : Nat}

theorem execCxlReset_device (hlink : s.linkExists link = true) (hup : s.pwr.ctlUp = true)
    (hdev : s.fld F.RST_CTL_cxl_reset_dev 0 = 1) : execCxlReset link s = .next (s.deviceReset 6) := by
  simp [execCxlReset, hlink, hup, State.flag, hdev]

theorem execCxlReset_link (hlink : s.linkExists link = true) (hup : s.pwr.ctlUp = true)
    (hdev : s.fld F.RST_CTL_cxl_reset_dev 0 = 0) : execCxlReset link s = .next (s.linkReset link).settle := by
  simp [execCxlReset, hlink, hup, State.flag, hdev]

/-- In a strike CXL_RESET of the device is discarded, whatever the link. -/
theorem execCxlReset_strike (h : s.inStrike = true) (hdev : s.fld F.RST_CTL_cxl_reset_dev 0 = 1) :
    execCxlReset link s = .next s := by
  simp [execCxlReset, State.flag, hdev, State.deviceReset_strike h]

/-- A vendor command that passes the checks of R127 and that a fence does not refuse runs. -/
theorem State.vendor_admin {mb op len : Nat} {input : List Byte} {body : State → State} (hup : s.mailUp = true)
    (hlen : input.length = len) (hadmin : s.mbAdmin mb = true) : s.vendor mb op len true false input body = body s := by
  simp [vendor, hup, hlen, hadmin]

theorem execLoadInDone_outside (hin : s.inLoadIn = false) : execLoadInDone s = .next s := by
  simp [execLoadInDone, State.loadInOver, State.loadInDone, hin]

end

/-- Settles O10: each clause is the rule above of its command. -/
theorem resetsOfDeviceLinkAndLogicalDevice : Obligations.ResetsOfDeviceLinkAndLogicalDevice := by
  unfold Obligations.ResetsOfDeviceLinkAndLogicalDevice
  refine ⟨?start, ?service, ?release, ?loadIn, ?strike, ?fault, ?command, ?perstLow, ?perstHigh, ?cxlLink, ?ld, ?done⟩
  case start => exact fun s hlow hstep => congrArg Host.Outcome.next (State.sysReset_start hlow hstep)
  case service =>
    intro s hlow hstep hstrike hin
    have heq := (State.sysReset_device hlow (by omega)).trans (State.deviceReset_now (s := s.pinLow) hstrike hin 3)
    refine ⟨_, congrArg Host.Outcome.next heq, ?_⟩
    obtain ⟨hlow', hstep', hwarm⟩ := s.pinLow.resetNow_low (2 ^ 3) rfl hstep
    obtain ⟨hsec, hctl, hfab, hheld, hingress, hlines⟩ := s.pinLow.resetNow_down (2 ^ 3)
    exact ⟨hlow', hstep', hwarm, hsec, hctl, hfab, hheld, hingress, hlines⟩
  case release => exact fun s hlow hstep => execSysResetNRelease_start hlow hstep
  case loadIn =>
    intro s link hstrike hin hstep hlink hup hdev
    refine ⟨?_, ?_, fun hlow => ?_⟩
    · exact (execSecFault_clocked (by omega)).trans (congrArg _ (State.deviceReset_loadIn hstrike hin 5))
    · exact (execCxlReset_device hlink hup hdev).trans (congrArg _ (State.deviceReset_loadIn hstrike hin 6))
    · exact congrArg Host.Outcome.next
        ((State.sysReset_device hlow hstep).trans (State.deviceReset_loadIn (s := s.pinLow) hstrike hin 3))
  case strike =>
    intro s link hstrike hstep hdev
    refine ⟨?_, execCxlReset_strike hstrike hdev, fun hlow => ?_⟩
    · exact (execSecFault_clocked (by omega)).trans (congrArg _ (State.deviceReset_strike hstrike 5))
    · exact congrArg Host.Outcome.next
        ((State.sysReset_device hlow hstep).trans (State.deviceReset_strike (s := s.pinLow) hstrike 3))
  case fault =>
    intro s hstep hstrike hin
    refine ⟨_, (execSecFault_clocked hstep).trans (congrArg _ (State.deviceReset_now hstrike hin 5)), ?_⟩
    obtain ⟨hsec, hctl, hfab, hheld, -, hlines⟩ := s.resetNow_down (2 ^ 5)
    exact ⟨hsec, hctl, hfab, hheld, hlines⟩
  case command =>
    intro s mb input hup hlen hadmin hcode
    have hrun : exec (.deviceReset mb input) s = .next (if s.inStrike then
        (if s.mbLinkUp mb then s.answer mb 0xC002 St.RETRY_LATER [] else s)
        else (s.answer mb 0xC002 St.DONE []).deviceReset 4) :=
      congrArg Host.Outcome.next ((State.vendor_admin hup hlen hadmin).trans (if_neg fun hne => hne hcode))
    refine ⟨fun hstrike => ?_, fun hstrike hin => ?_, fun hstrike hin => ?_⟩
    · rw [hrun, if_pos hstrike]
    · rw [hrun, if_neg (by simp [hstrike])]
      exact congrArg _ (State.deviceReset_loadIn (s := s.answer mb 0xC002 St.DONE []) hstrike hin 4)
    · rw [if_neg (by simp [hstrike])] at hrun
      refine ⟨_, hrun.trans (congrArg _ (State.deviceReset_now (s := s.answer mb 0xC002 St.DONE []) hstrike hin 4)), ?_⟩
      obtain ⟨hsec, hctl, hfab, hheld, -, hlines⟩ := (s.answer mb 0xC002 St.DONE []).resetNow_down (2 ^ 4)
      exact ⟨hsec, hctl, hfab, hheld, hlines⟩
  case perstLow =>
    intro s link hlink hexists haon
    refine ⟨(s.linkHeld link).linkReset link, ?_, ?_, State.linkReset_up _ hlink, State.linkReset_ideSecure _ hlink,
      fun _ => State.linkReset_ingress _ link, fun _ => State.linkReset_compl _ link⟩
    · exact congrArg Host.Outcome.next ((if_pos hlink).trans (congrArg State.settle (State.perst_low hexists haon)))
    · rw [State.linkReset_pwr]
      exact mem_setIns_self _ link
  case perstHigh =>
    exact fun s link hlink => ⟨s.perst link false, congrArg Host.Outcome.next (if_pos hlink), rfl, rfl⟩
  case cxlLink =>
    intro s link hlink hexists hup hdev
    exact ⟨s.linkReset link, execCxlReset_link hexists hup hdev, s.linkReset_up hlink, s.linkReset_ideSecure hlink,
      fun _ => s.linkReset_ingress link, fun _ => s.linkReset_compl link⟩
  case ld =>
    intro s mb input hup hlen hadmin hlink hld
    refine ⟨s.ldClear (leAt input 0 1 * 16 + leAt input 1 1), _, ?_, rfl, fun _ => s.ldClear_decoders _,
      fun _ => s.ldClear_waits _⟩
    refine congrArg Host.Outcome.next ((State.vendor_admin hup hlen hadmin).trans (if_pos ?_))
    simp [hlink, hld]
  case done => exact fun s hin => execLoadInDone_outside hin

end Sys2Proof.Machine

namespace Sys2Proof.Machine

/-! The hold-up test of the bank (R196, R594 to R597, R736): when it starts, when it is late, and what it publishes. -/

/-! ### One-bit fields -/

theorem State.flag_setFlag_self (s : State) {f : Fld} (i : Nat) (b : Bool) (hbit : f.hi = f.lo) (h32 : f.hi < 32) :
    (s.setFlag f i b).flag f i = b := by
  rw [State.flag_eq, State.setFlag_regs, Regs.fld_set_self _ _ _ ⟨Nat.le_of_eq hbit.symm, h32⟩, hbit]
  cases b <;> simp [b2n]

theorem State.flag_setFld_other (s : State) {f g : Fld} (i v : Nat) (hf : f.lo ≤ f.hi ∧ f.hi < 32)
    (hreg : g.reg = f.reg) (hapart : f.hi < g.lo ∨ g.hi < f.lo) : (s.setFld f i v).flag g i = s.flag g i := by
  rw [State.flag_eq, State.flag_eq, State.setFld_regs, Regs.fld_set_other _ _ _ hf hreg hapart]

/-- A field shows the word of its register. -/
theorem State.fld_of_word {s t : State} {f : Fld} {i : Nat} (h : t.regs.word f.reg i = s.regs.word f.reg i) :
    t.fld f i = s.fld f i := by
  rw [State.fld_eq, State.fld_eq, Regs.fld, Regs.fld, h]

theorem State.flag_of_word {s t : State} {f : Fld} {i : Nat} (h : t.regs.word f.reg i = s.regs.word f.reg i) :
    t.flag f i = s.flag f i := by
  rw [State.flag, State.flag, State.fld_of_word h]

section
variable {s : State}

/-! ### The pins of the bank: a bit of `SENT_STAT` and what is sent -/

theorem State.chgEn_flag (on : Bool) : (s.chgEn on).flag F.SENT_STAT_chg_en 0 = on := by
  unfold chgEn
  split
  · assumption
  · exact s.flag_setFlag_self 0 on rfl (by decide)

theorem State.testEn_flag (on : Bool) : (s.testEn on).flag F.SENT_STAT_testing 0 = on := by
  unfold testEn
  split
  · assumption
  · exact s.flag_setFlag_self 0 on rfl (by decide)

theorem State.testEn_chgEn (on : Bool) : (s.testEn on).flag F.SENT_STAT_chg_en 0 = s.flag F.SENT_STAT_chg_en 0 := by
  unfold testEn
  split
  · rfl
  · exact s.flag_setFld_other 0 _ (by decide) rfl (by decide)

/-- What a write of a register and a sent item leave, the charging pin leaves. -/
theorem State.chgEn_proj {β : Type} (π : State → β) (hregs : ∀ t x, π { t with regs := x } = π t)
    (hsent : ∀ t o, π { t with sent := o } = π t) (on : Bool) : π (s.chgEn on) = π s := by
  unfold chgEn
  split
  · rfl
  · exact (hsent _ _).trans (hregs _ _)

/-- What a write of a register and a sent item leave, the test pin leaves. -/
theorem State.testEn_proj {β : Type} (π : State → β) (hregs : ∀ t x, π { t with regs := x } = π t)
    (hsent : ∀ t o, π { t with sent := o } = π t) (on : Bool) : π (s.testEn on) = π s := by
  unfold testEn
  split
  · rfl
  · exact (hsent _ _).trans (hregs _ _)

/-- Charging leaves what the charging pin leaves. -/
theorem State.charge_proj {β : Type} (π : State → β) (hchg : ∀ t on, π (State.chgEn t on) = π t) : π s.charge = π s := by
  unfold charge
  dsimp only
  split
  · rfl
  · simp only [apply_ite π, hchg, ite_self]

@[simp] theorem State.chgEn_sen (on : Bool) : (s.chgEn on).sen = s.sen :=
  chgEn_proj sen (fun _ _ => rfl) (fun _ _ => rfl) on

@[simp] theorem State.chgEn_maint (on : Bool) : (s.chgEn on).maint = s.maint :=
  chgEn_proj maint (fun _ _ => rfl) (fun _ _ => rfl) on

@[simp] theorem State.chgEn_path (on : Bool) : (s.chgEn on).path = s.path :=
  chgEn_proj path (fun _ _ => rfl) (fun _ _ => rfl) on

@[simp] theorem State.chgEn_ink (on : Bool) : (s.chgEn on).ink = s.ink :=
  chgEn_proj ink (fun _ _ => rfl) (fun _ _ => rfl) on

@[simp] theorem State.testEn_sen (on : Bool) : (s.testEn on).sen = s.sen :=
  testEn_proj sen (fun _ _ => rfl) (fun _ _ => rfl) on

@[simp] theorem State.testEn_maint (on : Bool) : (s.testEn on).maint = s.maint :=
  testEn_proj maint (fun _ _ => rfl) (fun _ _ => rfl) on

@[simp] theorem State.testEn_clock (on : Bool) : (s.testEn on).clock = s.clock :=
  testEn_proj clock (fun _ _ => rfl) (fun _ _ => rfl) on

@[simp] theorem State.testEn_path (on : Bool) : (s.testEn on).path = s.path :=
  testEn_proj path (fun _ _ => rfl) (fun _ _ => rfl) on

@[simp] theorem State.testEn_ink (on : Bool) : (s.testEn on).ink = s.ink :=
  testEn_proj ink (fun _ _ => rfl) (fun _ _ => rfl) on

@[simp] theorem State.charge_sen : s.charge.sen = s.sen := charge_proj sen fun _ on => chgEn_sen on

@[simp] theorem State.charge_maint : s.charge.maint = s.maint := charge_proj maint fun _ on => chgEn_maint on

/-! ### The published values -/

@[simp] theorem State.setCeiling_sen : s.setCeiling.sen = s.sen := by simp [setCeiling, apply_ite sen]

@[simp] theorem State.setCeiling_maint : s.setCeiling.maint = s.maint := by simp [setCeiling, apply_ite maint]

@[simp] theorem State.setCurtain_sen (c : Nat) : (s.setCurtain c).sen = s.sen := by simp [setCurtain, apply_ite sen]

@[simp] theorem State.setCurtain_maint (c : Nat) : (s.setCurtain c).maint = s.maint := by
  simp [setCurtain, apply_ite maint]

@[simp] theorem State.takeEsave_maint : s.takeEsave.maint = s.maint := by simp [takeEsave, apply_ite maint]

/-- A new e_save writes the two values of the sentinel that are about e_save, and no other. -/
theorem State.takeEsave_sen {β : Type} (π : SentUnit → β)
    (hesave : ∀ x m b, π { x with esaveMax := m, esaveSeen := b } = π x) : π s.takeEsave.sen = π s.sen := by
  unfold takeEsave
  split
  · rfl
  · exact hesave _ _ _

@[simp] theorem State.publishE_maint (mJ : Nat) : (s.publishE mJ).maint = s.maint := by simp [publishE]

@[simp] theorem State.publishE_sen (mJ : Nat) : (s.publishE mJ).sen = { s.sen with measured := true } := by
  simp [publishE]

/-! ### Register words that these operations leave -/

section
variable {q : RegId} {j : Nat}

theorem State.chgEn_word (hstat : q.off j ≠ RegId.SENT_STAT.off 0) (on : Bool) :
    (s.chgEn on).regs.word q j = s.regs.word q j := by
  unfold chgEn
  split
  · rfl
  · exact Regs.word_set_ne _ _ hstat

theorem State.charge_word (hstat : q.off j ≠ RegId.SENT_STAT.off 0) : s.charge.regs.word q j = s.regs.word q j :=
  charge_proj (fun t => t.regs.word q j) fun _ on => chgEn_word hstat on

theorem State.takeEsave_word (hsave : q.off j ≠ RegId.SENT_ESAVE.off 0) :
    s.takeEsave.regs.word q j = s.regs.word q j := by
  unfold takeEsave
  split
  · rfl
  · exact Regs.word_set_ne _ _ hsave

theorem State.setCeiling_word (hevt : q.off j < 0x2700000) (hceil : q.off j ≠ RegId.INK_CEIL.off 0) :
    s.setCeiling.regs.word q j = s.regs.word q j := by
  have hset : ((s.setFld F.INK_CEIL_ceiling 0 s.ceilingNow).setFlag F.INK_CEIL_sag 0 s.ink.sag).regs.word q j =
      s.regs.word q j := (Regs.word_set_ne _ _ hceil).trans (Regs.word_set_ne _ _ hceil)
  unfold setCeiling
  dsimp only
  split
  · exact hset
  · exact (word_raiseD _ _ _ hevt).trans hset

theorem State.setCurtain_word (hevt : q.off j < 0x2700000) (hceil : q.off j ≠ RegId.INK_CEIL.off 0)
    (hcurt : q.off j ≠ RegId.CURT_INK.off 0) (c : Nat) : (s.setCurtain c).regs.word q j = s.regs.word q j := by
  have hput : (s.setLive .CURT_INK 0 c).regs.word q j = s.regs.word q j := Regs.word_put_ne _ _ hcurt
  refine (setCeiling_word hevt hceil).trans ?_
  split
  · exact (word_raise _ _ hevt).trans hput
  · exact hput

end

/-- The curtain takes its copy of E and its limit elsewhere: `SENT_HOLDUP_E` shows the validity and E (R596). -/
theorem State.publishE_wordE (mJ : Nat) : (s.publishE mJ).regs.word .SENT_HOLDUP_E 0 =
    ((s.setFlag F.SENT_HOLDUP_E_valid 0 true).setFld F.SENT_HOLDUP_E_e_mj 0 (satTo 18 mJ)).regs.word .SENT_HOLDUP_E 0 :=
  (setCurtain_word (by decide) (by decide) (by decide) _).trans
    ((Regs.word_set_ne _ _ (by decide)).trans (Regs.word_set_ne _ _ (by decide)))

theorem State.publishE_wordC (mJ : Nat) : (s.publishE mJ).regs.word .SENT_HOLDUP_C 0 = s.regs.word .SENT_HOLDUP_C 0 :=
  (setCurtain_word (by decide) (by decide) (by decide) _).trans
    ((Regs.word_set_ne _ _ (by decide)).trans ((Regs.word_set_ne _ _ (by decide)).trans
      ((Regs.word_set_ne _ _ (by decide)).trans (Regs.word_set_ne _ _ (by decide)))))

theorem State.publishE_valid (mJ : Nat) : (s.publishE mJ).flag F.SENT_HOLDUP_E_valid 0 = true := by
  rw [State.flag_of_word (s.publishE_wordE mJ)]
  refine (State.flag_setFld_other _ (f := F.SENT_HOLDUP_E_e_mj) (g := F.SENT_HOLDUP_E_valid) 0 _ (by decide) rfl
    (by decide)).trans ?_
  exact s.flag_setFlag_self 0 true rfl (by decide)

theorem State.publishE_energy (mJ : Nat) : (s.publishE mJ).fld F.SENT_HOLDUP_E_e_mj 0 = min mJ 262143 := by
  rw [State.fld_of_word (s.publishE_wordE mJ), State.fld_eq, State.setFld_regs, Regs.fld_set_self _ _ _ (by decide)]
  exact Nat.mod_eq_of_lt (Nat.lt_of_le_of_lt (Nat.min_le_right mJ 262143) (by decide))

/-! ### A test that starts (R595, R596 steps 1 and 2) -/

/-- A test that is asked for or due is noted with the time since when. -/
def State.testNoted (s : State) : State :=
  { s with sen := { s.sen with testDue := some (s.testDueSince.getD s.clock) } }

/-- A test runs: charging stops and HOLDUP_TEST rises. -/
def State.testStarted (s : State) : State :=
  ({ s.testNoted.chgEn false with sen := { s.testNoted.sen with testSince := s.clock } }).testEn true

theorem State.testMay_idle (h : s.testMay = true) : s.flag F.SENT_STAT_testing 0 = false := by
  simp only [testMay, Bool.and_eq_true, Bool.not_eq_true'] at h
  exact h.1.2

theorem State.testAsked_eq {go : Bool} (h : go = true ∨ s.testDueSince ≠ none) :
    (go || s.testDueSince.isSome) = true := by
  simpa [Option.isSome_iff_ne_none] using h

theorem State.holdupTest_testing (h : s.flag F.SENT_STAT_testing 0 = true) (go : Bool) : s.holdupTest go = s := if_pos h

theorem State.holdupTest_unasked (h : s.testDueSince = none) : s.holdupTest false = s := by
  simp [holdupTest, h]

/-- With none running, a test that is asked for or due starts, or a REHEARSAL that waits for it gives it up (R736). -/
theorem State.holdupTest_asked {go : Bool} (hask : go = true ∨ s.testDueSince ≠ none)
    (hidle : s.flag F.SENT_STAT_testing 0 = false) : s.holdupTest go =
      if s.testMay then s.testStarted
      else match s.running 0x0D with
        | some j => if s.due j.since 60000000 then s.testNoted.rehearsalEnd true St.TIMEOUT else s.testNoted
        | none => s.testNoted := by
  unfold holdupTest
  rw [if_neg (by simp [hidle]), if_pos (testAsked_eq hask)]
  rfl

theorem State.holdupTest_starts {go : Bool} (hask : go = true ∨ s.testDueSince ≠ none) (hmay : s.testMay = true) :
    s.holdupTest go = s.testStarted := by
  rw [holdupTest_asked hask (testMay_idle hmay), if_pos hmay]

theorem State.holdupTest_deferred {go : Bool} (hask : go = true ∨ s.testDueSince ≠ none)
    (hidle : s.flag F.SENT_STAT_testing 0 = false) (hmay : s.testMay = false) (hrun : s.running 0x0D = none) :
    s.holdupTest go = s.testNoted := by
  rw [holdupTest_asked hask hidle, if_neg (ne_true_of_eq_false hmay), hrun]

theorem State.testStarted_chgEn : s.testStarted.flag F.SENT_STAT_chg_en 0 = false :=
  (testEn_chgEn true).trans (chgEn_flag false)

/-! ### A test that is late (R595) -/

theorem State.testLate_undue (h : s.testDueSince = none) : s.testLate = s := by simp [testLate, h]

theorem State.testLate_settled (h : s.sen.testLate = true ∨ s.flag F.SENT_STAT_testing 0 = true) : s.testLate = s := by
  unfold testLate
  split
  · rfl
  · exact if_neg (by rcases h with h | h <;> simp [h])

theorem State.testLate_early {t : Nat} (hdue : s.testDueSince = some t) (hearly : s.clock < t + 3600000000) :
    s.testLate = s := by
  simp [testLate, hdue, due, Nat.not_le.mpr hearly]

theorem State.testLate_raises {t : Nat} (hdue : s.testDueSince = some t) (hhour : t + 3600000000 ≤ s.clock)
    (hnew : s.sen.testLate = false) (hidle : s.flag F.SENT_STAT_testing 0 = false) : s.testLate =
      ({ s with sen := { s.sen with testLate := true, testDue := some t } }).raise Ev.HOLDUP_TEST_LATE := by
  simp [testLate, hdue, due, hhour, hnew, hidle]

/-! ### A test that ends (R596, R597) -/

/-- The end of a test before its energy: HOLDUP_TEST falls, ESR and C stand in `SENT_HOLDUP_C`, the test is no longer due. -/
def State.testEnded (s : State) (esr cap : Nat) : State :=
  let s1 := ((s.testEn false).setFld F.SENT_HOLDUP_C_esr 0 esr).setFld F.SENT_HOLDUP_C_cap_mf 0 cap
  { s1 with sen := { s1.sen with testC := cap, testVeff := s.testVe esr, testedAt := some s1.clock, testDue := none,
                                 testLate := false } }

/-- E_measured in mJ: 0 with an ESR above the fused limit (R596 steps 5 and 6). -/
def State.testEnergy (s : State) (esr cap : Nat) : Nat :=
  if Config.fuseEsrMax.toNat < esr then 0 else s.eta * cap * (s.vChg ^ 2 - s.testVe esr ^ 2) / 200000000

/-- The state in which the events of a test's end are raised. -/
def State.testPublished (s : State) (esr cap : Nat) : State :=
  ((s.testEnded esr cap).nextFresh.takeEsave.publishE (s.testEnergy esr cap)).charge

theorem State.testResult_eq (esr cap : Nat) : s.testResult esr cap =
    if Config.fuseEsrMax.toNat < esr then ((s.testPublished esr cap).raise Ev.HOLDUP_TESTED).raise Ev.HOLDUP_UNFIT
    else (s.testPublished esr cap).raise Ev.HOLDUP_TESTED := by
  simp only [testResult, testPublished, testEnded, testEnergy, decide_eq_true_eq]

section
variable (esr cap : Nat)

theorem State.testPublished_maint : (s.testPublished esr cap).maint = s.maint := by
  simp [testPublished, testEnded]

theorem State.testResult_maint : (s.testResult esr cap).maint = s.maint := by
  rw [testResult_eq]
  split <;> simp [testPublished_maint]

theorem State.testPublished_testedAt : (s.testPublished esr cap).sen.testedAt = some s.clock := by
  simp only [testPublished, charge_sen, publishE_sen]
  rw [takeEsave_sen SentUnit.testedAt fun _ _ _ => rfl]
  simp [testEnded]

theorem State.testPublished_testLate : (s.testPublished esr cap).sen.testLate = false := by
  simp only [testPublished, charge_sen, publishE_sen]
  rw [takeEsave_sen SentUnit.testLate fun _ _ _ => rfl]
  rfl

/-- `SENT_HOLDUP_C` is as the end of the test has written it. -/
theorem State.testPublished_wordC :
    (s.testPublished esr cap).regs.word .SENT_HOLDUP_C 0 = (s.testEnded esr cap).regs.word .SENT_HOLDUP_C 0 :=
  (charge_word (by decide)).trans ((publishE_wordC _).trans (takeEsave_word (by decide)))

theorem State.testEnded_regs : (s.testEnded esr cap).regs =
    ((s.testEn false).regs.set F.SENT_HOLDUP_C_esr 0 esr).set F.SENT_HOLDUP_C_cap_mf 0 cap := rfl

theorem State.testPublished_esr : (s.testPublished esr cap).fld F.SENT_HOLDUP_C_esr 0 = esr % 65536 := by
  rw [fld_of_word (testPublished_wordC esr cap), fld_eq, testEnded_regs,
    Regs.fld_set_other _ (f := F.SENT_HOLDUP_C_cap_mf) (g := F.SENT_HOLDUP_C_esr) _ _ (by decide) rfl (by decide),
    Regs.fld_set_self _ _ _ (by decide)]
  rfl

theorem State.testPublished_cap : (s.testPublished esr cap).fld F.SENT_HOLDUP_C_cap_mf 0 = cap % 65536 := by
  rw [fld_of_word (testPublished_wordC esr cap), fld_eq, testEnded_regs, Regs.fld_set_self _ _ _ (by decide)]
  rfl

theorem State.testPublished_valid : (s.testPublished esr cap).flag F.SENT_HOLDUP_E_valid 0 = true :=
  (flag_of_word (charge_word (by decide))).trans (publishE_valid _)

theorem State.testPublished_energy :
    (s.testPublished esr cap).fld F.SENT_HOLDUP_E_e_mj 0 = min (s.testEnergy esr cap) 262143 :=
  (fld_of_word (charge_word (by decide))).trans (publishE_energy _)

end

/-! ### HOLDUP_TESTED -/

theorem exec_holdupTested (sum0 v1 qsum sum2 : Nat) (s : State) :
    exec (.holdupTested sum0 v1 qsum sum2) s = .next (s.holdupTested sum0 v1 qsum sum2).settle := rfl

theorem State.rehearsalEnd_none (h : s.running 0x0D = none) (fail : Bool) (status : Nat) :
    s.rehearsalEnd fail status = s := by
  simp [rehearsalEnd, h]

section
variable (sum0 v1 qsum sum2 : Nat)

theorem State.holdupTested_idle (hidle : s.flag F.SENT_STAT_testing 0 = false)
    (h : s.pwr.step ≠ 6 ∨ s.sen.measured = true ∨ s.sen.atCharge = true) : s.holdupTested sum0 v1 qsum sum2 = s := by
  unfold holdupTested
  rw [if_neg (by simp [hidle])]
  exact if_neg (by rcases h with h | h | h <;> simp [h])

/-- At a power-on whose bank is late, E_measured is 0 (R596). -/
theorem State.holdupTested_bankLate (hidle : s.flag F.SENT_STAT_testing 0 = false) (hstep : s.pwr.step = 6)
    (hnew : s.sen.measured = false) (hlow : s.sen.atCharge = false) (hlate : s.sen.bankSince + 60000000 ≤ s.clock) :
    s.holdupTested sum0 v1 qsum sum2 = (s.publishE 0).raise Ev.HOLDUP_UNFIT := by
  simp [holdupTested, hidle, hstep, hnew, hlow, due, hlate]

theorem State.holdupTested_testing (htest : s.flag F.SENT_STAT_testing 0 = true) (hrun : s.running 0x0D = none) :
    s.holdupTested sum0 v1 qsum sum2 = s.testResult (s.testEsr sum0 v1) (s.testCap sum0 qsum sum2) := by
  have hrun' : (s.testResult (s.testEsr sum0 v1) (s.testCap sum0 qsum sum2)).running 0x0D = none := by
    rw [running, testResult_maint]
    exact hrun
  exact (if_pos htest).trans (rehearsalEnd_none hrun' _ _)

end

end

/-- Settles O37: each clause is the rule above of its command; the state of a test's end is `testPublished`. -/
theorem holdupTestsMeasureTheBank : Obligations.HoldupTestsMeasureTheBank := by
  unfold Obligations.HoldupTestsMeasureTheBank
  refine ⟨fun s go => ⟨?testing, ?unasked, ?starts, ?deferred⟩, fun s => ⟨?settled, ?early, ?late⟩,
    fun s sum0 v1 qsum sum2 => ⟨?idle, ?bankLate, ?ends⟩⟩
  case testing => exact fun htest => congrArg Host.Outcome.next (State.holdupTest_testing htest go)
  case unasked =>
    rintro rfl hnone
    exact congrArg Host.Outcome.next (State.holdupTest_unasked hnone)
  case starts =>
    intro hask hmay
    refine ⟨s.testStarted, congrArg Host.Outcome.next (State.holdupTest_starts hask hmay), State.testEn_flag true,
      State.testStarted_chgEn, ?_, ?_, ?_⟩ <;> simp [State.testStarted, State.testNoted]
  case deferred =>
    exact fun hask hidle hmay hrun => congrArg Host.Outcome.next (State.holdupTest_deferred hask hidle hmay hrun)
  case settled =>
    rintro (hnone | hsettled)
    · exact congrArg Host.Outcome.next (State.testLate_undue hnone)
    · exact congrArg Host.Outcome.next (State.testLate_settled hsettled)
  case early => exact fun t hdue hearly => congrArg Host.Outcome.next (State.testLate_early hdue hearly)
  case late =>
    exact fun t hdue hhour hnew hidle => congrArg Host.Outcome.next (State.testLate_raises hdue hhour hnew hidle)
  case idle =>
    intro hidle h
    rw [exec_holdupTested, State.holdupTested_idle sum0 v1 qsum sum2 hidle h]
  case bankLate =>
    intro hidle hstep hnew hlow hlate
    rw [exec_holdupTested, State.holdupTested_bankLate sum0 v1 qsum sum2 hidle hstep hnew hlow hlate]
  case ends =>
    intro htest hrun
    refine ⟨_, exec_holdupTested sum0 v1 qsum sum2 s, s.testPublished (s.testEsr sum0 v1) (s.testCap sum0 qsum sum2),
      State.testPublished_testedAt _ _, State.testPublished_testLate _ _, State.testPublished_valid _ _,
      State.testPublished_esr _ _, State.testPublished_cap _ _, ?_⟩
    rw [State.holdupTested_testing sum0 v1 qsum sum2 htest hrun, State.testResult_eq, State.testPublished_energy,
      State.testEnergy]
    refine ⟨fun hfit => ?_, fun hunfit => ?_⟩
    · rw [if_neg (Nat.not_lt.mpr hfit), if_neg (Nat.not_lt.mpr hfit)]
      exact ⟨rfl, rfl⟩
    · rw [if_pos hunfit, if_pos hunfit]
      exact ⟨rfl, rfl⟩

end Sys2Proof.Machine

namespace Sys2Proof.Machine

/-! The DRAM channels in service (R248 to R283): refresh, retraining, merge entries, self-refresh, patrol, freeze and
snapshot. -/

section
variable {s : State} {c : Nat}

/-! ### Refresh (R252, R253) -/

theorem exec_refresh (h : s.chanLive c = true) (busy : Bool) : exec (.refresh c busy) s =
    .next (s.setFld F.DMC_STAT_debt c
      (if busy = true ∧ s.fld F.DMC_STAT_debt c + 1 ≤ s.fld F.DMC_REF_CFG_max_postpone c then
        s.fld F.DMC_STAT_debt c + 1 else 0)) := by
  refine congrArg Host.Outcome.next ((if_pos h).trans ?_)
  simp only [Bool.and_eq_true, decide_eq_true_eq]

theorem exec_refresh_dead (h : s.chanLive c = false) (busy : Bool) : exec (.refresh c busy) s = .next s :=
  congrArg Host.Outcome.next (if_neg (ne_true_of_eq_false h))

theorem exec_makeUpBurst (h : s.chanLive c = true) (empty : Bool) : exec (.makeUpBurst c empty) s =
    .next (if empty = true ∨ s.fld F.DMC_REF_CFG_max_postpone c ≤ s.fld F.DMC_STAT_debt c then
      s.setFld F.DMC_STAT_debt c 0 else s) := by
  refine congrArg Host.Outcome.next ?_
  simp only [h, Bool.true_and, Bool.or_eq_true, decide_eq_true_eq]

theorem exec_makeUpBurst_dead (h : s.chanLive c = false) (empty : Bool) : exec (.makeUpBurst c empty) s = .next s :=
  congrArg Host.Outcome.next (if_neg (by simp [h]))

/-! ### Retraining pauses (R248 to R250) -/

@[simp] theorem State.chan_setChan (x : Chan) : (s.setChan c x).chan c = x := mapGet_set_self _ _ _ _

/-- The time since when a pause is due is noted at the first command that finds it due. -/
def State.pauseNoted (s : State) (c : Nat) : State :=
  s.setChan c { s.chan c with pauseDue := some ((s.chan c).pauseDue.getD s.clock) }

theorem exec_retrainPause_undue {temp : Nat} (hc : c < 12)
    (hdue : (s.setFld F.DMC_STAT_temp c temp).pauseDue c temp = false) (owed : Nat) :
    exec (.retrainPause c temp owed) s = .next (s.setFld F.DMC_STAT_temp c temp) :=
  congrArg Host.Outcome.next ((if_neg (Nat.not_le.mpr hc)).trans (if_pos (by simp [hdue])))

/-- The only job is the queued DRAM_RETRAIN of the channel: a pause submits no other and takes that one. -/
theorem Job.only_retrain {jobs : List Job} {j : Job} (hjobs : jobs = [j]) (hact : j.act = 2) (htarget : j.target = c)
    (hqueued : j.state = 0) : jobs.any (fun x => x.act == 2 && x.target == c && x.state != 2) = true ∧
      jobs.find? (fun x => x.act == 2 && x.target == c && x.state == 0) = some j := by
  simp [hjobs, hact, htarget, hqueued]

/-- A due pause whose job waits alone, with nothing that defers it, runs and ends its job. -/
theorem exec_retrainPause_runs {u v : State} {temp : Nat} {j : Job} (hc : c < 12) (hu : u = s.setFld F.DMC_STAT_temp c temp)
    (hdue : u.pauseDue c temp = true) (htrained : (u.chan c).trained = true) (hv : v = u.pauseNoted c)
    (hjobs : v.maint.jobs = [j]) (hact : j.act = 2) (htarget : j.target = c) (hqueued : j.state = 0)
    (hheld : v.pauseHeld c = false) (hgap : (v.chan c).lastPause + 20000 ≤ v.clock) (hmay : v.mayStart j = true)
    (owed : Nat) : exec (.retrainPause c temp owed) s =
      .next (((v.markStarted j).retrain c temp owed).endJob j.id St.DONE) := by
  obtain ⟨hany, hfind⟩ := Job.only_retrain hjobs hact htarget hqueued
  have hready : (!u.pauseDue c temp || !(u.chan c).trained) = false := by rw [hdue, htrained]; rfl
  have hfree : (v.pauseHeld c || !v.due (v.chan c).lastPause 20000) = false := by simp [hheld, State.due, hgap]
  refine congrArg Host.Outcome.next ((if_neg (Nat.not_le.mpr hc)).trans ?_)
  dsimp only
  rw [← hu, hready, ← State.pauseNoted, ← hv, hany]
  simp only [if_true, Bool.false_eq_true, if_false, hfree, hfind, hmay]

/-- What a pause leaves in the channel's record. -/
theorem State.retrain_chan (temp owed : Nat) : (s.retrain c temp owed).chan c =
    { s.chan c with lastPause := s.clock, pauseDue := none, pauseTemp := temp, lateRaised := false } := chan_setChan _

/-- The debt after a pause is what fell due in it, three refreshes at most (R254). -/
theorem State.retrain_debt_le (temp owed : Nat) : (s.retrain c temp owed).fld F.DMC_STAT_debt c ≤ 3 := by
  have hpaid (n : Nat) : (s.setFld F.DMC_STAT_debt c n).fld F.DMC_STAT_debt c ≤ n := by
    rw [fld_eq, setFld_regs, Regs.fld_set_self _ _ _ (by decide)]
    exact Nat.mod_le _ _
  refine Nat.le_trans (hpaid _) ?_
  split
  · exact Nat.zero_le 3
  · exact Nat.min_le_right owed 3

theorem exec_retrainLate {t : Nat} (hdue : (s.chan c).pauseDue = some t) (hnew : (s.chan c).lateRaised = false) :
    exec (.retrainLate c) s = .next (if t + 4 * (s.fld F.DMC_TRAIN_CFG_period c * 1000) < s.clock then
      (s.setChan c { s.chan c with lateRaised := true }).raiseD Ev.RETRAIN_LATE c else s) := by
  change execRetrainLate c s = _
  simp only [execRetrainLate, hdue, hnew, Bool.not_false, Bool.true_and, decide_eq_true_eq]
  rfl

/-! ### Merge entries (R261) -/

theorem exec_mergeEntryWrite_none {line : Nat} (h : s.mergeFor line = none) : exec (.mergeEntryWrite line) s = .next s := by
  change execMergeEntryWrite line s = _
  rw [execMergeEntryWrite, h]

theorem exec_mergeEntryWrite_some {line : Nat} {m : MergeEntry} (h : s.mergeFor line = some m) :
    exec (.mergeEntryWrite line) s = .next (if m.since + 1 ≤ s.clock then s.mergeOut m else s) := by
  change execMergeEntryWrite line s = _
  simp only [execMergeEntryWrite, h, State.due, decide_eq_true_eq]

/-! ### Self-refresh (R255, R256) -/

/-- What the entry asks for: INTERMISSION, idleness for as long as `DMC_CTL` says, and an empty merge buffer. -/
def State.mayIdle (s : State) (c : Nat) : Prop :=
  s.sceneOn 5 = true ∧ s.fld F.DMC_CTL_idle_sr c ≠ 0 ∧ (s.chan c).lastReq + s.fld F.DMC_CTL_idle_sr c ≤ s.clock ∧
    ∀ m ∈ s.dram.merge, m.chan ≠ c

theorem State.mayIdle_iff (hlive : s.chanLive c = true) : s.mayIdle c ↔
    (s.chanLive c && s.sceneOn 5 && s.fld F.DMC_CTL_idle_sr c != 0 &&
      s.due (s.chan c).lastReq (s.fld F.DMC_CTL_idle_sr c) && !(s.dram.merge.any (fun m => m.chan == c))) = true := by
  simp [mayIdle, hlive, due, and_assoc]

theorem exec_selfRefreshEntry_enters (hlive : s.chanLive c = true) (h : s.mayIdle c) : exec (.selfRefreshEntry c) s =
    .next ((s.setFld F.DMC_STAT_debt c 0).setFlag F.DMC_STAT_in_sr c true) :=
  congrArg Host.Outcome.next (if_pos ((State.mayIdle_iff hlive).mp h))

theorem exec_selfRefreshEntry_stays (hlive : s.chanLive c = true) (h : ¬ s.mayIdle c) :
    exec (.selfRefreshEntry c) s = .next s :=
  congrArg Host.Outcome.next (if_neg (mt (State.mayIdle_iff hlive).mpr h))

theorem exec_selfRefreshEntry_dead (h : s.chanLive c = false) : exec (.selfRefreshEntry c) s = .next s :=
  congrArg Host.Outcome.next (if_neg (by simp [h]))

/-! ### Patrol (R264 to R266) -/

theorem exec_patrolScrub_dead (h : s.chanLive c = false) (frame line : Nat) (points : List Nat) (progress : Nat)
    (pass : Bool) (words : List Nat) : exec (.patrolScrub c frame line points progress pass words) s = .next s :=
  congrArg Host.Outcome.next (if_neg (by simp [h]))

section
variable {fr line : Nat} {points : List Nat}

/-- A patrol read within a pass shows the progress and acts on what it finds. -/
theorem exec_patrolScrub_reads (hlive : s.chanLive (chanOf fr) = true)
    (hon : s.fld F.DMC_SCRUB_CFG_enable (chanOf fr) = 1) (line : Nat) (points : List Nat) (progress : Nat)
    (words : List Nat) : exec (.patrolScrub (chanOf fr) fr line points progress false words) s =
      .next ((s.setFld F.DMC_SCRUB_STAT_progress (chanOf fr) progress).scrubbed fr line points words).settle :=
  congrArg Host.Outcome.next (if_pos (by simp [hlive, State.flag, hon]))

theorem State.lineIn_none (h : s.folioIn fr = none) (line : Nat) : s.lineIn fr line = none := by simp [lineIn, h]

/-- A read of a frame without a folio leaves what its code words say, unless its row set retires. -/
theorem State.scrubbed_found (h : s.folioIn fr = none)
    (hkept : eccVerdict points ≠ .uncorrectable ∨ s.frameUsed fr = true) (line : Nat) (words : List Nat) :
    s.scrubbed fr line points words = (s.eccFound fr line 3 11 none points words).1 := by
  have hstays : ¬ (eccVerdict points = .uncorrectable ∧ s.frameUsed fr = false) := by
    rintro ⟨hbad, hunused⟩
    rcases hkept with hkept | hused
    · exact hkept hbad
    · rw [hunused] at hused
      contradiction
  refine (if_neg hstays).trans ?_
  rw [lineIn_none h]

theorem State.eccFound_good (hv : eccVerdict points = .good) (m cause cls : Nat) (dpa : Option Nat) (words : List Nat) :
    s.eccFound fr m cause cls dpa points words = (s, false) := by
  rw [eccFound, hv]

theorem State.eccFound_corrected {d : Nat} (hv : eccVerdict points = .corrected d) (m cause cls : Nat) (dpa : Option Nat)
    (words : List Nat) : s.eccFound fr m cause cls dpa points words =
      (s.dramCe (chanOf fr) (s.dramPlace (chanOf fr) (lineIndex fr m)).rowKey d, true) := by
  rw [eccFound, hv]

theorem State.eccFound_uncorrectable (hv : eccVerdict points = .uncorrectable) (m cause cls : Nat) (dpa : Option Nat)
    (words : List Nat) : s.eccFound fr m cause cls dpa points words =
      (s.freezeNow (chanOf fr) cause cls dpa (snapAt (s.dramPlace (chanOf fr) (lineIndex fr m)) words), false) := by
  rw [eccFound, hv]

theorem State.scrubbed_good (h : s.folioIn fr = none) (hv : eccVerdict points = .good) (line : Nat) (words : List Nat) :
    s.scrubbed fr line points words = s := by
  rw [scrubbed_found h (.inl (by simp [hv])), eccFound_good hv]

theorem State.scrubbed_corrected {d : Nat} (h : s.folioIn fr = none) (hv : eccVerdict points = .corrected d) (line : Nat)
    (words : List Nat) : s.scrubbed fr line points words =
      s.dramCe (chanOf fr) (s.dramPlace (chanOf fr) (lineIndex fr line)).rowKey d := by
  rw [scrubbed_found h (.inl (by simp [hv])), eccFound_corrected hv]

/-- An uncorrectable line of a used frame freezes the channel, one of another frame retires its row set. -/
theorem State.scrubbed_uncorrectable (h : s.folioIn fr = none) (hv : eccVerdict points = .uncorrectable) (line : Nat)
    (words : List Nat) : s.scrubbed fr line points words =
      if s.frameUsed fr = true then
        s.freezeNow (chanOf fr) 3 11 none (snapAt (s.dramPlace (chanOf fr) (lineIndex fr line)) words)
      else s.scrubRetire (chanOf fr) (s.dramPlace (chanOf fr) (lineIndex fr line)).word1 := by
  split
  case isTrue hused => rw [scrubbed_found h (.inr hused), eccFound_uncorrectable hv]
  case isFalse hunused => exact if_pos ⟨hv, eq_false_of_ne_true hunused⟩

end

/-! ### Freeze and snapshot (R271 to R283) -/

theorem exec_dmcFrozen {cause : Nat} (hc : c < 12) (hruns : s.chanFrozen c = false) (hlo : 1 ≤ cause) (hhi : cause ≤ 5)
    (cls : Nat) (dpa : Option Nat) (words : List Nat) :
    exec (.dmcFrozen c cause cls dpa words) s = .next (s.freezeNow c cause cls dpa words).settle :=
  congrArg Host.Outcome.next (if_pos (by simp [hc, hruns, hlo, hhi]))

theorem exec_freezeSnapRead (hc : c < 12) (hfrozen : s.chanFrozen c = true) : exec (.freezeSnapRead c) s =
    .next ((s.setFlag F.DMC_STAT_snap_read c true).send (.ctlRead (RegId.DMC_FREEZE_SNAP.off (c * 64 + 63))
      (s.liveWord .DMC_FREEZE_SNAP (c * 64 + 63)).toNat)) := by
  refine congrArg Host.Outcome.next ((if_neg (Nat.not_le.mpr hc)).trans ?_)
  rw [State.snapRead, if_pos hfrozen]

theorem State.setFlag_snapRead : (s.setFlag F.DMC_STAT_snap_read c true).fld F.DMC_STAT_snap_read c = 1 :=
  Regs.fld_set_self _ _ _ (by decide)

end

/-- Settles O29: each clause is the rule above of its command. -/
theorem dramChannelsInService : Obligations.DramChannelsInService := by
  unfold Obligations.DramChannelsInService
  refine ⟨?dead, ?refresh, ?undue, ?pause, ?after, ?late, ?merge, ?selfRefresh, ?patrol, ?freeze, ?snapshot⟩
  case dead =>
    exact fun s c b h => ⟨exec_refresh_dead h b, exec_makeUpBurst_dead h b, exec_selfRefreshEntry_dead h,
      exec_patrolScrub_dead h⟩
  case refresh =>
    intro s c h
    refine ⟨exec_refresh h false, ?_, exec_makeUpBurst h true, ?_⟩
    · rw [exec_refresh h]
      simp only [true_and]
    · rw [exec_makeUpBurst h]
      simp only [Bool.false_eq_true, false_or]
  case undue => exact fun s c temp owed hc hdue => exec_retrainPause_undue hc hdue owed
  case pause =>
    intro s u v c temp owed j hc hu hdue htrained hv hjobs hact htarget hqueued hheld hgap hmay
    exact exec_retrainPause_runs hc hu hdue htrained hv hjobs hact htarget hqueued hheld hgap hmay owed
  case after =>
    intro s c temp owed
    simp only [State.retrain_chan, true_and]
    exact State.retrain_debt_le temp owed
  case late => exact fun s c t hdue hnew => exec_retrainLate hdue hnew
  case merge => exact fun s line => ⟨exec_mergeEntryWrite_none, fun m => exec_mergeEntryWrite_some⟩
  case selfRefresh =>
    intro s c hlive
    refine ⟨fun hawake => exec_selfRefreshEntry_stays hlive ?_, fun hscene hon hidle hmerge =>
      exec_selfRefreshEntry_enters hlive ⟨hscene, hon, hidle, hmerge⟩⟩
    rintro ⟨hscene, hon, -, -⟩
    rcases hawake with hoff | hoff
    · simp [hscene] at hoff
    · exact hon hoff
  case patrol =>
    intro s frame line progress points words c hlive hon hempty u p
    have hreads (points : List Nat) := exec_patrolScrub_reads hlive hon line points progress words
    have hnone : u.folioIn frame = none := hempty
    refine ⟨?_, fun d hv => ?_, fun hv => ?_⟩
    · rw [hreads, State.scrubbed_good hnone (by decide)]
    · rw [hreads, State.scrubbed_corrected hnone hv]
    · rw [hreads, State.scrubbed_uncorrectable hnone hv]
  case freeze =>
    intro s c cause cls dpa words hc hruns hlo hhi u
    rw [exec_dmcFrozen hc hruns hlo hhi]
    exact congrArg Host.Outcome.next (apply_ite State.settle _ _ _)
  case snapshot =>
    exact fun s c hc hfrozen => ⟨_, exec_freezeSnapRead hc hfrozen, State.setFlag_snapRead, rfl⟩

end Sys2Proof.Machine

namespace Sys2Proof.Machine

/-! Reclaim, rebuild and reshape (R319 to R324, R353 to R370): which group a job takes, what reading a folio for relocation
leaves alone, and what each command does with its group. -/

section
variable {s : State}

/-! ### The group a job takes (R319, R357): the one no other beats -/

/-- One step of a choice: the next one is taken in place of the one in hand if it beats it. -/
def pick {α : Type} (beats : α → α → Bool) (a : Option α) (g : α) : Option α :=
  match a with
  | none => some g
  | some b => if beats g b then some g else some b

section
variable {α : Type} {beats : α → α → Bool} {le : α → α → Prop} (hrefl : ∀ a, le a a)
  (htrans : ∀ a b c, le a b → le b c → le a c) (htake : ∀ g b, beats g b = true → le g b)
  (hkeep : ∀ g b, beats g b = false → le b g)
include hrefl htrans htake hkeep

/-- Where what beats another is not after it, and what does not beat it is not before it, a choice is first of all. -/
theorem foldl_pick_some {l : List α} {b m : α} (h : l.foldl (pick beats) (some b) = some m) :
    m ∈ b :: l ∧ ∀ x ∈ b :: l, le m x := by
  induction l generalizing b with
  | nil =>
    cases h
    exact ⟨List.mem_singleton.mpr rfl, fun x hx => List.mem_singleton.mp hx ▸ hrefl m⟩
  | cons g t ih =>
    rw [List.foldl_cons, pick] at h
    split at h
    case isTrue hb =>
      obtain ⟨hmem, hfirst⟩ := ih h
      have hg := hfirst g List.mem_cons_self
      refine ⟨List.mem_cons_of_mem b hmem, fun x hx => ?_⟩
      rcases List.mem_cons.mp hx with rfl | hx
      · exact htrans m g x hg (htake g x hb)
      · exact hfirst x hx
    case isFalse hb =>
      obtain ⟨hmem, hfirst⟩ := ih h
      have hin := hfirst b List.mem_cons_self
      refine ⟨?_, fun x hx => ?_⟩
      · rcases List.mem_cons.mp hmem with rfl | hmem
        · exact List.mem_cons_self
        · exact List.mem_cons_of_mem b (List.mem_cons_of_mem g hmem)
      · rcases List.mem_cons.mp hx with rfl | hx
        · exact hin
        · rcases List.mem_cons.mp hx with rfl | hx
          · exact htrans m b x hin (hkeep x b (eq_false_of_ne_true hb))
          · exact hfirst x (List.mem_cons_of_mem b hx)

theorem foldl_pick_none {l : List α} {m : α} (h : l.foldl (pick beats) none = some m) :
    m ∈ l ∧ ∀ x ∈ l, le m x := by
  cases l with
  | nil => contradiction
  | cons b t => exact foldl_pick_some hrefl htrans htake hkeep h

end

/-- Fewer current folios, or as many and older. -/
def State.lighter (s : State) (g b : Group) : Bool :=
  decide ((s.current g.num).length < (s.current b.num).length ∨
    (s.current g.num).length = (s.current b.num).length ∧ g.first < b.first)

/-- More missing members, or as many and lighter. -/
def State.moreUrgent (s : State) (g b : Group) : Bool :=
  decide (s.missing b < s.missing g ∨ s.missing b = s.missing g ∧ s.lighter g b = true)

theorem State.lighter_le {g b : Group} (h : s.lighter g b = true) :
    (s.current g.num).length ≤ (s.current b.num).length := by
  rcases of_decide_eq_true h with h | h <;> omega

theorem State.lighter_ge {g b : Group} (h : s.lighter g b = false) :
    (s.current b.num).length ≤ (s.current g.num).length := by
  have hnot := of_decide_eq_false h
  omega

theorem State.moreUrgent_ge {g b : Group} (h : s.moreUrgent g b = true) : s.missing b ≤ s.missing g := by
  rcases of_decide_eq_true h with h | h <;> omega

theorem State.moreUrgent_le {g b : Group} (h : s.moreUrgent g b = false) : s.missing g ≤ s.missing b :=
  Nat.not_lt.mp fun hlt => of_decide_eq_false h (.inl hlt)

theorem State.victimGroup_eq_foldl :
    s.victimGroup = (s.liveGroups.filter (fun g => g.state != 1)).foldl (pick s.lighter) none := by
  refine congrArg (List.foldl · none _) (funext fun a => funext fun g => ?_)
  cases a with
  | none => rfl
  | some b => simp only [pick, lighter, decide_eq_true_eq]

theorem State.rebuildNext_eq_foldl : s.rebuildNext = (s.liveGroups.filter s.ofRebuild).foldl (pick s.moreUrgent) none := by
  refine congrArg (List.foldl · none _) (funext fun a => funext fun g => ?_)
  cases a with
  | none => rfl
  | some b => simp only [pick, moreUrgent, lighter, decide_eq_true_eq]

theorem State.victimGroup_least {g : Group} (hv : s.victimGroup = some g) : g ∈ s.liveGroups ∧ g.state ≠ 1 ∧
    ∀ h ∈ s.liveGroups, h.state ≠ 1 → (s.current g.num).length ≤ (s.current h.num).length := by
  rw [victimGroup_eq_foldl] at hv
  obtain ⟨hmem, hleast⟩ := foldl_pick_none (le := fun g h => (s.current g.num).length ≤ (s.current h.num).length)
    (fun _ => Nat.le_refl _) (fun _ _ _ => Nat.le_trans) (fun _ _ => lighter_le) (fun _ _ => lighter_ge) hv
  obtain ⟨hlive, hclosed⟩ := List.mem_filter.mp hmem
  exact ⟨hlive, bne_iff_ne.mp hclosed, fun h hh hne => hleast h (List.mem_filter.mpr ⟨hh, bne_iff_ne.mpr hne⟩)⟩

theorem State.rebuildNext_most {g : Group} (hv : s.rebuildNext = some g) : g ∈ s.liveGroups ∧ s.ofRebuild g = true ∧
    ∀ h ∈ s.liveGroups, s.ofRebuild h = true → s.missing h ≤ s.missing g := by
  rw [rebuildNext_eq_foldl] at hv
  obtain ⟨hmem, hmost⟩ := foldl_pick_none (le := fun g h => s.missing h ≤ s.missing g)
    (fun _ => Nat.le_refl _) (fun _ _ _ h k => Nat.le_trans k h) (fun _ _ => moreUrgent_ge) (fun _ _ => moreUrgent_le) hv
  obtain ⟨hlive, hof⟩ := List.mem_filter.mp hmem
  exact ⟨hlive, hof, fun h hh hother => hmost h (List.mem_filter.mpr ⟨hh, hother⟩)⟩

theorem State.victimGroup_none (h : s.flash.groups = []) : s.victimGroup = none := by
  rw [victimGroup_eq_foldl, liveGroups, h]
  rfl

/-! ### Reading a folio for relocation (R321) -/

/-- What issuing a read leaves alone: the registers, the ink and how many reads there are. -/
def State.issueFrame (s : State) : Regs × InkUnit × Nat := (s.regs, s.ink, s.flash.reads.length)

theorem State.grant_issueFrame (stage : Nat) (waiting : List Nat) :
    (s.grant stage waiting).2.issueFrame = s.issueFrame := by
  unfold grant
  dsimp only
  split
  · rfl
  · split <;> rfl

theorem State.issueRead_issueFrame (r : ReadJob) : (s.issueRead r).issueFrame = s.issueFrame := by
  simp [issueFrame, issueRead]

theorem State.issueDie_issueFrame (die n : Nat) : (s.issueDie die n).issueFrame = s.issueFrame := by
  induction n generalizing s with
  | zero => rfl
  | succ n ih =>
    rw [issueDie]
    dsimp only
    split
    · rfl
    · split
      · exact ih.trans ((issueRead_issueFrame _).trans (grant_issueFrame _ _))
      · exact grant_issueFrame _ _

theorem State.issueReads_issueFrame : s.issueReads.issueFrame = s.issueFrame :=
  foldl_proj issueFrame (fun _ die => issueDie_issueFrame die _) _

theorem State.flashRead_issueFrame (f cls : Nat) :
    (s.flashRead f cls).issueFrame = (s.regs, s.ink, s.flash.reads.length + 1) := by
  refine issueReads_issueFrame.trans ?_
  simp [issueFrame]

theorem State.readMove_skips {f cls : Nat} (h : s.keyLoaded (s.flashKey f) = false ∨ s.innerRoom cls = false) :
    s.readMove f cls = s := by
  refine if_neg fun hboth => ?_
  obtain ⟨hkey, hroom⟩ := Bool.and_eq_true_iff.mp hboth
  rcases h with h | h
  · simp [hkey] at h
  · simp [hroom] at h

theorem State.readMove_reads {f cls : Nat} (hkey : s.keyLoaded (s.flashKey f) = true) (hroom : s.innerRoom cls = true) :
    s.readMove f cls = s.flashRead f cls := if_pos (Bool.and_eq_true_iff.mpr ⟨hkey, hroom⟩)

/-! ### RECLAIM (R319 to R324) -/

/-- The free blocks call for reclaim: below `free_low`, or below `free_high` where the write rate leaves room. -/
def State.wantsBlocks (s : State) (room : Bool) : Bool :=
  decide (s.fld F.QUIRE_FREE_free 0 < s.fld F.QUIRE_RECLAIM_CFG_free_low 0) ||
    (room && decide (s.fld F.QUIRE_FREE_free 0 < s.fld F.QUIRE_RECLAIM_CFG_free_high 0))

/-- RECLAIM_URGENT is due: below a quarter of `free_low`, once a minute. -/
def State.reclaimUrgent (s : State) : Bool :=
  decide (s.fld F.QUIRE_FREE_free 0 < s.fld F.QUIRE_RECLAIM_CFG_free_low 0 / 4) && (match s.flash.urgentAt with
    | some t => s.due t 60000000
    | none => true)

/-- RECLAIM_URGENT is raised where it is due and writing is open. -/
def State.reclaimEvent (s : State) : State :=
  if s.reclaimUrgent && s.mayWrite then
    ({ s with flash := { s.flash with urgentAt := some s.clock } }).raiseD Ev.RECLAIM_URGENT (s.fld F.QUIRE_FREE_free 0)
  else s

/-- The victim in hand while it holds current folios, else the next. -/
def State.nextVictim (s : State) : Option Group :=
  match s.flash.victim with
  | some n => (match s.groupOf n with
    | some g => if (s.current n).isEmpty || g.state == 4 then s.victimGroup else some g
    | none => s.victimGroup)
  | none => s.victimGroup

/-- The current folios of the group are read for relocation. -/
def State.reclaimGroup (s : State) (g : Group) : State :=
  let u : State := { s with flash := { s.flash with victim := some g.num } }
  ((u.current g.num).foldl (fun st p => if st.moving p.1 then st else st.readMove p.1 8) u).releaseEmpty.flashRegs

/-- The next victim, if there is one, is relocated. -/
def State.reclaimNext (s : State) : State :=
  match s.nextVictim with
  | none => s
  | some g => s.reclaimGroup g

theorem exec_reclaim (room : Bool) : exec (.reclaim room) s =
    .next (if s.mayWrite && s.wantsBlocks room then s.reclaimEvent.reclaimNext else s.reclaimEvent) := rfl

theorem State.reclaimEvent_closed (h : s.mayWrite = false) : s.reclaimEvent = s := if_neg (by simp [h])

theorem State.reclaimEvent_calm (h : s.fld F.QUIRE_RECLAIM_CFG_free_low 0 / 4 ≤ s.fld F.QUIRE_FREE_free 0) :
    s.reclaimEvent = s := if_neg (by simp [reclaimUrgent, Nat.not_lt.mpr h])

theorem State.reclaimEvent_first (hmay : s.mayWrite = true)
    (hurgent : s.fld F.QUIRE_FREE_free 0 < s.fld F.QUIRE_RECLAIM_CFG_free_low 0 / 4) (hfirst : s.flash.urgentAt = none) :
    s.reclaimEvent = ({ s with flash := { s.flash with urgentAt := some s.clock } } : State).raiseD Ev.RECLAIM_URGENT
      (s.fld F.QUIRE_FREE_free 0) := if_pos (by simp [reclaimUrgent, hmay, hurgent, hfirst])

theorem State.reclaimEvent_groups : s.reclaimEvent.flash.groups = s.flash.groups := by
  unfold reclaimEvent
  split
  · rw [raiseD_flash]
  · rfl

theorem State.nextVictim_new (h : s.flash.victim = none) : s.nextVictim = s.victimGroup := by rw [nextVictim, h]

theorem State.nextVictim_none (h : s.flash.groups = []) : s.nextVictim = none := by
  have hgone (n : Nat) : s.groupOf n = none := by simp [groupOf, h]
  unfold nextVictim
  split
  · rw [hgone]
    exact victimGroup_none h
  · exact victimGroup_none h

theorem State.reclaimNext_some {g : Group} (h : s.nextVictim = some g) : s.reclaimNext = s.reclaimGroup g := by
  rw [reclaimNext, h]

theorem State.reclaimNext_none (h : s.nextVictim = none) : s.reclaimNext = s := by rw [reclaimNext, h]

theorem exec_reclaim_closed (h : s.mayWrite = false) (room : Bool) : exec (.reclaim room) s = .next s := by
  rw [exec_reclaim, h, Bool.false_and, if_neg Bool.false_ne_true, State.reclaimEvent_closed h]

theorem exec_reclaim_enough {room : Bool} (hlow : s.fld F.QUIRE_RECLAIM_CFG_free_low 0 ≤ s.fld F.QUIRE_FREE_free 0)
    (hhigh : room = false ∨ s.fld F.QUIRE_RECLAIM_CFG_free_high 0 ≤ s.fld F.QUIRE_FREE_free 0) :
    exec (.reclaim room) s = .next s := by
  have hwants : s.wantsBlocks room = false := by
    rw [State.wantsBlocks, decide_eq_false (Nat.not_lt.mpr hlow), Bool.false_or, Bool.and_eq_false_iff, decide_eq_false_iff_not,
      Nat.not_lt]
    exact hhigh
  rw [exec_reclaim, hwants, Bool.and_false, if_neg Bool.false_ne_true, State.reclaimEvent_calm (by omega)]

/-- Below `free_low` without urgency, a victim newly chosen has its current folios read. -/
theorem exec_reclaim_victim {g : Group} (hmay : s.mayWrite = true)
    (hlow : s.fld F.QUIRE_FREE_free 0 < s.fld F.QUIRE_RECLAIM_CFG_free_low 0)
    (hcalm : s.fld F.QUIRE_RECLAIM_CFG_free_low 0 / 4 ≤ s.fld F.QUIRE_FREE_free 0) (hnew : s.flash.victim = none)
    (hv : s.victimGroup = some g) (room : Bool) : exec (.reclaim room) s = .next (s.reclaimGroup g) := by
  have hwants : s.wantsBlocks room = true := by simp [State.wantsBlocks, hlow]
  rw [exec_reclaim, hmay, hwants, State.reclaimEvent_calm hcalm,
    State.reclaimNext_some ((State.nextVictim_new hnew).trans hv)]
  rfl

/-- Without groups RECLAIM does no more than raise its event. -/
theorem exec_reclaim_groupless (h : s.flash.groups = []) (room : Bool) : exec (.reclaim room) s = .next s.reclaimEvent := by
  rw [exec_reclaim, State.reclaimNext_none (State.nextVictim_none (State.reclaimEvent_groups.trans h)), ite_self]

/-! ### REBUILD and RESHAPE (R357 to R370) -/

theorem State.closeFor_closed {g : Group} (h : g.state ≠ 1) : s.closeFor g = s := if_neg h

theorem exec_rebuild_idle (h : s.rebuildCheck.running 4 = none) : exec .rebuild s = .next s.rebuildCheck.flashRegs := by
  change execRebuild s = _
  simp only [execRebuild, h]

theorem exec_rebuild_ends {j : Job} (hj : s.rebuildCheck.running 4 = some j) (hg : s.rebuildCheck.rebuildNext = none) :
    exec .rebuild s = .next s.rebuildCheck.moveEnds := by
  change execRebuild s = _
  simp only [execRebuild, hj, hg]

theorem exec_rebuild_closed {j : Job} {g : Group} (hj : s.rebuildCheck.running 4 = some j)
    (hg : s.rebuildCheck.rebuildNext = some g) (hclosed : s.rebuildCheck.mayWrite = false) :
    exec .rebuild s = .next s.rebuildCheck := by
  change execRebuild s = _
  simp only [execRebuild, hj, hg, hclosed, Bool.false_eq_true, if_false]

theorem exec_rebuild_moves {j : Job} {g : Group} (hj : s.rebuildCheck.running 4 = some j)
    (hg : s.rebuildCheck.rebuildNext = some g) (hmay : s.rebuildCheck.mayWrite = true) (hstate : g.state ≠ 1)
    (hof : s.rebuildCheck.groupOf g.num = some g) :
    exec .rebuild s = .next (((s.rebuildCheck.moveGroup g 9).releaseEmpty.moveEnds).settle) := by
  change execRebuild s = _
  simp only [execRebuild, hj, hg, hmay, if_true, State.closeFor_closed hstate, hof]

theorem exec_reshape_ends {j : Job} (hj : s.running 5 = some j) (hg : s.reshapeNext = none) :
    exec .reshape s = .next s.moveEnds := by
  change execReshape s = _
  simp only [execReshape, hj, hg]

/-- The reshape waits for the rebuild (R370). -/
theorem exec_reshape_waits {j k : Job} {g : Group} (hj : s.running 5 = some j) (hg : s.reshapeNext = some g)
    (hk : s.running 4 = some k) : exec .reshape s = .next s := by
  change execReshape s = _
  simp only [execReshape, hj, hg, hk, Option.isNone_some, Bool.and_false, Bool.false_eq_true, if_false]

theorem exec_reshape_moves {j : Job} {g : Group} (hj : s.running 5 = some j) (hg : s.reshapeNext = some g)
    (hk : s.running 4 = none) (hmay : s.mayWrite = true) (hstate : g.state ≠ 1) (hof : s.groupOf g.num = some g) :
    exec .reshape s = .next (((s.moveGroup g 10).releaseEmpty.moveEnds).settle) := by
  change execReshape s = _
  simp only [execReshape, hj, hg, hk, hmay, Option.isNone_none, Bool.and_true, if_true, State.closeFor_closed hstate, hof]

theorem exec_reshapeDelayExpiry_none (h : s.flash.reshapeAt = none) : exec .reshapeDelayExpiry s = .next s := by
  change execReshapeDelayExpiry s = _
  simp only [execReshapeDelayExpiry, h]

theorem exec_reshapeDelayExpiry_some {t : Nat} (h : s.flash.reshapeAt = some t) : exec .reshapeDelayExpiry s =
    .next (if t + s.fld F.QUIRE_REBUILD_CFG_reshape_delay 0 * 60000000 ≤ s.clock then s.submitReshape.flashRegs else s) := by
  change execReshapeDelayExpiry s = _
  simp only [execReshapeDelayExpiry, h, State.due, decide_eq_true_eq]

end

/-- Settles O34: each job takes the least group by its key, and each clause of a command is its rule above. -/
theorem reclaimRebuildAndReshapeMoveFolios : Obligations.ReclaimRebuildAndReshapeMoveFolios := by
  unfold Obligations.ReclaimRebuildAndReshapeMoveFolios
  refine ⟨?reclaim, fun s g => State.victimGroup_least, ?read, ?rebuild, fun s g => State.rebuildNext_most, ?reshape, ?delay⟩
  case reclaim =>
    intro s room
    refine ⟨fun hclosed => exec_reclaim_closed hclosed room, exec_reclaim_enough,
      fun g hmay hlow hcalm hnew hv => exec_reclaim_victim hmay hlow hcalm hnew hv room,
      fun hmay hurgent hfirst hgroups => ⟨s.reclaimEvent, exec_reclaim_groupless hgroups room, _,
        State.reclaimEvent_first hmay hurgent hfirst, rfl⟩⟩
  case read =>
    refine fun s f cls => ⟨State.readMove_skips, fun hkey hroom => ?_⟩
    rw [State.readMove_reads hkey hroom]
    have hframe := s.flashRead_issueFrame f cls
    exact ⟨rfl, congrArg Prod.fst hframe, congrArg (·.2.1) hframe, congrArg (·.2.2) hframe⟩
  case rebuild =>
    exact fun s => ⟨exec_rebuild_idle, fun j => exec_rebuild_ends, fun j g => exec_rebuild_closed,
      fun j g => exec_rebuild_moves⟩
  case reshape =>
    exact fun s j hj => ⟨exec_reshape_ends hj, fun g k hg => exec_reshape_waits hj hg,
      fun g hg hk hmay => exec_reshape_moves hj hg hk hmay⟩
  case delay =>
    refine fun s => ⟨exec_reshapeDelayExpiry_none, fun t ht => ⟨fun hearly => ?_, fun hdue => ?_⟩⟩
    · rw [exec_reshapeDelayExpiry_some ht, if_neg (Nat.not_le.mpr hearly)]
    · rw [exec_reshapeDelayExpiry_some ht, if_pos hdue]

end Sys2Proof.Machine

namespace Sys2Proof.Machine

/-! Twin messages that are in order (R362, R539, R548 to R571, R771): such a message is taken in and its body is processed;
then what each body does, by the role, the job or the table entry that it meets. -/

section
open Sys2Proof.Claims

/-! ### Taking in (R537 to R540) -/

/-- The state in which the ack of an ACK is used that finds nothing unacknowledged (R539). -/
def State.heardQuiet (s : State) (h : TwinHead) : State :=
  { s with twin := { s.twin with recvSeq := h.seq, ackedSeq := h.seq, lostRaised := false,
                                 lastHeard := if s.role = 2 then s.clock else s.twin.lastHeard } }

section
variable {s : State} {h : TwinHead} (hin : InOrder s h)
include hin

/-- Only an ACK that finds nothing unacknowledged notes its own number as acknowledged. -/
theorem State.receive_inOrder {type : Nat} (hloud : type ≠ 0x03 ∨ s.twin.ackedSeq ≠ s.twin.recvSeq)
    (body : State → State) : s.receive h type body = body (taken s h) := by
  obtain ⟨hup, hslot, hepoch, hseq⟩ := hin
  have hquiet : (type == 0x03 && s.twin.ackedSeq == s.twin.recvSeq) = false := by
    simpa only [Bool.and_eq_false_iff, beq_eq_false_iff_ne] using hloud
  simp only [State.receive, hup, beq_false_of_ne hslot, hepoch, ← hseq, hquiet, Nat.lt_irrefl, false_and, ne_eq,
    not_true_eq_false, if_false, Bool.not_true, Bool.or_self, Bool.false_eq_true]
  rfl

theorem State.receive_quietAck (hquiet : s.twin.ackedSeq = s.twin.recvSeq) (body : State → State) :
    s.receive h 0x03 body = body ((s.heardQuiet h).twinAcked h.ack) := by
  obtain ⟨hup, hslot, hepoch, hseq⟩ := hin
  simp only [State.receive, State.heardQuiet, hup, beq_false_of_ne hslot, hepoch, ← hseq, hquiet, Nat.lt_irrefl, false_and,
    ne_eq, not_true_eq_false, if_false, if_true, Bool.not_true, Bool.or_self, Bool.false_eq_true, Bool.and_self,
    beq_self_eq_true, beq_iff_eq]

/-- A message in order of any type but ACK answers what its body makes of the state that has taken it in. -/
theorem next_receive_inOrder {type : Nat} (htype : type ≠ 0x03) (body : State → State) :
    (.next (s.receive h type body).settle : Res) = .next (body (taken s h)).settle := by
  rw [State.receive_inOrder hin (.inl htype)]

theorem exec_heartbeat (ink : Nat) : exec (.heartbeat h ink) s = .next (taken s h).settle :=
  next_receive_inOrder hin (by decide) id

theorem exec_ack_loud (hloud : s.twin.ackedSeq ≠ s.twin.recvSeq) : exec (.ack h) s = .next (taken s h).settle := by
  change execAck h s = _
  rw [execAck, State.receive_inOrder hin (.inr hloud)]

theorem exec_ack_quiet (hquiet : s.twin.ackedSeq = s.twin.recvSeq) :
    exec (.ack h) s = .next ((s.heardQuiet h).twinAcked h.ack).settle := by
  change execAck h s = _
  rw [execAck, State.receive_quietAck hin hquiet]

theorem exec_store (recs : List LineWrite) :
    exec (.store h recs) s = .next ((taken s h).twinStore h.seq false (recs.take 48)).settle :=
  next_receive_inOrder hin (by decide) fun st => st.twinStore h.seq false (recs.take 48)

theorem exec_sealMsg (recs : List LineWrite) :
    exec (.sealMsg h recs) s = .next ((taken s h).twinStore h.seq true (recs.take 64)).settle :=
  next_receive_inOrder hin (by decide) fun st => st.twinStore h.seq true (recs.take 64)

theorem exec_tableSync (table index : Nat) (ws : List Nat) (last : Bool) :
    exec (.tableSync h table index ws last) s = .next ((taken s h).takeTable h.seq table index ws last).settle :=
  next_receive_inOrder hin (by decide) fun st => st.takeTable h.seq table index ws last

theorem exec_tableResult (q st : Nat) :
    exec (.tableResult h q st) s = .next ((taken s h).tableResult q st).settle :=
  next_receive_inOrder hin (by decide) fun u => u.tableResult q st

theorem exec_bitmap (first : Nat) (marks : List Bool) :
    exec (.bitmap h first marks) s = .next ((taken s h).takeBitmap first marks).settle :=
  next_receive_inOrder hin (by decide) fun st => st.takeBitmap first marks

theorem exec_resyncDone (part : Nat) (absent : List Nat) :
    exec (.resyncDone h part absent) s = .next ((taken s h).resyncDone part absent).settle :=
  next_receive_inOrder hin (by decide) fun st => st.resyncDone part absent

theorem exec_mirrorReady (r : Nat) : exec (.mirrorReady h r) s = .next ((taken s h).mirrorReady r).settle :=
  next_receive_inOrder hin (by decide) fun st => st.mirrorReady r

theorem exec_fetchReq (f i : Nat) : exec (.fetchReq h f i) s = .next ((taken s h).fetchReq f i).settle :=
  next_receive_inOrder hin (by decide) fun st => st.fetchReq f i

theorem exec_fetchData (i : Nat) (good : Bool) (cells : List Host.Cell) :
    exec (.fetchData h i good cells) s = .next ((taken s h).fetchData i good cells).settle :=
  next_receive_inOrder hin (by decide) fun st => st.fetchData i good cells

theorem exec_journalReq (i : Nat) : exec (.journalReq h i) s = .next ((taken s h).journalReq i).settle :=
  next_receive_inOrder hin (by decide) fun st => st.journalReq i

theorem exec_checkpointNote (n first : Nat) :
    exec (.checkpointNote h n first) s = .next ((taken s h).checkpointNote first).settle :=
  next_receive_inOrder hin (by decide) fun st => st.checkpointNote first

theorem exec_handoverAck : exec (.handoverAck h) s = .next ((taken s h).handoverAck h.epoch).settle :=
  next_receive_inOrder hin (by decide) fun st => st.handoverAck h.epoch

/-! The folio messages and HANDOVER act in one role, or on one kind of region. -/

theorem exec_resyncFolio (f : Nat) (zero : Bool) (cells : List Host.Cell) : exec (.resyncFolio h f zero cells) s =
    .next (if (taken s h).role = 2 then (taken s h).takeWhole f (if zero then [] else cells) else taken s h).settle :=
  next_receive_inOrder hin (by decide) fun st => if st.role = 2 then st.takeWhole f (if zero then [] else cells) else st

theorem exec_handbackFolio_region {f : Nat} {e : Rgn} (he : (taken s h).regionAt (f * 65536) = some e) (zero : Bool)
    (cells : List Host.Cell) : exec (.handbackFolio h f zero cells) s =
      .next (if e.idx ∈ (taken s h).twin.absentNone then (taken s h).takeWhole f (if zero then [] else cells)
        else taken s h).settle := by
  change execHandbackFolio h f zero cells s = _
  simp only [execHandbackFolio, next_receive_inOrder hin (type := 0x32) (by decide), he, List.contains_iff_mem]

theorem exec_handbackFolio_nowhere {f : Nat} (he : (taken s h).regionAt (f * 65536) = none) (zero : Bool)
    (cells : List Host.Cell) : exec (.handbackFolio h f zero cells) s = .next (taken s h).settle := by
  change execHandbackFolio h f zero cells s = _
  simp only [execHandbackFolio, next_receive_inOrder hin (type := 0x32) (by decide), he]

theorem exec_handover (final : Nat) : exec (.handover h final) s =
    .next (if (taken s h).role = 2 then
      { taken s h with twin := { (taken s h).twin with handover := some h.seq } } else taken s h).settle :=
  next_receive_inOrder hin (by decide) fun st =>
    if st.role = 2 then { st with twin := { st.twin with handover := some h.seq } } else st

end

/-! ### Stores and tables (R548, R550) -/

section
variable {s : State}

theorem State.twinStore_other (hrole : s.role ≠ 2) (seq : Nat) (isSeal : Bool) (recs : List LineWrite) :
    s.twinStore seq isSeal recs = s := by
  simp only [State.twinStore, bne_iff_ne.mpr hrole, if_true]

theorem State.twinStore_understudy (hrole : s.role = 2) (seq : Nat) (recs : List LineWrite) :
    s.twinStore seq false recs = recs.foldl (fun st w =>
      st.acceptInner (st.request (.twin seq) true (w.line * 64) [w] 12 (st.clock + 2 ^ 40) false false none)) s := by
  simp only [State.twinStore, hrole, bne_self_eq_false, Bool.false_eq_true, if_false]

theorem State.twinStore_seal (hrole : s.role = 2) (seq : Nat) (w : LineWrite) (t : List LineWrite) :
    s.twinStore seq true (w :: t) =
      s.acceptInner (s.request (.twin seq) true (w.line * 64) (w :: t) 12 (s.clock + 2 ^ 40) false true none) := by
  simp only [State.twinStore, hrole, bne_self_eq_false, Bool.false_eq_true, if_false, if_true]

theorem State.takeTable_other (hrole : s.role ≠ 2) (seq table index : Nat) (ws : List Nat) (last : Bool) :
    s.takeTable seq table index ws last = s := by
  rw [State.takeTable, if_pos (bne_iff_ne.mpr hrole)]

/-- The shadow entry of a TABLE_SYNC is written, and the message waits for its result. -/
def State.tableTaken (s : State) (seq table index : Nat) (ws : List Nat) : State :=
  let x := s.setTabEntry false (table % 3) index (ws.take (tabWords (table % 3)))
  { x with twin := { x.twin with tablesIn := x.twin.tablesIn ++ [seq] } }

theorem State.takeTable_understudy (hrole : s.role = 2) (seq table index : Nat) (ws : List Nat) (last : Bool) :
    s.takeTable seq table index ws last =
      if last then (s.tableTaken seq table index ws).ownCommit (.twin seq) else s.tableTaken seq table index ws := by
  simp only [State.takeTable, State.tableTaken, hrole, bne_self_eq_false, Bool.false_eq_true, if_false]

theorem State.tableResult_accepted {q st : Nat} (hdone : st = St.DONE ∨ q ∉ s.region.tableSync) : s.tableResult q st =
    { s with region := { s.region with tableSync := s.region.tableSync.filter (fun x => x != q) } } := by
  have hend : (!s.region.tableSync.contains q || st == St.DONE) = true := by
    simpa [or_comm] using hdone
  simp only [State.tableResult, hend, if_true]

/-- The commit that waits for a TABLE_RESULT is refused: it is under way no more, and nothing waits for its tables. -/
theorem State.tableResult_denied {q st : Nat} {by_ : Committer} (hst : st ≠ St.DONE) (hq : q ∈ s.region.tableSync)
    (hcommit : s.region.commit = some by_) : ∃ v : State, s.tableResult q st = v.commitTell by_ St.CURTAIN_DENIED ∧
      v.region.commit = none ∧ v.region.tableSync = [] := by
  have hopen : (!s.region.tableSync.contains q || st == St.DONE) = false := by simp [hq, hst]
  simp only [State.tableResult, hopen, raise_region, hcommit, Bool.false_eq_true, if_false]
  exact ⟨_, rfl, rfl, rfl⟩

/-! ### Resync (R564, R568) -/

theorem State.takeBitmap_unwanted (hnot : s.twin.resyncSends = false ∨ s.twin.bitmapDue = false) (first : Nat)
    (marks : List Bool) : s.takeBitmap first marks = s := by
  rw [State.takeBitmap, Bool.and_eq_false_iff.mpr hnot, if_neg Bool.false_ne_true]

/-- The marks of a BITMAP join the sender's own, and the folios to send are counted. -/
theorem State.takeBitmap_due (hsends : s.twin.resyncSends = true) (hdue : s.twin.bitmapDue = true) (first : Nat)
    (marks : List Bool) : (s.takeBitmap first marks).twin.bitmapDue = false ∧
      (s.takeBitmap first marks).twin.resyncTotal = (s.takeBitmap first marks).twin.resyncLeft.length ∧
      (s.takeBitmap first marks).twin.divMap = ((upto marks.length).filter (fun k => marks.getD k false)).foldl
        (fun a k => setIns a (first + k)) s.twin.divMap := by
  simp only [State.takeBitmap, hsends, hdue, Bool.and_self, if_true, and_self]

theorem State.resyncDone_understudy (hrole : s.role = 2) (absent : List Nat) :
    s.resyncDone 1 absent = (s.resyncCleared.fetchAgain).handbackBegin absent := by
  rw [State.resyncDone, if_pos rfl, if_pos hrole]

theorem State.resyncDone_other (hrole : s.role ≠ 2) (absent : List Nat) : s.resyncDone 1 absent = s := by
  rw [State.resyncDone, if_pos rfl, if_neg hrole]

theorem State.resyncDone_handback (absent : List Nat) : (s.resyncDone 2 absent).twin.absentNone = [] := rfl

theorem State.resyncDone_beyond {part : Nat} (hpart : 2 < part) (absent : List Nat) : s.resyncDone part absent = s := by
  rw [State.resyncDone, if_neg (by omega), if_neg (by omega)]

/-! ### Fetches (R362, R570) -/

theorem State.fetchReq_unmirrored {f : Nat}
    (hplain : ∀ e, s.regionAt (f * 65536) = some e → e.persistent = false ∨ e.mirror = 0) (i : Nat) :
    s.fetchReq f i = s.twinSend 0x22 (.fetchNak i St.ACCESS_DENIED) none [] := by
  cases he : s.regionAt (f * 65536) with
  | none => simp only [State.fetchReq, he, Bool.not_false, if_true]
  | some e =>
    have hm : (e.persistent && e.mirror != 0) = false := by
      simpa only [Bool.and_eq_false_iff, bne_eq_false_iff_eq] using hplain e he
    simp only [State.fetchReq, he, hm, Bool.not_false, if_true]

section
variable {f : Nat} {e : Rgn} (he : s.regionAt (f * 65536) = some e) (hpers : e.persistent = true) (hmirror : e.mirror ≠ 0)
include he hpers hmirror

theorem State.fetchReq_unsynced (hsync : s.synced = false) (i : Nat) :
    s.fetchReq f i = s.twinSend 0x22 (.fetchNak i St.RETRY_LATER) none [] := by
  simp only [State.fetchReq, he, hpers, bne_iff_ne.mpr hmirror, hsync, Bool.and_self, Bool.not_true, Bool.not_false,
    Bool.or_true, Bool.false_eq_true, if_false, if_true]

theorem State.fetchReq_held (hsync : s.synced = true) (hcalm : s.fld F.TWIN_STAT_resync 0 = 0)
    (hhere : (s.folio f).state ≠ .absent) (i : Nat) :
    s.fetchReq f i = { s with twin := { s.twin with asked := s.twin.asked ++ [(i, f)] } } := by
  simp only [State.fetchReq, he, hpers, bne_iff_ne.mpr hmirror, hsync, hcalm, beq_false_of_ne hhere, bne_self_eq_false,
    Bool.and_self, Bool.not_true, Bool.false_and, Bool.or_self, Bool.false_eq_true, if_false]

end

theorem State.fetchData_unasked {i : Nat} (hnone : s.twin.fetches.find? (fun j => j.id == i) = none) (good : Bool)
    (cells : List Host.Cell) : s.fetchData i good cells = s := by
  simp only [State.fetchData, hnone]

section
variable {i : Nat} {j : FetchJob} (hj : s.twin.fetches.find? (fun j => j.id == i) = some j) (cells : List Host.Cell)
include hj

theorem State.fetchData_bad : s.fetchData i false cells =
    ((s.dropFetch i).raiseD Ev.TWIN_FETCH_FAIL (j.folio * 65536)).fetchLost j := by
  simp only [State.fetchData, hj, Bool.false_eq_true, if_false]

/-- Data for staging or repair is kept, and its fetch has ended. -/
theorem State.fetchData_kept (hwhy : j.why = .staging ∨ j.why = .repair) :
    s.fetchData i true cells = { s.dropFetch i with
      twin := { (s.dropFetch i).twin with fetched := s.twin.fetched ++ [(j.folio, j.why, cells)] } } := by
  rcases hwhy with hwhy | hwhy
  · simp only [State.fetchData, hj, hwhy, if_true, State.dropFetch]
  · simp only [State.fetchData, hj, hwhy, if_true, State.dropFetch]

end

/-! ### Journal copies and handover (R366, R560, R571) -/

theorem State.journalReq_some {i : Nat} {c : Nat × List JRec} (hc : mapGet? s.flash.twinCopies i = some c) :
    s.journalReq i = s.twinSend 0x23 (.journalCopy i c.1 c.2) none [] := by
  simp only [State.journalReq, hc]

theorem State.journalReq_none {i : Nat} (hc : mapGet? s.flash.twinCopies i = none) :
    s.journalReq i = s.twinSend 0x22 (.fetchNak (i % 2 ^ 32) St.LOST) none [] := by
  simp only [State.journalReq, hc]

theorem State.handoverAck_unasked (hnot : s.role ≠ 1 ∨ s.twin.handover = none) (epoch : Nat) :
    s.handoverAck epoch = s := by
  have hoff : (s.role == 1 && s.twin.handover.isSome) = false := by
    simpa only [Bool.and_eq_false_iff, beq_eq_false_iff_ne, Option.isSome_eq_false_iff, Option.isNone_iff_eq_none] using hnot
  simp only [State.handoverAck, hoff, Bool.false_eq_true, if_false]

/-- The former LEAD is the UNDERSTUDY of the new epoch. -/
def State.steppedDown (s : State) (epoch : Nat) : State :=
  (({ s with twin := { s.twin with handover := none, gateClosed := false } }).takeRole 2 epoch).endHandover St.DONE

theorem State.handoverAck_lead (hrole : s.role = 1) (hover : s.twin.handover ≠ none) (epoch : Nat) :
    s.handoverAck epoch = (s.steppedDown epoch).handbackBegin (s.steppedDown epoch).noneRegions := by
  simp only [State.handoverAck, State.steppedDown, hrole, Option.isSome_iff_ne_none.mpr hover, beq_self_eq_true,
    Bool.and_self, if_true]

end

/-- Settles O41: a message in order is taken in, and each clause is the rule above of what its body does. -/
theorem twinMessagesDoWhatTheirTypeSays : Obligations.TwinMessagesDoWhatTheirTypeSays := by
  unfold Obligations.TwinMessagesDoWhatTheirTypeSays
  intro s h hin u
  refine ⟨exec_heartbeat hin, exec_ack_loud hin, ?quietAck, ?stores, ?tableSync, ?tableResult, ?bitmap, ?folios,
    ?resyncDone, exec_mirrorReady hin, ?fetchReq, ?fetchData, ?journalReq, ?checkpointNote, ?handover, ?unasked, ?lead⟩
  case quietAck => exact fun hquiet => ⟨s.heardQuiet h, exec_ack_quiet hin hquiet, rfl, rfl⟩
  case stores =>
    intro recs
    rw [exec_store hin, exec_sealMsg hin]
    refine ⟨fun hrole => ?_, fun hrole => ?_, fun w t hrole htake => ?_⟩
    · rw [State.twinStore_other hrole, State.twinStore_other hrole]
      exact ⟨rfl, rfl⟩
    · rw [State.twinStore_understudy hrole]
    · rw [htake, State.twinStore_seal hrole]
  case tableSync =>
    intro table index ws last
    rw [exec_tableSync hin]
    refine ⟨fun hrole => ?_, fun hrole => ⟨_, u.tableTaken h.seq table index ws, rfl, rfl, ?_⟩⟩
    · rw [State.takeTable_other hrole]
    · rw [State.takeTable_understudy hrole]
  case tableResult =>
    intro q st
    refine ⟨fun hdone => ?_, fun by_ hst hq hcommit => ?_⟩
    · rw [exec_tableResult hin, State.tableResult_accepted hdone]
    · obtain ⟨v, hv, hv'⟩ := State.tableResult_denied hst hq hcommit
      exact ⟨_, exec_tableResult hin q st, v, congrArg State.settle hv, hv'⟩
  case bitmap =>
    intro first marks
    refine ⟨fun hnot => ?_, fun hsends hdue => ?_⟩
    · rw [exec_bitmap hin, State.takeBitmap_unwanted hnot]
    · exact ⟨_, exec_bitmap hin first marks, _, rfl, State.takeBitmap_due hsends hdue first marks⟩
  case folios =>
    intro f zero cells
    rw [exec_resyncFolio hin]
    refine ⟨fun hrole => ?_, fun hrole => ?_, fun e he => ?_, fun he => exec_handbackFolio_nowhere hin he zero cells⟩
    · rw [if_pos hrole]
    · rw [if_neg hrole]
    · rw [exec_handbackFolio_region hin he]
      exact ⟨fun hmem => by rw [if_pos hmem], fun hmem => by rw [if_neg hmem]⟩
  case resyncDone =>
    intro part absent
    refine ⟨?_, ?_, ?_, fun hpart => ?_⟩
    · rintro rfl hrole
      rw [exec_resyncDone hin, State.resyncDone_understudy hrole]
    · rintro rfl hrole
      rw [exec_resyncDone hin, State.resyncDone_other hrole]
    · rintro rfl
      exact ⟨_, exec_resyncDone hin 2 absent, _, rfl, State.resyncDone_handback absent⟩
    · rw [exec_resyncDone hin, State.resyncDone_beyond hpart]
  case fetchReq =>
    intro f i
    rw [exec_fetchReq hin]
    refine ⟨fun hplain => ?_, fun e he hpers hmirror hsync => ?_, fun e he hpers hmirror hsync hcalm hhere => ?_⟩
    · rw [State.fetchReq_unmirrored hplain]
    · rw [State.fetchReq_unsynced he hpers hmirror hsync]
    · rw [State.fetchReq_held he hpers hmirror hsync hcalm hhere]
  case fetchData =>
    intro i good cells
    refine ⟨fun hnone => ?_, fun j hj => ⟨?_, fun hwhy => ?_⟩⟩
    · rw [exec_fetchData hin, State.fetchData_unasked hnone]
    · rw [exec_fetchData hin, State.fetchData_bad hj]
    · rw [Answers, exec_fetchData hin, State.fetchData_kept hj cells hwhy]
      exact ⟨_, rfl, _, rfl, rfl, rfl⟩
  case journalReq =>
    intro i
    rw [exec_journalReq hin]
    exact ⟨fun c hc => by rw [State.journalReq_some hc], fun hc => by rw [State.journalReq_none hc]⟩
  case checkpointNote => exact fun n first => ⟨_, exec_checkpointNote hin n first, _, rfl, rfl⟩
  case handover =>
    intro final
    rw [exec_handover hin]
    exact ⟨fun hrole => by rw [if_pos hrole], fun hrole => by rw [if_neg hrole]⟩
  case unasked =>
    intro hnot
    rw [exec_handoverAck hin, State.handoverAck_unasked hnot]
  case lead =>
    intro hrole hover
    exact ⟨_, exec_handoverAck hin, _, u.steppedDown h.epoch, rfl, rfl,
      congrArg State.settle (State.handoverAck_lead hrole hover h.epoch)⟩

end

end Sys2Proof.Machine


namespace Sys2Proof.Machine

/-! The issue of a Bolastade word (R419, R435, R436): when a command acts, and the fields of a word of each format. -/

section
open Sys2Proof.Claims

/-! ### Issue -/

theorem State.issue_eq_some {s : State} {e cx : Nat} {c : Ctx} {w : Nat} :
    s.issue e cx = some (c, w) ↔ Issues s e cx c w := by
  unfold issue Issues
  constructor
  · intro h
    split at h
    · cases h
    · next hcx =>
      split at h
      · cases h
      · next d hd =>
        split at h
        · next hblock =>
          split at h
          · next v hv =>
            split at h
            · next hready => cases h; exact ⟨Nat.lt_of_not_le hcx, hd, hblock, hv, hready⟩
            · cases h
          · cases h
        · cases h
  · rintro ⟨hcx, hctx, hblock, hfetch, hready⟩
    simp only [Nat.not_le.mpr hcx, hctx, hblock, hfetch, hready, if_true, if_false]

/-- What a command does that acts on a word of its row alone: `act`, on the context that issues such a word. -/
def State.onIssue (s : State) (e cx major mask value : Nat) (act : Ctx → Nat → State) : State :=
  match s.issueAs e cx major mask value with
  | none => s
  | some (c, w) => act c w

section
variable {s : State} {e cx major mask value : Nat} {m : Instr} {act : Ctx → Nat → State}
  (hm : exec m s = .next (s.onIssue e cx major mask value act))
include hm

/-- Without a word of its row that may issue, the command changes nothing. -/
theorem exec_idle (h : ∀ c w, Issues s e cx c w → ¬ (w / 2 ^ 26 % 64 = major ∧ w &&& mask = value)) :
    exec m s = .next s := by
  have hnone : s.issueAs e cx major mask value = none := by
    unfold State.issueAs
    split
    · next c w hi =>
      refine if_neg fun hw => h c w (State.issue_eq_some.mp hi) ?_
      simpa [wOp, bits, Nat.shiftRight_eq_div_pow] using hw
    · rfl
  rw [hm, State.onIssue, hnone]

/-- With a word of its row that may issue, the command acts. -/
theorem exec_issued {c : Ctx} {w : Nat} (h : Issues s e cx c w) (hop : wOp w = major) (hmask : w &&& mask = value) :
    exec m s = .next (act c w) := by
  rw [hm, State.onIssue, State.issueAs, State.issue_eq_some.mpr h]
  simp only [hop, hmask, and_self, if_true]

end

/-- Settles O46: every row but TRAP acts on an issued word of its row alone. -/
theorem instructionsActOnlyWhenTheirWordMayIssue : Obligations.InstructionsActOnlyWhenTheirWordMayIssue := by
  intro s e cx ue er
  simp only [List.forall_mem_append, List.forall_mem_cons, List.not_mem_nil, false_implies, implies_true, and_true]
  and_intros <;> exact exec_idle rfl

/-! ### The fields of the five formats (R435) -/

theorem bits_eq_div_mod (v hi lo : Nat) : bits v hi lo = v / 2 ^ lo % 2 ^ (hi + 1 - lo) := by
  rw [bits, Nat.shiftRight_eq_div_pow]

/-- The low bits of a word. -/
theorem and_mask {w n : Nat} : w &&& (2 ^ n - 1) = w % 2 ^ n := Nat.and_two_pow_sub_one_eq_mod w n

theorem fields_fA {op rd r1 r2 f : Nat} (hop : op < 64) (hd : rd < 32) (h1 : r1 < 32) (h2 : r2 < 32) (hf : f < 2048) :
    wOp (fA op rd r1 r2 f) = op ∧ wRd (fA op rd r1 r2 f) = rd ∧ wR1 (fA op rd r1 r2 f) = r1 ∧
      wR2 (fA op rd r1 r2 f) = r2 ∧ wFunc (fA op rd r1 r2 f) = f := by
  simp only [wOp, wRd, wR1, wR2, wFunc, fA, bits_eq_div_mod]
  omega

theorem fields_fI {op a b i : Nat} (hop : op < 64) (ha : a < 32) (hb : b < 32) (hi : i < 65536) :
    wOp (fI op a b i) = op ∧ wRd (fI op a b i) = a ∧ wR1 (fI op a b i) = b ∧ wImm (fI op a b i) = i := by
  simp only [wOp, wRd, wR1, wImm, fI, bits_eq_div_mod]
  omega

theorem fields_fM {op rt rb z sg d : Nat} (hop : op < 64) (ht : rt < 32) (hb : rb < 32) (hz : z < 4) (hsg : sg < 2)
    (hd : d < 4096) :
    wOp (fM op rt rb z sg d) = op ∧ wRd (fM op rt rb z sg d) = rt ∧ wR1 (fM op rt rb z sg d) = rb ∧
      bits (fM op rt rb z sg d) 15 14 = z ∧ bit (fM op rt rb z sg d) 13 = sg ∧ bit (fM op rt rb z sg d) 12 = 0 ∧
      bits (fM op rt rb z sg d) 11 0 = d := by
  simp only [wOp, wRd, wR1, fM, bits_eq_div_mod, bit, Nat.shiftRight_eq_div_pow]
  omega

theorem fields_fV {op vd v1 v2 pm ew rs f : Nat} (hop : op < 64) (hd : vd < 8) (h1 : v1 < 8) (h2 : v2 < 8)
    (hp : pm < 4) (he : ew < 4) (hr : rs < 32) (hf : f < 256) :
    wOp (fV op vd v1 v2 pm ew rs f) = op ∧ wVd (fV op vd v1 v2 pm ew rs f) = vd ∧ wV1 (fV op vd v1 v2 pm ew rs f) = v1 ∧
      wV2 (fV op vd v1 v2 pm ew rs f) = v2 ∧ wPm (fV op vd v1 v2 pm ew rs f) = pm ∧ wEw (fV op vd v1 v2 pm ew rs f) = ew ∧
      wRs (fV op vd v1 v2 pm ew rs f) = rs ∧ wFv (fV op vd v1 v2 pm ew rs f) = f := by
  simp only [wOp, wVd, wV1, wV2, wPm, wEw, wRs, wFv, fV, bits_eq_div_mod]
  omega

theorem fields_fS {op rd r1 r2 i5 sub : Nat} (hop : op < 64) (hd : rd < 32) (h1 : r1 < 32) (h2 : r2 < 32) (hi : i5 < 32)
    (hs : sub < 64) :
    wOp (fS op rd r1 r2 i5 sub) = op ∧ wRd (fS op rd r1 r2 i5 sub) = rd ∧ wR1 (fS op rd r1 r2 i5 sub) = r1 ∧
      wR2 (fS op rd r1 r2 i5 sub) = r2 ∧ wImm5 (fS op rd r1 r2 i5 sub) = i5 ∧ wSub (fS op rd r1 r2 i5 sub) = sub := by
  simp only [wOp, wRd, wR1, wR2, wImm5, wSub, fS, bits_eq_div_mod]
  omega

/-- The function bits of F-A are the low 11 bits, those of F-S the low 6. -/
theorem fA_and_mask {op rd r1 r2 f : Nat} (hf : f < 2048) : fA op rd r1 r2 f &&& 0x7FF = f := by
  rw [show (0x7FF : Nat) = 2 ^ 11 - 1 from rfl, and_mask, fA]
  omega

theorem fS_and_mask {op rd r1 r2 i5 sub : Nat} (hs : sub < 64) : fS op rd r1 r2 i5 sub &&& 0x3F = sub := by
  rw [show (0x3F : Nat) = 2 ^ 6 - 1 from rfl, and_mask, fS]
  omega

/-- The mode of an F-V load or store is bits 7 and 6. -/
theorem fV_and_mode {op vd v1 v2 pm ew rs mode d : Nat} (hm : mode < 4) (hd : d < 64) :
    fV op vd v1 v2 pm ew rs (mode * 64 + d) &&& 0xC0 = mode * 64 := by
  have hlow : fV op vd v1 v2 pm ew rs (mode * 64 + d) &&& 0xC0 = (mode * 64 + d) &&& 0xC0 := by
    refine Nat.eq_of_testBit_eq fun i => ?_
    rw [Nat.testBit_and, Nat.testBit_and]
    by_cases hi : i < 8
    · have hmod : (fV op vd v1 v2 pm ew rs (mode * 64 + d)) % 2 ^ 8 = mode * 64 + d := by rw [fV]; omega
      rw [← congrArg (Nat.testBit · i) hmod, Nat.testBit_mod_two_pow, decide_eq_true hi, Bool.true_and]
    · rw [Nat.testBit_lt_two_pow (x := 0xC0) (Nat.lt_of_lt_of_le (by decide : 0xC0 < 2 ^ 8)
        (Nat.pow_le_pow_right (by decide) (Nat.le_of_not_lt hi))), Bool.and_false, Bool.and_false]
  rw [hlow]
  exact (by decide : ∀ a < 4, ∀ b < 64, (a * 64 + b) &&& 0xC0 = a * 64) mode hm d hd

theorem fV_and_one {op vd v1 v2 pm ew rs f : Nat} : fV op vd v1 v2 pm ew rs f &&& 1 = f % 2 := by
  rw [Nat.and_one_is_mod, fV]
  omega

/-! ### The context after an instruction (R423, R459) -/

@[simp] theorem Ctx.advance_setX (c : Ctx) (n : Nat) (v : W64) : (c.setX n v).advance = wrote c n v := by
  unfold Ctx.setX wrote
  split <;> rfl

theorem Ctx.setX_eq (c : Ctx) (n : Nat) (v : W64) : c.setX n v = { c with x := if n = 0 then c.x else mapSet c.x n v } := by
  unfold Ctx.setX
  split <;> rfl

theorem State.ctx_setCtx (s : State) (k : Nat) (c : Ctx) : (s.setCtx k c).ctx k = some c := mapGet?_set_self ..

end
end Sys2Proof.Machine

namespace Sys2Proof.Machine

/-! The values of the integer instructions, and one completion rule for each of their forms (R464 to R468). -/

section
open Sys2Proof.Claims

/-! ### Values of the register forms (R464, R465) -/

/-- The model decides by a Boolean where the spec states a condition. -/
theorem ite_eq_of_iff {α : Type} {p q : Prop} [Decidable p] [Decidable q] (h : p ↔ q) (x y : α) :
    (if p then x else y) = if q then x else y :=
  ite_congr (propext h) (fun _ => rfl) (fun _ => rfl)

theorem truth_eq_ite {b : Bool} {p : Prop} [Decidable p] (h : b = true ↔ p) : truth b = if p then 1 else 0 := by
  unfold truth
  exact ite_eq_of_iff h 1 0

theorem truth_beq (x y : W64) : truth (x == y) = if x = y then 1 else 0 := truth_eq_ite beq_iff_eq

theorem truth_bne (x y : W64) : truth (x != y) = if x = y then 0 else 1 := by
  rw [truth_eq_ite (p := ¬ x = y) bne_iff_ne, ite_not]

theorem truth_slt (x y : W64) : truth (x.slt y) = if x.toInt < y.toInt then 1 else 0 :=
  truth_eq_ite BitVec.slt_iff_toInt_lt

theorem truth_sle (x y : W64) : truth (x.sle y) = if x.toInt ≤ y.toInt then 1 else 0 :=
  truth_eq_ite BitVec.sle_iff_toInt_le

theorem ult_iff (x y : W64) : x.ult y = true ↔ x.toNat < y.toNat := decide_eq_true_iff

theorem ule_iff (x y : W64) : x.ule y = true ↔ x.toNat ≤ y.toNat := decide_eq_true_iff

theorem bne_eq_decide_ne (x y : W64) : (x != y) = decide (x ≠ y) := by
  rw [Bool.eq_iff_iff, bne_iff_ne, decide_eq_true_iff]

theorem not_slt_zero (x : W64) : (!x.slt 0) = decide (0 ≤ x.toInt) := by
  rw [Bool.eq_iff_iff, Bool.not_eq_true', decide_eq_true_iff, ← Bool.not_eq_true, BitVec.slt_iff_toInt_lt]
  exact Int.not_lt

theorem shiftLeft_eq_ofNat (x : W64) (n : Nat) : x <<< n = BitVec.ofNat 64 (x.toNat * 2 ^ n) :=
  BitVec.eq_of_toNat_eq (by rw [BitVec.toNat_shiftLeft, BitVec.toNat_ofNat, Nat.shiftLeft_eq])

theorem shiftRight_eq_ofNat (x : W64) (n : Nat) : x >>> n = BitVec.ofNat 64 (x.toNat / 2 ^ n) := by
  refine BitVec.eq_of_toNat_eq ?_
  rw [BitVec.toNat_ushiftRight, BitVec.toNat_ofNat, Nat.shiftRight_eq_div_pow,
    Nat.mod_eq_of_lt (Nat.lt_of_le_of_lt (Nat.div_le_self _ _) x.isLt)]

theorem sshiftRight_eq_ofInt (x : W64) (n : Nat) : x.sshiftRight n = BitVec.ofInt 64 (x.toInt / 2 ^ n) := by
  rw [BitVec.sshiftRight, Int.shiftRight_eq_div_pow]
  norm_cast

/-- A rotation puts the bits that leave below above the rest, where a shift by 64 − n leaves room for them. -/
theorem rotateRight_eq_ofNat (x : W64) {n : Nat} (hn : n < 64) :
    x.rotateRight n = BitVec.ofNat 64 (x.toNat / 2 ^ n + x.toNat * 2 ^ (64 - n)) := by
  have hpow : (2 : Nat) ^ 64 = 2 ^ n * 2 ^ (64 - n) := by rw [← Nat.pow_add]; congr 1; omega
  have hfit : x.toNat / 2 ^ n < 2 ^ (64 - n) := Nat.div_lt_of_lt_mul (hpow ▸ x.isLt)
  have hlow : x.toNat <<< (64 - n) % 2 ^ 64 = (x.toNat % 2 ^ n) <<< (64 - n) := by
    rw [Nat.shiftLeft_eq, Nat.shiftLeft_eq, hpow, Nat.mul_mod_mul_right]
  refine BitVec.eq_of_toNat_eq ?_
  rw [BitVec.toNat_rotateRight, Nat.mod_eq_of_lt hn, Nat.shiftRight_eq_div_pow, hlow, Nat.or_comm,
    ← Nat.shiftLeft_add_eq_or_of_lt hfit, ← hlow, BitVec.toNat_ofNat, Nat.shiftLeft_eq]
  have hsum : x.toNat % 2 ^ n * 2 ^ (64 - n) + x.toNat / 2 ^ n < 2 ^ 64 := by
    have hm : x.toNat % 2 ^ n + 1 ≤ 2 ^ n := Nat.mod_lt _ (Nat.two_pow_pos n)
    calc _ < (x.toNat % 2 ^ n + 1) * 2 ^ (64 - n) := by rw [Nat.add_mul, Nat.one_mul]; omega
      _ ≤ 2 ^ n * 2 ^ (64 - n) := Nat.mul_le_mul_right _ hm
      _ = 2 ^ 64 := hpow.symm
  rw [Nat.shiftLeft_eq, Nat.shiftLeft_eq] at hlow
  rw [← hlow] at hsum
  rw [Nat.add_comm (x.toNat / 2 ^ n), ← Nat.mod_add_mod, Nat.mod_eq_of_lt hsum]

theorem mul_eq_ofNat (x y : W64) : x * y = BitVec.ofNat 64 (x.toNat * y.toNat) :=
  BitVec.eq_of_toNat_eq (by rw [BitVec.toNat_mul, BitVec.toNat_ofNat])

theorem sdiv_eq_ofInt (x y : W64) : x.sdiv y = BitVec.ofInt 64 (x.toInt.tdiv y.toInt) :=
  BitVec.eq_of_toInt_eq (by rw [BitVec.toInt_sdiv, BitVec.toInt_ofInt])

theorem srem_eq_ofInt (x y : W64) : x.srem y = BitVec.ofInt 64 (x.toInt.tmod y.toInt) := by
  rw [← BitVec.toInt_srem, BitVec.ofInt_toInt]

theorem udiv_eq_ofNat (x y : W64) : x.udiv y = BitVec.ofNat 64 (x.toNat / y.toNat) := by
  exact BitVec.udiv_def

theorem umod_eq_ofNat (x y : W64) : x.umod y = BitVec.ofNat 64 (x.toNat % y.toNat) := by
  exact BitVec.umod_def

/-- The leading zeros of a number of 64 bits: all bits above are clear, and the next one is set. -/
theorem bitLen_spec {v : Nat} (hv : v < 2 ^ 64) :
    64 - bitLen v ≤ 64 ∧ v < 2 ^ (64 - (64 - bitLen v)) ∧ (64 - bitLen v < 64 → v.testBit (63 - (64 - bitLen v)) = true) := by
  unfold bitLen
  by_cases h0 : v = 0
  · simp [h0]
  · have hlog : Nat.log2 v < 64 := (Nat.log2_lt h0).mpr hv
    rw [if_neg h0, show 64 - (64 - (Nat.log2 v + 1)) = Nat.log2 v + 1 by omega,
      show 63 - (64 - (Nat.log2 v + 1)) = Nat.log2 v by omega]
    exact ⟨Nat.sub_le _ _, Nat.lt_log2_self, fun _ => Nat.testBit_log2 h0⟩

/-- The trailing zeros of a number of 64 bits: the place of the lowest bit that is set, else 64. -/
theorem trailing_spec {v k : Nat} (hk : ((upto 64).find? (fun i => bitB v i)).getD 64 = k) :
    k ≤ 64 ∧ v % 2 ^ k = 0 ∧ (k < 64 → v.testBit k = true) := by
  have hlow {n : Nat} (h : ∀ j < n, v.testBit j = false) : v % 2 ^ n = 0 := by
    refine Nat.eq_of_testBit_eq fun j => ?_
    rw [Nat.testBit_mod_two_pow, Nat.zero_testBit]
    by_cases hj : j < n
    · rw [h j hj, Bool.and_false]
    · rw [decide_eq_false hj, Bool.false_and]
  cases hf : (upto 64).find? (fun i => bitB v i) with
  | none =>
    rw [hf, Option.getD_none] at hk
    subst hk
    have hall := List.find?_eq_none.mp hf
    refine ⟨Nat.le_refl _, hlow fun j hj => ?_, fun h => absurd h (Nat.lt_irrefl _)⟩
    rw [← bitB_eq_testBit]
    exact eq_false_of_ne_true (hall j (List.mem_range.mpr hj))
  | some n =>
    rw [hf, Option.getD_some] at hk
    subst hk
    obtain ⟨hset, hmem, hbefore⟩ := List.find?_range_eq_some.mp hf
    refine ⟨Nat.le_of_lt (List.mem_range.mp hmem), hlow fun j hj => ?_, fun _ => bitB_eq_testBit v n ▸ hset⟩
    rw [← bitB_eq_testBit]
    simpa using hbefore j hj

/-- Counting by adding bits is counting the places whose bit is set. -/
theorem popN_eq_countP (n v : Nat) : popN n v = (List.range n).countP (fun j => v.testBit j) := by
  induction n with
  | zero => rfl
  | succ n ih =>
    unfold popN at ih ⊢
    rw [List.range_succ, List.foldl_append, ih, List.countP_append, List.foldl_cons, List.foldl_nil, List.countP_singleton,
      bit, Nat.shiftRight_eq_div_pow, Nat.testBit_eq_decide_div_mod_eq]
    rcases Nat.mod_two_eq_zero_or_one (v / 2 ^ n) with h | h <;> simp [h]

/-- Byte `j` of the number that a list of bytes spells. -/
theorem leNat_byte (bs : List Byte) (j : Nat) : leNat bs / 256 ^ j % 256 = (bs.getD j 0).toNat := by
  induction bs generalizing j with
  | nil => simp [leNat]
  | cons b t ih =>
    have hb : b.toNat < 256 := b.isLt
    cases j with
    | zero => simp only [leNat, Nat.pow_zero, Nat.div_one, List.getD_cons_zero]; omega
    | succ j =>
      rw [leNat, Nat.pow_succ', ← Nat.div_div_eq_div_mul, Nat.add_mul_div_left _ _ (by decide), Nat.div_eq_of_lt hb,
        Nat.zero_add, ih, List.getD_cons_succ]

theorem leNat_lt (bs : List Byte) : leNat bs < 256 ^ bs.length := by
  induction bs with
  | nil => simp [leNat]
  | cons b t ih =>
    have hb : b.toNat < 256 := b.isLt
    rw [leNat, List.length_cons, Nat.pow_succ']
    omega

/-- Byte `j` of a number is byte `j` of its little-endian spelling. -/
theorem leBytes_getD {n j : Nat} (v : Nat) (hj : j < n) : ((leBytes n v).getD j 0).toNat = v / 256 ^ j % 256 := by
  rw [← leNat_byte, leNat_leBytes]
  have hpow : 256 ^ n = 256 ^ j * 256 ^ (n - j) := by rw [← Nat.pow_add]; congr 1; omega
  rw [hpow, Nat.mod_mul_right_div_self, Nat.mod_mod_of_dvd _ (Nat.pow_dvd_pow 256 (show 1 ≤ n - j by omega))]

/-- REVB puts byte 7 − j at place j. -/
theorem reverse_byte (x : W64) {j : Nat} (hj : j < 8) :
    (BitVec.ofNat 64 (leNat (leBytes 8 x.toNat).reverse)).toNat / 256 ^ j % 256 = x.toNat / 256 ^ (7 - j) % 256 := by
  have hlt : leNat (leBytes 8 x.toNat).reverse < 2 ^ 64 := by simpa using leNat_lt (leBytes 8 x.toNat).reverse
  rw [BitVec.toNat_ofNat, Nat.mod_eq_of_lt hlt, leNat_byte, ← leBytes_getD (n := 8) x.toNat (by omega : 7 - j < 8)]
  simp only [List.getD_eq_getElem?_getD]
  rw [List.getElem?_reverse (by simpa using hj), leBytes_length]

/-! ### Values of the immediate forms (R459, R466, R467) -/

/-- The low `n` bits of `v` as a signed number (R459). -/
def signed (v n : Nat) : Int :=
  if v % 2 ^ n < 2 ^ (n - 1) then ((v % 2 ^ n : Nat) : Int) else ((v % 2 ^ n : Nat) : Int) - 2 ^ n

theorem two_pow_eq_cast (n : Nat) : (2 : Int) ^ n = ((2 ^ n : Nat) : Int) := (Int.natCast_pow 2 n).symm

theorem signed_bounds (v : Nat) {n : Nat} (hn : 0 < n) : -(2 ^ (n - 1) : Int) ≤ signed v n ∧ signed v n < 2 ^ (n - 1) := by
  have hpow : (2 : Nat) ^ n = 2 * 2 ^ (n - 1) := by rw [← Nat.pow_succ']; congr 1; omega
  have hlt : v % 2 ^ n < 2 ^ n := Nat.mod_lt _ (Nat.two_pow_pos n)
  unfold signed
  generalize v % 2 ^ n = u at hlt
  rw [two_pow_eq_cast, two_pow_eq_cast]
  generalize 2 ^ (n - 1) = half at hpow ⊢
  generalize 2 ^ n = m at hpow hlt ⊢
  split <;> omega

theorem ofNat_sx (v : Nat) {n : Nat} (hn : n ≤ 64) : BitVec.ofNat 64 (sx v n) = BitVec.ofInt 64 (signed v n) := by
  have hpow : (2 : Nat) ^ n ≤ 2 ^ 64 := Nat.pow_le_pow_right (by decide) hn
  have hlt : v % 2 ^ n < 2 ^ n := Nat.mod_lt _ (Nat.two_pow_pos n)
  refine BitVec.eq_of_toNat_eq ?_
  rw [BitVec.toNat_ofNat, BitVec.toNat_ofInt, sx, signed, two_pow_eq_cast]
  generalize v % 2 ^ n = u at hlt
  generalize 2 ^ n = m at hpow hlt
  split <;> omega

/-- A number that 64 bits hold is read back from them. -/
theorem toInt_ofInt_signed (v : Nat) {n : Nat} (hpos : 0 < n) (hn : n ≤ 64) :
    (BitVec.ofInt 64 (signed v n)).toInt = signed v n := by
  have hpow : (2 : Int) ^ (n - 1) ≤ 2 ^ 63 := by
    rw [two_pow_eq_cast]
    exact Int.ofNat_le.mpr (Nat.pow_le_pow_right (by decide) (by omega : n - 1 ≤ 63))
  obtain ⟨hlo, hhi⟩ := signed_bounds v hpos
  rw [BitVec.toInt_ofInt, Int.bmod_eq_of_le (by omega) (by omega)]

theorem signed_imm {i : Nat} (hi : i < 65536) : signed i 16 = if i < 32768 then (i : Int) else (i : Int) - 65536 := by
  rw [signed, Nat.mod_eq_of_lt (show i < 2 ^ 16 from hi)]
  rfl

theorem and_ofNat (x : W64) (i : Nat) : x &&& BitVec.ofNat 64 i = BitVec.ofNat 64 (x.toNat &&& i) := by
  rw [BitVec.ofNat_and, BitVec.ofNat_toNat, BitVec.setWidth_eq]

theorem or_ofNat (x : W64) (i : Nat) : x ||| BitVec.ofNat 64 i = BitVec.ofNat 64 (x.toNat ||| i) := by
  rw [BitVec.ofNat_or, BitVec.ofNat_toNat, BitVec.setWidth_eq]

theorem xor_ofNat (x : W64) (i : Nat) : x ^^^ BitVec.ofNat 64 i = BitVec.ofNat 64 (x.toNat ^^^ i) := by
  rw [BitVec.ofNat_xor, BitVec.ofNat_toNat, BitVec.setWidth_eq]

/-! ### Completion -/

section
variable {s : State} {e cx : Nat} {c : Ctx} {m : Instr}

/-- An instruction of major 0x01 completes with its value; a form of one operand has rs2 = 0. -/
theorem exec_alu {func rd a b : Nat} {unary : Bool} {g : W64 → W64 → W64} {v : W64}
    (hm : exec m s = .next (s.alu e cx func unary g)) (hrd : rd < 32) (ha : a < 32) (hb : b < 32) (hf : func < 2048)
    (hu : unary = true → b = 0) (hv : g (c.xr a) (c.xr b) = v) (h : Issues s e cx c (fA 1 rd a b func)) :
    Writes m s e cx c rd v := by
  obtain ⟨hop, hwd, hw1, hw2, -⟩ := fields_fA (op := 1) (by decide) hrd ha hb hf
  have hunary : (unary && b != 0) = false := by
    cases unary
    · rfl
    · simp [hu rfl]
  refine (exec_issued hm h hop (fA_and_mask hf)).trans ?_
  simp only [hwd, hw1, hw2, hunary, Bool.false_eq_true, if_false, Ctx.advance_setX, hv]
  rfl

/-- An immediate instruction completes with its value. -/
theorem exec_aluI {major a b i : Nat} {legal : Nat → Bool} {g : W64 → Nat → W64} {v : W64}
    (hm : exec m s = .next (s.aluI e cx major legal g)) (hmajor : major < 64) (ha : a < 32) (hb : b < 32) (hi : i < 65536)
    (hl : legal (fI major a b i) = true) (hv : g (c.xr b) i = v) (h : Issues s e cx c (fI major a b i)) :
    Writes m s e cx c a v := by
  obtain ⟨hop, hwa, hwb, hwi⟩ := fields_fI hmajor ha hb hi
  refine (exec_issued hm h hop (Nat.and_zero _)).trans ?_
  simp only [hl, if_true, hwa, hwb, hwi, Ctx.advance_setX, hv]
  rfl

theorem Ctx.target_eq (c : Ctx) {w i : Nat} (hw : wImm w = i) (hi : i < 65536) : c.target w = branchTo c.pc i := by
  rw [Ctx.target, hw, branchTo, sx, Nat.mod_eq_of_lt (show i < 2 ^ 16 from hi)]
  by_cases hpos : i < 32768
  · rw [if_pos hpos, if_pos (show i < 2 ^ (16 - 1) from hpos)]
  · rw [if_neg hpos, if_neg (show ¬ i < 2 ^ (16 - 1) from hpos)]
    omega

/-- A conditional branch goes to its target or to the next word. -/
theorem exec_branch {major b i : Nat} {cond : W64 → Bool} {t : Bool} (hm : exec m s = .next (s.branch e cx major cond))
    (hmajor : major < 64) (hb : b < 32) (hi : i < 65536) (ht : cond (c.xr b) = t)
    (h : Issues s e cx c (fI major 0 b i)) :
    Becomes m s e cx { c with pc := if t then branchTo c.pc i else (c.pc + 4) % 2 ^ 64 } := by
  obtain ⟨hop, hwa, hwb, hwi⟩ := fields_fI (a := 0) hmajor (by decide) hb hi
  refine (exec_issued hm h hop (Nat.and_zero _)).trans ?_
  simp only [hwa, ne_eq, not_true_eq_false, if_false, hwb, ht, Ctx.target_eq c hwi hi]
  cases t <;> rfl

end

/-- A shift count below 64 leaves bits 15 to 6 of its word clear (R467). -/
theorem shift_legal {major a b i : Nat} (hi : i < 64) : (bits (fI major a b i) 15 6 == 0) = true := by
  rw [beq_iff_eq, bits_eq_div_mod, fI]
  omega

/-- Settles O58: each instruction completes by the rule of its form, with the value that its lemma above gives. -/
theorem integerAndBranchInstructionsComplete : Obligations.IntegerAndBranchInstructionsComplete := by
  intro s e cx c rd a b i hrd ha hb hi x y n si be put go may
  have hn : n < 64 := Nat.mod_lt _ (by decide)
  have hsi : signed i 16 = si := signed_imm hi
  have hword : (BitVec.ofNat 64 (sx i 16)).toInt = si := by
    rw [ofNat_sx i (by decide), toInt_ofInt_signed i (by decide) (by decide), hsi]
  have heq : (x == BitVec.ofNat 64 (sx i 16)) = true ↔ x.toInt = si := by
    rw [beq_iff_eq, ← hword, BitVec.toInt_inj]
  -- the two forms of major 0x01, the immediate form and the branch, with the bounds of their fields
  have two {m f g v} (hm : exec m s = .next (s.alu e cx f false g)) (hf : f < 2048) (hv : g x y = v) :
      may f b → exec m s = put v := exec_alu hm hrd ha hb hf nofun hv
  have one {m f g v} (hm : exec m s = .next (s.alu e cx f true g)) (hf : f < 2048) (hv : g x (c.xr 0) = v) :
      may f 0 → exec m s = put v := exec_alu hm hrd ha (by decide) hf (fun _ => rfl) hv
  have imm {m k g v} (hm : exec m s = .next (s.aluI e cx k (fun _ => true) g)) (hk : k < 64) (hv : g x i = v) :
      Issues s e cx c (fI k rd a i) → exec m s = put v := exec_aluI hm hk hrd ha hi rfl hv
  have shift {m k g v} (hm : exec m s = .next (s.aluI e cx k (fun w => bits w 15 6 == 0) g)) (hk : k < 64)
      (hv : g x i = v) (hi64 : i < 64) : Issues s e cx c (fI k rd a i) → exec m s = put v :=
    exec_aluI hm hk hrd ha hi (shift_legal hi64) hv
  have branch {m k g t} (hm : exec m s = .next (s.branch e cx k g)) (hk : k < 64) (ht : g x = t) :
      Issues s e cx c (fI k 0 a i) → exec m s = go t := exec_branch hm hk ha hi ht
  refine ⟨two rfl (by decide) rfl, two rfl (by decide) rfl, one rfl (by decide) rfl, two rfl (by decide) rfl,
    two rfl (by decide) rfl, two rfl (by decide) rfl, two rfl (by decide) rfl, two rfl (by decide) rfl,
    two rfl (by decide) (shiftLeft_eq_ofNat x n), two rfl (by decide) (shiftRight_eq_ofNat x n),
    two rfl (by decide) (sshiftRight_eq_ofInt x n), two rfl (by decide) (rotateRight_eq_ofNat x hn),
    two rfl (by decide) (truth_beq x y), two rfl (by decide) (truth_bne x y), two rfl (by decide) (truth_slt x y),
    two rfl (by decide) (truth_sle x y), two rfl (by decide) (truth_eq_ite (ult_iff x y)),
    two rfl (by decide) (truth_eq_ite (ule_iff x y)), two rfl (by decide) (ite_eq_of_iff BitVec.sle_iff_toInt_le _ _),
    two rfl (by decide) (ite_eq_of_iff BitVec.sle_iff_toInt_le _ _), two rfl (by decide) (ite_eq_of_iff (ule_iff x y) _ _),
    two rfl (by decide) (ite_eq_of_iff (ule_iff x y) _ _), two rfl (by decide) (mul_eq_ofNat x y), two rfl (by decide) rfl,
    two rfl (by decide) rfl, two rfl (by decide) (sdiv_eq_ofInt x y), two rfl (by decide) (udiv_eq_ofNat x y),
    two rfl (by decide) (srem_eq_ofInt x y), two rfl (by decide) (umod_eq_ofNat x y),
    fun h => ⟨_, one rfl (by decide) rfl h, bitLen_spec x.isLt⟩, fun h => ⟨_, one rfl (by decide) rfl h, trailing_spec rfl⟩,
    one rfl (by decide) (congrArg _ (popN_eq_countP 64 x.toNat)),
    fun h => ⟨_, one rfl (by decide) rfl h, fun j hj => reverse_byte x hj⟩,
    imm rfl (by decide) (hsi ▸ congrArg (x + ·) (ofNat_sx i (by decide))), imm rfl (by decide) (and_ofNat x i),
    imm rfl (by decide) (or_ofNat x i), imm rfl (by decide) (xor_ofNat x i), imm rfl (by decide) (truth_eq_ite heq),
    imm rfl (by decide) ((truth_slt x _).trans (by rw [hword])),
    fun hi64 => shift rfl (by decide) (by rw [Nat.mod_eq_of_lt hi64, shiftLeft_eq_ofNat]) hi64,
    fun hi64 => shift rfl (by decide) (by rw [Nat.mod_eq_of_lt hi64, shiftRight_eq_ofNat]) hi64,
    fun hi64 => shift rfl (by decide) (by rw [Nat.mod_eq_of_lt hi64, sshiftRight_eq_ofInt]) hi64,
    branch rfl (by decide) rfl, branch rfl (by decide) (bne_eq_decide_ne x 0), branch rfl (by decide) rfl,
    branch rfl (by decide) (not_slt_zero x)⟩

end
end Sys2Proof.Machine

namespace Sys2Proof.Machine

/-! HASH, the special registers, YIELD, HALT and TRAP (R425, R488, R495 to R498). -/

section
open Sys2Proof.Claims

/-- The fields of an F-S word that its row does not name, as the word writes them. -/
theorem fsZero_fS {op rd r1 r2 i5 sub : Nat} (hop : op < 64) (hd : rd < 32) (h1 : r1 < 32) (h2 : r2 < 32) (hi : i5 < 32)
    (hs : sub < 64) (zd z1 z2 zi : Bool) : fsZero (fS op rd r1 r2 i5 sub) zd z1 z2 zi =
      ((!zd || rd == 0) && (!z1 || r1 == 0) && (!z2 || r2 == 0) && (!zi || i5 == 0)) := by
  obtain ⟨-, hwd, hw1, hw2, hwi, -⟩ := fields_fS hop hd h1 h2 hi hs
  rw [fsZero, hwd, hw1, hw2, hwi]

section
variable {s : State} {e cx : Nat} {c : Ctx}

/-! ### HASH -/

section
variable {rd a b f : Nat} (hrd : rd < 32) (ha : a < 32) (hb : b < 32) (hf : f < 2048) (h : Issues s e cx c (fA 0x2C rd a b f))
include hrd ha hb hf h

theorem exec_hash : exec (.hash e cx) s = .next (if f ≠ 0 then s.takeTrap (e * 16 + cx) c .illegalInsn
    else s.setCtx (e * 16 + cx) (wrote c rd (kmix (c.xr a) (c.xr b)))) := by
  obtain ⟨hop, hwd, hw1, hw2, hwf⟩ := fields_fA (op := 0x2C) (by decide) hrd ha hb hf
  refine (exec_issued rfl h hop (Nat.and_zero _)).trans ?_
  simp only [hwd, hw1, hw2, hwf, Ctx.advance_setX]

end

/-! ### RDSR and WRSR -/

section
variable {rd n : Nat} (hrd : rd < 32) (hn : n < 32) (h : Issues s e cx c (fS 0x3D rd 0 0 n 0))
include hrd hn h

theorem exec_rdsr_some {v : Nat} (hv : c.special n = some v) : Writes (.rdsr e cx) s e cx c rd (BitVec.ofNat 64 v) := by
  obtain ⟨hop, hwd, -, -, hwi, -⟩ := fields_fS (op := 0x3D) (r1 := 0) (r2 := 0) (sub := 0) (by decide) hrd (by decide)
    (by decide) hn (by decide)
  refine (exec_issued rfl h hop (fS_and_mask (by decide))).trans ?_
  rw [fsZero_fS (by decide) hrd (by decide) (by decide) hn (by decide), hwi, hwd]
  simp only [hv, Ctx.advance_setX, Bool.not_false, Bool.true_or, beq_self_eq_true, Bool.or_true, Bool.and_self,
    Bool.not_true, Bool.false_eq_true, if_false]
  rfl

theorem exec_rdsr_none (hv : c.special n = none) :
    exec (.rdsr e cx) s = .next (s.takeTrap (e * 16 + cx) c .srAccess) := by
  obtain ⟨hop, -, -, -, hwi, -⟩ := fields_fS (op := 0x3D) (r1 := 0) (r2 := 0) (sub := 0) (by decide) hrd (by decide)
    (by decide) hn (by decide)
  refine (exec_issued rfl h hop (fS_and_mask (by decide))).trans ?_
  rw [fsZero_fS (by decide) hrd (by decide) (by decide) hn (by decide), hwi]
  simp only [hv, Bool.not_false, Bool.true_or, beq_self_eq_true, Bool.or_true, Bool.and_self,
    Bool.not_true, Bool.false_eq_true, if_false]

end

/-- Special registers beyond `epc` do not exist (R425). -/
theorem Ctx.special_none (c : Ctx) {n : Nat} (hn : 5 < n) : c.special n = none := by
  match n, hn with
  | n + 6, _ => rfl

theorem exec_wrsr {a n : Nat} (ha : a < 32) (hn : n < 32) (h : Issues s e cx c (fS 0x3D 0 a 0 n 1)) :
    exec (.wrsr e cx) s = .next (
      if n = 2 then s.putCtx (e * 16 + cx) { c.advance with win := c.win &&& ((c.xr a).toNat % 65536) }
      else if n = 4 ∧ c.handler then s.putCtx (e * 16 + cx) { c.advance with
        cause := (c.xr a).toNat % 65536, handler := decide ((c.xr a).toNat % 65536 ≠ 0) }
      else if n = 5 ∧ c.handler then s.putCtx (e * 16 + cx) { c.advance with epc := (c.xr a).toNat }
      else s.takeTrap (e * 16 + cx) c .srAccess) := by
  obtain ⟨hop, -, hw1, -, hwi, -⟩ := fields_fS (op := 0x3D) (rd := 0) (r2 := 0) (sub := 1) (by decide) (by decide) ha
    (by decide) hn (by decide)
  refine (exec_issued rfl h hop (fS_and_mask (by decide))).trans ?_
  rw [fsZero_fS (by decide) (by decide) ha (by decide) hn (by decide)]
  simp only [hw1, hwi, Bool.not_false, Bool.true_or, beq_self_eq_true, Bool.or_true, Bool.and_self, Bool.not_true,
    Bool.false_eq_true, if_false] <;> rfl

/-! ### YIELD and HALT -/

theorem exec_yield (h : Issues s e cx c (fS 0x3C 0 0 0 0 0)) :
    Becomes (.yield e cx) s e cx { c with pc := (c.pc + 4) % 2 ^ 64, block := .yield } :=
  (exec_issued (act := fun c w => if !fsZero w true true true true then s.takeTrap (e * 16 + cx) c .illegalInsn
    else s.setCtx (e * 16 + cx) { c.advance with block := .yield }) rfl h (by decide) (by decide)).trans
    (congrArg _ (if_neg (by decide)))

/-- A status that HALT may not give, or that no row of the status codes has (R497). -/
def haltRefused (v : Nat) : Prop :=
  0x14 < v ∨ v = St.ABORTED ∨ v = St.ALREADY_DONE ∨ v = St.STALE_TICKET ∨ v = St.FENCED ∨ v = St.ENGINE_FAULT

theorem haltStatus_refused {v : Nat} (h : haltRefused v) : haltStatus v = (St.ILLEGAL, false) :=
  if_pos (by simpa [haltRefused] using h)

theorem haltStatus_given {v : Nat} (h : ¬ haltRefused v) : haltStatus v = (v, true) :=
  if_neg (by simpa [haltRefused] using h)

section
variable {a b : Nat} (ha : a < 32) (hb : b < 32) (h : Issues s e cx c (fS 0x3C 0 a b 0 1))
include ha hb h

theorem exec_halt_open (hopen : c.sealOpen = true) :
    exec (.halt e cx) s = .next (s.takeTrap (e * 16 + cx) c .sealState) := by
  obtain ⟨hop, -⟩ := fields_fS (op := 0x3C) (rd := 0) (i5 := 0) (sub := 1) (by decide) (by decide) ha hb (by decide)
    (by decide)
  refine (exec_issued rfl h hop (fS_and_mask (by decide))).trans ?_
  rw [fsZero_fS (by decide) (by decide) ha hb (by decide) (by decide)]
  simp [hopen]

/-- HALT outside a group waits for the stores with the status and the result that `haltStatus` lets through. -/
theorem exec_halt {st res : Nat} {ok : Bool} (hclosed : c.sealOpen = false) (hst : haltStatus (c.xr a).toNat = (st, ok))
    (hres : (if ok then (c.xr b).toNat else 0) = res) : exec (.halt e cx) s = .next (((s.setCtx (e * 16 + cx)
      { c with block := .halt st res }).tryFinish (e * 16 + cx)).settle) := by
  obtain ⟨hop, -, hw1, hw2, -⟩ := fields_fS (op := 0x3C) (rd := 0) (i5 := 0) (sub := 1) (by decide) (by decide) ha hb
    (by decide) (by decide)
  refine (exec_issued rfl h hop (fS_and_mask (by decide))).trans ?_
  rw [fsZero_fS (by decide) (by decide) ha hb (by decide) (by decide)]
  simp [hclosed, hw1, hw2, hst, hres]

end

/-! ### TRAP -/

/-- A context that holds no blocking instruction but has no word at its pc. -/
theorem exec_trap_outside (ue : Bool) (hcx : cx < 16) (hctx : s.ctx (e * 16 + cx) = some c) (hblock : c.block = .none)
    (hfetch : s.fetchWord (e * 16 + cx) c = none) :
    exec (.trap e cx ue) s = .next (s.takeTrap (e * 16 + cx) c .fetchBounds).settle := by
  change execTrap e cx ue s = _
  simp only [execTrap, Nat.not_le.mpr hcx, hctx, hblock, hfetch, ne_eq, not_true_eq_false, if_false]

/-- With a word of a row, TRAP is the instruction of its own row and else nothing. -/
theorem exec_trap_row {w : Nat} (h : Issues s e cx c w) (hrow : hasRow w = true) : exec (.trap e cx false) s = .next (
    if wOp w = 0x3C ∧ wSub w = 2 then
      (if !fsZero w true false true false then (s.takeTrap (e * 16 + cx) c .illegalInsn).settle
       else (s.takeTrap (e * 16 + cx) c (.trap (((c.xr (wR1 w)).toNat + wImm5 w) % 256))).settle)
    else s) := by
  obtain ⟨hcx, hctx, hblock, hfetch, hready⟩ := h
  change execTrap e cx false s = _
  simp only [execTrap, Nat.not_le.mpr hcx, hctx, hblock, hfetch, hready, hrow, ne_eq, not_true_eq_false, if_false,
    Bool.not_true, Bool.false_eq_true, and_true]

theorem hasRow_of_mem {w m v : Nat} (hmem : (w / 2 ^ 26 % 64, m, v) ∈ rowWords) (hw : w &&& m = v) : hasRow w = true := by
  refine List.any_eq_true.mpr ⟨_, hmem, ?_⟩
  simp [wOp, bits_eq_div_mod, hw]

theorem exec_trap {a i : Nat} (ha : a < 32) (hi : i < 32) (h : Issues s e cx c (fS 0x3C 0 a 0 i 2)) :
    exec (.trap e cx false) s = .next (s.takeTrap (e * 16 + cx) c (.trap (((c.xr a).toNat + i) % 256))).settle := by
  obtain ⟨hop, -, hw1, -, hwi, hws⟩ := fields_fS (op := 0x3C) (rd := 0) (r2 := 0) (sub := 2) (by decide) (by decide) ha
    (by decide) hi (by decide)
  have hrow : hasRow (fS 0x3C 0 a 0 i 2) = true := by
    refine List.any_eq_true.mpr ⟨(0x3C, 0x3F, 2), by decide, ?_⟩
    simp only [hop, fS_and_mask (sub := 2) (by decide), beq_self_eq_true, Bool.and_self]
  rw [exec_trap_row h hrow, fsZero_fS (by decide) (by decide) ha (by decide) hi (by decide), hop, hws, hw1, hwi]
  simp

theorem exec_trap_other {w : Nat} (h : Issues s e cx c w) (hop : w / 2 ^ 26 % 64 ≠ 0x3C)
    (hrow : ∃ m v, (w / 2 ^ 26 % 64, m, v) ∈ rowWords ∧ w &&& m = v) : exec (.trap e cx false) s = .next s := by
  obtain ⟨m, v, hmem, hw⟩ := hrow
  rw [exec_trap_row h (hasRow_of_mem hmem hw), if_neg]
  rintro ⟨hop', -⟩
  exact hop (bits_eq_div_mod w 31 26 ▸ hop')

end

/-- Settles O51: each clause is the rule above of its instruction. -/
theorem hashAndSystemInstructions : Obligations.HashAndSystemInstructions := by
  refine ⟨?hash, ?rdsr, ?wrsr, fun _ _ _ _ => exec_yield, ?halt, fun _ _ _ _ _ _ => exec_trap,
    fun _ _ _ _ => exec_trap_outside, fun _ _ _ _ _ => exec_trap_other⟩
  case hash =>
    intro s e cx c rd a b f hrd ha hb hf h
    constructor
    · rintro rfl
      exact (exec_hash hrd ha hb hf h).trans (congrArg _ (if_neg (by decide)))
    · intro hf0
      rw [exec_hash hrd ha hb hf h, if_pos hf0]
  case rdsr =>
    intro s e cx c rd n hrd hn h
    refine ⟨?_, ?_, ?_, ?_, ?_, ?_, fun hn5 => exec_rdsr_none hrd hn h (c.special_none hn5)⟩ <;>
    · rintro rfl
      exact exec_rdsr_some hrd hn h rfl
  case wrsr =>
    intro s e cx c a n ha hn h v p
    rw [exec_wrsr ha hn h]
    refine ⟨?_, ?_, ?_, ?_, ?_⟩
    · intro hn2
      rw [if_pos hn2]
      rfl
    · rintro rfl hin
      rw [if_neg (by decide), if_pos ⟨rfl, hin⟩]
      rfl
    · rintro rfl hin
      rw [if_neg (by decide), if_neg (fun hn4 => absurd hn4.1 (by decide)), if_pos ⟨rfl, hin⟩]
      rfl
    · rintro hn hout
      rw [if_neg (by omega), if_neg (by simp [hout]), if_neg (by simp [hout])]
    · intro hn
      rw [if_neg (by omega), if_neg (by omega), if_neg (by omega)]
  case halt =>
    intro s e cx c a b ha hb h v k
    refine ⟨exec_halt_open ha hb h, fun hclosed h1 h2 h3 h4 h5 h6 => ?_, fun hclosed hv => ?_⟩
    · refine exec_halt ha hb h hclosed (haltStatus_given ?_) (if_pos rfl)
      simp only [haltRefused, not_or]
      exact ⟨Nat.not_lt.mpr h1, h2, h3, h4, h5, h6⟩
    · exact exec_halt ha hb h hclosed (haltStatus_refused hv) (if_neg (by decide))

end
end Sys2Proof.Machine

namespace Sys2Proof.Machine

/-! Traps (R437 to R440, R675, R702): what a trap waits for, where it goes, and the record of a ticket's end. -/

section
variable (s : State) (k : Nat) (c : Ctx) {t : Trap}

/-! ### Where a trap goes -/

/-- The state in which a trap is taken: an uncorrectable error of an SRAM has raised its event (R675, R702). -/
def State.atTrap (s : State) (k : Nat) (t : Trap) : State :=
  if t = .dataUe ∨ t = .fetchUe then s.raiseD Ev.SRAM_UE (k / 16) else s

theorem State.atTrap_other (hdata : t ≠ .dataUe) (hfetch : t ≠ .fetchUe) : s.atTrap k t = s :=
  if_neg (not_or.mpr ⟨hdata, hfetch⟩)

/-- The status with which a trap ends the ticket of a script without a handler (R440). -/
def Trap.endStatus (t : Trap) : Nat :=
  match t with
  | .trap v => if v = 0 ∨ 0x14 < v then St.ILLEGAL else v
  | _ => t.status

theorem Trap.endStatus_other (h : ∀ v, t ≠ .trap v) : t.endStatus = t.status := by
  cases t with
  | trap v => exact absurd rfl (h v)
  | _ => rfl

theorem State.takeTrap_waits (t : Trap) (hloads : c.loadsInFlight = true) : s.takeTrap k c t = s := if_pos hloads

/-- The handler of the script that a context runs; 0: none. -/
def State.trapHandler (s : State) (c : Ctx) : Nat :=
  match s.ctxScript c with
  | some x => x.handler
  | none => 0

theorem State.atTrap_trapHandler (t : Trap) {x : Script} (hx : s.ctxScript c = some x) :
    (s.atTrap k t).trapHandler c = x.handler := by
  have hscript : (s.atTrap k t).ctxScript c = some x := by
    unfold atTrap
    split
    · rw [ctxScript, script, raiseD_scr]
      exact hx
    · exact hx
  rw [trapHandler, hscript]

variable {c} (hloads : c.loadsInFlight = false)
include hloads

/-- The three ends of a trap that is taken (R438 to R440). -/
theorem State.takeTrap_taken (t : Trap) : s.takeTrap k c t =
    if c.handler then (((s.atTrap k t).faultRecord k t.code St.ENGINE_FAULT c.pc).raiseD Ev.DOUBLE_TRAP (k / 16)).endCtx k
      St.ENGINE_FAULT false false
    else if (s.atTrap k t).trapHandler c = 0 then
      ((s.atTrap k t).faultRecord k t.code t.endStatus c.pc).endCtx k t.endStatus false false
    else (s.atTrap k t).putCtx k { c with epc := c.pc, cause := t.code + 256 * t.status, handler := true,
                                          pc := 2 ^ 60 + (s.atTrap k t).trapHandler c } := by
  unfold takeTrap
  rw [hloads, if_neg Bool.false_ne_true]
  cases t <;> rfl

theorem State.takeTrap_double (hin : c.handler = true) : s.takeTrap k c t =
    (((s.atTrap k t).faultRecord k t.code St.ENGINE_FAULT c.pc).raiseD Ev.DOUBLE_TRAP (k / 16)).endCtx k St.ENGINE_FAULT
      false false := by
  rw [s.takeTrap_taken k hloads, if_pos hin]

variable {x : Script} (hx : s.ctxScript c = some x) (hout : c.handler = false)
include hx hout

theorem State.takeTrap_handler (hhandler : x.handler ≠ 0) : s.takeTrap k c t = (s.atTrap k t).putCtx k
    { c with epc := c.pc, cause := t.code + 256 * t.status, handler := true, pc := 2 ^ 60 + x.handler } := by
  rw [s.takeTrap_taken k hloads, if_neg (hout ▸ Bool.false_ne_true), s.atTrap_trapHandler k c t hx, if_neg hhandler]

theorem State.takeTrap_end (hnone : x.handler = 0) : s.takeTrap k c t =
    ((s.atTrap k t).faultRecord k t.code t.endStatus c.pc).endCtx k t.endStatus false false := by
  rw [s.takeTrap_taken k hloads, if_neg (hout ▸ Bool.false_ne_true), s.atTrap_trapHandler k c t hx, if_pos hnone]

end

/-! ### The record of an end (R440) -/

section
variable (s : State) (k cause status pc : Nat)

/-- The state with `SCR_FAULT` and `SCR_FAULT_PC` of the scribe written. -/
def State.faultShown (s : State) (k cause status pc : Nat) : State :=
  (s.setLive .SCR_FAULT (k / 16) (cause * 2 ^ 24 + status * 2 ^ 16 + k % 16 * 2 ^ 12 + 1)).setLive .SCR_FAULT_PC (k / 16)
    (pc % 2 ^ 32)

theorem State.faultShown_word : ((s.faultShown k cause status pc).liveWord .SCR_FAULT (k / 16)).toNat =
    (cause * 2 ^ 24 + status * 2 ^ 16 + k % 16 * 2 ^ 12 + 1) % 2 ^ 32 := by
  have happart : RegId.SCR_FAULT.off (k / 16) ≠ RegId.SCR_FAULT_PC.off (k / 16) := by
    simp [RegId.off, RegId.place]
  rw [liveWord_eq, faultShown, setLive_regs, Regs.word_put_ne _ _ happart, setLive_regs, Regs.word_put_self,
    BitVec.toNat_ofNat]

theorem State.faultRecord_again {t : Nat} (hat : mapGet? s.scr.faultAt (k / 16) = some t) (hsoon : s.clock < t + 1000) :
    s.faultRecord k cause status pc = s.faultShown k cause status pc := by
  simp only [faultRecord, setLive_scr, setLive_clock, hat, hsoon, decide_true, if_true]
  rfl

theorem State.faultRecord_event
    (hlate : mapGet? s.scr.faultAt (k / 16) = none ∨ ∃ t, mapGet? s.scr.faultAt (k / 16) = some t ∧ t + 1000 ≤ s.clock) :
    s.faultRecord k cause status pc = ({ s.faultShown k cause status pc with scr :=
      { (s.faultShown k cause status pc).scr with
        faultAt := mapSet (s.faultShown k cause status pc).scr.faultAt (k / 16) s.clock } } : State).raiseD
          Ev.TICKET_FAULT (k / 16) := by
  rcases hlate with hat | ⟨t, hat, hlate⟩
  · simp only [faultRecord, setLive_scr, setLive_clock, hat]
    rfl
  · simp only [faultRecord, setLive_scr, setLive_clock, hat, Nat.not_lt.mpr hlate, decide_false]
    rfl

end

/-- Settles O52: each clause is the rule above of the trap or of the record. -/
theorem trapsGoToTheHandlerOrEndTheTicket : Obligations.TrapsGoToTheHandlerOrEndTheTicket := by
  refine ⟨fun s k c t => s.takeTrap_waits k c t, ?ends, ?sram, rfl, fun s k cause status pc =>
    ⟨s.faultShown k cause status pc, rfl, rfl, rfl, s.faultShown_word k cause status pc,
      fun ⟨_, hat, hsoon⟩ => s.faultRecord_again k cause status pc hat hsoon, s.faultRecord_event k cause status pc⟩⟩
  case ends =>
    intro s k c t x hloads hx hdata hfetch
    have hat : s.atTrap k t = s := s.atTrap_other k hdata hfetch
    refine ⟨fun hout hhandler => ?_, fun hin => ?_, fun hout hnone hother => ?_, ?_⟩
    · rw [s.takeTrap_handler k hloads hx hout hhandler, hat]
    · rw [s.takeTrap_double k hloads hin, hat]
    · rw [s.takeTrap_end k hloads hx hout hnone, hat, Trap.endStatus_other hother]
    · rintro v hout hnone rfl
      rw [s.takeTrap_end k hloads hx hout hnone, hat]
      refine ⟨fun hv => ?_, fun hv => ?_⟩
      · rw [Trap.endStatus, if_neg (by omega)]
        rfl
      · rw [Trap.endStatus, if_pos hv]
        rfl
  case sram =>
    intro s k c t x hloads hx hue hout hhandler
    rw [s.takeTrap_handler k hloads hx hout hhandler, State.atTrap, if_pos hue]

end Sys2Proof.Machine

namespace Sys2Proof.Machine

/-! SEAL groups, PBAR and BLOCKING_RETIRE (R419, R447 to R456, R480 to R482, R493, R494). -/

section
open Sys2Proof.Claims

/-! ### Storing a context changes it and the registers that show it (R457) -/

section
variable (s : State) (k : Nat) (c : Ctx)

/-- Whatever no register write changes, the registers of a context leave. -/
theorem State.ctxRegs_proj {α : Type} (p : State → α) (hp : ∀ t r i v, p (State.setLive t r i v) = p t) :
    p (s.ctxRegs k) = p s := by
  unfold ctxRegs scribeRegs setFld
  split <;> simp only [hp]

@[simp] theorem State.putCtx_scr : (s.putCtx k c).scr = (s.setCtx k c).scr := ctxRegs_proj _ k State.scr fun _ _ _ _ => rfl

@[simp] theorem State.putCtx_path : (s.putCtx k c).path = s.path := ctxRegs_proj _ k State.path fun _ _ _ _ => rfl

@[simp] theorem State.putCtx_cache : (s.putCtx k c).cache = s.cache := ctxRegs_proj _ k State.cache fun _ _ _ _ => rfl

@[simp] theorem State.putCtx_que : (s.putCtx k c).que = s.que := ctxRegs_proj _ k State.que fun _ _ _ _ => rfl

@[simp] theorem State.putCtx_clock : (s.putCtx k c).clock = s.clock := ctxRegs_proj _ k State.clock fun _ _ _ _ => rfl

end

/-! ### SEAL.OPEN and SEAL.ADD -/

section
variable {s : State} {e cx : Nat} {c : Ctx}

theorem exec_sealOpen (h : Issues s e cx c (fS 0x28 0 0 0 0 0)) : exec (.sealOpen e cx) s = .next (
    if c.sealOpen then s.takeTrap (e * 16 + cx) c .sealState
    else s.putCtx (e * 16 + cx) { c.advance with sealOpen := true, sealLines := [], sealBuf := [] }) :=
  (exec_issued rfl h (by decide) (by decide)).trans (congrArg _ (if_neg (by decide)))

section
variable {r : Nat} (hr : r < 32) (h : Issues s e cx c (fS 0x28 0 r 0 0 1))
include hr h

theorem exec_sealAdd_trap {t : Trap} (ht : s.sealCheck c (c.xr r).toNat = some t) :
    exec (.sealAdd e cx) s = .next (s.takeTrap (e * 16 + cx) c t) := by
  obtain ⟨hop, -, hw1, -⟩ := fields_fS (op := 0x28) (rd := 0) (r2 := 0) (i5 := 0) (sub := 1) (by decide) (by decide) hr
    (by decide) (by decide) (by decide)
  refine (exec_issued rfl h hop (fS_and_mask (by decide))).trans ?_
  rw [fsZero_fS (by decide) (by decide) hr (by decide) (by decide) (by decide), hw1]
  simp [ht]

theorem exec_sealAdd (ht : s.sealCheck c (c.xr r).toNat = none) : exec (.sealAdd e cx) s = .next (
    if !c.sealOpen then s.takeTrap (e * 16 + cx) c .sealState
    else if c.sealLines.contains ((c.xr r).toNat % 2 ^ 60 / 64) then s.setCtx (e * 16 + cx) c.advance
    else if 64 ≤ c.sealLines.length then s.takeTrap (e * 16 + cx) c .sealState
    else s.putCtx (e * 16 + cx)
      { c.advance with sealLines := c.sealLines ++ [(c.xr r).toNat % 2 ^ 60 / 64] }) := by
  obtain ⟨hop, -, hw1, -⟩ := fields_fS (op := 0x28) (rd := 0) (r2 := 0) (i5 := 0) (sub := 1) (by decide) (by decide) hr
    (by decide) (by decide) (by decide)
  refine (exec_issued rfl h hop (fS_and_mask (by decide))).trans ?_
  rw [fsZero_fS (by decide) (by decide) hr (by decide) (by decide) (by decide), hw1]
  simp only [ht, Bool.not_false, Bool.not_true, Bool.true_or, Bool.false_or, beq_self_eq_true, Bool.and_self,
    Bool.false_eq_true, if_false]

end

/-! ### The check of a line (R452) -/

variable (s c)

theorem State.sealCheck_volatile {a : Nat} (hdpa : a / 2 ^ 60 = 2) (hok : s.addrCheck c (a / 64 * 64) 64 true true = none)
    (hvol : s.linePersistent (a % 2 ^ 60 / 64) = false) : s.sealCheck c a = some .sealState := by
  simp only [sealCheck, hdpa, if_true, hok, hvol, Bool.false_eq_true, if_false]

theorem State.sealCheck_local {a : Nat} (hdpa : a / 2 ^ 60 ≠ 2) (hspace : a / 2 ^ 60 < 4) :
    s.sealCheck c a = some .sealState := by
  rw [sealCheck, if_neg hdpa, if_pos hspace]

theorem State.sealCheck_nowhere {a : Nat} (hspace : 4 ≤ a / 2 ^ 60) : s.sealCheck c a = some .addrBounds := by
  rw [sealCheck, if_neg (by omega), if_neg (Nat.not_lt.mpr hspace)]

variable {s c}

/-! ### SEAL.COMMIT -/

/-- The context whose group has been sent to the tracker (R454, R456). -/
def Ctx.committing (c : Ctx) (acc : Nat) : Ctx :=
  { c.advance with sealOpen := false, sealLines := [], sealBuf := [], block := .commit (some acc),
                   ops := c.ops ++ [{ slot := 64, dest := .store, line := 0, mask := 0, data := 0 }],
                   stores := c.stores ++ [acc] }

section
variable (h : Issues s e cx c (fS 0x28 0 0 0 0 2))
include h

theorem exec_sealCommit_trap {l : Nat} {t : Trap} (hlines : c.sealLines = [l])
    (ht : s.sealCheck c (2 * 2 ^ 60 + l * 64) = some t) :
    exec (.sealCommit e cx) s = .next (s.takeTrap (e * 16 + cx) c t) := by
  refine (exec_issued rfl h (by decide) (by decide)).trans (congrArg _ ((if_neg (by decide)).trans ?_))
  simp only [hlines, List.findSome?_singleton, ht]

variable (hok : ∀ l ∈ c.sealLines, s.sealCheck c (2 * 2 ^ 60 + l * 64) = none)
include hok

theorem exec_sealCommit_closed (hclosed : c.sealOpen = false) :
    exec (.sealCommit e cx) s = .next (s.takeTrap (e * 16 + cx) c .sealState) := by
  refine (exec_issued rfl h (by decide) (by decide)).trans (congrArg _ ((if_neg (by decide)).trans ?_))
  simp only [List.findSome?_eq_none_iff.mpr hok, hclosed, Bool.not_false, if_true]

theorem exec_sealCommit_empty (hopen : c.sealOpen = true) (hbuf : c.sealBuf = []) : exec (.sealCommit e cx) s =
    .next (s.putCtx (e * 16 + cx) { c.advance with sealOpen := false, sealLines := [], sealBuf := [] }) := by
  refine (exec_issued rfl h (by decide) (by decide)).trans (congrArg _ ((if_neg (by decide)).trans ?_))
  simp only [List.findSome?_eq_none_iff.mpr hok, hopen, Bool.not_true, Bool.false_eq_true, if_false, hbuf, List.map_nil,
    List.isEmpty_nil, if_true]

theorem exec_sealCommit (hopen : c.sealOpen = true) (hbuf : c.sealBuf ≠ []) : exec (.sealCommit e cx) s =
    .next (((s.putCtx (e * 16 + cx) (c.committing s.path.nextAcc)).accept (.script e cx 64) true
      ((c.sealBuf.headD (0, (0, 0))).1 * 64) (c.sealBuf.map (fun p => ⟨p.1, p.2.1, p.2.2⟩)) 4 s.clock false true
      none).settle) := by
  refine (exec_issued rfl h (by decide) (by decide)).trans (congrArg _ ((if_neg (by decide)).trans ?_))
  obtain ⟨p, rest, hcons⟩ := List.exists_cons_of_ne_nil hbuf
  simp only [List.findSome?_eq_none_iff.mpr hok, hopen, Bool.not_true, Bool.false_eq_true, if_false, hcons, List.map_cons,
    List.isEmpty_cons, List.headD_cons, State.putCtx_clock]
  rfl

end

/-! ### PBAR -/

theorem exec_pbar {m : Instr} {sub : Nat} {twin : Bool} (hm : exec m s = .next (s.pbar e cx sub twin)) (hsub : sub < 64)
    (h : Issues s e cx c (fS 0x29 0 0 0 0 sub)) :
    Becomes m s e cx { c with pc := (c.pc + 4) % 2 ^ 64, block := .pbar twin s.path.nextAcc } := by
  obtain ⟨hop, -⟩ := fields_fS (op := 0x29) (rd := 0) (r1 := 0) (r2 := 0) (i5 := 0) (by decide) (by decide) (by decide)
    (by decide) (by decide) hsub
  refine (exec_issued hm h hop (fS_and_mask hsub)).trans ?_
  rw [fsZero_fS (by decide) (by decide) (by decide) (by decide) (by decide) hsub]
  rfl

/-! ### BLOCKING_RETIRE -/

theorem exec_blockingRetire_idle (hnone : s.ctx (e * 16 + cx) = none) : exec (.blockingRetire e cx) s = .next s := by
  change execBlockingRetire e cx s = _
  simp only [execBlockingRetire, hnone]

section
variable (hctx : s.ctx (e * 16 + cx) = some c)
include hctx

theorem exec_blockingRetire_none (hb : c.block = .none) : exec (.blockingRetire e cx) s = .next s := by
  change execBlockingRetire e cx s = _
  simp only [execBlockingRetire, hctx, hb]

theorem exec_blockingRetire_yield (hb : c.block = .yield) :
    Becomes (.blockingRetire e cx) s e cx { c with block := .none } := by
  change execBlockingRetire e cx s = _
  simp only [execBlockingRetire, hctx, hb]
  rfl

theorem exec_blockingRetire_atomic (hb : c.block = .atomic) : exec (.blockingRetire e cx) s =
    .next (if c.loadsInFlight then s else s.setCtx (e * 16 + cx) { c with block := .none }) := by
  change execBlockingRetire e cx s = _
  simp only [execBlockingRetire, hctx, hb]

theorem exec_blockingRetire_pbar {twin : Bool} {acc : Nat} (hb : c.block = .pbar twin acc) : exec (.blockingRetire e cx) s =
    .next (if s.pbarHolds c twin acc then s.setCtx (e * 16 + cx) { c with block := .none } else s) := by
  change execBlockingRetire e cx s = _
  simp only [execBlockingRetire, hctx, hb]

/-- The state in which the result of a SEAL.COMMIT has been taken off the list. -/
def State.commitTaken (s : State) (e cx : Nat) : State :=
  let rest := s.path.results.filter (fun r => !(r.scribe == e && r.ctx == cx && r.slot == 64))
  { s with path := { s.path with results := rest } }

theorem exec_blockingRetire_commit {acc : Nat} (hb : c.block = .commit (some acc)) : exec (.blockingRetire e cx) s = .next (
    if !s.fenced && !(s.path.held.any (fun r => some acc == some r.acc)) &&
        !(s.path.applied.any (fun a => some acc == some a.acc)) then
      (s.commitTaken e cx).putCtx (e * 16 + cx) { c with block := .none, ops := c.ops.filter (fun o => o.slot != 64) }
    else s) := by
  change execBlockingRetire e cx s = _
  simp only [execBlockingRetire, hctx, hb]
  rfl

theorem exec_blockingRetire_waitc_none {rd i : Nat} (hb : c.block = .waitc rd i)
    (hr : s.waitcResult (e * 16 + cx) i = none) : exec (.blockingRetire e cx) s = .next s := by
  change execBlockingRetire e cx s = _
  simp only [execBlockingRetire, hctx, hb, hr]

theorem exec_blockingRetire_waitc_some {rd i v : Nat} (hb : c.block = .waitc rd i)
    (hr : s.waitcResult (e * 16 + cx) i = some v) : Becomes (.blockingRetire e cx) s e cx
      { c with block := .none, x := if rd = 0 then c.x else mapSet c.x rd (BitVec.ofNat 64 v) } := by
  change execBlockingRetire e cx s = _
  simp only [execBlockingRetire, hctx, hb, hr, Ctx.setX_eq]
  rfl

theorem exec_blockingRetire_notify {rd v : Nat} (hb : c.block = .notify rd v) : exec (.blockingRetire e cx) s =
    .next (if s.storesApplied c then s.retireNotify (e * 16 + cx) c rd v else s) := by
  change execBlockingRetire e cx s = _
  simp only [execBlockingRetire, hctx, hb]

end

/-! ### When a PBAR or a NOTIFY goes on -/

variable (s c)

theorem State.pbarHolds_fenced (twin : Bool) (acc : Nat) (hf : s.fenced = true) : s.pbarHolds c twin acc = false := by
  simp only [pbarHolds, hf, Bool.not_true, Bool.false_and]

theorem State.pbarHolds_waits (twin : Bool) {acc : Nat} {r : Req} (hr : r ∈ s.path.held) (hmine : r.acc ∈ c.stores)
    (hold : r.acc < acc) : s.pbarHolds c twin acc = false := by
  have hany : s.path.held.any (fun r => (c.stores.filter (fun a => decide (a < acc))).contains r.acc) = true :=
    List.any_eq_true.mpr ⟨r, hr, by simp [hmine, hold]⟩
  simp only [pbarHolds, hany, Bool.not_true, Bool.and_false, Bool.false_and]

theorem State.pbarHolds_local {acc : Nat} (hf : s.fenced = false)
    (hheld : ∀ r ∈ s.path.held, ¬ (r.acc ∈ c.stores ∧ r.acc < acc)) : s.pbarHolds c false acc = true := by
  have hany : s.path.held.any (fun r => (c.stores.filter (fun a => decide (a < acc))).contains r.acc) = false :=
    List.any_eq_false.mpr fun r hr => by simpa using hheld r hr
  simp only [pbarHolds, hf, hany, Bool.not_false, Bool.true_or, Bool.and_self]

variable (k rd v : Nat) {q : Queue} (hq : s.queue c.ld c.queue = some q)
include hq

theorem State.retireNotify_posts (hfree : q.noteCount < q.depth) : s.retireNotify k c rd v =
    (s.setCtx k { c.setX rd 0 with block := .none }).postNote c.ld c.queue c.slot c.gen v St.DONE 0 := by
  simp only [retireNotify, hq, Queue.noteFree, hfree, decide_true, if_true]

theorem State.retireNotify_full (hfull : q.depth ≤ q.noteCount) : s.retireNotify k c rd v =
    (s.setCtx k { c.setX rd (BitVec.ofNat 64 St.QUEUE_FULL) with block := .none }).raise Ev.NOTE_RING_FULL := by
  simp only [retireNotify, hq, Queue.noteFree, Nat.not_lt.mpr hfull, decide_false, Bool.false_eq_true, if_false]

end

theorem Ctx.xr_setX (c : Ctx) (n : Nat) (v : W64) : (c.setX n v).xr n = if n = 0 then 0 else v := by
  unfold Ctx.xr Ctx.setX
  split
  · rfl
  · exact mapGet_set_self ..

/-- Settles O55: each clause is the rule above of its instruction, of a line's check, or of what holds the context. -/
theorem sealGroupsBarriersAndBlockedContexts : Obligations.SealGroupsBarriersAndBlockedContexts := by
  refine ⟨?opens, ?adds, fun s c a => ⟨s.sealCheck_volatile c, s.sealCheck_local c, s.sealCheck_nowhere c⟩, ?commits,
    fun s e cx c => ⟨exec_pbar rfl (by decide), exec_pbar rfl (by decide)⟩,
    fun s e cx => ⟨exec_blockingRetire_idle, fun c hctx => ?retires⟩⟩
  case opens =>
    intro s e cx c h
    rw [exec_sealOpen h]
    exact ⟨fun hopen => congrArg _ (if_pos hopen), fun hclosed => congrArg _ (if_neg (hclosed ▸ Bool.false_ne_true))⟩
  case adds =>
    intro s e cx c r hr h a line k
    refine ⟨fun t => exec_sealAdd_trap hr h, fun hok hclosed => ?_, fun hok hopen hin => ?_, fun hok hopen hout hroom => ?_,
      fun hok hopen hout hfull => ?_⟩
    all_goals refine (exec_sealAdd hr h hok).trans (congrArg _ ?_)
    · rw [if_pos (by simp [hclosed])]
    · rw [if_neg (by simp [hopen]), if_pos (List.contains_iff_mem.mpr hin)]
      rfl
    · rw [if_neg (by simp [hopen]), if_neg (mt List.contains_iff_mem.mp hout), if_neg (Nat.not_le.mpr hroom)]
      rfl
    · rw [if_neg (by simp [hopen]), if_neg (mt List.contains_iff_mem.mp hout), if_pos hfull]
  case commits =>
    intro s e cx c h k
    refine ⟨fun l t => exec_sealCommit_trap h, fun hok => ⟨exec_sealCommit_closed h hok, exec_sealCommit_empty h hok,
      fun hopen hbuf => ?_⟩⟩
    exact ⟨_, exec_sealCommit h hok hopen hbuf, _, _, rfl, rfl, rfl, rfl, rfl, rfl, rfl⟩
  case retires =>
    refine ⟨exec_blockingRetire_none hctx, exec_blockingRetire_yield hctx, fun hb hloads => ?_, fun hb hloads => ?_,
      fun twin acc hb hf => ?_, fun twin acc r hb hr hmine hold => ?_, fun acc hb hf hheld => ?_, fun acc r hb hr hacc => ?_,
      fun acc hb hf hheld happlied => ?_,
      fun rd i hb => ⟨exec_blockingRetire_waitc_none hctx hb, fun v => exec_blockingRetire_waitc_some hctx hb⟩,
      fun rd v hb hno => ?_, fun rd v q hb hyes hq hfree => ?_, fun rd v q hb hyes hq hfull => ?_⟩
    · rw [exec_blockingRetire_atomic hctx hb, if_pos hloads]
    · exact (exec_blockingRetire_atomic hctx hb).trans (congrArg _ (if_neg (hloads ▸ Bool.false_ne_true)))
    · rw [exec_blockingRetire_pbar hctx hb, s.pbarHolds_fenced c twin acc hf]
      rfl
    · rw [exec_blockingRetire_pbar hctx hb, s.pbarHolds_waits c twin hr hmine hold]
      rfl
    · exact (exec_blockingRetire_pbar hctx hb).trans (congrArg _ (if_pos (s.pbarHolds_local c hf hheld)))
    · have hany : s.path.held.any (fun r => some acc == some r.acc) = true :=
        List.any_eq_true.mpr ⟨r, hr, by simp [hacc]⟩
      rw [exec_blockingRetire_commit hctx hb, hany, Bool.not_true, Bool.and_false, Bool.false_and]
      rfl
    · have hany : s.path.held.any (fun r => some acc == some r.acc) = false :=
        List.any_eq_false.mpr fun r hr => by simpa using Ne.symm (hheld r hr)
      have hany' : s.path.applied.any (fun r => some acc == some r.acc) = false :=
        List.any_eq_false.mpr fun r hr => by simpa using Ne.symm (happlied r hr)
      refine ⟨_, exec_blockingRetire_commit hctx hb, s.commitTaken e cx, rfl, ?_⟩
      rw [hf, hany, hany']
      rfl
    · rw [exec_blockingRetire_notify hctx hb, if_neg (hno ▸ Bool.false_ne_true)]
    · refine ⟨_, exec_blockingRetire_notify hctx hb, s.setCtx (e * 16 + cx) { c.setX rd 0 with block := .none }, ?_, rfl, rfl⟩
      rw [if_pos hyes, s.retireNotify_posts c _ rd v hq hfree]
    · refine ⟨_, exec_blockingRetire_notify hctx hb, s.setCtx (e * 16 + cx)
        { c.setX rd (BitVec.ofNat 64 St.QUEUE_FULL) with block := .none }, ?_, rfl, ?_⟩
      · rw [if_pos hyes, s.retireNotify_full c _ rd v hq hfull]
      · rw [State.ctx_setCtx, Option.map_some]
        exact congrArg some (c.xr_setX rd _)

end
end Sys2Proof.Machine

namespace Sys2Proof.Machine

/-! Scalar loads, stores and atomics (R420, R426, R437, R446, R461, R471 to R473). -/

section
open Sys2Proof.Claims

/-! ### Addresses -/

/-- The address of an F-M word (R471). -/
def memAddress (x d : Nat) : Nat := (x + (if d < 2048 then d else 2 ^ 64 - (4096 - d))) % 2 ^ 64

theorem Ctx.address_fM (c : Ctx) {op rt rb z sg d : Nat} (hop : op < 64) (ht : rt < 32) (hb : rb < 32) (hz : z < 4)
    (hsg : sg < 2) (hd : d < 4096) : c.address (fM op rt rb z sg d) = memAddress (c.xr rb).toNat d := by
  obtain ⟨-, -, hw1, -, -, -, hdisp⟩ := fields_fM hop ht hb hz hsg hd
  have hlt : (c.xr rb).toNat < 2 ^ 64 := (c.xr rb).isLt
  rw [Ctx.address, hw1, hdisp, memAddress, sx, Nat.mod_eq_of_lt (show d < 2 ^ 12 from hd)]
  by_cases hpos : d < 2048
  · rw [if_pos hpos, if_pos (show d < 2 ^ (12 - 1) from hpos)]
  · rw [if_neg hpos, if_neg (show ¬ d < 2 ^ (12 - 1) from hpos)]
    omega

/-- The space of a 64-bit address is its top four bits. -/
theorem space_mod {a : Nat} (ha : a < 2 ^ 64) : a / 2 ^ 60 % 16 = a / 2 ^ 60 := Nat.mod_eq_of_lt (by omega)

section
variable (s : State) (c : Ctx) {a n al : Nat} {rd wr ue : Bool}

/-! ### The trap of an access (R437, R461) -/

theorem State.accessTrap_misaligned (hal : a % al ≠ 0) : s.accessTrap c a n al rd wr ue = some .misaligned := if_pos hal

theorem State.accessTrap_addr (hal : a % al = 0) {t : Trap} (ht : s.addrCheck c a n rd wr = some t) :
    s.accessTrap c a n al rd wr ue = some t := by
  rw [accessTrap, if_neg (not_not_intro hal), ht]

theorem State.accessTrap_none (hal : a % al = 0) (ht : s.addrCheck c a n rd wr = none)
    (hue : ue = false ∨ a / 2 ^ 60 % 16 = 2) : s.accessTrap c a n al rd wr ue = none := by
  rw [accessTrap, if_neg (not_not_intro hal), ht]
  rcases hue with rfl | hdpa
  · rfl
  · rw [hdpa, bne_self_eq_false, Bool.and_false]
    rfl

theorem State.accessTrap_dataUe (hal : a % al = 0) (ht : s.addrCheck c a n rd wr = none) (hdpa : a / 2 ^ 60 % 16 ≠ 2) :
    s.accessTrap c a n al rd wr true = some .dataUe := by
  rw [accessTrap, if_neg (not_not_intro hal), ht, bne_iff_ne.mpr hdpa]
  rfl

end

section
variable {s : State} {e cx : Nat} {c : Ctx} {m : Instr}

/-! ### LD and ST (R471) -/

/-- LD of `n` bytes at `a` into register `rt`. -/
def State.load (s : State) (e k : Nat) (c : Ctx) (rt n : Nat) (sg : Bool) (a : Nat) (ue : Bool) : State :=
  match s.accessTrap c a n n true false ue with
  | some t => s.takeTrap k c t
  | none =>
    if a / 2 ^ 60 = 2 then
      match s.freeSlot e with
      | some slot => (s.dpaLoad k slot c.advance (.reg rt n sg (a % 64)) (a % 2 ^ 60 / 64)).settle
      | none => s
    else s.setCtx k (wrote c rt (extend (leNat (s.localRead k c a n)) n sg))

/-- ST of the low `n` bytes of register `rt` at `a`. -/
def State.store (s : State) (k : Nat) (c : Ctx) (rt n a : Nat) : State :=
  match s.accessTrap c a n n false true false with
  | some t => s.takeTrap k c t
  | none => (s.storeBytes k c a n (2 ^ n - 1) ((c.xr rt).toNat % 2 ^ (8 * n))).getD s

section
variable {rt rb z sg d : Nat} (ht : rt < 32) (hb : rb < 32) (hz : z < 4) (hsg : sg < 2) (hd : d < 4096)
include ht hb hz hsg hd

section
variable (ue : Bool) (h : Issues s e cx c (fM 0x18 rt rb z sg d))
include h

theorem exec_ld_illegal (hz3 : z = 3) (hsg1 : sg = 1) :
    exec (.ld e cx ue) s = .next (s.takeTrap (e * 16 + cx) c .illegalInsn) := by
  obtain ⟨hop, -, -, hwz, hwsg, -⟩ := fields_fM (op := 0x18) (by decide) ht hb hz hsg hd
  exact (exec_issued rfl h hop (Nat.and_zero _)).trans
    (congrArg _ (if_pos (.inr ⟨congrArg (2 ^ ·) (hwz.trans hz3), hwsg.trans hsg1⟩)))

theorem exec_ld (hlegal : z ≠ 3 ∨ sg = 0) : exec (.ld e cx ue) s = .next
    (s.load e (e * 16 + cx) c rt (2 ^ z) (decide (sg = 1)) (memAddress (c.xr rb).toNat d) ue) := by
  obtain ⟨hop, hwd, -, hwz, hwsg, hw12, -⟩ := fields_fM (op := 0x18) (by decide) ht hb hz hsg hd
  have hbit : bitB (fM 0x18 rt rb z sg d) 13 = decide (sg = 1) := congrArg (fun v => decide (v = 1)) hwsg
  have hnot : ¬ (bit (fM 0x18 rt rb z sg d) 12 = 1 ∨
      (2 ^ bits (fM 0x18 rt rb z sg d) 15 14 = 8 ∧ bit (fM 0x18 rt rb z sg d) 13 = 1)) := by
    rw [hw12, hwz, hwsg]
    rintro (h1 | ⟨h8, h1⟩)
    · cases h1
    · have hz3 : z = 3 := (Nat.pow_right_inj (by decide)).mp (h8 : 2 ^ z = 2 ^ 3)
      omega
  refine (exec_issued rfl h hop (Nat.and_zero _)).trans (congrArg _ ((if_neg hnot).trans ?_))
  simp only [c.address_fM (op := 0x18) (by decide) ht hb hz hsg hd, hwd, hwz, hbit, Ctx.advance_setX]
  rfl

end

section
variable (h : Issues s e cx c (fM 0x19 rt rb z sg d))
include h

theorem exec_st_illegal (hsg1 : sg = 1) : exec (.st e cx) s = .next (s.takeTrap (e * 16 + cx) c .illegalInsn) := by
  obtain ⟨hop, -, -, -, hwsg, -⟩ := fields_fM (op := 0x19) (by decide) ht hb hz hsg hd
  exact (exec_issued rfl h hop (Nat.and_zero _)).trans (congrArg _ (if_pos (.inr (hwsg.trans hsg1))))

theorem exec_st (hsg0 : sg = 0) : exec (.st e cx) s = .next
    (s.store (e * 16 + cx) c rt (2 ^ z) (memAddress (c.xr rb).toNat d)) := by
  obtain ⟨hop, hwd, -, hwz, hwsg, hw12, -⟩ := fields_fM (op := 0x19) (by decide) ht hb hz hsg hd
  have hnot : ¬ (bit (fM 0x19 rt rb z sg d) 12 = 1 ∨ bit (fM 0x19 rt rb z sg d) 13 = 1) := by
    rw [hw12, hwsg, hsg0]
    decide
  refine (exec_issued rfl h hop (Nat.and_zero _)).trans (congrArg _ ((if_neg hnot).trans ?_))
  simp only [c.address_fM (op := 0x19) (by decide) ht hb hz hsg hd, hwd, hwz]
  rfl

end
end

section
variable (s c) (k rt n : Nat) {a : Nat} {t : Trap}

theorem State.load_trap (sg ue : Bool) (htrap : s.accessTrap c a n n true false ue = some t) :
    s.load e k c rt n sg a ue = s.takeTrap k c t := by
  rw [load, htrap]

theorem State.store_trap (htrap : s.accessTrap c a n n false true false = some t) :
    s.store k c rt n a = s.takeTrap k c t := by
  rw [store, htrap]

theorem State.store_passed (hal : a % n = 0) (hok : s.addrCheck c a n false true = none) : s.store k c rt n a =
    (s.storeBytes k c a n (2 ^ n - 1) ((c.xr rt).toNat % 2 ^ (8 * n))).getD s := by
  rw [store, s.accessTrap_none c hal hok (.inl rfl)]

variable (hal : a % n = 0) (hok : s.addrCheck c a n true false = none) (sg ue : Bool)
include hal hok

theorem State.load_local (hdpa : a / 2 ^ 60 ≠ 2) (hue : ue = false) : s.load e k c rt n sg a ue =
    s.setCtx k (wrote c rt (extend (leNat (s.localRead k c a n)) n sg)) := by
  rw [load, s.accessTrap_none c hal hok (.inl hue)]
  exact if_neg hdpa

theorem State.load_wait (hdpa : a / 2 ^ 60 = 2) (hfree : s.freeSlot e = none) : s.load e k c rt n sg a ue = s := by
  rw [load, s.accessTrap_none c hal hok (.inr (by rw [hdpa]))]
  simp only [hdpa, if_true, hfree]

theorem State.load_dpa (hdpa : a / 2 ^ 60 = 2) {f : Nat} (hfree : s.freeSlot e = some f) : s.load e k c rt n sg a ue =
    (s.dpaLoad k f c.advance (.reg rt n sg (a % 64)) (a % 2 ^ 60 / 64)).settle := by
  rw [load, s.accessTrap_none c hal hok (.inr (by rw [hdpa]))]
  simp only [hdpa, if_true, hfree]

end

/-- A register takes the bytes that a load reads, extended as its word says. -/
theorem extend_eq (v n sg : Nat) : extend v n (decide (sg = 1)) =
    if sg = 1 ∧ 2 ^ (8 * n - 1) ≤ v % 2 ^ (8 * n) then BitVec.ofNat 64 (v % 2 ^ (8 * n) + 2 ^ 64 - 2 ^ (8 * n))
    else BitVec.ofNat 64 (v % 2 ^ (8 * n)) := by
  by_cases hsg : sg = 1
  · simp only [extend, hsg, decide_true, if_true, sx, true_and, ← Nat.not_lt, ite_not]
    split <;> rfl
  · simp only [extend, hsg, decide_false, Bool.false_eq_true, if_false, false_and]

/-- The state with bytes written in the inkwell share of a context. -/
def State.inkWrite (s : State) (k : Nat) (c : Ctx) (a : Nat) (bs : List Byte) : State :=
  { s with scr := { s.scr with inkwell := memWriteN 0 s.scr.inkwell (k / 16 * 524288 + c.inkBase + a % 2 ^ 60) bs } }

theorem State.localWrite_inkwell (s : State) (k : Nat) (c : Ctx) {a : Nat} (hspace : a / 2 ^ 60 = 0) (bs : List Byte) :
    s.localWrite k c a bs = (s.inkWrite k c a bs, c) := by
  rw [localWrite, hspace]
  rfl

theorem State.storeBytes_inkwell (s : State) (k : Nat) (c : Ctx) {a : Nat} (hspace : a / 2 ^ 60 = 0) (n mask v : Nat) :
    s.storeBytes k c a n mask v =
      some ((s.inkWrite k c a (mergeBytes mask (s.localRead k c a n) (leBytes n v))).putCtx k c.advance) := by
  have hdpa : a / 2 ^ 60 % 16 ≠ 2 := by rw [hspace]; decide
  simp only [storeBytes, if_neg hdpa, s.localWrite_inkwell k c.advance hspace]
  rfl

/-! ### CAS and FADD (R446, R472, R473) -/

/-- What an atomic leaves in memory: CAS (op 1) the new value where the old is the expected one, FADD (op 2) the sum. -/
def atomicValue (op n old x y : Nat) : Nat := if op = 1 then (if old = x then y else old) else (old + y) % 2 ^ (8 * n)

section
variable {major op rd r1 r2 f : Nat} {ue : Bool} (hm : exec m s = .next (s.atomicOp e cx major op ue)) (hmaj : major < 64)
  (hd : rd < 32) (h1 : r1 < 32) (h2 : r2 < 32) (hf : f < 2048) (h : Issues s e cx c (fA major rd r1 r2 f))
include hm hmaj hd h1 h2 hf h

theorem exec_atomic_illegal (hf2 : f ≠ 2) (hf3 : f ≠ 3) :
    exec m s = .next (s.takeTrap (e * 16 + cx) c .illegalInsn) := by
  obtain ⟨hop, -, -, -, hwf⟩ := fields_fA hmaj hd h1 h2 hf
  exact (exec_issued hm h hop (Nat.and_zero _)).trans (congrArg _ (if_pos (by rw [hwf]; exact ⟨hf2, hf3⟩)))

variable (hlegal : f = 2 ∨ f = 3) {n a : Nat} (hn : (if f = 3 then 8 else 4) = n) (ha : (c.xr r1).toNat = a)
include hlegal hn ha

theorem exec_atomic_trap {t : Trap} (htrap : s.accessTrap c a n n true true false = some t) :
    exec m s = .next (s.takeTrap (e * 16 + cx) c t) := by
  obtain ⟨hop, -, hw1, -, hwf⟩ := fields_fA hmaj hd h1 h2 hf
  refine (exec_issued hm h hop (Nat.and_zero _)).trans (congrArg _ ((if_neg (by rw [hwf]; omega)).trans ?_))
  simp only [hwf, hn, hw1, ha, htrap]

variable (htrap : s.accessTrap c a n n true true false = none)
include htrap

theorem exec_atomic_group (hin : c.inGroup a n = true) :
    exec m s = .next (s.takeTrap (e * 16 + cx) c .sealState) := by
  obtain ⟨hop, -, hw1, -, hwf⟩ := fields_fA hmaj hd h1 h2 hf
  refine (exec_issued hm h hop (Nat.and_zero _)).trans (congrArg _ ((if_neg (by rw [hwf]; omega)).trans ?_))
  rw [hwf, hn, hw1, ha]
  simp only [htrap, hin, if_true]

variable (hin : c.inGroup a n = false)
include hin

theorem exec_atomic_wait (hdpa : a / 2 ^ 60 = 2) (hwait : s.storesApplied c = false ∨ s.freeSlot e = none) :
    exec m s = .next s := by
  obtain ⟨hop, -, hw1, -, hwf⟩ := fields_fA hmaj hd h1 h2 hf
  refine (exec_issued hm h hop (Nat.and_zero _)).trans (congrArg _ ((if_neg (by rw [hwf]; omega)).trans ?_))
  rw [hwf, hn, hw1, ha]
  rcases hwait with happlied | hfree
  · simp only [htrap, hin, hdpa, happlied, Bool.false_eq_true, if_false, if_true]
  · simp only [htrap, hin, hdpa, hfree, Bool.false_eq_true, if_false, if_true, ite_self]

theorem exec_atomic_dpa (hdpa : a / 2 ^ 60 = 2) (happlied : s.storesApplied c = true) {g : Nat}
    (hfree : s.freeSlot e = some g) : exec m s = .next
      (s.dpaStore (e * 16 + cx) g { c.advance with block := .atomic } (a % 2 ^ 60 / 64) 0 0
        (some ⟨op, n, a % 64, if op = 1 then (c.xr rd).toNat % 2 ^ (8 * n) else (c.xr r2).toNat % 2 ^ (8 * n),
          (c.xr r2).toNat % 2 ^ (8 * n)⟩) (.atomic rd n) (a % 2 ^ 60)).settle := by
  obtain ⟨hop, hwd, hw1, hw2, hwf⟩ := fields_fA hmaj hd h1 h2 hf
  refine (exec_issued hm h hop (Nat.and_zero _)).trans (congrArg _ ((if_neg (by rw [hwf]; omega)).trans ?_))
  rw [hwf, hn, hwd, hw1, hw2, ha]
  simp only [htrap, hin, hdpa, happlied, hfree, Bool.false_eq_true, if_false, if_true]

theorem exec_atomic_inkwell (hspace : a / 2 ^ 60 = 0) (hue : ue = false) : exec m s = .next
    ((s.inkWrite (e * 16 + cx) c a (leBytes n (atomicValue op n (leNat (s.localRead (e * 16 + cx) c a n))
      ((c.xr rd).toNat % 2 ^ (8 * n)) ((c.xr r2).toNat % 2 ^ (8 * n))))).setCtx (e * 16 + cx)
        (wrote c rd (BitVec.ofNat 64 (leNat (s.localRead (e * 16 + cx) c a n))))) := by
  obtain ⟨hop, hwd, hw1, hw2, hwf⟩ := fields_fA hmaj hd h1 h2 hf
  have hdpa : a / 2 ^ 60 ≠ 2 := by rw [hspace]; decide
  refine (exec_issued hm h hop (Nat.and_zero _)).trans (congrArg _ ((if_neg (by rw [hwf]; omega)).trans ?_))
  rw [hwf, hn, hwd, hw1, hw2, ha]
  simp only [htrap, hin, hdpa, hue, Bool.false_eq_true, if_false, Ctx.advance_setX,
    s.localWrite_inkwell _ c hspace, atomicValue]

end
end

/-- Settles O53: each clause is the rule above of its instruction, or of what the checks of its address give. -/
theorem loadsStoresAndAtomicsReachTheirSpaces : Obligations.LoadsStoresAndAtomicsReachTheirSpaces := by
  refine ⟨?scalars, ?atomics⟩
  case scalars =>
    intro s e cx c rt rb z sg d ue ht hb hz hsg hd k n a
    have hspace : a / 2 ^ 60 % 16 = a / 2 ^ 60 := space_mod (Nat.mod_lt _ (by decide))
    refine ⟨fun h => ⟨exec_ld_illegal ht hb hz hsg hd ue h, fun hlegal => ?_⟩, fun h =>
      ⟨exec_st_illegal ht hb hz hsg hd h, fun hsg0 hal => ?_, fun t hsg0 hal hchk => ?_, fun hsg0 hal hok => ?_,
        fun hsg0 hal hok hink => ?_⟩⟩
    · have hld : exec (.ld e cx ue) s = .next (s.load e k c rt n (decide (sg = 1)) a ue) :=
        exec_ld ht hb hz hsg hd ue h hlegal
      refine ⟨fun hal => ?_, fun t hal hchk => ?_, fun hal hok hdpa hue => ?_, fun hal hok hdpa hue => ?_,
        fun hal hok hdpa => ⟨fun hfree => ?_, fun f hfree => ?_⟩⟩
      · rw [hld, s.load_trap c k rt n _ ue (s.accessTrap_misaligned c hal)]
      · rw [hld, s.load_trap c k rt n _ ue (s.accessTrap_addr c hal hchk)]
      · rw [hld, s.load_trap c k rt n _ ue (by rw [hue, s.accessTrap_dataUe c hal hok (by rwa [hspace])])]
      · refine hld.trans ?_
        rw [s.load_local c k rt n hal hok _ ue hdpa hue, extend_eq]
        rfl
      · rw [hld, s.load_wait c k rt n hal hok _ ue hdpa hfree]
      · rw [hld, s.load_dpa c k rt n hal hok _ ue hdpa hfree]
    all_goals have hst : exec (.st e cx) s = .next (s.store k c rt n a) := exec_st ht hb hz hsg hd h hsg0
    · rw [hst, s.store_trap c k rt n (s.accessTrap_misaligned c hal)]
    · rw [hst, s.store_trap c k rt n (s.accessTrap_addr c hal hchk)]
    · rw [hst, s.store_passed c k rt n hal hok]
    · refine ⟨_, hst, ?_⟩
      rw [s.store_passed c k rt n hal hok, s.storeBytes_inkwell k c hink, Option.getD_some]
      refine ⟨?_, State.putCtx_path .., State.putCtx_cache .., State.putCtx_que ..⟩
      rw [State.putCtx_scr]
      rfl
  case atomics =>
    intro s e cx c rd r1 r2 f ue hrd h1 h2 hf k n a x y
    refine List.forall_mem_cons.mpr ⟨fun h : Issues s e cx c (fA 0x1C rd r1 r2 f) => ?_,
      List.forall_mem_singleton.mpr fun h : Issues s e cx c (fA 0x1D rd r1 r2 f) => ?_⟩
    all_goals
      refine ⟨exec_atomic_illegal rfl (by decide) hrd h1 h2 hf h, fun hlegal => ⟨fun hal =>
        exec_atomic_trap rfl (by decide) hrd h1 h2 hf h hlegal rfl rfl (s.accessTrap_misaligned c hal), fun t hal hchk =>
        exec_atomic_trap rfl (by decide) hrd h1 h2 hf h hlegal rfl rfl (s.accessTrap_addr c hal hchk), fun hal hok => ?_⟩⟩
      have hnone : s.accessTrap c a n n true true false = none := s.accessTrap_none c hal hok (.inl rfl)
      exact ⟨exec_atomic_group rfl (by decide) hrd h1 h2 hf h hlegal rfl rfl hnone,
        exec_atomic_wait rfl (by decide) hrd h1 h2 hf h hlegal rfl rfl hnone,
        fun g hin hdpa happlied => exec_atomic_dpa rfl (by decide) hrd h1 h2 hf h hlegal rfl rfl hnone hin hdpa happlied,
        fun hin hspace hue => ⟨_, exec_atomic_inkwell rfl (by decide) hrd h1 h2 hf h hlegal rfl rfl hnone hin hspace hue,
          rfl, State.ctx_setCtx .., rfl⟩⟩

end
end Sys2Proof.Machine

namespace Sys2Proof.Machine

/-! Bytes, elements and byte masks of a vector (R424, R474), bit by bit. -/

section
open Sys2Proof.Claims

/-! ### Bytes of a line -/

theorem testBit_of_byte (v j : Nat) {r : Nat} (hr : r < 8) : v.testBit (8 * j + r) = (v / 256 ^ j % 256).testBit r := by
  rw [show (256 : Nat) = 2 ^ 8 from rfl, ← Nat.pow_mul, Nat.testBit_mod_two_pow, decide_eq_true hr, Bool.true_and,
    Nat.testBit_div_two_pow, Nat.add_comm]

/-- A bit of the number that bytes spell is a bit of a byte. -/
theorem testBit_leNat (bs : List Byte) (p : Nat) : (leNat bs).testBit p = (bs.getD (p / 8) 0).toNat.testBit (p % 8) := by
  have hbyte := testBit_of_byte (leNat bs) (p / 8) (Nat.mod_lt p (by decide : 0 < 8))
  rwa [Nat.div_add_mod, leNat_byte] at hbyte

@[simp] theorem lineBytes_length (l : Line) : (lineBytes l).length = 64 := leBytes_length 64 _

/-- Bit `p` of a line lies in its byte `p / 8`. -/
theorem testBit_lineBytes (l : Line) {p : Nat} (hp : p < 512) :
    ((lineBytes l).getD (p / 8) 0).toNat.testBit (p % 8) = l.toNat.testBit p := by
  rw [lineBytes, leBytes_getD _ (by omega), ← testBit_of_byte _ _ (Nat.mod_lt _ (by decide)), Nat.div_add_mod]

theorem lineOfBytes_toNat {bs : List Byte} (hbs : bs.length = 64) : (lineOfBytes bs).toNat = leNat bs := by
  rw [lineOfBytes, BitVec.toNat_ofNat, Nat.mod_eq_of_lt]
  calc leNat bs < 256 ^ bs.length := leNat_lt bs
    _ = 2 ^ (8 * bs.length) := (Nat.pow_mul 2 8 _).symm
    _ = 2 ^ 512 := by rw [hbs]

@[simp] theorem mergeBytes_length (mask : Nat) {old new : List Byte} (h : old.length = new.length) :
    (mergeBytes mask old new).length = old.length := by
  simp [mergeBytes, ← h]

theorem mergeBytes_getD (mask : Nat) {old new : List Byte} (h : old.length = new.length) {j : Nat} (hj : j < old.length) :
    (mergeBytes mask old new).getD j 0 = if mask.testBit j then new.getD j 0 else old.getD j 0 := by
  have hnew : j < new.length := h ▸ hj
  have hat : ((List.range old.length).zip (old.zip new))[j]? = some (j, old[j], new[j]) := by
    rw [List.getElem?_eq_getElem (by simp only [List.length_zip, List.length_range]; omega), List.getElem_zip,
      List.getElem_zip, List.getElem_range]
  rw [List.getD_eq_getElem?_getD, List.getD_eq_getElem?_getD, List.getD_eq_getElem?_getD, List.getElem?_eq_getElem hj,
    List.getElem?_eq_getElem hnew, mergeBytes, List.getElem?_map, hat, ← bitB_eq_testBit]
  rfl

/-- `old` with the bytes of `mask` from `new`. -/
def mergeLine (mask : Nat) (old new : Line) : Line := lineOfBytes (mergeBytes mask (lineBytes old) (lineBytes new))

theorem testBit_mergeLine (mask : Nat) (old new : Line) {p : Nat} (hp : p < 512) : (mergeLine mask old new).toNat.testBit p =
    if mask.testBit (p / 8) then new.toNat.testBit p else old.toNat.testBit p := by
  have hlen : (lineBytes old).length = (lineBytes new).length := by simp
  rw [mergeLine, lineOfBytes_toNat (by simp [hlen]), testBit_leNat, mergeBytes_getD mask hlen (by simp; omega),
    ← testBit_lineBytes old hp, ← testBit_lineBytes new hp]
  split <;> rfl

/-! ### Elements -/

theorem testBit_elU (v : Line) (n i b : Nat) : (elU v n i).testBit b = (decide (b < 8 * n) && v.toNat.testBit (8 * n * i + b)) := by
  rw [elU, Nat.testBit_mod_two_pow, Nat.testBit_div_two_pow, Nat.add_comm b]

theorem elU_lt (v : Line) (n i : Nat) : elU v n i < 2 ^ (8 * n) := Nat.mod_lt _ (Nat.two_pow_pos _)

/-- Elements are equal when their bits are. -/
theorem elU_ext {v : Line} {n i x : Nat} (hx : x < 2 ^ (8 * n))
    (h : ∀ b < 8 * n, v.toNat.testBit (8 * n * i + b) = x.testBit b) : elU v n i = x := by
  refine Nat.eq_of_testBit_eq fun b => ?_
  rw [testBit_elU]
  by_cases hb : b < 8 * n
  · rw [h b hb, decide_eq_true hb, Bool.true_and]
  · rw [decide_eq_false hb, Bool.false_and,
      Nat.testBit_lt_two_pow (Nat.lt_of_lt_of_le hx (Nat.pow_le_pow_right (by decide) (Nat.le_of_not_lt hb)))]

/-- The first bit of element `i`, from its first byte. -/
theorem elem_bit (n i : Nat) : 8 * (i * n) = 8 * n * i := by rw [Nat.mul_comm i n, Nat.mul_assoc]

/-- The bits of element `i` of a vector lie in the line. -/
theorem bit_lt {n i b : Nat} (hi : i < 64 / n) (hb : b < 8 * n) : 8 * n * i + b < 512 := by
  have hn : (i + 1) * n ≤ 64 := (Nat.le_div_iff_mul_le (by omega)).mp hi
  have hm : 8 * n * i + 8 * n = 8 * ((i + 1) * n) := by rw [elem_bit, Nat.mul_succ]
  omega

/-- A byte mask that is constant on an element selects the element. -/
theorem elU_mergeLine {mask n i : Nat} (old new : Line) {on : Bool} (hi : i < 64 / n)
    (hmask : ∀ j < n, mask.testBit (i * n + j) = on) :
    elU (mergeLine mask old new) n i = if on then elU new n i else elU old n i := by
  refine elU_ext (by split <;> exact elU_lt ..) fun b hb => ?_
  have hbyte : (8 * n * i + b) / 8 = i * n + b / 8 := by
    rw [← elem_bit, Nat.mul_add_div (by decide)]
  rw [testBit_mergeLine _ _ _ (bit_lt hi hb), hbyte, hmask _ (by omega)]
  cases on <;> simp [testBit_elU, hb]

/-- The elements of a line that OR puts together from values at their places. -/
def lineOfElems (n m : Nat) (g : Nat → Nat) : Line := (upto m).foldl (fun a i => a ||| placeAt (i * n) (g i)) 0

theorem elU_or (a b : Line) (n i : Nat) : elU (a ||| b) n i = elU a n i ||| elU b n i := by
  refine Nat.eq_of_testBit_eq fun p => ?_
  rw [testBit_elU, BitVec.toNat_or, Nat.testBit_or, Nat.testBit_or, testBit_elU, testBit_elU, Bool.and_or_distrib_left]

theorem elU_placeAt {n i k v : Nat} (hv : v < 2 ^ (8 * n)) (hk : k < 64 / n) :
    elU (placeAt (i * n) v) n k = if i = k then v else 0 := by
  have hlt : (if i = k then v else 0) < 2 ^ (8 * n) := by
    by_cases hik : i = k
    · rwa [if_pos hik]
    · rw [if_neg hik]
      exact Nat.two_pow_pos _
  refine elU_ext hlt fun b hb => ?_
  rw [placeAt, BitVec.testBit_toNat, BitVec.getLsbD_ofNat, decide_eq_true (bit_lt hk hb), Bool.true_and,
    Nat.testBit_mul_two_pow, elem_bit]
  have hsmall {q : Nat} (hq : 8 * n ≤ q) : v.testBit q = false :=
    Nat.testBit_lt_two_pow (Nat.lt_of_lt_of_le hv (Nat.pow_le_pow_right (by decide) hq))
  rcases Nat.lt_trichotomy i k with hik | rfl | hik
  · have hle : 8 * n * i + 8 * n ≤ 8 * n * k := by rw [← Nat.mul_succ]; exact Nat.mul_le_mul_left _ hik
    rw [if_neg (Nat.ne_of_lt hik), hsmall (by omega), Bool.and_false, Nat.zero_testBit]
  · simp
  · have hle : 8 * n * k + 8 * n ≤ 8 * n * i := by rw [← Nat.mul_succ]; exact Nat.mul_le_mul_left _ hik
    rw [if_neg (Nat.ne_of_gt hik), decide_eq_false (by omega), Bool.false_and, Nat.zero_testBit]

theorem elU_lineOfElems {n m k : Nat} {g : Nat → Nat} (hg : ∀ i, g i < 2 ^ (8 * n)) (hk : k < 64 / n) :
    elU (lineOfElems n m g) n k = if k < m then g k else 0 := by
  induction m with
  | zero => simp only [lineOfElems, upto, List.range_zero, List.foldl_nil, elU, BitVec.ofNat_eq_ofNat, BitVec.toNat_zero,
      Nat.zero_div, Nat.zero_mod, Nat.not_lt_zero, if_false]
  | succ m ih =>
    have hsucc : lineOfElems n (m + 1) g = lineOfElems n m g ||| placeAt (m * n) (g m) := by
      rw [lineOfElems, upto, List.range_succ, List.foldl_append]
      rfl
    rw [hsucc, elU_or, ih, elU_placeAt (hg m) hk]
    rcases Nat.lt_trichotomy k m with hkm | rfl | hkm
    · rw [if_pos hkm, if_neg (Nat.ne_of_gt hkm), if_pos (Nat.lt_succ_of_lt hkm), Nat.or_zero]
    · simp
    · rw [if_neg (Nat.lt_asymm hkm), if_neg (Nat.ne_of_lt hkm), if_neg (by omega), Nat.or_zero]

/-! ### Masks of whole elements -/

/-- The byte mask of the elements that `f` chooses among the first `m`, each of `n` bytes. -/
def elemMask (f : Nat → Bool) (n m : Nat) : Nat :=
  (upto m).foldl (fun a i => if f i then a + (2 ^ n - 1) * 2 ^ (i * n) else a) 0

theorem elemMask_succ (f : Nat → Bool) (n m : Nat) :
    elemMask f n (m + 1) = 2 ^ (m * n) * (if f m then 2 ^ n - 1 else 0) + elemMask f n m := by
  rw [elemMask, upto, List.range_succ, List.foldl_append]
  change (if f m then elemMask f n m + _ else elemMask f n m) = _
  split
  · rw [Nat.add_comm, Nat.mul_comm]
  · rw [Nat.mul_zero, Nat.zero_add]

theorem elemMask_lt (f : Nat → Bool) (n m : Nat) : elemMask f n m < 2 ^ (m * n) := by
  induction m with
  | zero => simp [elemMask, upto]
  | succ m ih =>
    have hblock : (if f m then 2 ^ n - 1 else 0) + 1 ≤ 2 ^ n := by
      have := Nat.two_pow_pos n
      split <;> omega
    calc elemMask f n (m + 1)
      _ < 2 ^ (m * n) * ((if f m then 2 ^ n - 1 else 0) + 1) := by rw [elemMask_succ, Nat.mul_succ]; omega
      _ ≤ 2 ^ (m * n) * 2 ^ n := Nat.mul_le_mul_left _ hblock
      _ = 2 ^ ((m + 1) * n) := by rw [← Nat.pow_add, Nat.succ_mul]

/-- A byte is in the mask when its element is chosen. -/
theorem testBit_elemMask (f : Nat → Bool) {n m j : Nat} (hn : 0 < n) (hj : j < m * n) :
    (elemMask f n m).testBit j = f (j / n) := by
  induction m with
  | zero => omega
  | succ m ih =>
    rw [elemMask_succ, Nat.testBit_two_pow_mul_add _ (elemMask_lt f n m)]
    split
    · next hlow => exact ih hlow
    · next hhigh =>
      have hle : m * n ≤ j := Nat.le_of_not_lt hhigh
      rw [Nat.succ_mul] at hj
      have hdiv : j / n = m := (Nat.div_eq_iff hn).mpr ⟨by omega, by omega⟩
      rw [hdiv]
      cases f m
      · exact Nat.zero_testBit _
      · rw [if_pos rfl, Nat.testBit_two_pow_sub_one]
        exact decide_eq_true (by omega)

end
end Sys2Proof.Machine

namespace Sys2Proof.Machine

/-! The vector instructions, element by element (R424, R474 to R478). -/

section
open Sys2Proof.Claims

/-! ### Elements as numbers -/

theorem elemU_eq (v : Line) {n : Nat} (hn : 0 < n) (i : Nat) : elemU v n i = elU v n i := by
  rw [elemU, lineField, bits_eq_div_mod, elU, show 8 * (i * n + n) - 1 + 1 - 8 * (i * n) = 8 * n by omega,
    elem_bit]

theorem elI_eq_signed (v : Line) (n i : Nat) : elI v n i = signed (elU v n i) (8 * n) := by
  rw [elI, signed, Nat.mod_eq_of_lt (elU_lt v n i)]

theorem elemS_eq (v : Line) {n : Nat} (hn : 0 < n) (i : Nat) : elemS v n i = elI v n i := by
  have hpow : (2 : Nat) ^ (8 * n) = 2 * 2 ^ (8 * n - 1) := by rw [← Nat.pow_succ']; congr 1; omega
  rw [elemS, elI, elemU_eq v hn]
  exact ite_eq_of_iff (by omega) _ _

theorem elI_inj {a b : Line} {n i : Nat} : elI a n i = elI b n i ↔ elU a n i = elU b n i := by
  refine ⟨fun h => ?_, fun h => by rw [elI, elI, h]⟩
  have ha := elU_lt a n i
  have hb := elU_lt b n i
  unfold elI at h
  generalize elU a n i = x at h ha
  generalize elU b n i = y at h hb
  rw [two_pow_eq_cast] at h
  generalize 2 ^ (8 * n) = m at h ha hb
  generalize 2 ^ (8 * n - 1) = half at h
  split at h <;> split at h <;> omega

/-- A sign-extended element holds its signed value. -/
theorem extend_signed (v : Line) {n : Nat} (hn : 8 * n ≤ 64) (i : Nat) :
    extend (elU v n i) n true = BitVec.ofInt 64 (elI v n i) := by
  rw [extend, if_pos rfl, ofNat_sx _ hn, elI_eq_signed]

theorem extend_signed_toInt (v : Line) {n : Nat} (hpos : 0 < n) (hn : 8 * n ≤ 64) (i : Nat) :
    (extend (elU v n i) n true).toInt = elI v n i := by
  rw [extend_signed v hn, elI_eq_signed, toInt_ofInt_signed _ (by omega) hn]

theorem extend_unsigned (v : Line) (n i : Nat) : extend (elU v n i) n false = BitVec.ofNat 64 (elU v n i) := by
  rw [extend, if_neg Bool.false_ne_true, Nat.mod_eq_of_lt (elU_lt v n i)]

theorem extend_unsigned_toNat (v : Line) {n : Nat} (hn : 8 * n ≤ 64) (i : Nat) :
    (extend (elU v n i) n false).toNat = elU v n i := by
  rw [extend_unsigned, BitVec.toNat_ofNat, Nat.mod_eq_of_lt]
  exact Nat.lt_of_lt_of_le (elU_lt v n i) (Nat.pow_le_pow_right (by decide) hn)

/-! ### The widths of an element -/

/-- The bytes of an element (R424): 1, 2, 4 or 8. -/
def IsWidth (n : Nat) : Prop := n = 1 ∨ n = 2 ∨ n = 4 ∨ n = 8

theorem isWidth_pow {ew : Nat} (h : ew < 4) : IsWidth (2 ^ ew) := by
  unfold IsWidth
  match ew, h with
  | 0, _ | 1, _ | 2, _ | 3, _ => decide

theorem IsWidth.pos {n : Nat} (h : IsWidth n) : 0 < n := by
  unfold IsWidth at h
  omega

theorem IsWidth.bits_le {n : Nat} (h : IsWidth n) : 8 * n ≤ 64 := by
  unfold IsWidth at h
  omega

theorem IsWidth.count_mul {n : Nat} (h : IsWidth n) : 64 / n * n = 64 := by
  rcases h with rfl | rfl | rfl | rfl <;> rfl

/-! ### Active elements (R424) -/

section
variable (c : Ctx) {w pm n i : Nat} (hpm : wPm w = pm) (hn : elemWidth w = n) (hwidth : IsWidth n)
include hpm hn hwidth

theorem Ctx.active_eq (hi : i < 64 / n) : c.active w i = act c pm n i := by
  have hlt : i * n < 64 := by
    have hle : (i + 1) * n ≤ 64 := (Nat.le_div_iff_mul_le hwidth.pos).mp hi
    have hpos := hwidth.pos
    rw [Nat.succ_mul] at hle
    omega
  rw [Ctx.active, hpm, hn, bitB_eq_testBit, act, Ctx.pr]
  by_cases h0 : pm = 0
  · rw [if_pos h0, BitVec.toNat_allOnes, Nat.testBit_two_pow_sub_one, decide_eq_true hlt, decide_eq_true h0, Bool.true_or]
  · rw [if_neg h0, decide_eq_false h0, Bool.false_or]

/-- The merge under a predicate takes the active elements. -/
theorem Ctx.elU_merge (old new : Line) (hi : i < 64 / n) :
    elU (mergeLine (c.activeMask w) old new) n i = if act c pm n i then elU new n i else elU old n i := by
  refine elU_mergeLine old new hi fun j hj => ?_
  have hle : (i + 1) * n ≤ 64 / n * n := Nat.mul_le_mul_right n hi
  rw [Nat.succ_mul] at hle
  have hdiv : (i * n + j) / n = i := (Nat.div_eq_iff hwidth.pos).mpr ⟨by omega, by omega⟩
  change (elemMask (c.active w) (elemWidth w) (64 / elemWidth w)).testBit _ = _
  rw [hn, testBit_elemMask _ hwidth.pos (by omega), hdiv, c.active_eq hpm hn hwidth hi]

end

/-! ### Lines that a load brings -/

theorem leNat_drop (bs : List Byte) (k : Nat) : leNat (bs.drop k) = leNat bs / 256 ^ k := by
  induction k generalizing bs with
  | zero => simp
  | succ k ih =>
    cases bs with
    | nil => simp [leNat]
    | cons b t =>
      have hb : b.toNat < 256 := b.isLt
      rw [List.drop_succ_cons, ih, leNat, Nat.pow_succ', ← Nat.div_div_eq_div_mul, Nat.add_mul_div_left _ _ (by decide),
        Nat.div_eq_of_lt hb, Nat.zero_add]

theorem leNat_take (bs : List Byte) (k : Nat) : leNat (bs.take k) = leNat bs % 256 ^ k := by
  induction k generalizing bs with
  | zero => simp [leNat, Nat.mod_one]
  | succ k ih =>
    cases bs with
    | nil => simp [leNat]
    | cons b t =>
      have hb : b.toNat < 256 := b.isLt
      rw [List.take_succ_cons, leNat, leNat, ih, Nat.pow_succ', Nat.mod_mul, Nat.add_mul_mod_self_left, Nat.mod_eq_of_lt hb,
        Nat.add_mul_div_left _ _ (by decide), Nat.div_eq_of_lt hb, Nat.zero_add]

theorem memReadN_length (d : Byte) (m : List Host.Cell) (a n : Nat) : (memReadN d m a n).length = n := by
  induction n generalizing a with
  | zero => rfl
  | succ n ih => rw [memReadN, List.length_cons, ih]

theorem State.localRead_length (s : State) (k : Nat) (c : Ctx) (a n : Nat) : (s.localRead k c a n).length = n := by
  unfold localRead
  dsimp only
  split
  · exact memReadN_length ..
  · exact memReadN_length ..
  · rw [upto, List.length_map, List.length_range]

theorem elU_lineOfBytes {bs : List Byte} (hbs : bs.length = 64) (n i : Nat) :
    elU (lineOfBytes bs) n i = leNat ((bs.drop (i * n)).take n) := by
  rw [elU, lineOfBytes_toNat hbs, leNat_take, leNat_drop, show (256 : Nat) = 2 ^ 8 from rfl, ← Nat.pow_mul, ← Nat.pow_mul,
    elem_bit]

theorem elU_repeatElem (v : Nat) {n i : Nat} (hi : i < 64 / n) : elU (repeatElem v n) n i = v % 2 ^ (8 * n) := by
  change elU (lineOfElems n (64 / n) fun _ => v % 2 ^ (8 * n)) n i = _
  rw [elU_lineOfElems (fun _ => Nat.mod_lt _ (Nat.two_pow_pos _)) hi, if_pos hi]

/-- The address of an F-V load or store (R475): x[rs] and d6 units, modulo 2^64. -/
theorem Ctx.vaddress_eq (c : Ctx) {w rs d unit : Nat} (hrs : wRs w = rs) (hd6 : bits w 5 0 = d) (hd : d < 64)
    (hunit : 0 < unit ∧ unit ≤ 64) : c.vaddress w unit =
      ((c.xr rs).toNat + (if d < 32 then d * unit else 2 ^ 64 - (64 - d) * unit)) % 2 ^ 64 := by
  rw [Ctx.vaddress, hrs, hd6, sx, Nat.mod_eq_of_lt (show d < 2 ^ 6 from hd)]
  by_cases hlow : d < 32
  · rw [if_pos hlow, if_pos (show d < 2 ^ (6 - 1) from hlow)]
  · have hsmall : (64 - d) * unit ≤ 64 * 64 := Nat.mul_le_mul (Nat.sub_le _ _) hunit.2
    have hback : (d + 2 ^ 64 - 2 ^ 6) * unit + (64 - d) * unit = 2 ^ 64 * unit := by rw [← Nat.add_mul]; congr 1; omega
    rw [if_neg hlow, if_neg (show ¬ d < 2 ^ (6 - 1) from hlow)]
    omega

/-! ### Comparing elements (R476, R478) -/

section
variable (a b : Line) {n : Nat} (hn : 0 < n) (i : Nat)
include hn

/-- The conditions of VCMP on the signed or unsigned values of two elements. -/
theorem vcond_eq {f : Nat} (hf : f ≤ 5) (un : Bool) : vcond f un a b n i =
    cmpHolds f (if un then (elU a n i : Int) else elI a n i) (if un then (elU b n i : Int) else elI b n i) := by
  have heq : (elemU a n i == elemU b n i) =
      decide ((if un then (elU a n i : Int) else elI a n i) = if un then (elU b n i : Int) else elI b n i) := by
    rw [elemU_eq a hn, elemU_eq b hn, Bool.eq_iff_iff, beq_iff_eq, decide_eq_true_iff]
    cases un
    · exact elI_inj.symm
    · exact Int.natCast_inj.symm
  have hlt : (if un then decide (elemU a n i < elemU b n i) else decide (elemS a n i < elemS b n i)) =
      decide ((if un then (elU a n i : Int) else elI a n i) < if un then (elU b n i : Int) else elI b n i) := by
    rw [elemU_eq a hn, elemU_eq b hn, elemS_eq a hn, elemS_eq b hn]
    cases un
    · rfl
    · exact decide_eq_decide.mpr Int.ofNat_lt.symm
  unfold vcond
  rw [heq, hlt]
  generalize (if un then (elU a n i : Int) else elI a n i) = x
  generalize (if un then (elU b n i : Int) else elI b n i) = y
  have hle : (decide (x < y) || decide (x = y)) = decide (x ≤ y) := by
    rw [← Bool.decide_or]
    exact decide_eq_decide.mpr (by omega)
  match f, hf with
  | 0, _ => rfl
  | 1, _ => exact decide_not.symm
  | 2, _ => rfl
  | 3, _ => exact hle
  | 4, _ => exact (congrArg not hle).trans (decide_not.symm.trans (decide_eq_decide.mpr Int.not_le))
  | 5, _ => exact decide_not.symm.trans (decide_eq_decide.mpr Int.not_lt)

/-- VMIN and VMAX may take either of two equal elements, so that the comparison need not be strict. -/
theorem vpick_eq (greatest un : Bool) : vpick greatest un a b n i =
    if (if un then decide (elU a n i ≤ elU b n i) else decide (elI a n i ≤ elI b n i)) != greatest then elU a n i
    else elU b n i := by
  unfold vpick
  rw [elemU_eq a hn, elemU_eq b hn, elemS_eq a hn, elemS_eq b hn]
  by_cases h : elU a n i = elU b n i
  · rw [h, ite_self, ite_self]
  · have hne : elI a n i ≠ elI b n i := mt elI_inj.mp h
    have hu : decide (elU a n i < elU b n i) = decide (elU a n i ≤ elU b n i) := decide_eq_decide.mpr (by omega)
    have hi : decide (elI a n i < elI b n i) = decide (elI a n i ≤ elI b n i) := decide_eq_decide.mpr (by omega)
    rw [hu, hi]

theorem vpick_lt (greatest un : Bool) : vpick greatest un a b n i < 2 ^ (8 * n) := by
  rw [vpick_eq a b hn]
  generalize (_ != greatest) = first
  cases first <;> exact elU_lt ..

end

/-! ### Sums and reductions (R474, R478) -/

/-- Adding the chosen values to a register is adding their sum. -/
theorem foldl_add_ofInt (x : W64) (on : Nat → Bool) (add : Nat → W64) (val : Nat → Int)
    (h : ∀ i, add i = BitVec.ofInt 64 (val i)) (m : Nat) :
    (upto m).foldl (fun a i => if on i then a + add i else a) x =
      x + BitVec.ofInt 64 (((List.range m).map fun i => if on i then val i else 0).foldl (· + ·) 0) := by
  induction m with
  | zero => simp [upto]
  | succ m ih =>
    rw [upto] at ih ⊢
    rw [List.range_succ, List.foldl_append, List.map_append, List.foldl_append, ih, List.map_singleton, List.foldl_cons,
      List.foldl_nil, List.foldl_cons, List.foldl_nil, BitVec.ofInt_add, ← BitVec.add_assoc]
    split
    · rw [h]
    · rw [show BitVec.ofInt 64 0 = 0#64 from rfl, BitVec.add_zero]

/-- The least by `key` of the value held and the chosen ones. -/
def leastOf (key : W64 → Int) (on : Nat → Bool) (v : Nat → W64) (x : W64) (m : Nat) : W64 :=
  (upto m).foldl (fun a i => if on i then (if key (v i) < key a then v i else a) else a) x

theorem leastOf_spec (key : W64 → Int) (on : Nat → Bool) (v : Nat → W64) (x : W64) (m : Nat) :
    (leastOf key on v x m = x ∨ ∃ i, i < m ∧ on i = true ∧ leastOf key on v x m = v i) ∧
      key (leastOf key on v x m) ≤ key x ∧ ∀ i, i < m → on i = true → key (leastOf key on v x m) ≤ key (v i) := by
  induction m with
  | zero => exact ⟨.inl rfl, Int.le_refl _, fun i hi => absurd hi (Nat.not_lt_zero i)⟩
  | succ m ih =>
    have hsucc : leastOf key on v x (m + 1) = if on m then
        (if key (v m) < key (leastOf key on v x m) then v m else leastOf key on v x m) else leastOf key on v x m := by
      rw [leastOf, upto, List.range_succ, List.foldl_append]
      rfl
    obtain ⟨hfrom, hx, hall⟩ := ih
    have hkept : leastOf key on v x m = x ∨ ∃ i, i < m + 1 ∧ on i = true ∧ leastOf key on v x m = v i :=
      hfrom.imp_right fun ⟨i, hi, hon⟩ => ⟨i, Nat.lt_succ_of_lt hi, hon⟩
    rw [hsucc]
    split
    · next hon =>
      split
      · next hless =>
        refine ⟨.inr ⟨m, Nat.lt_succ_self m, hon, rfl⟩, by omega, fun i hi hi' => ?_⟩
        rcases Nat.lt_succ_iff_lt_or_eq.mp hi with hlt | rfl
        · exact Int.le_trans (Int.le_of_lt hless) (hall i hlt hi')
        · exact Int.le_refl _
      · next hnot =>
        refine ⟨hkept, hx, fun i hi hi' => ?_⟩
        rcases Nat.lt_succ_iff_lt_or_eq.mp hi with hlt | rfl
        · exact hall i hlt hi'
        · exact Int.not_lt.mp hnot
    · next hoff =>
      refine ⟨hkept, hx, fun i hi hi' => ?_⟩
      rcases Nat.lt_succ_iff_lt_or_eq.mp hi with hlt | rfl
      · exact hall i hlt hi'
      · exact absurd hi' hoff

end
end Sys2Proof.Machine

namespace Sys2Proof.Machine

/-! What each vector instruction does with a word of its row (R424, R474 to R478). -/

section
open Sys2Proof.Claims

/-! ### What a reduction compares by (R478) -/

/-- The unsigned or signed value of a register. -/
def regValue (un : Bool) (v : W64) : Int := if un then v.toNat else v.toInt

theorem regLess_eq (un : Bool) (x y : W64) :
    (if un then x.ult y else x.slt y) = decide (regValue un x < regValue un y) := by
  rw [Bool.eq_iff_iff, decide_eq_true_iff]
  cases un
  · exact BitVec.slt_iff_toInt_lt
  · exact (ult_iff x y).trans Int.ofNat_lt.symm

/-- The value, negated where the greatest is looked for: the result has the least key. -/
def reduceKey (greatest un : Bool) (v : W64) : Int := if greatest then -regValue un v else regValue un v

theorem reduceStep_eq (greatest un : Bool) (a v : W64) :
    (if greatest then (if (if un then a.ult v else a.slt v) then v else a)
      else (if (if un then v.ult a else v.slt a) then v else a)) =
      if reduceKey greatest un v < reduceKey greatest un a then v else a := by
  simp only [regLess_eq, decide_eq_true_iff]
  cases greatest
  · rfl
  · simp only [reduceKey, if_true, Int.neg_lt_neg_iff]

section
variable {s : State} {e cx : Nat} {c : Ctx} {w : Nat}

/-! ### VLD and VST (R475) -/

section
variable (ue : Bool) (h : Issues s e cx c w) (hop : wOp w = 0x20)
include h hop

section
variable (hmode : w &&& 0xC0 = 0)
include hmode

theorem exec_vld_illegal (hv : wV1 w ≠ 0 ∨ wV2 w ≠ 0) :
    exec (.vld e cx ue) s = .next (s.takeTrap (e * 16 + cx) c .illegalInsn) :=
  (exec_issued rfl h hop hmode).trans (congrArg _ (if_pos hv))

variable (hv : ¬ (wV1 w ≠ 0 ∨ wV2 w ≠ 0)) {a al : Nat} (ha : c.vaddress w 64 = a)
  (hal : (if a / 2 ^ 60 = 2 then 64 else elemWidth w) = al)
include hv ha hal

theorem exec_vld_trap {t : Trap} (htrap : s.accessTrap c a 64 al true false ue = some t) :
    exec (.vld e cx ue) s = .next (s.takeTrap (e * 16 + cx) c t) := by
  refine (exec_issued rfl h hop hmode).trans (congrArg _ ((if_neg hv).trans ?_))
  rw [ha, hal]
  simp only [htrap]

variable (hok : s.accessTrap c a 64 al true false ue = none)
include hok

theorem exec_vld_local (hdpa : a / 2 ^ 60 ≠ 2) : exec (.vld e cx ue) s = .next (s.setCtx (e * 16 + cx)
    (c.mergeV (wVd w) (c.activeMask w) (lineOfBytes (s.localRead (e * 16 + cx) c a 64))).advance) := by
  refine (exec_issued rfl h hop hmode).trans (congrArg _ ((if_neg hv).trans ?_))
  rw [ha, hal]
  simp only [hok, if_neg hdpa]

theorem exec_vld_dpa (hdpa : a / 2 ^ 60 = 2) {g : Nat} (hfree : s.freeSlot e = some g) : exec (.vld e cx ue) s = .next
    (s.dpaLoad (e * 16 + cx) g c.advance (.vec (wVd w) (c.activeMask w)) (a % 2 ^ 60 / 64)).settle := by
  refine (exec_issued rfl h hop hmode).trans (congrArg _ ((if_neg hv).trans ?_))
  rw [ha, hal]
  simp only [hok, if_pos hdpa, hfree]

end

section
variable (hmode : w &&& 0xC0 = 0x40)
include hmode

theorem exec_vldBc_illegal (hv : wV1 w ≠ 0 ∨ wV2 w ≠ 0) :
    exec (.vldBc e cx ue) s = .next (s.takeTrap (e * 16 + cx) c .illegalInsn) :=
  (exec_issued rfl h hop hmode).trans (congrArg _ (if_pos hv))

variable (hv : ¬ (wV1 w ≠ 0 ∨ wV2 w ≠ 0)) {a n : Nat} (hn : elemWidth w = n) (ha : c.vaddress w n = a)
include hv hn ha

theorem exec_vldBc_trap {t : Trap} (htrap : s.accessTrap c a n n true false ue = some t) :
    exec (.vldBc e cx ue) s = .next (s.takeTrap (e * 16 + cx) c t) := by
  refine (exec_issued rfl h hop hmode).trans (congrArg _ ((if_neg hv).trans ?_))
  rw [hn, ha]
  simp only [htrap]

theorem exec_vldBc_local (hok : s.accessTrap c a n n true false ue = none) (hdpa : a / 2 ^ 60 ≠ 2) :
    exec (.vldBc e cx ue) s = .next (s.setCtx (e * 16 + cx)
      (c.mergeV (wVd w) (c.activeMask w) (repeatElem (leNat (s.localRead (e * 16 + cx) c a n)) n)).advance) := by
  refine (exec_issued rfl h hop hmode).trans (congrArg _ ((if_neg hv).trans ?_))
  rw [hn, ha]
  simp only [hok, if_neg hdpa]

end
end

section
variable (h : Issues s e cx c w) (hop : wOp w = 0x21) (hmode : w &&& 0xC0 = 0)
include h hop hmode

theorem exec_vst_illegal (hv : wV1 w ≠ 0 ∨ wV2 w ≠ 0) :
    exec (.vst e cx) s = .next (s.takeTrap (e * 16 + cx) c .illegalInsn) :=
  (exec_issued rfl h hop hmode).trans (congrArg _ (if_pos hv))

variable (hv : ¬ (wV1 w ≠ 0 ∨ wV2 w ≠ 0)) {a al : Nat} (ha : c.vaddress w 64 = a)
  (hal : (if a / 2 ^ 60 = 2 then 64 else elemWidth w) = al)
include hv ha hal

theorem exec_vst_trap {t : Trap} (htrap : s.accessTrap c a 64 al false true false = some t) :
    exec (.vst e cx) s = .next (s.takeTrap (e * 16 + cx) c t) := by
  refine (exec_issued rfl h hop hmode).trans (congrArg _ ((if_neg hv).trans ?_))
  rw [ha, hal]
  simp only [htrap]

theorem exec_vst (hok : s.accessTrap c a 64 al false true false = none) : exec (.vst e cx) s =
    .next ((s.storeBytes (e * 16 + cx) c a 64 (c.activeMask w) (c.vr (wVd w)).toNat).getD s) := by
  refine (exec_issued rfl h hop hmode).trans (congrArg _ ((if_neg hv).trans ?_))
  rw [ha, hal]
  simp only [hok]

end

/-! ### VCMP, VSEL and VSUM (R474, R476) -/

section
variable (h : Issues s e cx c w)
include h

theorem exec_vcmp (hop : wOp w = 0x22) : exec (.vcmp e cx) s = .next (
    if 16 ≤ wFv w ∨ 5 < wFv w % 8 ∨ 4 ≤ wVd w ∨ wRs w ≠ 0 then s.takeTrap (e * 16 + cx) c .illegalInsn
    else s.setCtx (e * 16 + cx) (c.setP (wVd w) (BitVec.ofNat 64 (elemMask (fun i => c.active w i && vcond (wFv w % 8)
      (bitB (wFv w) 3) (c.vr (wV1 w)) (c.vr (wV2 w)) (elemWidth w) i) (elemWidth w) (64 / elemWidth w)))).advance) := by
  refine (exec_issued rfl h hop (Nat.and_zero _)).trans ?_
  rfl

theorem exec_vsel (hop : wOp w = 0x23) : exec (.vsel e cx) s = .next (
    if wFv w ≠ 0 ∨ wRs w ≠ 0 then s.takeTrap (e * 16 + cx) c .illegalInsn
    else s.setCtx (e * 16 + cx)
      (c.setV (wVd w) (mergeLine (c.activeMask w) (c.vr (wV2 w)) (c.vr (wV1 w)))).advance) := by
  refine (exec_issued rfl h hop (Nat.and_zero _)).trans ?_
  rfl

theorem exec_vsum (hop : wOp w = 0x24) : exec (.vsum e cx) s = .next (
    if 2 ≤ wFv w ∨ wVd w ≠ 0 ∨ wV2 w ≠ 0 then s.takeTrap (e * 16 + cx) c .illegalInsn
    else s.setCtx (e * 16 + cx) (wrote c (wRs w) ((upto (64 / elemWidth w)).foldl (fun a i => if c.active w i then
      a + extend (elemU (c.vr (wV1 w)) (elemWidth w) i) (elemWidth w) (wFv w == 0) else a) (c.xr (wRs w))))) := by
  rw [← Ctx.advance_setX]
  refine (exec_issued rfl h hop (Nat.and_zero _)).trans ?_
  rfl

/-! ### VMIN, VMAX and their reductions (R478) -/

variable {m : Instr} {major : Nat} {greatest : Bool} (hop : wOp w = major)
include hop

theorem exec_velem (hm : exec m s = .next (s.velem e cx major greatest)) (hform : w &&& 1 = 0) : exec m s = .next (
    if 4 ≤ wFv w ∨ wRs w ≠ 0 then s.takeTrap (e * 16 + cx) c .illegalInsn
    else s.setCtx (e * 16 + cx) (c.setV (wVd w) (mergeLine (c.activeMask w) (c.vr (wVd w)) (lineOfElems (elemWidth w)
      (64 / elemWidth w) (vpick greatest (bitB (wFv w) 1) (c.vr (wV1 w)) (c.vr (wV2 w)) (elemWidth w))))).advance) :=
  exec_issued hm h hop hform

theorem exec_vreduce (hm : exec m s = .next (s.vreduce e cx major greatest)) (hform : w &&& 1 = 1) : exec m s = .next (
    if 4 ≤ wFv w ∨ wVd w ≠ 0 ∨ wV2 w ≠ 0 then s.takeTrap (e * 16 + cx) c .illegalInsn
    else s.setCtx (e * 16 + cx) (wrote c (wRs w) (leastOf (reduceKey greatest (bitB (wFv w) 1)) (c.active w)
      (fun i => extend (elemU (c.vr (wV1 w)) (elemWidth w) i) (elemWidth w) (!bitB (wFv w) 1)) (c.xr (wRs w))
      (64 / elemWidth w)))) := by
  refine (exec_issued hm h hop hform).trans (congrArg _ (ite_congr rfl (fun _ => rfl) fun _ => ?_))
  rw [← Ctx.advance_setX, leastOf]
  refine congrArg (fun f => State.setCtx _ _ (Ctx.advance (Ctx.setX _ _ (List.foldl f _ _)))) (funext fun a => funext fun i => ?_)
  exact ite_congr rfl (fun _ => reduceStep_eq ..) fun _ => rfl

end

end
/-! ### The words of the statement -/

/-- The fields of an F-V word fit their places. -/
structure VectorFields (vd v1 v2 pm ew rs : Nat) : Prop where
  vd_lt : vd < 8
  v1_lt : v1 < 8
  v2_lt : v2 < 8
  pm_lt : pm < 4
  ew_lt : ew < 4
  rs_lt : rs < 32

theorem VectorFields.fields {vd v1 v2 pm ew rs : Nat} (hv : VectorFields vd v1 v2 pm ew rs) {op f : Nat} (hop : op < 64)
    (hf : f < 256) :
    wOp (fV op vd v1 v2 pm ew rs f) = op ∧ wVd (fV op vd v1 v2 pm ew rs f) = vd ∧ wV1 (fV op vd v1 v2 pm ew rs f) = v1 ∧
      wV2 (fV op vd v1 v2 pm ew rs f) = v2 ∧ wPm (fV op vd v1 v2 pm ew rs f) = pm ∧
      elemWidth (fV op vd v1 v2 pm ew rs f) = 2 ^ ew ∧ wRs (fV op vd v1 v2 pm ew rs f) = rs ∧
      wFv (fV op vd v1 v2 pm ew rs f) = f := by
  obtain ⟨h1, h2, h3, h4, h5, h6, h7, h8⟩ := fields_fV hop hv.vd_lt hv.v1_lt hv.v2_lt hv.pm_lt hv.ew_lt hv.rs_lt hf
  exact ⟨h1, h2, h3, h4, h5, congrArg (2 ^ ·) h6, h7, h8⟩

/-- A line-mode word: mode 0, and its displacement d6. -/
theorem fV_line {op vd v1 v2 pm ew rs d : Nat} (hd : d < 64) :
    fV op vd v1 v2 pm ew rs d &&& 0xC0 = 0 ∧ bits (fV op vd v1 v2 pm ew rs d) 5 0 = d := by
  constructor
  · simpa using fV_and_mode (op := op) (vd := vd) (v1 := v1) (v2 := v2) (pm := pm) (ew := ew) (rs := rs) (mode := 0)
      (by decide) hd
  · rw [bits_eq_div_mod, fV]
    omega

/-- A broadcast word: mode 1, and its displacement d6. -/
theorem fV_broadcast {op vd v1 v2 pm ew rs d : Nat} (hd : d < 64) :
    fV op vd v1 v2 pm ew rs (64 + d) &&& 0xC0 = 0x40 ∧ bits (fV op vd v1 v2 pm ew rs (64 + d)) 5 0 = d := by
  constructor
  · simpa using fV_and_mode (op := op) (vd := vd) (v1 := v1) (v2 := v2) (pm := pm) (ew := ew) (rs := rs) (mode := 1)
      (by decide) hd
  · rw [bits_eq_div_mod, fV]
    omega

theorem Ctx.setP_eq (c : Ctx) (n : Nat) (q : W64) : c.setP n q = { c with p := if n = 0 then c.p else mapSet c.p n q } := by
  unfold Ctx.setP
  split <;> rfl

/-! ### Element by element -/

/-- An element as a register value, sign-extended unless it is unsigned. -/
theorem regValue_extend (v : Line) {n : Nat} (hwidth : IsWidth n) (i : Nat) (un : Bool) :
    regValue un (extend (elemU v n i) n (!un)) = if un then (elU v n i : Int) else elI v n i := by
  rw [elemU_eq v hwidth.pos]
  cases un
  · exact extend_signed_toInt v hwidth.pos hwidth.bits_le i
  · exact congrArg Int.ofNat (extend_unsigned_toNat v hwidth.bits_le i)

/-- An element as a summand of VSUM. -/
theorem extend_summand (v : Line) {n : Nat} (hwidth : IsWidth n) (f i : Nat) :
    extend (elemU v n i) n (f == 0) = BitVec.ofInt 64 (if f = 0 then elI v n i else elU v n i) := by
  rw [elemU_eq v hwidth.pos]
  by_cases hf : f = 0
  · rw [if_pos hf, beq_iff_eq.mpr hf, extend_signed v hwidth.bits_le]
  · rw [if_neg hf, beq_false_of_ne hf, extend_unsigned, BitVec.ofInt_natCast]

section
variable {s : State} {e cx : Nat} {c : Ctx} {m : Instr} {major : Nat} {greatest : Bool} {vd v1 v2 pm ew rs f : Nat}
  (hmaj : major < 64) (hv : VectorFields vd v1 v2 pm ew rs) (hf : f < 256)
  (h : Issues s e cx c (fV major vd v1 v2 pm ew rs f))
include hmaj hv hf h

/-- VMIN and VMAX (R478): each active element is the smaller or the greater of the two. -/
theorem exec_velem_elements (hm : exec m s = .next (s.velem e cx major greatest)) (hform : f % 2 = 0) :
    (4 ≤ f ∨ rs ≠ 0 → exec m s = .next (s.takeTrap (e * 16 + cx) c .illegalInsn)) ∧
    (f < 4 → rs = 0 → ∃ v : Line, Becomes m s e cx { c with v := mapSet c.v vd v, pc := (c.pc + 4) % 2 ^ 64 } ∧
      ∀ i, i < 64 / 2 ^ ew → elU v (2 ^ ew) i = if act c pm (2 ^ ew) i then
        (let lt := if f = 0 then decide (elI (c.vr v1) (2 ^ ew) i ≤ elI (c.vr v2) (2 ^ ew) i)
          else decide (elU (c.vr v1) (2 ^ ew) i ≤ elU (c.vr v2) (2 ^ ew) i)
         if lt != greatest then elU (c.vr v1) (2 ^ ew) i else elU (c.vr v2) (2 ^ ew) i)
        else elU (c.vr vd) (2 ^ ew) i) := by
  obtain ⟨hop, hwd, hw1, hw2, hwp, hwn, hwr, hwf⟩ := hv.fields hmaj hf
  have hwidth : IsWidth (2 ^ ew) := isWidth_pow hv.ew_lt
  have hpick := exec_velem h hop hm (fV_and_one.trans hform)
  rw [hwd, hw1, hw2, hwn, hwr, hwf] at hpick
  refine ⟨fun hill => hpick.trans (congrArg _ (if_pos hill)), fun hf4 hr => ?_⟩
  rw [if_neg (by omega)] at hpick
  refine ⟨_, hpick, fun i hi => (c.elU_merge hwp hwn hwidth _ _ hi).trans ?_⟩
  have hfits (j : Nat) : vpick greatest (bitB f 1) (c.vr v1) (c.vr v2) (2 ^ ew) j < 2 ^ (8 * 2 ^ ew) :=
    vpick_lt _ _ hwidth.pos ..
  have hun : bitB f 1 = decide (¬ f = 0) := decide_eq_decide.mpr (by rw [Nat.shiftRight_eq_div_pow]; omega)
  rw [elU_lineOfElems hfits hi, if_pos hi, vpick_eq _ _ hwidth.pos, hun]
  by_cases hf0 : f = 0 <;> simp only [hf0, if_true, if_false, decide_true, decide_false, not_true_eq_false,
    not_false_eq_true, Bool.false_eq_true]

/-- VMINR and VMAXR (R478): the result is x[rs] or an active element, and none of them is beyond it. -/
theorem exec_vreduce_bounds (hm : exec m s = .next (s.vreduce e cx major greatest)) (hform : f % 2 = 1) :
    (4 ≤ f ∨ vd ≠ 0 ∨ v2 ≠ 0 → exec m s = .next (s.takeTrap (e * 16 + cx) c .illegalInsn)) ∧
    (f < 4 → vd = 0 → v2 = 0 → ∃ r : W64, Writes m s e cx c rs r ∧
      (let val (w : W64) : Int := if f = 1 then w.toInt else w.toNat
       let el (i : Nat) : Int := if f = 1 then elI (c.vr v1) (2 ^ ew) i else elU (c.vr v1) (2 ^ ew) i
       (val r = val (c.xr rs) ∨ ∃ i, i < 64 / 2 ^ ew ∧ act c pm (2 ^ ew) i = true ∧ val r = el i) ∧
       (greatest = false → val r ≤ val (c.xr rs) ∧ ∀ i, i < 64 / 2 ^ ew → act c pm (2 ^ ew) i = true → val r ≤ el i) ∧
       (greatest = true → val (c.xr rs) ≤ val r ∧ ∀ i, i < 64 / 2 ^ ew → act c pm (2 ^ ew) i = true → el i ≤ val r))) := by
  obtain ⟨hop, hwd, hw1, hw2, hwp, hwn, hwr, hwf⟩ := hv.fields hmaj hf
  have hwidth : IsWidth (2 ^ ew) := isWidth_pow hv.ew_lt
  have hred := exec_vreduce h hop hm (fV_and_one.trans hform)
  rw [hwd, hw1, hw2, hwn, hwr, hwf] at hred
  refine ⟨fun hill => hred.trans (congrArg _ (if_pos hill)), fun hf4 hd h2 => ?_⟩
  rw [if_neg (by omega)] at hred
  refine ⟨_, hred, ?_⟩
  intro val el
  have hun : bitB f 1 = decide (¬ f = 1) := decide_eq_decide.mpr (by rw [Nat.shiftRight_eq_div_pow]; omega)
  have hval (w : W64) : regValue (bitB f 1) w = val w := by
    rw [hun, regValue]
    by_cases hf1 : f = 1 <;> simp [val, hf1]
  have hel (i : Nat) : val (extend (elemU (c.vr v1) (2 ^ ew) i) (2 ^ ew) (!bitB f 1)) = el i := by
    rw [← hval, regValue_extend _ hwidth, hun]
    by_cases hf1 : f = 1 <;> simp [el, hf1]
  obtain ⟨hfrom, hx, hall⟩ := leastOf_spec (reduceKey greatest (bitB f 1)) (c.active (fV major vd v1 v2 pm ew rs f))
    (fun i => extend (elemU (c.vr v1) (2 ^ ew) i) (2 ^ ew) (!bitB f 1)) (c.xr rs) (64 / 2 ^ ew)
  generalize leastOf _ _ _ _ _ = r at hfrom hx hall ⊢
  have hact {i : Nat} (hi : i < 64 / 2 ^ ew) : c.active (fV major vd v1 v2 pm ew rs f) i = act c pm (2 ^ ew) i :=
    c.active_eq hwp hwn hwidth hi
  refine ⟨?_, ?_, ?_⟩
  · rcases hfrom with rfl | ⟨i, hi, hon, rfl⟩
    · exact .inl rfl
    · exact .inr ⟨i, hi, hact hi ▸ hon, hel i⟩
  · rintro rfl
    simp only [reduceKey, Bool.false_eq_true, if_false, hval, hel] at hx hall
    exact ⟨hx, fun i hi hon => hall i hi ((hact hi).trans hon)⟩
  · rintro rfl
    simp only [reduceKey, if_true, hval, hel, Int.neg_le_neg_iff] at hx hall
    exact ⟨hx, fun i hi hon => hall i hi ((hact hi).trans hon)⟩

end

/-- Settles O54: each clause is the rule above of its instruction, with the elements of the line or predicate it writes. -/
theorem vectorInstructionsWorkOnActiveElements : Obligations.VectorInstructionsWorkOnActiveElements := by
  refine ⟨?memory, ?values⟩
  case memory =>
    intro s e cx c vd v1 v2 pm ew rs d ue hvd hv1 hv2 hpm hew hrs hd k n off
    have hv : VectorFields vd v1 v2 pm ew rs := ⟨hvd, hv1, hv2, hpm, hew, hrs⟩
    have hwidth : IsWidth n := isWidth_pow hew
    refine ⟨fun h => ?line, fun h => ?broadcast, fun h => ?store⟩
    case line =>
      obtain ⟨hop, hwd, hw1, hw2, hwp, hwn, hwr, -⟩ := hv.fields (op := 0x20) (f := d) (by decide) (by omega)
      obtain ⟨hmode, hd6⟩ := fV_line (op := 0x20) (vd := vd) (v1 := v1) (v2 := v2) (pm := pm) (ew := ew) (rs := rs) hd
      refine ⟨fun hnz => exec_vld_illegal ue h hop hmode (by rwa [hw1, hw2]), fun h1 h2 => ?_⟩
      have hzero : ¬ (wV1 (fV 0x20 vd v1 v2 pm ew rs d) ≠ 0 ∨ wV2 (fV 0x20 vd v1 v2 pm ew rs d) ≠ 0) := by
        rw [hw1, hw2]
        omega
      have ha : c.vaddress (fV 0x20 vd v1 v2 pm ew rs d) 64 = off 64 := c.vaddress_eq hwr hd6 hd (by decide)
      intro a
      have hspace : a / 2 ^ 60 % 16 = a / 2 ^ 60 := space_mod (Nat.mod_lt _ (by decide))
      refine ⟨fun hal => ?_, fun hal hdpa hok hue => ?_, fun g hal hdpa hok hfree => ?_⟩
      · exact exec_vld_trap ue h hop hmode hzero ha (by rw [hwn]) (s.accessTrap_misaligned c hal)
      · have hlocal := exec_vld_local ue h hop hmode hzero ha (by rw [hwn, if_neg hdpa])
          (s.accessTrap_none c hal hok (.inl hue)) hdpa
        rw [hwd] at hlocal
        refine ⟨_, hlocal, fun i hi => ?_⟩
        exact (c.elU_merge hwp hwn hwidth _ _ hi).trans (by rw [elU_lineOfBytes (s.localRead_length k c a 64)])
      · subst h1 h2
        have hload := exec_vld_dpa ue h hop hmode hzero ha (if_pos hdpa)
          (s.accessTrap_none c hal hok (.inr (by rw [hspace, hdpa]))) hdpa hfree
        rwa [hwd] at hload
    case broadcast =>
      obtain ⟨hop, hwd, hw1, hw2, hwp, hwn, hwr, -⟩ := hv.fields (op := 0x20) (f := 64 + d) (by decide) (by omega)
      obtain ⟨hmode, hd6⟩ := fV_broadcast (op := 0x20) (vd := vd) (v1 := v1) (v2 := v2) (pm := pm) (ew := ew) (rs := rs) hd
      refine ⟨fun hnz => exec_vldBc_illegal ue h hop hmode (by rwa [hw1, hw2]), fun h1 h2 => ?_⟩
      have hzero : ¬ (wV1 (fV 0x20 vd v1 v2 pm ew rs (64 + d)) ≠ 0 ∨ wV2 (fV 0x20 vd v1 v2 pm ew rs (64 + d)) ≠ 0) := by
        rw [hw1, hw2]
        omega
      have hbits := hwidth.bits_le
      have ha : c.vaddress (fV 0x20 vd v1 v2 pm ew rs (64 + d)) n = off n :=
        c.vaddress_eq hwr hd6 hd ⟨hwidth.pos, by omega⟩
      intro a
      refine ⟨fun hal => ?_, fun hal hdpa hok hue => ?_⟩
      · exact exec_vldBc_trap ue h hop hmode hzero hwn ha (s.accessTrap_misaligned c hal)
      · have hlocal := exec_vldBc_local ue h hop hmode hzero hwn ha (s.accessTrap_none c hal hok (.inl hue)) hdpa
        rw [hwd] at hlocal
        refine ⟨_, hlocal, fun i hi => ?_⟩
        exact (c.elU_merge hwp hwn hwidth _ _ hi).trans (by rw [elU_repeatElem _ hi])
    case store =>
      obtain ⟨hop, hwd, hw1, hw2, hwp, hwn, hwr, -⟩ := hv.fields (op := 0x21) (f := d) (by decide) (by omega)
      obtain ⟨hmode, hd6⟩ := fV_line (op := 0x21) (vd := vd) (v1 := v1) (v2 := v2) (pm := pm) (ew := ew) (rs := rs) hd
      refine ⟨fun hnz => exec_vst_illegal h hop hmode (by rwa [hw1, hw2]), fun h1 h2 => ?_⟩
      have hzero : ¬ (wV1 (fV 0x21 vd v1 v2 pm ew rs d) ≠ 0 ∨ wV2 (fV 0x21 vd v1 v2 pm ew rs d) ≠ 0) := by
        rw [hw1, hw2]
        omega
      have ha : c.vaddress (fV 0x21 vd v1 v2 pm ew rs d) 64 = off 64 := c.vaddress_eq hwr hd6 hd (by decide)
      intro a
      refine ⟨fun hal => ?_, fun hal hok => ?_⟩
      · exact exec_vst_trap h hop hmode hzero ha (by rw [hwn]) (s.accessTrap_misaligned c hal)
      · subst h1 h2
        have hst := exec_vst h hop hmode hzero ha (by rw [hwn]) (s.accessTrap_none c hal hok (.inl rfl))
        rwa [hwd] at hst
  case values =>
    intro s e cx c vd v1 v2 pm ew rs f hvd hv1 hv2 hpm hew hrs hf k n a b
    have hv : VectorFields vd v1 v2 pm ew rs := ⟨hvd, hv1, hv2, hpm, hew, hrs⟩
    have hwidth : IsWidth n := isWidth_pow hew
    refine ⟨fun h => ?compare, fun h => ?select, fun h => ?sum, ?pick, ?reduce⟩
    case compare =>
      obtain ⟨hop, hwd, hw1, hw2, hwp, hwn, hwr, hwf⟩ := hv.fields (op := 0x22) (by decide) hf
      have hcmp := exec_vcmp h hop
      rw [hwd, hw1, hw2, hwn, hwr, hwf] at hcmp
      refine ⟨fun hill => hcmp.trans (congrArg _ (if_pos hill)), fun hf16 hf5 hd hr => ?_⟩
      rw [if_neg (by omega), Ctx.setP_eq] at hcmp
      refine ⟨_, hcmp, fun j hj => ?_⟩
      have hcount : j < 64 / n * n := by rwa [hwidth.count_mul]
      have hi : j / n < 64 / n := Nat.div_lt_of_lt_mul (by rwa [Nat.mul_comm])
      rw [BitVec.testBit_toNat, BitVec.getLsbD_ofNat, decide_eq_true hj, Bool.true_and,
        testBit_elemMask _ hwidth.pos hcount, c.active_eq (n := n) hwp hwn hwidth hi, vcond_eq a b hwidth.pos (j / n) hf5]
      have hun : bitB f 3 = decide (¬ f < 8) := decide_eq_decide.mpr (by rw [Nat.shiftRight_eq_div_pow]; omega)
      by_cases h8 : f < 8 <;> simp only [hun, h8, if_true, if_false, not_true_eq_false, not_false_eq_true, decide_true,
        decide_false, Bool.false_eq_true]
    case select =>
      obtain ⟨hop, hwd, hw1, hw2, hwp, hwn, hwr, hwf⟩ := hv.fields (op := 0x23) (by decide) hf
      have hsel := exec_vsel h hop
      rw [hwd, hw1, hw2, hwr, hwf] at hsel
      refine ⟨fun hill => hsel.trans (congrArg _ (if_pos hill)), fun hf0 hr => ?_⟩
      rw [if_neg (by omega)] at hsel
      exact ⟨_, hsel, fun i hi => c.elU_merge hwp hwn hwidth _ _ hi⟩
    case sum =>
      obtain ⟨hop, hwd, hw1, hw2, hwp, hwn, hwr, hwf⟩ := hv.fields (op := 0x24) (by decide) hf
      have hsum := exec_vsum h hop
      rw [hwd, hw1, hw2, hwn, hwr, hwf] at hsum
      refine ⟨fun hill => hsum.trans (congrArg _ (if_pos hill)), fun hf2 hd h2 => ?_⟩
      rw [if_neg (by omega), foldl_add_ofInt _ _ _ _ (extend_summand a hwidth f)] at hsum
      refine hsum.trans ?_
      rw [List.map_congr_left (g := fun i => if act c pm n i then (if f = 0 then elI a n i else (elU a n i : Int)) else 0)
        fun i hi => by rw [c.active_eq hwp hwn hwidth (List.mem_range.mp hi)]]
      rfl
    case pick =>
      exact List.forall_mem_cons.mpr ⟨fun h => exec_velem_elements (by decide : 0x25 < 64) hv hf h rfl,
        List.forall_mem_singleton.mpr fun h => exec_velem_elements (by decide : 0x26 < 64) hv hf h rfl⟩
    case reduce =>
      exact List.forall_mem_cons.mpr ⟨fun h => exec_vreduce_bounds (by decide : 0x25 < 64) hv hf h rfl,
        List.forall_mem_singleton.mpr fun h => exec_vreduce_bounds (by decide : 0x26 < 64) hv hf h rfl⟩

end
end Sys2Proof.Machine

namespace Sys2Proof.Machine

/-! The integer, immediate and branch instructions by their tables (R464 to R469): the forms that trap, division, and the
instructions that set the pc. The values of the legal forms are those of `integerAndBranchInstructionsComplete`. -/

section
open Sys2Proof.Claims

/-! ### Division recomposes (R465) -/

theorem signed_division_recomposes (x y : W64) :
    x = BitVec.ofInt 64 (x.toInt.tdiv y.toInt) * y + BitVec.ofInt 64 (x.toInt.tmod y.toInt) := by
  calc x = BitVec.ofInt 64 (x.toInt.tdiv y.toInt * y.toInt + x.toInt.tmod y.toInt) := by
        rw [Int.tdiv_mul_add_tmod, BitVec.ofInt_toInt]
    _ = _ := by rw [BitVec.ofInt_add, BitVec.ofInt_mul, BitVec.ofInt_toInt]

theorem unsigned_division_recomposes (x y : W64) :
    x = BitVec.ofNat 64 (x.toNat / y.toNat) * y + BitVec.ofNat 64 (x.toNat % y.toNat) := by
  calc x = BitVec.ofNat 64 (x.toNat / y.toNat * y.toNat + x.toNat % y.toNat) := by
        rw [Nat.div_add_mod', BitVec.ofNat_toNat, BitVec.setWidth_eq]
    _ = _ := by rw [BitVec.ofNat_add, BitVec.ofNat_mul, BitVec.ofNat_toNat, BitVec.setWidth_eq]

/-! ### Illegal forms (R464, R467, R468) -/

section
variable {s : State} {e cx : Nat} {c : Ctx} {m : Instr}

/-- A unary instruction traps where rs2 is not 0. -/
theorem exec_alu_illegal {func rd a b : Nat} {g : W64 → W64 → W64} (hm : exec m s = .next (s.alu e cx func true g))
    (hrd : rd < 32) (ha : a < 32) (hb : b < 32) (hf : func < 2048) (hb0 : 0 < b) (h : Issues s e cx c (fA 1 rd a b func)) :
    exec m s = .next (s.takeTrap (e * 16 + cx) c .illegalInsn) := by
  obtain ⟨hop, -, -, hw2, -⟩ := fields_fA (op := 1) (by decide) hrd ha hb hf
  refine (exec_issued hm h hop (fA_and_mask hf)).trans (congrArg _ (if_pos ?_))
  rw [hw2, Bool.true_and, bne_iff_ne]
  exact Nat.ne_of_gt hb0

/-- An immediate instruction traps where its word is not legal. -/
theorem exec_aluI_illegal {major a b i : Nat} {legal : Nat → Bool} {g : W64 → Nat → W64}
    (hm : exec m s = .next (s.aluI e cx major legal g)) (hmajor : major < 64) (ha : a < 32) (hb : b < 32) (hi : i < 65536)
    (hl : ¬ legal (fI major a b i) = true) (h : Issues s e cx c (fI major a b i)) :
    exec m s = .next (s.takeTrap (e * 16 + cx) c .illegalInsn) := by
  obtain ⟨hop, -⟩ := fields_fI hmajor ha hb hi
  exact (exec_issued hm h hop (Nat.and_zero _)).trans (congrArg _ (if_neg hl))

/-- A shift count of 64 and more has a bit of imm16[15:6] set. -/
theorem shift_illegal {major a b i : Nat} (hi : i < 65536) (h64 : 64 ≤ i) :
    ¬ (bits (fI major a b i) 15 6 == 0) = true := by
  rw [beq_iff_eq, bits_eq_div_mod, fI]
  omega

/-- A branch on one register traps where field a is not 0. -/
theorem exec_branch_illegal {major a b i : Nat} {cond : W64 → Bool} (hm : exec m s = .next (s.branch e cx major cond))
    (hmajor : major < 64) (ha : a < 32) (hb : b < 32) (hi : i < 65536) (ha0 : a ≠ 0)
    (h : Issues s e cx c (fI major a b i)) : exec m s = .next (s.takeTrap (e * 16 + cx) c .illegalInsn) := by
  obtain ⟨hop, hwa, -⟩ := fields_fI hmajor ha hb hi
  refine (exec_issued hm h hop (Nat.and_zero _)).trans (congrArg _ (if_pos ?_))
  rwa [hwa]

/-- The func values that have a row in major 0x01 (R464). -/
def aluFuncs : List Nat :=
  [0, 1, 2, 0x10, 0x11, 0x12, 0x13, 0x14, 0x20, 0x21, 0x22, 0x23, 0x30, 0x31, 0x32, 0x33, 0x34, 0x35, 0x38, 0x39, 0x3A,
    0x3B, 0x40, 0x41, 0x42, 0x48, 0x49, 0x4A, 0x4B, 0x50, 0x51, 0x52, 0x53]

theorem rowWords_of_major_one : ∀ r ∈ rowWords, r.1 = 1 → r.2.1 = 0x7FF ∧ r.2.2 ∈ aluFuncs := by decide

theorem hasRow_unknown_func {rd a b f : Nat} (hrd : rd < 32) (ha : a < 32) (hb : b < 32) (hf : f < 2048)
    (hnot : f ∉ aluFuncs) : hasRow (fA 1 rd a b f) = false := by
  obtain ⟨hop, -⟩ := fields_fA (op := 1) (by decide) hrd ha hb hf
  refine List.any_eq_false.mpr fun r hr hrow => hnot ?_
  rw [Bool.and_eq_true, beq_iff_eq, beq_iff_eq, hop] at hrow
  obtain ⟨hmask, hmem⟩ := rowWords_of_major_one r hr hrow.1.symm
  rwa [← hrow.2, hmask, fA_and_mask hf] at hmem

/-- A word of no row traps (R436). -/
theorem exec_trap_noRow {w : Nat} (h : Issues s e cx c w) (hrow : hasRow w = false) :
    exec (.trap e cx false) s = .next (s.takeTrap (e * 16 + cx) c .illegalInsn).settle := by
  obtain ⟨hcx, hctx, hblock, hfetch, -⟩ := h
  change execTrap e cx false s = _
  simp only [execTrap, Nat.not_le.mpr hcx, hctx, hblock, hfetch, hrow, ne_eq, not_true_eq_false, if_false, Bool.not_false,
    Bool.false_eq_true, if_true]

/-! ### DBNZ, BPANY, CALL and JUMP (R468, R469) -/

/-- A context goes to its target or to the next word, and nothing else of it changes. -/
theorem Ctx.ite_advance (c : Ctx) (p : Prop) [Decidable p] (t : Nat) :
    (if p then { c with pc := t } else c.advance) = { c with pc := if p then t else (c.pc + 4) % 2 ^ 64 } := by
  split <;> rfl

/-- p0 reads all ones (R423). -/
theorem Ctx.pr_ne_zero (c : Ctx) (n : Nat) : c.pr n ≠ 0 ↔ n = 0 ∨ mapGet 0 c.p n ≠ 0 := by
  unfold Ctx.pr
  by_cases hn : n = 0 <;> simp [hn]

section
variable {a b i : Nat} (ha : a < 32) (hb : b < 32) (hi : i < 65536)
include ha hb hi

theorem exec_dbnz (h : Issues s e cx c (fI 16 a b i)) : exec (.dbnz e cx) s = .next (
    if a ≠ 0 ∨ b = 0 then s.takeTrap (e * 16 + cx) c .illegalInsn
    else s.setCtx (e * 16 + cx) { c with
      x := mapSet c.x b (c.xr b - 1)
      pc := if c.xr b - 1 = 0 then (c.pc + 4) % 2 ^ 64 else branchTo c.pc i }) := by
  obtain ⟨hop, hwa, hwb, hwi⟩ := fields_fI (op := 16) (by decide) ha hb hi
  refine (exec_issued rfl h hop (Nat.and_zero _)).trans (congrArg _ ?_)
  simp only [hwa, hwb]
  refine ite_congr rfl (fun _ => rfl) fun hlegal => ?_
  have hb0 : b ≠ 0 := fun hb0 => hlegal (.inr hb0)
  rw [Ctx.xr_setX, if_neg hb0, Ctx.setX_eq, if_neg hb0, Ctx.target_eq _ hwi hi, Ctx.ite_advance]
  simp only [bne_iff_ne, ite_not]

theorem exec_bpany (h : Issues s e cx c (fI 17 a b i)) : exec (.bpany e cx) s = .next (
    if 4 ≤ a ∨ b ≠ 0 then s.takeTrap (e * 16 + cx) c .illegalInsn
    else s.setCtx (e * 16 + cx)
      { c with pc := if a = 0 ∨ mapGet 0 c.p a ≠ 0 then branchTo c.pc i else (c.pc + 4) % 2 ^ 64 }) := by
  obtain ⟨hop, hwa, hwb, hwi⟩ := fields_fI (op := 17) (by decide) ha hb hi
  refine (exec_issued rfl h hop (Nat.and_zero _)).trans ?_
  simp only [hwa, hwb, Ctx.target_eq c hwi hi, Ctx.ite_advance, bne_iff_ne, c.pr_ne_zero]

theorem exec_call (h : Issues s e cx c (fI 18 a b i)) : exec (.call e cx) s = .next (
    if b ≠ 0 then s.takeTrap (e * 16 + cx) c .illegalInsn
    else s.setCtx (e * 16 + cx) { wrote c a (BitVec.ofNat 64 (c.pc + 4)) with pc := branchTo c.pc i }) := by
  obtain ⟨hop, hwa, hwb, hwi⟩ := fields_fI (op := 18) (by decide) ha hb hi
  refine (exec_issued rfl h hop (Nat.and_zero _)).trans ?_
  simp only [hwa, hwb, Ctx.target_eq c hwi hi, Ctx.setX_eq, wrote]

/-- JUMP reads its target from the register before the link is written. -/
theorem exec_jump (h : Issues s e cx c (fI 19 a b i)) : exec (.jump e cx) s = .next (
    if branchTo (c.xr b).toNat i % 4 ≠ 0 then s.takeTrap (e * 16 + cx) c .misaligned
    else s.setCtx (e * 16 + cx)
      { wrote c a (BitVec.ofNat 64 (c.pc + 4)) with pc := branchTo (c.xr b).toNat i }) := by
  obtain ⟨hop, hwa, hwb, hwi⟩ := fields_fI (op := 19) (by decide) ha hb hi
  have htarget : ((c.xr b).toNat + sx (wImm (fI 19 a b i)) 16 * 4) % 2 ^ 64 = branchTo (c.xr b).toNat i :=
    Ctx.target_eq { c with pc := (c.xr b).toNat } hwi hi
  refine (exec_issued rfl h hop (Nat.and_zero _)).trans ?_
  simp only [hwa, hwb, htarget, Ctx.setX_eq, wrote]

end
end

/-! ### The obligations -/

/-- Settles O47: the values are those of O58; a unary form with rs2 and a func value of no row trap. -/
theorem integerInstructionsComputeTheirTable : Obligations.IntegerInstructionsComputeTheirTable := by
  refine ⟨?binary, ?unary, ?illegal, fun s e cx c rd a b f hrd ha hb hf hnot h =>
    exec_trap_noRow h (hasRow_unknown_func hrd ha hb hf hnot)⟩
  case binary =>
    intro s e cx c rd a b hrd ha hb x y n
    obtain ⟨add, sub, -, and, or, xor, andn, orn, shl, shr, sar, ror, eq, ne, lt, le, ltu, leu, min, max, minu, maxu, mul,
      mulhiS, mulhiU, div, divu, rem, remu, -⟩ :=
      integerAndBranchInstructionsComplete s e cx c rd a b 0 hrd ha hb (by decide)
    simp only [List.forall_mem_cons, List.not_mem_nil, false_implies, implies_true, and_true]
    exact ⟨add, sub, and, or, xor, andn, orn, shl, shr, sar, ror, eq, ne, lt, le, ltu, leu, min, max, minu, maxu, mul,
      mulhiS, mulhiU, div, divu, rem, remu⟩
  case unary =>
    intro s e cx c rd a hrd ha x
    obtain ⟨-, -, neg, -, -, -, -, -, -, -, -, -, -, -, -, -, -, -, -, -, -, -, -, -, -, -, -, -, -, lzc, tzc, ones, revb, -⟩ :=
      integerAndBranchInstructionsComplete s e cx c rd a 0 0 hrd ha (by decide) (by decide)
    exact ⟨neg, lzc, tzc, ones, revb⟩
  case illegal =>
    intro s e cx c rd a b hrd ha hb0 hb
    simp only [List.forall_mem_cons, List.not_mem_nil, false_implies, implies_true, and_true]
    and_intros <;> exact exec_alu_illegal rfl hrd ha hb (by decide) hb0

/-- Settles O48: the values of the two forms, which recompose. -/
theorem divisionNeverTraps : Obligations.DivisionNeverTraps := by
  intro s t e cx c rd a b hrd ha hb
  have writes {m u f g v} (hm : exec m u = .next (u.alu e cx f false g)) (hf : f < 2048) (hv : g (c.xr a) (c.xr b) = v) :
      Issues u e cx c (fA 1 rd a b f) → Writes m u e cx c rd v := exec_alu hm hrd ha hb hf nofun hv
  constructor
  · intro hs ht
    refine ⟨_, _, writes rfl (by decide) (sdiv_eq_ofInt _ _) hs, writes rfl (by decide) (srem_eq_ofInt _ _) ht,
      signed_division_recomposes _ _, fun hzero => ?_, fun hmin hneg => ?_⟩
    · simp [hzero]
    · rw [hmin, hneg]
      decide
  · intro hs ht
    refine ⟨_, _, writes rfl (by decide) (udiv_eq_ofNat _ _) hs, writes rfl (by decide) (umod_eq_ofNat _ _) ht,
      unsigned_division_recomposes _ _, fun hzero => ?_⟩
    simp [hzero]

/-- Settles O49: the values of O58 and of the shifts; a long shift count and a HIGH with a field b trap. -/
theorem immediateInstructionsComputeTheirTable : Obligations.ImmediateInstructionsComputeTheirTable := by
  refine ⟨?immediate, ?shift, ?high⟩
  case immediate =>
    intro s e cx c a b i ha hb hi x si
    obtain ⟨-, -, -, -, -, -, -, -, -, -, -, -, -, -, -, -, -, -, -, -, -, -, -, -, -, -, -, -, -, -, -, -, -, addI, andI, orI,
      xorI, cmpEqI, cmpLtI, -⟩ := integerAndBranchInstructionsComplete s e cx c a b 0 i ha hb (by decide) hi
    simp only [List.forall_mem_cons, List.not_mem_nil, false_implies, implies_true, and_true]
    exact ⟨addI, andI, orI, xorI, cmpEqI, cmpLtI⟩
  case shift =>
    intro s e cx c a b i ha hb hi x
    have shift {m k g v} (hm : exec m s = .next (s.aluI e cx k (fun w => bits w 15 6 == 0) g)) (hk : k < 64)
        (hv : i < 64 → g x i = v) (h : Issues s e cx c (fI k a b i)) :
        (i < 64 → Writes m s e cx c a v) ∧ (64 ≤ i → exec m s = .next (s.takeTrap (e * 16 + cx) c .illegalInsn)) :=
      ⟨fun hlt => exec_aluI hm hk ha hb hi (shift_legal hlt) (hv hlt) h,
        fun hge => exec_aluI_illegal hm hk ha hb hi (shift_illegal hi hge) h⟩
    simp only [List.forall_mem_cons, List.not_mem_nil, false_implies, implies_true, and_true]
    exact ⟨shift rfl (by decide) fun hlt => by rw [Nat.mod_eq_of_lt hlt, shiftLeft_eq_ofNat],
      shift rfl (by decide) fun hlt => by rw [Nat.mod_eq_of_lt hlt, shiftRight_eq_ofNat],
      shift rfl (by decide) fun hlt => by rw [Nat.mod_eq_of_lt hlt, sshiftRight_eq_ofInt]⟩
  case high =>
    intro s e cx c a b i ha hb hi h
    obtain ⟨-, -, hwb, -⟩ := fields_fI (op := 11) (by decide) ha hb hi
    have hlegal : (wR1 (fI 11 a b i) == 0) = true ↔ b = 0 := by rw [hwb, beq_iff_eq]
    exact ⟨fun hb0 => exec_aluI rfl (by decide) ha hb hi (hlegal.mpr hb0) rfl h,
      fun hb0 => exec_aluI_illegal rfl (by decide) ha hb hi (fun hl => hb0 (hlegal.mp hl)) h⟩

/-- Settles O50: a branch on one register as O58 has it, the others by the rule above of each. -/
theorem branchesAndJumpsGoWhereTheyPoint : Obligations.BranchesAndJumpsGoWhereTheyPoint := by
  refine ⟨?branch, ?dbnz, ?bpany, ?call, ?jump⟩
  case branch =>
    intro s e cx c a b i ha hb hi x
    have taken {m k g t} (hm : exec m s = .next (s.branch e cx k g)) (hk : k < 64) (ht : g x = t)
        (h : Issues s e cx c (fI k a b i)) :
        (a = 0 → Becomes m s e cx { c with pc := if t then branchTo c.pc i else (c.pc + 4) % 2 ^ 64 }) ∧
        (a ≠ 0 → exec m s = .next (s.takeTrap (e * 16 + cx) c .illegalInsn)) :=
      ⟨fun ha0 => exec_branch hm hk hb hi ht (ha0 ▸ h), fun ha0 => exec_branch_illegal hm hk ha hb hi ha0 h⟩
    simp only [List.forall_mem_cons, List.not_mem_nil, false_implies, implies_true, and_true]
    exact ⟨taken rfl (by decide) rfl, taken rfl (by decide) (bne_eq_decide_ne x 0), taken rfl (by decide) rfl,
      taken rfl (by decide) (not_slt_zero x)⟩
  case dbnz =>
    intro s e cx c a b i ha hb hi h
    exact ⟨fun ha0 hb0 => (exec_dbnz ha hb hi h).trans (congrArg _ (if_neg (by omega))),
      fun hill => (exec_dbnz ha hb hi h).trans (congrArg _ (if_pos hill))⟩
  case bpany =>
    intro s e cx c a b i ha hb hi h
    exact ⟨fun ha4 hb0 => (exec_bpany ha hb hi h).trans (congrArg _ (if_neg (by omega))),
      fun hill => (exec_bpany ha hb hi h).trans (congrArg _ (if_pos hill))⟩
  case call =>
    intro s e cx c a b i ha hb hi h
    exact ⟨fun hb0 => (exec_call ha hb hi h).trans (congrArg _ (if_neg (not_not.mpr hb0))),
      fun hb0 => (exec_call ha hb hi h).trans (congrArg _ (if_pos hb0))⟩
  case jump =>
    intro s e cx c a b i ha hb hi h t
    exact ⟨fun haligned => (exec_jump ha hb hi h).trans (congrArg _ (if_neg (not_not.mpr haligned))),
      fun hmisaligned => (exec_jump ha hb hi h).trans (congrArg _ (if_pos hmisaligned))⟩

end
end Sys2Proof.Machine

namespace Sys2Proof.Machine

/-! Aborts (R511, R514, R516, R521 to R523): how the doorbell's value names a slot and a generation, what an abort does to
the slot as it stands, and where its result goes. -/

/-! ### The doorbell -/

@[simp] theorem State.queue_setQueue (s : State) (ld id : Nat) (q : Queue) : (s.setQueue ld id q).queue ld id = some q :=
  mapGet?_set_self ..

@[simp] theorem State.setQueue_scr (s : State) (ld id : Nat) (q : Queue) : (s.setQueue ld id q).scr = s.scr := rfl

@[simp] theorem Queue.slot_setSlot (q : Queue) (k : Nat) (x : QSlot) : (q.setSlot k x).slot k = x := mapGet_set_self ..

/-- Slot, queue and generation of an abort's value, whose other bits are zero (R515). -/
theorem abortValue_fields {id slot gen : Nat} (hid : id < 65536) (hslot : slot < 65536) (hgen : gen < 256) :
    let v := (gen * 2 ^ 48 + id * 2 ^ 32 + slot) % 2 ^ 64
    bellReserved 0x18 v = 0 ∧ bits v 47 32 = id ∧ bits v 15 0 = slot ∧ bits v 55 48 = gen := by
  simp only [bellReserved, bits_eq_div_mod, if_true]
  omega

/-- A doorbell with none accepted before it is acted on at once (R516). -/
theorem State.ring_alone {s : State} (hbells : s.que.bells = []) (ld off value : Nat) :
    s.ring ld off value = s.bell State.fetchAll { ld := ld, off := off, wide := true, value := value % 2 ^ 64 } := by
  have hempty : ({ s with que := { s.que with bells := [] } } : State) = s := by rw [← hbells]
  simp only [ring, runBells, hbells, List.nil_append, List.foldl_cons, List.foldl_nil, hempty]

section
variable {s : State} {ld id : Nat} {q : Queue}

/-- With no ticket waiting, R516 puts no fetch before an abort. -/
theorem State.fetchAll_idle (hq : s.queue ld id = some q) (hwait : q.waiting = 0) : s.fetchAll ld id = s := by
  simp only [fetchAll, hq, hwait, upto, List.range_zero, List.foldl_nil]

/-- An abort behind which no ticket waits is decided against the slot as it stands. -/
theorem State.bell_abort {v slot gen : Nat} (hreserved : bellReserved 0x18 v = 0) (hid : bits v 47 32 = id)
    (hslot : bits v 15 0 = slot) (hgen : bits v 55 48 = gen) (hq : s.queue ld id = some q) (hlt : slot < q.depth)
    (hwait : q.waiting = 0) :
    s.bell State.fetchAll { ld := ld, off := 0x18, wide := true, value := v } = s.bellAbort ld id q slot gen := by
  simp [bell, hreserved, hid, hslot, hgen, hq, Nat.not_le.mpr hlt, fetchAll_idle hq hwait]

theorem exec_abort {slot gen : Nat} (hbell : Claims.Bell s ld id q) (hdepth : q.depth ≤ 4096) (hslot : slot < q.depth)
    (hwait : q.waiting = 0) (hgen : gen < 256) :
    exec (.abort ld (gen * 2 ^ 48 + id * 2 ^ 32 + slot)) s = .next (s.bellAbort ld id q slot gen).settle := by
  obtain ⟨hbells, hq, hld, hid⟩ := hbell
  obtain ⟨hreserved, hvid, hvslot, hvgen⟩ := abortValue_fields hid (by omega : slot < 65536) hgen
  have hrung : s.ring (ld % 128) 0x18 (gen * 2 ^ 48 + id * 2 ^ 32 + slot) = s.bellAbort ld id q slot gen := by
    rw [Nat.mod_eq_of_lt hld, State.ring_alone hbells, State.bell_abort hreserved hvid hvslot hvgen hq hslot hwait]
  exact congrArg (fun t : State => Host.Outcome.next t.settle) hrung

/-! ### The slot (R511, R521, R522) -/

variable {slot gen : Nat}

theorem State.bellAbort_stale (hgen : (q.slot slot).gen ≠ gen) :
    s.bellAbort ld id q slot gen = s.staleTicket.abortNote ld id slot gen St.STALE_TICKET := if_pos hgen

section
variable (hgen : (q.slot slot).gen = gen)
include hgen

theorem State.bellAbort_again (hstate : (q.slot slot).state ≠ .free) (habort : (q.slot slot).aborted = true) :
    s.bellAbort ld id q slot gen = s.abortNote ld id slot gen St.ALREADY_DONE := by
  simp [bellAbort, hgen, hstate, habort]

theorem State.bellAbort_free (hstate : (q.slot slot).state = .free) :
    s.bellAbort ld id q slot gen = s.abortNote ld id slot gen St.STALE_TICKET := by
  simp [bellAbort, hgen, hstate]

theorem State.bellAbort_written (hstate : (q.slot slot).state = .written) :
    s.bellAbort ld id q slot gen = s.abortNote ld id slot gen St.ALREADY_DONE := by
  simp [bellAbort, hgen, hstate]

theorem State.bellAbort_admitted (hstate : (q.slot slot).state = .admitted) (habort : (q.slot slot).aborted = false) :
    s.bellAbort ld id q slot gen = ((s.setQueue ld id (q.setSlot slot { q.slot slot with aborted := true })).postCompletion
      ld id slot 0 St.ABORTED).abortNote ld id slot gen St.ABORTED := by
  simp [bellAbort, hgen, hstate, habort]

theorem State.bellAbort_running {k : Nat} {c : Ctx} (hstate : (q.slot slot).state = .running)
    (habort : (q.slot slot).aborted = false)
    (hctx : s.scr.ctxs.find? (fun p => p.2.ld == ld && p.2.queue == id && p.2.slot == slot) = some (k, c)) :
    s.bellAbort ld id q slot gen =
      (s.setQueue ld id (q.setSlot slot { q.slot slot with aborted := true })).endCtx k St.ABORTED true false := by
  simp [bellAbort, hgen, hstate, habort, hctx]

end

/-! ### The result (R514, R521) -/

variable (hq : s.queue ld id = some q) (status : Nat)
include hq

theorem State.abortNote_posted (hfree : q.noteCount < q.depth) :
    s.abortNote ld id slot gen status = s.postNote ld id slot gen 0 status 1 := by
  simp only [abortNote, hq, Queue.noteFree, hfree, decide_true, if_true]

/-- Without a free note entry the slot holds a result: the one it held, else this one. -/
theorem State.abortNote_held (hfull : q.depth ≤ q.noteCount) :
    s.abortNote ld id slot gen status = (s.setQueue ld id (q.setSlot slot { q.slot slot with
      held := some ((q.slot slot).held.getD (status * 256 + gen)) })).raise Ev.NOTE_RING_FULL := by
  simp only [abortNote, hq, Queue.noteFree, Nat.not_lt.mpr hfull, decide_false, Bool.false_eq_true, if_false]
  cases (q.slot slot).held <;> rfl

end

/-- Settles O44: an abort is decided against its slot, and each clause is the rule above of that slot or of the note ring. -/
theorem abortsEndTicketsInEveryState : Obligations.AbortsEndTicketsInEveryState := by
  refine ⟨?slot, ?result⟩
  case slot =>
    intro s ld id q slot gen hbell hdepth hslot hwait hgen x v
    have decided {u : State} (h : s.bellAbort ld id q slot gen = u) : exec (.abort ld v) s = .next u.settle :=
      h ▸ exec_abort hbell hdepth hslot hwait hgen
    exact ⟨fun hstale => decided (State.bellAbort_stale hstale),
      fun hx hfree => decided (State.bellAbort_free hx hfree),
      fun hx hwritten => decided (State.bellAbort_written hx hwritten),
      fun hx hstate habort => decided (State.bellAbort_again hx hstate habort),
      fun hx hadmitted habort => decided (State.bellAbort_admitted hx hadmitted habort),
      fun k c hx hrunning habort hctx => decided (State.bellAbort_running hx hrunning habort hctx)⟩
  case result =>
    intro s ld id slot gen status q hq
    refine ⟨State.abortNote_posted hq status, fun hfull => ⟨_, State.abortNote_held hq status hfull, ?_, rfl, rfl⟩⟩
    rw [State.queue_setQueue, Option.map_some, Queue.slot_setSlot]
    cases (q.slot slot).held <;> rfl

end Sys2Proof.Machine

namespace Sys2Proof.Machine

/-! What holds of every command (R4, R66, R562, R655), and of the idle step (log entries 1 and 2). -/

/-- No command takes back what `Held` names: the law of its row under `Laws/`. -/
theorem exec_keeps {z s : State} (hK : Keeps z s) : ∀ c : Instr, KeepsRes z (exec c s)
  | .powerOnReset .. => execPowerOnReset_keeps hK
  | .rootPllLock => execRootPllLock_keeps hK
  | .bootVerified .. => execBootVerified_keeps hK
  | .configSetLoad => execConfigSetLoad_keeps hK
  | .powerOnRehearsal .. => execPowerOnRehearsal_keeps hK
  | .railStartFail => execRailStartFail_keeps hK
  | .refclkLost => execRefclkLost_keeps hK
  | .pllUnlock => execPllUnlock_keeps hK
  | .clkHoldoverFail => execClkHoldoverFail_keeps hK
  | .refclkRestored => execRefclkRestored_keeps hK
  | .sysResetN => execSysResetN_keeps hK
  | .sysResetNRelease => execSysResetNRelease_keeps hK
  | .perstN .. => execPerstN_keeps hK
  | .cxlReset .. => execCxlReset_keeps hK
  | .secFault => execSecFault_keeps hK
  | .sceneReq .. => execSceneReq_keeps hK
  | .sceneBoundary => execSceneBoundary_keeps hK
  | .ctlUnmapped .. => execCtlUnmapped_keeps hK
  | .registerWrite .. => execRegisterWrite_keeps hK
  | .linkUp .. => execLinkUp_keeps hK
  | .linkDown .. => execLinkDown_keeps hK
  | .hostLoad .. => execHostLoad_keeps hK
  | .hostStore .. => execHostStore_keeps hK
  | .birsp .. => execBirsp_keeps hK
  | .biSlow => execBiSlow_keeps hK
  | .ideIntegrityFail .. => execIdeIntegrityFail_keeps hK
  | .keyProg .. => execKeyProg_keeps hK
  | .doeRequest .. => execDoeRequest_keeps hK
  | .hdmCommit .. => execHdmCommit_keeps hK
  | .hdmUncommit .. => execHdmUncommit_keeps hK
  | .addCapacity .. => execAddCapacity_keeps hK
  | .releaseCapacity .. => execReleaseCapacity_keeps hK
  | .gpfPhase1 .. => execGpfPhase1_keeps hK
  | .gpfPhase2 .. => execGpfPhase2_keeps hK
  | .identifyMemoryDevice .. => execIdentifyMemoryDevice_keeps hK
  | .getHealthInfo .. => execGetHealthInfo_keeps hK
  | .getTimestamp .. => execGetTimestamp_keeps hK
  | .setTimestamp .. => execSetTimestamp_keeps hK
  | .getSupportedLogs .. => execGetSupportedLogs_keeps hK
  | .getLog .. => execGetLog_keeps hK
  | .getEventRecords .. => execGetEventRecords_keeps hK
  | .clearEventRecords .. => execClearEventRecords_keeps hK
  | .getEventInterruptPolicy .. => execGetEventInterruptPolicy_keeps hK
  | .setEventInterruptPolicy .. => execSetEventInterruptPolicy_keeps hK
  | .getAlertConfiguration .. => execGetAlertConfiguration_keeps hK
  | .setAlertConfiguration .. => execSetAlertConfiguration_keeps hK
  | .getPartitionInfo .. => execGetPartitionInfo_keeps hK
  | .getLsa .. => execGetLsa_keeps hK
  | .setLsa .. => execSetLsa_keeps hK
  | .getPoisonList .. => execGetPoisonList_keeps hK
  | .getFwInfo .. => execGetFwInfo_keeps hK
  | .transferFw .. => execTransferFw_keeps hK
  | .activateFw .. => execActivateFw_keeps hK
  | .mailboxUnsupported .. => execMailboxUnsupported_keeps hK
  | .getDeviceInfo .. => execGetDeviceInfo_keeps hK
  | .getEpoch .. => execGetEpoch_keeps hK
  | .deviceReset .. => execDeviceReset_keeps hK
  | .ldReset .. => execLdReset_keeps hK
  | .regionRead .. => execRegionRead_keeps hK
  | .regionWrite .. => execRegionWrite_keeps hK
  | .accessStage .. => execAccessStage_keeps hK
  | .accessCommit .. => execAccessCommit_keeps hK
  | .accCommit .. => execAccCommit_keeps hK
  | .commitEdge => execCommitEdge_keeps hK
  | .persistBarrier .. => execPersistBarrier_keeps hK
  | .inkRead .. => execInkRead_keeps hK
  | .inkLimitSet .. => execInkLimitSet_keeps hK
  | .inkLimitWrite .. => execInkLimitWrite_keeps hK
  | .sceneSet .. => execSceneSet_keeps hK
  | .maintStatus .. => execMaintStatus_keeps hK
  | .maintCancel .. => execMaintCancel_keeps hK
  | .prepareRemoval .. => execPrepareRemoval_keeps hK
  | .slotPowerOn .. => execSlotPowerOn_keeps hK
  | .ledLocate .. => execLedLocate_keeps hK
  | .freezeSnapshot .. => execFreezeSnapshot_keeps hK
  | .freezeRelease .. => execFreezeRelease_keeps hK
  | .freezeSnapRead .. => execFreezeSnapRead_keeps hK
  | .pbookRead .. => execPbookRead_keeps hK
  | .pbookAck .. => execPbookAck_keeps hK
  | .tallyRead .. => execTallyRead_keeps hK
  | .energyRead .. => execEnergyRead_keeps hK
  | .powerCapSet .. => execPowerCapSet_keeps hK
  | .sentPcap .. => execSentPcap_keeps hK
  | .keyLoad .. => execKeyLoad_keeps hK
  | .keyLoaded .. => execKeyLoaded_keeps hK
  | .keyStatus .. => execKeyStatus_keeps hK
  | .rehearsalRun .. => execRehearsalRun_keeps hK
  | .twinStatus .. => execTwinStatus_keeps hK
  | .queueCreate .. => execQueueCreate_keeps hK
  | .queueDelete .. => execQueueDelete_keeps hK
  | .scriptLoad .. => execScriptLoad_keeps hK
  | .scriptUnload .. => execScriptUnload_keeps hK
  | .eventRoute .. => execEventRoute_keeps hK
  | .classStarved .. => execClassStarved_keeps hK
  | .boundedGateClosed => execBoundedGateClosed_keeps hK
  | .holdPoison => execHoldPoison_keeps hK
  | .stallBoundPoison => execStallBoundPoison_keeps hK
  | .secondCopyBuilt .. => execSecondCopyBuilt_keeps hK
  | .clean => execClean_keeps hK
  | .invalidate => execInvalidate_keeps hK
  | .flush => execFlush_keeps hK
  | .cleanSet .. => execCleanSet_keeps hK
  | .invalidateSet .. => execInvalidateSet_keeps hK
  | .flushSet .. => execFlushSet_keeps hK
  | .cleanAll => execCleanAll_keeps hK
  | .invalidateAll => execInvalidateAll_keeps hK
  | .flushAll => execFlushAll_keeps hK
  | .disable => execDisable_keeps hK
  | .enable => execEnable_keeps hK
  | .wayDisable .. => execWayDisable_keeps hK
  | .wayEnable .. => execWayEnable_keeps hK
  | .scacheMaintDone => execScacheMaintDone_keeps hK
  | .retrainPause .. => execRetrainPause_keeps hK
  | .retrainLate .. => execRetrainLate_keeps hK
  | .refresh .. => execRefresh_keeps hK
  | .makeUpBurst .. => execMakeUpBurst_keeps hK
  | .mergeEntryWrite .. => execMergeEntryWrite_keeps hK
  | .selfRefreshEntry .. => execSelfRefreshEntry_keeps hK
  | .patrolScrub .. => execPatrolScrub_keeps hK
  | .dmcFrozen .. => execDmcFrozen_keeps hK
  | .leafReadDone .. => execLeafReadDone_keeps hK
  | .slowReadAbandon .. => execSlowReadAbandon_keeps hK
  | .quireOpen .. => execQuireOpen_keeps hK
  | .leafProgramDone .. => execLeafProgramDone_keeps hK
  | .eraseDone .. => execEraseDone_keeps hK
  | .journalFlush => execJournalFlush_keeps hK
  | .reclaim .. => execReclaim_keeps hK
  | .cartFailed .. => execCartFailed_keeps hK
  | .reshapeDelayExpiry => execReshapeDelayExpiry_keeps hK
  | .cartPresent .. => execCartPresent_keeps hK
  | .cartAdmitted .. => execCartAdmitted_keeps hK
  | .slotPwrFail .. => execSlotPwrFail_keeps hK
  | .cartRemovable .. => execCartRemovable_keeps hK
  | .cartRemoved .. => execCartRemoved_keeps hK
  | .contextStart => execContextStart_keeps hK
  | .scribeFailed .. => execScribeFailed_keeps hK
  | .dpaOpResponse .. => execDpaOpResponse_keeps hK
  | .blockingRetire .. => execBlockingRetire_keeps hK
  | .add .. => execAdd_keeps hK
  | .sub .. => execSub_keeps hK
  | .neg .. => execNeg_keeps hK
  | .and .. => execAnd_keeps hK
  | .or .. => execOr_keeps hK
  | .xor .. => execXor_keeps hK
  | .andn .. => execAndn_keeps hK
  | .orn .. => execOrn_keeps hK
  | .shl .. => execShl_keeps hK
  | .shr .. => execShr_keeps hK
  | .sar .. => execSar_keeps hK
  | .ror .. => execRor_keeps hK
  | .cmpEq .. => execCmpEq_keeps hK
  | .cmpNe .. => execCmpNe_keeps hK
  | .cmpLt .. => execCmpLt_keeps hK
  | .cmpLe .. => execCmpLe_keeps hK
  | .cmpLtu .. => execCmpLtu_keeps hK
  | .cmpLeu .. => execCmpLeu_keeps hK
  | .min .. => execMin_keeps hK
  | .max .. => execMax_keeps hK
  | .minu .. => execMinu_keeps hK
  | .maxu .. => execMaxu_keeps hK
  | .mul .. => execMul_keeps hK
  | .mulhiS .. => execMulhiS_keeps hK
  | .mulhiU .. => execMulhiU_keeps hK
  | .div .. => execDiv_keeps hK
  | .divu .. => execDivu_keeps hK
  | .rem .. => execRem_keeps hK
  | .remu .. => execRemu_keeps hK
  | .lzc .. => execLzc_keeps hK
  | .tzc .. => execTzc_keeps hK
  | .ones .. => execOnes_keeps hK
  | .revb .. => execRevb_keeps hK
  | .addI .. => execAddI_keeps hK
  | .andI .. => execAndI_keeps hK
  | .orI .. => execOrI_keeps hK
  | .xorI .. => execXorI_keeps hK
  | .cmpEqI .. => execCmpEqI_keeps hK
  | .cmpLtI .. => execCmpLtI_keeps hK
  | .shlI .. => execShlI_keeps hK
  | .shrI .. => execShrI_keeps hK
  | .sarI .. => execSarI_keeps hK
  | .high .. => execHigh_keeps hK
  | .bz .. => execBz_keeps hK
  | .bnz .. => execBnz_keeps hK
  | .bneg .. => execBneg_keeps hK
  | .bnneg .. => execBnneg_keeps hK
  | .dbnz .. => execDbnz_keeps hK
  | .bpany .. => execBpany_keeps hK
  | .call .. => execCall_keeps hK
  | .jump .. => execJump_keeps hK
  | .ld .. => execLd_keeps hK
  | .st .. => execSt_keeps hK
  | .cas .. => execCas_keeps hK
  | .fadd .. => execFadd_keeps hK
  | .vld .. => execVld_keeps hK
  | .vldBc .. => execVldBc_keeps hK
  | .vst .. => execVst_keeps hK
  | .vcmp .. => execVcmp_keeps hK
  | .vsel .. => execVsel_keeps hK
  | .vsum .. => execVsum_keeps hK
  | .vmin .. => execVmin_keeps hK
  | .vminr .. => execVminr_keeps hK
  | .vmax .. => execVmax_keeps hK
  | .vmaxr .. => execVmaxr_keeps hK
  | .sealOpen .. => execSealOpen_keeps hK
  | .sealAdd .. => execSealAdd_keeps hK
  | .sealCommit .. => execSealCommit_keeps hK
  | .pbarLocal .. => execPbarLocal_keeps hK
  | .pbarTwin .. => execPbarTwin_keeps hK
  | .copy .. => execCopy_keeps hK
  | .copyL .. => execCopyL_keeps hK
  | .crc .. => execCrc_keeps hK
  | .hash .. => execHash_keeps hK
  | .probe .. => execProbe_keeps hK
  | .cue .. => execCue_keeps hK
  | .cueR .. => execCueR_keeps hK
  | .waitc .. => execWaitc_keeps hK
  | .notify .. => execNotify_keeps hK
  | .yield .. => execYield_keeps hK
  | .halt .. => execHalt_keeps hK
  | .trap .. => execTrap_keeps hK
  | .rdsr .. => execRdsr_keeps hK
  | .wrsr .. => execWrsr_keeps hK
  | .submissionTail .. => execSubmissionTail_keeps hK
  | .completionHead .. => execCompletionHead_keeps hK
  | .noteHead .. => execNoteHead_keeps hK
  | .abort .. => execAbort_keeps hK
  | .ticketFetch => execTicketFetch_keeps hK
  | .coalesceTimeout => execCoalesceTimeout_keeps hK
  | .integrityFrame .. => execIntegrityFrame_keeps hK
  | .twinLinkDown .. => execTwinLinkDown_keeps hK
  | .hello .. => execHello_keeps hK
  | .heartbeat _ ink => execHeartbeat_keeps (ink := ink) hK
  | .heartbeatSend => execHeartbeatSend_keeps hK
  | .ack .. => execAck_keeps hK
  | .store .. => execStore_keeps hK
  | .sealMsg .. => execSeal_keeps hK
  | .tableSync .. => execTableSync_keeps hK
  | .tableResult .. => execTableResult_keeps hK
  | .fetchReq .. => execFetchReq_keeps hK
  | .fetchData .. => execFetchData_keeps hK
  | .fetchNak .. => execFetchNak_keeps hK
  | .twinFetchFail .. => execTwinFetchFail_keeps hK
  | .journalCopy .. => execJournalCopy_keeps hK
  | .journalReq .. => execJournalReq_keeps hK
  | .checkpointNote _ number _ => execCheckpointNote_keeps (number := number) hK
  | .bitmap .. => execBitmap_keeps hK
  | .resyncFolio .. => execResyncFolio_keeps hK
  | .handbackFolio .. => execHandbackFolio_keeps hK
  | .resyncDone .. => execResyncDone_keeps hK
  | .mirrorReady .. => execMirrorReady_keeps hK
  | .handover _ final => execHandover_keeps (final := final) hK
  | .handoverAck .. => execHandoverAck_keeps hK
  | .handoverAckTimeout => execHandoverAckTimeout_keeps hK
  | .leaseExpired => execLeaseExpired_keeps hK
  | .promoted => execPromoted_keeps hK
  | .soloDeclaration => execSoloDeclaration_keeps hK
  | .twinYield => execTwinYield_keeps hK
  | .disturbance .. => execDisturbance_keeps hK
  | .blip .. => execBlip_keeps hK
  | .sagEnter .. => execSagEnter_keeps hK
  | .sagExit .. => execSagExit_keeps hK
  | .sagHoldEnd => execSagHoldEnd_keeps hK
  | .drop .. => execDrop_keeps hK
  | .strikeDone .. => execStrikeDone_keeps hK
  | .loadInStart => execLoadInStart_keeps hK
  | .reserveShort => execReserveShort_keeps hK
  | .loadInDone => execLoadInDone_keeps hK
  | .holdupTest .. => execHoldupTest_keeps hK
  | .holdupTested .. => execHoldupTested_keeps hK
  | .holdupTestLate => execHoldupTestLate_keeps hK
  | .operation .. => execOperation_keeps hK
  | .clearFaults .. => execClearFaults_keeps hK
  | .voutCommand .. => execVoutCommand_keeps hK
  | .statusWord .. => execStatusWord_keeps hK
  | .readVin .. => execReadVin_keeps hK
  | .readIin .. => execReadIin_keeps hK
  | .readVout .. => execReadVout_keeps hK
  | .readIout .. => execReadIout_keeps hK
  | .readTemperature1 .. => execReadTemperature1_keeps hK
  | .readPout .. => execReadPout_keeps hK
  | .readPin .. => execReadPin_keeps hK
  | .pmbusPoll .. => execPmbusPoll_keeps hK
  | .pcapEstimate .. => execPcapEstimate_keeps hK
  | .meterUpdate .. => execMeterUpdate_keeps hK
  | .rearm .. => execRearm_keeps hK
  | .dvfsRaise .. => execDvfsRaise_keeps hK
  | .dvfsReady => execDvfsReady_keeps hK
  | .stcWdog .. => execStcWdog_keeps hK
  | .stcWatchdog .. => execStcWatchdog_keeps hK
  | .stcReloaded .. => execStcReloaded_keeps hK
  | .coreQuiesce .. => execCoreQuiesce_keeps hK
  | .readPage .. => execReadPage_keeps hK
  | .programPage .. => execProgramPage_keeps hK
  | .eraseSector .. => execEraseSector_keeps hK
  | .suspend .. => execSuspend_keeps hK
  | .resume .. => execResume_keeps hK
  | .protSet .. => execProtSet_keeps hK
  | .protClear .. => execProtClear_keeps hK
  | .lock .. => execLock_keeps hK
  | .pwdSet .. => execPwdSet_keeps hK
  | .fwfOperationEnd .. => execFwfOperationEnd_keeps hK
  | .fwfPwdKey .. => execFwfPwdKey_keeps hK
  | .fwfPwdData .. => execFwfPwdData_keeps hK
  | .thermSample .. => execThermSample_keeps hK
  | .getVersion .. => execGetVersion_keeps hK
  | .getCapabilities .. => execGetCapabilities_keeps hK
  | .negotiateAlgorithms .. => execNegotiateAlgorithms_keeps hK
  | .getDigests .. => execGetDigests_keeps hK
  | .getCertificate .. => execGetCertificate_keeps hK
  | .challenge .. => execChallenge_keeps hK
  | .getMeasurements .. => execGetMeasurements_keeps hK
  | .keyExchange .. => execKeyExchange_keeps hK
  | .finish .. => execFinish_keeps hK
  | .spdmHeartbeat .. => execSpdmHeartbeat_keeps hK
  | .keyUpdate .. => execKeyUpdate_keeps hK
  | .endSession .. => execEndSession_keeps hK
  | .spdmUnsupported .. => execSpdmUnsupported_keeps hK
  | .seedProgram .. => execSeedProgram_keeps hK
  | .keyWrap .. => execKeyWrap_keeps hK
  | .reunwrap .. => execReunwrap_keeps hK
  | .debugUnlock .. => execDebugUnlock_keeps hK
  | .dbgcert .. => execDbgcert_keeps hK
  | .keyAlarm .. => execKeyAlarm_keeps hK
  | .latchProgram => execLatchProgram_keeps hK
  | .sramPatrol .. => execSramPatrol_keeps hK
  | .chkRingTail .. => execChkRingTail_keeps hK
  | .cvDescriptorDone .. => execCvDescriptorDone_keeps hK
  | .unitReset .. => execUnitReset_keeps hK
  | .pbookFire .. => execPbookFire_keeps hK
  | .pbookAckHi .. => execPbookAckHi_keeps hK
  | .ringTailRead .. => execRingTailRead_keeps hK
  | .pbookFlush => execPbookFlush_keeps hK
  | .tallySnap .. => execTallySnap_keeps hK
  | .tallyClear .. => execTallyClear_keeps hK
  | .dramRepair .. => execDramRepair_keeps hK
  | .dramRetrain .. => execDramRetrain_keeps hK
  | .dramRelease .. => execDramRelease_keeps hK
  | .rebuild => execRebuild_keeps hK
  | .reshape => execReshape_keeps hK
  | .slotRemove .. => execSlotRemove_keeps hK
  | .slotAdmit .. => execSlotAdmit_keeps hK
  | .fwUpdate .. => execFwUpdate_keeps hK
  | .twinResync => execTwinResync_keeps hK
  | .plannedHandover .. => execPlannedHandover_keeps hK
  | .scribeSwap .. => execScribeSwap_keeps hK
  | .drainTimeout => execDrainTimeout_keeps hK
  | .sceneChange .. => execSceneChange_keeps hK
  | .rehearsal .. => execRehearsal_keeps hK
  | .powerCycle .. => execPowerCycle_keeps hK
  | .maintStart .. => execMaintStart_keeps hK
  | .maintQry .. => execMaintQry_keeps hK
  | .refclkPresent => execRefclkPresent_keeps hK
  | .railGroupWithinTolerance .. => execRailGroupWithinTolerance_keeps hK
  | .vddAonFall => execVddAonFall_keeps hK
  | .holdupSenseSample .. => execHoldupSenseSample_keeps hK
  | .s2mCreditReturn .. => execS2mCreditReturn_keeps hK
  | .twinLinkTrained .. => execTwinLinkTrained_keeps hK
  | .slotPgoodAsserted .. => execSlotPgoodAsserted_keeps hK
  | .locateExpiry .. => execLocateExpiry_keeps hK

/-- Settles O2: every row of the table builds a next state and nothing else. -/
theorem everyCommandAnswersANextState : Obligations.EveryCommandAnswersANextState := by
  intro c s
  cases c <;> exact ⟨_, rfl⟩

/-- Settles O4: `Held` names all of it. -/
theorem commandsTakeNothingBack : Obligations.CommandsTakeNothingBack := by
  intro c s t h
  obtain ⟨hpending, hclock, hsent, hfresh, hboots, hseeds, hpaired, -⟩ := (exec_keeps (Keeps.refl s) c).elim h
  exact ⟨hpending, hclock, hsent, hfresh, hboots, hseeds, hpaired⟩

/-- Settles O3: a step is a command or an idle microsecond, and the form rides on `Held` in both. -/
theorem everyStepKeepsTheMemoryForm : Obligations.EveryStepKeepsTheMemoryForm := by
  intro s t hwf h
  unfold step at h
  split at h
  next hidle =>
    cases h
    exact s.idle_keeps.mems hwf
  next c rest hfront => exact ((exec_keeps (Keeps.refl { s with pending := rest }) c).elim h).mems hwf

/-- The work of a microsecond lies in the prompt book's tallies and its writer (R170, R709). -/
theorem State.tickWork_proj {α : Type} (π : State → α)
    (h : ∀ (t : State) tallies writer, π { t with pb := { t.pb with tallies := tallies, writer := writer } } = π t)
    (s : State) : π s.tickWork = π s := by
  unfold State.tickWork
  have hsample (t : State) (i v : Nat) : π (t.sample i v) = π t := h t _ t.pb.writer
  split
  · rw [hsample, State.foldl_proj π fun _ _ => hsample _ _ _]
    exact h s s.pb.tallies _
  · exact h s s.pb.tallies _

/-- Settles O1: an idle step is the microsecond's work and the refresh of BLOT_STAT, and neither writes what is named. -/
theorem stepRunsTheFrontCommand : Obligations.StepRunsTheFrontCommand := by
  refine ⟨fun c rest s => rfl, fun s hempty => by rw [step, hempty], fun s => ?_⟩
  have tick {α : Type} (π : State → α) (h : ∀ (t : State) tallies writer,
      π { t with pb := { t.pb with tallies := tallies, writer := writer } } = π t) :=
    State.tickWork_proj π h { s with clock := s.clock + 1 }
  exact ⟨tick State.pending fun _ _ _ => rfl, tick State.clock fun _ _ _ => rfl, tick State.sent fun _ _ _ => rfl,
    tick State.path fun _ _ _ => rfl, tick State.dram fun _ _ _ => rfl, tick State.cache fun _ _ _ => rfl,
    tick State.host fun _ _ _ => rfl, tick State.flash fun _ _ _ => rfl, tick State.twin fun _ _ _ => rfl,
    tick State.maint fun _ _ _ => rfl, tick State.evt fun _ _ _ => rfl, tick (·.pb.ring) fun _ _ _ => rfl⟩

end Sys2Proof.Machine

namespace Sys2Proof.Machine

/-! The count of an event's source entry (R695): what else a raise does leaves it. -/

theorem State.fld_setFld_reg (s : State) {f g : Fld} {i j : Nat} (v : Nat) (h : g.reg.off j ≠ f.reg.off i) :
    (s.setFld f i v).fld g j = s.fld g j := Regs.fld_set_reg s.regs v h

theorem State.fld_setFld_self (s : State) {f : Fld} (i v : Nat) (h : f.lo ≤ f.hi ∧ f.hi < 32) :
    (s.setFld f i v).fld f i = v % 2 ^ (f.hi + 1 - f.lo) := Regs.fld_set_self s.regs i v h

/-- The occurrences counted for an event. -/
def State.count (s : State) (e : Nat) : Nat := s.fld F.EVT_SRC_count e

/-- What every operation of a fold over a state and something else leaves, the fold leaves. -/
theorem State.foldl_fst_proj {α β γ : Type} (π : State → γ) {f : State × β → α → State × β}
    (h : ∀ p a, π (f p a).1 = π p.1) (l : List α) (p : State × β) : π (l.foldl f p).1 = π p.1 := by
  induction l generalizing p with
  | nil => rfl
  | cons a t ih => exact (ih _).trans (h p a)

section
variable {e : Nat} (he : e < 4096)
include he

theorem State.count_setFld_above (s : State) {f : Fld} (i v : Nat) (h : 0x2704000 ≤ f.reg.off i) :
    (s.setFld f i v).count e = s.count e := by
  refine s.fld_setFld_reg v ?_
  have hoff : F.EVT_SRC_count.reg.off e = 0x2700000 + 4 * e := rfl
  omega

omit he in
theorem State.count_addSat_other (s : State) {d : Nat} (v : Nat) (h : e ≠ d) :
    (s.addSat F.EVT_SRC_count d v).count e = s.count e := by
  refine s.fld_setFld_reg _ ?_
  have hoff (k : Nat) : F.EVT_SRC_count.reg.off k = 0x2700000 + 4 * k := rfl
  rw [hoff, hoff]
  omega

omit he in
theorem State.count_addSat_self (s : State) : (s.addSat F.EVT_SRC_count e 1).count e = min 0xFFFF (s.count e + 1) := by
  refine (s.fld_setFld_self e _ (by decide)).trans ?_
  simp only [F.EVT_SRC_count, satTo, State.count]
  omega

theorem State.count_pbWrite (s : State) (kind sev event trigger detail : Nat) (caps : List (Nat × Nat)) :
    (s.pbWrite kind sev event trigger detail caps).1.count e = s.count e := by
  unfold State.pbWrite
  split
  · refine s.count_setFld_above he _ _ ?_
    unfold pbDropFld
    split <;> decide
  · refine (State.count_setFld_above he _ _ _ (by decide)).trans <| (State.count_setFld_above he _ _ _ (by decide)).trans <|
      (State.count_setFld_above he _ _ _ (by decide)).trans <| State.count_setFld_above he _ _ _ (by decide)

theorem State.count_pbRecord (s : State) (event sev detail : Nat) (always : Bool) :
    (s.pbRecord event sev detail always).1.count e = s.count e := by
  unfold State.pbRecord
  split
  · split
    · exact s.count_pbWrite he ..
    · rfl
  · refine State.foldl_fst_proj (fun t : State => t.count e) (fun p t => ?_) _ (s, false)
    generalize hw : p.1.pbWrite 2 _ event t detail _ = w
    exact hw ▸ p.1.count_pbWrite he ..

theorem State.count_toCore (s : State) (event sev seq detail : Nat) :
    (s.toCore event sev seq detail).1.count e = s.count e := by
  unfold State.toCore
  split
  · rfl
  · dsimp only
    split
    · rfl
    · refine s.count_setFld_above he _ _ ?_
      exact Nat.le_add_right 0x2704000 _

omit he in
theorem State.count_toHosts (s : State) (event sev seq detail : Nat) :
    (s.toHosts event sev seq detail).count e = s.count e := by
  have hhost (t : State) (n byte : Nat) : (t.toHost event sev seq detail n byte).count e = t.count e := by
    unfold State.toHost
    dsimp only
    split <;> rfl
  unfold State.toHosts
  split
  · rfl
  · refine State.foldl_proj (State.count · e) (fun t p => ?_) _
    split
    · exact hhost t _ _
    · rfl

theorem State.count_raiseOverflow (s : State) (h : e ≠ Ev.EVT_OVERFLOW) : s.raiseOverflow.count e = s.count e := by
  unfold State.raiseOverflow
  split
  · exact (State.count_toHosts _ _ _ _ _).trans <| (State.count_pbRecord he _ _ _ _ _).trans <|
      State.count_addSat_other _ 1 h
  · rfl

theorem State.count_raiseDropped (s : State) (ho : e ≠ Ev.EVT_OVERFLOW) (hd : e ≠ Ev.PBOOK_DROPPED) :
    s.raiseDropped.count e = s.count e := by
  unfold State.raiseDropped
  split
  · have hsent (t : State) : ((t.toCore Ev.PBOOK_DROPPED 1 0 0).1.toHosts Ev.PBOOK_DROPPED 1 0 0).count e = t.count e :=
      (State.count_toHosts _ _ _ _ _).trans (t.count_toCore he ..)
    dsimp only
    split
    · exact (State.count_raiseOverflow he _ ho).trans <| (hsent _).trans <| State.count_addSat_other _ 1 hd
    · exact (hsent _).trans <| State.count_addSat_other _ 1 hd
  · rfl

theorem State.count_raiseSev (s : State) (sev detail : Nat) (record : Bool) (ho : e ≠ Ev.EVT_OVERFLOW)
    (hd : e ≠ Ev.PBOOK_DROPPED) : (s.raiseSev e sev detail record).count e = min 0xFFFF (s.count e + 1) := by
  have hdropped (t : State) (b : Bool) : (if b then t.raiseDropped else t).count e = t.count e := by
    split
    · exact t.count_raiseDropped he ho hd
    · rfl
  have hovf (t : State) (b : Bool) : (if b then t.raiseOverflow else t).count e = t.count e := by
    split
    · exact t.count_raiseOverflow he ho
    · rfl
  exact (hovf _ _).trans <| (hdropped _ _).trans <| (State.count_toHosts _ _ _ _ _).trans <|
    (State.count_toCore he _ _ _ _ _).trans <| (State.count_pbRecord he _ _ _ _ _).trans s.count_addSat_self

end

/-- Settles O6: the frame is `raiseSev_only`, the count the one that the raise begins with. -/
theorem raisingAnEventTouchesOnlyTheRecord : Obligations.RaisingAnEventTouchesOnlyTheRecord :=
  fun s _ sev detail record =>
    ⟨raiseSev_only (OnlyEvents.refl s) .., fun he ho hd => s.count_raiseSev he sev detail record ho hd⟩

end Sys2Proof.Machine

namespace Sys2Proof.Machine

/-! Twin messages before their body is read (R537, R538, R540, R668). -/

section
open Sys2Proof.Claims

variable {s : State} {h : TwinHead} {m : Instr}

/-- Every message but HELLO is received under its type of R540; only HANDOVER_ACK has type 0x41. -/
theorem exec_twinMessage (hm : TwinMessage h m ∨ m = .handoverAck h) : ∃ (type : Nat) (body : State → State),
    (type = 0x41 → m = .handoverAck h) ∧ ∀ s, exec m s = .next (s.receive h type body).settle := by
  rcases hm with (⟨_, rfl⟩ | rfl | ⟨_, rfl⟩ | ⟨_, rfl⟩ | ⟨_, _, _, _, rfl⟩ | ⟨_, _, rfl⟩ | ⟨_, _, rfl⟩ | ⟨_, _, _, rfl⟩ |
    ⟨_, _, rfl⟩ | ⟨_, _, _, _, rfl⟩ | ⟨_, rfl⟩ | ⟨_, _, rfl⟩ | ⟨_, _, rfl⟩ | ⟨_, _, _, rfl⟩ | ⟨_, _, _, rfl⟩ | ⟨_, _, rfl⟩ |
    ⟨_, rfl⟩ | ⟨_, rfl⟩) | rfl
  case inr => exact ⟨0x41, _, fun _ => rfl, fun _ => rfl⟩
  all_goals exact ⟨_, _, fun htype => absurd htype (by decide), fun _ => rfl⟩

theorem State.receive_deaf (hdeaf : s.twinUp = false ∨ s.fld F.SEC_SLOT_state 240 = 2) (type : Nat)
    (body : State → State) : s.receive h type body = s := by
  have hoff : (!s.twinUp || s.fld F.SEC_SLOT_state 240 == 2) = true := by simpa using hdeaf
  simp only [State.receive, hoff, if_true]

section
variable (hup : s.twinUp = true) (hslot : s.fld F.SEC_SLOT_state 240 ≠ 2) (hsettled : s.twin.toSettle = false)
  {type : Nat} (body : State → State)
include hup hslot hsettled

theorem State.receive_stale (hold : h.epoch < s.epoch) :
    s.receive h type body = (s.addSat F.TWIN_STALE_CNT_count 0 1).raise Ev.TWIN_STALE := by
  simp [State.receive, hup, beq_false_of_ne hslot, hsettled, hold]

theorem State.receive_newer (hnew : s.epoch < h.epoch) (hlead : type ≠ 0x41 ∨ s.role ≠ 1 ∨ s.twin.handover = none) :
    s.receive h type body = s.outdated := by
  have hwait : (type == 0x41 && s.role == 1 && s.twin.handover.isSome) = false := by
    simpa only [Bool.and_eq_false_iff, beq_eq_false_iff_ne, Option.isSome_eq_false_iff, Option.isNone_iff_eq_none,
      or_assoc] using hlead
  simp only [State.receive, hup, beq_false_of_ne hslot, hsettled, hwait, hnew, Nat.lt_asymm hnew, Bool.not_true,
    Bool.not_false, Bool.or_self, Bool.false_eq_true, if_false, false_and, and_self, if_true]

omit hsettled in
theorem State.receive_gap (hsame : h.epoch = s.epoch) (hgap : h.seq ≠ (s.twin.recvSeq + 1) % 2 ^ 32) :
    s.receive h type body = s.twinBothDown := by
  simp only [State.receive, hup, beq_false_of_ne hslot, hsame, hgap, Nat.lt_irrefl, Bool.not_true, Bool.or_self,
    Bool.false_eq_true, if_false, false_and, ne_eq, not_false_eq_true, if_true]

end

/-- Settles O40: every message of R540 is received, and each clause is the rule above of what its head meets. -/
theorem twinMessagesAreCheckedBeforeTheyAreTaken : Obligations.TwinMessagesAreCheckedBeforeTheyAreTaken := by
  intro s h m hm
  obtain ⟨type, body, hack, hexec⟩ := exec_twinMessage hm
  rw [hexec]
  refine ⟨fun hdeaf => ?_, fun hup hslot hsettled => ⟨fun hold => ?_, fun hnew hlead => ?_, fun hsame hgap => ?_⟩⟩
  · rw [State.receive_deaf hdeaf]
  · rw [State.receive_stale hup hslot hsettled body hold]
  · rw [State.receive_newer hup hslot hsettled body hnew (hlead.imp_left fun hne htype => hne (hack htype)), State.outdated]
  · rw [State.receive_gap hup hslot body hsame hgap, State.twinBothDown]

end

end Sys2Proof.Machine

namespace Sys2Proof.Machine

/-! The twin link, roles, leases and timers (R530 to R567, R770). -/

/-- A command that ends with the pass is known by the state that the pass meets. -/
theorem next_settle {t u : State} (h : t = u) : (.next t.settle : Res) = .next u.settle := congrArg _ (congrArg _ h)

section
variable {s : State}

/-! ### The link (R530, R533, R535) -/

/-- The state of the link before a link training is acted on: the widths that the training shows. -/
def State.withWidths (s : State) (w0 w1 : Nat) : State := { s with twin := { s.twin with width0 := w0, width1 := w1 } }

/-- A width that is neither 8 nor 16 is none (R530). -/
def trainedWidth (w : Nat) : Nat := if w = 8 ∨ w = 16 then w else 0

theorem State.twinTrained_none {w0 w1 : Nat} (h0 : trainedWidth w0 = 0) (h1 : trainedWidth w1 = 0) (session : Bool) :
    s.twinTrained w0 w1 session = s.withWidths 0 0 := by
  unfold trainedWidth at h0 h1
  simp only [State.twinTrained, h0, h1, and_self, if_true, State.withWidths]

/-- The link whose session is made, before HELLO goes out: both nonce counters at 0 and all four keys loaded (R534, R665). -/
def State.twinKeyed (s : State) : State :=
  (((([240, 241, 242, 243].foldl (fun (st : State) k => st.setKeySlot k 1 2)
    { s with sec := { s.sec with counters := mapDel (mapDel s.sec.counters 8) 9 } }).setTwinLink 3).setFld
      F.SEC_CNT_twin_near 0 0).setFld F.SEC_CNT_twin_done 0 0)

theorem State.twinKeyed_link : s.twinKeyed.fld F.TWIN_STAT_link 0 = 3 :=
  (State.fld_setFld_reg _ 0 (by decide)).trans <| (State.fld_setFld_reg _ 0 (by decide)).trans <|
    State.fld_setFld_self _ 0 3 (by decide)

theorem State.twinTrained_first {w0 : Nat} (hw0 : trainedWidth w0 ≠ 0) (hup : s.twinUp = false) (hpairs : s.pairs = true)
    (hctl : s.pwr.ctlUp = true) (hstrike : s.inStrike = false) (hlink : s.fld F.TWIN_STAT_link 0 < 3) (w1 : Nat)
    (session : Bool) : s.twinTrained w0 w1 session =
      if session then (s.withWidths (trainedWidth w0) (trainedWidth w1)).twinKeyed.sendHello
      else ((s.withWidths (trainedWidth w0) (trainedWidth w1)).setTwinLink 2).raise Ev.SPDM_AUTH_FAIL := by
  have hthree : ¬ 3 ≤ s.fld F.TWIN_STAT_link 0 := by omega
  unfold trainedWidth at hw0
  simp only [State.twinTrained, hw0, hup, hpairs, hctl, hstrike, hthree, false_and, if_false, Bool.not_true, Bool.or_self,
    decide_false, Bool.false_eq_true]
  rfl

/-- A link without its training. -/
def State.linkOut (s : State) (link : Nat) : State :=
  { s with twin := if link = 0 then { s.twin with width0 := 0 } else { s.twin with width1 := 0 } }

theorem State.twinLose_eq (link : Nat) : s.twinLose link =
    if (s.linkOut link).twin.width0 = 0 ∧ (s.linkOut link).twin.width1 = 0 then (s.linkOut link).twinFall 0
    else if s.twinUp && s.fld F.TWIN_STAT_link 0 != 5 then ((s.linkOut link).setTwinLink 5).raise Ev.TWIN_DEGRADED
    else s.linkOut link := by
  unfold State.twinLose State.linkOut
  by_cases h : link = 0
  · simp only [h, if_true]; rfl
  · simp only [h, if_false]; rfl

theorem State.integrityFrame_good {link : Nat} (hslot : s.fld F.SEC_SLOT_state (240 + 2 * (link % 2)) ≠ 2)
    (hcount : (s.countNonce (8 + link % 2)).2 = true) :
    s.integrityFrame link true = (s.countNonce (8 + link % 2)).1 := by
  simp only [State.integrityFrame, bne_iff_ne.mpr hslot, hcount, Bool.and_self, if_true]

/-! ### HELLO (R545) -/

theorem State.hello_deaf (hdeaf : s.pairs = false ∨ s.fld F.TWIN_STAT_link 0 < 3 ∨ s.fld F.TWIN_STAT_link 0 = 7) (p : Peer) :
    s.hello p = s := by
  have hoff : (!s.pairs || decide (s.fld F.TWIN_STAT_link 0 < 3) || s.fld F.TWIN_STAT_link 0 == 7) = true := by
    simpa only [Bool.or_eq_true, Bool.not_eq_true', decide_eq_true_eq, beq_iff_eq, or_assoc] using hdeaf
  rw [State.hello, if_pos hoff]

theorem State.hello_trained (hpairs : s.pairs = true) (hlink : s.fld F.TWIN_STAT_link 0 = 3) (p : Peer) :
    s.hello p = if (((s.helloNote p).helloId p.id).helloUp).mayTakeRole then ((s.helloNote p).helloId p.id).helloUp.settleRoles
      else ((s.helloNote p).helloId p.id).helloUp := by
  simp only [State.hello, hpairs, hlink, Bool.not_true, Nat.lt_irrefl, decide_false, Bool.or_self, Bool.false_eq_true, if_false,
    if_true, Nat.reduceBEq]

/-! ### Heartbeats and leases (R553, R554) -/

theorem State.heartbeatSend_quiet (h : s.role ≠ 1 ∨ s.twinUp = false ∨ s.twin.heartbeatStopped = true ∨
    (s.clock < s.twin.lastBeat + 2000 ∧ s.clock < s.twin.lastSent + 2000)) : s.heartbeatSend = s := by
  refine if_neg fun hgo => ?_
  simp only [Bool.and_eq_true, Bool.or_eq_true, beq_iff_eq, Bool.not_eq_true', State.due, decide_eq_true_eq] at hgo
  obtain ⟨⟨⟨hrole, hup⟩, hbeats⟩, hdue⟩ := hgo
  rcases h with h | h | h | ⟨hbeat, hsent⟩
  · exact h hrole
  · exact Bool.false_ne_true (h.symm.trans hup)
  · exact Bool.false_ne_true (hbeats.symm.trans h)
  · omega

theorem State.heartbeatSend_due (hrole : s.role = 1) (hup : s.twinUp = true) (hgoes : s.twin.heartbeatStopped = false)
    (hdue : s.twin.lastBeat + 2000 ≤ s.clock) : s.heartbeatSend.twin.lastBeat = s.clock ∧
      s.heartbeatSend.sent = s.sent ++ [.twin s.epoch ((s.twin.sendSeq + 1) % 2 ^ 32) s.twin.ackedSeq
        (.heartbeat (s.fld F.INK_CNT_ink 0))] ∧ s.heartbeatSend.regs = s.regs := by
  have hgo : (s.role == 1 && s.twinUp && !s.twin.heartbeatStopped &&
      (s.due s.twin.lastBeat 2000 || s.due s.twin.lastSent 2000)) = true := by
    simp [hrole, hup, hgoes, State.due, hdue]
  rw [State.heartbeatSend, if_pos hgo]
  dsimp only
  split <;> exact ⟨rfl, rfl, rfl⟩

theorem State.leaseExpired_kept (h : s.role ≠ 1 ∨ s.twin.leaseEnd = none ∨ ∃ t, s.twin.leaseEnd = some t ∧ s.clock < t) :
    s.leaseExpired = s := by
  unfold State.leaseExpired
  split
  case h_1 => rfl
  case h_2 t ht =>
    refine if_neg fun hend => ?_
    obtain ⟨hrole, hpast⟩ : s.role = 1 ∧ t ≤ s.clock := by simpa using hend
    rcases h with h | h | ⟨u, hu, hlate⟩
    · exact h hrole
    · exact Option.some_ne_none t (ht.symm.trans h)
    · cases ht.symm.trans hu
      omega

theorem State.leaseExpired_over {t : Nat} (hrole : s.role = 1) (ht : s.twin.leaseEnd = some t) (hpast : t ≤ s.clock) :
    s.leaseExpired = ((({ s with twin := { s.twin with leaseEnd := none } } : State).setFlag F.TWIN_STAT_fenced 0 true).raise
      Ev.LEASE_EXPIRED) := by
  simp [State.leaseExpired, hrole, ht, hpast]

/-! ### Promotion, solo declaration, handover time-out, yield (R555, R556, R561, R567) -/

theorem State.promote_early (h : s.role ≠ 2 ∨ s.clock < s.twin.lastHeard + 6000) : s.promote = s := by
  refine if_neg fun hgo => ?_
  obtain ⟨hrole, hdue⟩ : s.role = 2 ∧ s.twin.lastHeard + 6000 ≤ s.clock := by simpa [State.due] using hgo
  rcases h with h | h
  · exact h hrole
  · omega

section
variable (hrole : s.role = 2) (hdue : s.twin.lastHeard + 6000 ≤ s.clock)
include hrole hdue

theorem State.promote_synced (hsync : s.synced = true) (hepoch : s.epoch < 0xFFFFFFFF) (hroom : s.epochRoom = true) :
    s.promote = ((s.raise Ev.PROMOTED).tookOver).takeRole 3 (s.epoch + 1) := by
  simp [State.promote, State.due, hrole, hdue, hsync, hepoch, hroom]

theorem State.promote_unsynced (hsync : s.synced = false) (hfirst : s.twin.lostRaised = false) :
    s.promote = ({ s with twin := { s.twin with lostRaised := true } } : State).raise Ev.HEARTBEAT_LOST := by
  simp [State.promote, State.due, hrole, hdue, hsync, hfirst]

end

theorem State.solo_declared (hmay : s.role = 0 ∨ s.role = 2 ∨ (s.role = 1 ∧ s.fenced = true))
    (hepoch : s.epoch ≠ 0xFFFFFFFF) (hroom : s.epochRoom = true) :
    s.solo = (if s.role = 1 then s else s.tookOver).takeRole 3 (s.epoch + 1) := by
  have hrole : (s.role == 0 || s.role == 2 || (s.role == 1 && s.fenced)) = true := by
    simpa [or_assoc] using hmay
  have hdone : s.soloStatus = St.DONE := by simp [State.soloStatus, hrole, hepoch, hroom]
  rw [State.solo, if_pos hdone]

theorem State.solo_refused (h : s.role = 3 ∨ (s.role = 1 ∧ s.fenced = false)) : s.solo = s := by
  have hill : s.soloStatus = St.ILLEGAL := by
    rcases h with h | ⟨h, hfenced⟩
    · simp [State.soloStatus, h]
    · simp [State.soloStatus, h, hfenced]
  rw [State.solo, if_neg (by rw [hill]; decide)]

theorem State.handoverTimeout_kept (h : s.role ≠ 1 ∨ s.twin.newLeadSince = none) : s.handoverTimeout = s := by
  unfold State.handoverTimeout
  split
  case h_1 => rfl
  case h_2 t ht =>
    have hrole : s.role ≠ 1 := h.resolve_right (by simp [ht])
    simp [hrole]

theorem State.handoverTimeout_due {t : Nat} (hrole : s.role = 1) (ht : s.twin.newLeadSince = some t)
    (hdue : t + 6000 ≤ s.clock) : s.handoverTimeout =
      ({ s with twin := { s.twin with newLeadSince := none } } : State).takeRole 3 s.epoch := by
  simp [State.handoverTimeout, State.due, hrole, ht, hdue]

/-! ### Resync and fetches (R564, R570) -/

theorem State.twinResync_jobless (hjobs : ∀ j ∈ s.maint.jobs, j.act ≠ 9) : s.twinResync = s.resyncStep := by
  have hnone : s.maint.jobs.find? (fun j => j.act == 9 && j.state == 0) = none :=
    List.find?_eq_none.mpr fun j hj => by simp [hjobs j hj]
  simp only [State.twinResync, hnone]

theorem State.resyncStep_linkless (hup : s.twinUp = false) : s.resyncStep = s := by
  simp [State.resyncStep, hup]

theorem State.resyncStep_folio {f : Nat} {rest : List Nat} (hup : s.twinUp = true) (hrole : s.role ≠ 2)
    (hsends : s.twin.resyncSends = true) (hmap : s.twin.bitmapDue = false) (htables : s.region.tableSync = [])
    (hdone : s.twin.resyncDoneSeq = none) (hleft : s.twin.resyncLeft = f :: rest) : s.resyncStep =
      ((({ s with twin := { s.twin with resyncLeft := rest } } : State).sendWhole false f).resyncProgress) := by
  simp only [State.resyncStep, hup, beq_false_of_ne hrole, hsends, hmap, htables, hdone, hleft, Bool.not_true, Bool.not_false,
    Bool.or_self, Bool.and_false, Option.isSome_none, List.isEmpty_nil, Bool.false_eq_true, if_false]

theorem State.fetchTimeout_unknown {i : Nat} (h : s.twin.fetches.find? (fun j => j.id == i) = none) :
    s.fetchTimeout i = s := by
  simp only [State.fetchTimeout, h]

theorem State.fetchTimeout_known {i : Nat} {j : FetchJob} (h : s.twin.fetches.find? (fun j => j.id == i) = some j) :
    s.fetchTimeout i = if j.since + s.fld F.TWIN_CFG_fetch_ms 0 * 1000 ≤ s.clock then
      (((s.dropFetch i).raiseD Ev.TWIN_FETCH_FAIL (j.folio * 65536)).fetchLost j) else s := by
  simp only [State.fetchTimeout, h, State.due, decide_eq_true_eq]

/-! ### Second copies (R557, R770) -/

theorem State.secondBuilt_idle (h : s.ink.building = false) (f : Nat) : s.secondBuilt f = s := by
  simp [State.secondBuilt, h]

theorem State.secondBuilt_more {f : Nat} (h : s.ink.building = true) (hleft : (s.buildSecond f).lacking ≠ []) :
    s.secondBuilt f = s.buildSecond f := by
  simp [State.secondBuilt, h, hleft]

theorem State.secondBuilt_last {f : Nat} (h : s.ink.building = true) (hlast : (s.buildSecond f).lacking = []) :
    s.secondBuilt f = ({ s.buildSecond f with ink := { (s.buildSecond f).ink with building := false } } : State).setFlag
      F.TWIN_STAT_solo_copies 0 false := by
  simp [State.secondBuilt, h, hlast]

theorem State.folio_setFolio (f : Nat) (x : Folio) (dram : DramUnit) :
    ({ s.setFolio f x with dram := dram } : State).folio f = x := by
  simp only [State.folio, State.setFolio, mapGet?_set_self]

theorem State.buildSecond_second {f : Nat} (hink : (s.folio f).isInk = true) (hlack : (s.folio f).covered = false)
    (hhere : (s.folio f).state ≠ .absent) (hchan : s.chanFrozen (chanOf (s.folio f).frame) = false)
    (hpair : (((s.folioCells f).2.takePair f).folio f).pairFrame ≠ none) :
    ((s.buildSecond f).folio f).second = some allLines := by
  have hsome : (((s.folioCells f).2.takePair f).folio f).pairFrame.isNone = false :=
    Option.isNone_eq_false_iff.mpr (Option.isSome_iff_ne_none.mpr hpair)
  have hmay : ((s.folio f).isInk && !(s.folio f).covered && (s.folio f).state != .absent &&
      !s.chanFrozen (chanOf (s.folio f).frame)) = true := by simp [hink, hlack, hhere, hchan]
  simp only [State.buildSecond, hmay, hsome, if_true, Bool.false_eq_true, if_false, State.folio_setFolio]

end

/-- Settles O42: each clause is the rule above of its command. -/
theorem twinRolesLeasesAndTimers : Obligations.TwinRolesLeasesAndTimers := by
  refine ⟨?trained, ?down, ?frame, ?hello, ?beat, ?lease, ?promoted, ?solo, ?ack, ?yield, ?resync, ?fetch, ?second⟩
  case trained =>
    intro s w0 w1 session
    refine ⟨fun h0 h0' h1 h1' => ?_, fun h0 hup hpairs hctl hstrike hlink => ?_⟩
    · exact next_settle (State.twinTrained_none (by simp [trainedWidth, h0, h0'])
        (by simp [trainedWidth, h1, h1']) session)
    · have h := State.twinTrained_first (w0 := w0) (by simp [trainedWidth, h0]) hup hpairs hctl hstrike hlink w1 session
      cases session
      case false =>
        refine ⟨s.withWidths (trainedWidth w0) (trainedWidth w1), fun _ => ⟨?_, ?_, rfl⟩, nofun⟩
        · exact next_settle h
        · simp [State.withWidths, trainedWidth, h0]
      case true =>
        refine ⟨(s.withWidths (trainedWidth w0) (trainedWidth w1)).twinKeyed, nofun, fun _ => ⟨?_, State.twinKeyed_link⟩⟩
        exact next_settle h
  case down =>
    intro s link
    have h := State.twinLose_eq (s := s) link
    refine ⟨s.linkOut link, rfl, fun hnone => ?_, fun hone hup hfive => ?_⟩
    · exact next_settle (h.trans (if_pos hnone))
    · have hdegrade : (s.twinUp && s.fld F.TWIN_STAT_link 0 != 5) = true := by simp [hup, hfive]
      refine next_settle (h.trans ((if_neg ?_).trans (if_pos hdegrade)))
      exact fun hnone => hone.elim (· hnone.1) (· hnone.2)
  case frame =>
    exact fun s link => ⟨rfl, fun hslot hcount =>
      next_settle (State.integrityFrame_good hslot hcount)⟩
  case hello =>
    intro s id epoch role dv sy de gr pl held
    refine ⟨fun hdeaf => next_settle (State.hello_deaf hdeaf _), fun hpairs hlink => ?_⟩
    refine ⟨_, rfl, _, rfl, fun hmay => ?_, fun hmay => ?_⟩
    · rw [State.hello_trained hpairs hlink, if_pos hmay]
    · rw [State.hello_trained hpairs hlink, hmay, if_neg Bool.false_ne_true]
  case beat =>
    exact fun s => ⟨fun h => congrArg Host.Outcome.next (State.heartbeatSend_quiet h),
      fun hrole hup hgoes hdue => ⟨_, rfl, State.heartbeatSend_due hrole hup hgoes hdue⟩⟩
  case lease =>
    exact fun s => ⟨fun t hrole ht hpast => next_settle (State.leaseExpired_over hrole ht hpast),
      fun h => next_settle (State.leaseExpired_kept h)⟩
  case promoted =>
    exact fun s => ⟨fun h => next_settle (State.promote_early h),
      fun hrole hdue hsync hepoch hroom =>
        next_settle (State.promote_synced hrole hdue hsync hepoch hroom),
      fun hrole hdue hsync hfirst => next_settle (State.promote_unsynced hrole hdue hsync hfirst)⟩
  case solo =>
    refine fun s => ⟨fun hrole hepoch hroom => ?_, fun hrole hfenced hepoch hroom => ?_,
      fun h => next_settle (State.solo_refused h)⟩
    · have h := State.solo_declared (hrole.imp_right Or.inl) hepoch hroom
      rw [if_neg (by omega)] at h
      exact next_settle h
    · have h := State.solo_declared (.inr (.inr ⟨hrole, hfenced⟩)) hepoch hroom
      rw [if_pos hrole] at h
      exact next_settle h
  case ack =>
    exact fun s => ⟨fun t hrole ht hdue => next_settle (State.handoverTimeout_due hrole ht hdue),
      fun h => next_settle (State.handoverTimeout_kept h)⟩
  case yield => exact fun s => ⟨fun h => congrArg Host.Outcome.next (if_neg h), fun h => congrArg Host.Outcome.next (if_pos h)⟩
  case resync =>
    intro s hjobs
    have hexec : exec .twinResync s = .next s.resyncStep.settle :=
      next_settle (State.twinResync_jobless hjobs)
    refine ⟨fun hup => ?_, fun f rest hup hrole hsends hmap htables hdone hleft => ?_⟩
    · rw [hexec, State.resyncStep_linkless hup]
    · rw [hexec, State.resyncStep_folio hup hrole hsends hmap htables hdone hleft]
  case fetch =>
    refine fun s i => ⟨fun h => next_settle (State.fetchTimeout_unknown h), fun j h => ?_⟩
    have hknown := State.fetchTimeout_known h
    exact ⟨fun hdue => next_settle (hknown.trans (if_pos hdue)),
      fun hearly => next_settle (hknown.trans (if_neg (Nat.not_le.mpr hearly)))⟩
  case second =>
    exact fun s f => ⟨fun h => next_settle (State.secondBuilt_idle h f),
      fun h hmore => next_settle (State.secondBuilt_more h hmore),
      fun h hlast => next_settle (State.secondBuilt_last h hlast),
      State.buildSecond_second⟩

end Sys2Proof.Machine

namespace Sys2Proof.Machine

/-! Disturbances of the mains (R576 to R581, R610): what a sample shows, and how each class begins and ends. -/

/-- Another field of the same register after a write of a one-bit field. -/
theorem State.fld_setFlag_other (s : State) {f g : Fld} (i : Nat) (b : Bool) (hf : f.lo ≤ f.hi ∧ f.hi < 32)
    (hreg : g.reg = f.reg) (hapart : f.hi < g.lo ∨ g.hi < f.lo) : (s.setFlag f i b).fld g i = s.fld g i :=
  Regs.fld_set_other s.regs i (b2n b) hf hreg hapart

theorem State.flag_setFlag_other (s : State) {f g : Fld} (i : Nat) (b : Bool) (hf : f.lo ≤ f.hi ∧ f.hi < 32)
    (hreg : g.reg = f.reg) (hapart : f.hi < g.lo ∨ g.hi < f.lo) : (s.setFlag f i b).flag g i = s.flag g i := by
  rw [State.flag, State.flag, s.fld_setFlag_other i b hf hreg hapart]

section
variable {s : State} {m : Mains}

/-! ### A sample of the mains (R576) -/

/-- What a write of the registers and of the sentinel's unit leaves, a sample of the mains leaves. -/
theorem State.senseBulk_proj {β : Type} (π : State → β) (h : ∀ t x n, π { t with regs := x, sen := n } = π t) :
    π (s.senseBulk m) = π s := by
  unfold State.senseBulk
  dsimp only
  split
  · exact h s _ _
  · exact h s _ _

/-- A sample writes the times of the supplies, the lowest count and the glitch detectors in the sentinel's unit. -/
theorem State.senseBulk_sen {β : Type} (π : SentUnit → β) (h : ∀ x ac low drop good least glitch, π { x with
    acSince := ac, lowSince := low, dropSince := drop, goodSince := good, distMin := least, glitchArmed := glitch } = π x) :
    π (s.senseBulk m).sen = π s.sen := by
  unfold State.senseBulk
  dsimp only
  split
  · exact h s.sen _ _ _ _ _ _
  · exact h s.sen _ _ _ _ _ s.sen.glitchArmed

@[simp] theorem State.senseBulk_clock : (s.senseBulk m).clock = s.clock := State.senseBulk_proj State.clock fun _ _ _ => rfl
@[simp] theorem State.senseBulk_pwr : (s.senseBulk m).pwr = s.pwr := State.senseBulk_proj State.pwr fun _ _ _ => rfl
@[simp] theorem State.senseBulk_path : (s.senseBulk m).path = s.path := State.senseBulk_proj State.path fun _ _ _ => rfl
@[simp] theorem State.senseBulk_sent : (s.senseBulk m).sent = s.sent := State.senseBulk_proj State.sent fun _ _ _ => rfl
@[simp] theorem State.senseBulk_ink : (s.senseBulk m).ink = s.ink := State.senseBulk_proj State.ink fun _ _ _ => rfl

@[simp] theorem State.senseBulk_distSince : (s.senseBulk m).sen.distSince = s.sen.distSince :=
  State.senseBulk_sen SentUnit.distSince fun _ _ _ _ _ _ _ => rfl
@[simp] theorem State.senseBulk_sagSince : (s.senseBulk m).sen.sagSince = s.sen.sagSince :=
  State.senseBulk_sen SentUnit.sagSince fun _ _ _ _ _ _ _ => rfl
@[simp] theorem State.senseBulk_sagEnded : (s.senseBulk m).sen.sagEnded = s.sen.sagEnded :=
  State.senseBulk_sen SentUnit.sagEnded fun _ _ _ _ _ _ _ => rfl
@[simp] theorem State.senseBulk_sagRepeat : (s.senseBulk m).sen.sagRepeat = s.sen.sagRepeat :=
  State.senseBulk_sen SentUnit.sagRepeat fun _ _ _ _ _ _ _ => rfl
@[simp] theorem State.senseBulk_holdUntil : (s.senseBulk m).sen.holdUntil = s.sen.holdUntil :=
  State.senseBulk_sen SentUnit.holdUntil fun _ _ _ _ _ _ _ => rfl

/-- The register file after a sample. -/
def State.sensedRegs (s : State) (m : Mains) : Regs :=
  (((s.regs.set F.SENT_STAT_ac_fail 0 (b2n m.ac)).set F.SENT_STAT_pwr_ok 0 (b2n m.ok)).set F.SENT_BULK_count 0
    (m.bulk % 4096)).set F.SENT_BULK_min 0 (min (m.bulk % 4096) (s.fld F.SENT_BULK_min 0))

theorem State.senseBulk_regs : (s.senseBulk m).regs = s.sensedRegs m := by
  unfold State.senseBulk
  dsimp only
  split <;> rfl

theorem State.senseBulk_count : (s.senseBulk m).fld F.SENT_BULK_count 0 = m.bulk % 4096 := by
  rw [State.fld_eq, State.senseBulk_regs, State.sensedRegs,
    Regs.fld_set_other (f := F.SENT_BULK_min) (g := F.SENT_BULK_count) _ 0 _ (by decide) rfl (by decide),
    Regs.fld_set_self _ _ _ (by decide)]
  exact Nat.mod_mod _ _

theorem State.senseBulk_min : (s.senseBulk m).fld F.SENT_BULK_min 0 = min (m.bulk % 4096) (s.fld F.SENT_BULK_min 0) := by
  rw [State.fld_eq, State.senseBulk_regs, State.sensedRegs, Regs.fld_set_self _ _ _ (by decide)]
  exact Nat.mod_eq_of_lt (Nat.lt_of_le_of_lt (Nat.min_le_left _ _) (Nat.mod_lt _ (by decide)))

/-- `SENT_STAT` after a sample shows the two supplies. -/
theorem State.senseBulk_stat : (s.senseBulk m).regs.word .SENT_STAT 0 =
    ((s.setFlag F.SENT_STAT_ac_fail 0 m.ac).setFlag F.SENT_STAT_pwr_ok 0 m.ok).regs.word .SENT_STAT 0 := by
  rw [State.senseBulk_regs, State.sensedRegs, Regs.word_set_ne (f := F.SENT_BULK_min) _ _ (by decide),
    Regs.word_set_ne (f := F.SENT_BULK_count) _ _ (by decide), State.setFlag_regs, State.setFlag_regs]

theorem State.senseBulk_acFail : (s.senseBulk m).flag F.SENT_STAT_ac_fail 0 = m.ac := by
  rw [State.flag_of_word (f := F.SENT_STAT_ac_fail) State.senseBulk_stat,
    State.flag_setFlag_other (f := F.SENT_STAT_pwr_ok) (g := F.SENT_STAT_ac_fail) _ 0 m.ok (by decide) rfl (by decide),
    s.flag_setFlag_self 0 m.ac rfl (by decide)]

theorem State.senseBulk_pwrOk : (s.senseBulk m).flag F.SENT_STAT_pwr_ok 0 = m.ok := by
  rw [State.flag_of_word (f := F.SENT_STAT_pwr_ok) State.senseBulk_stat]
  exact State.flag_setFlag_self _ 0 m.ok rfl (by decide)

@[simp] theorem State.senseBulk_inStrike : (s.senseBulk m).inStrike = s.inStrike := by
  rw [State.inStrike, State.inStrike, State.sentState, State.sentState,
    State.fld_of_word (f := F.SENT_STAT_state) State.senseBulk_stat,
    State.fld_setFlag_other (f := F.SENT_STAT_pwr_ok) (g := F.SENT_STAT_state) _ 0 m.ok (by decide) rfl (by decide),
    s.fld_setFlag_other (f := F.SENT_STAT_ac_fail) (g := F.SENT_STAT_state) 0 m.ac (by decide) rfl (by decide)]

/-! ### The sentinel's state (R610), and the end of a disturbance (R613) -/

/-- The sentinel's state lies in the registers. -/
theorem State.sentFollow_proj {β : Type} (π : State → β) (h : ∀ t x, π { t with regs := x } = π t) :
    π s.sentFollow = π s := by
  unfold State.sentFollow
  split
  · rfl
  · exact h s _

@[simp] theorem State.sentFollow_sen : s.sentFollow.sen = s.sen := State.sentFollow_proj State.sen fun _ _ => rfl
@[simp] theorem State.sentFollow_ink : s.sentFollow.ink = s.ink := State.sentFollow_proj State.ink fun _ _ => rfl

@[simp] theorem State.sentFollow_sagHold : s.sentFollow.flag F.SENT_STAT_sag_hold 0 = s.flag F.SENT_STAT_sag_hold 0 := by
  unfold State.sentFollow
  split
  · rfl
  · exact s.flag_setFld_other (f := F.SENT_STAT_state) 0 _ (by decide) rfl (by decide)

theorem State.busyNow_flag (f : Fld) (i : Nat) : s.busyNow.flag f i = s.flag f i := rfl

theorem State.distEnd_sen : s.distEnd.sen.distSince = none ∧ (s.sen.distSince ≠ none → s.distEnd.sen.distMin = 0xFFF) := by
  unfold State.distEnd
  split
  next => exact ⟨rfl, fun _ => rfl⟩
  next h =>
    have hnone : s.sen.distSince = none := by simpa using h
    exact ⟨hnone, fun hsome => absurd hnone hsome⟩

@[simp] theorem State.distEnd_clock : s.distEnd.clock = s.clock := by
  unfold State.distEnd
  split <;> rfl

/-! ### DISTURBANCE and BLIP (R578) -/

theorem State.disturbance_first (htrouble : mainsTrouble m = true) (hnone : s.sen.distSince = none)
    (hstrike : s.inStrike = false) (haon : s.pwr.aonUp = true) : s.disturbance m =
      ({ s.senseBulk m with sen := { (s.senseBulk m).sen with
        distSince := some s.clock, distMin := m.bulk % 4096 } } : State).busyNow.sentFollow := by
  simp [State.disturbance, htrouble, hnone, hstrike, haon]

theorem State.disturbance_other (h : mainsTrouble m = false ∨ s.sen.distSince ≠ none ∨ s.inStrike = true ∨
    s.pwr.aonUp = false) : s.disturbance m = s.senseBulk m := by
  refine if_neg fun hgo => ?_
  obtain ⟨⟨⟨htrouble, hnone⟩, hstrike⟩, haon⟩ : ((mainsTrouble m = true ∧ s.sen.distSince = none) ∧ s.inStrike = false) ∧
    s.pwr.aonUp = true := by simpa using hgo
  simp [htrouble, hnone, hstrike, haon] at h

theorem State.blip_other (h : s.sen.distSince = none ∨ mainsTrouble m = true ∨ s.sen.sagSince ≠ none ∨ s.sagMet = true ∨
    s.dropMet = true) : s.blip m = s.senseBulk m := by
  unfold State.blip
  split
  case h_1 => rfl
  case h_2 t ht =>
    refine if_pos ?_
    simpa [ht, or_assoc, Option.isSome_iff_ne_none] using h

theorem State.blip_ends {t : Nat} (hdist : s.sen.distSince = some t) (hcalm : mainsTrouble m = false)
    (hsag : s.sen.sagSince = none) (hsagMet : s.sagMet = false) (hdropMet : s.dropMet = false) : s.blip m =
      (((s.senseBulk m).sample 0x0C0 ((s.senseBulk m).clock - t)).distEnd).busyNow.sentFollow := by
  simp [State.blip, hdist, hcalm, hsag, hsagMet, hdropMet]

/-! ### SAG (R579 to R581) -/

/-- A SAG counts as a repeat (R581). -/
def State.sagAgain (s : State) : Bool :=
  s.sen.holdUntil.isSome || (match s.sen.sagEnded with
    | some t => decide (s.clock ≤ t + 10000000)
    | none => false)

theorem State.sagAgain_iff : s.sagAgain = true ↔
    s.sen.holdUntil ≠ none ∨ ∃ e, s.sen.sagEnded = some e ∧ s.clock ≤ e + 10000000 := by
  unfold State.sagAgain
  cases s.sen.sagEnded <;> simp [Option.isSome_iff_ne_none]

/-- The state in which a SAG that has been entered is told. -/
def State.sagEntered (s : State) (m : Mains) : State :=
  let s1 := s.senseBulk m
  (({ s1 with
    sen := { s1.sen with sagSince := some s1.clock, sagRepeat := s1.sagAgain, holdUntil := none,
                         distSince := some (s1.sen.distSince.getD s1.clock), distMin := min s1.sen.distMin (m.bulk % 4096) },
    ink := { s1.ink with sag := true } } : State).setFlag F.SENT_STAT_sag_hold 0 false).busyNow.sentFollow

theorem State.sagEntered_sagHold : (s.sagEntered m).flag F.SENT_STAT_sag_hold 0 = false :=
  State.sentFollow_sagHold.trans ((State.busyNow_flag _ 0).trans (State.flag_setFlag_self _ 0 false rfl (by decide)))

theorem State.sagEntered_sagRepeat : (s.sagEntered m).sen.sagRepeat = s.sagAgain := by
  simp [State.sagEntered, State.sagAgain, State.busyNow]

theorem State.sagEnter_met (hmet : s.sagMet = true ∨ (s.senseBulk m).sagMet = true) (hsag : s.sen.sagSince = none)
    (hstrike : s.inStrike = false) (haon : s.pwr.aonUp = true) :
    s.sagEnter m = ((s.sagEntered m).raise Ev.SAG_ENTER).setCeiling := by
  have hgo : ((s.sagMet || (s.senseBulk m).sagMet) && (s.senseBulk m).sen.sagSince.isNone && !(s.senseBulk m).inStrike &&
      (s.senseBulk m).pwr.aonUp) = true := by simpa [hsag, hstrike, haon] using hmet
  exact if_pos hgo

theorem State.sagEnter_other (h : (s.sagMet = false ∧ (s.senseBulk m).sagMet = false) ∨ s.sen.sagSince ≠ none ∨
    s.inStrike = true ∨ s.pwr.aonUp = false) : s.sagEnter m = s.senseBulk m := by
  refine if_neg fun hgo => ?_
  obtain ⟨⟨⟨hmet, hsag⟩, hstrike⟩, haon⟩ : (((s.sagMet = true ∨ (s.senseBulk m).sagMet = true) ∧ s.sen.sagSince = none) ∧
    s.inStrike = false) ∧ s.pwr.aonUp = true := by simpa using hgo
  rcases h with ⟨h, h'⟩ | h | h | h
  · simp [h, h'] at hmet
  · exact h hsag
  · exact Bool.false_ne_true (hstrike.symm.trans h)
  · exact Bool.false_ne_true (h.symm.trans haon)

/-- The state in which the end of a SAG that began at `t` is told. -/
def State.sagLeft (s : State) (m : Mains) (t : Nat) : State :=
  let s1 := s.senseBulk m
  let s2 := (s1.sample 0x0C1 ((s1.clock - t) / 1000)).distEnd
  let hold := if s1.sen.sagRepeat then some (s1.clock + 60000000) else none
  (({ s2 with sen := { s2.sen with sagSince := none, sagEnded := some s1.clock, sagRepeat := false, holdUntil := hold },
              ink := { s2.ink with sag := hold.isSome } } : State).setFlag F.SENT_STAT_sag_hold 0 hold.isSome).busyNow.sentFollow

theorem State.sagExit_none (h : s.sen.sagSince = none) : s.sagExit m = s.senseBulk m := by
  simp [State.sagExit, h]

theorem State.sagExit_some {t : Nat} (h : s.sen.sagSince = some t) : s.sagExit m =
    if (s.senseBulk m).heldFor (s.senseBulk m).sen.goodSince 500000 then ((s.sagLeft m t).raise Ev.SAG_EXIT).setCeiling
    else s.senseBulk m := by
  simp only [State.sagExit, State.senseBulk_sagSince, h]
  rfl

theorem State.sagLeft_sagHold (t : Nat) : (s.sagLeft m t).flag F.SENT_STAT_sag_hold 0 = s.sen.sagRepeat := by
  refine State.sentFollow_sagHold.trans ((State.busyNow_flag _ 0).trans ((State.flag_setFlag_self _ 0 _ rfl (by decide)).trans ?_))
  cases h : s.sen.sagRepeat <;> simp [h]

theorem State.sagLeft_sag (t : Nat) : (s.sagLeft m t).ink.sag = s.sen.sagRepeat := by
  cases h : s.sen.sagRepeat <;> simp [State.sagLeft, State.busyNow, h]

theorem State.sagLeft_sen (t : Nat) : (s.sagLeft m t).sen.sagSince = none ∧ (s.sagLeft m t).sen.sagEnded = some s.clock ∧
    (s.sagLeft m t).sen.holdUntil = if s.sen.sagRepeat then some (s.clock + 60000000) else none := by
  simp [State.sagLeft, State.busyNow]

/-- A SAG hold that has ended (R581). -/
def State.holdEnded (s : State) : State :=
  (({ s with sen := { s.sen with holdUntil := none }, ink := { s.ink with sag := s.sen.sagSince.isSome } } : State).setFlag
    F.SENT_STAT_sag_hold 0 false).busyNow

theorem State.holdEnded_sagHold : s.holdEnded.flag F.SENT_STAT_sag_hold 0 = false :=
  (State.busyNow_flag _ 0).trans (State.flag_setFlag_self _ 0 false rfl (by decide))

theorem State.sagHoldEnd_none (h : s.sen.holdUntil = none) : s.sagHoldEnd = s := by
  simp [State.sagHoldEnd, h]

theorem State.sagHoldEnd_some {t : Nat} (h : s.sen.holdUntil = some t) :
    s.sagHoldEnd = if t ≤ s.clock then s.holdEnded.setCeiling else s := by
  simp only [State.sagHoldEnd, h]
  rfl

end

/-- Settles O36: each clause is the rule above of its command. -/
theorem mainsDisturbancesAreClassed : Obligations.MainsDisturbancesAreClassed := by
  refine ⟨?sample, ?rearm, ?disturbance, ?blip, ?sagEnter, ?sagExit, ?holdEnd⟩
  case sample =>
    exact fun s m => ⟨State.senseBulk_count, State.senseBulk_min, State.senseBulk_acFail, State.senseBulk_pwrOk,
      State.senseBulk_path, State.senseBulk_sent, State.senseBulk_ink⟩
  case rearm =>
    refine fun s value => ⟨fun h => ⟨_, congrArg Host.Outcome.next (if_pos h), ?_, ?_, rfl⟩,
      fun h => congrArg Host.Outcome.next (if_neg (by simp [h]))⟩
    · exact State.fld_setFld_self s 0 0xFFF (by decide)
    · exact Regs.fld_set_other _ 0 _ (by decide) rfl (by decide)
  case disturbance =>
    intro s m
    refine ⟨fun htrouble hnone hstrike haon => ?_, fun h => congrArg Host.Outcome.next (State.disturbance_other h)⟩
    refine ⟨_, congrArg Host.Outcome.next (State.disturbance_first htrouble hnone hstrike haon), ?_⟩
    simp [State.busyNow]
  case blip =>
    intro s m
    refine ⟨fun h => congrArg Host.Outcome.next (State.blip_other h), fun t hdist hcalm hsag hsagMet hdropMet => ?_⟩
    refine ⟨_, congrArg Host.Outcome.next (State.blip_ends hdist hcalm hsag hsagMet hdropMet), ?_⟩
    obtain ⟨hsince, hleast⟩ := State.distEnd_sen (s := (s.senseBulk m).sample 0x0C0 (s.clock - t))
    simp [State.busyNow, hsince, hleast, hdist]
  case sagEnter =>
    intro s m
    refine ⟨fun hmet hsag hstrike haon => ?_, fun h => next_settle (State.sagEnter_other h)⟩
    refine ⟨_, next_settle (State.sagEnter_met hmet hsag hstrike haon), s.sagEntered m, rfl, ?_, ?_,
      State.sagEntered_sagHold, ?_⟩
    · simp [State.sagEntered, State.busyNow]
    · simp [State.sagEntered, State.busyNow]
    · rw [State.sagEntered_sagRepeat]
      exact State.sagAgain_iff
  case sagExit =>
    refine fun s m => ⟨fun h => next_settle (State.sagExit_none h), fun t h hshort => ?_, fun t h hlong => ?_⟩
    · exact next_settle ((State.sagExit_some h).trans (if_neg (by simp [hshort])))
    · obtain ⟨hsince, hended, hhold⟩ := State.sagLeft_sen (s := s) (m := m) t
      exact ⟨_, next_settle ((State.sagExit_some h).trans (if_pos hlong)), s.sagLeft m t, rfl, hsince, hended,
        State.sagLeft_sagHold t, State.sagLeft_sag t, hhold⟩
  case holdEnd =>
    refine fun s => ⟨fun h => next_settle (State.sagHoldEnd_none h), fun t h hearly => ?_, fun t h hover => ?_⟩
    · exact next_settle ((State.sagHoldEnd_some h).trans (if_neg (Nat.not_le.mpr hearly)))
    · exact ⟨_, next_settle ((State.sagHoldEnd_some h).trans (if_pos hover)), s.holdEnded, rfl, rfl,
        State.holdEnded_sagHold, rfl⟩

end Sys2Proof.Machine

namespace Sys2Proof.Machine

/-! PMBus and the core voltage (R587, R600 to R602, R604, R605). -/

section
open Sys2Proof.Claims

/-! ### A controller's own write of an RW field -/

theorem State.fld_setRw_self (s : State) {f : Fld} (i v : Nat) (h : f.lo ≤ f.hi ∧ f.hi < 32) :
    (s.setRw f i v).fld f i = v % 2 ^ (f.hi + 1 - f.lo) := s.fld_setFld_self i v h

theorem State.flag_setRw_other (s : State) {f g : Fld} (i v : Nat) (hf : f.lo ≤ f.hi ∧ f.hi < 32)
    (hreg : g.reg = f.reg) (hapart : f.hi < g.lo ∨ g.hi < f.lo) : (s.setRw f i v).flag g i = s.flag g i :=
  s.flag_setFld_other i v hf hreg hapart

variable {s : State} {e : Nat} {c : Instr} {ok : Bool} {run : State → State}

/-! ### The filter (R600, R601) -/

theorem State.pmbus_strike (hstrike : s.inStrike = true) :
    s.pmbus e ok run = s.setFld F.SENT_PMB_CMD_status 0 St.ABORTED := if_pos hstrike

section
variable (hexec : exec c s = .next (s.pmbus e ok run)) (hcalm : s.inStrike = false)
include hexec hcalm

theorem denied_of_filter (hbad : s.pmbValid e = false ∨ ok = false) : Denied c s e := by
  have hoff : (s.pmbValid e && ok) = false := Bool.and_eq_false_iff.mpr hbad
  simp only [Denied, hexec, State.pmbus, hcalm, hoff, Bool.false_eq_true, if_false, State.pmbDenied]

/-- A transaction that passes sends its code and leaves the units of memory alone. -/
theorem onBus_of_filter {code : Nat} {data : Option Nat} {p : State → Prop} (hvalid : s.pmbValid e = true)
    (hok : ok = true) (hsent : (run s).sent =
      s.sent ++ [.pmbus (s.fld F.SENT_PMB_TAB_addr e) (s.fld F.SENT_PMB_TAB_page e) code data])
    (hpath : (run s).path = s.path) (hink : (run s).ink = s.ink) (hflash : (run s).flash = s.flash)
    (hp : p ((run s).setFld F.SENT_PMB_CMD_status 0 St.DONE)) : OnBus c s e code data p := by
  refine ⟨(run s).setFld F.SENT_PMB_CMD_status 0 St.DONE, ?_, hsent, (run s).fld_setFld_self 0 St.DONE (by decide), hpath,
    hink, hflash, hp⟩
  simp only [hexec, State.pmbus, hcalm, hvalid, hok, Bool.and_self, Bool.false_eq_true, if_false, if_true]

end

/-- The reads of R600 with their codes. -/
theorem exec_pmbRead (v : Nat) {p : Instr × Nat} (hp : p ∈ [(Instr.statusWord e v, 0x79), (.readVin e v, 0x88),
    (.readIin e v, 0x89), (.readVout e v, 0x8B), (.readIout e v, 0x8C), (.readTemperature1 e v, 0x8D), (.readPout e v, 0x96),
    (.readPin e v, 0x97)]) : exec p.1 s = .next (s.pmbRead e p.2 v) := by
  fin_cases hp <;> rfl

theorem State.pmbRead_data (code v status : Nat) : ((((s.pmbSend e code none).setRw F.SENT_PMB_DATA_data 0 v).setFld
    F.SENT_PMB_CMD_status 0 status).fld F.SENT_PMB_DATA_data 0) = v % 65536 :=
  (State.fld_setFld_reg _ _ (by decide)).trans (State.fld_setRw_self _ 0 v (by decide))

/-! ### OPERATION (R601) -/

/-- The time of the last on or off of the entry's sequence group. -/
def State.lastRailOp (s : State) (e : Nat) : Option Nat := mapGet? s.sen.railOps (s.fld F.SENT_PMB_TAB_group e)

/-- The fused interval of the entry's sequence group. -/
def State.railInterval (s : State) (e : Nat) : Nat := s.fld F.CURT_SEQ_interval (s.fld F.SENT_PMB_TAB_group e) * 1000

theorem State.railMay_self (h : s.flag F.SENT_PMB_TAB_self e = true) : s.railMay e false = false := by
  simp [State.railMay, h]

theorem State.railMay_early {t : Nat} (hlast : s.lastRailOp e = some t) (hearly : s.clock < t + s.railInterval e)
    (on : Bool) : s.railMay e on = false := by
  have hdue : s.due t (s.railInterval e) = false := decide_eq_false (Nat.not_le.mpr hearly)
  unfold State.lastRailOp at hlast
  unfold State.railInterval at hdue
  simp only [State.railMay, hlast, hdue, Bool.false_and]

theorem State.railMay_due {on : Bool} (hself : on = true ∨ s.flag F.SENT_PMB_TAB_self e = false)
    (hlast : s.lastRailOp e = none ∨ ∃ t, s.lastRailOp e = some t ∧ t + s.railInterval e ≤ s.clock) :
    s.railMay e on = true := by
  have hmay : (on || !s.flag F.SENT_PMB_TAB_self e) = true := by simpa using hself
  unfold State.lastRailOp State.railInterval at hlast
  rcases hlast with hnone | ⟨t, hsome, hdue⟩
  · simp only [State.railMay, hnone, hmay, Bool.and_self]
  · simp only [State.railMay, hsome, hmay, State.due, hdue, decide_true, Bool.and_self]

/-! ### The poll (R602) -/

/-- The state after the three reads of a poll, with the failures in a row counted. -/
def State.polled (s : State) (e : Nat) (ok : Bool) : State :=
  let s1 := ((s.pmbSend e 0x97 none).pmbSend e 0x8B none).pmbSend e 0x8D none
  { s1 with sen := { s1.sen with fails := mapSet s1.sen.fails e (if ok then 0 else mapGet 0 s.sen.fails e + 1) } }

theorem State.polled_sent : (s.polled e ok).sent.length = s.sent.length + 3 := by
  simp [State.polled, State.pmbSend]

theorem State.pollOne_eq : s.pollOne e ok =
    if ok = false ∧ mapGet 0 s.sen.fails e = 2 then (s.polled e ok).raiseD Ev.PMBUS_FAULT e else s.polled e ok := by
  have hthird : (if ok then 0 else mapGet 0 s.sen.fails e + 1) = 3 ↔ ok = false ∧ mapGet 0 s.sen.fails e = 2 := by
    cases ok <;> simp
  unfold State.pollOne
  exact if_congr hthird rfl rfl

/-! ### The core voltage (R604, R605) -/

theorem exec_dvfsReady_raised (hraise : s.flag F.SENT_DVFS_raise 0 = true) (hready : s.flag F.SENT_DVFS_ready 0 = false) :
    exec .dvfsReady s = .next ((s.setFld F.SENT_DVFS_vdd_mv 0 (vddMv 0)).setFlag F.SENT_DVFS_ready 0 true).sceneJobGo :=
  congrArg Host.Outcome.next (if_pos (by simp [hraise, hready]))

theorem exec_dvfsReady_other (h : s.flag F.SENT_DVFS_raise 0 = false ∨ s.flag F.SENT_DVFS_ready 0 = true) :
    exec .dvfsReady s = .next s :=
  congrArg Host.Outcome.next (if_neg (by simpa [or_iff_not_imp_left] using h))

/-- Settles O38: each clause is the rule above of its command. -/
theorem thePmbusFilterPassesItsTable : Obligations.ThePmbusFilterPassesItsTable := by
  refine ⟨?reads, ?clear, ?vout, ?band, ?operation, ?poll, ?pollOne, ?raise, ?ready⟩
  case reads =>
    intro s e v p hp
    have hexec : exec p.1 s = .next (s.pmbus e true fun st => (st.pmbSend e p.2 none).setRw F.SENT_PMB_DATA_data 0 v) :=
      exec_pmbRead v hp
    exact ⟨fun hstrike => hexec.trans (congrArg _ (State.pmbus_strike hstrike)),
      fun hcalm hbad => denied_of_filter hexec hcalm (.inl hbad),
      fun hcalm hvalid => onBus_of_filter hexec hcalm hvalid rfl rfl rfl rfl rfl ⟨State.pmbRead_data p.2 v _, rfl⟩⟩
  case clear =>
    intro s e
    have hexec : exec (.clearFaults e) s = .next (s.pmbus e true fun st => st.pmbSend e 0x03 none) := rfl
    exact ⟨fun hstrike => hexec.trans (congrArg _ (State.pmbus_strike hstrike)),
      fun hcalm hbad => denied_of_filter hexec hcalm (.inl hbad),
      fun hcalm hvalid => onBus_of_filter hexec hcalm hvalid rfl rfl rfl rfl rfl rfl⟩
  case vout =>
    intro s e d hcalm
    have hexec : exec (.voutCommand e d) s = .next (s.pmbus e (s.inBand e (d % 65536)) fun st =>
      st.pmbSend e 0x21 (some (d % 65536))) := rfl
    exact ⟨denied_of_filter hexec hcalm, fun hvalid hband => onBus_of_filter hexec hcalm hvalid hband rfl rfl rfl rfl rfl⟩
  case band =>
    intro s e d
    rw [State.inBand, Bool.and_eq_true, decide_eq_true_eq, decide_eq_true_eq]
  case operation =>
    intro s e on hcalm g i
    have hexec (on : Bool) : exec (.operation e on) s = .next (s.pmbus e (s.railMay e on) fun st =>
      ({ st with sen := { st.sen with railOps := mapSet st.sen.railOps (st.fld F.SENT_PMB_TAB_group e) st.clock } } :
        State).pmbSend e 0x01 (some (if on then 0x80 else 0))) := rfl
    exact ⟨fun hbad => denied_of_filter (hexec on) hcalm (.inl hbad),
      fun hself => denied_of_filter (hexec false) hcalm (.inr (State.railMay_self hself)),
      fun t hlast hearly => denied_of_filter (hexec on) hcalm (.inr (State.railMay_early hlast hearly on)),
      fun hvalid hself hlast => onBus_of_filter (hexec on) hcalm hvalid (State.railMay_due hself hlast) rfl rfl rfl rfl rfl⟩
  case poll => exact fun s answered ms bytes mw => ⟨_, rfl, rfl⟩
  case pollOne => exact fun s e ok => ⟨s.polled e ok, rfl, rfl, State.polled_sent, State.pollOne_eq⟩
  case raise =>
    refine fun s v => ⟨_, rfl, ?_, State.flag_setRw_other s 0 _ (by decide) rfl (by decide), rfl⟩
    exact (s.fld_setRw_self 0 _ (by decide)).trans (Nat.mod_eq_of_lt (bits_lt v 1 1))
  case ready => exact fun s => ⟨exec_dvfsReady_raised, exec_dvfsReady_other⟩

end

end Sys2Proof.Machine

namespace Sys2Proof.Machine

/-! The power cap and the energy meters (R606 to R609, R613). -/

section
variable {s : State}

/-! ### The throttle (R607) -/

@[simp] theorem State.throttleFlag_sen : s.throttleFlag.sen = s.sen := rfl

theorem State.throttleFlag_on (h : s.sen.steps ≠ 0) : s.throttleFlag.flag F.SENT_STAT_throttle 0 = true := by
  rw [State.throttleFlag, State.flag_setFlag_self _ 0 _ rfl (by decide), decide_eq_true h, Bool.true_or]

/-- The state after the throttle's count and its cooling time are written. -/
def State.stepped (s : State) (steps : Nat) (cool : Option Nat) : State :=
  { s with sen := { s.sen with steps := steps, coolSince := cool } }

section
variable (hcalm : s.inStrike = false)
include hcalm

theorem State.pcapStep_over (hover : s.powerCap * 1000 < s.powerMean) : s.pcapStep =
    (if s.sen.steps = 0 then (s.stepped (min 16 (s.sen.steps + 1)) none).raise Ev.PCAP_THROTTLE
      else s.stepped (min 16 (s.sen.steps + 1)) none).throttleFlag := by
  simp only [State.pcapStep, hcalm, hover, Bool.false_eq_true, if_false, if_true]
  rfl

theorem State.pcapStep_cool (hunder : s.powerMean + 2000 ≤ s.powerCap * 1000) : s.pcapStep =
    (s.stepped (if s.due (s.sen.coolSince.getD s.clock) 10000 then s.sen.steps - 1 else s.sen.steps)
      (some (s.sen.coolSince.getD s.clock))).throttleFlag := by
  have hnot : ¬ s.powerCap * 1000 < s.powerMean := by omega
  simp only [State.pcapStep, hcalm, hnot, hunder, Bool.false_eq_true, if_false, if_true]
  rfl

theorem State.pcapStep_between (hunder : s.powerMean ≤ s.powerCap * 1000)
    (hnear : s.powerCap * 1000 < s.powerMean + 2000) : s.pcapStep = s.stepped s.sen.steps none := by
  simp only [State.pcapStep, hcalm, Nat.not_lt.mpr hunder, Nat.not_le.mpr hnear, Bool.false_eq_true, if_false]
  rfl

theorem State.pcapStep_over_sen (hover : s.powerCap * 1000 < s.powerMean) :
    s.pcapStep.sen = (s.stepped (min 16 (s.sen.steps + 1)) none).sen := by
  rw [State.pcapStep_over hcalm hover, State.throttleFlag_sen]
  split
  · exact raise_sen _ _
  · rfl

theorem State.pcapStep_over_throttle (hover : s.powerCap * 1000 < s.powerMean) :
    s.pcapStep.flag F.SENT_STAT_throttle 0 = true := by
  have hsteps : s.pcapStep.sen.steps ≠ 0 := by
    rw [State.pcapStep_over_sen hcalm hover]
    change min 16 (s.sen.steps + 1) ≠ 0
    omega
  rw [State.pcapStep_over hcalm hover] at hsteps ⊢
  exact State.throttleFlag_on hsteps

end

/-- What the registers, the events and the throttle's count leave, a step of the throttle leaves. -/
theorem State.pcapStep_proj {β : Type} (π : State → β) (hflag : ∀ t : State, π t.throttleFlag = π t)
    (hraise : ∀ (t : State) e, π (t.raise e) = π t) (hstep : ∀ (t : State) n cool, π (t.stepped n cool) = π t) :
    π s.pcapStep = π s := by
  cases hcalm : s.inStrike
  case true => exact congrArg π (if_pos hcalm)
  case false =>
    by_cases hover : s.powerCap * 1000 < s.powerMean
    · rw [State.pcapStep_over hcalm hover, hflag]
      split
      · exact (hraise _ _).trans (hstep _ _ _)
      · exact hstep _ _ _
    · by_cases hunder : s.powerMean + 2000 ≤ s.powerCap * 1000
      · rw [State.pcapStep_cool hcalm hunder, hflag, hstep]
      · rw [State.pcapStep_between hcalm (by omega) (by omega), hstep]

/-! ### The estimate (R606, R613) -/

/-- The state whose mean the estimate of `mw` makes the throttle follow. -/
def State.estimated (s : State) (mw : Nat) : State :=
  let s1 := { s with sen := { s.sen with power := (mw :: s.sen.power).take 10, powerCount := s.sen.powerCount + 1 } }
  let w := satTo 16 (s1.powerMean / 10)
  if s1.sen.powerCount % 10 = 0 then (s1.setFld F.SENT_PWR_power 0 w).sample 0x0C4 w else s1.setFld F.SENT_PWR_power 0 w

/-- What the registers, the tallies and the samples of power leave, the estimate leaves. -/
theorem State.estimated_proj {β : Type} (π : State → β) (h : ∀ (t : State) x tallies power count, π { t with
    regs := x, pb := { t.pb with tallies := tallies }, sen := { t.sen with power := power, powerCount := count } } = π t)
    (mw : Nat) : π (s.estimated mw) = π s := by
  unfold State.estimated
  dsimp only
  split
  · exact h s _ _ _ _
  · exact h s _ s.pb.tallies _ _

theorem State.estimated_power (mw : Nat) : (s.estimated mw).sen.power = (mw :: s.sen.power).take 10 := by
  unfold State.estimated
  dsimp only
  split <;> rfl

theorem State.estimated_fld (mw : Nat) : (s.estimated mw).fld F.SENT_PWR_power 0 =
    min (((mw :: s.sen.power).take 10).foldl (· + ·) 0 / ((mw :: s.sen.power).take 10).length / 10) 65535 := by
  have hshown (t : State) (v : Nat) : (t.setFld F.SENT_PWR_power 0 (satTo 16 v)).fld F.SENT_PWR_power 0 = min v 65535 := by
    rw [State.fld_setFld_self _ 0 _ (by decide), satTo]
    exact Nat.mod_eq_of_lt (Nat.lt_of_le_of_lt (Nat.min_le_right _ _) (by decide))
  have hlength : max 1 ((mw :: s.sen.power).take 10).length = ((mw :: s.sen.power).take 10).length := by
    simp only [List.take_succ_cons, List.length_cons]
    omega
  have hmean (x : SentUnit) (hx : x.power = (mw :: s.sen.power).take 10) : ({ s with sen := x } : State).powerMean =
      ((mw :: s.sen.power).take 10).foldl (· + ·) 0 / ((mw :: s.sen.power).take 10).length := by
    rw [State.powerMean, hx, hlength]
  unfold State.estimated
  dsimp only
  rw [hmean _ rfl]
  split
  · exact hshown _ _
  · exact hshown _ _

/-- The shown power lies in a register of its own. -/
theorem State.pcapStep_power : s.pcapStep.fld F.SENT_PWR_power 0 = s.fld F.SENT_PWR_power 0 :=
  State.pcapStep_proj (fun t => t.fld F.SENT_PWR_power 0) (fun t => t.fld_setFld_reg (f := F.SENT_STAT_throttle) _ (by decide))
    (fun t e => fld_raise t e (by decide)) fun _ _ _ => rfl

/-! ### Meters (R608, R609) -/

theorem off_meter (k : Nat) : RegId.SENT_METER.off k = 0x2001000 + 4 * k := by
  change 0x2001000 + 0x8 * (k / 2) + 0x4 * (k % 2) = _
  omega

/-- A register's word after a write of a meter's word. -/
theorem State.liveWord_setLive_meter (k j v : Nat) :
    (s.setLive .SENT_METER k v).liveWord .SENT_METER j = if j = k then BitVec.ofNat 32 v else s.liveWord .SENT_METER j := by
  rw [State.liveWord_eq, State.setLive_regs, Regs.word_put, off_meter, off_meter]
  exact if_congr (by omega) rfl rfl

/-- The total of a meter whose 64 bits are written. -/
theorem State.meter_setLive (i j t : Nat) (ht : t < 2 ^ 64) : ((s.setLive .SENT_METER (2 * i) (t % 2 ^ 32)).setLive .SENT_METER
    (2 * i + 1) (t / 2 ^ 32 % 2 ^ 32)).meter j = if j = i then t else s.meter j := by
  simp only [State.meter, State.liveWord_setLive_meter]
  by_cases h : j = i
  · subst h
    simp only [if_true, BitVec.toNat_ofNat, show ¬ 2 * j = 2 * j + 1 by omega, if_false]
    omega
  · simp only [h, if_false, show ¬ 2 * j = 2 * i + 1 by omega, show ¬ 2 * j + 1 = 2 * i by omega,
      show ¬ 2 * j = 2 * i by omega, show ¬ 2 * j + 1 = 2 * i + 1 by omega]

section
variable {i : Nat} (u : Nat) (hi : i < 256)
include hi

theorem State.chargeMeter_meter (hroom : s.meter i + (mapGet 0 s.sen.meterFrac i + u) / unitsPerMj < 2 ^ 64) (j : Nat) :
    (s.chargeMeter i u).meter j =
      if j = i then s.meter i + (mapGet 0 s.sen.meterFrac i + u) / unitsPerMj else s.meter j := by
  unfold State.chargeMeter
  dsimp only
  split
  next hnone =>
    rw [hnone, Nat.add_zero]
    split
    next hj => rw [hj]; rfl
    next => rfl
  next =>
    exact State.meter_setLive i j _ hroom

theorem State.chargeMeter_frac : mapGet 0 (s.chargeMeter i u).sen.meterFrac i =
    (mapGet 0 s.sen.meterFrac i + u) % unitsPerMj := by
  have hfrac : (s.chargeMeter i u).sen.meterFrac =
      mapSet s.sen.meterFrac i ((mapGet 0 s.sen.meterFrac i + u) % unitsPerMj) := by
    unfold State.chargeMeter
    dsimp only
    rw [if_pos hi]
    split <;> rfl
  rw [hfrac, mapGet_set_self]

end

end

/-- Settles O39: each clause is the rule above of the estimate, of the throttle or of a meter. -/
theorem powerCapAndEnergyMeters : Obligations.PowerCapAndEnergyMeters := by
  refine ⟨?cap, ?estimate, ?throttle, ?meter, fun s counts static => ⟨_, rfl, rfl⟩, fun c => rfl⟩
  case cap =>
    intro s
    unfold State.powerCap
    omega
  case estimate =>
    refine fun s mw => ⟨(s.estimated mw).pcapStep, rfl, ?_, State.pcapStep_power.trans (s.estimated_fld mw), ?_, ?_, ?_, ?_⟩
    · exact (State.pcapStep_proj (·.sen.power) (fun _ => rfl) (fun t e => congrArg SentUnit.power (raise_sen t e))
        fun _ _ _ => rfl).trans (s.estimated_power mw)
    · exact (State.pcapStep_proj State.path (fun _ => rfl) raise_path fun _ _ _ => rfl).trans
        (State.estimated_proj State.path (fun _ _ _ _ _ => rfl) mw)
    · exact (State.pcapStep_proj State.ink (fun _ => rfl) raise_ink fun _ _ _ => rfl).trans
        (State.estimated_proj State.ink (fun _ _ _ _ _ => rfl) mw)
    · exact (State.pcapStep_proj State.flash (fun _ => rfl) raise_flash fun _ _ _ => rfl).trans
        (State.estimated_proj State.flash (fun _ _ _ _ _ => rfl) mw)
    · exact (State.pcapStep_proj State.twin (fun _ => rfl) raise_twin fun _ _ _ => rfl).trans
        (State.estimated_proj State.twin (fun _ _ _ _ _ => rfl) mw)
  case throttle =>
    intro s
    refine ⟨fun hstrike => if_pos hstrike, fun hcalm hover => ⟨?_, State.pcapStep_over_throttle hcalm hover⟩,
      fun hcalm hover hfirst => ⟨s.stepped (min 16 (s.sen.steps + 1)) none, ?_, rfl⟩, fun hcalm hunder t ht => ?_,
      fun hcalm hunder hnear => ?_⟩
    · rw [State.pcapStep_over_sen hcalm hover]
      rfl
    · rw [State.pcapStep_over hcalm hover, if_pos hfirst]
    · have hcool : s.pcapStep.sen.steps = if t + 10000 ≤ s.clock then s.sen.steps - 1 else s.sen.steps := by
        rw [State.pcapStep_cool hcalm hunder, ht]
        simp [State.stepped, State.due]
      exact ⟨fun hdue => hcool.trans (if_pos hdue), fun hearly => hcool.trans (if_neg (Nat.not_le.mpr hearly))⟩
    · rw [State.pcapStep_between hcalm hunder hnear]
      exact ⟨rfl, rfl, rfl⟩
  case meter =>
    intro s i u hi hroom
    have hmeter := State.chargeMeter_meter u hi hroom
    exact ⟨(hmeter i).trans (if_pos rfl), State.chargeMeter_frac u hi, fun j hj _ => (hmeter j).trans (if_neg hj)⟩

end Sys2Proof.Machine

namespace Sys2Proof.Machine

/-! The command ports of the firmware flash (R622 to R628, R632, R637). -/

section
variable {s : State} {p : Nat}

/-! ### A port takes one command at a time (R623) -/

theorem State.fwCmd_busy (h : s.portBusy p = true) (body : State → State) : s.fwCmd p body = s :=
  if_pos (Or.inr h)

theorem State.fwCmd_free (hp : p < 5) (h : s.portBusy p = false) (body : State → State) :
    s.fwCmd p body = (body s).fwRegs :=
  if_neg (by simp only [h, Bool.false_eq_true, or_false]; omega)

/-! ### Reads (R622, R624) -/

/-- With no read waiting, one that comes to a quiet bank is served at once. -/
theorem State.fwReadsGo_one {off ecc : Nat} (hreads : s.core.reads = []) (hquiet : s.fwRunning (fwBankOf off) = none) :
    ({ s with core := { s.core with reads := s.core.reads ++ [(p, off, ecc)] } } : State).fwReadsGo (fwBankOf off) =
      s.fwReadEnd p off ecc := by
  have hquiet' : ({ s with core := { s.core with reads := s.core.reads ++ [(p, off, ecc)] } } : State).fwRunning
      (fwBankOf off) = none := hquiet
  have hput : ({ s with core := { s.core with reads := [] } } : State) = s := by rw [← hreads]
  rw [State.fwReadsGo, hquiet']
  simp [hreads, hput]

theorem State.fwReadEnd_ecc {off : Nat} (h2 : fwSector off ≠ 2) (h3 : fwSector off ≠ 3) :
    s.fwReadEnd p off 2 = (s.fwStatus p 0x06).raiseD 0xE04 off := by
  simp [State.fwReadEnd, h2, h3, St.POISONED, Ev.FWF_UNCORRECTABLE]

theorem State.fwReadEnd_done {off ecc : Nat} (h2 : fwSector off ≠ 2) (h3 : fwSector off ≠ 3) (hecc : ecc < 2) :
    ∃ u : State, s.fwReadEnd p off ecc = u.fwStatus p 0 := by
  simp only [State.fwReadEnd, h2, h3, or_self, if_false, if_neg (Nat.ne_of_lt hecc)]
  exact ⟨_, rfl⟩

/-! ### Programs and erases (R624, R625, R627, R628, R632, R637) -/

section
variable {off : Nat} {erase : Bool} {body : State → State}

theorem State.fwStart_barred (hbar : s.fwBarred p (fwSector off) = true) :
    s.fwStart p off erase false body = s.fwStatus p St.CURTAIN_DENIED := by
  simp [State.fwStart, hbar]

variable (hbar : s.fwBarred p (fwSector off) = false)
include hbar

theorem State.fwStart_protected (hprot : s.fwProtected (fwSector off) = true) :
    s.fwStart p off erase false body = (s.fwStatus p St.ACCESS_DENIED).raiseD Ev.FWF_PROT_DENIED (fwSector off) := by
  simp [State.fwStart, hbar, hprot]

variable (hprot : s.fwProtected (fwSector off) = false)
include hprot

theorem State.fwStart_self (hself : s.fwSelf p (fwBankOf off) = true) :
    s.fwStart p off erase false body = (s.fwStatus p St.BANK_SELF).raiseD Ev.FWF_BANK_SELF p := by
  simp [State.fwStart, hbar, hprot, hself]

variable (hself : s.fwSelf p (fwBankOf off) = false)
include hself

/-- An erase that no rule bars waits for room on its bank and for a bit of its sector's intent word. -/
theorem State.fwStart_erase : s.fwStart p off true false body =
    if s.fwRoom true off = false then s.fwStatus p St.RETRY_LATER
    else if s.fwIntentLeft (fwSector off) = 0 then (s.fwStatus p St.QUEUE_FULL).raiseD Ev.FWF_INTENT_FULL (fwSector off)
    else body s := by
  simp [State.fwStart, hbar, hprot, hself]

/-- A program that no rule bars, of a page not programmed since its erase, waits for room on its bank only. -/
theorem State.fwStart_program (hpage : off / 256 ∉ s.core.pages) : s.fwStart p off false false body =
    if s.fwRoom false off = true then body s else s.fwStatus p St.RETRY_LATER := by
  cases hroom : s.fwRoom false off <;> simp [State.fwStart, hbar, hprot, hself, hpage, hroom]

end

/-! ### The end of an operation, suspension (R623, R624, R626, R628) -/

/-- What the end of operation `o` leaves in the array: a page programmed, or a sector erased and its intent completed. -/
def State.fwEffect (s : State) (o : FwOp) : State :=
  if o.erase then (s.fwBlank (fwSector o.off)).fwClearBit (fwSector o.off)
  else { s.fwProg o.off o.data with core :=
    { (s.fwProg o.off o.data).core with pages := setIns (s.fwProg o.off o.data).core.pages (o.off / 256) } }

theorem State.fwEnd_running {b : Nat} {o : FwOp} (h : s.fwRunning b = some o) : s.fwEnd b =
    (((((s.setFwOps b ((s.fwOps b).filter (fun x => x.suspended))).fwEffect o).fwStatus o.port St.DONE).fwReadsGo b).fwRegs) := by
  simp only [State.fwEnd, h]
  rfl

theorem exec_suspend_none (hp : p < 5) (h : ∀ o ∈ s.fwRunning (s.fwBankArg p), o.port ≠ p) :
    exec (.suspend p) s = .next (s.fwStatus p 0x12) := by
  refine congrArg Host.Outcome.next ((if_neg (Nat.not_le.mpr hp)).trans ?_)
  split
  next o ho => exact if_neg (h o ho)
  next => rfl

theorem exec_suspend_own (hp : p < 5) {o : FwOp} (ho : s.fwRunning (s.fwBankArg p) = some o) (hown : o.port = p) :
    exec (.suspend p) s = .next (((((s.setFwOps (s.fwBankArg p) ((s.fwOps (s.fwBankArg p)).map
      (fun x => { x with suspended := true }))).fwCountSuspend (s.fwBankArg p)).fwStatus p 0).fwReadsGo (s.fwBankArg p)).fwRegs) := by
  refine congrArg Host.Outcome.next ((if_neg (Nat.not_le.mpr hp)).trans ?_)
  rw [ho]
  exact if_pos hown

theorem exec_resume_none (hp : p < 5) (h : ∀ o ∈ s.fwOps (s.fwBankArg p), o.port ≠ p) :
    exec (.resume p) s = .next (s.fwStatus p 0x12) := by
  have hfind : (s.fwOps (s.fwBankArg p)).find? (fun x => x.port == p && x.suspended) = none := by
    refine List.find?_eq_none.mpr fun o ho => ?_
    rw [beq_false_of_ne (h o ho), Bool.false_and]
    exact Bool.false_ne_true
  refine congrArg Host.Outcome.next ((if_neg (Nat.not_le.mpr hp)).trans ?_)
  rw [hfind]
  rfl

theorem exec_resume_own (hp : p < 5) {o : FwOp} (ho : s.fwOps (s.fwBankArg p) = [o]) (hown : o.port = p)
    (hsusp : o.suspended = true) : exec (.resume p) s =
      .next (((s.setFwOps (s.fwBankArg p) [{ o with suspended := false }]).fwStatus p 0).fwRegs) := by
  have hfind : (s.fwOps (s.fwBankArg p)).find? (fun x => x.port == p && x.suspended) = some o := by
    simp [ho, hown, hsusp]
  have hquiet : s.fwRunning (s.fwBankArg p) = none := by
    change (s.fwOps (s.fwBankArg p)).find? _ = none
    simp [ho, hsusp]
  refine congrArg Host.Outcome.next ((if_neg (Nat.not_le.mpr hp)).trans ?_)
  rw [hfind, hquiet, ho]
  simp [St.DONE]

/-! ### Protection (R632) -/

section
variable {on : Bool}

theorem State.fwProtSet_illegal (h : fwBase (fwSector (s.fwAddr p)) ≠ s.fwAddr p ∨ fwSector (s.fwAddr p) = 2 ∨
    fwSector (s.fwAddr p) = 3) : s.fwProtSet p on = s.fwStatus p 0x12 := if_pos h

variable (h : ¬ (fwBase (fwSector (s.fwAddr p)) ≠ s.fwAddr p ∨ fwSector (s.fwAddr p) = 2 ∨ fwSector (s.fwAddr p) = 3))
include h

theorem State.fwProtSet_locked (hlock : s.fld F.FWF_PWD_STAT_locked 0 = 1) : s.fwProtSet p on = s.fwStatus p 0x09 :=
  (if_neg h).trans (if_pos (decide_eq_true (hlock.trans_ne Nat.one_ne_zero)))

theorem State.fwProtSet_open (hlock : s.fld F.FWF_PWD_STAT_locked 0 = 0) : s.fwProtSet p on =
    (s.setFld F.FWF_PROT_prot (fwSector (s.fwAddr p) / 32) (setBits (s.fld F.FWF_PROT_prot (fwSector (s.fwAddr p) / 32))
      (fwSector (s.fwAddr p) % 32) (fwSector (s.fwAddr p) % 32) on.toNat)).fwStatus p 0 := by
  refine (if_neg h).trans ((if_neg (Bool.eq_false_iff.mp (State.flag_eq_false hlock))).trans ?_)
  cases on <;> rfl

end

/-- PROT_SET and PROT_CLEAR of a port that is free. -/
theorem exec_prot (hp : p < 5) (hfree : s.portBusy p = false) (on : Bool) :
    exec (if on then .protSet p else .protClear p) s = .next (s.fwProtSet p on).fwRegs := by
  cases on <;> exact congrArg Host.Outcome.next (State.fwCmd_free hp hfree _)

end

/-- Settles O23: each clause is the rule above of its command, of a port that is free unless it says otherwise. -/
theorem firmwareFlashPortCommands : Obligations.FirmwareFlashPortCommands := by
  refine ⟨?busy, ?read, fun s p a h2 h3 => ⟨State.fwReadEnd_ecc h2 h3, fun ecc => State.fwReadEnd_done h2 h3⟩, ?start, ?finish,
    fun s p hp => ⟨exec_suspend_none hp, fun o => exec_suspend_own hp, exec_resume_none hp, fun o => exec_resume_own hp⟩, ?prot⟩
  case busy =>
    intro s p x h
    have hsame (body : State → State) : Host.Outcome.next (s.fwCmd p body) = (.next s : Res) :=
      congrArg Host.Outcome.next (State.fwCmd_busy h body)
    exact ⟨hsame _, hsame _, hsame _, hsame _, hsame _, hsame _, hsame _⟩
  case read =>
    intro s p ecc hp hfree hreads hquiet
    have hrun : exec (.readPage p ecc) s = _ := congrArg Host.Outcome.next (State.fwCmd_free hp hfree _)
    rw [hrun]
    refine ⟨fun hodd => congrArg (Host.Outcome.next ∘ State.fwRegs) (if_pos hodd), fun heven => ?_⟩
    exact congrArg (Host.Outcome.next ∘ State.fwRegs) ((if_neg (not_not_intro heven)).trans (State.fwReadsGo_one hreads hquiet))
  case start =>
    rintro s p fetch a i hp hfree rfl rfl hpage hbase
    have hprogram : exec (.programPage p fetch) s = .next (State.fwRegs ((s.fwFetch p fetch).fwStart p (s.fwAddr p) false false
        fun t => t.fwBegin ⟨p, false, s.fwAddr p, t.fwBuf p, false⟩)) := by
      refine congrArg Host.Outcome.next ((State.fwCmd_free hp hfree _).trans ?_)
      dsimp only
      rw [hpage]
      rfl
    have herase : exec (.eraseSector p fetch) s = .next (State.fwRegs ((s.fwFetch p fetch).fwStart p (s.fwAddr p) true false
        fun t => (t.fwClearBit (fwSector (s.fwAddr p))).fwBegin ⟨p, true, s.fwAddr p, [], false⟩)) := by
      refine congrArg Host.Outcome.next ((State.fwCmd_free hp hfree _).trans ?_)
      dsimp only
      rw [hbase, bne_self_eq_false]
    rw [hprogram, herase]
    refine ⟨fun hbar => ?_, fun hbar hprot => ?_, fun hbar hprot hself => ?_, fun hbar hprot hself => ⟨?_, ?_, ?_⟩⟩
    · rw [State.fwStart_barred hbar, State.fwStart_barred hbar]
      exact ⟨rfl, rfl⟩
    · rw [State.fwStart_protected hbar hprot, State.fwStart_protected hbar hprot]
      exact ⟨rfl, rfl⟩
    · rw [State.fwStart_self hbar hprot hself, State.fwStart_self hbar hprot hself]
      exact ⟨rfl, rfl⟩
    · intro hroom
      rw [State.fwStart_erase hbar hprot hself, if_pos hroom]
      rfl
    · intro hroom
      rw [State.fwStart_erase hbar hprot hself, if_neg (Bool.eq_false_iff.not.mpr (not_not_intro hroom))]
      rfl
    · intro hnew
      rw [State.fwStart_program hbar hprot hself hnew]
      rfl
  case finish =>
    intro s b hb
    have hend : exec (.fwfOperationEnd b) s = .next (s.fwEnd b) :=
      congrArg (fun k => Host.Outcome.next (s.fwEnd k)) (Nat.mod_eq_of_lt hb)
    rw [hend]
    refine ⟨fun hnone => ?_, fun o ho => ⟨(s.setFwOps b ((s.fwOps b).filter (fun x => x.suspended))).fwEffect o, ?_, ?_, ?_⟩⟩
    · rw [State.fwEnd, hnone]
    · rw [State.fwEnd_running ho]
      rfl
    · intro hprogram
      rw [State.fwEffect, hprogram]
      exact ⟨mem_setIns_self _ _, rfl⟩
    · intro herase
      rw [State.fwEffect, herase]
      exact ⟨_, rfl⟩
  case prot =>
    rintro s p i on hp hfree rfl c
    rw [exec_prot hp hfree on]
    refine ⟨fun h => ?_, fun hbase h2 h3 hlock => ?_, fun hbase h2 h3 hlock => ?_,
      congrArg Host.Outcome.next (State.fwCmd_free hp hfree _)⟩
    · rw [State.fwProtSet_illegal h]
    · rw [State.fwProtSet_locked (by simp only [hbase, h2, h3, ne_eq, not_true_eq_false, or_self, not_false_eq_true]) hlock]
    · rw [State.fwProtSet_open (by simp only [hbase, h2, h3, ne_eq, not_true_eq_false, or_self, not_false_eq_true]) hlock]

end Sys2Proof.Machine

namespace Sys2Proof.Machine

/-! The vendor SPDM requests and debug certificates (R655, R659, R660, R671, R672). -/

section
variable {s : State}

/-! ### What DRAM and the flash reads do leaves the security unit -/

@[simp] theorem State.setFolio_sec (f : Nat) (x : Folio) : (s.setFolio f x).sec = s.sec := rfl

@[simp] theorem State.dramPut_sec (line mask : Nat) (data : Line) : (s.dramPut line mask data).sec = s.sec := rfl

@[simp] theorem State.mergeOut_sec (m : MergeEntry) : (s.mergeOut m).sec = s.sec := rfl

@[simp] theorem State.dramWrite_sec (line mask : Nat) (data : Line) : (s.dramWrite line mask data).sec = s.sec := by
  unfold State.dramWrite
  dsimp only
  split
  · rfl
  · split
    · rfl
    · split
      · split <;> rfl
      · split
        · split <;> rfl
        · rfl

theorem State.takeFrameOf_sec {ok : Nat → Bool} {f : Nat} {t : State} (h : s.takeFrameOf ok = some (f, t)) :
    t.sec = s.sec := by
  unfold State.takeFrameOf at h
  dsimp only at h
  split at h <;> cases h
  rfl

theorem State.pairFrameFor_sec {x : Folio} {f : Nat} {t : State} (h : s.pairFrameFor x = some (f, t)) :
    t.sec = s.sec := by
  unfold State.pairFrameFor State.takeFrame State.frameBeside at h
  split at h
  · exact State.takeFrameOf_sec h
  · split at h
    · next hbeside => exact State.takeFrameOf_sec (hbeside.trans h)
    · exact State.takeFrameOf_sec h

@[simp] theorem State.takePair_sec (f : Nat) : (s.takePair f).sec = s.sec := by
  unfold State.takePair
  dsimp only
  split
  · rfl
  · split
    · next hfor => exact (State.pairFrameFor_sec hfor :)
    · rfl

@[simp] theorem State.wakePair_sec (f : Nat) : (s.wakePair f).sec = s.sec := by
  unfold State.wakePair
  split <;> rfl

@[simp] theorem State.secondWrite_sec (line mask : Nat) (data : Line) : (s.secondWrite line mask data).sec = s.sec := by
  simp [State.secondWrite]

@[simp] theorem State.markLine_sec (line : Nat) : (s.markLine line).sec = s.sec := by
  unfold State.markLine
  dsimp only
  split <;> rfl

@[simp] theorem State.dramStore_sec (e : Rgn) (line mask : Nat) (data : Line) : (s.dramStore e line mask data).sec = s.sec := by
  simp [State.dramStore, apply_ite State.sec]

@[simp] theorem State.writeBack_sec (k : Nat) (c : CLine) : (s.writeBack k c).sec = s.sec := by
  unfold State.writeBack
  dsimp only
  split
  · cases s.regionAt (c.line * 64) <;> simp [State.cacheCount]
  · rfl

theorem State.folioCells_sec (f : Nat) : (s.folioCells f).2.sec = s.sec := by
  have hlines : (s.cleanFolioLines f).sec = s.sec :=
    State.foldl_proj State.sec (fun _ (p : Nat × CLine) => State.writeBack_sec p.1 p.2) _
  have hmerge (t : State) : (t.mergeFolio f).sec = t.sec := State.foldl_proj State.sec (fun _ m => State.mergeOut_sec m) _
  exact (hmerge _).trans hlines

theorem State.grant_sec (stage : Nat) (waiting : List Nat) : (s.grant stage waiting).2.sec = s.sec := by
  unfold State.grant
  dsimp only
  split
  · rfl
  · split <;> rfl

theorem State.issueDie_sec (die n : Nat) : (s.issueDie die n).sec = s.sec := by
  induction n generalizing s with
  | zero => rfl
  | succ n ih =>
    rw [State.issueDie]
    dsimp only
    split
    · rfl
    · split
      · exact ih.trans (State.grant_sec _ _)
      · exact State.grant_sec _ _

theorem State.readMove_sec (f cls : Nat) : (s.readMove f cls).sec = s.sec := by
  unfold State.readMove
  split
  · exact State.foldl_proj State.sec (fun _ die => State.issueDie_sec die _) _
  · rfl

theorem State.retag_sec : s.retag.sec = s.sec := by
  unfold State.retag
  split
  · rfl
  · refine State.foldl_proj State.sec (fun t x => ?_) _
    dsimp only
    split
    · rfl
    · split
      · exact State.folioCells_sec _
      · exact State.readMove_sec _ _
      · rfl

/-! ### What the key store does leaves the security unit (R663) -/

theorem State.fwHardware_sec (a : Nat) (bs : List Byte) : (s.fwHardware a bs).sec = s.sec := by
  have hcount (t : State) (b : Nat) : (t.fwCountSuspend b).sec = t.sec := by
    unfold State.fwCountSuspend
    dsimp only
    split
    · exact raiseD_sec _ _ _
    · rfl
  unfold State.fwHardware
  split
  · exact hcount s 0
  · rfl

theorem State.fwClearBit_sec (i : Nat) : (s.fwClearBit i).sec = s.sec := State.fwHardware_sec _ _

theorem State.fwEraseWhole_sec (i : Nat) : (s.fwEraseWhole i).sec = s.sec :=
  (State.fwClearBit_sec i).trans (State.fwClearBit_sec (s := s) i)

@[simp] theorem State.pageProg_sec (a : Nat) (bs : List Byte) : (s.pageProg a bs).sec = s.sec := rfl

theorem State.storeWrite_sec (slot kind : Nat) (blob : List Byte) : (s.storeWrite slot kind blob).sec = s.sec := by
  unfold State.storeWrite
  cases newestRec s.storeRecs fun _ _ => true <;> dsimp only <;> split <;>
    simp only [State.pageProg_sec, State.fwEraseWhole_sec, State.foldl_proj State.sec fun _ _ => State.pageProg_sec _ _]

theorem State.freeBytes_sec (n : Nat) : (s.freeBytes n).2.sec = s.sec := by
  induction n generalizing s with
  | zero => rfl
  | succ n ih => exact ih

theorem State.deriveKek_sec : s.deriveKek.sec = s.sec := by
  unfold State.deriveKek
  split
  · rfl
  · dsimp only
    rw [apply_ite State.sec, State.storeWrite_sec, State.freeBytes_sec]
    exact ite_self _

theorem State.fuseRegs_sec : s.fuseRegs.sec = s.sec := by
  unfold State.fuseRegs
  split <;> rfl

/-- Loading the stored keys takes a copy of the strike key at most. -/
theorem State.loadStored_proj {β : Type} (π : State → β) (hregs : ∀ t x, π { t with regs := x } = π t)
    (hstrike : ∀ t : State, π t.loadStrike = π t) : π s.loadStored = π s := by
  unfold State.loadStored
  split
  · rfl
  · next g hg =>
    dsimp only
    generalize hloaded : (upto 224).foldl _ s = t
    have ht : π t = π s := by
      rw [← hloaded]
      refine State.foldl_proj π (fun t k => ?_) _
      split
      · split
        · exact hregs t _
        · rfl
      · rfl
    split
    · rw [apply_ite π, hstrike, ht]
      exact ite_self _
    · exact ht

/-! ### Owner generations and the latch (R655, R659, R671) -/

theorem State.seedProgram_full {ch hash : Nat} (h : 4 ≤ s.owners.length) :
    s.seedProgram ch hash = s.send (.spdm ch 0x7E [0x13]) := if_pos h

theorem State.seedProgram_raises {ch hash : Nat} (h : s.owners.length < 4) :
    ∃ u : State, s.seedProgram ch hash = u.raiseD 0xE8D s.owners.length := ⟨_, if_neg (Nat.not_le.mpr h)⟩

theorem State.seedProgram_seeds {ch hash : Nat} (h : s.owners.length < 4) :
    (s.seedProgram ch hash).sec.seeds = s.sec.seeds ++ [hash % 2 ^ 512] := by
  unfold State.seedProgram
  rw [if_neg (Nat.not_le.mpr h), raiseD_sec]
  dsimp only
  generalize hput : ({ s with sec := { s.sec with seeds := s.sec.seeds ++ [hash % 2 ^ 512] } } : State) = t
  have hseeds : t.fuseRegs.sec.seeds = s.sec.seeds ++ [hash % 2 ^ 512] := by
    rw [State.fuseRegs_sec, ← hput]
  have hkek : t.fuseRegs.deriveKek.sec.seeds = s.sec.seeds ++ [hash % 2 ^ 512] := by
    rw [State.deriveKek_sec, hseeds]
  split
  · exact hseeds
  · split
    · exact hkek
    · exact hkek

/-- Both copies of the latch are clear. -/
def State.latchClear (s : State) : Prop := s.sec.latchAon = false ∧ s.sec.latchDue = false

theorem State.reunwrap_latch : s.reunwrap.latchClear := by
  have hcopies (t : State) : (t.sec.latchAon, t.sec.latchDue) = (false, false) → t.latchClear := Prod.mk.inj
  unfold State.reunwrap
  refine hcopies _ ?_
  rw [State.retag_sec, raise_sec]
  rw [State.loadStored_proj (fun t => (t.sec.latchAon, t.sec.latchDue)) (fun _ _ => rfl) (fun _ => rfl), State.deriveKek_sec]
  rfl

/-! ### A vendor request (R655) -/

section
variable {ch id : Nat} {owner : State → Option Nat} {body : State → State}

theorem State.vendorReq_closed (hup : s.spdmUp ch = true)
    (h : s.vendorChan ch = false ∨ ∀ x ∈ s.session ch id, x.finished = false) :
    s.vendorReq ch id owner body = (s.send (.spdm ch 0x7F [0x07, 0])).raise Ev.SPDM_AUTH_FAIL := by
  have hclosed : ((s.session ch id).all fun x => !x.finished) = true ∨ s.vendorChan ch = false := by
    refine h.symm.imp_left fun hopen => ?_
    cases hx : s.session ch id with
    | none => rfl
    | some x => simp [hopen x hx]
  simp only [State.vendorReq, hup, Bool.not_true, Bool.false_eq_true, if_false, if_pos hclosed]
  rfl

/-- The state after one more message of a session is counted (R665). -/
def State.sessionCounted (s : State) (id : Nat) : State :=
  { s with sec := { s.sec with counters := mapSet s.sec.counters (1024 + id) (mapGet 0 s.sec.counters (1024 + id) + 1) } }

variable {x : SpdmSession}

theorem State.inSession_finished {act : State → SpdmSession → State} (hup : s.spdmUp ch = true) (hstage : 3 ≤ s.connStage ch)
    (hx : s.session ch id = some x) (hfinished : x.finished = true)
    (hroom : mapGet 0 s.sec.counters (1024 + id) + 1 < 2 ^ 64 - 2 ^ 20) :
    s.inSession ch id act = act (s.sessionCounted id) x := by
  have hlow : ¬ 2 ^ 64 - 1 ≤ mapGet 0 s.sec.counters (1024 + id) := by omega
  simp only [State.inSession, State.spdmReq, hup, Nat.not_lt.mpr hstage, hx, hfinished, hlow, Nat.ne_of_lt hroom,
    Bool.not_true, Bool.false_eq_true, if_false]
  rfl

variable (hup : s.spdmUp ch = true) (hstage : 3 ≤ s.connStage ch) (hchan : s.vendorChan ch = true)
  (hx : s.session ch id = some x) (hfinished : x.finished = true)
  (hroom : mapGet 0 s.sec.counters (1024 + id) + 1 < 2 ^ 64 - 2 ^ 20)
include hup hstage hchan hx hfinished hroom

/-- A request in a finished session is counted, and then judged by the key that the session was authenticated with. -/
theorem State.vendorReq_open : s.vendorReq ch id owner body = match owner (s.sessionCounted id) with
    | none => body (s.sessionCounted id)
    | some key => if x.mutualAuth && x.leaf == key then body (s.sessionCounted id)
      else ((s.sessionCounted id).vendorTell ch St.ACCESS_DENIED []).raise Ev.SPDM_AUTH_FAIL := by
  have hopen : ¬ (((s.session ch id).all fun x => !x.finished) = true ∨ s.vendorChan ch = false) := by
    simp [hx, hfinished, hchan]
  simp only [State.vendorReq, hup, Bool.not_true, Bool.false_eq_true, if_false, if_neg hopen]
  exact State.inSession_finished hup hstage hx hfinished hroom

theorem State.vendorReq_owner {g : Nat} (hg : owner (s.sessionCounted id) = some g) (hauth : x.mutualAuth = true)
    (hleaf : x.leaf = g) : s.vendorReq ch id owner body = body (s.sessionCounted id) := by
  rw [State.vendorReq_open hup hstage hchan hx hfinished hroom, hg]
  exact if_pos (by rw [hauth, hleaf, beq_self_eq_true, Bool.and_self])

theorem State.vendorReq_stranger {g : Nat} (hg : owner (s.sessionCounted id) = some g)
    (hother : x.mutualAuth = false ∨ x.leaf ≠ g) : s.vendorReq ch id owner body =
      ((s.sessionCounted id).send (.spdm ch 0x7E [0x09])).raise Ev.SPDM_AUTH_FAIL := by
  rw [State.vendorReq_open hup hstage hchan hx hfinished hroom, hg]
  exact if_neg (by simpa using fun h => hother.resolve_left (by simp [h]))

theorem State.vendorReq_anyone (hnone : owner (s.sessionCounted id) = none) :
    s.vendorReq ch id owner body = body (s.sessionCounted id) := by
  rw [State.vendorReq_open hup hstage hchan hx hfinished hroom, hnone]

end

/-! ### Debug certificates (R672) -/

section
variable {cert : List Byte} {good : Bool}

/-- The two fields of SEC_DEBUG lie apart. -/
theorem State.issuer_setFld_level (level : Nat) :
    (s.setFld F.SEC_DEBUG_level 0 level).fld F.SEC_DEBUG_issuer 0 = s.fld F.SEC_DEBUG_issuer 0 :=
  s.regs.fld_set_other (f := F.SEC_DEBUG_level) (g := F.SEC_DEBUG_issuer) 0 level (by decide) rfl (by decide)

theorem State.debugJudge_refused (h : s.certOk cert good = false) :
    s.debugJudge cert good = (s.raise Ev.DEBUG_REFUSED, false) := if_neg (Bool.eq_false_iff.mp h)

theorem State.debugJudge_accepted (h : s.certOk cert good = true) : ∃ t : State, s.debugJudge cert good =
    ((((t.setFld F.SEC_DEBUG_issuer 0 (leAt cert 4 1)).setFld F.SEC_DEBUG_level 0 (leAt cert 5 1)).measure 5 cert).raiseD
      Ev.DEBUG_UNLOCKED (leAt cert 5 1), true) := ⟨_, if_pos h⟩

/-- A certificate that is accepted names issuer 1 or 2 and level 1 or 2. -/
theorem State.certOk_small (h : s.certOk cert good = true) : leAt cert 4 1 < 4 ∧ leAt cert 5 1 < 4 := by
  simp only [State.certOk, Bool.and_eq_true, Bool.or_eq_true, beq_iff_eq] at h
  omega

end

end

/-- Settles O21: a request is refused, counted and judged by its session's key, or judges its certificate. -/
theorem vendorSpdmRequestsNeedTheirOwner : Obligations.VendorSpdmRequestsNeedTheirOwner := by
  refine ⟨?closed, ?session, fun s ch hash => ⟨State.seedProgram_full, fun h =>
    ⟨State.seedProgram_seeds h, State.seedProgram_raises h⟩⟩, fun s ch b h => if_pos (Or.inl h), fun s => State.reunwrap_latch,
    ?refused, ?accepted⟩
  case closed =>
    intro s ch id hash b ok hup h
    have hall (owner body) : s.vendorReq ch id owner body = _ := State.vendorReq_closed hup h
    exact ⟨next_settle (hall _ _), congrArg Host.Outcome.next (hall _ _), next_settle (hall _ _), next_settle (hall _ _)⟩
  case session =>
    intro s ch id hash b x g hup hstage hchan hx hfinished hg hroom
    have hgs : (s.sessionCounted id).owners.getLast? = some g := hg
    have hgk : some (s.sessionCounted id).ownerNow = some g := congrArg (fun o => some (o.getD (2 ^ 512))) hgs
    refine ⟨s.sessionCounted id, rfl, rfl, rfl, fun hauth hleaf => ?_, fun hother => ?_, fun good hbad => ?_⟩
    · have hdone (owner body) (ho : owner (s.sessionCounted id) = some g) : s.vendorReq ch id owner body = _ :=
        State.vendorReq_owner hup hstage hchan hx hfinished hroom ho hauth hleaf
      exact ⟨next_settle (hdone _ _ hgs), congrArg Host.Outcome.next (hdone _ _ hgk), next_settle (hdone _ _ hgk)⟩
    · have hdenied (owner body) (ho : owner (s.sessionCounted id) = some g) : s.vendorReq ch id owner body = _ :=
        State.vendorReq_stranger hup hstage hchan hx hfinished hroom ho hother
      exact ⟨next_settle (hdenied _ _ hgs), congrArg Host.Outcome.next (hdenied _ _ hgk), next_settle (hdenied _ _ hgk)⟩
    · have hjudge : (s.sessionCounted id).debugJudge b good = ((s.sessionCounted id).raise Ev.DEBUG_REFUSED, false) :=
        State.debugJudge_refused hbad
      refine next_settle ((State.vendorReq_anyone hup hstage hchan hx hfinished hroom rfl).trans ?_)
      rw [hjudge]
      rfl
  case refused =>
    intro s b good hup hbad
    have hjudge := State.debugJudge_refused hbad
    refine congrArg Host.Outcome.next ((if_pos hup).trans ?_)
    rw [hjudge]
  case accepted =>
    intro s b hup hok
    obtain ⟨t, hjudge⟩ := State.debugJudge_accepted hok
    obtain ⟨hissuer, hlevel⟩ := State.certOk_small hok
    refine ⟨(t.setFld F.SEC_DEBUG_issuer 0 (leAt b 4 1)).setFld F.SEC_DEBUG_level 0 (leAt b 5 1), ?_, ?_, ?_⟩
    · refine congrArg Host.Outcome.next ((if_pos hup).trans ?_)
      rw [hjudge]
    · rw [State.issuer_setFld_level, State.fld_setFld_self _ _ _ (by decide)]
      exact Nat.mod_eq_of_lt hissuer
    · rw [State.fld_setFld_self _ _ _ (by decide)]
      exact Nat.mod_eq_of_lt hlevel

end Sys2Proof.Machine

namespace Sys2Proof.Machine

/-! The checks of a mailbox command before it runs (R124, R127, R128, R130, R617). -/

section
open Sys2Proof.Claims
variable {s : State} {mb op len : Nat} {admin fence : Bool} {input : List Byte} {body : State → State}

theorem State.vendor_held (h : s.mailUp = false) :
    s.vendor mb op len admin fence input body = s.holdMail mb op input := by
  simp [vendor, h]

theorem State.vendor_length (hup : s.mailUp = true) (hlen : input.length ≠ len) :
    s.vendor mb op len admin fence input body = s.send (.mailbox mb op .invalidLength []) := by
  simp [vendor, hup, hlen]

theorem State.vendor_denied (hup : s.mailUp = true) (hlen : input.length = len) (ha : admin = true)
    (hdeny : s.mbAdmin mb = false) :
    s.vendor mb op len admin fence input body = s.answer mb op St.ACCESS_DENIED [] := by
  simp [vendor, hup, hlen, ha, hdeny]

theorem State.vendor_fenced (hup : s.mailUp = true) (hlen : input.length = len) (ha : admin = true → s.mbAdmin mb = true)
    (hf : fence = true) (hfence : s.cmdFenced = true) :
    s.vendor mb op len admin fence input body = s.answer mb op St.FENCED [] := by
  cases admin <;> simp_all [vendor]

theorem State.vendor_runs (hup : s.mailUp = true) (hlen : input.length = len) (ha : admin = true → s.mbAdmin mb = true)
    (hf : fence = true → s.cmdFenced = false) : s.vendor mb op len admin fence input body = body s := by
  cases admin <;> cases fence <;> simp_all [vendor]

/-- A standard command meets the checks of a vendor command that needs no right and that no fence refuses. -/
theorem State.standard_eq_vendor : s.standard mb op len input body = s.vendor mb op len false false input body := by
  simp [standard, vendor]

theorem State.standard_runs (hup : s.mailUp = true) (hlen : input.length = len) : s.standard mb op len input body = body s := by
  simp [standard, hup, hlen]

end

section
open Sys2Proof.Claims

/-- Before it runs, the command of the row meets the row's own checks. -/
def MailChecked (r : MailRow) : Prop := ∃ body : Nat → List Byte → State → State, ∀ mb input s,
  exec (r.cmd mb input) s = .next (s.vendor mb r.op r.len r.admin r.fence input (body mb input))

/-- A row whose command is a standard one. -/
theorem mailChecked_of_standard {c : Nat → List Byte → Instr} {op len : Nat} (body : Nat → List Byte → State → State)
    (h : ∀ mb input s, exec (c mb input) s = .next (s.standard mb op len input (body mb input))) :
    MailChecked ⟨c, op, len, false, false⟩ :=
  ⟨body, fun mb input s => (h mb input s).trans (congrArg _ State.standard_eq_vendor)⟩

theorem mailStandardRows_checked : ∀ r ∈ mailStandardRows, MailChecked r := by
  simp only [mailStandardRows, List.forall_mem_cons, List.not_mem_nil, false_implies, implies_true, and_true]
  and_intros
  all_goals exact mailChecked_of_standard _ fun _ _ _ => rfl

theorem mailVendorRows_checked : ∀ r ∈ mailVendorRows, MailChecked r := by
  simp only [mailVendorRows, List.forall_mem_cons, List.not_mem_nil, false_implies, implies_true, and_true]
  and_intros
  all_goals exact ⟨_, fun _ _ _ => rfl⟩

/-- Settles O11: each row's command is one application of the shared checks, and those answer in the order of R127 to R130. -/
theorem mailboxCommandsAreHeldMeasuredAndAdmitted : Obligations.MailboxCommandsAreHeldMeasuredAndAdmitted := by
  intro r hr mb input s
  obtain ⟨body, hexec⟩ : MailChecked r := (List.mem_append.mp hr).elim (mailStandardRows_checked r) (mailVendorRows_checked r)
  have hnext {t : State} (h : s.vendor mb r.op r.len r.admin r.fence input (body mb input) = t) :
      exec (r.cmd mb input) s = .next t := (hexec mb input s).trans (congrArg _ h)
  exact ⟨fun hdown => hnext (State.vendor_held hdown),
    fun hup hlen => hnext (State.vendor_length hup hlen),
    fun hup hlen hadmin hdeny => hnext (State.vendor_denied hup hlen hadmin hdeny),
    fun hup hlen hadmin hfence hfenced => hnext (State.vendor_fenced hup hlen hadmin hfence hfenced)⟩

end
end Sys2Proof.Machine

namespace Sys2Proof.Machine

/-! The standard commands of a memory device (R100, R124, R125, R698). -/

section
open Sys2Proof.Claims

theorem State.freeBytes_length (s : State) (n : Nat) : (s.freeBytes n).1.length = n := by
  induction n generalizing s with
  | zero => rfl
  | succ n ih => exact congrArg Nat.succ (ih _)

/-- Drawing free values moves the count of those drawn and nothing else. -/
theorem State.freeBytes_snd (s : State) (n : Nat) : (s.freeBytes n).2 = { s with fresh := s.fresh + n } := by
  induction n generalizing s with
  | zero => rfl
  | succ n ih => exact (ih _).trans (by simp [nextFresh, Nat.add_assoc, Nat.add_comm 1])

variable {s : State} {c : Instr} {mb op len : Nat} {input : List Byte} {body : State → State}

theorem exec_standard (h : exec c s = .next (s.standard mb op len input body)) (hup : s.mailUp = true)
    (hlen : input.length = len) {t : State} (ht : body s = t) : exec c s = .next t :=
  h.trans (congrArg _ ((State.standard_runs hup hlen).trans ht))

theorem answers_standard {p : State → Prop} (h : exec c s = .next (s.standard mb op len input body)) (hup : s.mailUp = true)
    (hlen : input.length = len) (hp : p (body s)) : Answers c s p :=
  ⟨_, exec_standard h hup hlen rfl, hp⟩

@[simp] theorem State.mbox_setMbox (k : Nat) (m : MboxState) : (s.setMbox mb m).mbox k = if k = mb then m else s.mbox k :=
  mapGet_set ..

theorem execGetLog_answers (hup : s.mailUp = true) (hlen : input.length = 24) (hn : leAt input 20 4 ≤ 4096) :
    exec (.getLog mb input) s = .next ((s.freeBytes (leAt input 20 4)).2.answerStd mb 0x0401
      (s.freeBytes (leAt input 20 4)).1) :=
  exec_standard rfl hup hlen (if_neg (by omega))

theorem execGetEventRecords_answers (hup : s.mailUp = true) (hlen : input.length = 1) (hsev : leAt input 0 1 ≤ 3) (l : LdLog)
    (hl : l = s.ldLog ((s.mbLd mb).getD mb) (leAt input 0 1)) :
    exec (.getEventRecords mb input) s = .next (s.send (.mailbox mb 0x0100 .success
      (leBytes 1 (b2n (decide (0 < l.lost)) + 2 * b2n (decide (31 < l.recs.length))) ++ leBytes 1 0 ++ leBytes 2 l.lost ++
        leBytes 16 0 ++ leBytes 2 (l.recs.take 31).length ++ leBytes 10 0 ++ (l.recs.take 31).flatMap CoreEntry.record))) := by
  subst hl
  exact exec_standard rfl hup hlen (if_neg (by omega))

/-- The state with an empty event log of one logical device and severity. -/
def State.logCleared (s : State) (n sev : Nat) : State :=
  { s with evt := { s.evt with logs := mapSet s.evt.logs (n * 4 + sev) { recs := [], lost := 0 } } }

theorem State.ldLog_logCleared (n sev k j : Nat) : (s.logCleared n sev).ldLog k j =
    if k * 4 + j = n * 4 + sev then ⟨[], 0⟩ else s.ldLog k j :=
  mapGet_set ..

theorem execClearEventRecords_all (hup : s.mailUp = true) (hmin : 6 ≤ input.length)
    (hlen : input.length = 6 + 2 * leAt input 2 1) (hsev : leAt input 0 1 ≤ 3) (hall : bitB (leAt input 1 1) 0 = true) :
    exec (.clearEventRecords mb input) s = .next ((s.logCleared ((s.mbLd mb).getD mb) (leAt input 0 1)).answerStd mb 0x0101 []) := by
  have hlength : ¬ (input.length < 6 ∨ input.length ≠ 6 + 2 * leAt input 2 1) := by omega
  have hknown : ¬ 3 < leAt input 0 1 := by omega
  simp only [exec, execClearEventRecords, hup, hlength, hknown, hall, Bool.not_true, Bool.false_eq_true, if_false, if_true]
  rfl

theorem execSetLsa_writes (hup : s.mailUp = true) (hmin : 8 ≤ input.length)
    (hroom : leAt input 0 4 + (input.length - 8) ≤ 0x20000) :
    exec (.setLsa mb input) s = .next (({ s with host := { s.host with
      lsa := memWriteN 0 s.host.lsa (mb * 0x20000 + leAt input 0 4) (input.drop 8) } }).answerStd mb 0x4103 []) := by
  have hlength : ¬ input.length < 8 := by omega
  have hfits : ¬ 0x20000 < leAt input 0 4 + (input.length - 8) := by omega
  simp only [exec, execSetLsa, hup, hlength, hfits, Bool.not_true, Bool.false_eq_true, if_false]

/-- The LOST folios whose first byte lies in a range of DPA (R125). -/
def State.lostIn (s : State) (base span : Nat) : List Nat :=
  (s.ink.folios.filter (fun p => p.2.lost && decide (base ≤ p.1 * 65536) && decide (p.1 * 65536 < base + span))).map
    (fun p => p.1)

theorem State.mem_lostIn (base span f : Nat) : f ∈ s.lostIn base span ↔
    ∃ x, (f, x) ∈ s.ink.folios ∧ x.lost = true ∧ base ≤ f * 65536 ∧ f * 65536 < base + span := by
  simp [lostIn, and_assoc]

/-- Settles O12: a standard command with an input of its length runs, and each answer is read off its body. -/
theorem standardMailboxCommandsAnswer : Obligations.StandardMailboxCommandsAnswer := by
  intro s mb hup
  refine ⟨?identify, ?health, ?getTime, ?setTime, ?logs, ?log, fun input hlen hsev l hl =>
    execGetEventRecords_answers hup hlen hsev l hl, ?clear, ?getPolicy, ?setPolicy, ?getAlerts, ?setAlerts, ?partition, ?getLsa,
    ?setLsa, ?poison, fun opcode => congrArg _ (if_pos hup)⟩
  case getTime | getPolicy | getAlerts | partition => exact exec_standard rfl hup List.length_nil rfl
  case identify =>
    refine ⟨(s.freeBytes 16).1, ((s.freeBytes 16).2.freeBytes 9).1, s.freeBytes_length 16, State.freeBytes_length _ 9,
      answers_standard rfl hup rfl ?_⟩
    simp [State.answerStd, State.freeBytes_snd, State.send]
  case health =>
    refine ⟨(s.freeBytes 1).1, ((s.freeBytes 1).2.freeBytes 16).1, s.freeBytes_length 1, State.freeBytes_length _ 16,
      answers_standard rfl hup rfl ?_⟩
    simp [State.answerStd, State.freeBytes_snd, State.send]
  case setTime =>
    intro input hlen
    refine answers_standard rfl hup hlen ⟨?_, ?_, fun k hk => ?_, rfl⟩
    · exact congrArg MboxState.timestamp (mapGet_set_self _ _ _ _)
    · exact congrArg MboxState.timeSetAt (mapGet_set_self _ _ _ _)
    · exact (State.mbox_setMbox k _).trans (if_neg hk)
  case logs =>
    refine ⟨(s.freeBytes 20).1, s.freeBytes_length 20, answers_standard rfl hup rfl ?_⟩
    simp [State.answerStd, State.freeBytes_snd, State.send]
  case log =>
    intro input hlen hn
    refine ⟨_, s.freeBytes_length _, _, execGetLog_answers hup hlen hn, ?_⟩
    simp [State.answerStd, State.freeBytes_snd, State.send]
  case clear =>
    intro input hmin hlen hsev hall
    refine ⟨_, execClearEventRecords_all hup hmin hlen hsev hall, ?_, fun n sev hne => ?_, rfl⟩
    · exact (State.ldLog_logCleared _ _ _ _).trans (if_pos rfl)
    · exact (State.ldLog_logCleared _ _ _ _).trans (if_neg hne)
  case setPolicy | setAlerts =>
    intro input hlen
    exact answers_standard rfl hup hlen ⟨mapGet_set_self _ _ _ _, fun k hk => (State.mbox_setMbox k _).trans (if_neg hk), rfl⟩
  case getLsa =>
    intro input hlen hsize hroom
    exact exec_standard rfl hup hlen (if_neg (by omega))
  case setLsa =>
    intro input hmin hroom
    exact ⟨_, execSetLsa_writes hup hmin hroom, rfl, rfl, rfl⟩
  case poison =>
    intro input hlen
    exact ⟨s.lostIn (leAt input 0 8) (leAt input 8 8 * 64), State.mem_lostIn _ _, exec_standard rfl hup hlen rfl⟩

end
end Sys2Proof.Machine

namespace Sys2Proof.Machine

/-! Vendor commands that act on tables, ink, the cap, routing, records and tallies, and the registers that act as they do
(R102, R135, R172, R196, R198, R606, R698, R707, R712, R721, R766). -/

section
open Sys2Proof.Claims
variable {s : State} {c : Instr} {mb op len : Nat} {admin fence : Bool} {input : List Byte} {body : State → State}

theorem exec_vendor (h : exec c s = .next (s.vendor mb op len admin fence input body)) (hup : s.mailUp = true)
    (hlen : input.length = len) (ha : admin = false ∨ s.mbAdmin mb = true) (hf : fence = false ∨ s.cmdFenced = false) {t : State}
    (ht : body s = t) : exec c s = .next t :=
  h.trans (congrArg _ ((State.vendor_runs hup hlen (by simpa [or_iff_not_imp_left] using ha)
    (by simpa [or_iff_not_imp_left] using hf)).trans ht))

/-! ### Tables, ink and the cap -/

theorem exec_regionWrite (hup : s.mailUp = true) (hadmin : s.mbAdmin mb = true) (hfence : s.cmdFenced = false)
    (hlen : input.length = 40) (hr : leAt input 0 2 < 4096) : exec (.regionWrite mb input) s = .next
      ((s.setTabEntry false 0 (leAt input 0 2) [leAt input 8 8, leAt input 16 8, leAt input 24 8]).answer mb 0xC005 St.DONE []) :=
  exec_vendor rfl hup hlen (.inr hadmin) (.inr hfence) (if_neg (by omega))

theorem exec_accessStage (hup : s.mailUp = true) (hadmin : s.mbAdmin mb = true) (hfence : s.cmdFenced = false)
    (hlen : input.length = 144) : exec (.accessStage mb input) s = .next ((s.setTabEntry false 2 (leAt input 0 1)
      ((upto 17).map (fun w => leAt input (8 + 8 * w) 8))).answer mb 0xC006 St.DONE []) :=
  exec_vendor rfl hup hlen (.inr hadmin) (.inr hfence) rfl

theorem exec_accessCommit (hup : s.mailUp = true) (hadmin : s.mbAdmin mb = true) (hfence : s.cmdFenced = false)
    (hlen : input.length = 0) : exec (.accessCommit mb input) s = .next (if s.region.commit.isSome = true then
      s.answer mb 0xC007 St.RETRY_LATER [] else (s.startCommit (.mailbox mb)).settle) :=
  exec_vendor rfl hup hlen (.inr hadmin) (.inr hfence) rfl

theorem exec_persistBarrier (hup : s.mailUp = true) (hfence : s.cmdFenced = false) (hlen : input.length = 2) :
    exec (.persistBarrier mb input) s = .next (State.settle { s with host :=
      { s.host with barriers := s.host.barriers ++ [(mb, leAt input 0 2, s.path.nextAcc)] } }) :=
  exec_vendor rfl hup hlen (.inl rfl) (.inr hfence) rfl

theorem exec_inkLimitSet (hup : s.mailUp = true) (hadmin : s.mbAdmin mb = true) (hfence : s.cmdFenced = false)
    (hlen : input.length = 8) {u : State} (hu : u = (s.setInkLimit (leAt input 0 8 / 65536)).settle) :
    exec (.inkLimitSet mb input) s = .next (u.answer mb 0xC00A St.DONE (leBytes 7 0 ++
      leBytes 8 (u.fld F.INK_CEIL_ceiling 0 * 65536))) := by
  subst hu
  exact exec_vendor rfl hup hlen (.inr hadmin) (.inr hfence) rfl

theorem exec_inkLimitWrite (value : Nat) : exec (.inkLimitWrite value) s = .next (s.setInkLimit (value % 2 ^ 21)).settle :=
  congrArg (fun v => Host.Outcome.next (s.setInkLimit v).settle) ((bits_eq_div_mod value 20 0).trans (by simp))

/-- The cap is held between 60 and 110 W (R606). -/
theorem clampCap_eq (w : Nat) : clampCap w = max 60 (min 110 w) := by
  unfold clampCap
  split <;> [skip; split] <;> omega

theorem State.cap_setRw_clampCap (w : Nat) : (s.setRw F.SENT_PCAP_cap 0 (clampCap w)).fld F.SENT_PCAP_cap 0 =
    max 60 (min 110 w) := by
  rw [s.fld_setRw_self 0 _ (by decide), clampCap_eq]
  exact Nat.mod_eq_of_lt (show _ < 128 by omega)

theorem exec_powerCapSet (hup : s.mailUp = true) (hadmin : s.mbAdmin mb = true) (hlen : input.length = 2) :
    exec (.powerCapSet mb input) s = .next ((s.setRw F.SENT_PCAP_cap 0 (clampCap (leAt input 0 2))).answer mb 0xC016 St.DONE
      (leBytes 1 0 ++ leBytes 2 (clampCap (leAt input 0 2)))) :=
  exec_vendor rfl hup hlen (.inr hadmin) (.inl rfl) rfl

theorem exec_sentPcap (value : Nat) : exec (.sentPcap value) s = .next (s.setRw F.SENT_PCAP_cap 0 (clampCap (value % 128))) :=
  congrArg (fun v => Host.Outcome.next (s.setRw F.SENT_PCAP_cap 0 (clampCap v)))
    ((bits_eq_div_mod value 6 0).trans (by simp))

theorem exec_accCommit (value : Nat) : exec (.accCommit value) s = .next
    (if bitB value 31 = true ∧ s.region.commit = none then (s.startCommit .core).settle else s) :=
  congrArg Host.Outcome.next (ite_eq_of_iff (by simp) _ _)

theorem exec_commitEdge_idle (hnone : s.region.commit = none) (hqueue : s.region.queued = []) :
    exec .commitEdge s = .next s.settle := by
  have hedge : s.commitEdge = s := by simp [State.commitEdge, hnone]
  have hnext : s.nextCommit = s := by simp [State.nextCommit, hnone, hqueue]
  exact congrArg (fun t : State => Host.Outcome.next t.settle) ((congrArg State.nextCommit hedge).trans hnext)

/-! ### Event routing (R698) -/

/-- The state with a routing byte of a logical device set. -/
def State.routed (s : State) (n ev byte : Nat) : State :=
  { s with evt := { s.evt with routes := mapSet s.evt.routes (n * 4096 + ev) byte } }

theorem exec_eventRoute {n : Nat} (hup : s.mailUp = true) (hlen : input.length = 4) (hld : s.mbLd mb = some n)
    (hev : leAt input 0 2 < 4096) (hvec : leAt input 2 1 < 64) (hassigned : evIsAssigned (leAt input 0 2) = true) :
    exec (.eventRoute mb input) s = .next ((s.routed n (leAt input 0 2)
      ((if leAt input 3 1 = 0 then 0 else 128) + leAt input 2 1)).answer mb 0xC01F St.DONE []) := by
  have hvec' : ¬ 63 < leAt input 2 1 := by omega
  have hev' : ¬ 4096 ≤ leAt input 0 2 := by omega
  refine exec_vendor rfl hup hlen (.inl rfl) (.inl rfl) ?_
  simp only [hvec', hev', hassigned, hld, decide_false, Bool.not_true, Bool.or_false, Bool.false_eq_true, if_false]
  rfl

/-! ### Records (R707, R712) -/

theorem State.pbAck_status_lt (q : Nat) : (s.pbAck q).1 < 2 ^ 32 := by
  unfold State.pbAck
  split
  · exact (by decide : St.ILLEGAL < 2 ^ 32)
  · simp only [apply_ite Prod.fst]
    split_ifs <;> decide

theorem exec_pbookAck (hup : s.mailUp = true) (hadmin : s.mbAdmin mb = true) (hlen : input.length = 8) :
    exec (.pbookAck mb input) s = .next ((if (s.pbAck (leAt input 0 8)).1 = St.DONE then
      (s.pbAck (leAt input 0 8)).2.afterAck (leAt input 0 8) else (s.pbAck (leAt input 0 8)).2).answer mb 0xC013
        (s.pbAck (leAt input 0 8)).1 []) :=
  exec_vendor rfl hup hlen (.inr hadmin) (.inl rfl) rfl

theorem answers_pbookAckHi (value : Nat) : Answers (.pbookAckHi value) s fun t => (t.liveWord .PBOOK_ACK_STAT 0).toNat =
    ((s.setLive .PBOOK_ACK_HI 0 value).pbAck (value % 2 ^ 32 * 2 ^ 32 + (s.liveWord .PBOOK_ACK_LO 0).toNat)).1 := by
  refine ⟨_, rfl, (congrArg BitVec.toNat (Regs.word_put_self _ _ _ _)).trans ?_⟩
  exact (BitVec.toNat_ofNat _ _).trans (Nat.mod_eq_of_lt (State.pbAck_status_lt _))

/-- The state after a record has been entered in the lowest empty slot of the ring (R704, R710, log entry 20). -/
def State.pbEntered (s : State) (r : PbRecord) : State :=
  (({ s with pb := { s.pb with
      ring := mapSet s.pb.ring (freeSlotFrom 0 s.pb.ring) r
      urgentAt := if 2 ≤ r.severity ∧ s.pb.urgentAt.isNone then some s.clock else s.pb.urgentAt
      writer := s.pb.writer ++ [160] } } : State).setPbSeq (s.pbSeq + 1)).pbCounts

theorem State.pbWrite_enters (hring : s.pb.ring.length < 8192) (hwriter : s.pb.writer.length < 64)
    (kind sev event trigger detail : Nat) (caps : List (Nat × Nat)) :
    s.pbWrite kind sev event trigger detail caps = (s.pbEntered ⟨s.pbSeq, kind, sev, event, trigger, false, false, false, false,
      detail, s.pb.start, caps⟩, false) := by
  simp [pbWrite, pbRoom, pbSlotFor, hring, hwriter, pbEntered]

theorem State.toCore_unrouted {event : Nat} (hcore : s.fld F.EVT_SRC_core event = 0) (sev seq detail : Nat) :
    s.toCore event sev seq detail = (s, false) :=
  if_pos (by simp [State.flag, hcore])

theorem State.toHosts_unrouted (hroutes : s.evt.routes = []) (event sev seq detail : Nat) :
    s.toHosts event sev seq detail = s := by
  simp [toHosts, hroutes]

/-- Entering a record leaves the source entries of the events. -/
theorem State.core_pbEntered (r : PbRecord) {e : Nat} (he : e < 4096) :
    (s.pbEntered r).fld F.EVT_SRC_core e = s.fld F.EVT_SRC_core e := by
  have hleft (t : State) (f : Fld) (v : Nat) (hf : 0x2704000 ≤ f.reg.off 0) :
      (t.setFld f 0 v).fld F.EVT_SRC_core e = t.fld F.EVT_SRC_core e := by
    refine t.fld_setFld_reg v ?_
    have hoff : F.EVT_SRC_core.reg.off e = 0x2700000 + 4 * e := rfl
    omega
  exact (hleft _ F.PBOOK_STAT_fatal _ (by decide)).trans <| (hleft _ F.PBOOK_STAT_held _ (by decide)).trans <|
    (hleft _ F.PBOOK_SEQ_HI_seq _ (by decide)).trans <| hleft _ F.PBOOK_SEQ_LO_seq _ (by decide)

theorem State.core_addSat_count (e n : Nat) : (s.addSat F.EVT_SRC_count e n).fld F.EVT_SRC_core e = s.fld F.EVT_SRC_core e :=
  Regs.fld_set_other s.regs e _ (by decide) rfl (by decide)

/-- The record of a trigger that is fired (R707). -/
def State.firedRecord (s : State) (t : Nat) : PbRecord :=
  let u := s.addSat F.EVT_SRC_count Ev.PBOOK_FIRED 1
  ⟨u.pbSeq, 2, max (evSeverity Ev.PBOOK_FIRED) (u.fld F.PBOOK_TRIG_severity t), Ev.PBOOK_FIRED, t, false, false, false, false, t,
    u.pb.start, u.pbCapture t⟩

theorem State.pbSeq_addSat (e n : Nat) (he : e < 4096) : (s.addSat F.EVT_SRC_count e n).pbSeq = s.pbSeq := by
  have hoff : F.EVT_SRC_count.reg.off e = 0x2700000 + 4 * e := rfl
  have hlo : RegId.PBOOK_SEQ_LO.off 0 ≠ F.EVT_SRC_count.reg.off e := by
    have : 0x2704000 ≤ RegId.PBOOK_SEQ_LO.off 0 := by decide
    omega
  have hhi : RegId.PBOOK_SEQ_HI.off 0 ≠ F.EVT_SRC_count.reg.off e := by
    have : 0x2704000 ≤ RegId.PBOOK_SEQ_HI.off 0 := by decide
    omega
  exact congrArg₂ (fun a b => a + b * 2 ^ 32) (s.fld_setFld_reg _ hlo) (s.fld_setFld_reg _ hhi)

/-- A trigger that is fired leaves its record in the lowest empty slot, where no core and no host is told of it. -/
theorem exec_pbookFire (value : Nat) (hfire : bitB value 31 = true) (hring : s.pb.ring.length < 8192)
    (hwriter : s.pb.writer.length < 64) (hcore : s.fld F.EVT_SRC_core Ev.PBOOK_FIRED = 0) (hroutes : s.evt.routes = []) :
    exec (.pbookFire value) s = .next ((s.addSat F.EVT_SRC_count Ev.PBOOK_FIRED 1).pbEntered (s.firedRecord (value % 256))) := by
  have htrig : bits value 7 0 = value % 256 := (bits_eq_div_mod value 7 0).trans (by simp)
  have hcore' (r : PbRecord) :
      ((s.addSat F.EVT_SRC_count Ev.PBOOK_FIRED 1).pbEntered r).fld F.EVT_SRC_core Ev.PBOOK_FIRED = 0 := by
    rw [State.core_pbEntered r (by decide), State.core_addSat_count, hcore]
  have hquiet (r : PbRecord) (sev seq detail : Nat) := State.toCore_unrouted (hcore' r) sev seq detail
  have hsilent (r : PbRecord) (sev seq detail : Nat) :=
    State.toHosts_unrouted (s := (s.addSat F.EVT_SRC_count Ev.PBOOK_FIRED 1).pbEntered r) hroutes Ev.PBOOK_FIRED sev seq detail
  have hwrite := State.pbWrite_enters (s := s.addSat F.EVT_SRC_count Ev.PBOOK_FIRED 1) hring hwriter
  refine congrArg Host.Outcome.next ((if_pos hfire).trans ?_)
  simp only [htrig, hwrite, hquiet, hsilent, Bool.false_eq_true, if_false]
  rfl

theorem answers_pbookFire (value : Nat) (hfire : bitB value 31 = true) (hring : s.pb.ring.length < 8192)
    (hwriter : s.pb.writer.length < 64) (hcore : s.fld F.EVT_SRC_core Ev.PBOOK_FIRED = 0) (hroutes : s.evt.routes = []) :
    Answers (.pbookFire value) s fun t => ∃ r, mapGet? t.pb.ring (freeSlotFrom 0 s.pb.ring) = some r ∧
      r.event = Ev.PBOOK_FIRED ∧ r.kind = 2 ∧ r.trigger = value % 256 ∧ r.seq = s.pbSeq ∧ r.start = s.pb.start :=
  ⟨_, exec_pbookFire value hfire hring hwriter hcore hroutes, s.firedRecord (value % 256), mapGet?_set_self _ _ _, rfl, rfl, rfl,
    State.pbSeq_addSat _ _ (by decide), rfl⟩

theorem exec_ringTailRead {slot : Nat} (hslot : slot < 2048) : exec (.ringTailRead slot) s = .next
    (match mapGet? s.pb.ring (s.fld F.PBOOK_WIN_page 0 * 2048 + slot) with
      | some r => (s.pbMarkRead [r.seq]).send (.ctlRead (0x2900000 + slot * 512 + 504) r.seq)
      | none => s.send (.ctlRead (0x2900000 + slot * 512 + 504) 0)) := by
  have hmod : slot % 2048 = slot := Nat.mod_eq_of_lt hslot
  simp only [exec, execRingTailRead, hmod] <;> rfl

/-! ### Tallies (R721) -/

theorem State.tallySnap_pb (i : Nat) : (s.tallySnap i).pb = s.pb := by
  unfold State.tallySnap
  exact State.foldl_proj State.pb (fun _ _ => State.setLive_pb ..) _

theorem answers_tallyClear (index : Nat) (snap : Bool) : Answers (.tallyClear index snap) s fun t =>
    mapGet Tally.empty t.pb.tallies (index % 512) = Tally.empty ∧ t.pb.ring = s.pb.ring ∧
      ∀ k, k ≠ index % 512 → mapGet Tally.empty t.pb.tallies k = mapGet Tally.empty s.pb.tallies k := by
  have hpb : (if snap = true then s.tallySnap (index % 512) else s).pb = s.pb := by
    rw [apply_ite State.pb, State.tallySnap_pb, ite_self]
  refine ⟨_, rfl, ?_, (congrArg PBook.ring hpb :), fun k hk => ?_⟩
  · simp [mapGet, mapGet?_del]
  · simp [mapGet, mapGet?_del, hk, hpb]

/-- Settles O14: each command's rule, with the field, the byte or the record that it leaves. -/
theorem mailboxTablesInkRecordsAndRouting : Obligations.MailboxTablesInkRecordsAndRouting := by
  refine ⟨?mailbox, fun s value => exec_accCommit value, fun s hnone hqueue => exec_commitEdge_idle hnone hqueue,
    fun s value => exec_inkLimitWrite value, fun s value => ⟨_, exec_sentPcap value, State.cap_setRw_clampCap _, rfl⟩,
    fun mb hmb s => if_pos hmb, ?route, fun s value => answers_pbookAckHi value, fun s index => rfl,
    fun s index snap => answers_tallyClear index snap, ?unfired, fun s value hfire hring hwriter hcore hroutes =>
      answers_pbookFire value hfire hring hwriter hcore hroutes, ?tail⟩
  case mailbox =>
    intro s mb input hup hadmin hfence
    refine ⟨exec_regionWrite hup hadmin hfence, exec_accessStage hup hadmin hfence, exec_accessCommit hup hadmin hfence,
      fun hlen => ⟨_, exec_persistBarrier hup hfence hlen, rfl, rfl⟩,
      fun hlen => ⟨_, exec_inkLimitSet hup hadmin hfence hlen rfl, rfl⟩,
      fun hlen => ⟨_, exec_powerCapSet hup hadmin hlen, State.cap_setRw_clampCap _, ?_⟩,
      fun hlen => ⟨_, exec_pbookAck hup hadmin hlen, _, rfl⟩⟩
    rw [← clampCap_eq]
    rfl
  case route =>
    intro s mb n input hup hlen hld hev hvec hassigned
    exact ⟨_, exec_eventRoute hup hlen hld hev hvec hassigned, mapGet_set_self _ _ _ _,
      fun k hk => (mapGet_set _ _ _ _ _).trans (if_neg hk), rfl, rfl⟩
  case unfired =>
    intro s value hfire
    exact congrArg Host.Outcome.next (if_neg (by simp [hfire]))
  case tail =>
    intro s slot hslot
    refine ⟨_, exec_ringTailRead hslot, ?_⟩
    cases mapGet? s.pb.ring (s.fld F.PBOOK_WIN_page 0 * 2048 + slot) with
    | none => exact ⟨rfl, rfl⟩
    | some r => exact ⟨rfl, rfl⟩

end
end Sys2Proof.Machine

namespace Sys2Proof.Machine

/-! Maintenance jobs from submission to start (R128, R730 to R739). -/

section
open Sys2Proof.Claims
variable {s : State}

/-! ### The judgement (R731, R735) -/

/-- The job of a submission that is accepted. -/
def State.newJob (s : State) (fr : JobFrom) (act target p0 p1 p2 : Nat) : Job :=
  ⟨s.maint.nextId, act, target, p0, p1, p2, fr, 0, 0, 0, 0, s.clock, none⟩

/-- The state with a job behind the others, and the next id taken. -/
def State.enqueued (s : State) (j : Job) : State :=
  ({ s with maint := ⟨s.maint.jobs ++ [j], if s.maint.nextId = 4294967295 then 1 else s.maint.nextId + 1⟩ }).maintRegs

section
variable {fr : JobFrom} {queue : Bool} {act target p0 p1 p2 : Nat}

theorem State.submitStatus_ill (h : submitIll fr act target p0 p1 p2 = true) :
    s.submitStatus fr queue act target p0 p1 p2 = St.ILLEGAL := if_pos h

theorem State.submit_done (h : s.submitStatus fr queue act target p0 p1 p2 = St.DONE) :
    s.submit fr queue act target p0 p1 p2 =
      (s.enqueued (s.newJob fr act target p0 p1 p2), St.DONE, s.maint.nextId) := by
  have hnext : (if s.maint.nextId + 1 = 2 ^ 32 then 1 else s.maint.nextId + 1) =
      if s.maint.nextId = 4294967295 then 1 else s.maint.nextId + 1 := ite_eq_of_iff (by omega) _ _
  simp only [submit, h, hnext, if_true]
  rfl

theorem State.submit_conflict (h : s.submitStatus fr queue act target p0 p1 p2 = St.CONFLICT) :
    s.submit fr queue act target p0 p1 p2 = (s.raiseD Ev.MAINT_REFUSED act, St.CONFLICT, 0) := by
  simp only [submit, h]
  rfl

theorem State.submit_refused (hdone : s.submitStatus fr queue act target p0 p1 p2 ≠ St.DONE)
    (hconflict : s.submitStatus fr queue act target p0 p1 p2 ≠ St.CONFLICT) :
    s.submit fr queue act target p0 p1 p2 = (s, s.submitStatus fr queue act target p0 p1 p2, 0) := by
  simp only [submit, hdone, hconflict, if_false]

end

/-! ### The start (R732) -/

theorem State.job_setJob {i : Nat} {j k : Job} (hj : s.job i = some j) (hk : k.id = j.id) :
    (s.setJob k).job j.id = some k := by
  have hid : (j.id == i) = true := List.find?_some (p := fun x : Job => x.id == i) hj
  rw [← hk] at hid ⊢
  have hfind : s.maint.jobs.find? (fun x => x.id == k.id) = some j := by
    rw [eq_of_beq hid]
    exact hj
  have hsame : (fun x : Job => x.id == k.id) ∘ (fun x => if (x.id == k.id) = true then k else x) = fun x => x.id == k.id := by
    funext x
    by_cases hx : x.id = k.id <;> simp [hx]
  simp only [job, setJob, List.find?_map, hsame, hfind, Option.map_some]
  exact congrArg some (if_pos (beq_iff_eq.mpr hk.symm))

theorem State.job_markStarted {i : Nat} {j : Job} (hj : s.job i = some j) :
    (s.markStarted j).job j.id = some { j with state := 1, since := s.clock } := by
  have hmaint : (s.markStarted j).maint = (s.setJob { j with state := 1, since := s.clock }).maint := by
    simp only [markStarted, raiseD_maint]
    rfl
  exact (congrArg (fun m : MaintUnit => m.jobs.find? fun x : Job => x.id == j.id) hmaint).trans
    (State.job_setJob (k := { j with state := 1, since := s.clock }) hj rfl)

theorem State.startJob_runs {i : Nat} {j : Job} (hj : s.job i = some j) (o : JobOut) :
    s.startJob j o = (s.markStarted j).runJob { j with state := 1, since := s.clock } o := by
  simp only [startJob, State.job_markStarted hj]

theorem State.tryStart_held {i : Nat} {j : Job} (hj : s.job i = some j) (hwait : s.startable j = false) (o : JobOut) :
    s.tryStart i o = s := by
  simp [tryStart, hj, hwait]

theorem State.tryStart_starts {i : Nat} {j : Job} (hj : s.job i = some j) (hgo : s.startable j = true) (o : JobOut) :
    s.tryStart i o = s.startJob j o := by
  simp [tryStart, hj, hgo]

theorem State.maintStart_none (h : s.maint.jobs.find? s.startable = none) (o : JobOut) : s.maintStart o = s := by
  rw [maintStart, h]

theorem State.maintStart_some {j : Job} (h : s.maint.jobs.find? s.startable = some j) (o : JobOut) :
    s.maintStart o = s.startJob j o := by
  rw [maintStart, h]

/-! ### The work of an activity -/

section
variable {j : Job} {o : JobOut}

theorem State.handoverStart_goes {t : Nat} (hrole : s.role = 1) (hsync : s.synced = true) (hlease : s.twin.leaseEnd = some t)
    (hvalid : s.clock < t) : s.handoverStart j = { s with twin := { s.twin with gateClosed := true } } := by
  simp [handoverStart, hrole, hsync, hlease, hvalid]

theorem State.handoverStart_refused (hrole : s.role ≠ 1) : s.handoverStart j = s.endJob j.id St.CONFLICT := by
  simp [handoverStart, hrole]

theorem State.swapStart_idle (h : s.fld F.SCR_STAT_state j.target ≠ 1) (pass : Bool) :
    s.swapStart j pass = s.swapTested j.target pass := if_pos h

theorem State.swapStart_spareless (h : s.fld F.SCR_STAT_state j.target = 1)
    (hspare : 9 ≤ s.fld F.SCL_STAT_spare (j.target / 9)) (pass : Bool) : s.swapStart j pass = s.endJob j.id St.CONFLICT :=
  (if_neg (not_not.mpr h)).trans (if_pos hspare)

theorem State.sceneStart_bits (h : bitB j.p0 16 = false) : s.sceneStart j = s.sceneJobGo := if_neg (by simp [h])

theorem State.rehearsalStart_tests (h : bitB j.p0 0 = false) (fail : Nat) : s.rehearsalStart j fail =
    (s.setJob { j with phase := fail &&& j.p0 &&& 0xE }).endJob j.id St.DONE := if_neg (by simp [h])

theorem State.runJob_handover (h : j.act = 10) : s.runJob j o = s.handoverStart j := by simp only [runJob, h]

theorem State.runJob_swap (h : j.act = 11) : s.runJob j o = s.swapStart j o.ok := by simp only [runJob, h]

theorem State.runJob_scene (h : j.act = 12) : s.runJob j o = s.sceneStart j := by simp only [runJob, h]

theorem State.runJob_rehearsal (h : j.act = 13) : s.runJob j o = s.rehearsalStart j o.fail := by simp only [runJob, h]

end

/-! ### The sender (R128, R739) -/

section
variable {queue : Bool} {act target p0 p1 p2 : Nat} {o : JobOut} {mb : Nat} {input : List Byte}

theorem State.submitMail_length {go : Option JobOut} (hup : s.mailUp = true) (hlen : input.length ≠ 16) :
    s.submitMail mb input go = s.send (.mailbox mb 0xC00C .invalidLength []) := State.vendor_length hup hlen

theorem State.submitMail_denied {go : Option JobOut} (hup : s.mailUp = true) (hlen : input.length = 16)
    (hdeny : s.mbAdmin mb = false) : s.submitMail mb input go = s.answer mb 0xC00C St.ACCESS_DENIED [] :=
  State.vendor_denied hup hlen rfl hdeny

theorem State.submitMail_ill {go : Option JobOut} (hup : s.mailUp = true) (hlen : input.length = 16)
    (hadmin : s.mbAdmin mb = true) (hqueue : 2 ≤ leAt input 1 1) :
    s.submitMail mb input go = s.answer mb 0xC00C St.ILLEGAL (leBytes 3 0 ++ leBytes 4 0) :=
  (State.vendor_admin hup hlen hadmin).trans (if_pos hqueue)

theorem submitBytes_length (queue : Bool) (act target p0 p1 p2 : Nat) : (submitBytes queue act target p0 p1 p2).length = 16 :=
  (submitBytes_fields queue act target p0 p1 p2).1

/-- A MAINT_SUBMIT with the payload of a job: refused while the controller is fenced, otherwise submitted. -/
theorem State.submitMail_job (hup : s.mailUp = true) (hadmin : s.mbAdmin mb = true) (hact : act < 256) (htarget : target < 65536)
    (hp0 : p0 < 2 ^ 32) (hp1 : p1 < 2 ^ 32) : s.submitMail mb (submitBytes queue act target p0 p1 0) (some o) =
      if s.submitFenced (.mailbox mb) act target p0 p1 0 then s.submitTell (.mailbox mb) St.FENCED 0
      else submitted s (.mailbox mb) queue act target p0 p1 o := by
  obtain ⟨hlen, ha, hq, ht, h0, h1, h2⟩ := submitBytes_fields queue act target p0 p1 0
  rw [Nat.mod_eq_of_lt hact] at ha
  rw [Nat.mod_eq_of_lt htarget] at ht
  rw [Nat.mod_eq_of_lt hp0] at h0
  rw [Nat.mod_eq_of_lt hp1] at h1
  have hbit : ¬ 2 ≤ b2n queue ∧ (b2n queue == 1) = queue := by cases queue <;> decide
  refine (State.vendor_admin hup hlen hadmin).trans ?_
  simp only [ha, hq, ht, h0, h1, h2, hbit.1, hbit.2, if_false]
  rfl

theorem State.submitRun_firmware (hup : s.pwr.ctlUp = true) : s.submitRun .firmware queue act target p0 p1 0 o =
    submitted s .firmware queue act target p0 p1 o := by
  simp only [submitRun, hup, Bool.not_true, Bool.false_eq_true, if_false]
  rfl

theorem State.submitRun_firmware_down (hdown : s.pwr.ctlUp = false) : s.submitRun .firmware queue act target p0 p1 p2 o = s := by
  simp [submitRun, hdown]

theorem State.submitRun_controller : s.submitRun .controller queue act target p0 p1 0 o =
    submitted s .controller queue act target p0 p1 o := by
  simp only [submitRun, submitted, submitTell]

theorem State.submitRun_mailbox : s.submitRun (.mailbox mb) queue act target p0 p1 p2 o =
    s.submitMail mb (submitBytes queue act target p0 p1 p2) (some o) := rfl

theorem State.submitRun_payload : s.submitRun (.payload mb input) queue act target p0 p1 p2 o =
    s.submitMail mb input (some o) := rfl

/-- A command that runs the submission of its sender submits the activity for each of them; the controller's own power cycle
takes another way. -/
theorem submits_of_submitRun {c : JobFrom → Bool → Instr} {fin : State → State} (hact : act < 256)
    (h : ∀ fr queue s, fr ≠ .controller ∨ act ≠ 14 → exec (c fr queue) s = .next (fin (s.submitRun fr queue act target p0 p1 0 o))) :
    Submits c act target p0 p1 o fin := by
  intro s queue
  have hfin {fr : JobFrom} {t : State} (hfr : fr ≠ .controller ∨ act ≠ 14) (ht : s.submitRun fr queue act target p0 p1 0 o = t) :
      exec (c fr queue) s = .next (fin t) := (h fr queue s hfr).trans (congrArg (fun u => Host.Outcome.next (fin u)) ht)
  have hmail {mb : Nat} : JobFrom.mailbox mb ≠ .controller ∨ act ≠ 14 := .inl nofun
  have hpayload {mb : Nat} {input : List Byte} : JobFrom.payload mb input ≠ .controller ∨ act ≠ 14 := .inl nofun
  refine ⟨fun hup => hfin (.inl nofun) (State.submitRun_firmware hup),
    fun hdown => hfin (.inl nofun) (State.submitRun_firmware_down hdown), fun hne => hfin (.inr hne) State.submitRun_controller, ?mailbox,
    fun mb hup hdeny => hfin hmail (State.submitRun_mailbox.trans (State.submitMail_denied hup (submitBytes_length ..) hdeny)),
    fun mb input => ⟨fun hup hlen => hfin hpayload (State.submitRun_payload.trans <| State.submitMail_length hup hlen),
      fun hup hlen hdeny => hfin hpayload (State.submitRun_payload.trans <| State.submitMail_denied hup hlen hdeny),
      fun hup hlen hadmin hqueue => hfin hpayload (State.submitRun_payload.trans <| State.submitMail_ill hup hlen hadmin hqueue)⟩⟩
  intro mb hup hadmin htarget hp0 hp1
  have hjob := State.submitMail_job (queue := queue) (o := o) hup hadmin hact htarget hp0 hp1
  exact ⟨fun hfree => hfin hmail (State.submitRun_mailbox.trans <| hjob.trans (if_neg (by simp [hfree]))),
    fun hfenced => hfin hmail (State.submitRun_mailbox.trans <| hjob.trans (if_pos hfenced))⟩

end

theorem exec_powerCycle {fr : JobFrom} (hfr : fr ≠ .controller) (queue : Bool) (confirm : Nat) :
    exec (.powerCycle fr queue confirm) s = .next (s.submitRun fr queue 14 0xFFFF confirm 0 0 JobOut.none_).settle := by
  cases fr with
  | controller => exact absurd rfl hfr
  | mailbox mb => rfl
  | payload mb input => rfl
  | firmware => rfl

theorem exec_maintQry (id : Nat) : exec (.maintQry id) s = .next (s.setLive .MAINT_QRY_RES 0 (match s.job id with
    | none => 3 * 2 ^ 30
    | some j => j.state * 2 ^ 30 + j.act * 2 ^ 16 + j.status % 256 * 2 ^ 8 + j.progress % 256)) := rfl

/-- Settles O30: every job command is a submission for its sender, and each activity's work is named by its rule. -/
theorem maintenanceJobsAreSubmittedAndStarted : Obligations.MaintenanceJobsAreSubmittedAndStarted := by
  have hsubmit {c : JobFrom → Bool → Instr} {act target p0 p1 : Nat} {o : JobOut} {fin : State → State} (hact : act < 256)
      (h : ∀ fr queue s, exec (c fr queue) s = .next (fin (s.submitRun fr queue act target p0 p1 0 o))) :
      Submits c act target p0 p1 o fin := submits_of_submitRun hact fun fr queue s _ => h fr queue s
  refine ⟨fun _ _ _ _ => hsubmit (by decide) fun _ _ _ => rfl, fun _ _ _ => hsubmit (by decide) fun _ _ _ => rfl,
    fun _ _ _ => hsubmit (by decide) fun _ _ _ => rfl, fun _ => hsubmit (by decide) fun _ _ _ => rfl,
    fun _ => hsubmit (by decide) fun _ _ _ => rfl, fun _ => hsubmit (by decide) fun _ _ _ => rfl,
    hsubmit (by decide) fun _ _ _ => rfl, fun _ _ _ => hsubmit (by decide) fun _ _ _ => rfl,
    fun _ => hsubmit (by decide) fun _ _ _ => rfl, fun _ _ => hsubmit (by decide) fun _ _ _ => rfl,
    fun confirm => submits_of_submitRun (by decide) fun fr queue s hfr =>
      exec_powerCycle (hfr.resolve_right (not_not.mpr rfl)) queue confirm, fun _ _ _ => rfl, ?judgement,
    fun _ _ _ => ⟨rfl, rfl, fun _ => rfl⟩, ?start, ?work,
    fun s o => ⟨fun h => next_settle (State.maintStart_none h o), fun j h => next_settle (State.maintStart_some h o)⟩, ?query⟩
  case judgement =>
    intro s fr queue act target p0 p1 p2
    refine ⟨fun hill => ?_, State.submit_conflict, fun hdone => ⟨_, State.submit_done hdone, rfl, rfl, rfl⟩⟩
    have hstatus := State.submitStatus_ill (s := s) (queue := queue) hill
    rw [State.submit_refused (by rw [hstatus]; decide) (by rw [hstatus]; decide), hstatus]
  case start =>
    intro s id o j hj
    exact ⟨fun hwait => State.tryStart_held hj hwait o, fun hgo => ⟨_, State.job_markStarted hj, rfl,
      (State.tryStart_starts hj hgo o).trans (State.startJob_runs hj o)⟩⟩
  case work =>
    intro s j o
    refine ⟨fun h => ?_, fun h => ?_, fun h => ?_, fun h hrole hsync hlease => ?_, fun h hrole => ?_, fun h hidle => ?_,
      fun h hrun hspare => ?_, fun h hbits => ?_, fun h htests => ?_, fun h => ?_⟩
    · simp only [State.runJob, h]
    · simp only [State.runJob, h]
    · simp only [State.runJob, h]
    · obtain ⟨t, hlease, hvalid⟩ := hlease
      exact (State.runJob_handover h).trans (State.handoverStart_goes hrole hsync hlease hvalid)
    · exact (State.runJob_handover h).trans (State.handoverStart_refused hrole)
    · exact (State.runJob_swap h).trans (State.swapStart_idle hidle _)
    · exact (State.runJob_swap h).trans (State.swapStart_spareless hrun hspare _)
    · exact (State.runJob_scene h).trans (State.sceneStart_bits hbits)
    · exact (State.runJob_rehearsal h).trans (State.rehearsalStart_tests htests _)
    · simp only [State.runJob, h]
  case query =>
    intro s id
    exact ⟨fun h => by simp [exec_maintQry, h], fun j h => by simp [exec_maintQry, h]⟩

end
end Sys2Proof.Machine

namespace Sys2Proof.Machine

/-! Jobs that are cancelled or end, and the mailbox commands that carry one (R128, R279, R371, R733, R736, R737, R739). -/

section
open Sys2Proof.Claims
variable {s : State} {mb : Nat} {input : List Byte}

/-! ### Cancels (R733) -/

section
variable {id : Nat} {j : Job}

theorem State.cancelJob_none (hj : s.job id = none) : s.cancelJob id = (s, St.ILLEGAL) := by
  rw [cancelJob, hj]

theorem State.cancelJob_ended (hj : s.job id = some j) (h : j.state = 2) : s.cancelJob id = (s, St.ALREADY_DONE) := by
  rw [cancelJob, hj]
  exact if_pos h

theorem State.cancelJob_queued (hj : s.job id = some j) (h : j.state = 0) (hact : j.act ≠ 7) :
    s.cancelJob id = (s.endJob id St.ABORTED, St.DONE) := by
  simp only [cancelJob, hj, h, hact, if_true, if_false, (by decide : ¬ (0 : Nat) = 2)]

/-- Activities whose work, once begun, goes on to its end. -/
def uncancelled (act : Nat) : Prop := act = 1 ∨ act = 2 ∨ act = 3 ∨ act = 8 ∨ act = 12 ∨ act = 14

theorem State.cancelJob_running (hj : s.job id = some j) (h : j.state = 1) (hact : uncancelled j.act) :
    s.cancelJob id = (s, St.CONFLICT) := by
  rcases hact with hact | hact | hact | hact | hact | hact <;> simp [cancelJob, hj, h, hact]

theorem State.cancelJob_rehearsal (hj : s.job id = some j) (h : j.state = 1) (hact : j.act = 13) :
    s.cancelJob id = (s.endJob id St.ABORTED, St.DONE) := by
  simp [cancelJob, hj, h, hact]

theorem exec_maintCancel (hup : s.mailUp = true) (hlen : input.length = 4) (hadmin : s.mbAdmin mb = true) {t : State} {st : Nat}
    (h : s.cancelJob (leAt input 0 4) = (t, st)) : exec (.maintCancel mb input) s = .next (t.answer mb 0xC00E st []).settle := by
  refine next_settle ((State.vendor_admin hup hlen hadmin).trans ?_)
  rw [h]

theorem exec_maintCancel_denied (hup : s.mailUp = true) (hlen : input.length = 4) (hdeny : s.mbAdmin mb = false) :
    exec (.maintCancel mb input) s = .next (s.answer mb 0xC00E St.ACCESS_DENIED []).settle :=
  next_settle (State.vendor_denied hup hlen rfl hdeny)

/-- An end without a mailbox that waits for it raises MAINT_ENDED and tells nobody else. -/
theorem State.endJob_raises (hj : s.job id = some j) (hstate : j.state ≠ 2) (hwaiter : j.waiter = none) (status : Nat) :
    ∃ u : State, s.endJob id status = u.raiseD Ev.MAINT_ENDED (id * 256 + status) ∧ u.sent = s.sent := by
  simp only [endJob, hj, hstate, hwaiter, if_false]
  exact ⟨_, rfl, rfl⟩

end

/-! ### Mailbox commands that carry a job (R128) -/

section
variable {op act target p0 : Nat} {queue : Bool} {o : JobOut}

theorem State.submitFor_refused (late : Bool)
    (h : s.submitStatus (.mailbox mb) queue act target p0 0 0 ≠ St.DONE) : s.submitFor mb op queue act target p0 late o =
      (s.submit (.mailbox mb) queue act target p0 0 0).1.answer mb op (s.submitStatus (.mailbox mb) queue act target p0 0 0)
        (if late then leBytes 3 0 ++ leBytes 4 0 else []) := by
  have hpair : ∃ t, s.submit (.mailbox mb) queue act target p0 0 0 =
      (t, s.submitStatus (.mailbox mb) queue act target p0 0 0, 0) := by
    by_cases hconflict : s.submitStatus (.mailbox mb) queue act target p0 0 0 = St.CONFLICT
    · exact ⟨_, (State.submit_conflict hconflict).trans (by rw [hconflict])⟩
    · exact ⟨_, State.submit_refused h hconflict⟩
  obtain ⟨t, ht⟩ := hpair
  simp only [submitFor, ht, h, ne_eq, not_false_eq_true, if_true]

theorem State.submitFor_accepted (h : s.submitStatus (.mailbox mb) queue act target p0 0 0 = St.DONE) :
    s.submitFor mb op queue act target p0 false o =
      ((s.submit (.mailbox mb) queue act target p0 0 0).1.answer mb op St.DONE []).tryStart s.maint.nextId o := by
  simp only [submitFor, State.submit_done h]
  rfl

theorem State.job_enqueued (j : Job) : ∃ k, (s.enqueued j).job j.id = some k := by
  have hsome : ((s.maint.jobs ++ [j]).find? fun x => x.id == j.id).isSome = true := by simp
  exact Option.isSome_iff_exists.mp hsome

/-- A job whose mailbox is answered at its end: it waits with the job, which starts where nothing conflicts. -/
theorem State.submitFor_late (h : s.submitStatus (.mailbox mb) queue act target p0 0 0 = St.DONE) :
    ∃ j, (s.submit (.mailbox mb) queue act target p0 0 0).1.job s.maint.nextId = some j ∧
      s.submitFor mb op queue act target p0 true o = ((s.submit (.mailbox mb) queue act target p0 0 0).1.setJob
        { j with waiter := some (mb, op) }).tryStart s.maint.nextId o := by
  obtain ⟨j, hj⟩ := State.job_enqueued (s := s) (s.newJob (.mailbox mb) act target p0 0 0)
  have hid : (s.newJob (.mailbox mb) act target p0 0 0).id = s.maint.nextId := rfl
  rw [hid] at hj
  refine ⟨j, ?_, ?_⟩
  · rw [State.submit_done h, hj]
  · simp only [submitFor, State.submit_done h, hj, ne_eq, not_true_eq_false, if_false, if_true]

end

/-- SLOT_CONTROL of a slot with the action of the row runs. -/
theorem State.slotControl_runs {action : Nat} {body : State → Nat → State} (hup : s.mailUp = true) (hadmin : s.mbAdmin mb = true)
    (hlen : input.length = 2) (hact : leAt input 1 1 = action) (hslot : leAt input 0 1 < 16) :
    s.slotControl mb action input body = body s (leAt input 0 1) :=
  (State.vendor_admin hup hlen hadmin).trans (if_pos ⟨hact, hslot⟩)

theorem exec_prepareRemoval_refused (hup : s.mailUp = true) (hadmin : s.mbAdmin mb = true) (hlen : input.length = 2)
    (hact : leAt input 1 1 = 0) (hslot : leAt input 0 1 < 16) (h : s.removeStatus (leAt input 0 1) ≠ St.DONE) :
    exec (.prepareRemoval mb input) s = .next (s.answer mb 0xC00F (s.removeStatus (leAt input 0 1)) []).settle :=
  next_settle ((State.slotControl_runs hup hadmin hlen hact hslot).trans (if_pos h))

theorem exec_prepareRemoval_submits (hup : s.mailUp = true) (hadmin : s.mbAdmin mb = true) (hlen : input.length = 2)
    (hact : leAt input 1 1 = 0) (hslot : leAt input 0 1 < 16) (h : s.removeStatus (leAt input 0 1) = St.DONE) :
    exec (.prepareRemoval mb input) s =
      .next (s.submitFor mb 0xC00F false 6 (leAt input 0 1) 0 false JobOut.none_).settle :=
  next_settle ((State.slotControl_runs hup hadmin hlen hact hslot).trans (if_neg (not_not.mpr h)))

theorem exec_freezeRelease (hup : s.mailUp = true) (hadmin : s.mbAdmin mb = true) (hlen : input.length = 1) (pass : Bool)
    (ws : List Nat) : exec (.freezeRelease mb input pass ws) s =
      .next (s.freezeRelease mb (leAt input 0 1) pass ws).settle :=
  next_settle ((if_neg (by simp [hup])).trans (State.vendor_admin hup hlen hadmin))

theorem exec_rehearsalRun (hup : s.mailUp = true) (hadmin : s.mbAdmin mb = true) (hlen : input.length = 4) (fail : Nat) :
    exec (.rehearsalRun mb input fail) s = .next (s.submitFor mb 0xC019 false 13 0xFFFF (leAt input 0 4) true
      { JobOut.none_ with fail := fail }) :=
  congrArg Host.Outcome.next ((if_neg (by simp [hup])).trans (State.vendor_admin hup hlen hadmin))

/-! ### The drain of a scribe (R737) -/

theorem State.drainTimeout_none (h : s.scr.swap = none) : s.drainTimeout = s := by
  rw [drainTimeout, h]

theorem State.drainTimeout_some {e t : Nat} {pass : Bool} (h : s.scr.swap = some (e, t, pass)) : s.drainTimeout =
    if t ≤ s.clock then (s.ctxsOf e).foldl (fun st p => st.endCtx p.1 St.ENGINE_FAULT false false) s else s := by
  rw [drainTimeout, h]

/-- Settles O31: what a cancel answers, and that each job command of a mailbox is a submission with its own answer. -/
theorem jobsEndByTheirWorkOrByCancel : Obligations.JobsEndByTheirWorkOrByCancel := by
  refine ⟨?cancel, fun s id status j hj hstate hwaiter => State.endJob_raises hj hstate hwaiter status, ?remove, ?release,
    fun s mb input fail hup hadmin hlen h =>
      (exec_rehearsalRun hup hadmin hlen fail).trans (congrArg Host.Outcome.next (State.submitFor_refused true h)), ?rehearse,
    fun s => ⟨fun h => next_settle (State.drainTimeout_none h),
      fun e t pass h hearly => next_settle ((State.drainTimeout_some h).trans (if_neg (Nat.not_le.mpr hearly))),
      fun e t pass h hdue => next_settle ((State.drainTimeout_some h).trans (if_pos hdue))⟩⟩
  case cancel =>
    intro s mb input hup hlen
    exact ⟨exec_maintCancel_denied hup hlen,
      fun hadmin hj => exec_maintCancel hup hlen hadmin (State.cancelJob_none hj),
      fun j hadmin hj => ⟨fun h => exec_maintCancel hup hlen hadmin (State.cancelJob_ended hj h),
        fun h hact => exec_maintCancel hup hlen hadmin (State.cancelJob_queued hj h hact),
        fun h hact => exec_maintCancel hup hlen hadmin (State.cancelJob_running hj h hact),
        fun h hact => exec_maintCancel hup hlen hadmin (State.cancelJob_rehearsal hj h hact)⟩⟩
  case remove =>
    intro s mb input hup hadmin hlen hact hslot
    exact ⟨exec_prepareRemoval_refused hup hadmin hlen hact hslot, fun hmay hdone =>
      (exec_prepareRemoval_submits hup hadmin hlen hact hslot hmay).trans (next_settle (State.submitFor_accepted hdone))⟩
  case release =>
    intro s mb input pass ws hup hadmin hlen
    refine ⟨fun hchan => ?_, fun hchan hshut => ?_, fun hchan hfrozen hread hdone => ?_⟩ <;>
      refine (exec_freezeRelease hup hadmin hlen pass ws).trans (next_settle ?_)
    · exact if_pos hchan
    · exact (if_neg (Nat.not_le.mpr hchan)).trans (if_pos (by simpa using hshut))
    · exact ((if_neg (Nat.not_le.mpr hchan)).trans (if_neg (by simp [hfrozen, hread]))).trans (State.submitFor_accepted hdone)
  case rehearse =>
    intro s mb input fail hup hadmin hlen hdone
    obtain ⟨j, hj, hstart⟩ := State.submitFor_late (op := 0xC019) (o := { JobOut.none_ with fail := fail }) hdone
    exact ⟨_, exec_rehearsalRun hup hadmin hlen fail, _, j, hj, rfl, hstart⟩

end
end Sys2Proof.Machine

namespace Sys2Proof.Machine

/-! The vendor commands of a mailbox, each with its own effect (R128, R172, R279, R378, R432, R504, R506, R712, R738). -/

section
open Sys2Proof.Claims
variable {s : State} {mb : Nat} {i : List Byte}

/-- A command that reports passes the checks with any input of its length. -/
theorem exec_report {c : Instr} {op len : Nat} {body : State → State} {t : State}
    (h : exec c s = .next (s.vendor mb op len false false i body)) (hup : s.mailUp = true) (hlen : i.length = len)
    (ht : body s = t) : exec c s = .next t :=
  exec_vendor h hup hlen (.inl rfl) (.inl rfl) ht

theorem exec_freezeSnapshot (hup : s.mailUp = true) (hadmin : s.mbAdmin mb = true) (hlen : i.length = 1)
    (hchan : leAt i 0 1 < 12) : exec (.freezeSnapshot mb i) s = .next ((s.snapRead (leAt i 0 1)).answer mb 0xC010 St.DONE
      (leBytes 3 0 ++ leBytes 4 256 ++ (s.snapWords (leAt i 0 1)).flatMap (leBytes 4))) :=
  exec_vendor rfl hup hlen (.inr hadmin) (.inl rfl) (if_neg (Nat.not_le.mpr hchan))

/-- The records of PBOOK_READ: the first, at most 7, from a sequence on (R714). -/
def State.pbFrom (s : State) (seq n : Nat) : List PbRecord :=
  ((s.pbAll.filter (fun p => decide (seq ≤ p.1))).take (min 7 n)).map (fun p => p.2)

theorem State.pbFrom_length (seq n : Nat) : (s.pbFrom seq n).length ≤ 7 := by
  simp only [pbFrom, List.length_map, List.length_take]
  omega

theorem exec_pbookRead (hup : s.mailUp = true) (hlen : i.length = 10) : exec (.pbookRead mb i) s =
    .next ((s.pbMarkRead ((s.pbFrom (leAt i 0 8) (leAt i 8 2)).map (fun r => r.seq))).answer mb 0xC012 St.DONE
      (leBytes 1 (s.pbFrom (leAt i 0 8) (leAt i 8 2)).length ++ leBytes 6 0 ++
        (s.pbFrom (leAt i 0 8) (leAt i 8 2)).flatMap PbRecord.bytes)) :=
  exec_report rfl hup hlen rfl

/-! ### Queue pairs (R504, R506) -/

/-- The queue pair that QUEUE_CREATE asks for: empty, its pointers at 0 and its phases at 1 (R504, R505). -/
def askedQueue (i : List Byte) : Queue :=
  { depth := leAt i 2 2, vector := leAt i 12 1, prio := leAt i 13 1, sub := leAt i 4 4, cpl := leAt i 8 4, subHead := 0,
    subTail := 0, cplHead := 0, cplTail := 0, cplPhase := 1, noteHead := 0, noteTail := 0, notePhase := 1, noteCount := 0,
    slots := [], deleting := none }

/-- The bounds of R504 that a new queue pair of a logical device keeps. -/
structure QueueFits (s : State) (ld : Nat) (i : List Byte) : Prop where
  id : leAt i 0 2 ≤ 4095
  deep : 2 ≤ leAt i 2 2
  shallow : leAt i 2 2 ≤ 4096
  vector : leAt i 12 1 < 64 ∨ leAt i 12 1 = 0xFF
  prio : leAt i 13 1 < 4
  areas : s.areasOk ld (leAt i 2 2) (leAt i 4 4) (leAt i 8 4) = true
  new : s.queue ld (leAt i 0 2) = none
  room : s.que.pairs.length < 65536

theorem exec_queueCreate {ld : Nat} (hup : s.mailUp = true) (hfence : s.cmdFenced = false) (hlen : i.length = 14)
    (hld : s.mbLd mb = some ld) (h : QueueFits s ld i) : exec (.queueCreate mb i) s =
      .next (((s.setQueue ld (leAt i 0 2) (askedQueue i)).queueRegs ld).answer mb 0xC01B St.DONE []) := by
  obtain ⟨hid, hdeep, hshallow, hvector, hprio, hareas, hnew, hroom⟩ := h
  have hlegal : ¬ (4095 < leAt i 0 2 ∨ leAt i 2 2 < 2 ∨ 4096 < leAt i 2 2 ∨ (63 < leAt i 12 1 ∧ leAt i 12 1 ≠ 0xFF) ∨
      3 < leAt i 13 1 ∨ (!s.areasOk ld (leAt i 2 2) (leAt i 4 4) (leAt i 8 4)) = true) := by
    rw [hareas]
    simp only [Bool.not_true, Bool.false_eq_true, or_false]
    omega
  refine exec_vendor rfl hup hlen (.inl rfl) (.inr hfence) ?_
  simp only [hld, hnew]
  exact (if_neg hlegal).trans ((if_neg (by simp)).trans (if_neg (Nat.not_le.mpr hroom)))

theorem State.queue_created (ld id : Nat) (q : Queue) (op st : Nat) (out : List Byte) :
    (((s.setQueue ld id q).queueRegs ld).answer mb op st out).queue ld id = some q :=
  mapGet?_set_self _ _ _

theorem answers_queueCreate {ld : Nat} (hup : s.mailUp = true) (hfence : s.cmdFenced = false) (hlen : i.length = 14)
    (hld : s.mbLd mb = some ld) (h : QueueFits s ld i) : Answers (.queueCreate mb i) s fun t => ∃ q,
      t.queue ld (leAt i 0 2) = some q ∧ q.depth = leAt i 2 2 ∧ q.sub = leAt i 4 4 ∧ q.cpl = leAt i 8 4 ∧
      q.vector = leAt i 12 1 ∧ q.prio = leAt i 13 1 ∧ q.slots = [] ∧
      t.sent = s.sent ++ [.mailbox mb 0xC01B .success [0]] := by
  refine ⟨_, exec_queueCreate hup hfence hlen hld h, askedQueue i, State.queue_created .., ?_⟩
  exact ⟨rfl, rfl, rfl, rfl, rfl, rfl, rfl⟩

theorem State.deleteDone_idle {ld id : Nat} {q : Queue} (hq : s.queue ld id = some q) (hdel : q.deleting = some mb)
    (hlive : q.live = 0) : s.deleteDone ld id =
      (({ s with que := { s.que with pairs := mapDel s.que.pairs (ld * 4096 + id) } }).queueRegs ld).answer mb 0xC01C St.DONE [] := by
  simp only [deleteDone, hq, hdel, hlive, if_true]

/-- A queue pair without tickets goes at once. -/
theorem exec_queueDelete {ld : Nat} {q : Queue} (hup : s.mailUp = true) (hlen : i.length = 2) (hld : s.mbLd mb = some ld)
    (hq : s.queue ld (leAt i 0 2) = some q) (hslots : q.slots = [])
    (hctxs : ∀ c ∈ s.scr.ctxs, ¬ (c.2.ld = ld ∧ c.2.queue = leAt i 0 2)) : exec (.queueDelete mb i) s =
      .next ((s.setQueue ld (leAt i 0 2) { q with deleting := some mb }).deleteDone ld (leAt i 0 2)) := by
  have hnone : s.scr.ctxs.filter (fun p => p.2.ld == ld && p.2.queue == leAt i 0 2) = [] :=
    List.filter_eq_nil_iff.mpr fun c hc => by simpa using hctxs c hc
  have hsame : ({ q with deleting := some mb, slots := [] } : Queue) = { q with deleting := some mb } := by rw [← hslots]
  have hscr (q' : Queue) : (s.setQueue ld (leAt i 0 2) q').scr = s.scr := rfl
  refine exec_report rfl hup hlen ?_
  simp only [hld, hq, hslots, List.map_nil, hscr, hnone, List.foldl_nil, hsame]

/-! ### Scripts (R431 to R433) -/

/-- A script that keeps the bounds of R432 and finds its place in every cluster named. -/
structure ScriptFits (s : State) (mb ld : Nat) (i : List Byte) : Prop where
  some_ : 0 < leAt i 4 4
  short : leAt i 4 4 ≤ 16777216
  window : ∀ a, leAt i 8 8 ≤ a → a < leAt i 8 8 + leAt i 4 4 →
    (s.windowFor ((s.mbIdentity mb).getD 256) a 62).isSome = true ∧ (s.regionAt a).isSome = true
  form : scriptFormOk (s.dpaBytes (leAt i 8 8) (leAt i 4 4)) (leAt i 4 4) (leAt i 2 1) = true
  new : s.script ld (leAt i 0 2) = none
  place : ∀ k, k < 4 → bitB (leAt i 2 1) k = true →
    (firstFit (s.resGaps k) (scriptSize (s.dpaBytes (leAt i 8 8) (leAt i 4 4)) / 4096)).isSome = true ∧
      s.fld F.SCL_SCRIPTS_loaded k < 64

/-- The clusters that SCRIPT_LOAD names, each with the first place there that the script fits. -/
def State.scriptSpots (s : State) (i : List Byte) : List (Nat × Option Nat) :=
  ((upto 4).filter (fun k => bitB (leAt i 2 1) k)).map
    (fun k => (k, firstFit (s.resGaps k) (scriptSize (s.dpaBytes (leAt i 8 8) (leAt i 4 4)) / 4096)))

/-- The places at which a range of bytes is looked at, one in each granule, lie in the range. -/
theorem all_granules {first n : Nat} (hn : 0 < n) {p : Nat → Bool} (h : ∀ a, first ≤ a → a < first + n → p a = true) :
    ((upto (n / 2 ^ 28 + 2)).map (fun k => min (first + k * 2 ^ 28) (first + n - 1))).all p = true := by
  have hbounds (x : Nat) : first ≤ min (first + x) (first + n - 1) ∧ min (first + x) (first + n - 1) < first + n := by omega
  simp only [List.all_map, List.all_eq_true, Function.comp_apply]
  exact fun k _ => h _ (hbounds _).1 (hbounds _).2

section
variable {ld : Nat} (h : ScriptFits s mb ld i)
include h

theorem ScriptFits.granules : ((upto (leAt i 4 4 / 2 ^ 28 + 2)).map
    (fun k => min (leAt i 8 8 + k * 2 ^ 28) (leAt i 8 8 + leAt i 4 4 - 1))).all
    (fun a => (s.windowFor ((s.mbIdentity mb).getD 256) a 62).isSome && (s.regionAt a).isSome) = true :=
  all_granules h.some_ fun a hlow hhigh => Bool.and_eq_true_iff.mpr (h.window a hlow hhigh)

theorem ScriptFits.spots :
    (s.scriptSpots i).any (fun p => p.2.isNone || decide (64 ≤ s.fld F.SCL_SCRIPTS_loaded p.1)) = false := by
  simp only [State.scriptSpots, List.any_map, List.any_eq_false, List.mem_filter, Function.comp_apply]
  intro k ⟨hk, hbit⟩
  obtain ⟨hfit, hloaded⟩ := h.place k (List.mem_range.mp hk) hbit
  simp [← Option.isSome_iff_ne_none, hfit, hloaded]

/-- A script that fits is entered at its places, and the registers of its clusters follow. -/
theorem State.loadScript_fits : s.loadScript mb ld i =
    (((((upto 4).filter (fun k => bitB (leAt i 2 1) k)).foldl (fun st k => st.reservoirRegs k) (s.enterScript ld (leAt i 0 2)
      (s.dpaBytes (leAt i 8 8) (leAt i 4 4)) ((s.scriptSpots i).map (fun p => (p.1, p.2.getD 0 * 4096))))).raiseD
        Ev.SCRIPT_LOADED (leAt i 0 2)).answer mb 0xC01D St.DONE []) := by
  have hlen : ¬ (leAt i 4 4 = 0 ∨ 16777216 < leAt i 4 4) := not_or.mpr ⟨h.some_.ne', h.short.not_gt⟩
  refine (if_neg hlen).trans <| (if_neg ?_).trans <| (if_neg ?_).trans <| (if_neg ?_).trans <|
    if_neg (Bool.eq_false_iff.mp h.spots)
  · rw [h.granules]
    exact Bool.false_ne_true
  · rw [h.form]
    exact Bool.false_ne_true
  · rw [h.new]
    exact Bool.false_ne_true

end

theorem exec_scriptLoad {ld : Nat} (hup : s.mailUp = true) (hfence : s.cmdFenced = false) (hlen : i.length = 16)
    (hld : s.mbLd mb = some ld) : exec (.scriptLoad mb i) s = .next (s.loadScript mb ld i) := by
  refine exec_vendor rfl hup hlen (.inl rfl) (.inr hfence) ?_
  simp only [hld]

theorem answers_scriptLoad {ld : Nat} (hup : s.mailUp = true) (hfence : s.cmdFenced = false) (hlen : i.length = 16)
    (hld : s.mbLd mb = some ld) (h : ScriptFits s mb ld i) : Answers (.scriptLoad mb i) s fun t => ∃ u : State,
      t = u.answer mb 0xC01D St.DONE [] ∧ ∃ x ∈ u.scr.scripts, x.ld = ld ∧ x.id = leAt i 0 2 ∧
        x.entry = leNat (((s.dpaBytes (leAt i 8 8) (leAt i 4 4)).drop 16).take 4) ∧
        x.size = scriptSize (s.dpaBytes (leAt i 8 8) (leAt i 4 4)) := by
  refine ⟨_, exec_scriptLoad hup hfence hlen hld, _, State.loadScript_fits h, ?_⟩
  rw [raiseD_scr, State.foldl_proj (f := fun st k => st.reservoirRegs k) State.scr fun _ _ => rfl]
  exact ⟨_, List.mem_append_right _ (List.mem_singleton_self _), rfl, rfl, rfl, rfl⟩

theorem exec_scriptUnload {ld : Nat} (hup : s.mailUp = true) (hlen : i.length = 2) (hld : s.mbLd mb = some ld)
    (hloaded : (s.script ld (leAt i 0 2)).isSome = true) (hunused : s.scriptUsed ld (leAt i 0 2) = false) :
    exec (.scriptUnload mb i) s = .next
      (((s.unloadScript ld (leAt i 0 2)).raiseD Ev.SCRIPT_UNLOADED (leAt i 0 2)).answer mb 0xC01E St.DONE []) := by
  have hknown : ¬ (s.script ld (leAt i 0 2)).isNone = true := by simpa [← Option.isSome_iff_ne_none] using hloaded
  refine exec_report rfl hup hlen ?_
  simp only [hld]
  exact (if_neg hknown).trans (if_neg (by simp [hunused]))

/-! ### Records, scenes and slots (R128, R378, R712, R738) -/

theorem State.pbAck_read {q k : Nat} {r : PbRecord} (hfind : s.pb.ring.find? (fun p => p.2.seq == q) = some (k, r))
    (hsev : r.severity = 3) (hread : r.read = true) (hnew : r.acked = false) : ∃ u, s.pbAck q = (St.DONE, u) := by
  simp only [pbAck, hfind, hsev, hread, hnew]
  exact ⟨_, rfl⟩

theorem exec_sceneSet (hup : s.mailUp = true) (hadmin : s.mbAdmin mb = true) (hlen : i.length = 2)
    (hbits : leAt i 0 2 &&& 0xFEDF = 0) : exec (.sceneSet mb i) s =
      .next (s.submitFor mb 0xC00B true 0x0C 0xFFFF (leAt i 0 2) false JobOut.none_) :=
  exec_vendor rfl hup hlen (.inr hadmin) (.inl rfl) (if_neg (not_not.mpr hbits))

theorem exec_slotPowerOn (hup : s.mailUp = true) (hadmin : s.mbAdmin mb = true) (hlen : i.length = 2) (hslot : leAt i 0 1 < 16)
    (hact : leAt i 1 1 = 1) (hstate : s.slotState (leAt i 0 1) = 1) (hidle : s.runningOn 7 (leAt i 0 1) = none) :
    exec (.slotPowerOn mb i) s = .next
      ((s.setCart (leAt i 0 1) { s.cart (leAt i 0 1) with go := true }).answer mb 0xC00F St.DONE []) := by
  have hsame (c : Cart) : (s.setCart (leAt i 0 1) c).runningOn 7 (leAt i 0 1) = none := hidle
  refine congrArg Host.Outcome.next ((State.slotControl_runs hup hadmin hlen hact hslot).trans ?_)
  simp only [hstate, hsame, Option.isSome_none, Bool.false_and, Bool.false_eq_true, if_true, if_false]

theorem exec_ledLocate (hup : s.mailUp = true) (hadmin : s.mbAdmin mb = true) (hlen : i.length = 2) (hslot : leAt i 0 1 < 16)
    (hact : leAt i 1 1 = 2) : exec (.ledLocate mb i) s = .next (((s.setCart (leAt i 0 1)
      { s.cart (leAt i 0 1) with locateUntil := s.clock + 60000000 }).slotLed (leAt i 0 1)).answer mb 0xC00F St.DONE []) :=
  congrArg Host.Outcome.next (State.slotControl_runs hup hadmin hlen hact hslot)

/-- Settles O57: each row's rule, with what the rule's next state shows. -/
theorem vendorCommandsCompleteWithTheirEffect : Obligations.VendorCommandsCompleteWithTheirEffect := by
  intro s mb hup
  refine ⟨⟨_, ?info, exec_report rfl hup List.length_nil rfl⟩, ⟨_, ?epoch, exec_report rfl hup List.length_nil rfl⟩,
    ⟨_, ?ink, exec_report rfl hup List.length_nil rfl⟩, ⟨_, ?twin, exec_report rfl hup List.length_nil rfl⟩,
    fun i hlen hr => ⟨_, ?region, exec_report rfl hup hlen (if_neg (Nat.not_le.mpr hr))⟩, ?job,
    fun i hlen => ⟨_, ?energy, exec_report rfl hup hlen rfl⟩, fun i hlen => ⟨_, ?key, exec_report rfl hup hlen rfl⟩,
    fun i hlen hk => ⟨_, exec_report rfl hup hlen (if_neg (Nat.not_lt.mpr hk))⟩,
    fun i hlen => ⟨_, State.pbFrom_length _ _, exec_pbookRead hup hlen⟩,
    fun i hadmin hlen hchan => ⟨_, exec_freezeSnapshot hup hadmin hlen hchan⟩, ?unfenced,
    ?queueDelete, fun i ld hlen hld hloaded hunused => exec_scriptUnload hup hlen hld hloaded hunused, ?ack,
    fun i hadmin hlen => ⟨_, exec_powerCapSet hup hadmin hlen, State.cap_setRw_clampCap _⟩, ?route, ?scene, ?slot⟩
  case info | epoch | ink | twin | region | energy | key => simp [upto, List.range_succ]
  case job =>
    intro i j hlen hj
    refine ⟨leBytes 1 j.state ++ leBytes 1 j.status ++ leBytes 1 j.progress, by simp, exec_report rfl hup hlen ?_⟩
    simp only [hj]
  case unfenced =>
    intro hfence
    refine ⟨fun i hadmin hlen hr => exec_regionWrite hup hadmin hfence hlen hr,
      fun i hadmin hlen => exec_accessStage hup hadmin hfence hlen, fun hadmin hnone => ?_,
      fun i hlen => exec_persistBarrier hup hfence hlen, fun i hadmin hlen => exec_inkLimitSet hup hadmin hfence hlen rfl,
      fun i ld hlen hld hid hdeep hshallow hvector hprio hareas hnew hroom =>
        answers_queueCreate hup hfence hlen hld ⟨hid, hdeep, hshallow, hvector, hprio, hareas, hnew, hroom⟩,
      fun i ld hlen hld hsome hshort hwindow hform hnew hplace =>
        answers_scriptLoad hup hfence hlen hld ⟨hsome, hshort, hwindow, hform, hnew, hplace⟩⟩
    exact (exec_accessCommit hup hadmin hfence List.length_nil).trans (congrArg _ (if_neg (by simp [hnone])))
  case queueDelete =>
    intro i ld q hlen hld hq hslots hctxs
    have hlive : ({ q with deleting := some mb } : Queue).live = 0 := by simp [Queue.live, Queue.count, hslots]
    have hgone := State.deleteDone_idle (State.queue_setQueue (s := s) ld (leAt i 0 2) { q with deleting := some mb }) rfl hlive
    exact ⟨_, (exec_queueDelete hup hlen hld hq hslots hctxs).trans (congrArg _ hgone), rfl, rfl, rfl⟩
  case ack =>
    intro i k r hadmin hlen hfind hsev hread hnew
    obtain ⟨u, hu⟩ := State.pbAck_read hfind hsev hread hnew
    refine ⟨u, hu, (exec_pbookAck hup hadmin hlen).trans ?_⟩
    rw [hu]
    rfl
  case route =>
    intro i n hlen hld hev hvec hassigned
    exact ⟨_, exec_eventRoute hup hlen hld hev hvec hassigned, mapGet_set_self _ _ _ _⟩
  case scene =>
    intro i hadmin hlen hbits hdone
    refine ⟨s.enqueued (s.newJob (.mailbox mb) 0x0C 0xFFFF (leAt i 0 2) 0 0), s.newJob (.mailbox mb) 0x0C 0xFFFF (leAt i 0 2) 0 0,
      rfl, rfl, rfl, rfl, (exec_sceneSet hup hadmin hlen hbits).trans (congrArg _ ((State.submitFor_accepted hdone).trans ?_))⟩
    rw [State.submit_done hdone]
  case slot =>
    intro i hadmin hlen hslot
    exact ⟨fun hact hstate hidle => exec_slotPowerOn hup hadmin hlen hslot hact hstate hidle,
      fun hact => exec_ledLocate hup hadmin hlen hslot hact⟩

end
end Sys2Proof.Machine

namespace Sys2Proof.Machine

/-! Jobs, the bus, DROP, key commands and command registers complete (R102, R118, R198, R578, R600, R606, R661, R666, R707, R712,
R721, R730). -/

section
open Sys2Proof.Claims
variable {s : State}

/-! ### Jobs (R730) -/

section
variable {c : Instr} {fr : JobFrom} {queue : Bool} {act target p0 p1 : Nat} {o : JobOut}

/-- Behind jobs of other ids, the job of an id is the last one. -/
theorem State.job_last {u : State} {js : List Job} {j : Job} (hjobs : u.maint.jobs = js ++ [j]) (hnew : ∀ k ∈ js, k.id ≠ j.id) :
    u.job j.id = some j := by
  have hnone : js.find? (fun k => k.id == j.id) = none := by simpa using hnew
  simp [State.job, hjobs, List.find?_append, hnone]

theorem State.tryStart_last {u : State} {js : List Job} {j : Job} (hjobs : u.maint.jobs = js ++ [j])
    (hnew : ∀ k ∈ js, k.id ≠ j.id) (o : JobOut) : u.tryStart j.id o = if u.startable j then u.startJob j o else u := by
  rw [State.tryStart, State.job_last hjobs hnew]

theorem State.submitTell_maint {fr : JobFrom} {u : State} (hfr : fr = .firmware ∨ fr = .controller) (status id : Nat) :
    (u.submitTell fr status id).maint = u.maint := by
  rcases hfr with rfl | rfl <;> rfl

/-- A command that submits for the firmware or the controller, and whose submission is accepted, queues its job. -/
theorem queued_of_submitted (hfr : fr = .firmware ∨ fr = .controller) (hnew : ∀ k ∈ s.maint.jobs, k.id ≠ s.maint.nextId)
    (hexec : exec c s = .next (if act < 12 then (submitted s fr queue act target p0 p1 o).settle
      else submitted s fr queue act target p0 p1 o))
    (hdone : s.submitStatus fr queue act target p0 p1 0 = St.DONE) : Queued c s act target p0 p1 o := by
  have hjobs : ((s.enqueued (s.newJob fr act target p0 p1 0)).submitTell fr St.DONE s.maint.nextId).maint.jobs =
      s.maint.jobs ++ [s.newJob fr act target p0 p1 0] := congrArg MaintUnit.jobs (State.submitTell_maint hfr _ _)
  have hrun : submitted s fr queue act target p0 p1 o = _ := (congrArg
    (fun r : State × Nat × Nat => (r.1.submitTell fr r.2.1 r.2.2).tryStart r.2.2 o) (State.submit_done hdone)).trans
    (State.tryStart_last hjobs hnew o)
  exact ⟨_, s.newJob fr act target p0 p1 0, hjobs, rfl, rfl, rfl, rfl, rfl, rfl, hexec.trans (by rw [hrun])⟩

end

/-! ### PMBus (R600) -/

section
variable {e v : Nat} {c : Instr} {code : Nat}

theorem answers_pmbRead (hcalm : s.inStrike = false) (hvalid : s.pmbValid e = true)
    (hc : (c, code) ∈ [(Instr.statusWord e v, 0x79), (.readVin e v, 0x88), (.readIin e v, 0x89), (.readVout e v, 0x8B),
      (.readIout e v, 0x8C), (.readTemperature1 e v, 0x8D), (.readPout e v, 0x96), (.readPin e v, 0x97)]) :
    Answers c s fun t => t.fld F.SENT_PMB_DATA_data 0 = v % 65536 ∧ t.fld F.SENT_PMB_CMD_status 0 = St.DONE ∧
      t.sent = s.sent ++ [.pmbus (s.fld F.SENT_PMB_TAB_addr e) (s.fld F.SENT_PMB_TAB_page e) code none] := by
  obtain ⟨t, ht, hsent, hstatus, -, -, -, hdata⟩ := onBus_of_filter
    (p := fun t => t.fld F.SENT_PMB_DATA_data 0 = v % 65536) (exec_pmbRead v hc) hcalm hvalid rfl rfl rfl rfl rfl
    (State.pmbRead_data code v _)
  exact ⟨t, ht, hdata, hstatus, hsent⟩

theorem answers_of_onBus {data : Option Nat} {p : State → Prop} (h : OnBus c s e code data p) : Answers c s fun t =>
    t.fld F.SENT_PMB_CMD_status 0 = St.DONE ∧
      t.sent = s.sent ++ [.pmbus (s.fld F.SENT_PMB_TAB_addr e) (s.fld F.SENT_PMB_TAB_page e) code data] := by
  obtain ⟨t, ht, hsent, hstatus, -⟩ := h
  exact ⟨t, ht, hstatus, hsent⟩

theorem answers_voutCommand (hcalm : s.inStrike = false) (hvalid : s.pmbValid e = true) (hband : s.inBand e (v % 65536) = true) :
    Answers (.voutCommand e v) s fun t => t.fld F.SENT_PMB_CMD_status 0 = St.DONE ∧ t.sent = s.sent ++
      [.pmbus (s.fld F.SENT_PMB_TAB_addr e) (s.fld F.SENT_PMB_TAB_page e) 0x21 (some (v % 65536))] :=
  answers_of_onBus (p := fun _ => True)
    (onBus_of_filter (run := fun st => st.pmbSend e 0x21 (some (v % 65536))) rfl hcalm hvalid hband rfl rfl rfl rfl trivial)

theorem answers_operation {on : Bool} (hcalm : s.inStrike = false) (hvalid : s.pmbValid e = true) (hmay : s.railMay e on = true) :
    Answers (.operation e on) s fun t => t.fld F.SENT_PMB_CMD_status 0 = St.DONE ∧ t.sent = s.sent ++
      [.pmbus (s.fld F.SENT_PMB_TAB_addr e) (s.fld F.SENT_PMB_TAB_page e) 1 (some (if on then 0x80 else 0))] :=
  answers_of_onBus (p := fun _ => True) (onBus_of_filter (run := fun st =>
    ({ st with sen := { st.sen with railOps := mapSet st.sen.railOps (st.fld F.SENT_PMB_TAB_group e) st.clock } } :
      State).pmbSend e 0x01 (some (if on then 0x80 else 0))) rfl hcalm hvalid hmay rfl rfl rfl rfl trivial)

end

/-! ### DROP (R578) -/

theorem State.drop_strikes {m : Mains} (haon : s.pwr.aonUp = true) (hcalm : s.inStrike = false)
    (hmet : s.dropMet = true ∨ m.ok = false) : s.drop m = ((s.senseBulk m).raise Ev.DROP).strike 1 := by
  have htrigger : (s.dropMet || (s.senseBulk m).dropMet || !m.ok) = true := by
    rcases hmet with h | h <;> simp [h]
  simp only [State.drop, htrigger, State.senseBulk_pwr, haon, State.senseBulk_inStrike, hcalm, Bool.and_self, Bool.false_eq_true,
    if_true, if_false]

/-! ### Keys (R118, R661, R662, R666, R667) -/

theorem State.keyProg_active {link : Nat} (hlink : link < 8) (hup : s.pwr.ctlUp = true) (hactive : s.fld F.HPORT_STAT_up link = 1) :
    s.keyProg link false = (((s.keyBegin ⟨224 + 2 * link, 2, 0, [], none⟩ false).keyBegin
      ⟨225 + 2 * link, 2, 0, [], none⟩ false).ideReady link) :=
  if_pos (by simp [hup, hlink, State.flag, hactive])

/-- The only load that waits for a slot is performed. -/
theorem State.keyLoaded_only {l : KeyLoad} (hloads : s.sec.loads = [l]) (hslot : l.slot < 224) (hidle : s.slotUses l.slot = 0) :
    s.keyLoaded_ l.slot = ({ s with sec := { s.sec with loads := [] } }).keyPut l := by
  have hhost : ¬ (224 ≤ l.slot ∧ l.slot < 240) := fun h => absurd h.1 (Nat.not_le.mpr hslot)
  simp [State.keyLoaded_, hloads, hidle, hhost]

theorem State.keyDecide_begins {mb slot id : Nat} {blob : List Byte} {gen : Nat} (hlatch : s.fld F.SEC_STAT_latch 0 = 0)
    (hkek : s.fld F.SEC_STAT_kek 0 = 1) (hgen : s.genNow = some gen) (hempty : s.keyLoaded slot = false) :
    s.keyDecide mb slot gen id blob true = s.keyBegin ⟨slot, 1, id, blob, some mb⟩ false := by
  simp [State.keyDecide, State.flag, hlatch, hkek, hgen, hempty]

theorem exec_keyLoad_blob {mb : Nat} {i : List Byte} {good : Bool} (hup : s.mailUp = true) (hadmin : s.mbAdmin mb = true)
    (hlen : i.length = 108) (hblob : leAt i 2 2 = 104) (hslot : leAt i 0 1 ≤ 223) (hform : blobForm (i.drop 4) = true) :
    exec (.keyLoad mb i good) s =
      .next (s.keyDecide mb (leAt i 0 1) (leAt (i.drop 4) 6 1) (leAt (i.drop 4) 8 8) (i.drop 4) good).settle := by
  have hslot' : ¬ 223 < leAt i 0 1 := Nat.not_lt.mpr hslot
  have hload : s.keyLoad mb i good =
      s.keyDecide mb (leAt i 0 1) (leAt (i.drop 4) 6 1) (leAt (i.drop 4) 8 8) (i.drop 4) good := by
    simp [State.keyLoad, hslot', hblob, hform]
  refine next_settle (Eq.trans ?_ hload)
  simp [hup, hlen, hblob, hadmin]

/-- Zeroizing every slot ends every load and sets the latch. -/
theorem State.zeroize_all : (s.zeroize fun _ => true).sec.loads = [] ∧ (s.zeroize fun _ => true).sec.latchAon = true := by
  unfold State.zeroize
  refine ⟨?_, by simp only⟩
  simp only [State.setFlag_sec, State.keyCount, State.setFld_sec]
  rw [State.foldl_proj State.sec (fun t r => by split <;> rfl), State.foldl_proj State.sec (fun t l => by split <;> rfl)]
  simp only [Bool.not_true, List.filter_false]

theorem State.ideLost_sec : s.ideLost.sec = s.sec := by
  unfold State.ideLost
  refine State.foldl_proj State.sec (fun t n => ?_) _
  split <;> rfl

theorem exec_keyAlarm_open {source : Nat} (haon : s.pwr.aonUp = true) (hsource : source ≤ 6)
    (hopen : bitB (s.fld F.SEC_ALARM_mask 0) source = false) (harmed : source = 4 → s.sen.glitchArmed = true) :
    ∃ u : State, exec (.keyAlarm source) s = .next (u.raiseD Ev.KEY_ALARM source).settle ∧ u.sec.latchAon = true ∧
      u.sec.loads = [] := by
  have hshut : ¬ ((!s.pwr.aonUp || decide (6 < source) || bitB (s.fld F.SEC_ALARM_mask 0) source ||
      (source == 4 && !s.sen.glitchArmed)) = true) := by
    have hsource' : ¬ 6 < source := Nat.not_lt.mpr hsource
    simp only [haon, hsource', hopen, Bool.not_true, decide_false, Bool.or_false, Bool.false_or, Bool.and_eq_true, beq_iff_eq,
      Bool.not_eq_true', not_and, Bool.not_eq_false]
    exact harmed
  refine ⟨_, next_settle (if_neg hshut), ?_⟩
  rw [State.ideLost_sec, State.setFlag_sec]
  exact ⟨State.zeroize_all.2, State.zeroize_all.1⟩

theorem State.latchProgram_due (hdue : s.sec.latchDue = true) (hup : s.pwr.ctlUp = true) :
    s.latchProgram = ({ s with sec := { s.sec with latchDue := false } }).storeWrite 0 3 [] := if_pos (by simp [hdue, hup])

/-! ### Commits (R102, R104) -/

theorem State.commitEdge_copies {by_ : Committer} (hby : s.region.commit = some by_) (hready : s.commitReady = true)
    (hcheck : s.commitCheck by_ = none) : s.commitEdge =
      (((({ s with region := { s.region with commit := none } } : State).commitCopy by_).commitStat false
        { status := St.DONE, kind := 3, entry := 0 }).commitTell by_ St.DONE) := by
  simp only [State.commitEdge, hby, hready, hcheck, if_true]

/-- Settles O60: each command's rule, with the field, the job or the record that it leaves. -/
theorem jobsBusAndKeyCommandsComplete : Obligations.JobsBusAndKeyCommandsComplete := by
  refine ⟨?jobs, ?bus, fun s m haon hcalm hmet => next_settle (State.drop_strikes haon hcalm hmet),
    fun s link hlink hup hactive => next_settle (State.keyProg_active hlink hup hactive),
    fun s l hloads hslot hidle => next_settle (State.keyLoaded_only hloads hslot hidle), ?keyLoad,
    fun s source haon hsource hopen harmed => exec_keyAlarm_open haon hsource hopen harmed,
    fun s hdue hup => congrArg Host.Outcome.next (State.latchProgram_due hdue hup), ?commit,
    fun s by_ hby hready hcheck => next_settle (congrArg State.nextCommit (State.commitEdge_copies hby hready hcheck)),
    fun s v => exec_inkLimitWrite v, ?cap, ?fire, fun s v => answers_pbookAckHi v, ?tail, fun _ _ => rfl, ?clear⟩
  case jobs =>
    rintro s q o rfl hup hnew ok
    have hfirmware {c : Instr} {act target p0 p1 : Nat} {o : JobOut}
        (hexec : exec c s = .next (if act < 12 then (s.submitRun .firmware q act target p0 p1 0 o).settle
          else s.submitRun .firmware q act target p0 p1 0 o)) (hdone : ok act target p0 p1) :
        Queued c s act target p0 p1 o := by
      rw [State.submitRun_firmware hup] at hexec
      exact queued_of_submitted (.inl rfl) hnew hexec hdone
    refine ⟨fun _ _ _ _ => hfirmware rfl, fun _ _ _ => hfirmware rfl, fun _ _ _ => hfirmware rfl, fun _ => hfirmware rfl, ?slotAdmit,
      fun _ => hfirmware rfl, hfirmware rfl, fun _ _ _ => hfirmware rfl, fun _ => hfirmware rfl, fun _ _ => hfirmware rfl⟩
    case slotAdmit =>
      exact fun slot hdone => queued_of_submitted (.inr rfl) hnew (next_settle State.submitRun_controller) hdone
  case bus =>
    intro s e v hcalm hvalid
    have hread {c : Instr} {code : Nat} := answers_pmbRead (s := s) (e := e) (v := v) (c := c) (code := code) hcalm hvalid
    exact ⟨hread (by simp), hread (by simp), hread (by simp), hread (by simp), hread (by simp), hread (by simp), hread (by simp),
      hread (by simp), answers_voutCommand hcalm hvalid, answers_operation hcalm hvalid, answers_operation hcalm hvalid⟩
  case keyLoad =>
    intro s mb i hup hadmin hlen hblob hslot hform hlatch hkek hgen hempty
    exact (exec_keyLoad_blob hup hadmin hlen hblob hslot hform).trans
      (congrArg (fun t : State => Host.Outcome.next t.settle) (State.keyDecide_begins hlatch hkek hgen hempty))
  case commit => exact fun s hnone => (exec_accCommit (2 ^ 31)).trans (congrArg Host.Outcome.next (if_pos ⟨by decide, hnone⟩))
  case cap =>
    exact fun s v => ⟨_, exec_sentPcap v, State.cap_setRw_clampCap _⟩
  case fire =>
    intro s v hfire hring hwriter hcore hroutes
    obtain ⟨t, ht, r, hr, hevent, -, htrigger, -⟩ := answers_pbookFire v hfire hring hwriter hcore hroutes
    exact ⟨t, ht, r, hr, hevent, htrigger⟩
  case tail => exact fun s slot r hslot hr => (exec_ringTailRead hslot).trans (by rw [hr])
  case clear =>
    intro s i snap
    obtain ⟨t, ht, hempty, -⟩ := answers_tallyClear (s := s) i snap
    exact ⟨t, ht, hempty⟩

end

end Sys2Proof.Machine

namespace Sys2Proof.Machine

/-! Host links (R93, R94, R99, R119, R121, R135, R138 to R140, R150, R158). -/

section
open Sys2Proof.Claims
variable {s : State} {link width speed : Nat} {lo cxl : Bool}

/-! ### HPORT_STAT of a link -/

/-- A field of HPORT_STAT survives an event. -/
theorem State.fld_hportStat_raiseD (hlink : link < 8) {f : Fld} (hf : f.reg = .HPORT_STAT) (e d : Nat) :
    (s.raiseD e d).fld f link = s.fld f link := fld_raiseD s e d (hf ▸ off_hportStat hlink)

/-- The state whose HPORT_STAT shows a link as up or down, with its width, speed and protocol. -/
def State.linkShown (s : State) (link : Nat) (up : Bool) (width speed : Nat) (lo cxl : Bool) : State :=
  ((((s.setFlag F.HPORT_STAT_up link up).setFld F.HPORT_STAT_width link width).setFld F.HPORT_STAT_speed link speed).setFlag
    F.HPORT_STAT_flit_lo link lo).setFlag F.HPORT_STAT_cxl link cxl

theorem State.fld_setFlag_self {f : Fld} (b : Bool) (h : f.lo = f.hi ∧ f.hi < 32) : (s.setFlag f link b).fld f link = b.toNat := by
  refine (s.fld_setFld_self link (b2n b) ⟨h.1.le, h.2⟩).trans ?_
  rw [h.1]
  cases b <;> simp [b2n]

theorem State.fld_setFld_other {f g : Fld} (v : Nat) (hf : f.lo ≤ f.hi ∧ f.hi < 32) (hreg : g.reg = f.reg)
    (hapart : f.hi < g.lo ∨ g.hi < f.lo) : (s.setFld f link v).fld g link = s.fld g link :=
  Regs.fld_set_other s.regs link v hf hreg hapart

section
variable (s) (link) (up : Bool)

theorem State.linkShown_cxl : (s.linkShown link up width speed lo cxl).fld F.HPORT_STAT_cxl link = cxl.toNat := by
  rw [State.linkShown, State.fld_setFlag_self cxl (by decide)]

theorem State.linkShown_flitLo : (s.linkShown link up width speed lo cxl).fld F.HPORT_STAT_flit_lo link = lo.toNat := by
  rw [State.linkShown, State.fld_setFlag_other (f := F.HPORT_STAT_cxl) (g := F.HPORT_STAT_flit_lo) _ _ _ (by decide) rfl (by decide),
    State.fld_setFlag_self lo (by decide)]

/-- The two flags written last leave width, speed and the active bit. -/
theorem State.linkShown_flags {f : Fld} (hreg : f.reg = .HPORT_STAT) (hlow : f.hi < 12) :
    (s.linkShown link up width speed lo cxl).fld f link = (((s.setFlag F.HPORT_STAT_up link up).setFld F.HPORT_STAT_width link
      width).setFld F.HPORT_STAT_speed link speed).fld f link := by
  rw [State.linkShown,
    State.fld_setFlag_other (f := F.HPORT_STAT_cxl) (g := f) _ _ _ (by decide) hreg (.inr (Nat.lt_succ_of_lt hlow)),
    State.fld_setFlag_other (f := F.HPORT_STAT_flit_lo) (g := f) _ _ _ (by decide) hreg (.inr hlow)]

theorem State.linkShown_speed (hspeed : speed < 16) :
    (s.linkShown link up width speed lo cxl).fld F.HPORT_STAT_speed link = speed := by
  rw [State.linkShown_flags s link up rfl (by decide), State.fld_setFld_self (f := F.HPORT_STAT_speed) _ _ _ (by decide)]
  exact Nat.mod_eq_of_lt hspeed

theorem State.linkShown_width (hwidth : width < 32) :
    (s.linkShown link up width speed lo cxl).fld F.HPORT_STAT_width link = width := by
  rw [State.linkShown_flags s link up rfl (by decide),
    State.fld_setFld_other (f := F.HPORT_STAT_speed) (g := F.HPORT_STAT_width) speed (by decide) rfl (by decide),
    State.fld_setFld_self (f := F.HPORT_STAT_width) _ _ _ (by decide)]
  exact Nat.mod_eq_of_lt hwidth

theorem State.linkShown_up : (s.linkShown link up width speed lo cxl).fld F.HPORT_STAT_up link = up.toNat := by
  rw [State.linkShown_flags s link up rfl (by decide),
    State.fld_setFld_other (f := F.HPORT_STAT_speed) (g := F.HPORT_STAT_up) speed (by decide) rfl (by decide),
    State.fld_setFld_other (f := F.HPORT_STAT_width) (g := F.HPORT_STAT_up) width (by decide) rfl (by decide),
    State.fld_setFlag_self up (by decide)]

end

theorem State.linkExists_lt (h : s.linkExists link = true) : link < 8 := by
  rw [State.linkExists, Bool.and_eq_true, decide_eq_true_eq] at h
  exact h.1

/-! ### The link comes up and goes down (R93, R94, R139) -/

/-- A link that may come up is shown, and told of as CXL begins on it. -/
theorem exec_linkUp (hexists : s.linkExists link = true) (henabled : s.fld F.HPORT_CFG_enable link = 1)
    (hreset : link ∉ s.pwr.linksInReset) (hfrozen : s.fld F.HPORT_STAT_frozen link = 0) (hwidth : width ∈ [1, 2, 4, 8, 16])
    (hshare : width ≤ if s.share link = 16384 then 16 else 8) (hslow : 1 ≤ speed) (hfast : speed ≤ 6) (hlo : lo = true → speed = 6) :
    exec (.linkUp link width speed lo cxl) s = .next (if cxl && !(s.flag F.HPORT_STAT_up link && s.flag F.HPORT_STAT_cxl link) then
      (s.linkShown link true width speed lo cxl).raise (0x108 + link) else s.linkShown link true width speed lo cxl).settle := by
  have hflit : (!lo || speed == 6) = true := by cases lo <;> simp_all
  refine congrArg Host.Outcome.next (if_pos ?_)
  simp only [hexists, State.flag, henabled, hfrozen, List.contains_iff_mem, hflit, hshare, hslow, hfast, hwidth,
    Bool.and_true, Bool.and_eq_true]
  simp [hreset]

theorem State.linkLeave_up (hlink : link < 8) (hup : s.fld F.HPORT_STAT_up link = 1) :
    s.linkLeave link = (s.linkShown link false 0 0 false false).raise (0x100 + link) :=
  if_pos (by simp [State.flag, hup, hlink])

/-! ### Waiting classes and the BOUNDED gate (R150, R158) -/

theorem State.secondOver_iff {o : Option Nat} : s.secondOver o = true ↔ ∀ t ∈ o, t + 1000000 ≤ s.clock := by
  cases o <;> simp [State.secondOver]

theorem State.boundedGate_fld : s.boundedGate.fld F.TRK_STAT_bounded_gate 0 = s.boundedOld.toNat := by
  have hset : (s.setFlag F.TRK_STAT_bounded_gate 0 s.boundedOld).fld F.TRK_STAT_bounded_gate 0 = s.boundedOld.toNat :=
    State.fld_setFlag_self _ (by decide)
  unfold State.boundedGate
  simp only [apply_ite (fun t : State => t.fld F.TRK_STAT_bounded_gate 0)]
  exact (if_congr Iff.rfl (fld_raise _ _ (by decide)) rfl).trans ((ite_self _).trans hset)

/-- Settles O17: each command's rule, with the fields of HPORT_STAT that it leaves. -/
theorem hostLinksComeUpAndGoDown : Obligations.HostLinksComeUpAndGoDown := by
  refine ⟨?up, ?down, fun s link h => congrArg Host.Outcome.next (if_neg (by simp [h])), ?integrity, fun _ _ => rfl, ?flush, ?doe,
    fun _ _ _ _ => rfl, ?starved, fun s => ⟨rfl, State.boundedGate_fld⟩⟩
  case up =>
    intro s link width speed lo cxl hexists henabled hreset hfrozen hwidth hshare hslow hfast hlo
    have hlink := State.linkExists_lt hexists
    have hwidth' : width < 32 := by fin_cases hwidth <;> decide
    refine ⟨_, exec_linkUp hexists henabled hreset hfrozen hwidth hshare hslow hfast hlo, ?_⟩
    have hup := s.linkShown_up link true (width := width) (speed := speed) (lo := lo) (cxl := cxl)
    have hw := s.linkShown_width link true hwidth' (speed := speed) (lo := lo) (cxl := cxl)
    have hs := s.linkShown_speed link true (show speed < 16 by omega) (width := width) (lo := lo) (cxl := cxl)
    have hl := s.linkShown_flitLo link true (width := width) (speed := speed) (lo := lo) (cxl := cxl)
    have hc := s.linkShown_cxl link true (width := width) (speed := speed) (lo := lo) (cxl := cxl)
    have hraise (f : Fld) (hf : f.reg = .HPORT_STAT) := State.fld_hportStat_raiseD
      (s := s.linkShown link true width speed lo cxl) hlink hf (0x108 + link) 0
    split
    next =>
      refine ⟨raise_path .., raise_host .., (hraise _ rfl).trans hup, (hraise _ rfl).trans hw, (hraise _ rfl).trans hs,
        (hraise _ rfl).trans hl, (hraise _ rfl).trans hc, fun _ _ => ⟨_, rfl⟩⟩
    next hquiet =>
      refine ⟨rfl, rfl, hup, hw, hs, hl, hc, fun hcxl hwas => absurd ?_ hquiet⟩
      rcases hwas with h | h <;> simp [hcxl, State.flag, h]
  case down =>
    intro s link hlink hup
    have hraise (f : Fld) (hf : f.reg = .HPORT_STAT) := State.fld_hportStat_raiseD
      (s := s.linkShown link false 0 0 false false) hlink hf (0x100 + link) 0
    exact ⟨_, congrArg Host.Outcome.next (State.linkLeave_up hlink hup), (hraise _ rfl).trans (State.linkShown_up ..),
      (hraise _ rfl).trans (State.linkShown_width _ _ _ (by decide)), (hraise _ rfl).trans (State.linkShown_speed _ _ _ (by decide)),
      (hraise _ rfl).trans (State.linkShown_cxl ..), raise_path .., raise_dram .., _, rfl⟩
  case integrity =>
    intro s link hexists
    refine ⟨_, congrArg Host.Outcome.next (if_pos hexists), ?_, ?_, raiseD_path .., _, rfl⟩
    · exact (State.fld_hportStat_raiseD (State.linkExists_lt hexists) rfl _ _).trans (State.fld_setFlag_self false (by decide))
    · simp only [State.link, State.setLink, raiseD_host, mapGet_set, if_true]
  case flush =>
    intro s link hcalm
    refine congrArg Host.Outcome.next ?_
    by_cases hoff : s.fld F.HPORT_CFG_gpf_en link = 0
    · simp [hcalm, State.flag, hoff, Ev.GPF_DONE]
    · simp [hcalm, State.flag, hoff]
  case doe =>
    refine fun s link protocol => ⟨fun hnone => ⟨fun hoffered => ?_, ?_⟩, fun p hp => ⟨?_, fun hdisc => ?_, fun hcdat => ?_⟩⟩
    · have hoffered' : ¬ 4 < protocol := Nat.not_lt.mpr hoffered
      simp [exec, execDoeRequest, hnone, hoffered']
    · simp [exec, execDoeRequest, hnone]
    · simp [exec, execDoeRequest, hp]
    · simp [exec, execDoeRequest, hp, hdisc, State.doeAnswer]
    · simp [exec, execDoeRequest, hp, hcdat, State.doeAnswer]
  case starved =>
    intro s cls stage
    exact congrArg Host.Outcome.next (ite_eq_of_iff (by rw [Bool.and_eq_true, State.secondOver_iff]) _ _)

end

end Sys2Proof.Machine

namespace Sys2Proof.Machine

/-! HDM decoders and dynamic capacity (R108 to R113). -/

section
open Sys2Proof.Claims
variable {s : State} {dev index base size skip ways gran limit rights : Nat} {lock : Bool}

/-! ### Decoders (R108 to R110) -/

/-- What R108 to R110 ask of a commit of a decoder. -/
def State.HdmMay (s : State) (dev index size skip ways gran : Nat) : Prop :=
  index < 8 ∧ ways ∈ [1, 2, 4, 8, 16, 3, 6, 12] ∧ gran ∈ [256, 512, 1024, 2048, 4096, 8192, 16384] ∧
    size % 0x10000000 = 0 ∧ skip % 0x10000000 = 0 ∧ 0 < size ∧
    ¬ ∃ d, mapGet? s.host.decoders (dev * 8 + index) = some d ∧ d.committed = true ∧ d.lock = true

theorem hdmLocked_eq_false {o : Option Hdm} : (match o with
    | some d => d.committed && d.lock
    | none => false) = false ↔ ¬ ∃ d, o = some d ∧ d.committed = true ∧ d.lock = true := by
  cases o <;> simp

theorem hdmFormOk_iff : hdmFormOk ways gran = true ↔
    ways ∈ [1, 2, 4, 8, 16, 3, 6, 12] ∧ gran ∈ [256, 512, 1024, 2048, 4096, 8192, 16384] := by
  rw [hdmFormOk, Bool.and_eq_true, List.contains_iff_mem, List.contains_iff_mem]

/-- The state with a decoder in place. -/
def State.withDecoder (s : State) (k : Nat) (d : Hdm) : State :=
  { s with host := { s.host with decoders := mapSet s.host.decoders k d } }

theorem exec_hdmCommit [Decidable (s.HdmMay dev index size skip ways gran)] :
    exec (.hdmCommit dev index base size skip ways gran lock) s =
    .next (if s.HdmMay dev index size skip ways gran then
      (s.withDecoder (dev * 8 + index) ⟨true, lock, base, size, skip, ways, gran⟩).send (.hdm dev index true)
      else s.send (.hdm dev index false)) := by
  refine congrArg Host.Outcome.next (ite_eq_of_iff ?_ _ _)
  simp only [State.HdmMay, Bool.and_eq_true, decide_eq_true_eq, hdmFormOk_iff, beq_iff_eq, Bool.not_eq_true', and_assoc,
    ← hdmLocked_eq_false]
  rfl

/-! ### Extents (R111 to R113) -/

theorem setIns_ne_nil (l : List Nat) (k : Nat) : setIns l k ≠ [] := List.ne_nil_of_mem (mem_setIns_self l k)

/-- The region of an extent joins those found before it. -/
def State.dcRegionOf (s : State) (a : List Nat) (x : Nat × Nat × Nat) : List Nat :=
  match s.regionOf false x.2.1 with
  | some e => setIns a e.idx
  | none => a

theorem State.dcRegionOf_ne_nil {a : List Nat} (h : a ≠ []) (x : Nat × Nat × Nat) : s.dcRegionOf a x ≠ [] := by
  unfold State.dcRegionOf
  split
  · exact setIns_ne_nil _ _
  · exact h

theorem State.dcRegions_eq (xs : List (Nat × Nat × Nat)) : s.dcRegions xs = xs.foldl s.dcRegionOf [] := rfl

/-- Extents that lie in no region add none to those found. -/
theorem State.foldl_dcRegionOf {xs : List (Nat × Nat × Nat)} : ∀ {a b : List Nat}, xs.foldl s.dcRegionOf a = [] →
    xs.foldl s.dcRegionOf b = b := by
  have hkeeps : ∀ {ys : List (Nat × Nat × Nat)} {a : List Nat}, a ≠ [] → ys.foldl s.dcRegionOf a ≠ [] := by
    intro ys
    induction ys with
    | nil => exact fun h => h
    | cons y ys ih => exact fun h => ih (State.dcRegionOf_ne_nil h y)
  induction xs with
  | nil => exact fun _ => rfl
  | cons x xs ih =>
    intro a b h
    have hnone : s.regionOf false x.2.1 = none := by
      by_contra hsome
      obtain ⟨e, he⟩ := Option.ne_none_iff_exists'.mp hsome
      refine hkeeps (a := s.dcRegionOf a x) ?_ h
      simp only [State.dcRegionOf, he]
      exact setIns_ne_nil _ _
    have hstay (c : List Nat) : s.dcRegionOf c x = c := by simp only [State.dcRegionOf, hnone]
    rw [List.foldl_cons, hstay]
    exact ih h

/-- An extent in addition lies in one region at most. -/
theorem State.dcRoom_of_none (hfew : (s.dcOut dev).length < 4096) (hnone : s.dcRegions (s.dcOut dev) = []) :
    s.dcRoom dev base limit = true := by
  have hone : (s.dcRegions ((dev, base, limit) :: s.dcOut dev)).length ≤ 1 := by
    rw [State.dcRegions_eq] at hnone ⊢
    rw [List.foldl_cons, State.foldl_dcRegionOf hnone]
    cases h : s.regionOf false base <;> simp [State.dcRegionOf, h, setIns]
  rw [State.dcRoom, Bool.and_eq_true, decide_eq_true_eq, decide_eq_true_eq]
  exact ⟨hfew, hone.trans (by decide)⟩

theorem State.dcRoom_full (hmany : 4096 ≤ (s.dcOut dev).length) : s.dcRoom dev base limit = false := by
  rw [State.dcRoom, decide_eq_false (Nat.not_lt.mpr hmany), Bool.false_and]

/-- A commit of the controller's own starts where none is under way, and waits behind it otherwise. -/
theorem State.ownCommit_settle (by_ : Committer) : (s.ownCommit by_).settle = if s.region.commit = none then
    (s.startCommit by_).settle
    else ({ s with region := { s.region with queued := s.region.queued ++ [by_] } } : State).settle := by
  cases h : s.region.commit <;> simp [State.ownCommit, h]

theorem State.startCommit_release_absent (h : (dev, base, limit) ∉ s.host.extents) (off old : Nat) :
    s.startCommit (.dcRelease dev base limit off old) = s.send (.capacity dev base limit false false) := by
  have hprepare : s.dcPrepare (.dcRelease dev base limit off old) = none := if_neg (by simpa using h)
  rw [State.startCommit, hprepare]
  rfl

/-- Settles O19: each command's rule, with the decoder or the commit that it leaves. -/
theorem hdmDecodersAndDynamicCapacity : Obligations.HdmDecodersAndDynamicCapacity := by
  refine ⟨?commit, ?uncommit, fun s dev base limit rights => ⟨?add, ?full, ?room⟩, fun s dev base limit => ⟨?release, ?absent⟩⟩
  case commit =>
    intro s dev index base size skip ways gran lock
    classical
    refine ⟨_, exec_hdmCommit, fun hok => ?_, fun hbad => if_neg hbad⟩
    rw [if_pos (show s.HdmMay dev index size skip ways gran from hok)]
    exact ⟨mapGet?_set_self _ _ _, rfl, fun k hk => mapGet?_set_ne _ _ hk⟩
  case uncommit =>
    intro s dev index d hd
    refine ⟨fun hlock => ?_, fun hfree => ?_⟩
    · simp only [exec, execHdmUncommit, hd, hlock, if_true]
    · refine ⟨_, rfl, ?_⟩
      simp only [hd, hfree, Bool.false_eq_true, if_false, mapGet?_del, if_true, and_self]
  case add =>
    intro hroom hrange hrights
    exact congrArg Host.Outcome.next ((if_pos (by simp [hroom, hrange, hrights])).trans (State.ownCommit_settle _))
  case full => exact fun hmany => congrArg Host.Outcome.next (if_neg (by simp [State.dcRoom_full hmany]))
  case room =>
    rintro xs rfl hfew hnone
    exact State.dcRoom_of_none hfew hnone
  case release => exact congrArg Host.Outcome.next (State.ownCommit_settle _)
  case absent =>
    intro hnone habsent
    exact congrArg Host.Outcome.next ((State.ownCommit_settle _).trans ((if_pos hnone).trans
      (congrArg State.settle (State.startCommit_release_absent habsent 0 0))))

end

end Sys2Proof.Machine

namespace Sys2Proof.Machine

/-! The SPDM responder (R121, R653, R654, R665). -/

section
open Sys2Proof.Claims
variable {s : State} {ch : Nat}

/-- The sessions after the one of an id is finished, with how its requester authenticated itself. -/
def State.finished (s : State) (id : Nat) (mutualAuth : Bool) (leaf : Nat) : List SpdmSession :=
  s.sec.sessions.map fun y => if y.id = id then { y with finished := true, mutualAuth := mutualAuth, leaf := leaf } else y

theorem State.endSession_sessions {id : Nat} (t : State) (y : SpdmSession) (hy : y ∈ (t.endSession id).sec.sessions) : y.id ≠ id := by
  simpa using (List.mem_filter.mp hy).2

/-! ### The order of a negotiation (R653) -/

theorem State.spdmFree_eq (code n : Nat) : s.spdmFree ch code n = (s.freeBytes n).2.send (.spdm ch code (s.freeBytes n).1) := rfl

section
variable {need : Nat} {body : State → State} (hup : s.spdmUp ch = true)
include hup

theorem State.spdmReq_runs (hstage : need ≤ s.connStage ch) : s.spdmReq ch need body = body s := by
  simp only [State.spdmReq, hup, Nat.not_lt.mpr hstage, Bool.not_true, Bool.false_eq_true, if_false]

theorem State.spdmReq_early (hstage : s.connStage ch < need) : s.spdmReq ch need body = s.send (.spdm ch 0x7F [0x04, 0]) := by
  simp only [State.spdmReq, hup, hstage, Bool.not_true, Bool.false_eq_true, if_false, if_true]
  rfl

theorem answers_getVersion : Answers (.getVersion ch) s fun t => t.connStage ch = 1 ∧ (∀ x ∈ t.sec.sessions, x.chan ≠ ch) ∧
    t.sent = s.sent ++ [.spdm ch 0x04 [0, 2, 0x00, 0x12, 0x00, 0x13]] := by
  refine ⟨_, congrArg Host.Outcome.next (State.spdmReq_runs hup (Nat.zero_le _)), ?_, fun x hx => ?_, rfl⟩
  · simp [State.connStage, State.spdm, State.setConn, State.send]
  · simpa using (List.mem_filter.mp hx).2

theorem answers_getCapabilities (hstage : 1 ≤ s.connStage ch) : Answers (.getCapabilities ch) s fun t => t.connStage ch = 2 := by
  refine ⟨_, congrArg Host.Outcome.next (State.spdmReq_runs hup hstage), ?_⟩
  simp [State.connStage, State.spdm, State.setConn, State.send]

theorem answers_negotiateAlgorithms (hstage : 2 ≤ s.connStage ch) :
    Answers (.negotiateAlgorithms ch true) s fun t => t.connStage ch = 3 := by
  refine ⟨_, congrArg Host.Outcome.next (State.spdmReq_runs hup hstage), ?_⟩
  simp [State.connStage, State.spdmFree, State.spdm, State.send, State.freeBytes_sec, State.setConn]

theorem exec_negotiateAlgorithms_bad (hstage : 2 ≤ s.connStage ch) :
    exec (.negotiateAlgorithms ch false) s = .next (s.send (.spdm ch 0x7F [0x01, 0])) :=
  congrArg Host.Outcome.next (State.spdmReq_runs hup hstage)

/-! ### Certificates and measurements (R653) -/

variable (hstage : 3 ≤ s.connStage ch)
include hstage

theorem exec_getCertificate (slot off n : Nat) : exec (.getCertificate ch slot off n) s = .next
    (if slot ≠ 0 ∨ 65536 < off + n then s.send (.spdm ch 0x7F [0x01, 0])
      else (s.freeBytes n).2.send (.spdm ch 0x02 (s.freeBytes n).1)) :=
  congrArg Host.Outcome.next (State.spdmReq_runs hup hstage)

theorem exec_challenge (slot : Nat) : exec (.challenge ch slot) s = .next (if slot ≠ 0 then s.send (.spdm ch 0x7F [0x01, 0])
    else (s.freeBytes 224).2.send (.spdm ch 0x03 (s.freeBytes 224).1)) := by
  refine congrArg Host.Outcome.next ((State.spdmReq_runs hup hstage).trans ?_)
  rw [State.spdmFree_eq]
  rfl

theorem exec_getMeasurements_one {i : Nat} (hlow : 1 ≤ i) (hhigh : i ≤ 8) :
    exec (.getMeasurements ch i false) s = .next (s.send (.spdm ch 0x60 ([1] ++ s.measBlock i))) := by
  refine congrArg Host.Outcome.next ((State.spdmReq_runs hup hstage).trans ?_)
  have hall : i ≠ 0xFF := by omega
  have hzero : i ≠ 0 := by omega
  have hbad : ¬ (8 < i ∧ i ≠ 0xFF) := by omega
  simp only [hall, hzero, hbad, hlow, hhigh, and_self, Bool.false_eq_true, if_true, if_false, State.freeBytes, State.spdm,
    List.length_singleton, List.flatMap_singleton, List.append_nil]
  rfl

theorem exec_getMeasurements_all : exec (.getMeasurements ch 0xFF false) s =
    .next (s.send (.spdm ch 0x60 ([8] ++ [1, 2, 3, 4, 5, 6, 7, 8].flatMap s.measBlock))) := by
  refine congrArg Host.Outcome.next ((State.spdmReq_runs hup hstage).trans ?_)
  exact congrArg (fun bs => s.send (.spdm ch 0x60 bs)) (List.append_nil _)

/-! ### Sessions (R653 to R655) -/

theorem exec_keyExchange_opens (hchan : (s.sec.sessions.filter fun x => x.chan == ch).length < sessionLimit ch)
    (hall : s.sec.sessions.length < 32) : Answers (.keyExchange ch true) s fun t =>
      t.sec.sessions = s.sec.sessions ++ [⟨ch, s.sec.nextSession, false, false, 0⟩] ∧ t.sec.nextSession = s.sec.nextSession + 1 := by
  have hroom : ¬ (sessionLimit ch ≤ (s.sec.sessions.filter fun x => x.chan == ch).length ∨ 32 ≤ s.sec.sessions.length) :=
    not_or.mpr ⟨Nat.not_le.mpr hchan, Nat.not_le.mpr hall⟩
  refine ⟨_, rfl, ?_⟩
  rw [State.spdmReq_runs hup hstage]
  dsimp only
  rw [if_neg (by decide), if_neg hroom]
  simp only [State.spdm, State.send, State.freeBytes_sec, and_self]

theorem exec_keyExchange_full
    (hfull : sessionLimit ch ≤ (s.sec.sessions.filter fun x => x.chan == ch).length ∨ 32 ≤ s.sec.sessions.length) :
    exec (.keyExchange ch true) s = .next (s.send (.spdm ch 0x7F [0x0A, 0])) := by
  refine congrArg Host.Outcome.next ((State.spdmReq_runs hup hstage).trans ?_)
  dsimp only
  rw [if_neg (by decide), if_pos hfull]
  rfl

section
variable {id : Nat} {x : SpdmSession} (hx : s.session ch id = some x)
include hx

theorem answers_finish_authenticated (hopen : x.finished = false) (leaf : Nat) :
    Answers (.finish ch id true (.authenticated leaf)) s fun t => t.sec.sessions = s.finished id true leaf := by
  refine ⟨_, congrArg Host.Outcome.next (State.spdmReq_runs hup hstage), ?_⟩
  simp [hx, hopen, State.spdmFree, State.spdm, State.send, State.freeBytes_sec, State.finished]

theorem answers_finish_anonymous (hopen : x.finished = false) (hhost : ch ≠ 9) :
    Answers (.finish ch id true .anonymous) s fun t => t.sec.sessions = s.finished id false 0 := by
  refine ⟨_, congrArg Host.Outcome.next (State.spdmReq_runs hup hstage), ?_⟩
  simp [hx, hopen, hhost, State.spdmFree, State.spdm, State.send, State.freeBytes_sec, State.finished]

theorem answers_finish_twin (hopen : x.finished = false) (htwin : ch = 9) :
    Answers (.finish ch id true .anonymous) s fun t => ∀ y ∈ t.sec.sessions, y.id ≠ id := by
  subst htwin
  refine ⟨_, congrArg Host.Outcome.next (State.spdmReq_runs hup hstage), ?_⟩
  simp only [hx, hopen, Bool.not_true, Bool.false_eq_true, if_true, if_false]
  exact State.endSession_sessions _

theorem exec_spdmHeartbeat_open (hopen : x.finished = false) :
    exec (.spdmHeartbeat ch id) s = .next (s.send (.spdm ch 0x7F [0x04, 0])) := by
  refine congrArg Host.Outcome.next ((State.spdmReq_runs hup hstage).trans ?_)
  simp only [hx, hopen, Bool.not_false, if_true]
  rfl

variable (hfinished : x.finished = true) (hroom : mapGet 0 s.sec.counters (1024 + id) + 1 < 2 ^ 64 - 2 ^ 20)
include hfinished hroom

theorem answers_spdmHeartbeat : Answers (.spdmHeartbeat ch id) s fun t =>
    mapGet 0 t.sec.counters (1024 + id) = mapGet 0 s.sec.counters (1024 + id) + 1 ∧ t.sent = s.sent ++ [.spdm ch 0x68 []] := by
  refine ⟨_, congrArg Host.Outcome.next (State.inSession_finished hup hstage hx hfinished hroom), ?_, rfl⟩
  simp [State.spdm, State.send, State.sessionCounted]

theorem answers_keyUpdate : Answers (.keyUpdate ch id) s fun t =>
    mapGet 0 t.sec.counters (1024 + id) = 0 ∧ t.sent = s.sent ++ [.spdm ch 0x69 []] := by
  refine ⟨_, congrArg Host.Outcome.next (State.inSession_finished hup hstage hx hfinished hroom), ?_, rfl⟩
  simp [State.spdm, State.send, mapGet, mapGet?_del]

theorem answers_endSession : Answers (.endSession ch id) s fun t =>
    (∀ y ∈ t.sec.sessions, y.id ≠ id) ∧ t.sent = s.sent ++ [.spdm ch 0x6C []] :=
  ⟨_, congrArg Host.Outcome.next (State.inSession_finished hup hstage hx hfinished hroom), State.endSession_sessions _, rfl⟩

end

end

/-- Settles O20: each request's rule, by the stage of its channel's connection and the state of its session. -/
theorem spdmNegotiationAndSessions : Obligations.SpdmNegotiationAndSessions := by
  refine ⟨State.freeBytes_length, fun s ch hup => ⟨answers_getVersion hup, congrArg Host.Outcome.next (if_pos hup),
    answers_getCapabilities hup, fun h => congrArg Host.Outcome.next (State.spdmReq_early hup h),
    fun h => ⟨answers_negotiateAlgorithms hup h, exec_negotiateAlgorithms_bad hup h⟩,
    fun h => congrArg Host.Outcome.next (State.spdmReq_early hup h)⟩, fun s ch hup hstage => ⟨?digests, exec_getCertificate hup hstage,
    exec_challenge hup hstage, fun i => exec_getMeasurements_one hup hstage, exec_getMeasurements_all hup hstage, ?keyExchange⟩,
    fun s ch id x hup hstage hx => ⟨fun hopen => ⟨answers_finish_authenticated hup hstage hx hopen,
      answers_finish_twin hup hstage hx hopen, answers_finish_anonymous hup hstage hx hopen,
      exec_spdmHeartbeat_open hup hstage hx hopen⟩,
    fun hfinished hroom => ⟨answers_spdmHeartbeat hup hstage hx hfinished hroom, answers_keyUpdate hup hstage hx hfinished hroom,
      answers_endSession hup hstage hx hfinished hroom⟩⟩⟩
  case digests => exact congrArg Host.Outcome.next (State.spdmReq_runs hup hstage)
  case keyExchange =>
    rintro n rfl
    exact ⟨exec_keyExchange_opens hup hstage, exec_keyExchange_full hup hstage⟩

end

end Sys2Proof.Machine

namespace Sys2Proof.Machine

/-! Firmware updates over the mailbox (R124, R126, R638, R639, R647). -/

section
open Sys2Proof.Claims
variable {s : State} {mb : Nat} {input : List Byte}

/-! ### Transfer FW (R638) -/

/-- The offset in the staging area of the part that an input brings. -/
def partOff (input : List Byte) : Nat := leAt input 4 4 * 128

/-- The end that a part of an action below 4 comes to. -/
theorem State.transferFw_part (hact : leAt input 0 1 ≤ 3) : s.transferFw mb input =
    if partOff input % 256 ≠ 0 ∨ 4 * 2 ^ 20 < partOff input + (input.drop 128).length then
      s.send (.mailbox mb 0x0201 .invalidInput [])
    else if s.fwOps 3 ≠ [] then s.send (.mailbox mb 0x0201 .busy [])
    else if ∃ p ∈ transferPages (partOff input) (input.drop 128).length, p ∈ s.core.pages then
      s.send (.mailbox mb 0x0201 .invalidInput [])
    else if ∃ p ∈ transferPages (partOff input) (input.drop 128).length, s.fwProtected (fwSector (p * 256)) = true then
      (s.raise Ev.FWF_PROT_DENIED).send (.mailbox mb 0x0201 .invalidInput [])
    else let t := s.fwProg (stagingBase + partOff input) (input.drop 128)
      ({ t with core := { t.core with pages :=
        (transferPages (partOff input) (input.drop 128).length).foldl setIns t.core.pages } } : State).send
          (.mailbox mb 0x0201 .success []) := by
  have hgiven : ¬ leAt input 0 1 = 4 := by omega
  have hknown : ¬ 4 < leAt input 0 1 := by omega
  refine (if_neg hgiven).trans (if_congr (by rw [or_iff_right hknown]; rfl) rfl (if_congr (by simp) rfl ?_))
  refine if_congr (by simp [partOff]) rfl (if_congr (by simp [partOff]) rfl rfl)

theorem exec_transferFw (hup : s.mailUp = true) (hlen : 128 ≤ input.length) :
    exec (.transferFw mb input) s = .next (s.transferFw mb input) :=
  congrArg Host.Outcome.next ((if_neg (by simp [hup])).trans (if_neg (Nat.not_lt.mpr hlen)))

/-- What programming the boot flash leaves as it was. -/
theorem State.fwProg_frame (a : Nat) (bs : List Byte) : (s.fwProg a bs).core.pages = s.core.pages ∧
    (s.fwProg a bs).sent = s.sent ∧ (s.fwProg a bs).regs = s.regs ∧ (s.fwProg a bs).path = s.path := ⟨rfl, rfl, rfl, rfl⟩

/-! ### Activate FW (R638, R647) -/

theorem exec_activateFw (hup : s.mailUp = true) (hlen : input.length = 2) (ok : Bool) :
    exec (.activateFw mb input ok) s = .next (s.activateFw mb input ok).settle :=
  next_settle ((if_neg (by simp [hup])).trans (if_neg (not_not.mpr hlen)))

theorem State.activateFw_otherSlot (hslot : leAt input 1 1 ≠ s.idleSlot + 1) (ok : Bool) :
    s.activateFw mb input ok = s.send (.mailbox mb 0x0202 .invalidInput []) := if_pos (.inr hslot)

theorem State.activateFw_later (hslot : leAt input 1 1 = s.idleSlot + 1) (hact : leAt input 0 1 = 1) (ok : Bool) :
    s.activateFw mb input ok = s.fwLater mb ok :=
  (if_neg (by simp [hslot, hact])).trans (if_pos hact)

theorem State.fwLater_rejected {ok : Bool} (himage : s.imageOk stagingBase ok = false) : s.fwLater mb ok =
    ((s.raise Ev.IMAGE_REJECTED).raise Ev.FWF_UPDATE_REFUSED).send (.mailbox mb 0x0202 .invalidInput []) :=
  if_pos (by simp [himage])

theorem State.fwLater_written {ok : Bool} (himage : s.imageOk stagingBase ok = true) (hslot : s.fwOps (s.idleSlot + 1) = [])
    (hparams : s.fwOps 0 = []) (hopen : s.slotShut s.idleSlot = none) :
    s.fwLater mb ok = (s.slotWrite s.idleSlot).send (.mailbox mb 0x0202 .success []) := by
  simp only [State.fwLater, himage, hslot, hparams, hopen, List.isEmpty_nil, Bool.not_true, Bool.or_self, Bool.false_eq_true, if_false]

/-- Settles O26: the part of an image and the activation by the first check that they fail. -/
theorem firmwareUpdateOverTheMailbox : Obligations.FirmwareUpdateOverTheMailbox := by
  refine ⟨fun s mb hup => exec_standard (body := fun t => t.fwInfo mb) rfl hup List.length_nil rfl, ?transfer, ?activate⟩
  case transfer =>
    intro s mb input hup hlen off bs ps
    have hexec := exec_transferFw (mb := mb) hup hlen
    have hformed (halign : off % 256 = 0) (hsize : off + bs.length ≤ 4 * 2 ^ 20) :
        ¬ (off % 256 ≠ 0 ∨ 4 * 2 ^ 20 < off + bs.length) := not_or.mpr ⟨not_not.mpr halign, Nat.not_lt.mpr hsize⟩
    refine ⟨fun hact halign hsize hquiet hblank hopen => ?_, fun hact hbad => ?_, fun hact halign hsize hbusy => ?_⟩
    · have hwritten : ¬ ∃ p ∈ ps, p ∈ s.core.pages := fun ⟨p, hp, hin⟩ => hblank p hp hin
      have hprotected : ¬ ∃ p ∈ ps, s.fwProtected (fwSector (p * 256)) = true := fun ⟨p, hp, hprot⟩ => by
        simp [hopen p hp] at hprot
      have hprog := (State.transferFw_part (s := s) (mb := mb) hact).trans <| (if_neg (hformed halign hsize)).trans <|
        (if_neg (not_not.mpr hquiet)).trans <| (if_neg hwritten).trans (if_neg hprotected)
      obtain ⟨hpages, hsent, hregs, hpath⟩ := s.fwProg_frame (0x3000000 + off) bs
      exact ⟨_, hexec.trans (congrArg Host.Outcome.next hprog), rfl, congrArg (ps.foldl setIns) hpages,
        congrArg (· ++ [Out.mailbox mb 0x0201 .success []]) hsent, hregs, hpath⟩
    · exact hexec.trans (congrArg Host.Outcome.next ((State.transferFw_part hact).trans (if_pos hbad)))
    · exact hexec.trans (congrArg Host.Outcome.next
        ((State.transferFw_part hact).trans ((if_neg (hformed halign hsize)).trans (if_pos hbusy))))
  case activate =>
    intro s mb input ok hup hlen
    have hends {t : State} (h : s.activateFw mb input ok = t) : exec (.activateFw mb input ok) s = .next t.settle :=
      (exec_activateFw hup hlen ok).trans (congrArg (fun u : State => Host.Outcome.next u.settle) h)
    exact ⟨fun hslot => hends (State.activateFw_otherSlot hslot ok),
      fun hslot hact himage => hends ((State.activateFw_later hslot hact ok).trans (State.fwLater_rejected himage)),
      fun hslot hact himage hidle hparams hopen =>
        hends ((State.activateFw_later hslot hact ok).trans (State.fwLater_written himage hidle hparams hopen))⟩

end

end Sys2Proof.Machine
